-- ==== Sys2Proof/Word.lean ====
section
/-!
DEFINITION. Sys2Proof/Word.lean: the widths the manual works in (R2, R5, R35, R154).
-/
namespace Sys2Proof

/-- A cell: the 12-bit native width of the device (R2). -/
abbrev Cell := BitVec 12

/-- A cell as it is stored: bit 12 is its parity bit, set so that bits [12:0] hold an even number of
ones (R154, R318). -/
abbrev SCell := BitVec 13

/-- A byte of HBM, host memory or a link frame. -/
abbrev Byte := BitVec 8

/-- A register of BAR0 or of a doorbell page (R5). -/
abbrev Word := BitVec 32

/-- A slot: six cells, 72 bits (R2). -/
abbrev Slot := BitVec 72

/-- A barge: 32 cells (R227). -/
abbrev Barge := BitVec 384

end Sys2Proof
end

