-- ==== Sys2Proof/Syntax.lean ====
section
/-!
DEFINITION. Sys2Proof/Syntax.lean: the commands, one constructor for each row of the table of operations and events, with
the row's operands. Nothing here has a meaning; Machine gives it.
-/
namespace Sys2Proof

/-- Who makes an access to BAR0 state (R548): the host through the physical function, a keeper with its ring and
RG.tenant (R357, R358), or the Capstan monitor. -/
inductive Requester where
  | pf
  | keeper (k : Fin 4) (ring : BitVec 2) (tenant : BitVec 4)
  | capstan
  deriving DecidableEq, Repr

/-- The stop that ROLLBACK and RESUME carry (R286). -/
inductive ReplayStop where
  | none
  | at (pound : BitVec 24) (dcycle : BitVec 20) (every : Bool)
  deriving DecidableEq, Repr

/-- How a bring-up step ended (R515, R516). -/
inductive BringUpFailure where
  | passed
  | failed
  /-- BIST results of step 3: the physical clusters that failed, and the other units that can go behind stop planks, by class, instance
  and unit (R328, R515). -/
  | units (clusters : List (Fin 408)) (others : List (BitVec 4 × BitVec 9 × BitVec 23))
  /-- The fuse read of step 2 failed. -/
  | fuses
  /-- The boot ROM's check value is wrong, or a word of it fails parity, while keeper 0 runs from it (R514). -/
  | rom
  deriving DecidableEq, Repr

/-- The commands. `who` and `value` are the requester and the word of a register write; `access` is `some` word for a
write and `none` for a read. A keeper operation is the instruction the keeper has fetched at its program counter; `o` is
its operand field (R360). -/
inductive Instr where
  /-- ISSUE_STEP (R39). A cluster group of the partition issues one instruction word per cluster and completes the step at the barrier once every operand, berth and memory datum is ready. -/
  | issueStep (t : Fin 16)
  /-- REFETCH (R67). A program word that failed parity is fetched again from the golden copy, completing within 2 us. -/
  | refetch (cluster : Fin 408)
  /-- LIVE_SUBSTITUTION (R335). At a step boundary, the outgoing cluster's state is copied to the spare, which takes the position. -/
  | liveSubstitution (cluster : Fin 408)
  /-- DMEM_READ_RETURN (R160). Design-memory data arrives at the reach unit, releasing a waiting step. -/
  | dmemReadReturn (cluster : Fin 408) (slot : Fin 12) (xlateFault : Bool)
  /-- STEP_DONE_MARKER (R167). A home receives a reach's step-done marker, and the fence may close. The home, and the step
  at it. -/
  | stepDoneMarker (t : Fin 16) (reach : Fin 24) (step : Fin 2 × Nat)
  /-- FENCE_CLOSE (R167). A holder receives a fence close and applies its buffered writes. The home that closes it, and the step. -/
  | fenceClose (t : Fin 16) (reach : Fin 24) (step : Fin 2 × Nat)
  /-- GETS (R170). The home handles a read miss for a line. -/
  | gets (reach : Fin 24) (line : Nat) (stamp : Nat)
  /-- GETM (R170). The home handles a write miss or upgrade. -/
  | getm (reach : Fin 24) (line : Nat) (stamp : Nat)
  /-- PUTM (R173). The home takes a dirty eviction, completing any racing grant. -/
  | putm (reach : Fin 24) (line : Nat)
  /-- FWD_GETM (R170). An owner receives a forward and supplies or ignores the line. -/
  | fwdGetm (reach : Fin 24) (line : Nat)
  /-- RETRY (R171). A requester receives Retry and waits in the wake queue. -/
  | retry (reach : Fin 24) (line : Nat)
  /-- WAKE_MESSAGE (R171). A requester receives Wake and reissues with its original stamp. -/
  | wakeMessage (reach : Fin 24) (line : Nat)
  /-- WB_ACK (R173). The old owner receives WB-Ack and frees its writeback entry. -/
  | wbAck (reach : Fin 24) (line : Nat)
  /-- LINE_DATA (R170). A requester receives line data, applies its access and acknowledges. -/
  | lineData (reach : Fin 24) (line : Nat)
  /-- TRANSACTION_END (R170). The home receives the acknowledge, clears busy and wakes the queue head. -/
  | transactionEnd (line : Nat)
  /-- PAGE_COPY (R175). The first-dirtied page's pre-image copy completes and the held write is released. -/
  | pageCopy (t : Fin 16) (region : BitVec 10) (page : BitVec 13)
  /-- DMEM_RETIRE (R177). A write of go starts a page retirement. -/
  | dmemRetire (who : Requester) (value : Word)
  /-- RETIRE_DONE (R177). A page retirement completes and sets retire_done. -/
  | retireDone (uncorrectable : Bool)
  /-- DMEM_R_FLUSH (R188). A write of flush writes back and empties the reach cache. -/
  | dmemRFlush (who : Requester) (value : Word)
  /-- HBM_TEMP_READ (R184). Every 1 ms the stack temperature is read and the throttle state is set. -/
  | hbmTempRead (stack : Fin 2) (temp : BitVec 8)
  /-- SHORTFALL_WINDOW (R185). At the end of each window, a shortfall is counted, logged and possibly alarmed. -/
  | shortfallWindow (t : Fin 16) (stack : Fin 2) (short : Bool)
  /-- BERTH_ARRIVAL (R195). An arriving value is stored or discarded by the first matching row. -/
  | berthArrival (reach : Fin 24) (berth source tag : Cell) (parity : Bool) (epoch : BitVec 2) (value : Cell)
  /-- BERTH_CLEAR (R200). An arriving clear resets its outstanding bit, releasing a waiting send. -/
  | berthClear (reach : Fin 24) (tag : Cell) (parity : Bool) (epoch : BitVec 2)
  /-- HOST_BLOCKING_FILL (R203). A supplied host value fills a blocking port entry once it is empty. -/
  | hostBlockingFill (t : Fin 16) (port : BitVec 10)
  /-- BERTH_WATCHDOG (R215). A berth or clear wait exceeds the limit, and the expiry is latched and alarmed. -/
  | berthWatchdog (reach : Fin 24) (isClear : Bool) (index : Cell) (parity : Bool)
  /-- CODEWORD (R221). An RS codeword of a train is decoded, corrected or marked uncorrectable. -/
  | codeword (link : Fin 16) (symbols : List (BitVec 10))
  /-- BARGE (R232). A received sequenced barge is accepted or discarded by CRC, seq and round. -/
  | barge (link : Fin 16) (barge : Barge)
  /-- READ_RESPONSE (R464). A VC1 read response is delivered to the requester. -/
  | readResponse (ch : Fin 64) (status : BitVec 3) (cells : List Cell)
  /-- WRITE_ACK (R464). A VC1 write acknowledgement is delivered to the requester. -/
  | writeAck (ch : Fin 64) (status : BitVec 3)
  /-- STATUS_BARGE (R229). A status link barge updates ack, NAK and paddle credits. -/
  | statusBarge (link : Fin 16) (barge : Barge)
  /-- LANE_SWAP (R258). A lane-swap link barge drives a swap request, announce or grant. -/
  | laneSwap (link : Fin 16) (barge : Barge)
  /-- PARAMETER_BARGE (R249). A training parameter barge is accepted or refused. -/
  | parameterBarge (link : Fin 16) (barge : Barge)
  /-- RETIRE_BARGE (R260). A received retire barge makes the link retire. -/
  | retireBarge (link : Fin 16) (barge : Barge)
  /-- TRAINING_FRAME (R248). A lane's training frame carries coefficient requests and state. -/
  | trainingFrame (link : Fin 16) (lane : Fin 5) (frame : BitVec 96)
  /-- BARGE_SLOT (R237). At each barge slot the transmitter sends a status barge, a replay or a new barge by rank. -/
  | bargeSlot (link : Fin 16)
  /-- REPLAY_TIMEOUT (R234). With no ack progress for 2 us, the transmitter replays in its current round. -/
  | replayTimeout (link : Fin 16)
  /-- ESCAPE_WAIT (R241). A VC1 barge waiting too long moves to VC3. -/
  | escapeWait (link : Fin 16)
  /-- TRAINING_TIMEOUT (R247). A training or retrain state overruns its bound. -/
  | trainingTimeout (link : Fin 16)
  /-- DETECT_LOCK (R247). Every lane has held CDR lock for 1 ms, and the link moves to Equalize. -/
  | detectLock (link : Fin 16)
  /-- LANE_SER_WINDOW (R259). Every 1 ms, lane corrected-symbol counts are checked against the threshold. -/
  | laneSerWindow (link : Fin 16)
  /-- CDR_LOSS (R259). A lane loses CDR lock while Active, and a swap starts. -/
  | cdrLoss (link : Fin 16) (lane : Fin 5)
  /-- PLANNED_RETIRE_DRAIN (R261). The replay buffer has emptied, or 100 us have passed, and the planned retirement completes. -/
  | plannedRetireDrain (link : Fin 16)
  /-- AQ_ENABLE (R247). A write of AQ_CTRL.enable moves the link out of or into Off. -/
  | aqEnable (who : Requester) (value : Word)
  /-- AQ_RETRAIN (R266). A write of AQ_CTRL.retrain retrains an Active link. -/
  | aqRetrain (who : Requester) (value : Word)
  /-- AQ_RETIRE (R261). A write of AQ_CTRL.retire starts a planned retirement. -/
  | aqRetire (who : Requester) (value : Word)
  /-- AQ_MARGIN (R263). A write of go starts a margin scan. -/
  | aqMargin (who : Requester) (value : Word)
  /-- MARGIN_SCAN_DONE (R263). A margin scan finishes and its result is stored. -/
  | marginScanDone (link : Fin 16) (lane : Fin 5) (errors : Word)
  /-- AQ_ROUTE_DATA (R253). A route-cell access stores or reads the cell, auto-increments and recomputes the entry. -/
  | aqRouteData (who : Requester) (access : Option Word)
  /-- ARRIVE (R287). A parent receives ARRIVE; once all have arrived it forwards, or the root decides. -/
  | arrive (t : Fin 16) (child : Cell) (lock : BitVec 24) (captureFail early : Bool) (devices : Cell)
  /-- COMMIT (R288). A device forwards COMMIT, commits the slot, releases outputs, applies shadows and syncs time. -/
  | commit (t : Fin 16) (lock : BitVec 24) (export_ : Bool) (rootTime delay elapsed : Nat)
  /-- REQ (R301). The root receives a rollback or suspension request. -/
  | req (t : Fin 16) (lock : BitVec 24) (epoch : BitVec 2) (older suspend : Bool) (cause : BitVec 4)
  /-- ROLLBACK (R302). A device forwards ROLLBACK, adopts the new epoch and starts the restore actions. -/
  | rollback (t : Fin 16) (target : BitVec 24) (epoch : BitVec 2) (replay : Bool) (stop : ReplayStop)
  /-- RESTORE_COMPLETE (R302). The restore actions complete on a device. -/
  | restoreComplete (t : Fin 16)
  /-- RESTORED (R306). A parent receives RESTORED; the root resumes, falls back or suspends. -/
  | restored (t : Fin 16) (child : Cell) (target : BitVec 24) (epoch : BitVec 2) (unusable early olderUnusable : Bool) (devices : Cell)
  /-- RESUME (R302). A device forwards RESUME and step 0 issues. -/
  | resume (t : Fin 16) (target : BitVec 24) (epoch : BitVec 2) (stop : ReplayStop)
  /-- SUSPEND (R309). A device forwards SUSPEND and the partition is suspended. -/
  | suspend (t : Fin 16) (epoch : BitVec 2) (reason : BitVec 4)
  /-- REJOIN (R292). A bridge receives REJOIN and resends its unanswered values. -/
  | rejoin (t : Fin 16) (tag : Cell) (epoch : BitVec 2)
  /-- LOCK_CAPTURE (R281). Once berths are empty and clears returned, the lock unit captures segment C. How often in a row
  the writes of segments C and K fail (R283). -/
  | lockCapture (t : Fin 16) (fails : Nat × Nat)
  /-- FLIGHT_TIMEOUT (R291). A wait at a lock exceeds the limit, and the cause and an alarm are raised. -/
  | flightTimeout (t : Fin 16)
  /-- ROLLBACK_GAP (R305). The 20 us spacing between successive ROLLBACKs expires at the root. -/
  | rollbackGap (t : Fin 16)
  /-- EXPORT_DONE (R312). An export stream completes. -/
  | exportDone (t : Fin 16)
  /-- REQ_NEWEST (R300). LCK_CMDt op 1 sends a REQ for the newest lock. -/
  | reqNewest (who : Requester) (t : Fin 16)
  /-- REQ_OLDER (R301). LCK_CMDt op 2 sends a REQ for the older lock. -/
  | reqOlder (who : Requester) (t : Fin 16)
  /-- SUSPEND_SHARE (R576). LCK_CMDt op 3 suspends this device's share and asks the root for suspension. -/
  | suspendShare (who : Requester) (t : Fin 16)
  /-- REPLAY_START (R313). LCK_CMDt op 4 starts a replay with ROLLBACK and the replay bit set. -/
  | replayStart (who : Requester) (t : Fin 16)
  /-- REPLAY_CONTINUE (R313). LCK_CMDt op 5 sends RESUME to the next stop. -/
  | replayContinue (who : Requester) (t : Fin 16)
  /-- REPLAY_TO_RETURN_POINT (R313). LCK_CMDt op 6 runs to the return point. -/
  | replayToReturnPoint (who : Requester) (t : Fin 16)
  /-- LCK_TREE_DATA (R317). A tree-entry access stores or reads the entry and auto-increments. -/
  | lckTreeData (who : Requester) (access : Option Word)
  /-- DREDGE_PASS (R325). A dredger pass starts each period and scrubs powered memories. -/
  | dredgePass
  /-- LEAK (R324). Each leak interval, every nonzero bucket loses 1. -/
  | leak
  /-- TST_FLIP (R346). A write arms a one-time parity flip. -/
  | tstFlip (who : Requester) (value : Word)
  /-- TST_ELOG_A (R345). A read removes the oldest error-log entry and latches its address. -/
  | tstElogA (who : Requester)
  /-- TST_ELOG_STAT (R345). A read returns and clears the lost count. -/
  | tstElogStat (who : Requester)
  /-- TST_DREDGE_STAT (R345). A read returns and clears the passes and errors counts. -/
  | tstDredgeStat (who : Requester)
  /-- LITERAL (R360). The keeper pushes a 12-bit cell. -/
  | literal (k : Fin 4) (cell : Cell)
  /-- JMP (R361). The keeper jumps relative. -/
  | jmp (k : Fin 4) (offset : BitVec 10)
  /-- CALL (R361). The keeper calls relative, pushing a plain entry. -/
  | call (k : Fin 4) (offset : BitVec 10)
  /-- BZ (R361). The keeper pops T and branches if it is zero. -/
  | bz (k : Fin 4) (hint : Bool) (offset : BitVec 9)
  /-- BNZ (R361). The keeper pops T and branches if it is nonzero. -/
  | bnz (k : Fin 4) (hint : Bool) (offset : BitVec 9)
  /-- KEALA_NOP (R362). The keeper does nothing. -/
  | kealaNop (k : Fin 4)
  /-- DUP (R362). The keeper duplicates T. -/
  | dup (k : Fin 4)
  /-- DROP (R362). The keeper drops T. -/
  | drop (k : Fin 4)
  /-- SWAP (R362). The keeper swaps the top two cells. -/
  | swap (k : Fin 4)
  /-- OVER (R362). The keeper copies the second cell. -/
  | over (k : Fin 4)
  /-- ROT (R362). The keeper rotates the top three cells. -/
  | rot (k : Fin 4)
  /-- NIP (R362). The keeper drops the second cell. -/
  | nip (k : Fin 4)
  /-- PICK (R362). The keeper copies the cell k below T. -/
  | pick (k : Fin 4) (o : BitVec 6)
  /-- TOR (R362). The keeper moves T to the return stack. -/
  | tor (k : Fin 4)
  /-- FROMR (R362). The keeper moves the return top to the data stack. -/
  | fromr (k : Fin 4)
  /-- RFETCH (R362). The keeper copies the return top. -/
  | rfetch (k : Fin 4)
  /-- TESTF (R362). The keeper pushes a condition flag. -/
  | testf (k : Fin 4) (o : BitVec 6)
  /-- DEPTH (R362). The keeper pushes SP. -/
  | depth (k : Fin 4)
  /-- KEALA_ADD (R363). The keeper adds mod 4096, setting flags. -/
  | kealaAdd (k : Fin 4)
  /-- KEALA_SUB (R363). The keeper subtracts, setting flags. -/
  | kealaSub (k : Fin 4)
  /-- ADC (R363). The keeper adds with carry. -/
  | adc (k : Fin 4)
  /-- SBB (R363). The keeper subtracts with borrow. -/
  | sbb (k : Fin 4)
  /-- KEALA_AND (R362). The keeper performs bitwise AND. -/
  | kealaAnd (k : Fin 4)
  /-- KEALA_OR (R362). The keeper performs bitwise OR. -/
  | kealaOr (k : Fin 4)
  /-- KEALA_XOR (R362). The keeper performs bitwise XOR. -/
  | kealaXor (k : Fin 4)
  /-- NOT (R362). The keeper performs bitwise NOT. -/
  | not (k : Fin 4)
  /-- KEALA_SHL (R362). The keeper shifts left by k. -/
  | kealaShl (k : Fin 4) (o : BitVec 6)
  /-- KEALA_SHR (R362). The keeper shifts right by k. -/
  | kealaShr (k : Fin 4) (o : BitVec 6)
  /-- KEALA_SAR (R362). The keeper shifts arithmetic right by k. -/
  | kealaSar (k : Fin 4) (o : BitVec 6)
  /-- KEALA_MULU (R362). The keeper forms an unsigned 24-bit product. -/
  | kealaMulu (k : Fin 4)
  /-- MULS (R362). The keeper forms a signed 24-bit product. -/
  | muls (k : Fin 4)
  /-- CMP (R363). The keeper sets flags from a - b. -/
  | cmp (k : Fin 4)
  /-- ADDI (R362). The keeper adds a signed immediate. -/
  | addi (k : Fin 4) (o : BitVec 6)
  /-- CMPI (R362). The keeper compares with an immediate. -/
  | cmpi (k : Fin 4) (o : BitVec 6)
  /-- LDA (R362). The keeper loads the cell at AH:AL + k. -/
  | lda (k : Fin 4) (o : BitVec 6)
  /-- STA (R362). The keeper stores to the cell at AH:AL + k. -/
  | sta (k : Fin 4) (o : BitVec 6)
  /-- LDX (R362). The keeper loads at AH:AL + IX, with optional post-increment. -/
  | ldx (k : Fin 4) (o : BitVec 6)
  /-- STX (R362). The keeper stores at AH:AL + IX, with optional post-increment. -/
  | stx (k : Fin 4) (o : BitVec 6)
  /-- LD (R362). The keeper loads from the address pair. -/
  | ld (k : Fin 4)
  /-- ST (R362). The keeper stores to the address pair. -/
  | st (k : Fin 4)
  /-- SETA (R362). The keeper sets AH:AL. -/
  | seta (k : Fin 4)
  /-- GETA (R362). The keeper pushes AH:AL. -/
  | geta (k : Fin 4)
  /-- ADDA (R362). The keeper adds a sign-extended value to AH:AL. -/
  | adda (k : Fin 4)
  /-- RD (R350). The keeper reads register r. -/
  | rd (k : Fin 4) (o : BitVec 6)
  /-- WR (R351). The keeper writes register r under the ring rules. -/
  | wr (k : Fin 4) (o : BitVec 6)
  /-- PFLUSH (R390). The keeper clears the predictor. -/
  | pflush (k : Fin 4)
  /-- WAIT (R362). The keeper stops issue until an event or interrupt request. -/
  | wait (k : Fin 4)
  /-- BRK (R375). The keeper raises a break fault. -/
  | brk (k : Fin 4)
  /-- MOVEB (R367). The keeper copies one element of a block per boundary. -/
  | moveb (k : Fin 4)
  /-- FILLB (R367). The keeper fills one element of a block per boundary. -/
  | fillb (k : Fin 4)
  /-- SCANB (R367). The keeper scans one element for a match or mismatch. -/
  | scanb (k : Fin 4) (o : BitVec 6)
  /-- CHKB (R367). The keeper feeds one cell to a check unit. -/
  | chkb (k : Fin 4) (o : BitVec 6)
  /-- SEMT (R382). The keeper tries to take a semaphore without waiting. -/
  | semt (k : Fin 4) (o : BitVec 6)
  /-- SEMG (R382). The keeper gives back a semaphore. -/
  | semg (k : Fin 4) (o : BitVec 6)
  /-- WINR (R362). The keeper reads a window register. -/
  | winr (k : Fin 4) (o : BitVec 6)
  /-- WINW (R362). The keeper writes a window register. -/
  | winw (k : Fin 4) (o : BitVec 6)
  /-- RET (R365). The keeper returns through a plain or gate entry. -/
  | ret (k : Fin 4) (o : BitVec 6)
  /-- MCALL (R364). The keeper makes a masked call, saving the selected registers. -/
  | mcall (k : Fin 4) (o : BitVec 6)
  /-- MRET (R364). The keeper makes a masked return, restoring the saved registers. -/
  | mret (k : Fin 4) (o : BitVec 6)
  /-- CALLA (R362). The keeper makes an indirect call. -/
  | calla (k : Fin 4)
  /-- JMPA (R362). The keeper makes an indirect jump. -/
  | jmpa (k : Fin 4)
  /-- GATE (R370). The keeper makes a checked inward call through a gate entry. -/
  | gate (k : Fin 4) (o : BitVec 6)
  /-- RETI (R374). The keeper returns from an event, restoring every register. -/
  | reti (k : Fin 4)
  /-- CUSTOMER_INSTRUCTION (R386). The keeper runs a decode-table micro-word sequence. -/
  | customerInstruction (k : Fin 4) (index imm : BitVec 6)
  /-- INTERRUPT_ENTRY (R374). At a boundary, the keeper takes an active interrupt request through vector 3. -/
  | interruptEntry (k : Fin 4)
  /-- LOCK_HOOK (R381). A keeper serving the tenant takes vector 4 for a capture or restore hook. -/
  | lockHook (k : Fin 4)
  /-- TAKEOVER (R378). The new system keeper takes vector 2 and resumes root decisions. -/
  | takeover (k : Fin 4)
  /-- KPR_HOOK_DONE (R381). A write answers a pending hook with a range list. -/
  | kprHookDone (who : Requester) (value : Word)
  /-- HOOK_TIMEOUT (R381). A hook unanswered within 20 us is a capture failure or an unusable target. -/
  | hookTimeout (k : Fin 4)
  /-- KPR_CTRL_RUN (R376). A write of run releases the keeper or holds it in reset. -/
  | kprCtrlRun (who : Requester) (value : Word)
  /-- ROM_FETCH_OFF (R514). Keeper 0 writes rom_fetch = 0 and fetches from program memory. -/
  | romFetchOff (who : Requester) (value : Word)
  /-- KEEPER_TIMER (R383). A keeper timer reaches 0, clears run and raises its source. -/
  | keeperTimer (k : Fin 4) (timer : Fin 2)
  /-- KPR_TBL_DATA (R392). A table-cell access stores or reads the cell, auto-increments or is rejected. -/
  | kprTblData (who : Requester) (access : Option Word)
  /-- KPR_CNT_MISP (R391). A read returns and clears the misprediction count. -/
  | kprCntMisp (who : Requester)
  /-- SOURCE_EDGE (R393). A rising edge on a source sets pending and counts. -/
  | sourceEdge (k : Fin 4) (scanned : Bool) (source : BitVec 9) (cause : BitVec 3)
  /-- ALERT_INPUT (R396). A filtered ALERT_IN level change is sensed. -/
  | alertInput (input : Fin 2) (asserted : Bool)
  /-- IRQ_CLAIM (R406). A claim read arbitrates, returns the winner and marks it active. -/
  | irqClaim (who : Requester) (register : Fin 5)
  /-- IRQ_COMPLETE (R408). A completion ends an active claim. -/
  | irqComplete (who : Requester) (register : Fin 5) (value : Word)
  /-- IRQ_SCAUSE (R413). A W1C write clears scanned cause-latch bits. -/
  | irqScause (who : Requester) (value : Word)
  /-- IRQ_SRC_CFG (R401). A write sets enable, target and priority, moving or masking the source. -/
  | irqSrcCfg (who : Requester) (value : Word)
  /-- IRQ_KDOOR (R397). A write raises a doorbell edge in a keeper's private bank. -/
  | irqKdoor (who : Requester) (value : Word)
  /-- IRQ_SWSET (R417). A write raises an edge on a software source. -/
  | irqSwset (who : Requester) (value : Word)
  /-- IRQ_PTGT (R402). A write sets the static targets and their lock. -/
  | irqPtgt (who : Requester) (value : Word)
  /-- CONFIG_REQUEST (R421). A PCI Express configuration request is served, or answered CRS in Bring-up. -/
  | configRequest (fn : Fin 16) (offset : BitVec 12) (access : Option Word)
  /-- MEMORY_REQUEST (R420). A memory request to a disabled or D3hot function completes as UR. -/
  | memoryRequest (fn : Fin 16) (bar2 : Bool) (offset : BitVec 25) (access : Option Word)
  /-- WHF_SQ_TAIL (R454). A doorbell write advances the SQ tail and raises the submission source. -/
  | whfSqTail (fn : Fin 16) (value : Word)
  /-- WHF_CQ_HEAD (R454). A doorbell write consumes completion entries. -/
  | whfCqHead (fn : Fin 16) (value : Word)
  /-- WHF_FQ_HEAD (R454). A doorbell write consumes fault entries. -/
  | whfFqHead (fn : Fin 16) (value : Word)
  /-- WHF_OQ_HEAD (R454). A doorbell write consumes output entries. -/
  | whfOqHead (fn : Fin 16) (value : Word)
  /-- WHF_AREA_HEAD (R440). A write returns export or log pages. -/
  | whfAreaHead (fn : Fin 16) (value : Word)
  /-- WHF_QCFG (R454). A write enables or disables a queue, restarting its indices and alive counting. -/
  | whfQcfg (fn : Fin 16) (value : Word)
  /-- WHF_STOP (R445). A stop doorbell write stops the partition and sends STOP to tree neighbours. -/
  | whfStop (fn : Fin 16) (value : Word)
  /-- PRESET (R450). A write of WHF_TCTRL.preset resets the tenant's partition on this device. -/
  | preset (fn : Fin 16) (value : Word)
  /-- FLR (R451). A Function Level Reset resets the tenant's partition and doorbell page. -/
  | flr (fn : Fin 16)
  /-- SUBMISSION_ENTRY (R429). The host interface reads an SQ entry, checks its CRC and hands it to keeper 0; `none`: the read fails. -/
  | submissionEntry (t : Fin 16) (entry : Option (BitVec 512))
  /-- LOAD (R431). The command loads an image through the transfer, check and admission stages. -/
  | load (t : Fin 16) (cmd : BitVec 16) (length : Nat) (container : List Byte) (readFails : Bool)
  /-- START (R432). The command takes the start checkpoint and runs the start lock flight. -/
  | start (t : Fin 16) (cmd : BitVec 16)
  /-- HOLD (R430). The command stops the partition at the next design-cycle boundary on every device. -/
  | hold (t : Fin 16) (cmd : BitVec 16)
  /-- RUN (R430). The command releases a hold or stop by sending GO. -/
  | run (t : Fin 16) (cmd : BitVec 16)
  /-- STEP (R430). The command runs n design cycles and holds again. -/
  | step (t : Fin 16) (cmd : BitVec 16) (op0 : Word)
  /-- UNLOAD (R430). The command removes the partition after committed outputs are written. -/
  | unload (t : Fin 16) (cmd : BitVec 16)
  /-- INPUT (R436). The command appends values to a host input port queue. -/
  | input (t : Fin 16) (cmd : BitVec 16) (op0 : Word) (length : Nat) (values : List (BitVec 16))
  /-- SET_AREA (R430). The command binds an export or log area. -/
  | setArea (t : Fin 16) (cmd : BitVec 16) (op0 : Word)
  /-- ROLLBACK_COMMAND (R430). The host's ROLLBACK command issues an LCK_CMDt op 1 or 2. -/
  | rollbackCommand (t : Fin 16) (cmd : BitVec 16) (op0 : Word)
  /-- REPLAY_COMMAND (R430). The host's REPLAY command performs replay operations on the root. -/
  | replayCommand (t : Fin 16) (cmd : BitVec 16) (op0 op1 op2 : Word)
  /-- LOAD_EXPORT (R433). The command restores a partition from an export stream. -/
  | loadExport (t : Fin 16) (cmd : BitVec 16) (stream : List Byte)
  /-- STOP (R445). A device receives STOP, stops and forwards it unless the id was seen. -/
  | stop (t : Fin 16) (sender : Cell) (id : Cell) (boundary : Bool)
  /-- GO (R446). A device receives GO, releases Held and forwards it. -/
  | go (t : Fin 16) (sender : Cell) (id : Cell)
  /-- STOP_REACHED (R447). The partition has stopped, and a kind-4 completion is posted. -/
  | stopReached (t : Fin 16)
  /-- PSB_UPDATE (R435). Changed port consumed counts are written within psb_interval. -/
  | psbUpdate (t : Fin 16)
  /-- MSIX_COALESCE (R444). The coalescing time expires and the MSI-X message is sent. -/
  | msixCoalesce (fn : Fin 16) (vector : BitVec 4)
  /-- QUEUE_ENTRY_WRITE (R426). A held completion, fault or output entry is written once a free slot appears. -/
  | queueEntryWrite (fn : Fin 16) (kind : BitVec 3)
  /-- ASPM_L1_ENTRY (R453). After 20 us idle, the link enters L1. -/
  | aspmL1Entry (l12 : Bool)
  /-- POWER_STATE_WRITE (R453). A PowerState configuration write moves a function to D0 or D3hot. -/
  | powerStateWrite (fn : Fin 16) (d3hot : Bool)
  /-- SLC_START (R477). A start enters an idle or halted channel in its engine's queue. -/
  | slcStart (who : Requester) (value : Word)
  /-- SLC_STOP (R477). A stop halts a running channel or dequeues a queued one. -/
  | slcStop (who : Requester) (value : Word)
  /-- CHANNEL_BEGIN (R470). An engine begins the next queued channel after the previous one ends. -/
  | channelBegin (engine : Fin 4)
  /-- DESCRIPTOR (R471). A channel fetches and checks its next descriptor. -/
  | descriptor (ch : Fin 64) (bytes : BitVec 512) (uncorrectable : Bool)
  /-- ELEMENT (R473). A transfer element completes when its requests are answered. -/
  | element (ch : Fin 64) (source : List Byte) (index : Word) (uncorrectable : Bool)
  /-- INT_FULL (R475). The full cause is raised once every write has reached its destination. -/
  | intFull (ch : Fin 64)
  /-- BUS_ERROR_RETRY (R476). A bus error is retried after 1 us, or the channel halts. -/
  | busErrorRetry (ch : Fin 64) (succeeds : Bool)
  /-- SLC_CNT_RETRY (R479). A read returns and clears the retry count. -/
  | slcCntRetry (who : Requester)
  /-- LDG_ALLOC (R458). A read allocates a buffer to the requester's tag or refuses. -/
  | ldgAlloc (who : Requester)
  /-- LDG_FREE (R459). A write frees a buffer or records a double or foreign free. -/
  | ldgFree (who : Requester) (value : Word)
  /-- LDG_GIVE (R459). A write gives a buffer to a new tag or is refused. -/
  | ldgGive (who : Requester) (value : Word)
  /-- LDG_GNT_A (R463). A grant write is accepted or rejected. -/
  | ldgGntA (who : Requester) (value : Word)
  /-- LDG_LOG_A (R479). A read removes the oldest offence log entry. -/
  | ldgLogA (who : Requester)
  /-- CHK_INIT (R468). An init loads the initial CRC and folds the alive halfword. -/
  | chkInit (who : Requester) (unit : Fin 4) (value : Word)
  /-- CHK_SCAN (R469). A go starts an HBM scan into the check unit. -/
  | chkScan (who : Requester) (unit : Fin 4) (value : Word)
  /-- SCAN_DONE (R469). A scan ends, done or with an error. -/
  | scanDone (unit : Fin 4) (failsAt : Option Nat)
  /-- WEIR_SW (R480). A write raises a software alarm, log or trace event. -/
  | weirSw (who : Requester) (value : Word)
  /-- ALARM_ACCEPT (R487). The host interface accepts the oldest alarm entry into the fault queue or hold. -/
  | alarmAccept (owner : Fin 17)
  /-- ALARM (R488). The root receives a forwarded ALARM message and coalesces it. -/
  | alarm (t : Fin 16) (source : Cell) (body : BitVec 144)
  /-- ALARM_FORWARD (R489). Each fwd_gap the device sends the next ALARM message to the root. -/
  | alarmForward
  /-- TOKEN_REFILL (R491). A token returns to an owner's log bucket, and pending markers are written. -/
  | tokenRefill (owner : Fin 17)
  /-- RING_READ_POLL (R484). The device reads the read-index pair from the list buffer. -/
  | ringReadPoll
  /-- WEIR_SNAP (R500). A go starts a Readback snapshot into ledger buffers. -/
  | weirSnap (who : Requester) (value : Word)
  /-- SNAP_DONE (R500). A snapshot completes with its status. -/
  | snapDone
  /-- WEIR_TRC_STAT (R503). A read returns and clears the trace statistics. -/
  | weirTrcStat (who : Requester)
  /-- WEIR_DROP (R503). A read returns and clears the per-block drop count. -/
  | weirDrop (who : Requester) (block : BitVec 4)
  /-- GAU_MATCH (R504). A read returns and clears the fired bits and step. -/
  | gauMatch (who : Requester)
  /-- CAPSTAN_LINE (R501). A CR ends a Capstan line, which is parsed and answered. -/
  | capstanLine
  /-- CAPSTAN_BREAK (R501). A break discards the partial line. -/
  | capstanBreak
  /-- CAPSTAN_VER (R502). The ver command returns the version. -/
  | capstanVer
  /-- CAPSTAN_ST (R502). The st command returns modes and locks. -/
  | capstanSt
  /-- CAPSTAN_TM (R502). The tm command returns temperatures and voltage. -/
  | capstanTm
  /-- CAPSTAN_AL (R502). The al command lists recent alarms. -/
  | capstanAl (n : Nat)
  /-- CAPSTAN_LG (R502). The lg command lists recent log and trace records. -/
  | capstanLg (n : Nat)
  /-- CAPSTAN_DR (R502). The dr command lists drop counters and gaps. -/
  | capstanDr
  /-- CAPSTAN_LK (R502). The lk command shows a link's status. -/
  | capstanLk (link : Fin 16)
  /-- CAPSTAN_RD (R502). The rd command reads a BAR0 register. -/
  | capstanRd (addr : BitVec 25)
  /-- CAPSTAN_WR (R502). The wr command writes a BAR0 register. -/
  | capstanWr (addr : BitVec 25) (value : Word)
  /-- CAPSTAN_BD (R502). The bd command changes the port rate. -/
  | capstanBd (rate : Nat)
  /-- BAUD_REVERT (R502). No byte arrives at the new rate within 10 s, and the old rate returns. -/
  | baudRevert
  /-- POWER_ON_RESET (R512). VDD_AON rising or brown-out resets everything. -/
  | powerOnReset
  /-- PERST (R512). PERST# assertion causes a device reset. -/
  | perst
  /-- HOT_RESET (R512). A PCI Express hot reset causes a device reset. -/
  | hotReset
  /-- DEV_RESET (R512). A write of PWR_CTRL.dev_reset causes a device reset. -/
  | devReset (who : Requester) (value : Word)
  /-- BRING_UP_STEP (R515). A bring-up step completes, and the next begins. -/
  | bringUpStep (step : Fin 9) (failure : BringUpFailure)
  /-- BRING_UP_TIMEOUT (R516). A step overruns by 100 ms, and the device enters Repair. -/
  | bringUpTimeout
  /-- LINK_TEST_REQUEST (R506). PWR_MODE.request = 2 enters Link test. -/
  | linkTestRequest (who : Requester) (value : Word)
  /-- READY_REQUEST (R506). PWR_MODE.request = 1 returns to Ready. -/
  | readyRequest (who : Requester) (value : Word)
  /-- SANITIZE (R534). A write of PWR_CTRL.sanitize enters Sanitize. -/
  | sanitize (who : Requester) (value : Word)
  /-- WIPE_COMPLETE (R534). The Sanitize wipe completes, the fuse is blown and the device resets. -/
  | wipeComplete
  /-- STANDBY_ENTRY (R529). With the entry conditions met, the device enters Standby-retain. -/
  | standbyEntry
  /-- L2_ENTRY (R529). The link enters L2, and the device enters Standby-aux. -/
  | l2Entry
  /-- WAKE (R530). An enabled wake cause ends Standby. -/
  | wake (cause : Fin 7)
  /-- DOMAIN_SWITCH (R521). A power domain switch completes on power-good, and the next queued switch starts. -/
  | domainSwitch
  /-- VCORE_ADJUST (R522). Every 50 us the VDD_CORE request moves one step. -/
  | vcoreAdjust
  /-- AVSBUS_POLL (R560). Every 100 us both rails are read and package power formed. -/
  | avsbusPoll (ok : Bool) (power : BitVec 16)
  /-- AVSBUS_RETRY (R560). After a failed transaction, the link is tried again after 1 ms. -/
  | avsbusRetry (ok : Bool) (power : BitVec 16)
  /-- THERMAL_WARNING (R525). Die temperature reaches temp_warn. -/
  | thermalWarning (temp : BitVec 8)
  /-- THERMAL_TRIP (R525). Die temperature reaches 110 °C, which is fatal. -/
  | thermalTrip (temp : BitVec 8)
  /-- SUPPLY_WINDOW (R525). VDD_CORE strays from the request for 10 us. -/
  | supplyWindow (mv : BitVec 10)
  /-- SUPPLY_ABSOLUTE (R525). VDD_CORE or a main rail is outside its limits, which is fatal. -/
  | supplyAbsolute
  /-- WAKE_TIME (R525). AON_TIME reaches the wake time. -/
  | wakeTime
  /-- TAMPER (R535). TAMPER# is asserted for 1 us; the secure basin is wiped and Sanitize entered. -/
  | tamper
  /-- SEC_LC_REQ (R533). A life-cycle request is accepted into Sanitize or rejected. -/
  | secLcReq (who : Requester) (value : Word)
  /-- KEY_INSTALL (R537). SEC_KEY_CTRL go installs a plain or wrapped key. -/
  | keyInstall (who : Requester) (value : Word)
  /-- KEY_ERASE (R537). SEC_KEY_CTRL go with erase clears a slot. -/
  | keyErase (who : Requester) (value : Word)
  /-- STAGING_RESET (R537). SEC_KEY_CTRL with go = 0 resets the staging index. -/
  | stagingReset (who : Requester) (value : Word)
  /-- SEC_KEY_DATA (R537). A write stages the next blob word. -/
  | secKeyData (who : Requester) (value : Word)
  /-- AON_TIME_HI (R523). A write of HI commits the 64-bit system time. -/
  | aonTimeHi (who : Requester) (value : Word)
  /-- AON_WAKE_TIME_HI (R539). A write of HI commits the wake time. -/
  | aonWakeTimeHi (who : Requester) (value : Word)
  /-- AON_WAKE (R531). A PF read returns and clears the wake causes. -/
  | aonWake (who : Requester)
  /-- PWR_BASIN_OWN (R519). A write hands a basin to a new owner. -/
  | pwrBasinOwn (who : Requester) (value : Word)
  /-- PWR_PLANK (R539). A go puts a named unit behind stop planks. -/
  | pwrPlank (who : Requester) (value : Word)
  /-- PWR_LIMIT (R522). A write sets the power limit, clamped to range. -/
  | pwrLimit (who : Requester) (value : Word)
  /-- SMB_STATUS (R538). The SMBus STATUS read returns mode and life cycle. -/
  | smbStatus
  /-- SMB_TEMP (R538). The SMBus TEMP read returns the die temperature. -/
  | smbTemp
  /-- SMB_POWER (R538). The SMBus POWER read returns package power. -/
  | smbPower
  /-- SMB_PLIMIT (R538). The SMBus PLIMIT command reads or writes the power limit. -/
  | smbPlimit (access : Option (BitVec 16)) (pecOk : Bool)
  /-- SMB_WAKE (R538). The SMBus WAKE command latches the SMBus wake cause. -/
  | smbWake (data : Byte) (pecOk : Bool)
  /-- SMB_WAKE_CAUSE (R538). The SMBus WAKE_CAUSE read returns AON_WAKE_LAST. -/
  | smbWakeCause
  /-- CLU_RESUME (R72). A write of resume leaves a cleared fetch trap or breakpoint. -/
  | cluResume (who : Requester) (value : Word)
  /-- CLU_CTRL_ENABLE (R81). A write of enable starts issue at the next design cycle or stops it at the next step. -/
  | cluCtrlEnable (who : Requester) (value : Word)
  /-- CLU_ROLE (R81). A write of role arms a substitution or takes effect at once while restoring. -/
  | cluRole (who : Requester) (value : Word)
  /-- CLU_VM_DATA_WRITE (R78). A value-memory write through the window stores masked bits and auto-increments. -/
  | cluVmDataWrite (who : Requester) (value : Word)
  /-- CLU_VM_DATA_READ (R77). A value-memory read through the window returns the cell and auto-increments. -/
  | cluVmDataRead (who : Requester)
  /-- CLU_PM_DATA_WRITE (R77). A program-cell write stores with fresh parity and auto-increments. -/
  | cluPmDataWrite (who : Requester) (value : Word)
  /-- CLU_PM_DATA_READ (R77). A program-cell read returns the cell and auto-increments. -/
  | cluPmDataRead (who : Requester)
  /-- CLU_CNT_BANK (R60). A read returns and clears the extra bank turns. -/
  | cluCntBank (who : Requester)
  /-- CLU_CNT_WAIT (R81). A read returns and clears the wait steps. -/
  | cluCntWait (who : Requester)
  /-- CLU_CNT_REFETCH (R81). A read returns and clears the refetch count. -/
  | cluCntRefetch (who : Requester)
  /-- CLU_BANK_PEAK (R81). A read returns and clears the peak bank turns. -/
  | cluBankPeak (who : Requester)
  /-- RCH_CTRL_ENABLE (R152). A write of enable starts or stops the crossbar tables at a boundary. -/
  | rchCtrlEnable (who : Requester) (value : Word)
  /-- RCH_XBT_DATA (R151). A crossbar-cell access stores or reads, auto-increments or is rejected. -/
  | rchXbtData (who : Requester) (access : Option Word)
  /-- RCH_NSM_DATA (R151). A net-slot-cell access stores or reads, auto-increments or is rejected. -/
  | rchNsmData (who : Requester) (access : Option Word)
  /-- RCH_BMAP_DATA (R217). A berth-map cell access stores or reads, auto-increments or is rejected. -/
  | rchBmapData (who : Requester) (access : Option Word)
  /-- RCH_CNT_SEND (R152). A read returns and clears the send count. -/
  | rchCntSend (who : Requester)
  /-- RCH_CNT_CLRWAIT (R218). A read returns and clears the stale and clear-wait counts. -/
  | rchCntClrwait (who : Requester)
  /-- DMEM_R_MISS (R188). A read returns and clears the miss count. -/
  | dmemRMiss (who : Requester)
  /-- DMEM_R_RETRY (R188). A read returns and clears the retry count. -/
  | dmemRRetry (who : Requester)
  /-- DMEM_SHORT (R187). A read returns and clears the tenant's shortfall windows. -/
  | dmemShort (who : Requester) (t : Fin 16)
  /-- AQ_CNT_FEC (R266). A read returns and clears the corrected-codeword count. -/
  | aqCntFec (who : Requester)
  /-- AQ_CNT_REPLAY (R266). A read returns and clears the replay and uncorrectable counts. -/
  | aqCntReplay (who : Requester)
  /-- AQ_LANE_SYM (R266). A read returns and clears the lane's symbol count. -/
  | aqLaneSym (who : Requester)
  /-- AQ_PRBS_ERR (R266). A read returns and clears the PRBS error count. -/
  | aqPrbsErr (who : Requester)
  /-- LCK_CNT_ROLLBACK (R317). A read returns and clears the rollback counts. -/
  | lckCntRollback (who : Requester) (t : Fin 16)
  /-- WHF_TSTAT (R454). A read returns the tenant status and clears log_skipped. -/
  | whfTstat (fn : Fin 16)
  /-- REGISTER_WRITE (R550). A write to a register with no row of its own is applied under its change class or discarded. -/
  | registerWrite (who : Requester) (addr : BitVec 25) (value : Word) (enables : BitVec 4)
  /-- HBM_ERROR_REPORT (R186). An HBM stack's on-die ECC or its own error check and scrub reports a corrected or uncorrectable error, which is counted in the bucket or sets hbm_uc and may retire the page. -/
  | hbmErrorReport (stack : Fin 2) (page : BitVec 22) (uncorrectable : Bool)
  /-- HBM_STACK_UNRESPONSIVE (R327). An HBM stack stops answering, and every partition with a region, undo page or checkpoint buffer on it is suspended with reason 2. -/
  | hbmStackUnresponsive (stack : Fin 2)
  /-- ILLEGAL_INSTRUCTION (R375). A keeper fetches an unlisted op, or an op with an unused operand bit set, and raises fault 0. -/
  | illegalInstruction (k : Fin 4) (word : BitVec 14)
  /-- MSIX_UNMASK (R444). A host write unmasks an MSI-X vector, and any message pending on it is sent. -/
  | msixUnmask (fn : Fin 16) (vector : BitVec 4)
  /-- L1_EXIT (R453). The PCI Express link leaves ASPM L1 or L1.2 on host or device traffic, within its exit latency. -/
  | l1Exit
  /-- PCIE_DL_DOWN (R512). The PCI Express data link goes down, which acts as an FLR of the PF. -/
  | pcieDlDown
  /-- COMPLETION_TIMEOUT (R476). A host completion timeout, or a VC1 response missing for 100 us, counts as a bus error for a sluice request. -/
  | completionTimeout (ch : Fin 64)
  /-- CAPSTAN_BYTE (R501). A byte arrives on the Capstan port; it is echoed or deletes one character, and it raises source 133. -/
  | capstanByte (byte : Byte)
  /-- PERST_DEASSERT (R515). PERST# deasserts; Bring-up timing starts, host_resume latches, WAKE# is released and pins held by boundary scan return. -/
  | perstDeassert
  /-- TAP_CLOCK (R569). A TCK edge advances the IEEE 1149.1 TAP and its instruction and boundary-scan registers. -/
  | tapClock (rising tms tdi : Bool) (pins : BitVec 15)
  /-- TRST_ASSERT (R569). TRST# goes low and puts the TAP in Test-Logic-Reset with IDCODE selected. -/
  | trstAssert
  /-- PRBS_CHECKER_LOCK (R262). A lane's PRBS or user-pattern checker in Test locks to the incoming bit stream and begins counting errors. -/
  | prbsCheckerLock (link : Fin 16) (lane : Fin 5)
  deriving DecidableEq, Repr

end Sys2Proof
end

