-- ==== Sys2Proof/Decode.lean ====
section
/-!
DEFINITION. Sys2Proof/Decode.lean: the command that a word of the table's bits spells. The table of operations and events
gives no row any bits (a command is named, not encoded), so no word spells one. What the spec encodes is the 14-bit instruction of a
keeper: `kealaInstr` reads it (R360, R362).
-/
namespace Sys2Proof

/-- No row of the table has bits. -/
def decodeTableWord (_nbits _w : Nat) : Option Instr := none

/-- The listed ops of format 10: how many operand values each takes, and its instruction (R362). -/
def kealaOp (op : Nat) : Option (Nat × (Fin 4 → BitVec 6 → Instr)) :=
  match op with
  | 0x00 => some (1, fun k _ => .kealaNop k)
  | 0x01 => some (1, fun k _ => .dup k)
  | 0x02 => some (1, fun k _ => .drop k)
  | 0x03 => some (1, fun k _ => .swap k)
  | 0x04 => some (1, fun k _ => .over k)
  | 0x05 => some (1, fun k _ => .rot k)
  | 0x06 => some (1, fun k _ => .nip k)
  | 0x07 => some (32, fun k o => .pick k o)
  | 0x08 => some (1, fun k _ => .tor k)
  | 0x09 => some (1, fun k _ => .fromr k)
  | 0x0A => some (1, fun k _ => .rfetch k)
  | 0x0B => some (14, fun k o => .testf k o)
  | 0x0C => some (1, fun k _ => .depth k)
  | 0x10 => some (1, fun k _ => .kealaAdd k)
  | 0x11 => some (1, fun k _ => .kealaSub k)
  | 0x12 => some (1, fun k _ => .adc k)
  | 0x13 => some (1, fun k _ => .sbb k)
  | 0x14 => some (1, fun k _ => .kealaAnd k)
  | 0x15 => some (1, fun k _ => .kealaOr k)
  | 0x16 => some (1, fun k _ => .kealaXor k)
  | 0x17 => some (1, fun k _ => .not k)
  | 0x18 => some (16, fun k o => .kealaShl k o)
  | 0x19 => some (16, fun k o => .kealaShr k o)
  | 0x1A => some (16, fun k o => .kealaSar k o)
  | 0x1B => some (1, fun k _ => .kealaMulu k)
  | 0x1C => some (1, fun k _ => .muls k)
  | 0x1D => some (1, fun k _ => .cmp k)
  | 0x1E => some (64, fun k o => .addi k o)
  | 0x1F => some (64, fun k o => .cmpi k o)
  | 0x20 => some (64, fun k o => .lda k o)
  | 0x21 => some (64, fun k o => .sta k o)
  | 0x22 => some (2, fun k o => .ldx k o)
  | 0x23 => some (2, fun k o => .stx k o)
  | 0x24 => some (1, fun k _ => .ld k)
  | 0x25 => some (1, fun k _ => .st k)
  | 0x26 => some (1, fun k _ => .seta k)
  | 0x27 => some (1, fun k _ => .geta k)
  | 0x28 => some (1, fun k _ => .adda k)
  | 0x29 => some (10, fun k o => .rd k o)
  | 0x2A => some (10, fun k o => .wr k o)
  | 0x2C => some (1, fun k _ => .pflush k)
  | 0x2D => some (1, fun k _ => .wait k)
  | 0x2E => some (1, fun k _ => .brk k)
  | 0x30 => some (1, fun k _ => .moveb k)
  | 0x31 => some (1, fun k _ => .fillb k)
  | 0x32 => some (2, fun k o => .scanb k o)
  | 0x33 => some (4, fun k o => .chkb k o)
  | 0x34 => some (32, fun k o => .semt k o)
  | 0x35 => some (32, fun k o => .semg k o)
  | 0x36 => some (8, fun k o => .winr k o)
  | 0x37 => some (8, fun k o => .winw k o)
  | 0x38 => some (8, fun k o => .ret k o)
  | 0x39 => some (64, fun k o => .mcall k o)
  | 0x3A => some (64, fun k o => .mret k o)
  | 0x3B => some (1, fun k _ => .calla k)
  | 0x3C => some (1, fun k _ => .jmpa k)
  | 0x3D => some (64, fun k o => .gate k o)
  | 0x3E => some (1, fun k _ => .reti k)
  | _ => none

/-- The instruction that a word of keeper k's program spells, by its format; an op that is not listed, or an operand that the op does
not take, makes it illegal: none (R360 to R362). -/
def kealaInstr (k : Fin 4) (w : BitVec 14) : Option Instr :=
  let o := w.extractLsb' 0 6
  match (w.extractLsb' 12 2).toNat with
  | 0 => some (.literal k (w.setWidth 12))
  | 1 => match (w.extractLsb' 10 2).toNat with
    | 0 => some (.jmp k (w.setWidth 10))
    | 1 => some (.call k (w.setWidth 10))
    | 2 => some (.bz k (w.getLsbD 9) (w.setWidth 9))
    | _ => some (.bnz k (w.getLsbD 9) (w.setWidth 9))
  | 2 => match kealaOp (w.extractLsb' 6 6).toNat with
    | some (n, f) => if o.toNat < n then some (f k o) else none
    | none => none
  | _ => some (.customerInstruction k (w.extractLsb' 6 6) o)

end Sys2Proof
end

