-- ==== Sys2Proof/Config.lean ====
section
/-!
DEFINITION. Sys2Proof/Config.lean: what one part fixes, and the values the manual leaves open. An `opaque` constant has no
body: nothing can prove a value of it.
-/
namespace Sys2Proof.Config

/-- The n-th free choice: what the manual leaves open, drawn when `State.freeCtr` is n (log entry 1). -/
opaque freeBit : Nat → Bool

/-- The n-th free 32-bit value (log entry 1). -/
opaque freeWord : Nat → BitVec 32

/-- The die serial number, "fixed by fuse and different on every die" (R543; log entry 2). -/
opaque dieUid : BitVec 64

/-- Word w of the mask boot ROM, which the manual does not print (R514; log entry 2). -/
opaque bootRom : Nat → BitVec 14

/-- Cell a of the internal tables that bring-up step 6 writes in keeper k (R515; log entry 35). -/
opaque bootTable (k a : Nat) : BitVec 12

/-- Where step 6 writes the golden copy of keeper k's program memory, in units of 64 KiB (R379, R515; log entry 35). -/
opaque goldBase : Nat → Nat

/-- AES-256-GCM opening (R144, R537): key, IV, additional data, ciphertext and tag give the plaintext, or none when the
tag fails. The manual names the standard and does not restate it (log entry 3). -/
opaque gcmOpen (key iv aad cipher tag : List Byte) : Option (List Byte)

/-- The device key-encryption key, fused at the factory (R532; log entry 2). -/
opaque kek : List Byte

/-- What the ledger buffer met by report n held: the entry of this key in the first or the second golden copy (R146, R186). The
manual does not place the golden copies within their buffers (log entry 50). -/
opaque goldHit (n : Nat) (second : Bool) (key : Nat) : Bool

/-- Whether n uncorrectable codewords in a row lose codeword lock: R259 names the loss and not what it is (log entry 74). -/
opaque lockLost : Nat → Bool

/-- The tenant that a partition has on its root device, which neither the image nor this device says (R488, R498; log entry 80). -/
opaque rootTenant (partition root : Nat) : Nat

/-- AES-256-GCM sealing of an export stream (R311; log entry 3). -/
opaque gcmSeal (key iv aad plain : List Byte) : List Byte

end Sys2Proof.Config
end

