-- ==== Sys2Proof/Machine/State.lean ====
section
/-!
DEFINITION. Sys2Proof/Machine/State.lean: everything the manual gives one device, as plain data.

Three shapes recur. `Tbl α` is a table by number (clusters, reaches, links, keepers, ...): an unlisted number holds the
unit's reset value. `Mem n` is an addressed memory of `n`-bit units in canonical form: an unlisted address reads as zero.
`regs` holds every register field of the register chapters by field, instance and requester (R548): an unlisted field holds
its Reset column.
-/
namespace Sys2Proof.Machine

/-- A table by number, numbers rising. -/
abbrev Tbl (α : Type) := List (Nat × α)

/-- A memory of `n`-bit units: addresses rising, no unit equal to zero listed. -/
abbrev Mem (n : Nat) := List (Nat × BitVec n)

/-- Why a run stops. No rule of the manual stops this block, so one reason is enough. -/
inductive Fault where
  /-- Raised by no meaning: every access outside a unit's range has its own outcome in the manual (R355, R541). Safe: it
  only ever stops the model. -/
  | noSuchUnit
  deriving DecidableEq, Repr

/-- Why a command has no meaning. -/
inductive Refusal where
  /-- Answered by an arm of `exec` whose command has no meaning yet. Safe: the model stops. -/
  | notModelled (mnemonic : String)
  deriving DecidableEq, Repr

/-! ### The evaluation cluster (chapter The Evaluation Cluster) -/

/-- One active repeat level: issues left to count, the body's first and last word, completed issues (R61 to R64). -/
structure RepLevel where
  count : Nat
  first : Nat
  last : Nat
  done : Nat
  deriving DecidableEq, Repr

/-- Where a result lands. `rf` numbers registers as R278 does: 0 to 63 W, 64 to 67 M, 68 and 69 IX, 70 to 93 the
accumulator halves, 94 the output register (R345). -/
inductive Dest where
  | rf (r : Nat)
  | vm (cell : Nat)
  | vl
  deriving DecidableEq, Repr

/-- A write that has issued and is not yet due (R47, R53). Steps are counted by `Cluster.gstep`. -/
structure InFlight where
  dest : Dest
  value : Cell
  mask : Cell
  issued : Nat
  due : Nat
  slot : Nat
  implied : Bool
  deriving DecidableEq, Repr

/-- A design-memory read whose data is due at step s + L (R160). -/
structure DmemRead where
  slot : Nat
  /-- The step it issued on, as its cluster counts issued steps (`Cluster.gstep`), from which its distance runs (R48, R51). -/
  issued : Nat
  /-- The same step as its partition counts, which its stamp carries (R165, R166). -/
  pstep : Nat
  dest : Dest
  region : Nat
  addr : Nat
  value : SCell
  inRange : Bool
  arrived : Bool
  /-- The predicate: a read whose predicate is 0 writes nothing (R102). -/
  writes : Bool
  deriving DecidableEq, Repr

/-- One of the 408 clusters (R35). -/
structure Cluster where
  /-- Program memory: cell c of word w at 72·w + c. -/
  pm : Mem 13 := []
  /-- Value memory. -/
  vm : Mem 13 := []
  /-- W, M, IX, AC and the output register. -/
  rf : Mem 13 := []
  /-- Accumulators as the next multiply-accumulate sees them (R48, R100), where that differs from `rf`. -/
  acLive : Tbl (BitVec 24) := []
  /-- Active vector length (R110). -/
  vl : Nat := 8
  /-- Step counter t. -/
  t : Nat := 0
  /-- Word address. -/
  pc : Nat := 0
  /-- Steps this cluster has issued since its partition was loaded; distances count these (R51). -/
  gstep : Nat := 0
  lvl0 : Option RepLevel := none
  lvl1 : Option RepLevel := none
  /-- The previous-step latch (R35, R52). -/
  latch : Cell := 0
  /-- The latch must be loaded from cell P-1 before the next step 0 (R52). -/
  latchLoad : Bool := true
  inflight : List InFlight := []
  reads : List DmemRead := []
  /-- Cells that explicit writes due on the step in progress have written: what its bank turns count (R56, R60). -/
  stepWrites : List Nat := []
  /-- Reads of the step in progress that have been taken while its writes wait for the write buffer (R162). -/
  stepReads : List DmemRead := []
  /-- CLU_STATUS.state. -/
  st : Nat := 0
  /-- CLU_CTRL.enable as it took effect at step 0. -/
  issuing : Bool := false
  /-- The word at the PC has been released past its breakpoint (R71). -/
  bpPass : Bool := false
  /-- The cause bit of CLU_CAUSE that stopped the cluster before issue (R72). -/
  stopBit : Option Nat := none
  /-- The step in progress already counts in CLU_CNT_WAIT. -/
  waitCounted : Bool := false
  /-- A CLU_ROLE value that takes effect at the next step boundary (R81, R335). -/
  roleArmed : Option Nat := none
  deriving DecidableEq, Repr

/-! ### Reaches, berths and the reach design-memory unit -/

/-- A berth entry (R189). -/
structure BerthEntry where
  value : SCell := 0
  tag : SCell := 0
  parity : Bool := false
  valid : Bool := false
  deriving DecidableEq, Repr

/-- A local value between its send port and its arrival port (R127). -/
structure Transit where
  due : Nat
  port : Nat
  value : Cell
  deriving DecidableEq, Repr

/-- A remote value between its send and its link queue (R129), with what its net-slot entry named at the send. -/
structure Handoff where
  due : Nat
  tag : Nat
  value : Cell
  parity : Bool
  dest : Nat
  berth : Nat
  rel : Nat
  deriving DecidableEq, Repr

/-- A berth or clear wait that the watchdog times (R215). -/
structure Wait where
  isClear : Bool
  parity : Bool
  position : Nat
  index : Nat
  epoch : Nat
  expired : Bool
  deriving DecidableEq, Repr

/-- A line in a reach cache: 32 stored halfwords, whether it is dirty, and whether other reaches hold clean copies of a dirty one,
so that a write needs ownership again (R154, R169, R170). -/
structure CacheLine where
  cells : List (BitVec 16)
  dirty : Bool
  shared : Bool := false
  deriving DecidableEq, Repr

/-- A buffered design-memory write with its stamp (R162, R165). -/
structure WbEntry where
  gstep : Nat
  position : Nat
  slot : Nat
  region : Nat
  addr : Nat
  value : Cell
  /-- Held until its page's pre-image is copied (R175). -/
  held : Bool
  deriving DecidableEq, Repr

/-- A gauge that fired: reach, index, value. -/
structure Fire where
  reach : Nat
  index : Nat
  value : Cell
  deriving DecidableEq, Repr

/-- The saved part of a gauge: its count and armed state (R497). -/
structure GaugeState where
  index : Nat
  count : Nat
  armed : Bool
  deriving DecidableEq, Repr

/-- One of the 24 reaches. -/
structure Reach where
  /-- Crossbar table: cell c of entry u at 8·u + c (R123). -/
  xbt : Mem 13 := []
  /-- Net-slot map: cell c of slot n at 3·n + c (R132). -/
  nsm : Mem 13 := []
  /-- Berth map: cell c of berth b at 3·b + c (R213). -/
  bmap : Mem 13 := []
  /-- Keeper 0's own copy of the berth map, from which the dredger rewrites a bad cell (R326). -/
  bmapCopy : Mem 12 := []
  /-- Berth entries: entry e of berth b at 2·b + e (R189). -/
  berths : Tbl BerthEntry := []
  /-- Outstanding bits: bit p of net slot n at 2·n + p (R198). -/
  outstanding : Mem 1 := []
  /-- Outstanding bits whose parity bit is wrong (R319, R346). -/
  clrBad : List Nat := []
  /-- RCH_CTRL.enable as it took effect at step 0. -/
  following : Bool := false
  /-- Arrival-port holds, stored with parity (R127, R318). -/
  holds : Mem 13 := []
  transit : List Transit := []
  handoff : List Handoff := []
  waits : List Wait := []
  /-- Lines of the reach cache, by stack·2^28 + physical address / 64 (R169). -/
  cache : Tbl CacheLine := []
  /-- Evicted lines that await WB-Ack (R173). -/
  writeback : Tbl CacheLine := []
  /-- Lines this reach has requested: the stamp, and whether for ownership; `waiting` after a Retry (R171). -/
  requests : Tbl (Nat × Bool × Bool) := []
  /-- The write buffer, oldest first, at most 64 writes (R162), and how many writes of the step in progress have entered. -/
  wb : List WbEntry := []
  wbTaken : Nat := 0
  /-- Pages in the translation buffer, at most 256, newest first, by region·8192 + page (R159). -/
  tlb : List Nat := []
  /-- Cache ways out of replacement (R330). -/
  waysOff : List Nat := []
  /-- Writes applied within the last 24 steps, each with the value it replaced: what a conflicting access may still see
  (R166). -/
  recent : List WbEntry := []
  /-- Steps whose fence close this reach has received from each home (R167). -/
  fenceSeen0 : Nat := 0
  fenceSeen1 : Nat := 0
  /-- The epoch in which the wait of RCH_BWD_REC began (R339). -/
  bwdEpoch : Nat := 0
  /-- Marked for retirement at unload (R329), and retired (R328). -/
  retireMark : Bool := false
  retired : Bool := false
  /-- Gauge values last watched (R494), by gauge index. -/
  gaugePrev : Tbl Cell := []
  /-- Gauges that have fired since the last commit (R494). -/
  gaugeFired : List Nat := []
  /-- Gauge states as of the newest and the older committed lock (R497). -/
  gaugeNew : List GaugeState := []
  gaugeOld : List GaugeState := []
  /-- Gauge register writes that wait for a design-cycle boundary: field key and value (R504). -/
  gaugeWrites : List (Nat × Nat) := []
  deriving DecidableEq, Repr

/-! ### Design memory homes -/

/-- Directory states (R170). -/
inductive DirState where
  | invalid | shared | owned | modified
  deriving DecidableEq, Repr

/-- One line of a home directory (R170, R171, R173). -/
structure DirLine where
  st : DirState := .invalid
  owner : Nat := 0
  sharers : List Nat := []
  /-- The requester whose transaction is open. -/
  busy : Option Nat := none
  /-- The open transaction asks for ownership. -/
  forOwn : Bool := false
  /-- A forward to the owner has been sent and not answered (R173). -/
  fwd : Bool := false
  /-- The wake queue: reach, stamp, ownership wanted (R171). -/
  queue : List (Nat × Nat × Bool) := []
  /-- Reaches to which Wake is on its way (R171). -/
  woken : List Nat := []
  /-- Line data on its way to the requester. -/
  data : Option (List (BitVec 16)) := none
  deriving DecidableEq, Repr

/-- A tenant's run of shortfall windows: its length, the stacks that have reported in the window in hand, and whether one was short
(R185). -/
structure ShortRun where
  run : Nat := 0
  seen : List Nat := []
  short : Bool := false
  deriving DecidableEq, Repr

/-- A design-memory region of a loaded partition (R153 to R159). -/
structure Region where
  id : Nat
  readOnly : Bool
  prefetch : Nat
  single : Option Nat
  size : Nat
  stack : Nat
  /-- Physical page of each region page (R159). -/
  pages : List Nat
  deriving DecidableEq, Repr

/-! ### Partitions and the lock unit -/

/-- The header fields a loaded partition keeps (R139). -/
structure Header where
  imageId : Nat := 0
  partitionId : Nat := 0
  deviceCount : Nat := 1
  deviceIndex : Nat := 0
  reachCount : Nat := 0
  marginMask : Nat := 0
  stepsM1 : Nat := 0
  poundLog2 : Nat := 8
  distMode : Bool := false
  early : Bool := false
  deriving DecidableEq, Repr

/-- A host port as HOST_PORTS declares it (R142). -/
structure HostPort where
  port : Nat
  isInput : Bool
  flagged : Bool
  rel : Nat
  berth : Nat
  deriving DecidableEq, Repr

/-- The host interface's queue of one input port (R204, R434, R299). -/
structure InPort where
  queue : List Cell := []
  /-- Values delivered to the berth and not yet logged (R299). -/
  taken : List Cell := []
  consumed : Nat := 0
  overflow : Bool := false
  dirty : Bool := false
  deriving DecidableEq, Repr

/-- A value of a host output port (R130, R437). -/
structure OutVal where
  pound : Nat
  dcycle : Nat
  port : Nat
  value : Cell
  early : Bool
  deriving DecidableEq, Repr

/-- An input-log record (R296). -/
structure LogRec where
  dcycle : Nat
  kind : Nat
  source : Nat
  rel : Nat
  value : Cell
  status : Cell
  deriving DecidableEq, Repr

/-- A pre-image of a page (R280): the region, the region page, and the undo page that holds it. -/
structure Undo where
  region : Nat
  page : Nat
  stack : Nat
  phys : Nat
  deriving DecidableEq, Repr

/-- A checkpoint slot (R270, R275): its descriptor, segments C and K as bytes, U as its index, L as its records. -/
structure Ckpt where
  lock : Nat
  committed : Bool
  start : Bool
  exported : Bool
  released : Bool
  epoch : Nat
  segC : List Byte
  segK : List Byte
  segU : List Undo
  segL : List LogRec
  /-- Segments whose CRC no longer passes, by type code (R272, R276). -/
  bad : List Nat
  /-- Which of the three slots it fills. -/
  slot : Nat := 0
  deriving DecidableEq, Repr

/-- The ledger buffers of one slot (R274): its descriptor, the data buffers of C, K, U and L, and their list buffers. -/
structure SlotBufs where
  desc : Nat
  data : List (List Nat)
  lists : List (List Nat)
  deriving DecidableEq, Repr

/-- A command whose completion is still to be posted: command id and opcode (R430). -/
structure OpenCmd where
  cmdId : Nat
  opcode : Nat
  arg : Nat
  deriving DecidableEq, Repr

/-- What a root has heard in one sweep: the child, and the flags of its message (R286, R287, R306). -/
structure Sweep where
  child : Nat
  flags : Nat
  /-- The lock that an ARRIVE names (R433); 0 in RESTORED. -/
  lock : Nat
  /-- Devices of the child's subtree, less one. -/
  devices : Nat
  deriving DecidableEq, Repr

/-- The partition of one tenant on this device. Its mode, phase, epoch, pound and locks are register fields. -/
structure Part where
  hdr : Header := {}
  /-- Physical reach of each partition-relative reach (R119). -/
  bound : List Nat := []
  /-- The container, as held in HBM (R320). -/
  container : List Byte := []
  /-- STATE_MARK of position p of relative reach r, at 17·r + p (R142). -/
  marks : Tbl (BitVec 4096) := []
  /-- Golden copies (R146), shared by both copies: program cells at (17·r + p)·73728 + 72·w + c. -/
  goldPm : Mem 12 := []
  /-- VALUE_INIT, at (17·r + p)·4096 + cell. -/
  goldVm : Mem 12 := []
  /-- XBAR, at 8192·r + 8·u + c, and NETSLOT, at 12288·r + 3·n + c. -/
  goldXbt : Mem 12 := []
  goldNsm : Mem 12 := []
  /-- Uncorrectable reports that met a ledger buffer of the partition, by the number of the free value that says what the buffer
  held (R69, R150, R186; log entry 50). -/
  goldLost : List Nat := []
  /-- Uncorrectable reports that may have met the container, by the number of the free value that says whether they did (R322; log entry
  50). -/
  conLost : List Nat := []
  regions : List Region := []
  ports : List HostPort := []
  inputs : Tbl InPort := []
  /-- VC0 record load the partition reserves on each link (R255). -/
  vc0Load : Tbl Nat := []
  /-- The partition-relative reach whose net-slot map defines a tag: the directory of clears built at load (R243). -/
  netDir : Tbl Nat := []
  /-- Ledger buffers held for the partition (R274): all of them, those of its three slots, and those of the golden copies. -/
  buffers : List Nat := []
  slots : List SlotBufs := []
  goldBufs : List Nat := []
  /-- Undo pages not in use: stack and page (R273). -/
  undoFree : List (Nat × Nat) := []
  /-- Pre-images pinned for the export in progress: each page as it stood at the exported lock (R311). -/
  undoPinned : List Undo := []
  /-- Pages already copied in this pound, by region·8192 + page (R175). -/
  copied : List Nat := []
  rootDev : Nat := 0
  /-- The design-cycle number since load; its low bit is the parity (R134). -/
  dcNumber : Nat := 0
  /-- Steps issued by the partition since load: the step part of design-memory stamps (R165). -/
  gstep : Nat := 0
  /-- The partition stands at the lock: step P-1 of a pound is complete (R134 row 3). -/
  atLock : Bool := false
  /-- Step 0 of the current design cycle has been issued. -/
  started : Bool := false
  /-- The step in progress has begun: the enables that govern it have been taken (R41, R152), and the number of its first free
  value, so that a step that waits reads the same values when it goes on (R51). -/
  begun : Bool := false
  stepFree : Nat := 0
  /-- The design-memory reads of the step in progress have been taken (R162, R165). -/
  memTaken : Bool := false
  /-- Gauges that the writes due on the step in progress have fired (R496). -/
  fires : List Fire := []
  /-- The step counter t, which every cluster and network stage of the partition shares. -/
  step : Nat := 0
  /-- The stop whose kind-4 completion is still to be posted (R447). -/
  stopOwed : Option Nat := none
  /-- Issue is stopped by a cause of the fabric, berths or design memory (R125, R128, R196). -/
  stopped : Bool := false
  /-- A stop or hold waits: `some false` for a step boundary, `some true` for a design-cycle boundary (R445). -/
  holdReq : Option Bool := none
  /-- The mode that a GO returns to: Replay, or Run (R508). -/
  heldReplay : Bool := false
  /-- Design cycles left of a STEP (R510). -/
  stepLeft : Nat := 0
  stopIds : List Nat := []
  goIds : List Nat := []
  /-- The next id the device draws, counted from 0xF00 (R495). -/
  nextId : Nat := 0
  openCmds : List OpenCmd := []
  ckpts : List Ckpt := []
  /-- The log of the pound in progress (R297) and its pre-images. -/
  logNow : List LogRec := []
  undoNow : List Undo := []
  /-- Records of re-executed pounds, by pound (R272, R298). -/
  logOld : Tbl (List LogRec) := []
  outs : List OutVal := []
  /-- Whether a pound's lock has been committed yet, and the release floor (R295). -/
  floor : Option Nat := none
  /-- The pound that holds the horizon, and whether the horizon is in force (R298). -/
  horizonPound : Nat := 0
  horizonOn : Bool := false
  /-- Pounds after the older committed lock that have released a value early (R294, R307). -/
  relPounds : List Nat := []
  /-- Steps closed at each home (R167). -/
  fenceClosed0 : Nat := 0
  fenceClosed1 : Nat := 0
  /-- Step-done markers received: home, reach and step (R167). -/
  markers : List (Nat × Nat × Nat) := []
  ready : Bool := false
  captureFail : Bool := false
  /-- Segments U and L of the pound in progress that a lost buffer spoils, by type code (R272). -/
  badNow : List Nat := []
  /-- Segment C as captured at this lock (R281), not yet in a slot. -/
  segC : List Byte := []
  captured : Bool := false
  /-- Writes of segment K of this lock that HBM will fail (R283). -/
  failsK : Nat := 0
  /-- The lock in hand is the start lock (R268, R432), and its number: the exported lock after LOAD_EXPORT (R433). -/
  starting : Bool := false
  startLock : Nat := 0xFFFFFF
  /-- System time when ARRIVE was sent (LCK_FLIGHTt.flight). -/
  arriveAt : Nat := 0
  arrived : List Sweep := []
  /-- A REQ waits at the root: `some true` when the older target is asked (R303). -/
  reqPending : Option Bool := none
  /-- ROLLBACKs since the last commit (R308), and one that waits for the 20 us gap (R305). -/
  rollbacks : Nat := 0
  /-- The cause code for a REQ, kept while keeper 0 has cleared the cause and not yet asked (R286, R321). -/
  reqWhy : Option Nat := none
  /-- Errors since the last commit, by the record of R577 (R323), and watchdog expiries in the same way (R216). -/
  errSeen : List Nat := []
  bwdSeen : List Nat := []
  /-- Clusters whose substitution found no spare that qualifies (R334). -/
  deferred : List Nat := []
  /-- A dredger pass, or a spare in preparation, has found both golden copies of something gone (R322). -/
  goldAsk : Bool := false
  /-- Clusters to be replaced, each with whether a commit serves as well as a rollback, and the record of the fault that is posted if
  no spare qualifies by then (R333, R334, R577). -/
  plans : List (Nat × Bool × Nat) := []
  /-- Substitutions under way or just over: the spare and the cluster that it replaces (R335, R339). -/
  moving : List (Nat × Nat) := []
  gapRunning : Bool := false
  gapWaiting : Option (Nat × Bool × Option (Nat × Nat × Bool)) := none
  target : Nat := 0
  restored : List Sweep := []
  /-- The restore actions on this device are complete; its usability flags (R302, R306). -/
  restoreDone : Bool := false
  restoreFlags : Nat := 0
  replayRun : Bool := false
  /-- The next replay stop: pound, design cycle, every (R313). -/
  replayStop : Option (Nat × Nat × Bool) := none
  /-- Net slots for which REJOIN has been sent: the bridge and the tag (R131, R298). -/
  rejoined : List (Nat × Nat) := []
  /-- A rollback has come since the load, so bridges send only after REJOIN (R292). -/
  rolledBack : Bool := false
  /-- Values of a bridge berth that no clear has answered, oldest first, by 4096·relative reach + berth (R292). -/
  bridge : Tbl (List (Cell × Bool)) := []
  /-- Hooks still unanswered at this lock: keeper numbers (R381). -/
  hooksOpen : List Nat := []
  /-- Records of segment K gathered so far (R279). -/
  segK : List Byte := []
  /-- The range lists that the capture hooks have answered with, by keeper; the ranges are copied when all are in (R381). -/
  hookLists : List (Nat × List (Nat × Nat)) := []
  /-- The lock whose export is in progress, with what the export reads of its slot, and the segment D that it has read of its own
  where a rollback to an older lock has come since (R311; log entry 94). -/
  exporting : Option Ckpt := none
  exportD : Option (List Byte) := none
  deriving DecidableEq, Repr

/-! ### Aqueduct links -/

/-- A barge that waits for a link: its source, 16 for this device or the link it arrived on (R237). -/
structure Waiting where
  src : Nat
  barge : Barge
  /-- The VC in whose receive space it is held; a barge of R241 goes out on another (R238). -/
  arr : Nat := 0
  deriving DecidableEq, Repr

/-- One of the 16 links. Its state code, round and lane maps are register fields. -/
structure Link where
  /-- Next sequence number to send, and the newest one acknowledged (R231). -/
  txSeq : Nat := 0
  acked : Nat := 4095
  /-- Barges sent and not acknowledged, oldest first (R231). -/
  window : List Barge := []
  /-- Barges of `window` still to be sent again (R234). -/
  replaying : List Barge := []
  /-- Consecutive replays without progress (R235). -/
  replayRuns : Nat := 0
  /-- Barges waiting for each VC: VC0 to VC3 (R236). -/
  q0 : List Waiting := []
  q1 : List Waiting := []
  q2 : List Waiting := []
  q3 : List Waiting := []
  /-- The source each VC served last, by VC (R237). -/
  served : Tbl Nat := []
  /-- Paddles in stock for VC1, VC2, VC3, and the peer's last cumulative counts (R238). -/
  pad1 : Nat := 0
  pad2 : Nat := 0
  pad3 : Nat := 0
  seen1 : Nat := 0
  seen2 : Nat := 0
  seen3 : Nat := 0
  /-- Paddles freed by this receiver, cumulative (R238). -/
  freed1 : Nat := 0
  freed2 : Nat := 0
  freed3 : Nat := 0
  /-- VC0 records held in the receive buffer (R240). -/
  vc0Held : Nat := 0
  expected : Nat := 0
  expRound : Nat := 0
  nak : Bool := false
  episode : Bool := false
  /-- Barge slots since the last status barge, and whether one is due within 8 slots (R230). -/
  sinceStatus : Nat := 0
  statusDue : Bool := false
  /-- Consecutive new-barge slots that VC0 took while VC1, or VC3, was ready (R237). -/
  run1 : Nat := 0
  run3 : Nat := 0
  /-- Barges this end has sent, in order. -/
  sent : List Barge := []
  /-- Barges of the train being sent (R223), and the PAM4 levels that each physical lane has carried (R220, R224). -/
  train : List Barge := []
  lanes : Tbl (List (BitVec 2)) := []
  /-- Data of the codewords of the train being received, and the barges of the last whole train (R223). -/
  rxData : List (List (BitVec 10)) := []
  rxBarges : List Barge := []
  /-- Codeword within the receive train, and the barges of the train an uncorrectable one touched (R225). -/
  codeword : Nat := 0
  spoiled : BitVec 10 := 0
  bargeNo : Nat := 0
  /-- Trains since Active, per direction (R258). -/
  txTrain : BitVec 16 := 0
  rxTrain : BitVec 16 := 0
  /-- A lane swap in progress: transmit side slot, train and grant; receive side the same (R258). -/
  txSwap : Option (Nat × Nat × Bool) := none
  rxSwap : Option (Nat × Nat) := none
  txSpareUsed : Bool := false
  /-- The slot for which this receiving end has asked a swap, and whether its unused spare has failed (R257, R258). -/
  rxAsk : Option Nat := none
  rxSpareLost : Bool := false
  /-- Consecutive uncorrectable codewords while Active (R259). -/
  badWords : Nat := 0
  /-- Where the PRBS31 generator of the spare lane stands, and those of the lanes in Test, by lane (R257, R262). -/
  spareGen : Nat := 0
  gens : Tbl Nat := []
  /-- Consecutive codewords decoded without an uncorrectable one, in Lock (R247). -/
  goodWords : Nat := 0
  /-- The peer's parameters: accepted, and seen as echoed (R247, R249). -/
  peerOk : Bool := false
  peerEcho : Bool := false
  /-- This end has sent a parameter barge that accepts the peer's, and the peer's accepted barge (R247). -/
  echoSent : Bool := false
  peerBarge : Barge := 0
  /-- The peer seen before a retrain (R250). -/
  oldPeer : Option Nat := none
  /-- Retrain failures in a row, and the times of the retrains of the last second (R259). -/
  retrainFails : Nat := 0
  retrainTimes : List Nat := []
  /-- The step of R247 that a retrain has come to: 3, 4 or 5. -/
  sub : Nat := 3
  /-- Held in Exchange by R250. -/
  refused : Bool := false
  /-- Windows in a row in which a lane exceeded its threshold, by lane, and corrected symbols of this window (R259). -/
  laneOver : Tbl Nat := []
  laneSym : Tbl Nat := []
  /-- A planned retirement drains (R261). -/
  draining : Bool := false
  /-- Training-frame coefficients: taps by lane·4 + tap, and the status to send back (R248). -/
  taps : Tbl Int := []
  tapStatus : Tbl Nat := []
  equalized : List Nat := []
  aligned : List Nat := []
  deriving DecidableEq, Repr

/-! ### Keepers -/

/-- One keeper (R348, R350). -/
structure Keeper where
  pc : Nat := 0
  /-- Registers AH, AL, IX, JX, FL, U, V, RG by the numbers of R350. -/
  ah : Cell := 0
  al : Cell := 0
  ix : Cell := 0
  jx : Cell := 0
  fl : Cell := 0
  u : Cell := 0
  v : Cell := 0
  rg : Cell := 0
  /-- The on-chip stacks, top first, at most 32 entries (R348, R352). -/
  ds : List SCell := []
  rs : List (BitVec 26) := []
  sp : Nat := 0
  rp : Nat := 0
  /-- Bring-up step 6 has written program memory and tables 0 to 8 from the boot ROM: what no write has marked since is as the ROM has it
  (R514, R515; log entry 35). -/
  image : Bool := false
  /-- The golden copy that step 6 wrote is the one that KPR_PGOLD names (R379, R515). -/
  gold : Bool := false
  /-- Program memory: 14 bits, parity, and in bit 15 the mark of a word written since step 6 (R348). -/
  prog : Mem 16 := []
  /-- Local data. -/
  data : Mem 13 := []
  /-- Tables 0 to 9: cell c of entry i of table n at 4096·n + 8·i + c (R392); bit 13 marks a cell written since step 6. -/
  tbl : Mem 14 := []
  /-- The system keeper's own copy of those tables, from which it rewrites a bad entry (R380). -/
  tblCopy : Mem 12 := []
  /-- Indirect-target table: [16] parity, [15] valid, [14:0] target (R387). -/
  itt : Mem 17 := []
  hist : BitVec 8 := 0
  waiting : Bool := false
  /-- A block instruction is between elements (R366). -/
  inBlock : Bool := false
  /-- A takeover is pending (R378). -/
  takeover : Bool := false
  /-- A fault has been entered and the first instruction of its handler has not begun (R376). -/
  entering : Bool := false
  /-- Vector 4 has been taken for the pending hook (R381). -/
  hookTaken : Bool := false
  /-- Instructions retired since a mask write, by source, up to 4 (R410). -/
  maskAge : Tbl Nat := []
  /-- Read latch: register address and value; write latch: bits [23:0] (R358). -/
  rdLatch : Option (Nat × Word) := none
  wrLatch : BitVec 24 := 0
  /-- The low cell written to space 4 (R359). -/
  pmLatch : Cell := 0
  /-- A customer instruction is running (R386, R392). -/
  custom : Bool := false
  deriving DecidableEq, Repr

/-! ### Interrupts -/

/-- One interrupt source (R393, R395). -/
structure Src where
  pending : Bool := false
  active : Bool := false
  count : Nat := 0
  claimer : Nat := 0
  en : Bool := false
  target : Nat := 4
  prio : Nat := 8
  /-- Cause latch of a scanned source. -/
  latch : BitVec 8 := 0
  /-- Masked, with the 4-instruction window still open (R410). -/
  masking : Bool := false
  /-- Its place in the order in which sources came to pend (R339). -/
  turn : Nat := 0
  deriving DecidableEq, Repr

/-! ### Host interface -/

/-- An entry the device will write to a host queue, and its bytes before phase and CRC are set (R425, R426). -/
structure Entry where
  bytes : List Byte
  deriving DecidableEq, Repr

/-- A device-written queue: entries held because it is full or disabled, phase, ordinal (R425 to R427). -/
structure Queue where
  held : List Entry := []
  phase : Bool := true
  ordinal : Nat := 0
  /-- SET_AREA has bound the area (R430). -/
  bound : Bool := false
  deriving DecidableEq, Repr

/-- A fault for a tenant (R441, R443). -/
structure FaultRec where
  type : Nat
  count : Nat
  record : Nat
  detail : Nat
  deriving DecidableEq, Repr

/-- A write the device makes to host memory: address and bytes. -/
structure HostWrite where
  addr : Nat
  bytes : List Byte
  /-- The address is that of an area entry, which holds the address of the page written (R424). -/
  page : Bool := false
  deriving DecidableEq, Repr

/-- An MSI-X vector: its table entry and pending bit (R444). -/
structure Msix where
  addr : Nat := 0
  data : Nat := 0
  masked : Bool := true
  pending : Bool := false
  /-- A batch is coalescing. -/
  batch : Bool := false
  deriving DecidableEq, Repr

/-- A PCI Express function (R418 to R420, R453). -/
structure Fn where
  /-- Memory Space Enable of the PF, and Bus Master Enable. -/
  memEnable : Bool := false
  busMaster : Bool := false
  d3hot : Bool := false
  pmeStatus : Bool := false
  pmeEnable : Bool := false
  /-- The 64-bit base addresses BAR0 and BAR2, which the PF has (R419). -/
  bar0 : Nat := 0
  bar2 : Nat := 0
  /-- Device Control, with Max Payload Size in [7:5] and Max Read Request Size in [14:12], and Device Status (R418). -/
  devCtl : Nat := 0x2810
  devSta : Nat := 0
  /-- VF Enable, VF Memory Space Enable, NumVFs and the base of the VFs' BAR2, which the PF holds (R418, R451). -/
  vfEnable : Bool := false
  vfMem : Bool := false
  numVfs : Nat := 0
  vfBar : Nat := 0
  /-- Dwords 1 to 5 of Advanced Error Reporting, where written: status, mask and severity of the uncorrectable errors, status and mask
  of the correctable ones (R418). -/
  aer : Tbl Nat := []
  deriving DecidableEq, Repr

/-! ### Sluice, check units, ledger -/

/-- The progress of a channel (R470 to R476); its status is in register fields. -/
structure Channel where
  /-- The descriptor in progress. -/
  desc : Option (BitVec 512) := none
  /-- Elements completed, and bytes of the element in hand that remote requests have moved (R473). -/
  element : Nat := 0
  got : Nat := 0
  /-- Bytes of the element in hand that have been read. -/
  buf : List Byte := []
  /-- Bits [23:0] of the element's index entry, once read from a remote table. -/
  idx : Option Nat := none
  /-- The VC1 request in flight: 0 none, 1 read, 2 write, 3 read of an index entry; its transaction ID, and the number of requests made. -/
  waiting : Nat := 0
  txn : Nat := 0
  requests : Nat := 0
  /-- Retries made of the failing request (R476). -/
  tries : Nat := 0
  /-- A stop takes effect at the next element boundary (R477). -/
  stopping : Bool := false
  halfDone : Bool := false
  /-- The next descriptor's address and form (R471). -/
  next : Nat := 0
  nextLedger : Bool := false
  deriving DecidableEq, Repr

/-- A check unit (R465 to R469). -/
structure Chk where
  /-- Before the final XOR: CHK_VALu reads 0 after reset (R479). -/
  crc : BitVec 64 := 0xFFFFFFFF
  poly : Nat := 0
  /-- Bytes left of a scan, and its next address. -/
  scanLeft : Nat := 0
  scanAddr : Nat := 0
  deriving DecidableEq, Repr

/-- A ledger offence record (R460). -/
structure Offence where
  give : Bool
  offence : Nat
  buffer : Nat
  owner : Nat
  offender : Nat
  deriving DecidableEq, Repr

/-- The mooring ledger (R455 to R464). -/
structure Ledger where
  /-- Tags that differ from zero, by buffer. -/
  tags : Mem 16 := []
  /-- The free list: buffers `fresh` to 65,503 that were never allocated, then `returned`. -/
  fresh : Nat := 0
  returned : List Nat := []
  log : List Offence := []
  lost : Nat := 0
  /-- Grants: GNT_A in bits [31:0], GNT_B spn in bits [43:32]. -/
  grants : Mem 44 := []
  deriving DecidableEq, Repr

/-! ### Weir -/

/-- A weir event (R480, R482). -/
structure Event where
  cls : Nat
  owner : Nat
  source : Nat
  code : Nat
  count : Nat
  data : Nat
  merged : Bool
  pound : Nat
  dcycle : Nat
  time : Nat
  /-- The origin device of a forwarded alarm (R488). -/
  origin : Nat
  /-- Of `count`, alarms still to be sent to the root; `count` itself is what the fault queue has still to accept (R487 to R489). -/
  fwd : Nat := 0
  deriving DecidableEq, Repr

/-- The weir: alarm stores, the drop totals and the trace gap (R481). -/
structure Weir where
  /-- The store of each owner, oldest first (R487, R489). -/
  alarms : Tbl (List Event) := []
  /-- Marker totals, by 16·owner + block (R491). -/
  totals : Tbl Nat := []
  /-- An open gap of the trace: its opening time, and the records dropped since (R492). -/
  gap : Option (Nat × Nat) := none
  /-- Records that the write queue of the trace has taken since time last moved: at most so many are in it (R481; log entry 5). -/
  inQueue : Nat := 0
  /-- The tenant of the snapshot that runs (R500). -/
  snapTenant : Nat := 0
  deriving DecidableEq, Repr

/-- An entry of the error log (R345). -/
structure ElogEntry where
  uc : Bool
  source : Nat
  cls : Nat
  inst : Nat
  addr : Nat
  deriving DecidableEq, Repr

/-- Fault accounting: buckets, thresholds, error log, the armed flip's unit, dredger (R324, R325, R346). -/
structure Tst where
  buckets : Tbl Nat := []
  thresholds : Tbl Nat := []
  elog : List ElogEntry := []
  flipped : Option (Nat × Nat × Nat) := none
  /-- System time at which the dredger's next pass is due (R325). -/
  passDue : Nat := 100000000
  deriving DecidableEq, Repr

/-! ### Power, always-on, debug ports -/

/-- The always-on domain, power, reset and the pins (chapters Modes, Power and Start-Up; Electrical). -/
structure Power where
  /-- System time in ns and its fraction in units of 1/640 ns (R523). -/
  time : Nat := 0
  frac : Nat := 0
  /-- A COMMIT asked the time to count at half rate until it meets this target, in 1/640 ns (R524). -/
  slewTo : Option Nat := none
  /-- AON_TIME_LO and AON_WAKE_TIME_LO held for a HI write (R539). -/
  timeLo : Word := 0
  wakeLo : Word := 0
  wakeTime : Nat := 0
  /-- The owner of every basin that PWR_BASIN_OWN does not list: 3 test controller after reset (R515, R518). -/
  basinDefault : Nat := 3
  /-- Domain switches still to be made, in order: domain and target state (R521). -/
  switches : List (Nat × Nat) := []
  /-- The always-on sensors: package power, VDD_CORE in mV (R522, R525). -/
  vddCore : Nat := 850
  /-- The thermal warning has fired and has not cleared (R525). -/
  warned : Bool := false
  /-- PERST# and ALERT_IN0#/1# asserted; WAKE# driven. -/
  perst : Bool := false
  alert0 : Bool := false
  alert1 : Bool := false
  wakePin : Bool := false
  /-- PME messages sent. -/
  pmeSent : Nat := 0
  /-- PCI Express link: 0 L0, 1 L1, 2 L1.2, 3 L2 (R453). -/
  linkState : Nat := 0
  /-- Steps of Bring-up completed (R515). -/
  bringUp : List Nat := []
  /-- Clusters that failed step 3, and the other units, by class, instance and unit (R328, R515). -/
  bistFailed : List Nat := []
  bistUnits : List (Nat × Nat × Nat) := []
  /-- A Sanitize wipe is running, and the fuse it blows (R533, R534). -/
  wiping : Bool := false
  fuseNext : Option Nat := none
  /-- A tamper or fatal condition that waits for Standby to end (R528, R535). -/
  tamperPending : Bool := false
  /-- Life-cycle fuse and key-encryption-key fuse (R532). -/
  lifeCycle : Nat := 1
  kekOk : Bool := true
  /-- AVSBus: the link answered last time (R560). -/
  avsDown : Bool := false
  /-- A wake in Standby-aux waits for PERST# before it asserts WAKE# (R531). -/
  standbyAux : Bool := false
  /-- R377 has found no keeper to take the system role (R403). -/
  roleLost : Bool := false
  /-- How the last request of the host completed: 0 served, 1 Unsupported Request, 2 Configuration Request Retry Status (R420, R421). -/
  reply : Nat := 0
  deriving DecidableEq, Repr

/-- The secure basin and the key staging area (R536, R537). -/
structure Secure where
  basin : Mem 13 := []
  staging : List Word := []
  deriving DecidableEq, Repr

/-- The Capstan port (R501, R502). -/
structure Capstan where
  line : List Byte := []
  tooLong : Bool := false
  out : List Byte := []
  baud : Nat := 115200
  oldBaud : Option Nat := none
  deriving DecidableEq, Repr

/-- TAP controller states of IEEE 1149.1 (R569). -/
inductive TapState where
  | reset | idle | selectDr | captureDr | shiftDr | exit1Dr | pauseDr | exit2Dr | updateDr
  | selectIr | captureIr | shiftIr | exit1Ir | pauseIr | exit2Ir | updateIr
  deriving DecidableEq, Repr

/-- The TAP and its registers (R569, R570). -/
structure Tap where
  st : TapState := .reset
  ir : BitVec 5 := 0b00001
  irShift : BitVec 5 := 0
  drShift : BitVec 32 := 0
  boundary : BitVec 15 := 0
  update : BitVec 15 := 0
  tdo : Bool := false
  deriving DecidableEq, Repr

/-- The whole device. -/
structure State where
  /-- Commands waiting, first in first out. -/
  pending : List Instr
  /-- Every register field, by field, instance and requester. -/
  regs : Tbl Nat
  clusters : Tbl Cluster
  reaches : Tbl Reach
  /-- Home directories, by stack·2^28 + line. -/
  dir : Tbl DirLine
  parts : Tbl Part
  links : Tbl Link
  /-- Route table: cell c of destination d at 2·d + c (R252). -/
  routes : Mem 13
  /-- Keeper 0's own copy of the route table (R326). -/
  routesCopy : Mem 12
  /-- Tenants whose spn directory entry fails parity, and keeper 0's own copy of the directory, by tenant (R319, R320, R326). -/
  spnBad : List Nat
  spnCopy : Tbl Nat
  /-- Last alive value received from each source device (R245), and this device's own counter. -/
  aliveSeen : Tbl Nat
  /-- Barges of this device's own for itself, which it delivers locally (R254; log entry 71). -/
  ownBarges : List Barge
  aliveOwn : Nat
  keepers : Tbl Keeper
  /-- Owner of each held semaphore, and semaphores released by a keeper reset (R382). -/
  sems : Tbl Nat
  /-- Claimed sources by number, private source n of keeper k at 1024 + 16·k + n, scanned source n at 2048 + n. -/
  irq : Tbl Src
  queues : Tbl Queue
  /-- Submission entries read and not yet carried out, by tenant (R429). -/
  fetched : Tbl (List (BitVec 512))
  /-- Faults held for each tenant (R443). -/
  faults : Tbl (List FaultRec)
  msix : Tbl Msix
  fns : Tbl Fn
  /-- Writes made to host memory and messages sent to the host, newest last. -/
  hostOut : List HostWrite
  /-- Both stacks: byte addresses 0 to 2^35 - 1, stack 0 below 2^34. -/
  hbm : Mem 8
  /-- Checkpoint staging and sluice buffers: the first cell of what last passed through a unit of class 9, the one that an armed flip can
  strike (R318, R319, R346). -/
  buffers9 : Mem 13
  /-- Physical pages taken from each stack's free pages, by stack·2^22 + page (R575), and pages retired. -/
  pagesUsed : List Nat
  pagesRetired : List Nat
  /-- Pages with an uncorrectable report that nothing has repaired yet (R186, R332). -/
  pagesBad : List Nat
  /-- Pages reported uncorrectable since hbm_uc of their stack was last 0, and not yet answered (R321). -/
  pagesUc : List Nat
  /-- A page retirement in progress (R177). -/
  retiring : Option Nat
  /-- Pages that keeper 0 will retire, oldest first, and the corrected reports of the last second: page and time (R332). -/
  retireQueue : List Nat
  pageReports : List (Nat × Nat)
  /-- Shortfall windows in a row, by tenant (R185). -/
  shortRun : Tbl ShortRun
  channels : Tbl Channel
  /-- Channels queued on each engine, in start order (R470). -/
  engineQ : Tbl (List Nat)
  chks : Tbl Chk
  ledger : Ledger
  weir : Weir
  tst : Tst
  power : Power
  secure : Secure
  capstan : Capstan
  tap : Tap
  /-- The data a read command returned to its sender: the model's own output. -/
  readData : Word
  /-- The HI half that a read of a LO half latched, by LO address and requester copy (R546). -/
  hiLatch : Tbl Nat
  /-- How many free values have been drawn: the model's own counter. -/
  freeCtr : Nat
  deriving DecidableEq, Repr

/-- The machine right after power-on reset: every register field at its Reset column, every memory zero, the device in
Bring-up (R10, R506, R512, R521). -/
def State.reset : State where
  pending := []
  regs := []
  clusters := []
  reaches := []
  dir := []
  parts := []
  links := []
  routes := []
  routesCopy := []
  spnBad := []
  spnCopy := []
  aliveSeen := []
  ownBarges := []
  aliveOwn := 0
  keepers := []
  sems := []
  irq := []
  queues := []
  fetched := []
  faults := []
  msix := []
  fns := []
  hostOut := []
  hbm := []
  buffers9 := []
  pagesUsed := []
  pagesRetired := []
  pagesBad := []
  pagesUc := []
  retiring := none
  retireQueue := []
  pageReports := []
  shortRun := []
  channels := []
  engineQ := []
  chks := []
  ledger := {}
  weir := {}
  tst := {}
  power := {}
  secure := {}
  capstan := {}
  tap := {}
  readData := 0
  hiLatch := []
  freeCtr := 0

end Sys2Proof.Machine
end

