-- ==== Sys2Proof/Machine/Regs.lean ====
section
/-!
DEFINITION. Sys2Proof/Machine/Regs.lean: the register map (R540 to R555). One constant for each named field of the register
tables, with the field's place, access type (R8), Reset column and change class (R11), and one row for each register.
-/
namespace Sys2Proof.Machine

/-- Access types (R8). -/
inductive Acc where
  | ro | rw | wo | w1c | w1s | rc
  deriving DecidableEq, Repr

/-- Change classes (R11). -/
inductive FClass where
  | none | fixed | atLock | live
  deriving DecidableEq, Repr

/-- What a register is instanced by: nothing, its requester (R548), a selected unit, or its address. -/
inductive Inst where
  | dev | who | cluster | reach | gauge | link | lane | tree | keeper | ktimer | channel | engine
  | stride | owner | ownerBlk | domain | basin | fn | fnq
  deriving DecidableEq, Repr

/-- A field: its register's address (BAR0 byte offset, or 0x4000000 plus a doorbell-page offset), lowest bit, width, access
type, Reset column and class. -/
structure Field where
  addr : Nat
  lo : Nat
  width : Nat
  acc : Acc
  reset : Nat
  cls : FClass
  deriving DecidableEq, Repr

/-- A register: its first address, the stride and count of its instances by address, what instances it, and its fields. -/
structure RegDef where
  addr : Nat
  stride : Nat
  count : Nat
  inst : Inst
  fields : List Field
  deriving DecidableEq, Repr

namespace Reg

/-! ### CLU -/

/-! CLU_SEL (R81). -/
def CLU_SEL_cluster : Field := ⟨0x100000, 0, 9, .rw, 0, .live⟩
def CLU_SEL : RegDef := ⟨0x100000, 0, 1, .who, [CLU_SEL_cluster]⟩

/-! CLU_ID (R81). -/
def CLU_ID_position : Field := ⟨0x100004, 16, 5, .ro, 0, .none⟩
def CLU_ID_reach : Field := ⟨0x100004, 8, 5, .ro, 0, .none⟩
def CLU_ID : RegDef := ⟨0x100004, 0, 1, .cluster, [CLU_ID_position, CLU_ID_reach]⟩

/-! CLU_ROLE (R81). -/
def CLU_ROLE_retired : Field := ⟨0x100008, 8, 1, .rw, 0, .live⟩
def CLU_ROLE_role : Field := ⟨0x100008, 0, 5, .rw, 0, .live⟩
def CLU_ROLE : RegDef := ⟨0x100008, 0, 1, .cluster, [CLU_ROLE_retired, CLU_ROLE_role]⟩

/-! CLU_CTRL (R81). -/
def CLU_CTRL_dist_mode : Field := ⟨0x10000c, 1, 1, .rw, 0, .fixed⟩
def CLU_CTRL_enable : Field := ⟨0x10000c, 0, 1, .rw, 0, .live⟩
def CLU_CTRL : RegDef := ⟨0x10000c, 0, 1, .cluster, [CLU_CTRL_dist_mode, CLU_CTRL_enable]⟩

/-! CLU_PROG (R81). -/
def CLU_PROG_steps_m1 : Field := ⟨0x100010, 16, 10, .rw, 0x3ff, .fixed⟩
def CLU_PROG_last_word : Field := ⟨0x100010, 0, 10, .rw, 0x3ff, .fixed⟩
def CLU_PROG : RegDef := ⟨0x100010, 0, 1, .cluster, [CLU_PROG_steps_m1, CLU_PROG_last_word]⟩

/-! CLU_STATUS (R81). -/
def CLU_STATUS_tight : Field := ⟨0x100014, 26, 1, .ro, 0, .none⟩
def CLU_STATUS_rep_depth : Field := ⟨0x100014, 24, 2, .ro, 0, .none⟩
def CLU_STATUS_state : Field := ⟨0x100014, 20, 4, .ro, 0, .none⟩
def CLU_STATUS_step : Field := ⟨0x100014, 10, 10, .ro, 0, .none⟩
def CLU_STATUS_pc : Field := ⟨0x100014, 0, 10, .ro, 0, .none⟩
def CLU_STATUS : RegDef := ⟨0x100014, 0, 1, .cluster, [CLU_STATUS_tight, CLU_STATUS_rep_depth, CLU_STATUS_state, CLU_STATUS_step, CLU_STATUS_pc]⟩

/-! CLU_CAUSE (R81). -/
def CLU_CAUSE_role_applied : Field := ⟨0x100018, 7, 1, .w1c, 0, .live⟩
def CLU_CAUSE_sequence : Field := ⟨0x100018, 6, 1, .w1c, 0, .live⟩
def CLU_CAUSE_repeat : Field := ⟨0x100018, 5, 1, .w1c, 0, .live⟩
def CLU_CAUSE_illegal : Field := ⟨0x100018, 4, 1, .w1c, 0, .live⟩
def CLU_CAUSE_reg_parity : Field := ⟨0x100018, 3, 1, .w1c, 0, .live⟩
def CLU_CAUSE_vm_parity : Field := ⟨0x100018, 2, 1, .w1c, 0, .live⟩
def CLU_CAUSE_breakpoint : Field := ⟨0x100018, 1, 1, .w1c, 0, .live⟩
def CLU_CAUSE_fetch_trap : Field := ⟨0x100018, 0, 1, .w1c, 0, .live⟩
def CLU_CAUSE : RegDef := ⟨0x100018, 0, 1, .cluster, [CLU_CAUSE_role_applied, CLU_CAUSE_sequence, CLU_CAUSE_repeat, CLU_CAUSE_illegal, CLU_CAUSE_reg_parity, CLU_CAUSE_vm_parity, CLU_CAUSE_breakpoint, CLU_CAUSE_fetch_trap]⟩

/-! CLU_CAUSE_EN (R81). -/
def CLU_CAUSE_EN_en : Field := ⟨0x10001c, 0, 8, .rw, 0xff, .live⟩
def CLU_CAUSE_EN : RegDef := ⟨0x10001c, 0, 1, .cluster, [CLU_CAUSE_EN_en]⟩

/-! CLU_TRAP (R81). -/
def CLU_TRAP_bp_en : Field := ⟨0x100020, 15, 1, .rw, 0, .live⟩
def CLU_TRAP_bp_word : Field := ⟨0x100020, 0, 10, .rw, 0, .live⟩
def CLU_TRAP : RegDef := ⟨0x100020, 0, 1, .cluster, [CLU_TRAP_bp_en, CLU_TRAP_bp_word]⟩

/-! CLU_RESUME (R81). -/
def CLU_RESUME_resume : Field := ⟨0x100024, 0, 1, .wo, 0, .live⟩
def CLU_RESUME : RegDef := ⟨0x100024, 0, 1, .cluster, [CLU_RESUME_resume]⟩

/-! CLU_FETCH_ERR (R81). -/
def CLU_FETCH_ERR_valid : Field := ⟨0x100028, 31, 1, .ro, 0, .none⟩
def CLU_FETCH_ERR_cell : Field := ⟨0x100028, 10, 7, .ro, 0, .none⟩
def CLU_FETCH_ERR_word : Field := ⟨0x100028, 0, 10, .ro, 0, .none⟩
def CLU_FETCH_ERR : RegDef := ⟨0x100028, 0, 1, .cluster, [CLU_FETCH_ERR_valid, CLU_FETCH_ERR_cell, CLU_FETCH_ERR_word]⟩

/-! CLU_VM_ADDR (R81). -/
def CLU_VM_ADDR_rejected : Field := ⟨0x10002c, 31, 1, .w1c, 0, .live⟩
def CLU_VM_ADDR_autoinc : Field := ⟨0x10002c, 16, 1, .rw, 0, .live⟩
def CLU_VM_ADDR_cell : Field := ⟨0x10002c, 0, 12, .rw, 0, .live⟩
def CLU_VM_ADDR : RegDef := ⟨0x10002c, 0, 1, .who, [CLU_VM_ADDR_rejected, CLU_VM_ADDR_autoinc, CLU_VM_ADDR_cell]⟩

/-! CLU_VM_DATA (R81). -/
def CLU_VM_DATA_par_err : Field := ⟨0x100030, 12, 1, .ro, 0, .none⟩
def CLU_VM_DATA_data : Field := ⟨0x100030, 0, 12, .rw, 0, .live⟩
def CLU_VM_DATA : RegDef := ⟨0x100030, 0, 1, .cluster, [CLU_VM_DATA_par_err, CLU_VM_DATA_data]⟩

/-! CLU_VM_WMASK (R81). -/
def CLU_VM_WMASK_mask : Field := ⟨0x100034, 0, 12, .rw, 0xfff, .live⟩
def CLU_VM_WMASK : RegDef := ⟨0x100034, 0, 1, .who, [CLU_VM_WMASK_mask]⟩

/-! CLU_PM_ADDR (R81). -/
def CLU_PM_ADDR_autoinc : Field := ⟨0x100038, 24, 1, .rw, 0, .live⟩
def CLU_PM_ADDR_cell : Field := ⟨0x100038, 16, 7, .rw, 0, .live⟩
def CLU_PM_ADDR_word : Field := ⟨0x100038, 0, 10, .rw, 0, .live⟩
def CLU_PM_ADDR : RegDef := ⟨0x100038, 0, 1, .who, [CLU_PM_ADDR_autoinc, CLU_PM_ADDR_cell, CLU_PM_ADDR_word]⟩

/-! CLU_PM_DATA (R81). -/
def CLU_PM_DATA_par_err : Field := ⟨0x10003c, 12, 1, .ro, 0, .none⟩
def CLU_PM_DATA_data : Field := ⟨0x10003c, 0, 12, .rw, 0, .live⟩
def CLU_PM_DATA : RegDef := ⟨0x10003c, 0, 1, .cluster, [CLU_PM_DATA_par_err, CLU_PM_DATA_data]⟩

/-! CLU_CNT_BANK (R81). -/
def CLU_CNT_BANK_turns : Field := ⟨0x100040, 0, 32, .rc, 0, .none⟩
def CLU_CNT_BANK : RegDef := ⟨0x100040, 0, 1, .cluster, [CLU_CNT_BANK_turns]⟩

/-! CLU_CNT_WAIT (R81). -/
def CLU_CNT_WAIT_steps : Field := ⟨0x100044, 0, 32, .rc, 0, .none⟩
def CLU_CNT_WAIT : RegDef := ⟨0x100044, 0, 1, .cluster, [CLU_CNT_WAIT_steps]⟩

/-! CLU_CNT_REFETCH (R81). -/
def CLU_CNT_REFETCH_count : Field := ⟨0x100048, 0, 16, .rc, 0, .none⟩
def CLU_CNT_REFETCH : RegDef := ⟨0x100048, 0, 1, .cluster, [CLU_CNT_REFETCH_count]⟩

/-! CLU_BANK_PEAK (R81). -/
def CLU_BANK_PEAK_bank : Field := ⟨0x10004c, 26, 3, .ro, 0, .none⟩
def CLU_BANK_PEAK_step : Field := ⟨0x10004c, 16, 10, .ro, 0, .none⟩
def CLU_BANK_PEAK_turns : Field := ⟨0x10004c, 0, 6, .rc, 0, .none⟩
def CLU_BANK_PEAK : RegDef := ⟨0x10004c, 0, 1, .cluster, [CLU_BANK_PEAK_bank, CLU_BANK_PEAK_step, CLU_BANK_PEAK_turns]⟩

def tableClu : List RegDef := [CLU_SEL, CLU_ID, CLU_ROLE, CLU_CTRL, CLU_PROG, CLU_STATUS, CLU_CAUSE, CLU_CAUSE_EN,
  CLU_TRAP, CLU_RESUME, CLU_FETCH_ERR, CLU_VM_ADDR, CLU_VM_DATA, CLU_VM_WMASK, CLU_PM_ADDR, CLU_PM_DATA, CLU_CNT_BANK,
  CLU_CNT_WAIT, CLU_CNT_REFETCH, CLU_BANK_PEAK]

/-! ### RCH -/

/-! RCH_SEL (R152). -/
def RCH_SEL_reach : Field := ⟨0x200000, 0, 5, .rw, 0, .live⟩
def RCH_SEL : RegDef := ⟨0x200000, 0, 1, .who, [RCH_SEL_reach]⟩

/-! RCH_OWNER (R152). -/
def RCH_OWNER_bound : Field := ⟨0x200004, 31, 1, .rw, 0, .fixed⟩
def RCH_OWNER_rel_reach : Field := ⟨0x200004, 8, 5, .rw, 0, .fixed⟩
def RCH_OWNER_tenant : Field := ⟨0x200004, 0, 4, .rw, 0, .fixed⟩
def RCH_OWNER : RegDef := ⟨0x200004, 0, 1, .reach, [RCH_OWNER_bound, RCH_OWNER_rel_reach, RCH_OWNER_tenant]⟩

/-! RCH_CTRL (R152). -/
def RCH_CTRL_steps_m1 : Field := ⟨0x200008, 16, 10, .rw, 0x3ff, .fixed⟩
def RCH_CTRL_margin : Field := ⟨0x200008, 1, 1, .rw, 0, .fixed⟩
def RCH_CTRL_enable : Field := ⟨0x200008, 0, 1, .rw, 0, .live⟩
def RCH_CTRL : RegDef := ⟨0x200008, 0, 1, .reach, [RCH_CTRL_steps_m1, RCH_CTRL_margin, RCH_CTRL_enable]⟩

/-! RCH_STATUS (R152). -/
def RCH_STATUS_parity : Field := ⟨0x20000c, 12, 1, .ro, 0, .none⟩
def RCH_STATUS_step : Field := ⟨0x20000c, 0, 10, .ro, 0, .none⟩
def RCH_STATUS : RegDef := ⟨0x20000c, 0, 1, .reach, [RCH_STATUS_parity, RCH_STATUS_step]⟩

/-! RCH_XBT_ADDR (R152). -/
def RCH_XBT_ADDR_rejected : Field := ⟨0x200010, 31, 1, .w1c, 0, .live⟩
def RCH_XBT_ADDR_autoinc : Field := ⟨0x200010, 24, 1, .rw, 0, .live⟩
def RCH_XBT_ADDR_cell : Field := ⟨0x200010, 16, 3, .rw, 0, .live⟩
def RCH_XBT_ADDR_step : Field := ⟨0x200010, 0, 10, .rw, 0, .live⟩
def RCH_XBT_ADDR : RegDef := ⟨0x200010, 0, 1, .who, [RCH_XBT_ADDR_rejected, RCH_XBT_ADDR_autoinc, RCH_XBT_ADDR_cell, RCH_XBT_ADDR_step]⟩

/-! RCH_XBT_DATA (R152). -/
def RCH_XBT_DATA_par_err : Field := ⟨0x200014, 12, 1, .ro, 0, .none⟩
def RCH_XBT_DATA_data : Field := ⟨0x200014, 0, 12, .rw, 0, .live⟩
def RCH_XBT_DATA : RegDef := ⟨0x200014, 0, 1, .reach, [RCH_XBT_DATA_par_err, RCH_XBT_DATA_data]⟩

/-! RCH_NSM_ADDR (R152). -/
def RCH_NSM_ADDR_rejected : Field := ⟨0x200018, 31, 1, .w1c, 0, .live⟩
def RCH_NSM_ADDR_autoinc : Field := ⟨0x200018, 24, 1, .rw, 0, .live⟩
def RCH_NSM_ADDR_cell : Field := ⟨0x200018, 16, 2, .rw, 0, .live⟩
def RCH_NSM_ADDR_slot : Field := ⟨0x200018, 0, 12, .rw, 0, .live⟩
def RCH_NSM_ADDR : RegDef := ⟨0x200018, 0, 1, .who, [RCH_NSM_ADDR_rejected, RCH_NSM_ADDR_autoinc, RCH_NSM_ADDR_cell, RCH_NSM_ADDR_slot]⟩

/-! RCH_NSM_DATA (R152). -/
def RCH_NSM_DATA_par_err : Field := ⟨0x20001c, 12, 1, .ro, 0, .none⟩
def RCH_NSM_DATA_data : Field := ⟨0x20001c, 0, 12, .rw, 0, .live⟩
def RCH_NSM_DATA : RegDef := ⟨0x20001c, 0, 1, .reach, [RCH_NSM_DATA_par_err, RCH_NSM_DATA_data]⟩

/-! RCH_CAUSE (R152). -/
def RCH_CAUSE_table_parity : Field := ⟨0x200020, 5, 1, .w1c, 0, .live⟩
def RCH_CAUSE_xbt_illegal : Field := ⟨0x200020, 4, 1, .w1c, 0, .live⟩
def RCH_CAUSE_undefined_slot : Field := ⟨0x200020, 3, 1, .w1c, 0, .live⟩
def RCH_CAUSE_late_send : Field := ⟨0x200020, 2, 1, .w1c, 0, .live⟩
def RCH_CAUSE_arrival_collision : Field := ⟨0x200020, 1, 1, .w1c, 0, .live⟩
def RCH_CAUSE_send_overflow : Field := ⟨0x200020, 0, 1, .w1c, 0, .live⟩
def RCH_CAUSE : RegDef := ⟨0x200020, 0, 1, .reach, [RCH_CAUSE_table_parity, RCH_CAUSE_xbt_illegal, RCH_CAUSE_undefined_slot, RCH_CAUSE_late_send, RCH_CAUSE_arrival_collision, RCH_CAUSE_send_overflow]⟩

/-! RCH_CAUSE_EN (R152). -/
def RCH_CAUSE_EN_en : Field := ⟨0x200024, 0, 6, .rw, 0x3f, .live⟩
def RCH_CAUSE_EN : RegDef := ⟨0x200024, 0, 1, .reach, [RCH_CAUSE_EN_en]⟩

/-! RCH_FAULT_INFO (R152). -/
def RCH_FAULT_INFO_valid : Field := ⟨0x200028, 31, 1, .ro, 0, .none⟩
def RCH_FAULT_INFO_position : Field := ⟨0x200028, 26, 5, .ro, 0, .none⟩
def RCH_FAULT_INFO_slot : Field := ⟨0x200028, 22, 4, .ro, 0, .none⟩
def RCH_FAULT_INFO_net_slot : Field := ⟨0x200028, 10, 12, .ro, 0, .none⟩
def RCH_FAULT_INFO_step : Field := ⟨0x200028, 0, 10, .ro, 0, .none⟩
def RCH_FAULT_INFO : RegDef := ⟨0x200028, 0, 1, .reach, [RCH_FAULT_INFO_valid, RCH_FAULT_INFO_position, RCH_FAULT_INFO_slot, RCH_FAULT_INFO_net_slot, RCH_FAULT_INFO_step]⟩

/-! RCH_CNT_SEND (R152). -/
def RCH_CNT_SEND_sends : Field := ⟨0x20002c, 0, 32, .rc, 0, .none⟩
def RCH_CNT_SEND : RegDef := ⟨0x20002c, 0, 1, .reach, [RCH_CNT_SEND_sends]⟩

/-! RCH_BMAP_ADDR (R218). -/
def RCH_BMAP_ADDR_rejected : Field := ⟨0x200050, 31, 1, .w1c, 0, .live⟩
def RCH_BMAP_ADDR_autoinc : Field := ⟨0x200050, 24, 1, .rw, 0, .live⟩
def RCH_BMAP_ADDR_cell : Field := ⟨0x200050, 16, 2, .rw, 0, .live⟩
def RCH_BMAP_ADDR_berth : Field := ⟨0x200050, 0, 12, .rw, 0, .live⟩
def RCH_BMAP_ADDR : RegDef := ⟨0x200050, 0, 1, .who, [RCH_BMAP_ADDR_rejected, RCH_BMAP_ADDR_autoinc, RCH_BMAP_ADDR_cell, RCH_BMAP_ADDR_berth]⟩

/-! RCH_BMAP_DATA (R218). -/
def RCH_BMAP_DATA_par_err : Field := ⟨0x200054, 12, 1, .ro, 0, .none⟩
def RCH_BMAP_DATA_data : Field := ⟨0x200054, 0, 12, .rw, 0, .live⟩
def RCH_BMAP_DATA : RegDef := ⟨0x200054, 0, 1, .reach, [RCH_BMAP_DATA_par_err, RCH_BMAP_DATA_data]⟩

/-! RCH_BCAUSE (R218). -/
def RCH_BCAUSE_berth_parity : Field := ⟨0x200058, 5, 1, .w1c, 0, .live⟩
def RCH_BCAUSE_stray_clear : Field := ⟨0x200058, 4, 1, .w1c, 0, .live⟩
def RCH_BCAUSE_overrun : Field := ⟨0x200058, 3, 1, .w1c, 0, .live⟩
def RCH_BCAUSE_tag_mismatch : Field := ⟨0x200058, 2, 1, .w1c, 0, .live⟩
def RCH_BCAUSE_unmapped_arrival : Field := ⟨0x200058, 1, 1, .w1c, 0, .live⟩
def RCH_BCAUSE_watchdog : Field := ⟨0x200058, 0, 1, .w1c, 0, .live⟩
def RCH_BCAUSE : RegDef := ⟨0x200058, 0, 1, .reach, [RCH_BCAUSE_berth_parity, RCH_BCAUSE_stray_clear, RCH_BCAUSE_overrun, RCH_BCAUSE_tag_mismatch, RCH_BCAUSE_unmapped_arrival, RCH_BCAUSE_watchdog]⟩

/-! RCH_BCAUSE_EN (R218). -/
def RCH_BCAUSE_EN_en : Field := ⟨0x20005c, 0, 6, .rw, 0x3f, .live⟩
def RCH_BCAUSE_EN : RegDef := ⟨0x20005c, 0, 1, .reach, [RCH_BCAUSE_EN_en]⟩

/-! RCH_BWD_CTRL (R218). -/
def RCH_BWD_CTRL_en : Field := ⟨0x200060, 31, 1, .rw, 1, .live⟩
def RCH_BWD_CTRL_limit : Field := ⟨0x200060, 0, 16, .rw, 0x1388, .live⟩
def RCH_BWD_CTRL : RegDef := ⟨0x200060, 0, 1, .reach, [RCH_BWD_CTRL_en, RCH_BWD_CTRL_limit]⟩

/-! RCH_BWD_REC (R218). -/
def RCH_BWD_REC_valid : Field := ⟨0x200064, 31, 1, .ro, 0, .none⟩
def RCH_BWD_REC_kind : Field := ⟨0x200064, 30, 1, .ro, 0, .none⟩
def RCH_BWD_REC_parity : Field := ⟨0x200064, 29, 1, .ro, 0, .none⟩
def RCH_BWD_REC_position : Field := ⟨0x200064, 12, 5, .ro, 0, .none⟩
def RCH_BWD_REC_index : Field := ⟨0x200064, 0, 12, .ro, 0, .none⟩
def RCH_BWD_REC : RegDef := ⟨0x200064, 0, 1, .reach, [RCH_BWD_REC_valid, RCH_BWD_REC_kind, RCH_BWD_REC_parity, RCH_BWD_REC_position, RCH_BWD_REC_index]⟩

/-! RCH_BWD_STEP (R218). -/
def RCH_BWD_STEP_dcycle : Field := ⟨0x200068, 10, 20, .ro, 0, .none⟩
def RCH_BWD_STEP_step : Field := ⟨0x200068, 0, 10, .ro, 0, .none⟩
def RCH_BWD_STEP : RegDef := ⟨0x200068, 0, 1, .reach, [RCH_BWD_STEP_dcycle, RCH_BWD_STEP_step]⟩

/-! RCH_BPEEK (R218). -/
def RCH_BPEEK_valid : Field := ⟨0x20006c, 31, 1, .ro, 0, .none⟩
def RCH_BPEEK_table : Field := ⟨0x20006c, 13, 1, .rw, 0, .live⟩
def RCH_BPEEK_parity : Field := ⟨0x20006c, 12, 1, .rw, 0, .live⟩
def RCH_BPEEK_index : Field := ⟨0x20006c, 0, 12, .rw, 0, .live⟩
def RCH_BPEEK : RegDef := ⟨0x20006c, 0, 1, .who, [RCH_BPEEK_valid, RCH_BPEEK_table, RCH_BPEEK_parity, RCH_BPEEK_index]⟩

/-! RCH_BPEEK_DATA (R218). -/
def RCH_BPEEK_DATA_tag : Field := ⟨0x200070, 12, 12, .ro, 0, .none⟩
def RCH_BPEEK_DATA_value : Field := ⟨0x200070, 0, 12, .ro, 0, .none⟩
def RCH_BPEEK_DATA : RegDef := ⟨0x200070, 0, 1, .reach, [RCH_BPEEK_DATA_tag, RCH_BPEEK_DATA_value]⟩

/-! RCH_CNT_CLRWAIT (R218). -/
def RCH_CNT_CLRWAIT_stale : Field := ⟨0x200074, 16, 16, .rc, 0, .none⟩
def RCH_CNT_CLRWAIT_steps : Field := ⟨0x200074, 0, 16, .rc, 0, .none⟩
def RCH_CNT_CLRWAIT : RegDef := ⟨0x200074, 0, 1, .reach, [RCH_CNT_CLRWAIT_stale, RCH_CNT_CLRWAIT_steps]⟩

def tableRch : List RegDef := [RCH_SEL, RCH_OWNER, RCH_CTRL, RCH_STATUS, RCH_XBT_ADDR, RCH_XBT_DATA, RCH_NSM_ADDR,
  RCH_NSM_DATA, RCH_CAUSE, RCH_CAUSE_EN, RCH_FAULT_INFO, RCH_CNT_SEND, RCH_BMAP_ADDR, RCH_BMAP_DATA, RCH_BCAUSE,
  RCH_BCAUSE_EN, RCH_BWD_CTRL, RCH_BWD_REC, RCH_BWD_STEP, RCH_BPEEK, RCH_BPEEK_DATA, RCH_CNT_CLRWAIT]

/-! ### DMEM -/

/-! DMEM_CTRL (R187). -/
def DMEM_CTRL_window : Field := ⟨0x300000, 8, 8, .rw, 0xa, .live⟩
def DMEM_CTRL_short_log : Field := ⟨0x300000, 1, 1, .rw, 1, .live⟩
def DMEM_CTRL_prefetch_en : Field := ⟨0x300000, 0, 1, .rw, 1, .live⟩
def DMEM_CTRL : RegDef := ⟨0x300000, 0, 1, .dev, [DMEM_CTRL_window, DMEM_CTRL_short_log, DMEM_CTRL_prefetch_en]⟩

/-! DMEM_STACKk (R187). -/
def DMEM_STACKk_limit : Field := ⟨0x300004, 16, 16, .ro, 0x1996, .none⟩
def DMEM_STACKk_reserved_sum : Field := ⟨0x300004, 0, 16, .ro, 0, .none⟩
def DMEM_STACKk : RegDef := ⟨0x300004, 4, 2, .stride, [DMEM_STACKk_limit, DMEM_STACKk_reserved_sum]⟩

/-! DMEM_HBM_STATk (R187). -/
def DMEM_HBM_STATk_temp : Field := ⟨0x30000c, 16, 8, .ro, 0, .none⟩
def DMEM_HBM_STATk_throttle : Field := ⟨0x30000c, 14, 2, .ro, 0, .none⟩
def DMEM_HBM_STATk_spares : Field := ⟨0x30000c, 0, 11, .ro, 0x400, .none⟩
def DMEM_HBM_STATk : RegDef := ⟨0x30000c, 4, 2, .stride, [DMEM_HBM_STATk_temp, DMEM_HBM_STATk_throttle, DMEM_HBM_STATk_spares]⟩

/-! DMEM_RESVt (R187). -/
def DMEM_RESVt_stack1 : Field := ⟨0x300020, 16, 14, .rw, 0, .fixed⟩
def DMEM_RESVt_stack0 : Field := ⟨0x300020, 0, 14, .rw, 0, .fixed⟩
def DMEM_RESVt : RegDef := ⟨0x300020, 4, 16, .stride, [DMEM_RESVt_stack1, DMEM_RESVt_stack0]⟩

/-! DMEM_CAUSE (R187). -/
def DMEM_CAUSE_thermal_alarm : Field := ⟨0x300060, 4, 1, .w1c, 0, .live⟩
def DMEM_CAUSE_retire_done : Field := ⟨0x300060, 3, 1, .w1c, 0, .live⟩
def DMEM_CAUSE_retire_fail : Field := ⟨0x300060, 2, 1, .w1c, 0, .live⟩
def DMEM_CAUSE_hbm_uc1 : Field := ⟨0x300060, 1, 1, .w1c, 0, .live⟩
def DMEM_CAUSE_hbm_uc0 : Field := ⟨0x300060, 0, 1, .w1c, 0, .live⟩
def DMEM_CAUSE : RegDef := ⟨0x300060, 0, 1, .dev, [DMEM_CAUSE_thermal_alarm, DMEM_CAUSE_retire_done, DMEM_CAUSE_retire_fail, DMEM_CAUSE_hbm_uc1, DMEM_CAUSE_hbm_uc0]⟩

/-! DMEM_CAUSE_EN (R187). -/
def DMEM_CAUSE_EN_en : Field := ⟨0x300064, 0, 5, .rw, 0x1f, .live⟩
def DMEM_CAUSE_EN : RegDef := ⟨0x300064, 0, 1, .dev, [DMEM_CAUSE_EN_en]⟩

/-! DMEM_RETIRE (R187). -/
def DMEM_RETIRE_go : Field := ⟨0x300068, 31, 1, .wo, 0, .live⟩
def DMEM_RETIRE_busy : Field := ⟨0x300068, 30, 1, .ro, 0, .none⟩
def DMEM_RETIRE_stack : Field := ⟨0x300068, 22, 1, .rw, 0, .live⟩
def DMEM_RETIRE_page : Field := ⟨0x300068, 0, 22, .rw, 0, .live⟩
def DMEM_RETIRE : RegDef := ⟨0x300068, 0, 1, .dev, [DMEM_RETIRE_go, DMEM_RETIRE_busy, DMEM_RETIRE_stack, DMEM_RETIRE_page]⟩

/-! DMEM_SHORTt (R187). -/
def DMEM_SHORTt_windows : Field := ⟨0x300080, 0, 32, .rc, 0, .none⟩
def DMEM_SHORTt : RegDef := ⟨0x300080, 4, 16, .stride, [DMEM_SHORTt_windows]⟩

/-! DMEM_R_CAUSE (R188). -/
def DMEM_R_CAUSE_xlate_fault : Field := ⟨0x200040, 1, 1, .w1c, 0, .live⟩
def DMEM_R_CAUSE_data_parity : Field := ⟨0x200040, 0, 1, .w1c, 0, .live⟩
def DMEM_R_CAUSE : RegDef := ⟨0x200040, 0, 1, .reach, [DMEM_R_CAUSE_xlate_fault, DMEM_R_CAUSE_data_parity]⟩

/-! DMEM_R_MISS (R188). -/
def DMEM_R_MISS_misses : Field := ⟨0x200044, 0, 32, .rc, 0, .none⟩
def DMEM_R_MISS : RegDef := ⟨0x200044, 0, 1, .reach, [DMEM_R_MISS_misses]⟩

/-! DMEM_R_RETRY (R188). -/
def DMEM_R_RETRY_retries : Field := ⟨0x200048, 0, 32, .rc, 0, .none⟩
def DMEM_R_RETRY : RegDef := ⟨0x200048, 0, 1, .reach, [DMEM_R_RETRY_retries]⟩

/-! DMEM_R_FLUSH (R188). -/
def DMEM_R_FLUSH_busy : Field := ⟨0x20004c, 1, 1, .ro, 0, .none⟩
def DMEM_R_FLUSH_flush : Field := ⟨0x20004c, 0, 1, .wo, 0, .live⟩
def DMEM_R_FLUSH : RegDef := ⟨0x20004c, 0, 1, .reach, [DMEM_R_FLUSH_busy, DMEM_R_FLUSH_flush]⟩

def tableDmem : List RegDef := [DMEM_CTRL, DMEM_STACKk, DMEM_HBM_STATk, DMEM_RESVt, DMEM_CAUSE, DMEM_CAUSE_EN,
  DMEM_RETIRE, DMEM_SHORTt, DMEM_R_CAUSE, DMEM_R_MISS, DMEM_R_RETRY, DMEM_R_FLUSH]

/-! ### AQ -/

/-! AQ_SEL (R266). -/
def AQ_SEL_lane : Field := ⟨0x400000, 8, 3, .rw, 0, .live⟩
def AQ_SEL_link : Field := ⟨0x400000, 0, 4, .rw, 0, .live⟩
def AQ_SEL : RegDef := ⟨0x400000, 0, 1, .who, [AQ_SEL_lane, AQ_SEL_link]⟩

/-! AQ_DEVID (R266). -/
def AQ_DEVID_devid : Field := ⟨0x400004, 0, 12, .rw, 0, .fixed⟩
def AQ_DEVID : RegDef := ⟨0x400004, 0, 1, .dev, [AQ_DEVID_devid]⟩

/-! AQ_CTRL (R266). -/
def AQ_CTRL_reach : Field := ⟨0x400008, 5, 1, .rw, 0, .fixed⟩
def AQ_CTRL_bridge_ok : Field := ⟨0x400008, 4, 1, .rw, 0, .fixed⟩
def AQ_CTRL_test : Field := ⟨0x400008, 3, 1, .rw, 0, .fixed⟩
def AQ_CTRL_retire : Field := ⟨0x400008, 2, 1, .w1s, 0, .live⟩
def AQ_CTRL_retrain : Field := ⟨0x400008, 1, 1, .wo, 0, .live⟩
def AQ_CTRL_enable : Field := ⟨0x400008, 0, 1, .rw, 0, .live⟩
def AQ_CTRL : RegDef := ⟨0x400008, 0, 1, .link, [AQ_CTRL_reach, AQ_CTRL_bridge_ok, AQ_CTRL_test, AQ_CTRL_retire, AQ_CTRL_retrain, AQ_CTRL_enable]⟩

/-! AQ_STATUS (R266). -/
def AQ_STATUS_state : Field := ⟨0x40000c, 28, 4, .ro, 0, .none⟩
def AQ_STATUS_peer : Field := ⟨0x40000c, 16, 12, .ro, 0, .none⟩
def AQ_STATUS_peer_link : Field := ⟨0x40000c, 12, 4, .ro, 0, .none⟩
def AQ_STATUS_peer_bridge : Field := ⟨0x40000c, 11, 1, .ro, 0, .none⟩
def AQ_STATUS_spare_used : Field := ⟨0x40000c, 10, 1, .ro, 0, .none⟩
def AQ_STATUS_round : Field := ⟨0x40000c, 6, 4, .ro, 0, .none⟩
def AQ_STATUS_train_fail : Field := ⟨0x40000c, 0, 6, .ro, 0, .none⟩
def AQ_STATUS : RegDef := ⟨0x40000c, 0, 1, .link, [AQ_STATUS_state, AQ_STATUS_peer, AQ_STATUS_peer_link, AQ_STATUS_peer_bridge, AQ_STATUS_spare_used, AQ_STATUS_round, AQ_STATUS_train_fail]⟩

/-! AQ_LANEMAP (R266). -/
def AQ_LANEMAP_rx_map : Field := ⟨0x400010, 16, 12, .rw, 0x688, .fixed⟩
def AQ_LANEMAP_tx_map : Field := ⟨0x400010, 0, 12, .rw, 0x688, .fixed⟩
def AQ_LANEMAP : RegDef := ⟨0x400010, 0, 1, .link, [AQ_LANEMAP_rx_map, AQ_LANEMAP_tx_map]⟩

/-! AQ_THR (R266). -/
def AQ_THR_escape_wait : Field := ⟨0x400014, 24, 8, .rw, 0x14, .live⟩
def AQ_THR_replay_limit : Field := ⟨0x400014, 16, 8, .rw, 0x10, .live⟩
def AQ_THR_lane_ser : Field := ⟨0x400014, 0, 16, .rw, 0x1000, .live⟩
def AQ_THR : RegDef := ⟨0x400014, 0, 1, .link, [AQ_THR_escape_wait, AQ_THR_replay_limit, AQ_THR_lane_ser]⟩

/-! AQ_CAUSE (R266). -/
def AQ_CAUSE_unknown_kind : Field := ⟨0x400018, 10, 1, .w1c, 0, .live⟩
def AQ_CAUSE_peer_changed : Field := ⟨0x400018, 9, 1, .w1c, 0, .live⟩
def AQ_CAUSE_peer_refused : Field := ⟨0x400018, 8, 1, .w1c, 0, .live⟩
def AQ_CAUSE_alive_repeat : Field := ⟨0x400018, 7, 1, .w1c, 0, .live⟩
def AQ_CAUSE_unknown_spn : Field := ⟨0x400018, 6, 1, .w1c, 0, .live⟩
def AQ_CAUSE_unreachable : Field := ⟨0x400018, 5, 1, .w1c, 0, .live⟩
def AQ_CAUSE_vc0_overflow : Field := ⟨0x400018, 4, 1, .w1c, 0, .live⟩
def AQ_CAUSE_retired : Field := ⟨0x400018, 3, 1, .w1c, 0, .live⟩
def AQ_CAUSE_retrain : Field := ⟨0x400018, 2, 1, .w1c, 0, .live⟩
def AQ_CAUSE_lane_fail : Field := ⟨0x400018, 1, 1, .w1c, 0, .live⟩
def AQ_CAUSE_lane_spared : Field := ⟨0x400018, 0, 1, .w1c, 0, .live⟩
def AQ_CAUSE : RegDef := ⟨0x400018, 0, 1, .link, [AQ_CAUSE_unknown_kind, AQ_CAUSE_peer_changed, AQ_CAUSE_peer_refused, AQ_CAUSE_alive_repeat, AQ_CAUSE_unknown_spn, AQ_CAUSE_unreachable, AQ_CAUSE_vc0_overflow, AQ_CAUSE_retired, AQ_CAUSE_retrain, AQ_CAUSE_lane_fail, AQ_CAUSE_lane_spared]⟩

/-! AQ_CAUSE_EN (R266). -/
def AQ_CAUSE_EN_en : Field := ⟨0x40001c, 0, 11, .rw, 0x7ff, .live⟩
def AQ_CAUSE_EN : RegDef := ⟨0x40001c, 0, 1, .link, [AQ_CAUSE_EN_en]⟩

/-! AQ_CNT_FEC (R266). -/
def AQ_CNT_FEC_corrected : Field := ⟨0x400020, 0, 32, .rc, 0, .none⟩
def AQ_CNT_FEC : RegDef := ⟨0x400020, 0, 1, .link, [AQ_CNT_FEC_corrected]⟩

/-! AQ_CNT_REPLAY (R266). -/
def AQ_CNT_REPLAY_replays : Field := ⟨0x400024, 16, 16, .rc, 0, .none⟩
def AQ_CNT_REPLAY_uncorrectable : Field := ⟨0x400024, 0, 16, .rc, 0, .none⟩
def AQ_CNT_REPLAY : RegDef := ⟨0x400024, 0, 1, .link, [AQ_CNT_REPLAY_replays, AQ_CNT_REPLAY_uncorrectable]⟩

/-! AQ_LANE_SYM (R266). -/
def AQ_LANE_SYM_symbols : Field := ⟨0x400028, 0, 32, .rc, 0, .none⟩
def AQ_LANE_SYM : RegDef := ⟨0x400028, 0, 1, .lane, [AQ_LANE_SYM_symbols]⟩

/-! AQ_PRBS (R266). -/
def AQ_PRBS_locked : Field := ⟨0x40002c, 5, 1, .ro, 0, .none⟩
def AQ_PRBS_chk_en : Field := ⟨0x40002c, 4, 1, .rw, 0, .live⟩
def AQ_PRBS_gen_en : Field := ⟨0x40002c, 3, 1, .rw, 0, .live⟩
def AQ_PRBS_pattern : Field := ⟨0x40002c, 0, 2, .rw, 2, .live⟩
def AQ_PRBS : RegDef := ⟨0x40002c, 0, 1, .lane, [AQ_PRBS_locked, AQ_PRBS_chk_en, AQ_PRBS_gen_en, AQ_PRBS_pattern]⟩

/-! AQ_PRBS_ERR (R266). -/
def AQ_PRBS_ERR_errors : Field := ⟨0x400030, 0, 32, .rc, 0, .none⟩
def AQ_PRBS_ERR : RegDef := ⟨0x400030, 0, 1, .lane, [AQ_PRBS_ERR_errors]⟩

/-! AQ_USERPAT (R266). -/
def AQ_USERPAT_pattern : Field := ⟨0x400034, 0, 32, .rw, 0xff00ff, .live⟩
def AQ_USERPAT : RegDef := ⟨0x400034, 0, 1, .link, [AQ_USERPAT_pattern]⟩

/-! AQ_MARGIN (R266). -/
def AQ_MARGIN_go : Field := ⟨0x400038, 31, 1, .wo, 0, .live⟩
def AQ_MARGIN_busy : Field := ⟨0x400038, 30, 1, .ro, 0, .none⟩
def AQ_MARGIN_dwell : Field := ⟨0x400038, 26, 4, .rw, 0, .live⟩
def AQ_MARGIN_eye : Field := ⟨0x400038, 24, 2, .rw, 1, .live⟩
def AQ_MARGIN_y : Field := ⟨0x400038, 10, 7, .rw, 0, .live⟩
def AQ_MARGIN_x : Field := ⟨0x400038, 0, 6, .rw, 0, .live⟩
def AQ_MARGIN : RegDef := ⟨0x400038, 0, 1, .lane, [AQ_MARGIN_go, AQ_MARGIN_busy, AQ_MARGIN_dwell, AQ_MARGIN_eye, AQ_MARGIN_y, AQ_MARGIN_x]⟩

/-! AQ_MARGIN_RES (R266). -/
def AQ_MARGIN_RES_errors : Field := ⟨0x40003c, 0, 32, .ro, 0, .none⟩
def AQ_MARGIN_RES : RegDef := ⟨0x40003c, 0, 1, .lane, [AQ_MARGIN_RES_errors]⟩

/-! AQ_ROUTE_ADDR (R266). -/
def AQ_ROUTE_ADDR_autoinc : Field := ⟨0x400040, 16, 1, .rw, 0, .live⟩
def AQ_ROUTE_ADDR_cell : Field := ⟨0x400040, 12, 1, .rw, 0, .live⟩
def AQ_ROUTE_ADDR_dest : Field := ⟨0x400040, 0, 12, .rw, 0, .live⟩
def AQ_ROUTE_ADDR : RegDef := ⟨0x400040, 0, 1, .who, [AQ_ROUTE_ADDR_autoinc, AQ_ROUTE_ADDR_cell, AQ_ROUTE_ADDR_dest]⟩

/-! AQ_ROUTE_DATA (R266). -/
def AQ_ROUTE_DATA_par_err : Field := ⟨0x400044, 12, 1, .ro, 0, .none⟩
def AQ_ROUTE_DATA_data : Field := ⟨0x400044, 0, 12, .rw, 0, .live⟩
def AQ_ROUTE_DATA : RegDef := ⟨0x400044, 0, 1, .dev, [AQ_ROUTE_DATA_par_err, AQ_ROUTE_DATA_data]⟩

/-! AQ_SPNt (R266). -/
def AQ_SPNt_spn : Field := ⟨0x400080, 0, 12, .rw, 0, .fixed⟩
def AQ_SPNt : RegDef := ⟨0x400080, 4, 16, .stride, [AQ_SPNt_spn]⟩

def tableAq : List RegDef := [AQ_SEL, AQ_DEVID, AQ_CTRL, AQ_STATUS, AQ_LANEMAP, AQ_THR, AQ_CAUSE, AQ_CAUSE_EN,
  AQ_CNT_FEC, AQ_CNT_REPLAY, AQ_LANE_SYM, AQ_PRBS, AQ_PRBS_ERR, AQ_USERPAT, AQ_MARGIN, AQ_MARGIN_RES, AQ_ROUTE_ADDR,
  AQ_ROUTE_DATA, AQ_SPNt]

/-! ### LCK -/

/-! LCK_TREE_ADDR (R317). -/
def LCK_TREE_ADDR_autoinc : Field := ⟨0x500000, 24, 1, .rw, 0, .live⟩
def LCK_TREE_ADDR_tenant : Field := ⟨0x500000, 16, 4, .rw, 0, .live⟩
def LCK_TREE_ADDR_index : Field := ⟨0x500000, 0, 5, .rw, 0, .live⟩
def LCK_TREE_ADDR : RegDef := ⟨0x500000, 0, 1, .who, [LCK_TREE_ADDR_autoinc, LCK_TREE_ADDR_tenant, LCK_TREE_ADDR_index]⟩

/-! LCK_TREE_DATA (R317). -/
def LCK_TREE_DATA_root : Field := ⟨0x500004, 13, 1, .rw, 0, .fixed⟩
def LCK_TREE_DATA_valid : Field := ⟨0x500004, 12, 1, .rw, 0, .fixed⟩
def LCK_TREE_DATA_device : Field := ⟨0x500004, 0, 12, .rw, 0, .fixed⟩
def LCK_TREE_DATA : RegDef := ⟨0x500004, 0, 1, .tree, [LCK_TREE_DATA_root, LCK_TREE_DATA_valid, LCK_TREE_DATA_device]⟩

/-! LCK_CTRLt (R317). -/
def LCK_CTRLt_export_every : Field := ⟨0x500100, 24, 8, .rw, 0x40, .atLock⟩
def LCK_CTRLt_log_to_host : Field := ⟨0x500100, 17, 1, .rw, 1, .atLock⟩
def LCK_CTRLt_early_release : Field := ⟨0x500100, 16, 1, .rw, 0, .fixed⟩
def LCK_CTRLt_pound_log2 : Field := ⟨0x500100, 0, 5, .rw, 0xc, .fixed⟩
def LCK_CTRLt : RegDef := ⟨0x500100, 64, 16, .stride, [LCK_CTRLt_export_every, LCK_CTRLt_log_to_host, LCK_CTRLt_early_release, LCK_CTRLt_pound_log2]⟩

/-! LCK_STATUSt (R317). -/
def LCK_STATUSt_phase : Field := ⟨0x500104, 28, 4, .ro, 0, .none⟩
def LCK_STATUSt_reexec : Field := ⟨0x500104, 27, 1, .ro, 0, .none⟩
def LCK_STATUSt_released : Field := ⟨0x500104, 26, 1, .ro, 0, .none⟩
def LCK_STATUSt_epoch : Field := ⟨0x500104, 24, 2, .ro, 0, .none⟩
def LCK_STATUSt_dcycle : Field := ⟨0x500104, 0, 20, .ro, 0, .none⟩
def LCK_STATUSt : RegDef := ⟨0x500104, 64, 16, .stride, [LCK_STATUSt_phase, LCK_STATUSt_reexec, LCK_STATUSt_released, LCK_STATUSt_epoch, LCK_STATUSt_dcycle]⟩

/-! LCK_POUNDt (R317). -/
def LCK_POUNDt_pound : Field := ⟨0x500108, 0, 24, .ro, 0, .none⟩
def LCK_POUNDt : RegDef := ⟨0x500108, 64, 16, .stride, [LCK_POUNDt_pound]⟩

/-! LCK_CKPTt (R317). -/
def LCK_CKPTt_newest : Field := ⟨0x50010c, 0, 24, .ro, 0xffffff, .none⟩
def LCK_CKPTt : RegDef := ⟨0x50010c, 64, 16, .stride, [LCK_CKPTt_newest]⟩

/-! LCK_CKPT_OLDt (R317). -/
def LCK_CKPT_OLDt_valid : Field := ⟨0x500110, 31, 1, .ro, 0, .none⟩
def LCK_CKPT_OLDt_older : Field := ⟨0x500110, 0, 24, .ro, 0, .none⟩
def LCK_CKPT_OLDt : RegDef := ⟨0x500110, 64, 16, .stride, [LCK_CKPT_OLDt_valid, LCK_CKPT_OLDt_older]⟩

/-! LCK_HORIZONt (R317). -/
def LCK_HORIZONt_valid : Field := ⟨0x500114, 31, 1, .ro, 0, .none⟩
def LCK_HORIZONt_h : Field := ⟨0x500114, 0, 20, .ro, 0, .none⟩
def LCK_HORIZONt : RegDef := ⟨0x500114, 64, 16, .stride, [LCK_HORIZONt_valid, LCK_HORIZONt_h]⟩

/-! LCK_EXPORTt (R317). -/
def LCK_EXPORTt_busy : Field := ⟨0x500118, 31, 1, .ro, 0, .none⟩
def LCK_EXPORTt_lock : Field := ⟨0x500118, 0, 24, .ro, 0xffffff, .none⟩
def LCK_EXPORTt : RegDef := ⟨0x500118, 64, 16, .stride, [LCK_EXPORTt_busy, LCK_EXPORTt_lock]⟩

/-! LCK_CAUSEt (R317). -/
def LCK_CAUSEt_replay_stop : Field := ⟨0x50011c, 8, 1, .w1c, 0, .live⟩
def LCK_CAUSEt_export_skipped : Field := ⟨0x50011c, 7, 1, .w1c, 0, .live⟩
def LCK_CAUSEt_export_done : Field := ⟨0x50011c, 6, 1, .w1c, 0, .live⟩
def LCK_CAUSEt_flight_timeout : Field := ⟨0x50011c, 5, 1, .w1c, 0, .live⟩
def LCK_CAUSEt_capture_fail : Field := ⟨0x50011c, 4, 1, .w1c, 0, .live⟩
def LCK_CAUSEt_suspended : Field := ⟨0x50011c, 3, 1, .w1c, 0, .live⟩
def LCK_CAUSEt_fallback : Field := ⟨0x50011c, 2, 1, .w1c, 0, .live⟩
def LCK_CAUSEt_rollback_done : Field := ⟨0x50011c, 1, 1, .w1c, 0, .live⟩
def LCK_CAUSEt_committed : Field := ⟨0x50011c, 0, 1, .w1c, 0, .live⟩
def LCK_CAUSEt : RegDef := ⟨0x50011c, 64, 16, .stride, [LCK_CAUSEt_replay_stop, LCK_CAUSEt_export_skipped, LCK_CAUSEt_export_done, LCK_CAUSEt_flight_timeout, LCK_CAUSEt_capture_fail, LCK_CAUSEt_suspended, LCK_CAUSEt_fallback, LCK_CAUSEt_rollback_done, LCK_CAUSEt_committed]⟩

/-! LCK_CAUSE_ENt (R317). -/
def LCK_CAUSE_ENt_en : Field := ⟨0x500120, 0, 9, .rw, 0x1fe, .live⟩
def LCK_CAUSE_ENt : RegDef := ⟨0x500120, 64, 16, .stride, [LCK_CAUSE_ENt_en]⟩

/-! LCK_CMDt (R317). -/
def LCK_CMDt_go : Field := ⟨0x500124, 31, 1, .wo, 0, .live⟩
def LCK_CMDt_op : Field := ⟨0x500124, 0, 4, .wo, 0, .live⟩
def LCK_CMDt : RegDef := ⟨0x500124, 64, 16, .stride, [LCK_CMDt_go, LCK_CMDt_op]⟩

/-! LCK_RPL_FROMt (R317). -/
def LCK_RPL_FROMt_lock : Field := ⟨0x500128, 0, 24, .rw, 0, .live⟩
def LCK_RPL_FROMt : RegDef := ⟨0x500128, 64, 16, .stride, [LCK_RPL_FROMt_lock]⟩

/-! LCK_RPL_POUNDt (R317). -/
def LCK_RPL_POUNDt_pound : Field := ⟨0x50012c, 0, 24, .rw, 0, .live⟩
def LCK_RPL_POUNDt : RegDef := ⟨0x50012c, 64, 16, .stride, [LCK_RPL_POUNDt_pound]⟩

/-! LCK_RPL_DCt (R317). -/
def LCK_RPL_DCt_none : Field := ⟨0x500130, 31, 1, .rw, 1, .live⟩
def LCK_RPL_DCt_every : Field := ⟨0x500130, 30, 1, .rw, 0, .live⟩
def LCK_RPL_DCt_dcycle : Field := ⟨0x500130, 0, 20, .rw, 0, .live⟩
def LCK_RPL_DCt : RegDef := ⟨0x500130, 64, 16, .stride, [LCK_RPL_DCt_none, LCK_RPL_DCt_every, LCK_RPL_DCt_dcycle]⟩

/-! LCK_FLIGHTt (R317). -/
def LCK_FLIGHTt_capture : Field := ⟨0x500134, 16, 16, .ro, 0, .none⟩
def LCK_FLIGHTt_flight : Field := ⟨0x500134, 0, 16, .ro, 0, .none⟩
def LCK_FLIGHTt : RegDef := ⟨0x500134, 64, 16, .stride, [LCK_FLIGHTt_capture, LCK_FLIGHTt_flight]⟩

/-! LCK_CNT_ROLLBACKt (R317). -/
def LCK_CNT_ROLLBACKt_fallbacks : Field := ⟨0x500138, 16, 16, .rc, 0, .none⟩
def LCK_CNT_ROLLBACKt_rollbacks : Field := ⟨0x500138, 0, 16, .rc, 0, .none⟩
def LCK_CNT_ROLLBACKt : RegDef := ⟨0x500138, 64, 16, .stride, [LCK_CNT_ROLLBACKt_fallbacks, LCK_CNT_ROLLBACKt_rollbacks]⟩

/-! LCK_FLIGHT_LIMt (R317). -/
def LCK_FLIGHT_LIMt_limit : Field := ⟨0x50013c, 0, 16, .rw, 0x3e8, .live⟩
def LCK_FLIGHT_LIMt : RegDef := ⟨0x50013c, 64, 16, .stride, [LCK_FLIGHT_LIMt_limit]⟩

def tableLck : List RegDef := [LCK_TREE_ADDR, LCK_TREE_DATA, LCK_CTRLt, LCK_STATUSt, LCK_POUNDt, LCK_CKPTt,
  LCK_CKPT_OLDt, LCK_HORIZONt, LCK_EXPORTt, LCK_CAUSEt, LCK_CAUSE_ENt, LCK_CMDt, LCK_RPL_FROMt, LCK_RPL_POUNDt,
  LCK_RPL_DCt, LCK_FLIGHTt, LCK_CNT_ROLLBACKt, LCK_FLIGHT_LIMt]

/-! ### TST -/

/-! TST_FLIP_SEL (R346). -/
def TST_FLIP_SEL_class : Field := ⟨0x600000, 16, 4, .rw, 0, .live⟩
def TST_FLIP_SEL_instance : Field := ⟨0x600000, 0, 9, .rw, 0, .live⟩
def TST_FLIP_SEL : RegDef := ⟨0x600000, 0, 1, .dev, [TST_FLIP_SEL_class, TST_FLIP_SEL_instance]⟩

/-! TST_FLIP (R346). -/
def TST_FLIP_arm : Field := ⟨0x600004, 31, 1, .rw, 0, .live⟩
def TST_FLIP_fired : Field := ⟨0x600004, 30, 1, .w1c, 0, .live⟩
def TST_FLIP_mask : Field := ⟨0x600004, 0, 13, .rw, 0, .live⟩
def TST_FLIP : RegDef := ⟨0x600004, 0, 1, .dev, [TST_FLIP_arm, TST_FLIP_fired, TST_FLIP_mask]⟩

/-! TST_BKT_SEL (R346). -/
def TST_BKT_SEL_class : Field := ⟨0x600008, 16, 4, .rw, 0, .live⟩
def TST_BKT_SEL_instance : Field := ⟨0x600008, 0, 9, .rw, 0, .live⟩
def TST_BKT_SEL : RegDef := ⟨0x600008, 0, 1, .who, [TST_BKT_SEL_class, TST_BKT_SEL_instance]⟩

/-! TST_BKT (R346). -/
def TST_BKT_threshold : Field := ⟨0x60000c, 16, 8, .rw, 0xff, .live⟩
def TST_BKT_full : Field := ⟨0x60000c, 8, 1, .ro, 0, .none⟩
def TST_BKT_count : Field := ⟨0x60000c, 0, 8, .rw, 0, .live⟩
def TST_BKT : RegDef := ⟨0x60000c, 0, 1, .dev, [TST_BKT_threshold, TST_BKT_full, TST_BKT_count]⟩

/-! TST_BKT_CTRL (R346). -/
def TST_BKT_CTRL_leak : Field := ⟨0x600010, 0, 8, .rw, 0xa, .live⟩
def TST_BKT_CTRL : RegDef := ⟨0x600010, 0, 1, .dev, [TST_BKT_CTRL_leak]⟩

/-! TST_ELOG_STAT (R346). -/
def TST_ELOG_STAT_entries : Field := ⟨0x600014, 16, 7, .ro, 0, .none⟩
def TST_ELOG_STAT_lost : Field := ⟨0x600014, 0, 16, .rc, 0, .none⟩
def TST_ELOG_STAT : RegDef := ⟨0x600014, 0, 1, .dev, [TST_ELOG_STAT_entries, TST_ELOG_STAT_lost]⟩

/-! TST_ELOG_A (R346). -/
def TST_ELOG_A_valid : Field := ⟨0x600018, 31, 1, .rc, 0, .none⟩
def TST_ELOG_A_uc : Field := ⟨0x600018, 30, 1, .rc, 0, .none⟩
def TST_ELOG_A_source : Field := ⟨0x600018, 28, 2, .rc, 0, .none⟩
def TST_ELOG_A_class : Field := ⟨0x600018, 24, 4, .rc, 0, .none⟩
def TST_ELOG_A_instance : Field := ⟨0x600018, 15, 9, .rc, 0, .none⟩
def TST_ELOG_A : RegDef := ⟨0x600018, 0, 1, .dev, [TST_ELOG_A_valid, TST_ELOG_A_uc, TST_ELOG_A_source, TST_ELOG_A_class, TST_ELOG_A_instance]⟩

/-! TST_ELOG_B (R346). -/
def TST_ELOG_B_address : Field := ⟨0x60001c, 0, 32, .ro, 0, .none⟩
def TST_ELOG_B : RegDef := ⟨0x60001c, 0, 1, .dev, [TST_ELOG_B_address]⟩

/-! TST_DREDGE_CTRL (R346). -/
def TST_DREDGE_CTRL_en : Field := ⟨0x600020, 31, 1, .rw, 1, .live⟩
def TST_DREDGE_CTRL_period : Field := ⟨0x600020, 0, 16, .rw, 0x64, .live⟩
def TST_DREDGE_CTRL : RegDef := ⟨0x600020, 0, 1, .dev, [TST_DREDGE_CTRL_en, TST_DREDGE_CTRL_period]⟩

/-! TST_DREDGE_STAT (R346). -/
def TST_DREDGE_STAT_late : Field := ⟨0x600024, 31, 1, .w1c, 0, .live⟩
def TST_DREDGE_STAT_passes : Field := ⟨0x600024, 16, 12, .rc, 0, .none⟩
def TST_DREDGE_STAT_errors : Field := ⟨0x600024, 0, 16, .rc, 0, .none⟩
def TST_DREDGE_STAT : RegDef := ⟨0x600024, 0, 1, .dev, [TST_DREDGE_STAT_late, TST_DREDGE_STAT_passes, TST_DREDGE_STAT_errors]⟩

def tableTst : List RegDef := [TST_FLIP_SEL, TST_FLIP, TST_BKT_SEL, TST_BKT, TST_BKT_CTRL, TST_ELOG_STAT, TST_ELOG_A,
  TST_ELOG_B, TST_DREDGE_CTRL, TST_DREDGE_STAT]

/-! ### KPR -/

/-! KPR_SEL (R392). -/
def KPR_SEL_keeper : Field := ⟨0x700000, 0, 2, .rw, 0, .live⟩
def KPR_SEL : RegDef := ⟨0x700000, 0, 1, .who, [KPR_SEL_keeper]⟩

/-! KPR_CTRL (R392). -/
def KPR_CTRL_rom_fetch : Field := ⟨0x700004, 3, 1, .rw, 1, .live⟩
def KPR_CTRL_pred_flush_on_gate : Field := ⟨0x700004, 2, 1, .rw, 0, .live⟩
def KPR_CTRL_pred_off : Field := ⟨0x700004, 1, 1, .rw, 0, .live⟩
def KPR_CTRL_run : Field := ⟨0x700004, 0, 1, .rw, 0, .live⟩
def KPR_CTRL : RegDef := ⟨0x700004, 0, 1, .keeper, [KPR_CTRL_rom_fetch, KPR_CTRL_pred_flush_on_gate, KPR_CTRL_pred_off, KPR_CTRL_run]⟩

/-! KPR_STATUS (R392). -/
def KPR_STATUS_rst_cause : Field := ⟨0x700008, 30, 2, .ro, 0, .none⟩
def KPR_STATUS_state : Field := ⟨0x700008, 27, 3, .ro, 0, .none⟩
def KPR_STATUS_dfl : Field := ⟨0x700008, 26, 1, .ro, 0, .none⟩
def KPR_STATUS_ring : Field := ⟨0x700008, 24, 2, .ro, 0, .none⟩
def KPR_STATUS_set : Field := ⟨0x700008, 21, 3, .ro, 0, .none⟩
def KPR_STATUS_ie : Field := ⟨0x700008, 20, 1, .ro, 0, .none⟩
def KPR_STATUS_pc : Field := ⟨0x700008, 0, 15, .ro, 0, .none⟩
def KPR_STATUS : RegDef := ⟨0x700008, 0, 1, .keeper, [KPR_STATUS_rst_cause, KPR_STATUS_state, KPR_STATUS_dfl, KPR_STATUS_ring, KPR_STATUS_set, KPR_STATUS_ie, KPR_STATUS_pc]⟩

/-! KPR_FAULT (R392). -/
def KPR_FAULT_valid : Field := ⟨0x70000c, 31, 1, .w1c, 0, .live⟩
def KPR_FAULT_double : Field := ⟨0x70000c, 30, 1, .ro, 0, .none⟩
def KPR_FAULT_code2 : Field := ⟨0x70000c, 27, 3, .ro, 0, .none⟩
def KPR_FAULT_detail2 : Field := ⟨0x70000c, 21, 6, .ro, 0, .none⟩
def KPR_FAULT_ring : Field := ⟨0x70000c, 12, 2, .ro, 0, .none⟩
def KPR_FAULT_detail : Field := ⟨0x70000c, 6, 6, .ro, 0, .none⟩
def KPR_FAULT_code : Field := ⟨0x70000c, 0, 3, .ro, 0, .none⟩
def KPR_FAULT : RegDef := ⟨0x70000c, 0, 1, .keeper, [KPR_FAULT_valid, KPR_FAULT_double, KPR_FAULT_code2, KPR_FAULT_detail2, KPR_FAULT_ring, KPR_FAULT_detail, KPR_FAULT_code]⟩

/-! KPR_FAULT_PC (R392). -/
def KPR_FAULT_PC_micro : Field := ⟨0x700010, 24, 1, .ro, 0, .none⟩
def KPR_FAULT_PC_uaddr : Field := ⟨0x700010, 16, 8, .ro, 0, .none⟩
def KPR_FAULT_PC_pc : Field := ⟨0x700010, 0, 15, .ro, 0, .none⟩
def KPR_FAULT_PC : RegDef := ⟨0x700010, 0, 1, .keeper, [KPR_FAULT_PC_micro, KPR_FAULT_PC_uaddr, KPR_FAULT_PC_pc]⟩

/-! KPR_SYS (R392). -/
def KPR_SYS_third : Field := ⟨0x700014, 4, 4, .ro, 0, .none⟩
def KPR_SYS_system : Field := ⟨0x700014, 0, 2, .ro, 0, .none⟩
def KPR_SYS : RegDef := ⟨0x700014, 0, 1, .dev, [KPR_SYS_third, KPR_SYS_system]⟩

/-! KPR_HOOK (R392). -/
def KPR_HOOK_pending : Field := ⟨0x700018, 31, 1, .ro, 0, .none⟩
def KPR_HOOK_restore : Field := ⟨0x700018, 30, 1, .ro, 0, .none⟩
def KPR_HOOK_tenant : Field := ⟨0x700018, 26, 4, .ro, 0, .none⟩
def KPR_HOOK_tenants : Field := ⟨0x700018, 0, 16, .rw, 0, .live⟩
def KPR_HOOK : RegDef := ⟨0x700018, 0, 1, .keeper, [KPR_HOOK_pending, KPR_HOOK_restore, KPR_HOOK_tenant, KPR_HOOK_tenants]⟩

/-! KPR_HOOK_DONE (R392). -/
def KPR_HOOK_DONE_go : Field := ⟨0x70001c, 31, 1, .wo, 0, .live⟩
def KPR_HOOK_DONE_list : Field := ⟨0x70001c, 0, 16, .wo, 0, .live⟩
def KPR_HOOK_DONE : RegDef := ⟨0x70001c, 0, 1, .keeper, [KPR_HOOK_DONE_go, KPR_HOOK_DONE_list]⟩

/-! KPR_TMRk (R392). -/
def KPR_TMRk_run : Field := ⟨0x700020, 31, 1, .rw, 0, .live⟩
def KPR_TMRk_count : Field := ⟨0x700020, 0, 24, .rw, 0, .live⟩
def KPR_TMRk : RegDef := ⟨0x700020, 4, 2, .ktimer, [KPR_TMRk_run, KPR_TMRk_count]⟩

/-! KPR_SEM (R392). -/
def KPR_SEM_busy : Field := ⟨0x700028, 0, 32, .ro, 0, .none⟩
def KPR_SEM : RegDef := ⟨0x700028, 0, 1, .dev, [KPR_SEM_busy]⟩

/-! KPR_SEM_RST (R392). -/
def KPR_SEM_RST_released : Field := ⟨0x70002c, 0, 32, .ro, 0, .none⟩
def KPR_SEM_RST : RegDef := ⟨0x70002c, 0, 1, .dev, [KPR_SEM_RST_released]⟩

/-! KPR_PGOLD (R392). -/
def KPR_PGOLD_valid : Field := ⟨0x700030, 31, 1, .rw, 0, .live⟩
def KPR_PGOLD_base : Field := ⟨0x700030, 0, 19, .rw, 0, .live⟩
def KPR_PGOLD : RegDef := ⟨0x700030, 0, 1, .keeper, [KPR_PGOLD_valid, KPR_PGOLD_base]⟩

/-! KPR_TBL_ADDR (R392). -/
def KPR_TBL_ADDR_rejected : Field := ⟨0x700034, 31, 1, .w1c, 0, .live⟩
def KPR_TBL_ADDR_autoinc : Field := ⟨0x700034, 24, 1, .rw, 0, .live⟩
def KPR_TBL_ADDR_table : Field := ⟨0x700034, 16, 4, .rw, 0, .live⟩
def KPR_TBL_ADDR_index : Field := ⟨0x700034, 8, 8, .rw, 0, .live⟩
def KPR_TBL_ADDR_cell : Field := ⟨0x700034, 0, 3, .rw, 0, .live⟩
def KPR_TBL_ADDR : RegDef := ⟨0x700034, 0, 1, .who, [KPR_TBL_ADDR_rejected, KPR_TBL_ADDR_autoinc, KPR_TBL_ADDR_table, KPR_TBL_ADDR_index, KPR_TBL_ADDR_cell]⟩

/-! KPR_TBL_DATA (R392). -/
def KPR_TBL_DATA_par_err : Field := ⟨0x700038, 12, 1, .ro, 0, .none⟩
def KPR_TBL_DATA_data : Field := ⟨0x700038, 0, 12, .rw, 0, .live⟩
def KPR_TBL_DATA : RegDef := ⟨0x700038, 0, 1, .keeper, [KPR_TBL_DATA_par_err, KPR_TBL_DATA_data]⟩

/-! KPR_CNT_MISP (R392). -/
def KPR_CNT_MISP_misp : Field := ⟨0x70003c, 0, 32, .rc, 0, .none⟩
def KPR_CNT_MISP : RegDef := ⟨0x70003c, 0, 1, .keeper, [KPR_CNT_MISP_misp]⟩

def tableKpr : List RegDef := [KPR_SEL, KPR_CTRL, KPR_STATUS, KPR_FAULT, KPR_FAULT_PC, KPR_SYS, KPR_HOOK,
  KPR_HOOK_DONE, KPR_TMRk, KPR_SEM, KPR_SEM_RST, KPR_PGOLD, KPR_TBL_ADDR, KPR_TBL_DATA, KPR_CNT_MISP]

/-! ### IRQ -/

/-! IRQ_SRC_SEL (R417). -/
def IRQ_SRC_SEL_keeper : Field := ⟨0x800000, 12, 2, .rw, 0, .live⟩
def IRQ_SRC_SEL_scanned : Field := ⟨0x800000, 9, 1, .rw, 0, .live⟩
def IRQ_SRC_SEL_source : Field := ⟨0x800000, 0, 9, .rw, 0, .live⟩
def IRQ_SRC_SEL : RegDef := ⟨0x800000, 0, 1, .who, [IRQ_SRC_SEL_keeper, IRQ_SRC_SEL_scanned, IRQ_SRC_SEL_source]⟩

/-! IRQ_SRC_CFG (R417). -/
def IRQ_SRC_CFG_pending : Field := ⟨0x800004, 31, 1, .ro, 0, .none⟩
def IRQ_SRC_CFG_active : Field := ⟨0x800004, 30, 1, .ro, 0, .none⟩
def IRQ_SRC_CFG_count : Field := ⟨0x800004, 26, 4, .ro, 0, .none⟩
def IRQ_SRC_CFG_live : Field := ⟨0x800004, 25, 1, .ro, 0, .none⟩
def IRQ_SRC_CFG_fixed : Field := ⟨0x800004, 24, 1, .ro, 0, .none⟩
def IRQ_SRC_CFG_claimer : Field := ⟨0x800004, 16, 3, .ro, 0, .none⟩
def IRQ_SRC_CFG_en : Field := ⟨0x800004, 11, 1, .rw, 0, .live⟩
def IRQ_SRC_CFG_target : Field := ⟨0x800004, 8, 3, .rw, 4, .live⟩
def IRQ_SRC_CFG_priority : Field := ⟨0x800004, 0, 4, .rw, 8, .live⟩
def IRQ_SRC_CFG : RegDef := ⟨0x800004, 0, 1, .dev, [IRQ_SRC_CFG_pending, IRQ_SRC_CFG_active, IRQ_SRC_CFG_count, IRQ_SRC_CFG_live, IRQ_SRC_CFG_fixed, IRQ_SRC_CFG_claimer, IRQ_SRC_CFG_en, IRQ_SRC_CFG_target, IRQ_SRC_CFG_priority]⟩

/-! IRQ_SCAUSE (R417). -/
def IRQ_SCAUSE_cause : Field := ⟨0x800008, 0, 8, .w1c, 0, .live⟩
def IRQ_SCAUSE : RegDef := ⟨0x800008, 0, 1, .dev, [IRQ_SCAUSE_cause]⟩

/-! IRQ_CLAIMk (R417). -/
def IRQ_CLAIMk_valid : Field := ⟨0x800010, 31, 1, .rc, 0, .none⟩
def IRQ_CLAIMk_ties : Field := ⟨0x800010, 12, 4, .rc, 0, .none⟩
def IRQ_CLAIMk_count : Field := ⟨0x800010, 8, 4, .rc, 0, .none⟩
def IRQ_CLAIMk_source : Field := ⟨0x800010, 0, 8, .rc, 0, .none⟩
def IRQ_CLAIMk : RegDef := ⟨0x800010, 4, 4, .stride, [IRQ_CLAIMk_valid, IRQ_CLAIMk_ties, IRQ_CLAIMk_count, IRQ_CLAIMk_source]⟩

/-! IRQ_CLAIMH (R417). -/
def IRQ_CLAIMH_valid : Field := ⟨0x800020, 31, 1, .rc, 0, .none⟩
def IRQ_CLAIMH_ties : Field := ⟨0x800020, 12, 4, .rc, 0, .none⟩
def IRQ_CLAIMH_count : Field := ⟨0x800020, 8, 4, .rc, 0, .none⟩
def IRQ_CLAIMH_source : Field := ⟨0x800020, 0, 8, .rc, 0, .none⟩
def IRQ_CLAIMH : RegDef := ⟨0x800020, 0, 1, .dev, [IRQ_CLAIMH_valid, IRQ_CLAIMH_ties, IRQ_CLAIMH_count, IRQ_CLAIMH_source]⟩

/-! IRQ_COMPLETEk (R417). -/
def IRQ_COMPLETEk_source : Field := ⟨0x800030, 0, 8, .wo, 0, .live⟩
def IRQ_COMPLETEk : RegDef := ⟨0x800030, 4, 4, .stride, [IRQ_COMPLETEk_source]⟩

/-! IRQ_COMPLETEH (R417). -/
def IRQ_COMPLETEH_source : Field := ⟨0x800040, 0, 8, .wo, 0, .live⟩
def IRQ_COMPLETEH : RegDef := ⟨0x800040, 0, 1, .dev, [IRQ_COMPLETEH_source]⟩

/-! IRQ_PENDw (R417). -/
def IRQ_PENDw_pending : Field := ⟨0x800080, 0, 32, .ro, 0, .none⟩
def IRQ_PENDw : RegDef := ⟨0x800080, 4, 8, .stride, [IRQ_PENDw_pending]⟩

/-! IRQ_SPENDw (R417). -/
def IRQ_SPENDw_pending : Field := ⟨0x8000a0, 0, 32, .ro, 0, .none⟩
def IRQ_SPENDw : RegDef := ⟨0x8000a0, 4, 14, .stride, [IRQ_SPENDw_pending]⟩

/-! IRQ_SSUMk (R417). -/
def IRQ_SSUMk_groups : Field := ⟨0x8000e0, 0, 14, .ro, 0, .none⟩
def IRQ_SSUMk : RegDef := ⟨0x8000e0, 4, 4, .stride, [IRQ_SSUMk_groups]⟩

/-! IRQ_KDOOR (R417). -/
def IRQ_KDOOR_go : Field := ⟨0x8000f0, 31, 1, .wo, 0, .live⟩
def IRQ_KDOOR_keeper : Field := ⟨0x8000f0, 0, 2, .wo, 0, .live⟩
def IRQ_KDOOR : RegDef := ⟨0x8000f0, 0, 1, .dev, [IRQ_KDOOR_go, IRQ_KDOOR_keeper]⟩

/-! IRQ_SWSET (R417). -/
def IRQ_SWSET_go : Field := ⟨0x8000f4, 31, 1, .wo, 0, .live⟩
def IRQ_SWSET_source : Field := ⟨0x8000f4, 0, 8, .wo, 0, .live⟩
def IRQ_SWSET : RegDef := ⟨0x8000f4, 0, 1, .dev, [IRQ_SWSET_go, IRQ_SWSET_source]⟩

/-! IRQ_PTGT (R417). -/
def IRQ_PTGT_lock : Field := ⟨0x8000f8, 31, 1, .w1s, 0, .live⟩
def IRQ_PTGT_lock_unit : Field := ⟨0x8000f8, 12, 3, .rw, 4, .live⟩
def IRQ_PTGT_thermal : Field := ⟨0x8000f8, 8, 3, .rw, 4, .live⟩
def IRQ_PTGT_tamper : Field := ⟨0x8000f8, 4, 3, .rw, 4, .live⟩
def IRQ_PTGT_fatal : Field := ⟨0x8000f8, 0, 3, .rw, 4, .live⟩
def IRQ_PTGT : RegDef := ⟨0x8000f8, 0, 1, .dev, [IRQ_PTGT_lock, IRQ_PTGT_lock_unit, IRQ_PTGT_thermal, IRQ_PTGT_tamper, IRQ_PTGT_fatal]⟩

/-! IRQ_STAT (R417). -/
def IRQ_STAT_bad_complete : Field := ⟨0x8000fc, 0, 1, .w1c, 0, .live⟩
def IRQ_STAT : RegDef := ⟨0x8000fc, 0, 1, .dev, [IRQ_STAT_bad_complete]⟩

def tableIrq : List RegDef := [IRQ_SRC_SEL, IRQ_SRC_CFG, IRQ_SCAUSE, IRQ_CLAIMk, IRQ_CLAIMH, IRQ_COMPLETEk,
  IRQ_COMPLETEH, IRQ_PENDw, IRQ_SPENDw, IRQ_SSUMk, IRQ_KDOOR, IRQ_SWSET, IRQ_PTGT, IRQ_STAT]

/-! ### Doorbell page -/

/-! WHF_SQ_TAIL (R454). -/
def WHF_SQ_TAIL_index : Field := ⟨0x4000000, 0, 12, .rw, 0, .live⟩
def WHF_SQ_TAIL : RegDef := ⟨0x4000000, 0, 1, .fn, [WHF_SQ_TAIL_index]⟩

/-! WHF_CQ_HEAD (R454). -/
def WHF_CQ_HEAD_index : Field := ⟨0x4000004, 0, 12, .rw, 0, .live⟩
def WHF_CQ_HEAD : RegDef := ⟨0x4000004, 0, 1, .fn, [WHF_CQ_HEAD_index]⟩

/-! WHF_FQ_HEAD (R454). -/
def WHF_FQ_HEAD_index : Field := ⟨0x4000008, 0, 12, .rw, 0, .live⟩
def WHF_FQ_HEAD : RegDef := ⟨0x4000008, 0, 1, .fn, [WHF_FQ_HEAD_index]⟩

/-! WHF_OQ_HEAD (R454). -/
def WHF_OQ_HEAD_index : Field := ⟨0x400000c, 0, 12, .rw, 0, .live⟩
def WHF_OQ_HEAD : RegDef := ⟨0x400000c, 0, 1, .fn, [WHF_OQ_HEAD_index]⟩

/-! WHF_AREA_HEAD (R454). -/
def WHF_AREA_HEAD_log : Field := ⟨0x4000010, 16, 12, .rw, 0, .live⟩
def WHF_AREA_HEAD_export : Field := ⟨0x4000010, 0, 12, .rw, 0, .live⟩
def WHF_AREA_HEAD : RegDef := ⟨0x4000010, 0, 1, .fn, [WHF_AREA_HEAD_log, WHF_AREA_HEAD_export]⟩

/-! WHF_STOP (R454). -/
def WHF_STOP_go : Field := ⟨0x4000020, 31, 1, .wo, 0, .live⟩
def WHF_STOP_scope : Field := ⟨0x4000020, 16, 1, .wo, 0, .live⟩
def WHF_STOP_boundary : Field := ⟨0x4000020, 12, 1, .wo, 0, .live⟩
def WHF_STOP_id : Field := ⟨0x4000020, 0, 12, .wo, 0, .live⟩
def WHF_STOP : RegDef := ⟨0x4000020, 0, 1, .fn, [WHF_STOP_go, WHF_STOP_scope, WHF_STOP_boundary, WHF_STOP_id]⟩

/-! WHF_STOP_STAT (R454). -/
def WHF_STOP_STAT_stopped : Field := ⟨0x4000024, 31, 1, .ro, 0, .none⟩
def WHF_STOP_STAT_id : Field := ⟨0x4000024, 0, 12, .ro, 0, .none⟩
def WHF_STOP_STAT : RegDef := ⟨0x4000024, 0, 1, .fn, [WHF_STOP_STAT_stopped, WHF_STOP_STAT_id]⟩

/-! WHF_QSEL (R454). -/
def WHF_QSEL_kind : Field := ⟨0x4000040, 0, 3, .rw, 0, .live⟩
def WHF_QSEL : RegDef := ⟨0x4000040, 0, 1, .fn, [WHF_QSEL_kind]⟩

/-! WHF_QBASE_LO (R454). -/
def WHF_QBASE_LO_addr : Field := ⟨0x4000044, 0, 32, .rw, 0, .fixed⟩
def WHF_QBASE_LO : RegDef := ⟨0x4000044, 0, 1, .fnq, [WHF_QBASE_LO_addr]⟩

/-! WHF_QBASE_HI (R454). -/
def WHF_QBASE_HI_addr : Field := ⟨0x4000048, 0, 32, .rw, 0, .fixed⟩
def WHF_QBASE_HI : RegDef := ⟨0x4000048, 0, 1, .fnq, [WHF_QBASE_HI_addr]⟩

/-! WHF_QCFG (R454). -/
def WHF_QCFG_dptr : Field := ⟨0x400004c, 16, 12, .ro, 0, .none⟩
def WHF_QCFG_enable : Field := ⟨0x400004c, 15, 1, .rw, 0, .live⟩
def WHF_QCFG_size_log2 : Field := ⟨0x400004c, 0, 4, .rw, 4, .fixed⟩
def WHF_QCFG : RegDef := ⟨0x400004c, 0, 1, .fnq, [WHF_QCFG_dptr, WHF_QCFG_enable, WHF_QCFG_size_log2]⟩

/-! WHF_TSTAT (R454). -/
def WHF_TSTAT_mode : Field := ⟨0x4000050, 28, 4, .ro, 0, .none⟩
def WHF_TSTAT_load_status : Field := ⟨0x4000050, 16, 8, .ro, 0, .none⟩
def WHF_TSTAT_fq_merged : Field := ⟨0x4000050, 9, 1, .w1c, 0, .live⟩
def WHF_TSTAT_qerr : Field := ⟨0x4000050, 8, 1, .w1c, 0, .live⟩
def WHF_TSTAT_log_skipped : Field := ⟨0x4000050, 0, 8, .rc, 0, .none⟩
def WHF_TSTAT : RegDef := ⟨0x4000050, 0, 1, .fn, [WHF_TSTAT_mode, WHF_TSTAT_load_status, WHF_TSTAT_fq_merged, WHF_TSTAT_qerr, WHF_TSTAT_log_skipped]⟩

/-! WHF_TCTRL (R454). -/
def WHF_TCTRL_preset : Field := ⟨0x4000054, 31, 1, .wo, 0, .live⟩
def WHF_TCTRL_notify_lock : Field := ⟨0x4000054, 24, 1, .rw, 0, .live⟩
def WHF_TCTRL_coalesce : Field := ⟨0x4000054, 16, 8, .rw, 0, .live⟩
def WHF_TCTRL_psb_interval : Field := ⟨0x4000054, 0, 16, .rw, 0xa, .live⟩
def WHF_TCTRL : RegDef := ⟨0x4000054, 0, 1, .fn, [WHF_TCTRL_preset, WHF_TCTRL_notify_lock, WHF_TCTRL_coalesce, WHF_TCTRL_psb_interval]⟩

def tableDb : List RegDef := [WHF_SQ_TAIL, WHF_CQ_HEAD, WHF_FQ_HEAD, WHF_OQ_HEAD, WHF_AREA_HEAD, WHF_STOP,
  WHF_STOP_STAT, WHF_QSEL, WHF_QBASE_LO, WHF_QBASE_HI, WHF_QCFG, WHF_TSTAT, WHF_TCTRL]

/-! ### SLC -/

/-! SLC_SEL (R479). -/
def SLC_SEL_engine : Field := ⟨0x900000, 4, 2, .rw, 0, .live⟩
def SLC_SEL_channel : Field := ⟨0x900000, 0, 4, .rw, 0, .live⟩
def SLC_SEL : RegDef := ⟨0x900000, 0, 1, .who, [SLC_SEL_engine, SLC_SEL_channel]⟩

/-! SLC_CHCFG (R479). -/
def SLC_CHCFG_priv : Field := ⟨0x900004, 31, 1, .rw, 0, .fixed⟩
def SLC_CHCFG_post_fault : Field := ⟨0x900004, 30, 1, .rw, 0, .fixed⟩
def SLC_CHCFG_retries : Field := ⟨0x900004, 24, 3, .rw, 3, .fixed⟩
def SLC_CHCFG_keeper : Field := ⟨0x900004, 20, 2, .rw, 0, .fixed⟩
def SLC_CHCFG_tenant : Field := ⟨0x900004, 16, 4, .rw, 0, .fixed⟩
def SLC_CHCFG : RegDef := ⟨0x900004, 0, 1, .channel, [SLC_CHCFG_priv, SLC_CHCFG_post_fault, SLC_CHCFG_retries, SLC_CHCFG_keeper, SLC_CHCFG_tenant]⟩

/-! SLC_CHDESC_LO (R479). -/
def SLC_CHDESC_LO_addr : Field := ⟨0x900008, 0, 32, .rw, 0, .fixed⟩
def SLC_CHDESC_LO : RegDef := ⟨0x900008, 0, 1, .channel, [SLC_CHDESC_LO_addr]⟩

/-! SLC_CHDESC_HI (R479). -/
def SLC_CHDESC_HI_addr : Field := ⟨0x90000c, 0, 32, .rw, 0, .fixed⟩
def SLC_CHDESC_HI : RegDef := ⟨0x90000c, 0, 1, .channel, [SLC_CHDESC_HI_addr]⟩

/-! SLC_CHCMD (R479). -/
def SLC_CHCMD_start : Field := ⟨0x900010, 31, 1, .wo, 0, .live⟩
def SLC_CHCMD_stop : Field := ⟨0x900010, 30, 1, .wo, 0, .live⟩
def SLC_CHCMD_rejected : Field := ⟨0x900010, 29, 1, .w1c, 0, .live⟩
def SLC_CHCMD_in_ledger : Field := ⟨0x900010, 0, 1, .rw, 0, .fixed⟩
def SLC_CHCMD : RegDef := ⟨0x900010, 0, 1, .channel, [SLC_CHCMD_start, SLC_CHCMD_stop, SLC_CHCMD_rejected, SLC_CHCMD_in_ledger]⟩

/-! SLC_CHSTAT (R479). -/
def SLC_CHSTAT_state : Field := ⟨0x900014, 30, 2, .ro, 0, .none⟩
def SLC_CHSTAT_detail : Field := ⟨0x900014, 27, 3, .ro, 0, .none⟩
def SLC_CHSTAT_status : Field := ⟨0x900014, 16, 8, .ro, 0, .none⟩
def SLC_CHSTAT_descs : Field := ⟨0x900014, 0, 16, .ro, 0, .none⟩
def SLC_CHSTAT : RegDef := ⟨0x900014, 0, 1, .channel, [SLC_CHSTAT_state, SLC_CHSTAT_detail, SLC_CHSTAT_status, SLC_CHSTAT_descs]⟩

/-! SLC_CHCUR_LO (R479). -/
def SLC_CHCUR_LO_addr : Field := ⟨0x900018, 0, 32, .ro, 0, .none⟩
def SLC_CHCUR_LO : RegDef := ⟨0x900018, 0, 1, .channel, [SLC_CHCUR_LO_addr]⟩

/-! SLC_CHCUR_HI (R479). -/
def SLC_CHCUR_HI_addr : Field := ⟨0x90001c, 0, 32, .ro, 0, .none⟩
def SLC_CHCUR_HI : RegDef := ⟨0x90001c, 0, 1, .channel, [SLC_CHCUR_HI_addr]⟩

/-! SLC_CHDONE (R479). -/
def SLC_CHDONE_bytes : Field := ⟨0x900020, 0, 32, .ro, 0, .none⟩
def SLC_CHDONE : RegDef := ⟨0x900020, 0, 1, .channel, [SLC_CHDONE_bytes]⟩

/-! SLC_CAUSE (R479). -/
def SLC_CAUSE_full : Field := ⟨0x900040, 16, 16, .w1c, 0, .live⟩
def SLC_CAUSE_half : Field := ⟨0x900040, 0, 16, .w1c, 0, .live⟩
def SLC_CAUSE : RegDef := ⟨0x900040, 0, 1, .engine, [SLC_CAUSE_full, SLC_CAUSE_half]⟩

/-! SLC_HALT (R479). -/
def SLC_HALT_halted : Field := ⟨0x900044, 0, 16, .w1c, 0, .live⟩
def SLC_HALT : RegDef := ⟨0x900044, 0, 1, .engine, [SLC_HALT_halted]⟩

/-! SLC_CAUSE_EN (R479). -/
def SLC_CAUSE_EN_en : Field := ⟨0x900048, 0, 3, .rw, 7, .live⟩
def SLC_CAUSE_EN : RegDef := ⟨0x900048, 0, 1, .engine, [SLC_CAUSE_EN_en]⟩

/-! SLC_ENG (R479). -/
def SLC_ENG_busy : Field := ⟨0x90004c, 31, 1, .ro, 0, .none⟩
def SLC_ENG_running : Field := ⟨0x90004c, 16, 4, .ro, 0, .none⟩
def SLC_ENG_queued : Field := ⟨0x90004c, 0, 16, .ro, 0, .none⟩
def SLC_ENG : RegDef := ⟨0x90004c, 0, 1, .engine, [SLC_ENG_busy, SLC_ENG_running, SLC_ENG_queued]⟩

/-! SLC_CNT_RETRY (R479). -/
def SLC_CNT_RETRY_retries : Field := ⟨0x900050, 0, 32, .rc, 0, .none⟩
def SLC_CNT_RETRY : RegDef := ⟨0x900050, 0, 1, .engine, [SLC_CNT_RETRY_retries]⟩

def tableSlc : List RegDef := [SLC_SEL, SLC_CHCFG, SLC_CHDESC_LO, SLC_CHDESC_HI, SLC_CHCMD, SLC_CHSTAT, SLC_CHCUR_LO,
  SLC_CHCUR_HI, SLC_CHDONE, SLC_CAUSE, SLC_HALT, SLC_CAUSE_EN, SLC_ENG, SLC_CNT_RETRY]

/-! ### CHK -/

/-! CHK_ASSIGNu (R479). -/
def CHK_ASSIGNu_kind : Field := ⟨0xa00000, 6, 2, .rw, 0, .fixed⟩
def CHK_ASSIGNu_id : Field := ⟨0xa00000, 0, 6, .rw, 0, .fixed⟩
def CHK_ASSIGNu : RegDef := ⟨0xa00000, 32, 4, .stride, [CHK_ASSIGNu_kind, CHK_ASSIGNu_id]⟩

/-! CHK_CTRLu (R479). -/
def CHK_CTRLu_init : Field := ⟨0xa00004, 31, 1, .wo, 0, .live⟩
def CHK_CTRLu_fold : Field := ⟨0xa00004, 30, 1, .rw, 0, .live⟩
def CHK_CTRLu_alive : Field := ⟨0xa00004, 16, 12, .rw, 0, .live⟩
def CHK_CTRLu_poly : Field := ⟨0xa00004, 0, 2, .rw, 0, .live⟩
def CHK_CTRLu : RegDef := ⟨0xa00004, 32, 4, .stride, [CHK_CTRLu_init, CHK_CTRLu_fold, CHK_CTRLu_alive, CHK_CTRLu_poly]⟩

/-! CHK_VALu_LO (R479). -/
def CHK_VALu_LO_value : Field := ⟨0xa00008, 0, 32, .ro, 0, .none⟩
def CHK_VALu_LO : RegDef := ⟨0xa00008, 32, 4, .stride, [CHK_VALu_LO_value]⟩

/-! CHK_VALu_HI (R479). -/
def CHK_VALu_HI_value : Field := ⟨0xa0000c, 0, 32, .ro, 0, .none⟩
def CHK_VALu_HI : RegDef := ⟨0xa0000c, 32, 4, .stride, [CHK_VALu_HI_value]⟩

/-! CHK_BYTESu (R479). -/
def CHK_BYTESu_bytes : Field := ⟨0xa00010, 0, 32, .ro, 0, .none⟩
def CHK_BYTESu : RegDef := ⟨0xa00010, 32, 4, .stride, [CHK_BYTESu_bytes]⟩

/-! CHK_SCANu_ADDR (R479). -/
def CHK_SCANu_ADDR_value : Field := ⟨0xa00014, 0, 32, .rw, 0, .live⟩
def CHK_SCANu_ADDR : RegDef := ⟨0xa00014, 32, 4, .stride, [CHK_SCANu_ADDR_value]⟩

/-! CHK_SCANu_LEN (R479). -/
def CHK_SCANu_LEN_value : Field := ⟨0xa00018, 0, 32, .rw, 0, .live⟩
def CHK_SCANu_LEN : RegDef := ⟨0xa00018, 32, 4, .stride, [CHK_SCANu_LEN_value]⟩

/-! CHK_SCANu_CTRL (R479). -/
def CHK_SCANu_CTRL_go : Field := ⟨0xa0001c, 31, 1, .wo, 0, .live⟩
def CHK_SCANu_CTRL_busy : Field := ⟨0xa0001c, 30, 1, .ro, 0, .none⟩
def CHK_SCANu_CTRL_en : Field := ⟨0xa0001c, 8, 2, .rw, 3, .live⟩
def CHK_SCANu_CTRL_error : Field := ⟨0xa0001c, 1, 1, .w1c, 0, .live⟩
def CHK_SCANu_CTRL_done : Field := ⟨0xa0001c, 0, 1, .w1c, 0, .live⟩
def CHK_SCANu_CTRL : RegDef := ⟨0xa0001c, 32, 4, .stride, [CHK_SCANu_CTRL_go, CHK_SCANu_CTRL_busy, CHK_SCANu_CTRL_en, CHK_SCANu_CTRL_error, CHK_SCANu_CTRL_done]⟩

def tableChk : List RegDef := [CHK_ASSIGNu, CHK_CTRLu, CHK_VALu_LO, CHK_VALu_HI, CHK_BYTESu, CHK_SCANu_ADDR,
  CHK_SCANu_LEN, CHK_SCANu_CTRL]

/-! ### LDG -/

/-! LDG_POOLk (R479). -/
def LDG_POOLk_base : Field := ⟨0xb00000, 0, 7, .rw, 0, .fixed⟩
def LDG_POOLk : RegDef := ⟨0xb00000, 4, 2, .stride, [LDG_POOLk_base]⟩

/-! LDG_STAT (R479). -/
def LDG_STAT_free : Field := ⟨0xb00008, 0, 17, .ro, 0xffe0, .none⟩
def LDG_STAT : RegDef := ⟨0xb00008, 0, 1, .dev, [LDG_STAT_free]⟩

/-! LDG_ALLOC_TAG (R479). -/
def LDG_ALLOC_TAG_tag : Field := ⟨0xb00010, 4, 12, .rw, 0, .live⟩
def LDG_ALLOC_TAG : RegDef := ⟨0xb00010, 0, 1, .who, [LDG_ALLOC_TAG_tag]⟩

/-! LDG_ALLOC (R479). -/
def LDG_ALLOC_valid : Field := ⟨0xb00014, 31, 1, .ro, 0, .none⟩
def LDG_ALLOC_quota : Field := ⟨0xb00014, 30, 1, .ro, 0, .none⟩
def LDG_ALLOC_generation : Field := ⟨0xb00014, 16, 4, .ro, 0, .none⟩
def LDG_ALLOC_buffer : Field := ⟨0xb00014, 0, 16, .ro, 0, .none⟩
def LDG_ALLOC : RegDef := ⟨0xb00014, 0, 1, .dev, [LDG_ALLOC_valid, LDG_ALLOC_quota, LDG_ALLOC_generation, LDG_ALLOC_buffer]⟩

/-! LDG_FREE (R479). -/
def LDG_FREE_tag : Field := ⟨0xb00018, 16, 16, .wo, 0, .live⟩
def LDG_FREE_buffer : Field := ⟨0xb00018, 0, 16, .wo, 0, .live⟩
def LDG_FREE : RegDef := ⟨0xb00018, 0, 1, .dev, [LDG_FREE_tag, LDG_FREE_buffer]⟩

/-! LDG_GIVE (R479). -/
def LDG_GIVE_tag : Field := ⟨0xb0001c, 16, 16, .wo, 0, .live⟩
def LDG_GIVE_buffer : Field := ⟨0xb0001c, 0, 16, .wo, 0, .live⟩
def LDG_GIVE : RegDef := ⟨0xb0001c, 0, 1, .dev, [LDG_GIVE_tag, LDG_GIVE_buffer]⟩

/-! LDG_RESULT (R479). -/
def LDG_RESULT_outcome : Field := ⟨0xb00020, 0, 2, .ro, 0, .none⟩
def LDG_RESULT : RegDef := ⟨0xb00020, 0, 1, .who, [LDG_RESULT_outcome]⟩

/-! LDG_QUERY (R479). -/
def LDG_QUERY_tag : Field := ⟨0xb00024, 16, 16, .ro, 0, .none⟩
def LDG_QUERY_buffer : Field := ⟨0xb00024, 0, 16, .rw, 0, .live⟩
def LDG_QUERY : RegDef := ⟨0xb00024, 0, 1, .who, [LDG_QUERY_tag, LDG_QUERY_buffer]⟩

/-! LDG_CAUSE (R479). -/
def LDG_CAUSE_grant : Field := ⟨0xb00028, 20, 12, .ro, 0, .none⟩
def LDG_CAUSE_grant_write : Field := ⟨0xb00028, 1, 1, .w1c, 0, .live⟩
def LDG_CAUSE_offence : Field := ⟨0xb00028, 0, 1, .w1c, 0, .live⟩
def LDG_CAUSE : RegDef := ⟨0xb00028, 0, 1, .dev, [LDG_CAUSE_grant, LDG_CAUSE_grant_write, LDG_CAUSE_offence]⟩

/-! LDG_CAUSE_EN (R479). -/
def LDG_CAUSE_EN_en : Field := ⟨0xb0002c, 0, 2, .rw, 3, .live⟩
def LDG_CAUSE_EN : RegDef := ⟨0xb0002c, 0, 1, .dev, [LDG_CAUSE_EN_en]⟩

/-! LDG_LOG_A (R479). -/
def LDG_LOG_A_valid : Field := ⟨0xb00030, 31, 1, .rc, 0, .none⟩
def LDG_LOG_A_op : Field := ⟨0xb00030, 30, 1, .rc, 0, .none⟩
def LDG_LOG_A_offence : Field := ⟨0xb00030, 28, 2, .rc, 0, .none⟩
def LDG_LOG_A_lost : Field := ⟨0xb00030, 20, 8, .rc, 0, .none⟩
def LDG_LOG_A_buffer : Field := ⟨0xb00030, 0, 16, .rc, 0, .none⟩
def LDG_LOG_A : RegDef := ⟨0xb00030, 0, 1, .dev, [LDG_LOG_A_valid, LDG_LOG_A_op, LDG_LOG_A_offence, LDG_LOG_A_lost, LDG_LOG_A_buffer]⟩

/-! LDG_LOG_B (R479). -/
def LDG_LOG_B_owner : Field := ⟨0xb00034, 16, 16, .ro, 0, .none⟩
def LDG_LOG_B_offender : Field := ⟨0xb00034, 0, 16, .ro, 0, .none⟩
def LDG_LOG_B : RegDef := ⟨0xb00034, 0, 1, .dev, [LDG_LOG_B_owner, LDG_LOG_B_offender]⟩

/-! LDG_GNT_ADDR (R479). -/
def LDG_GNT_ADDR_rejected : Field := ⟨0xb00038, 31, 1, .w1c, 0, .live⟩
def LDG_GNT_ADDR_grant : Field := ⟨0xb00038, 0, 12, .rw, 0, .live⟩
def LDG_GNT_ADDR : RegDef := ⟨0xb00038, 0, 1, .who, [LDG_GNT_ADDR_rejected, LDG_GNT_ADDR_grant]⟩

/-! LDG_GNT_A (R479). -/
def LDG_GNT_A_valid : Field := ⟨0xb0003c, 31, 1, .rw, 0, .live⟩
def LDG_GNT_A_wr : Field := ⟨0xb0003c, 30, 1, .rw, 0, .live⟩
def LDG_GNT_A_rd : Field := ⟨0xb0003c, 29, 1, .rw, 0, .live⟩
def LDG_GNT_A_notify : Field := ⟨0xb0003c, 28, 1, .rw, 0, .live⟩
def LDG_GNT_A_generation : Field := ⟨0xb0003c, 16, 4, .rw, 0, .live⟩
def LDG_GNT_A_buffer : Field := ⟨0xb0003c, 0, 16, .rw, 0, .live⟩
def LDG_GNT_A : RegDef := ⟨0xb0003c, 0, 1, .dev, [LDG_GNT_A_valid, LDG_GNT_A_wr, LDG_GNT_A_rd, LDG_GNT_A_notify, LDG_GNT_A_generation, LDG_GNT_A_buffer]⟩

/-! LDG_GNT_B (R479). -/
def LDG_GNT_B_spn : Field := ⟨0xb00040, 0, 12, .rw, 0, .live⟩
def LDG_GNT_B : RegDef := ⟨0xb00040, 0, 1, .dev, [LDG_GNT_B_spn]⟩

/-! LDG_QUOTAt (R479). -/
def LDG_QUOTAt_used : Field := ⟨0xb00100, 16, 16, .ro, 0, .none⟩
def LDG_QUOTAt_quota : Field := ⟨0xb00100, 0, 16, .rw, 0xffff, .live⟩
def LDG_QUOTAt : RegDef := ⟨0xb00100, 4, 16, .stride, [LDG_QUOTAt_used, LDG_QUOTAt_quota]⟩

def tableLdg : List RegDef := [LDG_POOLk, LDG_STAT, LDG_ALLOC_TAG, LDG_ALLOC, LDG_FREE, LDG_GIVE, LDG_RESULT,
  LDG_QUERY, LDG_CAUSE, LDG_CAUSE_EN, LDG_LOG_A, LDG_LOG_B, LDG_GNT_ADDR, LDG_GNT_A, LDG_GNT_B, LDG_QUOTAt]

/-! ### WEIR -/

/-! WEIR_CTRL (R503). -/
def WEIR_CTRL_fwd_gap : Field := ⟨0xc00000, 8, 8, .rw, 0xa, .live⟩
def WEIR_CTRL_fwd : Field := ⟨0xc00000, 1, 1, .rw, 1, .live⟩
def WEIR_CTRL_ring_en : Field := ⟨0xc00000, 0, 1, .rw, 0, .fixed⟩
def WEIR_CTRL : RegDef := ⟨0xc00000, 0, 1, .dev, [WEIR_CTRL_fwd_gap, WEIR_CTRL_fwd, WEIR_CTRL_ring_en]⟩

/-! WEIR_RING_CFG (R503). -/
def WEIR_RING_CFG_list : Field := ⟨0xc00004, 16, 16, .rw, 0xffff, .fixed⟩
def WEIR_RING_CFG_rd_src : Field := ⟨0xc00004, 4, 1, .rw, 0, .fixed⟩
def WEIR_RING_CFG_size_log2 : Field := ⟨0xc00004, 0, 4, .rw, 0, .fixed⟩
def WEIR_RING_CFG : RegDef := ⟨0xc00004, 0, 1, .dev, [WEIR_RING_CFG_list, WEIR_RING_CFG_rd_src, WEIR_RING_CFG_size_log2]⟩

/-! WEIR_RING_WR (R503). -/
def WEIR_RING_WR_index : Field := ⟨0xc00008, 0, 17, .ro, 0, .live⟩
def WEIR_RING_WR : RegDef := ⟨0xc00008, 0, 1, .dev, [WEIR_RING_WR_index]⟩

/-! WEIR_RING_RD (R503). -/
def WEIR_RING_RD_index : Field := ⟨0xc0000c, 0, 17, .rw, 0, .live⟩
def WEIR_RING_RD : RegDef := ⟨0xc0000c, 0, 1, .dev, [WEIR_RING_RD_index]⟩

/-! WEIR_BKT_SEL (R503). -/
def WEIR_BKT_SEL_owner : Field := ⟨0xc00010, 0, 5, .rw, 0, .live⟩
def WEIR_BKT_SEL : RegDef := ⟨0xc00010, 0, 1, .who, [WEIR_BKT_SEL_owner]⟩

/-! WEIR_BKT (R503). -/
def WEIR_BKT_tokens : Field := ⟨0xc00014, 20, 12, .ro, 0x100, .none⟩
def WEIR_BKT_burst : Field := ⟨0xc00014, 10, 10, .rw, 0x100, .live⟩
def WEIR_BKT_rate : Field := ⟨0xc00014, 0, 10, .rw, 0x64, .live⟩
def WEIR_BKT : RegDef := ⟨0xc00014, 0, 1, .owner, [WEIR_BKT_tokens, WEIR_BKT_burst, WEIR_BKT_rate]⟩

/-! WEIR_ALM_STAT (R503). -/
def WEIR_ALM_STAT_merged : Field := ⟨0xc00018, 7, 1, .w1c, 0, .live⟩
def WEIR_ALM_STAT_held : Field := ⟨0xc00018, 0, 7, .ro, 0, .none⟩
def WEIR_ALM_STAT : RegDef := ⟨0xc00018, 0, 1, .owner, [WEIR_ALM_STAT_merged, WEIR_ALM_STAT_held]⟩

/-! WEIR_TRC_STAT (R503). -/
def WEIR_TRC_STAT_ring_lost : Field := ⟨0xc0001c, 24, 8, .rc, 0, .none⟩
def WEIR_TRC_STAT_gaps : Field := ⟨0xc0001c, 16, 8, .rc, 0, .none⟩
def WEIR_TRC_STAT_dropped : Field := ⟨0xc0001c, 0, 16, .rc, 0, .none⟩
def WEIR_TRC_STAT : RegDef := ⟨0xc0001c, 0, 1, .dev, [WEIR_TRC_STAT_ring_lost, WEIR_TRC_STAT_gaps, WEIR_TRC_STAT_dropped]⟩

/-! WEIR_SW_DATA (R503). -/
def WEIR_SW_DATA_data : Field := ⟨0xc00020, 0, 32, .rw, 0, .live⟩
def WEIR_SW_DATA : RegDef := ⟨0xc00020, 0, 1, .dev, [WEIR_SW_DATA_data]⟩

/-! WEIR_SW (R503). -/
def WEIR_SW_go : Field := ⟨0xc00024, 31, 1, .wo, 0, .live⟩
def WEIR_SW_class : Field := ⟨0xc00024, 29, 2, .wo, 0, .live⟩
def WEIR_SW_owner : Field := ⟨0xc00024, 11, 5, .wo, 0, .live⟩
def WEIR_SW_code : Field := ⟨0xc00024, 0, 11, .wo, 0, .live⟩
def WEIR_SW : RegDef := ⟨0xc00024, 0, 1, .dev, [WEIR_SW_go, WEIR_SW_class, WEIR_SW_owner, WEIR_SW_code]⟩

/-! WEIR_CAUSE (R503). -/
def WEIR_CAUSE_snap_done : Field := ⟨0xc00028, 4, 1, .w1c, 0, .live⟩
def WEIR_CAUSE_trace_gap : Field := ⟨0xc00028, 3, 1, .w1c, 0, .live⟩
def WEIR_CAUSE_alarm_merged : Field := ⟨0xc00028, 2, 1, .w1c, 0, .live⟩
def WEIR_CAUSE_ring_full : Field := ⟨0xc00028, 1, 1, .w1c, 0, .live⟩
def WEIR_CAUSE_ring_half : Field := ⟨0xc00028, 0, 1, .w1c, 0, .live⟩
def WEIR_CAUSE : RegDef := ⟨0xc00028, 0, 1, .dev, [WEIR_CAUSE_snap_done, WEIR_CAUSE_trace_gap, WEIR_CAUSE_alarm_merged, WEIR_CAUSE_ring_full, WEIR_CAUSE_ring_half]⟩

/-! WEIR_CAUSE_EN (R503). -/
def WEIR_CAUSE_EN_en : Field := ⟨0xc0002c, 0, 5, .rw, 0x1f, .live⟩
def WEIR_CAUSE_EN : RegDef := ⟨0xc0002c, 0, 1, .dev, [WEIR_CAUSE_EN_en]⟩

/-! WEIR_SNAP (R503). -/
def WEIR_SNAP_go : Field := ⟨0xc00030, 31, 1, .wo, 0, .live⟩
def WEIR_SNAP_busy : Field := ⟨0xc00030, 30, 1, .ro, 0, .none⟩
def WEIR_SNAP_status : Field := ⟨0xc00030, 28, 2, .ro, 0, .none⟩
def WEIR_SNAP_tenant : Field := ⟨0xc00030, 16, 4, .rw, 0, .live⟩
def WEIR_SNAP_list : Field := ⟨0xc00030, 0, 16, .ro, 0xffff, .none⟩
def WEIR_SNAP : RegDef := ⟨0xc00030, 0, 1, .dev, [WEIR_SNAP_go, WEIR_SNAP_busy, WEIR_SNAP_status, WEIR_SNAP_tenant, WEIR_SNAP_list]⟩

/-! WEIR_DROPb (R503). -/
def WEIR_DROPb_drops : Field := ⟨0xc00040, 0, 32, .rc, 0, .none⟩
def WEIR_DROPb : RegDef := ⟨0xc00040, 4, 16, .ownerBlk, [WEIR_DROPb_drops]⟩

def tableWeir : List RegDef := [WEIR_CTRL, WEIR_RING_CFG, WEIR_RING_WR, WEIR_RING_RD, WEIR_BKT_SEL, WEIR_BKT,
  WEIR_ALM_STAT, WEIR_TRC_STAT, WEIR_SW_DATA, WEIR_SW, WEIR_CAUSE, WEIR_CAUSE_EN, WEIR_SNAP, WEIR_DROPb]

/-! ### GAU -/

/-! GAU_IDX (R504). -/
def GAU_IDX_index : Field := ⟨0x200080, 0, 4, .rw, 0, .live⟩
def GAU_IDX : RegDef := ⟨0x200080, 0, 1, .who, [GAU_IDX_index]⟩

/-! GAU_CFG (R504). -/
def GAU_CFG_threshold : Field := ⟨0x200084, 16, 16, .rw, 1, .live⟩
def GAU_CFG_en : Field := ⟨0x200084, 15, 1, .rw, 0, .live⟩
def GAU_CFG_chain : Field := ⟨0x200084, 10, 5, .rw, 0, .live⟩
def GAU_CFG_action : Field := ⟨0x200084, 7, 3, .rw, 0, .live⟩
def GAU_CFG_priority : Field := ⟨0x200084, 3, 4, .rw, 0, .live⟩
def GAU_CFG_op : Field := ⟨0x200084, 0, 3, .rw, 0, .live⟩
def GAU_CFG : RegDef := ⟨0x200084, 0, 1, .gauge, [GAU_CFG_threshold, GAU_CFG_en, GAU_CFG_chain, GAU_CFG_action, GAU_CFG_priority, GAU_CFG_op]⟩

/-! GAU_WATCH (R504). -/
def GAU_WATCH_kind : Field := ⟨0x200088, 30, 2, .rw, 0, .live⟩
def GAU_WATCH_position : Field := ⟨0x200088, 16, 5, .rw, 0, .live⟩
def GAU_WATCH_c : Field := ⟨0x200088, 0, 12, .rw, 0, .live⟩
def GAU_WATCH : RegDef := ⟨0x200088, 0, 1, .gauge, [GAU_WATCH_kind, GAU_WATCH_position, GAU_WATCH_c]⟩

/-! GAU_REF (R504). -/
def GAU_REF_mask : Field := ⟨0x20008c, 16, 12, .rw, 0xfff, .live⟩
def GAU_REF_ref : Field := ⟨0x20008c, 0, 12, .rw, 0, .live⟩
def GAU_REF : RegDef := ⟨0x20008c, 0, 1, .gauge, [GAU_REF_mask, GAU_REF_ref]⟩

/-! GAU_CNT (R504). -/
def GAU_CNT_armed : Field := ⟨0x200090, 16, 1, .ro, 0, .none⟩
def GAU_CNT_count : Field := ⟨0x200090, 0, 16, .rw, 0, .live⟩
def GAU_CNT : RegDef := ⟨0x200090, 0, 1, .gauge, [GAU_CNT_armed, GAU_CNT_count]⟩

/-! GAU_MATCH (R504). -/
def GAU_MATCH_step : Field := ⟨0x200094, 16, 10, .ro, 0, .none⟩
def GAU_MATCH_fired : Field := ⟨0x200094, 0, 16, .rc, 0, .none⟩
def GAU_MATCH : RegDef := ⟨0x200094, 0, 1, .reach, [GAU_MATCH_step, GAU_MATCH_fired]⟩

/-! GAU_CAUSE (R504). -/
def GAU_CAUSE_en : Field := ⟨0x200098, 1, 1, .rw, 1, .live⟩
def GAU_CAUSE_fired : Field := ⟨0x200098, 0, 1, .w1c, 0, .live⟩
def GAU_CAUSE : RegDef := ⟨0x200098, 0, 1, .reach, [GAU_CAUSE_en, GAU_CAUSE_fired]⟩

def tableGau : List RegDef := [GAU_IDX, GAU_CFG, GAU_WATCH, GAU_REF, GAU_CNT, GAU_MATCH, GAU_CAUSE]

/-! ### PWR -/

/-! PWR_MODE (R539). -/
def PWR_MODE_mode : Field := ⟨0xd00000, 28, 4, .ro, 0, .none⟩
def PWR_MODE_depth : Field := ⟨0xd00000, 27, 1, .ro, 0, .none⟩
def PWR_MODE_request : Field := ⟨0xd00000, 0, 2, .wo, 0, .live⟩
def PWR_MODE : RegDef := ⟨0xd00000, 0, 1, .dev, [PWR_MODE_mode, PWR_MODE_depth, PWR_MODE_request]⟩

/-! PWR_CTRL (R539). -/
def PWR_CTRL_dev_reset : Field := ⟨0xd00004, 31, 1, .wo, 0, .live⟩
def PWR_CTRL_sanitize : Field := ⟨0xd00004, 30, 1, .wo, 0, .live⟩
def PWR_CTRL_standby_en : Field := ⟨0xd00004, 0, 1, .rw, 0, .live⟩
def PWR_CTRL : RegDef := ⟨0xd00004, 0, 1, .dev, [PWR_CTRL_dev_reset, PWR_CTRL_sanitize, PWR_CTRL_standby_en]⟩

/-! PWR_RST (R539). -/
def PWR_RST_kind : Field := ⟨0xd00008, 16, 3, .ro, 0, .none⟩
def PWR_RST_error : Field := ⟨0xd00008, 8, 8, .ro, 0, .none⟩
def PWR_RST_stage : Field := ⟨0xd00008, 0, 4, .ro, 0, .none⟩
def PWR_RST : RegDef := ⟨0xd00008, 0, 1, .dev, [PWR_RST_kind, PWR_RST_error, PWR_RST_stage]⟩

/-! PWR_LIMIT (R539). -/
def PWR_LIMIT_power : Field := ⟨0xd0000c, 16, 16, .ro, 0, .none⟩
def PWR_LIMIT_limit : Field := ⟨0xd0000c, 0, 8, .rw, 0xf0, .live⟩
def PWR_LIMIT : RegDef := ⟨0xd0000c, 0, 1, .dev, [PWR_LIMIT_power, PWR_LIMIT_limit]⟩

/-! PWR_VCORE (R539). -/
def PWR_VCORE_request : Field := ⟨0xd00010, 20, 10, .ro, 0x352, .none⟩
def PWR_VCORE_vmax : Field := ⟨0xd00010, 10, 10, .rw, 0x352, .live⟩
def PWR_VCORE_vmin : Field := ⟨0xd00010, 0, 10, .rw, 0x28a, .live⟩
def PWR_VCORE : RegDef := ⟨0xd00010, 0, 1, .dev, [PWR_VCORE_request, PWR_VCORE_vmax, PWR_VCORE_vmin]⟩

/-! PWR_DOM_SEL (R539). -/
def PWR_DOM_SEL_domain : Field := ⟨0xd00014, 0, 6, .rw, 0, .live⟩
def PWR_DOM_SEL : RegDef := ⟨0xd00014, 0, 1, .who, [PWR_DOM_SEL_domain]⟩

/-! PWR_DOM (R539). -/
def PWR_DOM_clamped : Field := ⟨0xd00018, 8, 1, .ro, 1, .none⟩
def PWR_DOM_state : Field := ⟨0xd00018, 0, 2, .ro, 0, .none⟩
def PWR_DOM : RegDef := ⟨0xd00018, 0, 1, .domain, [PWR_DOM_clamped, PWR_DOM_state]⟩

/-! PWR_BASIN_SEL (R539). -/
def PWR_BASIN_SEL_kind : Field := ⟨0xd0001c, 9, 3, .rw, 0, .live⟩
def PWR_BASIN_SEL_instance : Field := ⟨0xd0001c, 0, 9, .rw, 0, .live⟩
def PWR_BASIN_SEL : RegDef := ⟨0xd0001c, 0, 1, .who, [PWR_BASIN_SEL_kind, PWR_BASIN_SEL_instance]⟩

/-! PWR_BASIN_OWN (R539). -/
def PWR_BASIN_OWN_refused : Field := ⟨0xd00020, 31, 1, .w1c, 0, .live⟩
def PWR_BASIN_OWN_owner : Field := ⟨0xd00020, 0, 3, .rw, 3, .live⟩
def PWR_BASIN_OWN : RegDef := ⟨0xd00020, 0, 1, .basin, [PWR_BASIN_OWN_refused, PWR_BASIN_OWN_owner]⟩

/-! PWR_PLANK (R539). -/
def PWR_PLANK_go : Field := ⟨0xd00024, 31, 1, .wo, 0, .live⟩
def PWR_PLANK_rejected : Field := ⟨0xd00024, 30, 1, .w1c, 0, .live⟩
def PWR_PLANK_class : Field := ⟨0xd00024, 26, 4, .wo, 0, .live⟩
def PWR_PLANK_instance : Field := ⟨0xd00024, 17, 9, .wo, 0, .live⟩
def PWR_PLANK : RegDef := ⟨0xd00024, 0, 1, .dev, [PWR_PLANK_go, PWR_PLANK_rejected, PWR_PLANK_class, PWR_PLANK_instance]⟩

/-! PWR_PLANK_UNIT (R539). -/
def PWR_PLANK_UNIT_unit : Field := ⟨0xd00028, 0, 32, .rw, 0, .live⟩
def PWR_PLANK_UNIT : RegDef := ⟨0xd00028, 0, 1, .dev, [PWR_PLANK_UNIT_unit]⟩

def tablePwr : List RegDef := [PWR_MODE, PWR_CTRL, PWR_RST, PWR_LIMIT, PWR_VCORE, PWR_DOM_SEL, PWR_DOM, PWR_BASIN_SEL,
  PWR_BASIN_OWN, PWR_PLANK, PWR_PLANK_UNIT]

/-! ### AON -/

/-! AON_TIME_LO (R539). -/
def AON_TIME_LO_time : Field := ⟨0xd00040, 0, 32, .rw, 0, .live⟩
def AON_TIME_LO : RegDef := ⟨0xd00040, 0, 1, .dev, [AON_TIME_LO_time]⟩

/-! AON_TIME_HI (R539). -/
def AON_TIME_HI_time : Field := ⟨0xd00044, 0, 32, .rw, 0, .live⟩
def AON_TIME_HI : RegDef := ⟨0xd00044, 0, 1, .dev, [AON_TIME_HI_time]⟩

/-! AON_TSYNC (R539). -/
def AON_TSYNC_en : Field := ⟨0xd00048, 31, 1, .rw, 0, .live⟩
def AON_TSYNC_tenant : Field := ⟨0xd00048, 0, 4, .rw, 0, .live⟩
def AON_TSYNC : RegDef := ⟨0xd00048, 0, 1, .dev, [AON_TSYNC_en, AON_TSYNC_tenant]⟩

/-! AON_WAKE_TIME_LO (R539). -/
def AON_WAKE_TIME_LO_time : Field := ⟨0xd0004c, 0, 32, .rw, 0, .live⟩
def AON_WAKE_TIME_LO : RegDef := ⟨0xd0004c, 0, 1, .dev, [AON_WAKE_TIME_LO_time]⟩

/-! AON_WAKE_TIME_HI (R539). -/
def AON_WAKE_TIME_HI_time : Field := ⟨0xd00050, 0, 32, .rw, 0, .live⟩
def AON_WAKE_TIME_HI : RegDef := ⟨0xd00050, 0, 1, .dev, [AON_WAKE_TIME_HI_time]⟩

/-! AON_CMP (R539). -/
def AON_CMP_temp_warn : Field := ⟨0xd00054, 24, 8, .rw, 0x64, .live⟩
def AON_CMP_supply_en : Field := ⟨0xd00054, 1, 1, .rw, 1, .live⟩
def AON_CMP_wake_en : Field := ⟨0xd00054, 0, 1, .rw, 0, .live⟩
def AON_CMP : RegDef := ⟨0xd00054, 0, 1, .dev, [AON_CMP_temp_warn, AON_CMP_supply_en, AON_CMP_wake_en]⟩

/-! AON_STAT (R539). -/
def AON_STAT_temp : Field := ⟨0xd00058, 24, 8, .ro, 0, .none⟩
def AON_STAT_fatal : Field := ⟨0xd00058, 3, 4, .ro, 0, .none⟩
def AON_STAT_tamper : Field := ⟨0xd00058, 2, 1, .w1c, 0, .live⟩
def AON_STAT_tamper_live : Field := ⟨0xd00058, 1, 1, .ro, 0, .none⟩
def AON_STAT_synced : Field := ⟨0xd00058, 0, 1, .ro, 0, .none⟩
def AON_STAT : RegDef := ⟨0xd00058, 0, 1, .dev, [AON_STAT_temp, AON_STAT_fatal, AON_STAT_tamper, AON_STAT_tamper_live, AON_STAT_synced]⟩

/-! AON_WAKE (R539). -/
def AON_WAKE_cause : Field := ⟨0xd0005c, 0, 7, .rc, 0, .none⟩
def AON_WAKE : RegDef := ⟨0xd0005c, 0, 1, .dev, [AON_WAKE_cause]⟩

/-! AON_WAKE_LAST (R539). -/
def AON_WAKE_LAST_cause : Field := ⟨0xd00060, 0, 7, .ro, 0, .none⟩
def AON_WAKE_LAST : RegDef := ⟨0xd00060, 0, 1, .dev, [AON_WAKE_LAST_cause]⟩

/-! AON_WAKE_EN (R539). -/
def AON_WAKE_EN_en : Field := ⟨0xd00064, 0, 7, .rw, 7, .live⟩
def AON_WAKE_EN : RegDef := ⟨0xd00064, 0, 1, .dev, [AON_WAKE_EN_en]⟩

def tableAon : List RegDef := [AON_TIME_LO, AON_TIME_HI, AON_TSYNC, AON_WAKE_TIME_LO, AON_WAKE_TIME_HI, AON_CMP,
  AON_STAT, AON_WAKE, AON_WAKE_LAST, AON_WAKE_EN]

/-! ### SEC -/

/-! SEC_LC (R539). -/
def SEC_LC_kek_ok : Field := ⟨0xd00080, 31, 1, .ro, 1, .none⟩
def SEC_LC_state : Field := ⟨0xd00080, 0, 2, .ro, 1, .none⟩
def SEC_LC : RegDef := ⟨0xd00080, 0, 1, .dev, [SEC_LC_kek_ok, SEC_LC_state]⟩

/-! SEC_LC_REQ (R539). -/
def SEC_LC_REQ_go : Field := ⟨0xd00084, 31, 1, .wo, 0, .live⟩
def SEC_LC_REQ_rejected : Field := ⟨0xd00084, 30, 1, .w1c, 0, .live⟩
def SEC_LC_REQ_confirm : Field := ⟨0xd00084, 16, 12, .wo, 0, .live⟩
def SEC_LC_REQ_target : Field := ⟨0xd00084, 0, 2, .wo, 0, .live⟩
def SEC_LC_REQ : RegDef := ⟨0xd00084, 0, 1, .dev, [SEC_LC_REQ_go, SEC_LC_REQ_rejected, SEC_LC_REQ_confirm, SEC_LC_REQ_target]⟩

/-! SEC_KEY_CTRL (R539). -/
def SEC_KEY_CTRL_go : Field := ⟨0xd00088, 31, 1, .rw, 0, .live⟩
def SEC_KEY_CTRL_busy : Field := ⟨0xd00088, 30, 1, .ro, 0, .none⟩
def SEC_KEY_CTRL_status : Field := ⟨0xd00088, 28, 2, .ro, 0, .none⟩
def SEC_KEY_CTRL_erase : Field := ⟨0xd00088, 24, 1, .rw, 0, .live⟩
def SEC_KEY_CTRL_wrapped : Field := ⟨0xd00088, 20, 1, .rw, 0, .live⟩
def SEC_KEY_CTRL_tenant : Field := ⟨0xd00088, 16, 4, .rw, 0, .live⟩
def SEC_KEY_CTRL_slot : Field := ⟨0xd00088, 0, 7, .rw, 0, .live⟩
def SEC_KEY_CTRL : RegDef := ⟨0xd00088, 0, 1, .dev, [SEC_KEY_CTRL_go, SEC_KEY_CTRL_busy, SEC_KEY_CTRL_status, SEC_KEY_CTRL_erase, SEC_KEY_CTRL_wrapped, SEC_KEY_CTRL_tenant, SEC_KEY_CTRL_slot]⟩

/-! SEC_KEY_DATA (R539). -/
def SEC_KEY_DATA_word : Field := ⟨0xd0008c, 0, 32, .wo, 0, .live⟩
def SEC_KEY_DATA : RegDef := ⟨0xd0008c, 0, 1, .dev, [SEC_KEY_DATA_word]⟩

def tableSec : List RegDef := [SEC_LC, SEC_LC_REQ, SEC_KEY_CTRL, SEC_KEY_DATA]

/-! ### WHF -/

/-! WHF_ID (R543). -/
def WHF_ID_device : Field := ⟨0x0, 16, 16, .ro, 7, .none⟩
def WHF_ID_stepping : Field := ⟨0x0, 8, 8, .ro, 0xb0, .none⟩
def WHF_ID_variant : Field := ⟨0x0, 0, 8, .ro, 0x32, .none⟩
def WHF_ID : RegDef := ⟨0x0, 0, 1, .dev, [WHF_ID_device, WHF_ID_stepping, WHF_ID_variant]⟩

/-! WHF_ROMVER (R543). -/
def WHF_ROMVER_major : Field := ⟨0x4, 24, 8, .ro, 1, .none⟩
def WHF_ROMVER_minor : Field := ⟨0x4, 16, 8, .ro, 0, .none⟩
def WHF_ROMVER_build : Field := ⟨0x4, 0, 16, .ro, 0xb07, .none⟩
def WHF_ROMVER : RegDef := ⟨0x4, 0, 1, .dev, [WHF_ROMVER_major, WHF_ROMVER_minor, WHF_ROMVER_build]⟩

/-! WHF_CAPS0 (R543). -/
def WHF_CAPS0_vlen_log2 : Field := ⟨0x8, 20, 4, .ro, 3, .none⟩
def WHF_CAPS0_margin : Field := ⟨0x8, 14, 6, .ro, 8, .none⟩
def WHF_CAPS0_clusters : Field := ⟨0x8, 5, 9, .ro, 0x198, .none⟩
def WHF_CAPS0_reaches : Field := ⟨0x8, 0, 5, .ro, 0x18, .none⟩
def WHF_CAPS0 : RegDef := ⟨0x8, 0, 1, .dev, [WHF_CAPS0_vlen_log2, WHF_CAPS0_margin, WHF_CAPS0_clusters, WHF_CAPS0_reaches]⟩

/-! WHF_CAPS1 (R543). -/
def WHF_CAPS1_stack_gib : Field := ⟨0xc, 16, 8, .ro, 0x10, .none⟩
def WHF_CAPS1_stacks : Field := ⟨0xc, 14, 2, .ro, 2, .none⟩
def WHF_CAPS1_tenants : Field := ⟨0xc, 9, 5, .ro, 0x10, .none⟩
def WHF_CAPS1_keepers : Field := ⟨0xc, 6, 3, .ro, 4, .none⟩
def WHF_CAPS1_links : Field := ⟨0xc, 0, 6, .ro, 0x10, .none⟩
def WHF_CAPS1 : RegDef := ⟨0xc, 0, 1, .dev, [WHF_CAPS1_stack_gib, WHF_CAPS1_stacks, WHF_CAPS1_tenants, WHF_CAPS1_keepers, WHF_CAPS1_links]⟩

/-! WHF_UID_LO (R543). -/
def WHF_UID_LO_uid : Field := ⟨0x10, 0, 32, .ro, 0, .none⟩
def WHF_UID_LO : RegDef := ⟨0x10, 0, 1, .dev, [WHF_UID_LO_uid]⟩

/-! WHF_UID_HI (R543). -/
def WHF_UID_HI_uid : Field := ⟨0x14, 0, 32, .ro, 0, .none⟩
def WHF_UID_HI : RegDef := ⟨0x14, 0, 1, .dev, [WHF_UID_HI_uid]⟩

/-! WHF_SCRATCH (R543). -/
def WHF_SCRATCH_data : Field := ⟨0x18, 0, 32, .rw, 0, .live⟩
def WHF_SCRATCH : RegDef := ⟨0x18, 0, 1, .dev, [WHF_SCRATCH_data]⟩

/-! WHF_VIEW (R543). -/
def WHF_VIEW_active : Field := ⟨0x20, 0, 1, .rw, 0, .live⟩
def WHF_VIEW : RegDef := ⟨0x20, 0, 1, .who, [WHF_VIEW_active]⟩

/-! WHF_ACCERR (R543). -/
def WHF_ACCERR_valid : Field := ⟨0x24, 31, 1, .w1c, 0, .live⟩
def WHF_ACCERR_reason : Field := ⟨0x24, 28, 3, .ro, 0, .none⟩
def WHF_ACCERR_addr : Field := ⟨0x24, 0, 25, .ro, 0, .none⟩
def WHF_ACCERR : RegDef := ⟨0x24, 0, 1, .who, [WHF_ACCERR_valid, WHF_ACCERR_reason, WHF_ACCERR_addr]⟩

/-! WHF_ATLOCKt (R543). -/
def WHF_ATLOCKt_lock : Field := ⟨0x100, 0, 24, .rw, 0xffffff, .live⟩
def WHF_ATLOCKt : RegDef := ⟨0x100, 4, 16, .stride, [WHF_ATLOCKt_lock]⟩

def tableWhf : List RegDef := [WHF_ID, WHF_ROMVER, WHF_CAPS0, WHF_CAPS1, WHF_UID_LO, WHF_UID_HI, WHF_SCRATCH,
  WHF_VIEW, WHF_ACCERR, WHF_ATLOCKt]

end Reg

/-- Every register of BAR0 (R555). -/
def regTable : List RegDef :=
  Reg.tableClu ++ Reg.tableRch ++ Reg.tableDmem ++ Reg.tableAq ++ Reg.tableLck ++ Reg.tableTst ++
  Reg.tableKpr ++ Reg.tableIrq ++ Reg.tableSlc ++ Reg.tableChk ++ Reg.tableLdg ++ Reg.tableWeir ++ Reg.tableGau ++ Reg.tablePwr ++ Reg.tableAon ++ Reg.tableSec ++ Reg.tableWhf

/-- Every register of a doorbell page (R554). -/
def doorTable : List RegDef := Reg.tableDb

end Sys2Proof.Machine
end

