-- ==== Sys2Proof/Machine/Ops.lean ====
section
/-!
DEFINITION. Sys2Proof/Machine/Ops.lean: the named operations every meaning is built from: tables, memories, stored cells,
bit fields, register fields, and the units of a state.
-/
namespace Sys2Proof.Machine

/-! ### Tables and memories -/

/-- The value listed at key k. -/
def Tbl.find {α : Type} : Tbl α → Nat → Option α
  | [], _ => none
  | (a, v) :: t, k => if a = k then some v else Tbl.find t k

/-- The value at key k, or d. -/
def Tbl.get {α : Type} (t : Tbl α) (k : Nat) (d : α) : α := (t.find k).getD d

/-- The table without key k. -/
def Tbl.del {α : Type} : Tbl α → Nat → Tbl α
  | [], _ => []
  | (a, v) :: t, k => if a = k then Tbl.del t k else (a, v) :: Tbl.del t k

/-- Insert before the first larger key. -/
def Tbl.ins {α : Type} : Tbl α → Nat → α → Tbl α
  | [], k, x => [(k, x)]
  | (a, v) :: t, k, x => if k < a then (k, x) :: (a, v) :: t else (a, v) :: Tbl.ins t k x

/-- The table with x at key k. -/
def Tbl.put {α : Type} (t : Tbl α) (k : Nat) (x : α) : Tbl α := Tbl.ins (t.del k) k x

/-- The unit at address a: zero where nothing is listed. -/
def Mem.get {n : Nat} (m : Mem n) (a : Nat) : BitVec n := Tbl.get m a 0

/-- Write x at address a. Writing zero removes the entry, so equal memories are equal lists. -/
def Mem.put {n : Nat} (m : Mem n) (a : Nat) (x : BitVec n) : Mem n :=
  if x = 0 then Tbl.del m a else Tbl.put m a x

/-- Write a run of units at ascending addresses. -/
def Mem.putRun {n : Nat} (m : Mem n) (a : Nat) : List (BitVec n) → Mem n
  | [] => m
  | x :: xs => Mem.putRun (Mem.put m a x) (a + 1) xs

/-- Read `len` units from a on. -/
def Mem.getRun {n : Nat} (m : Mem n) (a len : Nat) : List (BitVec n) :=
  (List.range len).map fun i => Mem.get m (a + i)

/-- Keys strictly rising. -/
def Tbl.rising {α : Type} : Tbl α → Bool
  | [] => true
  | [_] => true
  | (a, _) :: (b, w) :: t => decide (a < b) && Tbl.rising ((b, w) :: t)

/-- The canonical form of a memory: addresses strictly rising, no entry equal to what an unlisted address reads as. -/
def Memory.wf {n : Nat} (m : Mem n) : Bool := Tbl.rising m && m.all fun e => decide (e.2 ≠ 0)

/-- Drop every listed key that f rejects. -/
def Tbl.keep {α : Type} (t : Tbl α) (f : Nat → Bool) : Tbl α := t.filter fun e => f e.1

/-! ### Numbers and bits -/

/-- Bits [lo + w - 1 : lo] of a number. -/
def bits (v lo w : Nat) : Nat := v / 2 ^ lo % 2 ^ w

/-- Bit k of a number. -/
def bit (v k : Nat) : Bool := v.testBit k

/-- 1 for true. -/
def b2n (b : Bool) : Nat := if b then 1 else 0

/-- A saturating sum. -/
def satAdd (max a b : Nat) : Nat := min max (a + b)

/-- (a - b) mod 2^w. -/
def subMod (w a b : Nat) : Nat := (a + 2 ^ w - b % 2 ^ w) % 2 ^ w

/-- Little-endian bytes of a number. -/
def leBytes : Nat → Nat → List Byte
  | 0, _ => []
  | n + 1, v => BitVec.ofNat 8 v :: leBytes n (v / 256)

/-- The number that little-endian bytes spell. -/
def ofLe : List Byte → Nat
  | [] => 0
  | b :: bs => b.toNat + 256 * ofLe bs

/-- Bytes [off, off + n) of a list; bytes past its end read as zero. -/
def sliceLe (l : List Byte) (off n : Nat) : Nat := ofLe ((l.drop off).take n)

/-- Two's complement reading of the low w bits. -/
def signed (w v : Nat) : Int := if v % 2 ^ w < 2 ^ (w - 1) then (v % 2 ^ w : Nat) else (v % 2 ^ w : Nat) - (2 ^ w : Nat)

/-- The low w bits of an integer. -/
def wrap (w : Nat) (i : Int) : Nat := (i % (2 ^ w : Nat)).toNat

/-- The elements of [0, n) that satisfy p. -/
def which (n : Nat) (p : Nat → Bool) : List Nat := (List.range n).filter p

/-- Apply f to every unit of a list in order. -/
def each {σ : Type} (l : List Nat) (f : Nat → σ → σ) (s : σ) : σ := l.foldl (fun s i => f i s) s

/-! ### Stored cells (R154, R318) -/

/-- Odd parity of the low n bits. -/
def oddOnes (n v : Nat) : Bool := (List.range n).foldl (fun p i => p != v.testBit i) false

/-- A cell stored with fresh parity. -/
def store (c : Cell) : SCell := (if oddOnes 12 c.toNat then 1#1 else 0#1) ++ c

/-- The cell of a stored cell. -/
def cellOf (x : SCell) : Cell := x.setWidth 12

/-- The stored bits hold an even number of ones. -/
def parityOk (x : SCell) : Bool := !oddOnes 13 x.toNat

/-! ### Register fields -/

/-- The requester's number among the six copies of R548. -/
def copyOf : Requester → Nat
  | .pf => 0
  | .keeper k _ _ => 1 + k.val
  | .capstan => 5

/-- Where a field is kept: by field, instance and requester copy. -/
def fieldKey (f : Field) (inst who : Nat) : Nat := ((f.addr * 32 + f.lo) * 8192 + inst) * 8 + who

/-- A field's value after reset: its Reset column, which for CLU_ROLE.role and KPR_CTRL.rom_fetch depends on the unit. -/
def Field.resetAt (f : Field) (inst : Nat) : Nat :=
  if f = Reg.CLU_ROLE_role then (if inst % 17 = 16 then 0x1F else inst % 17)
  else if f = Reg.KPR_CTRL_rom_fetch then (if inst = 0 then 1 else 0)
  else f.reset

/-- Read a field of instance i. -/
def State.rg (s : State) (f : Field) (i : Nat := 0) : Nat := (s.regs.find (fieldKey f i 0)).getD (f.resetAt i)

/-- Read a requester's copy of a field (R548), or the active copy of an At-lock field (R552: copy 1). -/
def State.rgw (s : State) (f : Field) (who : Nat) (i : Nat := 0) : Nat :=
  (s.regs.find (fieldKey f i who)).getD (f.resetAt i)

/-- Set a field of instance i. -/
def State.setRg (s : State) (f : Field) (i v : Nat) : State :=
  { s with regs := s.regs.put (fieldKey f i 0) (v % 2 ^ f.width) }

/-- Set a requester's copy of a field. -/
def State.setRgw (s : State) (f : Field) (who i v : Nat) : State :=
  { s with regs := s.regs.put (fieldKey f i who) (v % 2 ^ f.width) }

/-- A one-bit field is 1. -/
def State.on (s : State) (f : Field) (i : Nat := 0) : Bool := s.rg f i = 1

/-- Add to a counter, saturating at the largest value of the field. -/
def State.count (s : State) (f : Field) (i n : Nat) : State :=
  s.setRg f i (satAdd (2 ^ f.width - 1) (s.rg f i) n)

/-- The field's bits within a 32-bit register value. -/
def Field.of (f : Field) (v : Word) : Nat := bits v.toNat f.lo f.width

/-- The field's contribution to a register value. -/
def Field.at (f : Field) (v : Nat) : Nat := v % 2 ^ f.width * 2 ^ f.lo

/-! ### Units -/

def State.clu (s : State) (c : Nat) : Cluster := s.clusters.get c {}
def State.setClu (s : State) (c : Nat) (x : Cluster) : State := { s with clusters := s.clusters.put c x }
def State.modClu (s : State) (c : Nat) (f : Cluster → Cluster) : State := s.setClu c (f (s.clu c))
def State.rch (s : State) (r : Nat) : Reach := s.reaches.get r {}
def State.setRch (s : State) (r : Nat) (x : Reach) : State := { s with reaches := s.reaches.put r x }
def State.modRch (s : State) (r : Nat) (f : Reach → Reach) : State := s.setRch r (f (s.rch r))
def State.part (s : State) (t : Nat) : Part := s.parts.get t {}
def State.setPart (s : State) (t : Nat) (x : Part) : State := { s with parts := s.parts.put t x }
def State.modPart (s : State) (t : Nat) (f : Part → Part) : State := s.setPart t (f (s.part t))
def State.lnk (s : State) (l : Nat) : Link := s.links.get l {}
def State.setLnk (s : State) (l : Nat) (x : Link) : State := { s with links := s.links.put l x }
def State.modLnk (s : State) (l : Nat) (f : Link → Link) : State := s.setLnk l (f (s.lnk l))
def State.kpr (s : State) (k : Nat) : Keeper := s.keepers.get k {}
def State.setKpr (s : State) (k : Nat) (x : Keeper) : State := { s with keepers := s.keepers.put k x }
def State.modKpr (s : State) (k : Nat) (f : Keeper → Keeper) : State := s.setKpr k (f (s.kpr k))
def State.src (s : State) (n : Nat) : Src := s.irq.get n {}
def State.setSrc (s : State) (n : Nat) (x : Src) : State := { s with irq := s.irq.put n x }
def State.modSrc (s : State) (n : Nat) (f : Src → Src) : State := s.setSrc n (f (s.src n))
def State.queue (s : State) (i : Nat) : Queue := s.queues.get i {}
def State.setQueue (s : State) (i : Nat) (x : Queue) : State := { s with queues := s.queues.put i x }
def State.fn (s : State) (i : Nat) : Fn := s.fns.get i {}
def State.setFn (s : State) (i : Nat) (x : Fn) : State := { s with fns := s.fns.put i x }
def State.chan (s : State) (c : Nat) : Channel := s.channels.get c {}
def State.setChan (s : State) (c : Nat) (x : Channel) : State := { s with channels := s.channels.put c x }
def State.chk (s : State) (u : Nat) : Chk := s.chks.get u {}
def State.setChk (s : State) (u : Nat) (x : Chk) : State := { s with chks := s.chks.put u x }

/-- A command's answer: the new state, with the queue of waiting commands left as it stood. -/
def done (s t : State) : Host.Outcome State Fault Refusal := .next { t with pending := s.pending }

/-- Draw a free choice (log entry 1). -/
def State.drawBit (s : State) : Bool × State := (Config.freeBit s.freeCtr, { s with freeCtr := s.freeCtr + 1 })

/-- Return a word to the sender of a read. -/
def State.answer (s : State) (v : Nat) : State := { s with readData := BitVec.ofNat 32 v }

/-! ### Modes and ownership -/

/-- The device mode code (R505). -/
def State.mode (s : State) : Nat := s.rg Reg.PWR_MODE_mode

/-- The partition mode code of a tenant (R508). -/
def State.pmode (s : State) (t : Nat) : Nat := s.rg Reg.WHF_TSTAT_mode t

/-- The tenant that owns a reach, if it is bound (R152). -/
def State.owner (s : State) (r : Nat) : Option Nat :=
  if s.on Reg.RCH_OWNER_bound r then some (s.rg Reg.RCH_OWNER_tenant r) else none

/-- The logical position a cluster plays, unless it is a standby spare or retired (R81, R328). -/
def State.position (s : State) (c : Nat) : Option Nat :=
  let p := s.rg Reg.CLU_ROLE_role c
  if s.on Reg.CLU_ROLE_retired c || 16 < p then none else some p

/-- The physical cluster that plays position p of reach r. -/
def State.playing (s : State) (r p : Nat) : Option Nat :=
  ((List.range 17).map (17 * r + ·)).find? fun c => s.position c = some p

/-- The logical positions in use in reach r: 0 to 15, and 16 while RCH_CTRL.margin is 1 (R120). -/
def State.activePositions (s : State) (r : Nat) : List Nat :=
  List.range (if s.on Reg.RCH_CTRL_margin r then 17 else 16)

/-- The system keeper (R377). -/
def State.system (s : State) : Nat := s.rg Reg.KPR_SYS_system

/-- Steps per design cycle of a tenant's partition. -/
def State.steps (s : State) (t : Nat) : Nat := (s.part t).hdr.stepsM1 + 1

/-- Design cycles per pound (R267). -/
def State.poundLen (s : State) (t : Nat) : Nat := 2 ^ (s.part t).hdr.poundLog2

/-- A partition is loaded, Loading included (R552). -/
def State.loaded (s : State) (t : Nat) : Bool := s.pmode t ≠ 0

end Sys2Proof.Machine
end

