-- ==== Sys2Proof/Machine/Crc.lean ====
section
/-!
DEFINITION. Sys2Proof/Machine/Crc.lean: the cyclic redundancy checks of the check units and of every guarded item (R465,
R468).
-/
namespace Sys2Proof.Machine

/-- One bit of a reflected CRC whose reversed polynomial is `poly`. -/
def crcBitR (poly crc : Nat) : Nat := if crc % 2 = 1 then Nat.xor (crc / 2) poly else crc / 2

/-- Feed one byte, least significant bit first. -/
def crcByteR (poly crc b : Nat) : Nat :=
  let x := Nat.xor crc b
  crcBitR poly (crcBitR poly (crcBitR poly (crcBitR poly (crcBitR poly (crcBitR poly (crcBitR poly (crcBitR poly x)))))))

/-- One bit of the non-reflected 64-bit CRC. -/
def crcBit64 (crc : Nat) : Nat :=
  if 2 ^ 63 ≤ crc then Nat.xor (crc * 2 % 2 ^ 64) 0x42F0E1EBA9EA3693 else crc * 2

/-- Feed one byte, most significant bit first. -/
def crcByte64 (crc b : Nat) : Nat :=
  let x := Nat.xor crc (b * 2 ^ 56)
  crcBit64 (crcBit64 (crcBit64 (crcBit64 (crcBit64 (crcBit64 (crcBit64 (crcBit64 x)))))))

/-- The four CRCs of R465: feed one byte to code p. -/
def crcFeed (p crc : Nat) (b : Byte) : Nat :=
  match p with
  | 0 => crcByteR 0x82F63B78 crc b.toNat
  | 1 => crcByteR 0xEDB88320 crc b.toNat
  | 2 => crcByteR 0x8408 crc b.toNat
  | _ => crcByte64 crc b.toNat

/-- Initial value of code p. -/
def crcInit (p : Nat) : Nat :=
  match p with
  | 0 => 0xFFFFFFFF
  | 1 => 0xFFFFFFFF
  | 2 => 0xFFFF
  | _ => 0

/-- Final XOR of code p, which equals its initial value. -/
def crcFinal (p crc : Nat) : Nat := Nat.xor crc (crcInit p)

/-- CRC of a byte string under code p. -/
def crcOf (p : Nat) (l : List Byte) : Nat := crcFinal p (l.foldl (crcFeed p) (crcInit p))

/-- CRC-32C over the alive halfword and then the bytes (R468). -/
def crcAlive (alive : Nat) (l : List Byte) : Nat := crcOf 0 (leBytes 2 (alive % 4096) ++ l)

end Sys2Proof.Machine
end

