-- ==== Sys2Proof/Machine/Events.lean ====
section
/-!
DEFINITION. Sys2Proof/Machine/Events.lean: how a cause reaches an interrupt source (R393 to R397), how an event reaches the
weir (R480 to R492), and how a fault is counted and logged (R324, R345, R346).
-/
namespace Sys2Proof.Machine

/-! ### Interrupt sources -/

/-- Number of private source n of keeper k, and of scanned source n, in `State.irq`. -/
def privSrc (k n : Nat) : Nat := 1024 + 16 * k + n
def scanSrc (n : Nat) : Nat := 2048 + n

/-- A message to the host's MSI-X address of a vector, or its pending bit (R444, R453). -/
def State.msixSend (s : State) (fn v : Nat) : State :=
  let x := s.msix.get (16 * fn + v) {}
  if x.masked ∨ (s.fn fn).d3hot then { s with msix := s.msix.put (16 * fn + v) { x with pending := true } }
  else { s with hostOut := s.hostOut ++ [⟨x.addr, leBytes 4 x.data, false⟩],
                msix := s.msix.put (16 * fn + v) { x with pending := false } }

/-- The target code that a source is given: its keeper's for a private one, IRQ_PTGT for a static one (R400 to R402, R417). -/
def State.givenTarget (s : State) (n : Nat) : Nat :=
  if 1024 ≤ n ∧ n < 2048 then (n - 1024) / 16
  else if n = 16 then s.rg Reg.IRQ_PTGT_fatal
  else if n = 17 then s.rg Reg.IRQ_PTGT_tamper
  else if n = 18 then s.rg Reg.IRQ_PTGT_thermal
  else if n = 19 then s.rg Reg.IRQ_PTGT_lock_unit
  else (s.src n).target

/-- The target that a source has: the host for the fatal source once no keeper holds the system role (R403). -/
def State.targetOf (s : State) (n : Nat) : Nat := if n = 16 ∧ s.power.roleLost then 5 else s.givenTarget n

/-- A source is targeted at T: directly, or by code 4 at the system keeper (R399, R404). -/
def State.aimedAt (s : State) (n T : Nat) : Bool :=
  decide (s.targetOf n = T) || (decide (s.targetOf n = 4) && decide (T = s.system) && decide (T < 4))

/-- Source n is enabled, or its mask is still in the window of R410, where the manual leaves it open, for each source on its
own. -/
def State.passes (s : State) (n : Nat) (x : Src) : Bool := x.en || (x.masking && Config.freeBit (s.freeCtr + n))

/-- A claimed source is eligible for target T (R404). -/
def State.eligible (s : State) (n T : Nat) : Bool :=
  let x := s.src n
  x.pending && !x.active && s.passes n x && s.aimedAt n T

/-- The host's claimed-interrupt request (R405). -/
def State.hostRequest (s : State) : Bool := s.irq.any fun e => decide (e.1 < 256) && s.eligible e.1 5

/-- Vector 8 of the PF goes when the host's request becomes active (R444). -/
def State.hostNotice (s0 s : State) : State := if s.hostRequest && !s0.hostRequest then s.msixSend 0 8 else s

/-- The next place in the order of sources that come to pend. -/
def State.nextTurn (s : State) : Nat := s.irq.foldl (fun n e => max n e.2.turn) 0 + 1

/-- A source pends: one more event, and a place in the order where it did not pend before (R393). -/
def Src.rise (x : Src) (turn : Nat) : Src :=
  { x with pending := true, count := satAdd 15 x.count 1, turn := if x.pending then x.turn else turn }

/-- A rising edge on claimed source n: pending, and one more event (R393). -/
def State.edge (s : State) (n : Nat) : State :=
  State.hostNotice s (s.modSrc n fun x => x.rise s.nextTurn)

/-- A rising bit of a scanned source's input sets its latch bit and pends (R395). -/
def State.scanEdge (s : State) (n b : Nat) : State :=
  s.modSrc (scanSrc n) fun x => { x.rise s.nextTurn with latch := x.latch ||| (1#8 <<< b) }

/-- The units whose causes are sensed as levels. -/
inductive Blk where
  | cluster (c : Nat) | link (l : Nat) | reach (r : Nat) | gauge (r : Nat) | lock | dmem
  | engine (e : Nat) | chk (u : Nat) | ledger | weir
  deriving DecidableEq, Repr

/-- The bits of a register's listed one-bit fields. -/
def State.causeBits (s : State) (fs : List Field) (i : Nat) : Nat := (fs.map fun f => f.at (s.rg f i)).sum

/-- CLU_CAUSE of cluster c. -/
def State.cluCause (s : State) (c : Nat) : Nat := s.causeBits Reg.CLU_CAUSE.fields c

/-- The input of a block's source: the cause bits its enables pass (R395, R397). -/
def State.input (s : State) : Blk → Nat
  | .cluster c => if s.on Reg.CLU_ROLE_retired c then 0 else Nat.land (s.cluCause c) (s.rg Reg.CLU_CAUSE_EN_en c)
  | .link l => b2n (Nat.land (s.causeBits Reg.AQ_CAUSE.fields l) (s.rg Reg.AQ_CAUSE_EN_en l) ≠ 0)
  | .reach r => b2n ((s.rch r).retired = false ∧
      (Nat.land (s.causeBits Reg.RCH_CAUSE.fields r) (s.rg Reg.RCH_CAUSE_EN_en r) ≠ 0 ∨
       Nat.land (s.causeBits Reg.RCH_BCAUSE.fields r) (s.rg Reg.RCH_BCAUSE_EN_en r) ≠ 0 ∨
       s.causeBits Reg.DMEM_R_CAUSE.fields r ≠ 0))
  | .gauge r => b2n (s.on Reg.GAU_CAUSE_fired r && s.on Reg.GAU_CAUSE_en r)
  | .lock => b2n ((List.range 16).any fun t =>
      Nat.land (s.causeBits Reg.LCK_CAUSEt.fields t) (s.rg Reg.LCK_CAUSE_ENt_en t) ≠ 0)
  | .dmem => b2n (Nat.land (s.causeBits Reg.DMEM_CAUSE.fields 0) (s.rg Reg.DMEM_CAUSE_EN_en) ≠ 0)
  | .engine e => b2n ((bit (s.rg Reg.SLC_CAUSE_EN_en e) 0 ∧ s.rg Reg.SLC_CAUSE_half e ≠ 0) ∨
      (bit (s.rg Reg.SLC_CAUSE_EN_en e) 1 ∧ s.rg Reg.SLC_CAUSE_full e ≠ 0) ∨
      (bit (s.rg Reg.SLC_CAUSE_EN_en e) 2 ∧ s.rg Reg.SLC_HALT_halted e ≠ 0))
  | .chk u => b2n ((s.on Reg.CHK_SCANu_CTRL_done u ∧ bit (s.rg Reg.CHK_SCANu_CTRL_en u) 0) ∨
      (s.on Reg.CHK_SCANu_CTRL_error u ∧ bit (s.rg Reg.CHK_SCANu_CTRL_en u) 1))
  | .ledger => b2n (Nat.land (s.causeBits [Reg.LDG_CAUSE_grant_write, Reg.LDG_CAUSE_offence] 0)
      (s.rg Reg.LDG_CAUSE_EN_en) ≠ 0)
  | .weir => b2n (Nat.land (s.causeBits Reg.WEIR_CAUSE.fields 0) (s.rg Reg.WEIR_CAUSE_EN_en) ≠ 0)

/-- The claimed source of a block (R397). -/
def Blk.source : Blk → Nat
  | .lock => 19
  | .reach r => 32 + r
  | .dmem => 56
  | .engine e => 58 + e
  | .chk u => 62 + u
  | .ledger => 66
  | .weir => 67
  | .gauge r => 68 + r
  | .cluster _ => 0
  | .link _ => 0

/-- Edges that the change from s0 to s raises on block b's source. -/
def State.sense (b : Blk) (s0 s : State) : State :=
  let old := s0.input b
  let new := s.input b
  match b with
  | .cluster c => each (which 8 fun k => bit new k && !bit old k) (fun k s => s.scanEdge c k) s
  | .link l => if old = 0 ∧ new ≠ 0 then s.scanEdge (408 + l) 0 else s
  | _ => if old = 0 ∧ new ≠ 0 then s.edge b.source else s

/-- Latch a cause of block b; causes latch whatever the enable (R8, R395). -/
def State.cause (s : State) (b : Blk) (f : Field) (i : Nat := 0) (v : Nat := 1) : State :=
  State.sense b s (s.setRg f i (Nat.lor (s.rg f i) v))

/-! ### HBM bytes and ledger buffers -/

/-- First byte of ledger buffer b (R455). -/
def State.bufAddr (s : State) (b : Nat) : Nat :=
  b / 32768 * 2 ^ 34 + s.rg Reg.LDG_POOLk_base (b / 32768) * 2 ^ 27 + b % 32768 * 4096

/-- A little-endian halfword of HBM. -/
def State.hbmHalf (s : State) (a : Nat) : Nat := (Mem.get s.hbm a).toNat + 256 * (Mem.get s.hbm (a + 1)).toNat

/-- Write bytes to HBM. -/
def State.hbmPut (s : State) (a : Nat) (l : List Byte) : State := { s with hbm := Mem.putRun s.hbm a l }

/-- Read bytes of HBM. -/
def State.hbmGet (s : State) (a n : Nat) : List Byte := Mem.getRun s.hbm a n

/-! ### The weir -/

/-- Pound and design cycle that an event of an owner carries: zero for the device (R482). -/
def State.stamp (s : State) (owner : Nat) : Nat × Nat :=
  if owner < 16 then (s.rg Reg.LCK_POUNDt_pound owner, s.rg Reg.LCK_STATUSt_dcycle owner) else (0, 0)

/-- The 32-byte record of an event (R482). -/
def State.recordBytes (s : State) (e : Event) : List Byte :=
  let rex := e.owner < 16 ∧ (s.on Reg.LCK_STATUSt_reexec e.owner ∨ s.pmode e.owner = 5)
  leBytes 8 e.time ++
  leBytes 2 (e.cls + e.owner * 4 + b2n e.merged * 128 + b2n rex * 256) ++ leBytes 2 e.source ++ leBytes 2 e.code ++
  leBytes 2 e.count ++ leBytes 8 (e.data % 2 ^ 36) ++ leBytes 4 e.pound ++ leBytes 4 e.dcycle

/-- Records the ring holds when full: one slot stays free, so that equal indices mean an empty ring (R483; log entry 4). -/
def State.ringSize (s : State) : Nat := 128 * 2 ^ s.rg Reg.WEIR_RING_CFG_size_log2

/-- Unread records in the ring. -/
def State.ringUsed (s : State) : Nat :=
  (s.rg Reg.WEIR_RING_WR_index + s.ringSize - s.rg Reg.WEIR_RING_RD_index % s.ringSize) % s.ringSize

/-- Where record i of the ring lies. -/
def State.ringSlot (s : State) (i : Nat) : Nat :=
  s.bufAddr (s.hbmHalf (s.bufAddr (s.rg Reg.WEIR_RING_CFG_list) + 2 * (i / 128))) + 32 * (i % 128)

/-- Take the read index from the list buffer, if it is a legal one (R484). -/
def State.ringPoll (s : State) : State :=
  if s.on Reg.WEIR_CTRL_ring_en ∧ s.on Reg.WEIR_RING_CFG_rd_src then
    let a := s.bufAddr (s.rg Reg.WEIR_RING_CFG_list)
    let v := s.hbmHalf (a + 4088) % 4096 + s.hbmHalf (a + 4090) % 32 * 4096
    let ahead := (v + s.ringSize - s.rg Reg.WEIR_RING_RD_index % s.ringSize) % s.ringSize
    if v < s.ringSize ∧ ahead ≤ s.ringUsed then s.setRg Reg.WEIR_RING_RD_index 0 v else s
  else s

/-- The ring has room for n more records. -/
def State.ringRoom (s : State) (n : Nat) : Bool := decide (s.ringUsed + n < s.ringSize)

/-- Write one record to a ring that has room (R483). -/
def State.ringWrite (s : State) (e : Event) : State :=
  let w := s.rg Reg.WEIR_RING_WR_index
  let s' := (s.hbmPut (s.ringSlot w) (s.recordBytes e)).setRg Reg.WEIR_RING_WR_index 0 ((w + 1) % s.ringSize)
  if s.ringUsed ≤ s.ringSize / 2 ∧ s.ringSize / 2 < s'.ringUsed then s'.cause .weir Reg.WEIR_CAUSE_ring_half else s'

/-- Offer n records to the ring: the state in which room was looked for, and whether there is room. With the ring off
nothing is written and nothing is lost. -/
def State.ringTry (s : State) (n : Nat) : Bool × State :=
  if s.ringRoom n then (true, s)
  else
    let s := s.ringPoll
    if s.ringRoom n then (true, s) else (false, s.cause .weir Reg.WEIR_CAUSE_ring_full)

/-- The ring copy of an alarm (R483). -/
def State.ringAlarm (s : State) (e : Event) : State :=
  if s.on Reg.WEIR_CTRL_ring_en then
    match s.ringTry 1 with
    | (true, s) => s.ringWrite e
    | (false, s) => s.count Reg.WEIR_TRC_STAT_ring_lost 0 1
  else s

/-- The fields on which alarms coalesce (R487). -/
def Event.same (a b : Event) : Bool :=
  a.owner = b.owner ∧ a.source = b.source ∧ a.code = b.code ∧ a.data = b.data

/-- An entry takes in another alarm: what it has still to post and to forward grows (R487, R489). -/
def Event.add (e n : Event) (m : Bool) : Event :=
  { e with count := satAdd 65535 e.count n.count, fwd := satAdd 65535 e.fwd n.fwd, merged := e.merged || m }

/-- Put an alarm into a store of 64 entries, oldest first: coalesce, append, or merge into the newest. The flag says that
it merged (R487). -/
def storeAlarm (l : List Event) (e : Event) : List Event × Bool :=
  if l.any e.same then (l.map fun x => if e.same x then x.add e false else x, false)
  else if l.length < 64 then (l ++ [e], false)
  else (l.dropLast ++ (l.getLast?.map fun x => x.add e true).toList, true)

/-- Enter an alarm into its owner's store. -/
def State.enterAlarm (s : State) (e : Event) : State :=
  let r := storeAlarm (s.weir.alarms.get e.owner []) e
  let s := { s with weir := { s.weir with alarms := s.weir.alarms.put e.owner r.1 } }
  if r.2 then (s.setRg Reg.WEIR_ALM_STAT_merged e.owner 1).cause .weir Reg.WEIR_CAUSE_alarm_merged else s

/-- This device is the root of tenant t's lock tree (R285). -/
def State.isRoot (s : State) (t : Nat) : Bool := s.on Reg.LCK_TREE_DATA_root (17 * t)

/-- Tenant t's partition spans other devices. -/
def State.multi (s : State) (t : Nat) : Bool := decide (1 < (s.part t).hdr.deviceCount)

/-- Raise an alarm of this device (R485 to R489). -/
def State.alarm (s : State) (owner source code data : Nat) : State :=
  let p := s.stamp owner
  let e : Event := { cls := 0, owner := owner, source := source, code := code, count := 1, data := data % 2 ^ 36,
                     merged := false, pound := p.1, dcycle := p.2, time := s.power.time,
                     origin := s.rg Reg.AQ_DEVID_devid,
                     fwd := b2n (decide (owner < 16) && s.multi owner && !s.isRoot owner && s.on Reg.WEIR_CTRL_fwd) }
  (s.enterAlarm e).ringAlarm e

/-- Source number of an instance of a block (R480). -/
def srcOf (block inst : Nat) : Nat := block * 4096 + inst

/-- Blocks of an owner with a nonzero marker total, in ascending order. -/
def State.owed (s : State) (owner : Nat) : List Nat := which 16 fun b => s.weir.totals.get (16 * owner + b) 0 ≠ 0

/-- Tokens that an owner may spend: none where its rate is 0, which passes no logs (WEIR_BKT). -/
def State.logTokens (s : State) (owner : Nat) : Nat :=
  if s.rg Reg.WEIR_BKT_rate owner = 0 then 0 else s.rg Reg.WEIR_BKT_tokens owner

/-- One marker of dropped logs: it spends a token, enters the ring and resets its total. Without a token or room in the ring the
total stays (R491; log entry 30). -/
def State.marker (owner b : Nat) (s : State) : State :=
  if s.logTokens owner = 0 ∨ s.on Reg.WEIR_CTRL_ring_en = false then s
  else
    let p := s.stamp owner
    let k := 16 * owner + b
    let e : Event := { cls := 3, owner := owner, source := srcOf 13 0, code := 0x300,
                       count := min 65535 (s.weir.totals.get k 0), data := b, merged := false, pound := p.1, dcycle := p.2,
                       time := s.power.time, origin := 0 }
    match s.ringTry 1 with
    | (true, s) =>
      let s := (s.setRg Reg.WEIR_BKT_tokens owner (s.rg Reg.WEIR_BKT_tokens owner - 1)).ringWrite e
      { s with weir := { s.weir with totals := s.weir.totals.del k } }
    | (false, s) => s

/-- The markers that an owner's tokens allow. -/
def State.markers (s : State) (owner : Nat) : State := each (s.owed owner) (State.marker owner) s

/-- Count a log record that is dropped (R491). -/
def State.dropLog (s : State) (b : Nat) : State :=
  let s := s.count Reg.WEIR_DROPb_drops b 1
  { s with weir := { s.weir with totals := s.weir.totals.put b (s.weir.totals.get b 0 + 1) } }

/-- Write a log record, behind the markers that are owed, or drop it and count the drop. With the ring off a record still spends its token,
and is written nowhere (R481, R490, R491; log entry 30). -/
def State.log (s : State) (owner source code data : Nat) : State :=
  let p := s.stamp owner
  let e : Event := { cls := 1, owner := owner, source := source, code := code, count := 1, data := data % 2 ^ 36,
                     merged := false, pound := p.1, dcycle := p.2, time := s.power.time, origin := 0 }
  let b := owner * 16 + source / 4096
  let s := s.markers owner
  if s.logTokens owner = 0 then s.dropLog b
  else
    let s := s.setRg Reg.WEIR_BKT_tokens owner (s.rg Reg.WEIR_BKT_tokens owner - 1)
    if s.on Reg.WEIR_CTRL_ring_en = false then s
    else match s.ringTry 1 with
      | (true, s) => s.ringWrite e
      | (false, s) => s.dropLog b

/-- A trace record is dropped: the first of a gap opens it (R492). -/
def State.dropTrace (s : State) : State :=
  match s.weir.gap with
  | none =>
    let s := (s.count Reg.WEIR_TRC_STAT_gaps 0 1).count Reg.WEIR_TRC_STAT_dropped 0 1
    { s with weir := { s.weir with gap := some (s.power.time, 1) } }.cause .weir Reg.WEIR_CAUSE_trace_gap
  | some g => { s.count Reg.WEIR_TRC_STAT_dropped 0 1 with weir := { s.weir with gap := some (g.1, g.2 + 1) } }

/-- The write queue takes a trace record, where it is not full. With fewer than 64 records since time last moved it is not; else it may be,
and whether it is is free (R481; log entry 5). -/
def State.queueTakes (s : State) : Bool × State :=
  if s.weir.inQueue < 64 then (true, { s with weir := { s.weir with inQueue := s.weir.inQueue + 1 } })
  else (!Config.freeBit s.freeCtr, { s with freeCtr := s.freeCtr + 1 })

/-- Write a trace record, with its gap marker, or drop it where the write queue or the ring is full (R481, R492). -/
def State.trace (s : State) (owner source code data : Nat) : State :=
  let p := s.stamp owner
  let e : Event := { cls := 2, owner := owner, source := source, code := code, count := 1, data := data % 2 ^ 36,
                     merged := false, pound := p.1, dcycle := p.2, time := s.power.time, origin := 0 }
  if s.on Reg.WEIR_CTRL_ring_en = false then s
  else match s.queueTakes with
    | (false, s) => s.dropTrace
    | (true, s) => match s.weir.gap with
      | none => match s.ringTry 1 with
        | (true, s) => s.ringWrite e
        | (false, s) => s.dropTrace
      | some g => match s.ringTry 2 with
        | (true, s) =>
          let m : Event := { e with cls := 3, source := srcOf 13 0, code := 0x301, count := min 65535 g.2, data := 0,
                                    time := g.1 }
          { (s.ringWrite m).ringWrite e with weir := { s.weir with gap := none } }
        | (false, s) => s.dropTrace

/-! ### Fault accounting -/

/-- A unit has gone behind its stop planks: the alarm that names it (R331, R485). It carries block 9 and the class as its source
(log entry 32). -/
def State.unitRetired (s : State) (cls inst unit : Nat) : State :=
  s.alarm 16 (srcOf 9 cls) 0x003 (cls + inst % 512 * 16 + unit % 2 ^ 23 * 2 ^ 13)

/-- Append to the error log of 64 entries, or count the loss; an entry raises source 57 and a log record (R345, R490). -/
def State.elog (s : State) (e : ElogEntry) : State :=
  if s.tst.elog.length < 64 then
    let s := { s with tst := { s.tst with elog := s.tst.elog ++ [e] } }
    let s := s.setRg Reg.TST_ELOG_STAT_entries 0 s.tst.elog.length
    (s.log 16 (srcOf 9 e.cls) 0x103 (b2n e.uc * 2 ^ 15 + e.source * 2 ^ 13 + e.cls * 2 ^ 9 + e.inst)).edge 57
  else s.count Reg.TST_ELOG_STAT_lost 0 1

/-- The threshold of a class; 0 acts as 1 (R324). -/
def State.threshold (s : State) (cls : Nat) : Nat := max 1 (s.tst.thresholds.get cls 255)

/-- The bucket of an instance. -/
def State.bucket (s : State) (cls inst : Nat) : Nat := s.tst.buckets.get (cls * 512 + inst) 0

/-- A fault was found: it is logged, with source 2 when it is the armed flip's, and its bucket gains 1 or 64. A bucket that
reaches the threshold logs a full event and raises source 57, even where the log is full (R324, R346). -/
def State.tally (s : State) (uc : Bool) (source cls inst addr : Nat) : State :=
  let mine := s.tst.flipped = some (cls, inst, addr) ∧ s.on Reg.TST_FLIP_fired
  let s := if mine then { s with tst := { s.tst with flipped := none } } else s
  let old := s.bucket cls inst
  let new := satAdd 255 old (if uc then 64 else 1)
  let s := s.elog { uc := uc, source := if mine then 2 else source, cls := cls, inst := inst, addr := addr }
  let s := { s with tst := { s.tst with buckets := s.tst.buckets.put (cls * 512 + inst) new } }
  if old < s.threshold cls ∧ s.threshold cls ≤ new then
    let room := decide (s.tst.elog.length < 64)
    let s := s.elog { uc := uc, source := 3, cls := cls, inst := inst, addr := addr }
    if room then s else s.edge 57
  else s

/-- The armed flip, if it is armed for this class and instance (R346). -/
def State.flipArmed (s : State) (cls inst : Nat) : Bool :=
  s.on Reg.TST_FLIP_arm && decide (s.rg Reg.TST_FLIP_SEL_class = cls) && decide (s.rg Reg.TST_FLIP_SEL_instance = inst)

/-- A unit of w data bits, its parity in bit w, on its way into a memory of a class: the armed flip alters it once, and the
device records where (R346). -/
def State.flip (s : State) (cls inst addr w x : Nat) : Nat × State :=
  if s.flipArmed cls inst then
    let m := s.rg Reg.TST_FLIP_mask
    let m' := m % 2 ^ 12 % 2 ^ w + b2n (bit m 12) * 2 ^ w
    let s := (s.setRg Reg.TST_FLIP_arm 0 0).setRg Reg.TST_FLIP_fired 0 1
    (Nat.xor x m', { s with tst := { s.tst with flipped := some (cls, inst, addr) } })
  else (x, s)

/-- A cell of a keeper's local data as a unit of class 8. The manual gives TST_ELOG_B no layout for that class. -/
def unitData (a : Nat) : Nat := 0x10000 + a

/-- A 12-bit cell stored with fresh parity, under the armed flip. -/
def State.flipCell (s : State) (cls inst addr : Nat) (c : Cell) : SCell × State :=
  let r := s.flip cls inst addr 12 (store c).toNat
  (BitVec.ofNat 13 r.1, r.2)

end Sys2Proof.Machine
end

