-- ==== Sys2Proof/Machine/HostOps.lean ====
section
/-!
DEFINITION. Sys2Proof/Machine/HostOps.lean: the host-memory queues and what the device posts to them (R424 to R444), and the
partition mode (R508).
-/
namespace Sys2Proof.Machine

/-- Number of the queue or area of a kind in a function's page. -/
def qid (fn kind : Nat) : Nat := 8 * fn + kind

/-- Host base address of a queue or area. -/
def State.qbase (s : State) (q : Nat) : Nat := s.rg Reg.WHF_QBASE_LO_addr q + 2 ^ 32 * s.rg Reg.WHF_QBASE_HI_addr q

/-- 2^n entries (R424). -/
def State.qlen (s : State) (q : Nat) : Nat := 2 ^ s.rg Reg.WHF_QCFG_size_log2 q

/-- The host's index of a queue or area: bits above size_log2 are ignored (R454). -/
def State.qhead (s : State) (fn kind : Nat) : Nat :=
  (match kind with
    | 0 => s.rg Reg.WHF_SQ_TAIL_index fn
    | 1 => s.rg Reg.WHF_CQ_HEAD_index fn
    | 2 => s.rg Reg.WHF_FQ_HEAD_index fn
    | 3 => s.rg Reg.WHF_OQ_HEAD_index fn
    | 4 => s.rg Reg.WHF_AREA_HEAD_export fn
    | _ => s.rg Reg.WHF_AREA_HEAD_log fn) % s.qlen (qid fn kind)

/-- Entries or pages the device has written and the host has not consumed. -/
def State.qused (s : State) (fn kind : Nat) : Nat :=
  let q := qid fn kind
  (s.rg Reg.WHF_QCFG_dptr q + s.qlen q - s.qhead fn kind) % s.qlen q

/-- A device-written queue takes an entry now: enabled, a slot free, its function in D0 (R426, R453). -/
def State.qopen (s : State) (fn kind : Nat) : Bool :=
  s.on Reg.WHF_QCFG_enable (qid fn kind) && decide (s.qused fn kind + 1 < s.qlen (qid fn kind)) && !(s.fn fn).d3hot

/-- A write the device makes to host memory. -/
def State.hostPut (s : State) (addr : Nat) (l : List Byte) : State := { s with hostOut := s.hostOut ++ [⟨addr, l, false⟩] }

/-- The byte that holds an entry's phase in its top bit. -/
def phaseByte (kind : Nat) : Nat := if kind = 1 then 0x07 else if kind = 2 then 0x1B else 0x0B

/-- The MSI-X vector of a queue kind (R444). -/
def vecOf (kind : Nat) : Nat := kind - 1

/-- An entry of a batch: the message goes at once, or the batch coalesces (R444). -/
def State.batch (s : State) (fn v : Nat) : State :=
  if s.rg Reg.WHF_TCTRL_coalesce fn = 0 then s.msixSend fn v
  else
    let x := s.msix.get (16 * fn + v) {}
    { s with msix := s.msix.put (16 * fn + v) { x with batch := true } }

/-- Write one entry with its phase and alive CRC, and advance (R425, R426). -/
def State.qwrite (s : State) (fn kind : Nat) (e : Entry) : State :=
  let q := qid fn kind
  let x := s.queue q
  let i := s.rg Reg.WHF_QCFG_dptr q
  let body := if x.phase then e.bytes.modify (phaseByte kind) (· ||| 0x80#8) else e.bytes
  let out := body ++ leBytes 4 (crcAlive x.ordinal body)
  let s := s.hostPut (s.qbase q + i * out.length) out
  let s := s.setRg Reg.WHF_QCFG_dptr q ((i + 1) % s.qlen q)
  let s := s.setQueue q { x with ordinal := (x.ordinal + 1) % 4096,
                                 phase := if i + 1 = s.qlen q then !x.phase else x.phase }
  let s := s.batch fn (vecOf kind)
  if kind = 1 ∧ e.bytes[3]?.getD 0 = 4#8 then s.msixSend fn 3 else s

/-- Write an entry now, or hold it behind the entries already held (R427). -/
def State.post (s : State) (fn kind : Nat) (e : Entry) : State :=
  let x := s.queue (qid fn kind)
  if s.qopen fn kind ∧ x.held = [] then s.qwrite fn kind e
  else s.setQueue (qid fn kind) { x with held := x.held ++ [e] }

/-- A completion or a notice (R439). -/
def State.complete (s : State) (t cmdId status kind r0 r1 r2 : Nat) : State :=
  s.post t 1 ⟨leBytes 2 cmdId ++ leBytes 1 status ++ leBytes 1 kind ++ leBytes 2 (s.rg Reg.WHF_QCFG_dptr (qid t 0)) ++
    leBytes 2 0 ++ leBytes 8 r0 ++ leBytes 8 r1 ++ leBytes 4 r2⟩

/-- The completion of a command (kind 0). -/
def State.finish (s : State) (t : Nat) (cmdId : BitVec 16) (status : Nat) (r0 r1 : Nat := 0) : State :=
  s.complete t cmdId.toNat status 0 r0 r1 0

/-- Write bytes into consecutive pages of an area from its tail; none when too few pages are free (R440). -/
def State.areaPut (s : State) (t kind : Nat) (l : List Byte) : Option State :=
  let q := qid t kind
  let n := (l.length + 4095) / 4096
  let i := s.rg Reg.WHF_QCFG_dptr q
  if s.on Reg.WHF_QCFG_enable q = false ∨ (s.queue q).bound = false ∨ s.qlen q < s.qused t kind + n + 1 ∨ (s.fn t).d3hot then none
  else
    let out := (List.range n).map fun k =>
      ({ addr := s.qbase q + 8 * ((i + k) % s.qlen q), bytes := (l.drop (4096 * k)).take 4096, page := true } : HostWrite)
    some ({ s with hostOut := s.hostOut ++ out }.setRg Reg.WHF_QCFG_dptr q ((i + n) % s.qlen q))

/-- The fault entry of a fault (R441). -/
def State.faultEntry (s : State) (t : Nat) (f : FaultRec) : Entry :=
  ⟨leBytes 2 f.type ++ leBytes 2 (min f.count 65535) ++ leBytes 4 (s.rg Reg.LCK_CKPTt_newest t) ++ leBytes 8 f.record ++
    leBytes 8 (s.part t).hdr.imageId ++ leBytes 2 f.detail ++ leBytes 2 0⟩

/-- Hold a fault: up to 64, then merge into an equal one or into the newest. The flag says that it merged into the newest
(R443; log entry 88). -/
def holdFault (l : List FaultRec) (f : FaultRec) : List FaultRec × Bool :=
  if l.length < 64 then (l ++ [f], false)
  else if l.any fun x => x.type = f.type ∧ x.record = f.record then
    (l.map fun x => if x.type = f.type ∧ x.record = f.record then { x with count := satAdd 65535 x.count f.count } else x,
      false)
  else (l.dropLast ++ (l.getLast?.map fun x => { x with count := satAdd 65535 x.count f.count }).toList, true)

/-- Post a fault to a tenant's fault queue, or hold it (R441 to R443). -/
def State.postFault (s : State) (t type record detail : Nat) (n : Nat := 1) : State :=
  let f : FaultRec := ⟨type, n, record % 2 ^ 64, detail⟩
  let s := if type = 7 then (s.setRg Reg.WHF_TSTAT_qerr t 1).edge (112 + t) else s
  let held := s.faults.get t []
  if s.qopen t 2 ∧ held = [] then s.qwrite t 2 (s.faultEntry t f)
  else
    let r := holdFault held f
    let s := { s with faults := s.faults.put t r.1 }
    if r.2 then s.setRg Reg.WHF_TSTAT_fq_merged t 1 else s

/-- Change a partition's mode; a change makes a trace record of code 0x201 (R492, R508). -/
def State.setMode (s : State) (t m : Nat) : State :=
  if s.pmode t = m then s
  else (s.setRg Reg.WHF_TSTAT_mode t m).trace t (srcOf 4 t) 0x201 m

end Sys2Proof.Machine
end

