-- ==== Sys2Proof/Machine/Send.lean ====
section
/-!
DEFINITION. Sys2Proof/Machine/Send.lean: barges and what the device originates on its links (R227, R228, R236, R242, R245,
R252 to R254).
-/
namespace Sys2Proof.Machine

/-! ### Barges -/

/-- Cell k of a barge (R227). -/
def bcell (b : Barge) (k : Nat) : Nat := b.toNat / 4096 ^ k % 4096

/-- A barge from its cells. -/
def bargeOf (l : List Nat) : Barge := BitVec.ofNat 384 (l.foldr (fun c v => c % 4096 + 4096 * v) 0)

/-- CRC-32C over bits [351:0], taken as 44 bytes (R228). -/
def bargeCrc (b : Barge) : Nat := crcOf 0 (leBytes 44 (b.toNat % 2 ^ 352))

/-- The barge with its CRC (R227). -/
def withCrc (b : Barge) : Barge := BitVec.ofNat 384 (b.toNat % 2 ^ 352 + bargeCrc b * 2 ^ 352)

/-- The CRC passes. -/
def crcOk (b : Barge) : Bool := decide (b.toNat / 2 ^ 352 = bargeCrc b)

/-- The barge under a sequence number and a replay round, with its CRC. -/
def sealBarge (b : Barge) (seq round : Nat) : Barge :=
  let p := b.toNat / 4096 % 2 ^ 336
  withCrc (BitVec.ofNat 384 (seq % 4096 + p * 4096 + round % 16 * 2 ^ 348))

/-- Header cell 1 of a sequenced barge. -/
def hdrCell (vc kind count : Nat) : Nat := vc % 4 * 512 + kind % 16 * 32 + count % 32

def bLink (b : Barge) : Bool := bit (bcell b 1) 11
def bVc (b : Barge) : Nat := bits (bcell b 1) 9 2
def bKind (b : Barge) : Nat := bits (bcell b 1) 5 4
def bCount (b : Barge) : Nat := bits (bcell b 1) 0 5
def bEcho (b : Barge) : Nat := bits (bcell b 29) 0 4

/-- A sequenced barge: VC, kind, count, destination, source, spn, then the record cells from cell 5 (R242). -/
def seqBarge (vc kind count dest src spn : Nat) (body : List Nat) : Barge :=
  bargeOf ([0, hdrCell vc kind count, dest, src, spn] ++ body)

/-- A link barge: ack, kind, payload cells from cell 2, and the sender's replay round (R227, R229). -/
def linkBarge (ack kind : Nat) (body : List Nat) (round : Nat := 0) : Barge :=
  sealBarge (bargeOf ([0, 2048 + kind % 16 * 32] ++ body)) ack round

/-! ### Routes -/

/-- This device's ID. -/
def State.devid (s : State) : Nat := s.rg Reg.AQ_DEVID_devid

/-- Link l is Active. -/
def State.active (s : State) (l : Nat) : Bool := decide (s.rg Reg.AQ_STATUS_state l = 6)

/-- Candidate links of an entry that are valid, in order primary, bywash1, bywash2 (R252). -/
def State.candidates (s : State) (d : Nat) : List Nat :=
  let c0 := Mem.get s.routes (2 * d)
  let c1 := Mem.get s.routes (2 * d + 1)
  let v := c1.toNat
  if !(parityOk c0 && parityOk c1) then []
  else (if v.testBit 0 then [bits c0.toNat 0 4] else []) ++ (if v.testBit 1 then [bits c0.toNat 4 4] else []) ++
    (if v.testBit 2 then [bits c0.toNat 8 4] else [])

/-- The link of the active route to a device (R253); an entry that fails parity is unreachable (R319). -/
def State.route (s : State) (d : Nat) : Option Nat := (s.candidates d).find? s.active

/-- The escape link of an entry. -/
def State.escapeLink (s : State) (d : Nat) : Nat := bits (Mem.get s.routes (2 * d + 1)).toNat 8 4

/-- The link on whose AQ_CAUSE an unreachable destination of local traffic is reported: the entry's primary link (log
entry 7). -/
def State.blame (s : State) (d : Nat) : Nat := bits (Mem.get s.routes (2 * d)).toNat 0 4

/-! ### Queues to the links -/

/-- Message types of a lock flight or a stop (R286, R445). -/
def flightOrStop (type : Nat) : Bool := (decide (0x010 ≤ type) && decide (type ≤ 0x017)) || decide (type = 0x020) || decide (type = 0x021)

/-- VC2 of a link with one more barge: a lock-flight or stop message passes the ALARM messages that wait (R489; log entry 87). -/
def towpathWith (q : List Waiting) (w : Waiting) : List Waiting :=
  let late := fun (v : Waiting) => flightOrStop (bcell w.barge 5) && decide (bcell v.barge 5 = 0x030)
  q.filter (fun v => !late v) ++ [w] ++ q.filter late

/-- Put a waiting barge behind the others of its VC (R237), in VC2 before the alarms that it passes. -/
def State.queueWaiting (s : State) (l : Nat) (w : Waiting) : State :=
  s.modLnk l fun x => match bVc w.barge with
    | 0 => { x with q0 := x.q0 ++ [w] }
    | 1 => { x with q1 := x.q1 ++ [w] }
    | 2 => { x with q2 := towpathWith x.q2 w }
    | _ => { x with q3 := x.q3 ++ [w] }

/-- Put a barge behind the others of its VC (R237). -/
def State.queueBarge (s : State) (l : Nat) (b : Barge) (src : Nat := 16) : State := s.queueWaiting l ⟨src, b, bVc b⟩

/-- The link that a barge goes out on: the active route, or for VC3 the escape link of an entry that is not unreachable, even one
that is down, where the barge waits (R241, R253, R254, R342). -/
def State.outLink (s : State) (b : Barge) : Option Nat :=
  let d := bcell b 2
  (s.route d).map fun l => if bVc b = 3 then s.escapeLink d else l

/-- A route entry at use. One that fails parity is counted, and keeper 0 rewrites it from its copy (R319, R326; log entry 71). -/
def State.healRoute (s : State) (d : Nat) : State :=
  if parityOk (Mem.get s.routes (2 * d)) && parityOk (Mem.get s.routes (2 * d + 1)) then s
  else
    let l := Mem.getRun s.routesCopy (2 * d) 2
    let x := (s.tally false 0 10 0 d).flipCell 10 0 d ((l.head?).getD 0)
    { x.2 with routes := Mem.putRun x.2.routes (2 * d) (x.1 :: l.tail.map store) }

/-- A barge that cannot be routed is discarded (R254). -/
def State.discard (s : State) (blame : Nat) (b : Barge) : State :=
  let d := bcell b 2
  let s := (s.cause (.link blame) Reg.AQ_CAUSE_unreachable blame).healRoute d
  if bVc b = 2 then s.alarm 16 (srcOf 3 blame) 0x007 (d + bcell b 5 * 4096) else s

/-- Send a barge on the route to its destination, or discard it as unreachable. One for this device is delivered here, and the
entry of its own ID is not used (R252, R254). -/
def State.emit (s : State) (blame : Nat) (b : Barge) (src : Nat := 16) : State :=
  if bcell b 2 = s.devid then { s with ownBarges := s.ownBarges ++ [b] }
  else match s.outLink b with
    | some l => s.queueBarge l b src
    | none => s.discard blame b

/-- spn of a tenant's partition, 0 for none. -/
def State.spn (s : State) (t : Nat) : Nat := s.rg Reg.AQ_SPNt_spn t

/-- The tenant whose loaded partition holds an spn (R243). A directory entry that fails parity names none (R319; log entry 71). -/
def State.tenantOf (s : State) (spn : Nat) : Option Nat :=
  (List.range 16).find? fun t => decide (spn ≠ 0) && decide (s.spn t = spn) && s.loaded t && !s.spnBad.contains t

/-- Where the spn entry of a tenant lies in class 10, past the route entries (R346; log entry 71). -/
def spnUnit (t : Nat) : Nat := 4096 + t

/-- Write an entry of the spn directory, under the armed flip; keeper 0 keeps a copy (R320, R346). -/
def State.putSpn (s : State) (t v : Nat) : State :=
  let d := s.flipCell 10 0 (spnUnit t) (BitVec.ofNat 12 v)
  let s := d.2.setRg Reg.AQ_SPNt_spn t (cellOf d.1).toNat
  let bad := s.spnBad.filter (· ≠ t)
  { s with spnBad := if parityOk d.1 then bad else t :: bad, spnCopy := s.spnCopy.put t (v % 4096) }

/-- The spn directory at use: each entry that fails parity is counted, by a record or by the dredger, and keeper 0 writes it again
from its copy (R319, R326; log entry 71). -/
def State.healSpn (s : State) (via t : Nat) : State := (s.tally false via 10 0 (spnUnit t)).putSpn t (s.spnCopy.get t 0)
def State.healSpns (s : State) : State := s.spnBad.foldl (fun s t => s.healSpn 0 t) s

/-- Send one barge of this device's own. In Repair no VC0 or VC1 traffic originates (R505; log entry 85). -/
def State.sendBarge (s : State) (vc kind count dest spn : Nat) (body : List Nat) : State :=
  if s.mode = 3 ∧ vc ≤ 1 then s
  else s.emit (s.blame dest) (seqBarge vc kind count dest s.devid spn body)

/-- A routed VC2 message of tenant t's partition: the alive cell rises with each (R245). -/
def State.message (s : State) (t dest type : Nat) (body : List Nat) : State :=
  let s := { s with aliveOwn := (s.aliveOwn + 1) % 4096 }
  s.sendBarge 2 0 1 dest (s.spn t) ([type, s.aliveOwn] ++ body)

/-- A VC0 value record (R242). -/
def State.sendValue (s : State) (t dest berth tag value rel parity epoch : Nat) : State :=
  s.sendBarge 0 0 1 dest (s.spn t) [berth, tag, value, rel * 128 + parity * 64 + epoch * 16]

/-- A VC0 clear record (R242). -/
def State.sendClear (s : State) (t dest tag parity epoch : Nat) : State :=
  s.sendBarge 0 1 1 dest (s.spn t) [tag, parity * 64 + epoch * 16]

/-! ### The lock tree -/

/-- The parent device, if any (R284). -/
def State.parent (s : State) (t : Nat) : Option Nat :=
  if s.on Reg.LCK_TREE_DATA_valid (17 * t) then some (s.rg Reg.LCK_TREE_DATA_device (17 * t)) else none

/-- The children. -/
def State.children (s : State) (t : Nat) : List Nat :=
  (which 16 fun i => s.on Reg.LCK_TREE_DATA_valid (17 * t + 1 + i)).map fun i =>
    s.rg Reg.LCK_TREE_DATA_device (17 * t + 1 + i)

/-- The tree neighbours. -/
def State.neighbours (s : State) (t : Nat) : List Nat := (s.parent t).toList ++ s.children t

/-- Send one message to each device of a list. -/
def State.broadcast (s : State) (t : Nat) (l : List Nat) (type : Nat) (body : List Nat) : State :=
  l.foldl (fun s d => s.message t d type body) s

/-- A 24-bit number as two cells, low first (R286). -/
def two (v : Nat) : List Nat := [v % 4096, v / 4096 % 4096]

/-- The epoch of a partition. -/
def State.epoch (s : State) (t : Nat) : Nat := s.rg Reg.LCK_STATUSt_epoch t

/-- The phase of a partition's lock unit. -/
def State.phase (s : State) (t : Nat) : Nat := s.rg Reg.LCK_STATUSt_phase t

/-- The partition is suspended (R309). -/
def State.suspended (s : State) (t : Nat) : Bool := decide (s.pmode t = 7)

end Sys2Proof.Machine
end

