-- ==== Sys2Proof/Machine/Gauges.lean ====
section
/-!
DEFINITION. Sys2Proof/Machine/Gauges.lean: gauges (R493 to R497) and the input log's records and horizon (R296 to R298), which
a step consults.
-/
namespace Sys2Proof.Machine

/-- A value that a step produced for the gauges of a reach: watch kind, position, c, value (R493). -/
structure Seen where
  reach : Nat
  kind : Nat
  position : Nat
  c : Nat
  value : Cell
  deriving DecidableEq, Repr

/-- v op ref under the mask; `prev` is the previous value watched (R494). -/
def gaugeMatch (op : Nat) (v ref : Cell) (prev : Option Cell) : Bool :=
  match op with
  | 0 => decide (v = ref)
  | 1 => decide (v ≠ ref)
  | 2 => decide (v.toNat < ref.toNat)
  | 3 => decide (ref.toNat ≤ v.toNat)
  | 4 => match prev with
    | some p => decide (v ≠ p)
    | none => false
  | 5 => true
  | _ => false

/-- Gauge i of reach r watches this value. -/
def State.watches (s : State) (r i : Nat) (x : Seen) : Bool :=
  let g := 16 * r + i
  s.on Reg.GAU_CFG_en g && decide (s.rg Reg.GAU_WATCH_kind g = x.kind) &&
    (decide (x.kind = 3) || (decide (s.rg Reg.GAU_WATCH_c g = x.c) &&
      (decide (x.kind ≠ 0) || decide (s.rg Reg.GAU_WATCH_position g = x.position))))

/-- The gauge is armed (R494). -/
def State.armed (s : State) (r i : Nat) : Bool :=
  let ch := s.rg Reg.GAU_CFG_chain (16 * r + i)
  decide (ch = 0) || (s.rch r).gaugeFired.contains (ch - 1)

/-- Offer one value to gauge i of its reach. -/
def State.offer (x : Seen) (i : Nat) (a : State × List Fire) : State × List Fire :=
  let s := a.1
  let r := x.reach
  let g := 16 * r + i
  if s.watches r i x = false then a
  else
    let mask := BitVec.ofNat 12 (s.rg Reg.GAU_REF_mask g)
    let v := x.value &&& mask
    let hit := gaugeMatch (s.rg Reg.GAU_CFG_op g) v (BitVec.ofNat 12 (s.rg Reg.GAU_REF_ref g) &&& mask)
      ((s.rch r).gaugePrev.find i)
    let s := s.modRch r fun y => { y with gaugePrev := y.gaugePrev.put i v }
    if hit && s.armed r i then
      let n := s.rg Reg.GAU_CNT_count g + 1
      if max 1 (s.rg Reg.GAU_CFG_threshold g) ≤ n then (s.setRg Reg.GAU_CNT_count g 0, a.2 ++ [⟨r, i, x.value⟩])
      else (s.setRg Reg.GAU_CNT_count g n, a.2)
    else (s, a.2)

/-- Offer a step's values to the gauges. -/
def State.watch (s : State) (l : List Seen) : State × List Fire :=
  l.foldl (fun a x => each (List.range 16) (State.offer x) a) (s, [])

/-! ### The horizon -/

/-- Pound a comes before pound b, in the 24-bit count that wraps. -/
def poundLt (a b : Nat) : Bool := decide (0 < subMod 24 b a) && decide (subMod 24 b a < 2 ^ 23)

/-- The current pound and design cycle. -/
def State.pound (s : State) (t : Nat) : Nat := s.rg Reg.LCK_POUNDt_pound t
def State.dcycle (s : State) (t : Nat) : Nat := s.rg Reg.LCK_STATUSt_dcycle t

/-- The design cycle in progress is at or before the horizon in force (R298). -/
def State.beforeHorizon (s : State) (t : Nat) : Bool :=
  (s.part t).horizonOn && s.on Reg.LCK_STATUSt_reexec t &&
    (poundLt (s.pound t) (s.part t).horizonPound ||
      (decide (s.pound t = (s.part t).horizonPound) && decide (s.dcycle t ≤ s.rg Reg.LCK_HORIZONt_h t)))

/-- The log record of a source for a design cycle of the pound in progress (R296, R298). -/
def State.logged (s : State) (t kind source rel dcycle : Nat) : Option LogRec :=
  (s.part t).logNow.find? fun r =>
    decide (r.dcycle = dcycle) && decide (r.kind = kind) && decide (r.source = source) && decide (r.rel = rel)

/-! ### Actions -/

/-- A stop or hold of tenant t's partition on this device: at the next step boundary, or at the next design-cycle boundary
(R445, R447, R508). A step that waits is left incomplete, so a step boundary is here unless a cluster is in a refetch or a
trap (R448). -/
def State.requestHold (s : State) (t : Nat) (boundary : Bool) : State :=
  let x := s.part t
  s.setPart t { x with holdReq := some (boundary && x.holdReq != some false) }

/-- Keep an id among the 16 newest (R446). -/
def keepId (l : List Nat) (id : Nat) : List Nat := (id :: l).take 16

/-- STOP of an id: recorded, the partition stopped, the message forwarded to every tree neighbour but the sender (R445,
R446). -/
def State.stopPart (s : State) (t id : Nat) (boundary : Bool) (sender : Option Nat) : State :=
  let x := s.part t
  if x.stopIds.contains id ∨ x.goIds.contains id then s
  else
    let s := s.setPart t { x with stopIds := keepId x.stopIds id }
    let s := s.broadcast t ((s.neighbours t).filter fun d => some d ≠ sender) 0x020 [id, b2n boundary]
    if s.suspended t ∨ s.pmode t = 0 then s
    else ((s.modPart t fun y => { y with stopOwed := some id }).setRg Reg.WHF_STOP_STAT_id t id).requestHold t boundary

/-- The next id that the device draws for a partition (R495). -/
def State.drawId (s : State) (t : Nat) : Nat × State :=
  let x := s.part t
  (0xF00 + x.nextId % 256, s.setPart t { x with nextId := (x.nextId + 1) % 256 })

/-- Partition-relative index of a physical reach. -/
def State.rel (s : State) (r : Nat) : Nat := s.rg Reg.RCH_OWNER_rel_reach r

/-- A before b: higher priority, or equal priority and a lower number (R496). -/
def State.outranks (s : State) (a b : Fire) : Bool :=
  let p := fun (f : Fire) => s.rg Reg.GAU_CFG_priority (16 * f.reach + f.index)
  let n := fun (f : Fire) => 16 * s.rel f.reach + f.index
  decide (p b < p a) || (decide (p a = p b) && decide (n a < n b))

/-- Record the fire of one gauge (R496, GAU_MATCH, GAU_CAUSE). -/
def State.recordFire (step : Nat) (s : State) (f : Fire) : State :=
  let old := s.rg Reg.GAU_MATCH_fired f.reach
  let s := if old = 0 then s.setRg Reg.GAU_MATCH_step f.reach step else s
  let s := s.setRg Reg.GAU_MATCH_fired f.reach (Nat.lor old (2 ^ f.index))
  let s := s.modRch f.reach fun y => { y with gaugeFired := if y.gaugeFired.contains f.index then y.gaugeFired
                                                            else f.index :: y.gaugeFired }
  s.cause (.gauge f.reach) Reg.GAU_CAUSE_fired f.reach

/-- Take the acting gauge's action (R495 to R497). -/
def State.gaugeAct (s : State) (t : Nat) (f : Fire) (fires : List Fire) : State :=
  let rel := s.rel f.reach
  let vector := ((fires.filter fun x => x.reach = f.reach).map fun x => 2 ^ x.index).foldl Nat.lor 0
  let data := f.index + rel * 16 + vector * 2 ^ 9 + f.value.toNat % 2048 * 2 ^ 25
  let source := srcOf 10 (16 * rel + f.index)
  let replay := decide (s.pmode t = 5)
  let old := s.beforeHorizon t
  match s.rg Reg.GAU_CFG_action (16 * f.reach + f.index) with
  | 1 => s.trace t source 0x200 data
  | 2 => if replay then s.trace t source 0x200 data else if old then s else s.alarm t source 0x009 data
  | 3 => if old && !replay then s else
    let d := s.drawId t
    d.2.stopPart t d.1 true none
  | 4 => if old && !replay then s else
    let d := s.drawId t
    d.2.stopPart t d.1 false none
  | _ => s

/-- Resolve the gauges that fired on one step of a partition (R496). -/
def State.resolveFires (s : State) (t step : Nat) (fires : List Fire) : State :=
  let s := fires.foldl (State.recordFire step) s
  match fires.find? fun f => fires.all fun g => (decide (f.reach = g.reach) && decide (f.index = g.index)) || s.outranks f g with
  | some f => s.gaugeAct t f fires
  | none => s

end Sys2Proof.Machine
end

