-- ==== Sys2Proof/Machine/Dmem.lean ====
section
/-!
DEFINITION. Sys2Proof/Machine/Dmem.lean: design memory as its rules make it visible (R153 to R167): regions, the coherent value
of a word, what a read takes, and when a buffered write applies.
-/
namespace Sys2Proof.Machine

/-- The latency L (R160). -/
def dmemL : Nat := 24

/-- The region of a number (R155). -/
def Part.region (x : Part) (id : Nat) : Option Region := x.regions.find? fun r => decide (r.id = id)

/-- The home of a region: its stack (R167, R170). -/
def Part.home (x : Part) (id : Nat) : Nat := ((x.region id).map (·.stack)).getD 0

/-- Steps closed at a home, and the closes a reach has received from it (R167). -/
def Part.fenceClosed (x : Part) (home : Nat) : Nat := if home = 0 then x.fenceClosed0 else x.fenceClosed1
def Reach.fenceSeen (x : Reach) (home : Nat) : Nat := if home = 0 then x.fenceSeen0 else x.fenceSeen1

/-- An access lies within its region, and a write within a writable one (R107, R156). -/
def Part.inRange (x : Part) (id addr : Nat) (write : Bool) : Bool :=
  match x.region id with
  | some r => decide (addr < r.size) && !(write && r.readOnly)
  | none => false

/-- The HBM byte address of a region's cell (R154, R159). -/
def Region.byte (r : Region) (addr : Nat) : Nat :=
  r.stack * 2 ^ 34 + (r.pages[addr / 2048]?).getD 0 * 4096 + addr % 2048 * 2

/-- The cache line that holds a byte. -/
def lineOf (byte : Nat) : Nat := byte / 64

/-- Where a word lies: its line and its place in the line. -/
structure WordAt where
  line : Nat
  idx : Nat
  byte : Nat
  deriving DecidableEq, Repr

def Part.wordAt (x : Part) (id addr : Nat) : WordAt :=
  match x.region id with
  | some r => { line := lineOf (r.byte addr), idx := addr % 32, byte := r.byte addr }
  | none => { line := 0, idx := 0, byte := 0 }

/-- The 32 halfwords of a line as HBM holds them. -/
def State.hbmLine (s : State) (line : Nat) : List (BitVec 16) :=
  (List.range 32).map fun i => BitVec.ofNat 16 (s.hbmHalf (line * 64 + 2 * i))

/-- Where a line lies in a reach cache, as the error log names it: set and way (R345). The way is not architectural; the line's
place among the lines held of its set stands for it. -/
def Reach.cacheAt (x : Reach) (line : Nat) : Nat :=
  line % 256 * 16 + ((x.cache.filter fun e => e.1 % 256 = line % 256).findIdx (·.1 = line)) % 16

/-- Halfwords on their way into a memory together: the flip meets the lowest-numbered cell (R346). -/
def State.flipLine (s : State) (cls inst addr : Nat) (l : List (BitVec 16)) : List (BitVec 16) × State :=
  match l with
  | [] => ([], s)
  | h :: rest =>
    let d := s.flip cls inst addr 12 h.toNat
    (BitVec.ofNat 16 d.1 :: rest, d.2)

/-- Write a line to HBM; class 6 takes the flip. -/
def State.putLine (s : State) (line : Nat) (l : List (BitVec 16)) : State :=
  let d := s.flipLine 6 (line / 2 ^ 28) (line % 2 ^ 28 / 64) l
  d.2.hbmPut (line * 64) (d.1.flatMap fun h => leBytes 2 h.toNat)

/-- The bytes of a page of design memory, by stack·2^22 + page; class 6 takes the flip in the first halfword. -/
def State.putPage (s : State) (p : Nat) (l : List Byte) : State :=
  let d := s.flip 6 (p / 2 ^ 22) (p % 2 ^ 22) 12 (sliceLe l 0 2)
  d.2.hbmPut (p * 4096) (leBytes 2 d.1 ++ l.drop 2)

/-- Pages of design memory are zero-filled. -/
def State.zeroPages (s : State) (pages : List Nat) : State :=
  let s := { s with hbm := Tbl.keep s.hbm fun a => !pages.contains (a / 4096) }
  pages.foldl (fun s p => if s.flipArmed 6 (p / 2 ^ 22) then s.putPage p [0, 0] else s) s

/-- The reach that holds a line dirty (R170). -/
def State.lineOwner (s : State) (line : Nat) : Option Nat :=
  (List.range 24).find? fun r => match (s.rch r).cache.find line with
    | some l => l.dirty
    | none => false

/-- A dirty line on its way home after its eviction (R173). -/
def State.evicted (s : State) (line : Nat) : Option (Nat × CacheLine) :=
  (List.range 24).findSome? fun r => match (s.rch r).writeback.find line with
    | some l => if l.dirty then some (r, l) else none
    | none => none

/-- A line on its way to the reach that will own it: the copy it came from is gone (R170). -/
def State.inTransit (s : State) (line : Nat) : Option (List (BitVec 16)) :=
  let d := s.dir.get line {}
  if d.st = .modified then d.data else none

/-- The line as it stands: the dirty owner's copy, else one in a writeback or on its way to an owner, else HBM's. -/
def State.coherentLine (s : State) (line : Nat) : List (BitVec 16) :=
  match s.lineOwner line with
  | some r => (((s.rch r).cache.find line).map (·.cells)).getD []
  | none => match s.evicted line with
    | some e => e.2.cells
    | none => (s.inTransit line).getD (s.hbmLine line)

/-- The stored cell of a word as it stands, without writes still buffered. -/
def State.wordNow (s : State) (w : WordAt) : SCell :=
  (((s.coherentLine w.line)[w.idx]?).getD 0).setWidth 13

/-- The stored cell that a read of reach r finds: in its own copy of the line, where it holds one (R164, R169). -/
def State.wordFor (s : State) (r : Nat) (w : WordAt) : SCell :=
  match (s.rch r).cache.find w.line with
  | some l => ((l.cells[w.idx]?).getD 0).setWidth 13
  | none => s.wordNow w

/-- Put a halfword into a reach's copy of a line. -/
def CacheLine.set (l : CacheLine) (i : Nat) (h : BitVec 16) : CacheLine := { l with cells := l.cells.set i h }

/-- Write a word where it stands: into the dirty owner's line, else into HBM; copies follow. Class 5 or 6 takes the flip
(R346). -/
def State.putWord (s : State) (w : WordAt) (c : Cell) : State :=
  let r := match s.lineOwner w.line with
    | some q => s.flipCell 5 q ((s.rch q).cacheAt w.line) c
    | none => s.flipCell 6 (w.byte / 2 ^ 34) (w.byte % 2 ^ 34 / 4096) c
  let s := r.2
  let h : BitVec 16 := r.1.setWidth 16
  let owned := (s.lineOwner w.line).isSome || (s.evicted w.line).isSome || (s.inTransit w.line).isSome
  let s := match (s.dir.get w.line {}).data with
    | some l => { s with dir := s.dir.put w.line { s.dir.get w.line {} with data := some (l.set w.idx h) } }
    | none => s
  let s := match s.evicted w.line with
    | some e => s.modRch e.1 fun x => { x with writeback := x.writeback.put w.line (e.2.set w.idx h) }
    | none => s
  let s := each (List.range 24) (fun q s =>
    match (s.rch q).cache.find w.line with
    | some l => s.modRch q fun x => { x with cache := x.cache.put w.line (l.set w.idx h) }
    | none => s) s
  if owned then s else s.hbmPut w.byte (leBytes 2 h.toNat)

/-- A write and its stamp, as one number that orders stamps (R165): step, reach, position, slot. -/
def WbEntry.stamp (e : WbEntry) (rel : Nat) : Nat := ((e.gstep * 24 + rel) * 17 + e.position) * 12 + e.slot

/-- Insert by rising stamp. -/
def insertStamp (x : Nat × Nat × WbEntry) : List (Nat × Nat × WbEntry) → List (Nat × Nat × WbEntry)
  | [] => [x]
  | y :: l => if x.1 < y.1 then x :: y :: l else y :: insertStamp x l

/-- The partition's writes to one word that its reaches still buffer, in stamp order: stamp, reach, entry. -/
def State.buffered (s : State) (t id addr : Nat) : List (Nat × Nat × WbEntry) :=
  ((s.part t).bound.flatMap fun r =>
    (((s.rch r).wb.filter fun e => e.region = id ∧ e.addr = addr).map fun e => (e.stamp (s.rel r), r, e))).foldl
      (fun l x => insertStamp x l) []

/-- The writes to one word that other reaches have applied within 24 steps of step g, newest first. -/
def State.recentOthers (s : State) (t r id addr g : Nat) : List WbEntry :=
  ((s.part t).bound.filter (· ≠ r)).flatMap fun q =>
    ((s.rch q).recent.filter fun e => e.region = id ∧ e.addr = addr ∧ g < e.gstep + 24).reverse

/-- A halfword of HBM as window space 2 reads it: in a page of a partition in Readback, with every write of the design cycle that has
ended (R499). -/
def State.readbackHalf (s : State) (byte : Nat) : Nat :=
  let page := byte / 4096
  let holds := fun (t : Nat) => decide (s.pmode t = 6) &&
    (s.part t).regions.any fun g => decide (g.stack = page / 2 ^ 22) && g.pages.contains (page % 2 ^ 22)
  match (List.range 16).find? holds with
  | none => s.hbmHalf byte
  | some t =>
    let l := (s.part t).bound.flatMap fun r => ((s.rch r).wb.filter fun e => ((s.part t).wordAt e.region e.addr).byte = byte / 2 * 2).map
      fun e => (e.stamp (s.rel r), r, e)
    match (l.foldl (fun l x => insertStamp x l) []).getLast? with
    | some x => (store x.2.2.value).toNat
    | none => (((s.coherentLine (lineOf byte))[byte % 64 / 2]?).getD 0).toNat

/-- What a read of reach r at step g takes. Writes of its own reach with an earlier stamp, and writes 24 or more steps older,
are seen; against a conflicting access the value is the old or the new one, which the manual leaves open (R165, R166). Free
choices are numbered from b on. -/
def State.dmemTake (s : State) (t r id addr g b : Nat) : SCell :=
  let w := (s.part t).wordAt id addr
  let base := (s.recentOthers t r id addr g).zipIdx.foldl
    (fun v e => if Config.freeBit (b + e.2) then store e.1.value else v) (s.wordFor r w)
  ((s.buffered t id addr).zipIdx.foldl (fun (a : SCell × Option (Nat × Nat)) e =>
    let q := e.1.2.1
    let x := e.1.2.2
    let sure := (decide (q = r) || decide (x.gstep + 24 ≤ g)) &&
      (match a.2 with
        | some p => decide (p.1 = q) || decide (p.2 + 24 ≤ x.gstep)
        | none => true)
    if sure || Config.freeBit (b + 4096 + e.2) then (store x.value, some (q, x.gstep)) else a) (base, none)).1

/-- A page enters the translation buffer of a reach; the oldest of more than 256 leaves (R159; log entry 69). -/
def State.translated (s : State) (r id addr : Nat) : State :=
  let p := id * 8192 + addr / 2048
  s.modRch r fun x => { x with tlb := if x.tlb.contains p then x.tlb else (p :: x.tlb).take 256 }

/-- A buffered write takes effect in the line. Against a conflicting write already applied, either value stands (R166). -/
def State.applyWrite (s : State) (t r : Nat) (e : WbEntry) : State :=
  let w := (s.part t).wordAt e.region e.addr
  let rivals := ((s.part t).bound.filter (· ≠ r)).any fun q =>
    (s.rch q).recent.any fun x => x.region = e.region ∧ x.addr = e.addr ∧ e.gstep < x.gstep + 24 ∧ x.gstep < e.gstep + 24
  let d := if rivals then s.drawBit else (true, s)
  let s := d.2.translated r e.region e.addr
  let old := cellOf (s.wordNow w)
  let s := s.modRch r fun x => { x with recent := (x.recent.filter fun y => (s.part t).gstep < y.gstep + 24) ++
                                          [{ e with value := old }] }
  if d.1 then s.putWord w e.value else s

/-- The reach owns the line that a word lies in, alone (R169, R170). -/
def State.canApply (s : State) (t r : Nat) (e : WbEntry) : Bool :=
  let line := ((s.part t).wordAt e.region e.addr).line
  decide (s.lineOwner line = some r) && (((s.rch r).cache.find line).all fun l => !l.shared)

/-- Another reach still buffers a write to the same word that is 24 or more steps older, which takes effect first (R166). -/
def State.olderElsewhere (s : State) (t r : Nat) (e : WbEntry) : Bool :=
  (s.part t).bound.any fun q => decide (q ≠ r) && (s.rch q).wb.any fun x =>
    decide (x.region = e.region) && decide (x.addr = e.addr) && decide (x.gstep + 24 ≤ e.gstep)

/-- A reach has received from the home of a buffered write the close of the fence 24 steps before it (R167). -/
def State.closeSeen (s : State) (t r : Nat) (e : WbEntry) : Bool :=
  decide (e.gstep ≤ (s.rch r).fenceSeen ((s.part t).home e.region) + 23)

/-- Apply the buffered writes of a reach that the fence closes it has received let it apply, oldest first; an older write to the same
word that must wait holds the younger one (R165, R166, R167). -/
def State.drainSeen (s : State) (t r : Nat) : State :=
  let l := (s.rch r).wb
  let s := s.modRch r fun x => { x with wb := [] }
  l.foldl (fun s e =>
    let blocked := (s.rch r).wb.any fun x => x.region = e.region ∧ x.addr = e.addr
    if s.closeSeen t r e ∧ e.held = false ∧ !blocked ∧ !s.olderElsewhere t r e ∧ s.canApply t r e then s.applyWrite t r e
    else s.modRch r fun x => { x with wb := x.wb ++ [e] }) s

/-- A line that the reach lacks, or must own, is requested with its stamp; a request for one that it lacks is a miss and counts
(R169, R170, R188). -/
def State.miss (s : State) (r line stamp : Nat) (own : Bool) : State :=
  let x := s.rch r
  match x.requests.find line with
  | some q => s.setRch r { x with requests := x.requests.put line (q.1, q.2.1 || own, q.2.2) }
  | none =>
    let s := s.setRch r { x with requests := x.requests.put line (stamp, own, false) }
    if (x.cache.find line).isSome then s else s.count Reg.DMEM_R_MISS_misses r 1

/-- Lines that a miss also requests, in the same page (R169). -/
def State.prefetched (s : State) (g : Region) (line : Nat) : List Nat :=
  if s.on Reg.DMEM_CTRL_prefetch_en then
    ((List.range g.prefetch).map fun i => line + 1 + i).filter fun l => l / 64 = line / 64
  else []

/-- The requests that an access of a reach makes (R157, R169, R170). -/
def State.request (s : State) (t r id addr stamp : Nat) (own : Bool) : State :=
  match (s.part t).region id with
  | none => s
  | some g =>
    let line := lineOf (g.byte addr)
    let have_ := match (s.rch r).cache.find line with
      | some l => !own || (l.dirty && !l.shared)
      | none => false
    if have_ then s
    else
      let s := s.miss r line stamp own
      (s.prefetched g line).foldl (fun s l =>
        if ((s.rch r).cache.find l).isSome ∨ ((s.rch r).requests.find l).isSome then s
        else s.modRch r fun x => { x with requests := x.requests.put l (stamp, false, false) }) s

/-- Outstanding reads of other reaches that a write at step g conflicts with may return its value (R166). -/
def State.crossReads (s : State) (t r id addr g : Nat) (v : Cell) : State :=
  each (((s.part t).bound.filter (· ≠ r)).flatMap fun q => (List.range 17).map (17 * q + ·)) (fun c s =>
    if (s.clu c).reads.any fun x => x.region = id ∧ x.addr = addr ∧ x.inRange ∧ g < x.pstep + 24 then
      let d := s.drawBit
      if d.1 then
        d.2.modClu c fun y => { y with reads := y.reads.map fun x =>
          if x.region = id ∧ x.addr = addr ∧ x.inRange ∧ g < x.pstep + 24 then { x with value := store v } else x }
      else d.2
    else s) s

/-- The first write of a pound to a page, which is held until the page's pre-image is copied (R175). -/
def Part.firstWrite (x : Part) (id addr : Nat) : Bool := !x.copied.contains (id * 8192 + addr / 2048)

end Sys2Proof.Machine
end

