-- ==== Sys2Proof/Machine/Cycle.lean ====
section
/-!
DEFINITION. Sys2Proof/Machine/Cycle.lean: berth entries and host ports (R189 to R206, R213), held outputs (R293 to R295), holds
and stops (R447, R508), and what happens at a design-cycle boundary (R134).
-/
namespace Sys2Proof.Machine

/-! ### Berths -/

/-- Kind, source and tag of a berth. An entry that fails parity is treated as absent; codes 6 and 7 act as 0 (R213, R319). -/
def State.berthMap (s : State) (r b : Nat) : Nat × Nat × Nat :=
  let c := fun i => Mem.get (s.rch r).bmap (3 * b + i)
  if parityOk (c 0) && parityOk (c 1) && parityOk (c 2) then
    let k := (cellOf (c 0)).toNat % 8
    (if k < 6 then k else 0, (cellOf (c 1)).toNat, (cellOf (c 2)).toNat)
  else (0, 0, 0)

/-- Entry of a parity. -/
def State.entry (s : State) (r b parity : Nat) : BerthEntry := (s.rch r).berths.get (2 * b + parity) {}

/-- Fill an entry with fresh parity; class 4 takes the flip in the value cell (R346). -/
def State.fillEntry (s : State) (r b parity : Nat) (value tag : Cell) : State :=
  let d := s.flipCell 4 r (parity * 4096 + b) value
  let e : BerthEntry := { value := d.1, tag := store tag, parity := decide (parity = 1), valid := true }
  d.2.modRch r fun x => { x with berths := x.berths.put (2 * b + parity) e }

/-- Empty an entry. -/
def State.emptyEntry (s : State) (r b parity : Nat) : State :=
  let e := s.entry r b parity
  s.modRch r fun x => { x with berths := x.berths.put (2 * b + parity) { e with valid := false } }

/-- The design-cycle parity in use. -/
def State.parity (s : State) (t : Nat) : Nat := (s.part t).dcNumber % 2

/-- Append a record to the log of the pound in progress (R297). -/
def State.logInput (s : State) (t : Nat) (r : LogRec) : State :=
  s.modPart t fun x => { x with logNow := x.logNow ++ [r] }

/-- The logged value that a blocking or bridge berth read takes in this design cycle on re-execution (R298). -/
def State.loggedRead (s : State) (t r b : Nat) : Option Cell :=
  let m := s.berthMap r b
  let rec? := if m.1 = 3 then s.logged t 0 m.2.1 0 (s.dcycle t)
    else if m.1 = 2 then s.logged t 2 b (s.rel r) (s.dcycle t) else none
  rec?.map (·.value)

/-- A read of a berth finds a value (R191, R204, R298). -/
def State.berthReady (s : State) (t r b : Nat) : Bool :=
  (s.loggedRead t r b).isSome || (s.entry r b (s.parity t)).valid

/-- The value a read of a berth returns. -/
def State.berthValue (s : State) (t r b : Nat) : Cell :=
  (s.loggedRead t r b).getD (cellOf (s.entry r b (s.parity t)).value)

/-- A value or tag cell of the entry fails parity (RCH_BCAUSE.berth_parity). -/
def State.berthBad (s : State) (t r b : Nat) : Bool :=
  let e := s.entry r b (s.parity t)
  (s.loggedRead t r b).isNone && (!parityOk e.value || !parityOk e.tag)

/-! ### Host ports -/

/-- An input port's queue. -/
def State.inPort (s : State) (t p : Nat) : InPort := (s.part t).inputs.get p {}
def State.setInPort (s : State) (t p : Nat) (x : InPort) : State :=
  s.modPart t fun y => { y with inputs := y.inputs.put p x }

/-- The physical reach of a partition-relative one. -/
def State.phys (s : State) (t rel : Nat) : Nat := ((s.part t).bound[rel]?).getD 0

/-- The input-log record of a blocking port for the i-th design cycle from the one in progress; at a lock that is design cycle 0 of
the next pound, as row 1 of R134 has made it. -/
def State.loggedAhead (s : State) (t port i : Nat) : Option LogRec :=
  let x := s.part t
  let at_ := if x.atLock then s.poundLen t + i else s.dcycle t + i
  let d := at_ % s.poundLen t
  let l := if at_ < s.poundLen t then x.logNow else x.logOld.get ((s.pound t + 1) % 2 ^ 24) []
  l.find? fun r => decide (r.dcycle = d) && decide (r.kind = 0) && decide (r.source = port)

/-- The next value of a blocking port belongs to the first design cycle, of the one in progress and the two that follow, that has
neither a record nor a value, and fills that cycle's entry once the entry is empty (R203). Nothing fills while the partition restores,
since the berths stay empty until the restore is over (R190, R302). -/
def State.fillBlocking (s : State) (t port : Nat) : State :=
  if s.phase t = 4 then s
  else match (s.part t).ports.find? fun p => p.port = port ∧ p.isInput ∧ !p.flagged with
  | none => s
  | some p =>
    let x := s.inPort t port
    let r := s.phys t p.rel
    match x.queue, ((List.range 3).filter fun i => (s.loggedAhead t port i).isNone)[x.taken.length]? with
    | v :: rest, some i =>
      let e := ((s.part t).dcNumber + i) % 2
      if (s.entry r p.berth e).valid then s
      else (s.fillEntry r p.berth e v (BitVec.ofNat 12 port)).setInPort t port { x with queue := rest, taken := x.taken ++ [v] }
    | _, _ => s

/-- An entry of a host port reads the port's number as its tag from the start (R203, R204). -/
def State.tagEntry (s : State) (r b parity port : Nat) (full : Bool) : State :=
  let e := s.entry r b parity
  let tag := BitVec.ofNat 12 port
  if e.tag = store tag ∧ (e.valid || !full) = true then s
  else
    let d := s.flipCell 4 r (parity * 4096 + b) tag
    d.2.modRch r fun x => { x with berths := x.berths.put (2 * b + parity) { e with tag := d.1, valid := e.valid || full } }

/-- The tags of a partition's host input ports, once its berths are empty (R190, R203, R204). -/
def State.tagPorts (s : State) (t : Nat) : State :=
  let berth := fun (p : HostPort) (b : Nat) (s : State) =>
    (s.tagEntry (s.phys t p.rel) b 0 p.port false).tagEntry (s.phys t p.rel) b 1 p.port false
  ((s.part t).ports.filter (·.isInput)).foldl (fun s p =>
    if p.flagged then berth p (p.berth + 1) (berth p p.berth s) else berth p p.berth s) s

/-- The three actions of a flagged port as a design cycle begins: pop, write the value, write the status (R204 to R206). The entries
of the other parity read full too. On re-execution the log supplies both (R298). -/
def State.popFlagged (s : State) (t : Nat) (p : HostPort) : State :=
  let r := s.phys t p.rel
  let m := s.parity t
  let tag := BitVec.ofNat 12 p.port
  let put := fun (s : State) (v st : Cell) =>
    let s := (s.fillEntry r p.berth m v tag).fillEntry r (p.berth + 1) m st tag
    (s.tagEntry r p.berth (1 - m) p.port true).tagEntry r (p.berth + 1) (1 - m) p.port true
  if s.beforeHorizon t then
    match s.logged t 1 p.port 0 (s.dcycle t) with
    | some rec_ => put s rec_.value rec_.status
    | none => put s 0 0
  else
    let x := s.inPort t p.port
    let v := (x.queue.head?).getD 0
    let fresh := !x.queue.isEmpty
    let st := BitVec.ofNat 12 ((x.queue.length - 1) % 16 * 4 + b2n x.overflow * 2 + b2n fresh)
    let s := s.setInPort t p.port { x with queue := x.queue.tail, overflow := false,
                                           consumed := x.consumed + b2n fresh, dirty := x.dirty || fresh }
    let s := if fresh ∨ x.overflow then
        s.logInput t { dcycle := s.dcycle t, kind := 1, source := p.port, rel := 0, value := v, status := st }
      else s
    put s v st

/-- A design cycle begins: every flagged pair is written (R204). -/
def State.beginCycle (s : State) (t : Nat) : State :=
  ((s.part t).ports.filter fun p => p.isInput && p.flagged).foldl (fun s p => s.popFlagged t p) s

/-- An output-queue entry (R437). -/
def outEntry (o : OutVal) : Entry :=
  ⟨leBytes 4 (o.pound % 2 ^ 24) ++ leBytes 4 (o.dcycle % 2 ^ 20 + o.port % 2 ^ 10 * 2 ^ 20) ++ leBytes 2 o.value.toNat ++
    leBytes 2 (b2n o.early)⟩

/-- The early-released values of a partition leave the host interface, which keeps the last of each port until its design cycle
ends (R136, R294; log entry 66). -/
def State.postEarly (s : State) (t : Nat) : State :=
  let x := s.part t
  (x.outs.filter (·.early)).foldl (fun s o => s.post t 3 (outEntry o))
    (s.setPart t { x with outs := x.outs.filter fun o => !o.early })

/-- A value sent to a host output port, in place of an earlier one of the same port and design cycle (R130, R136, R293 to
R295). The first early one marks its pound as released (R294). -/
def State.hostSend (s : State) (t port : Nat) (v : Cell) : State :=
  let x := s.part t
  let pound := s.pound t
  let known := match x.floor with
    | some f => !poundLt f pound
    | none => false
  let o : OutVal := { pound := pound, dcycle := s.dcycle t, port := port, value := v, early := x.hdr.early }
  if known then s
  else
    let s := if x.hdr.early then s.setRg Reg.LCK_STATUSt_released t 1 else s
    let mark := x.hdr.early && !x.relPounds.contains pound
    s.setPart t { x with relPounds := if mark then pound :: x.relPounds else x.relPounds, outs := (x.outs.filter fun y =>
      !(decide (y.pound = pound) && decide (y.dcycle = o.dcycle) && decide (y.port = port))) ++ [o] }

/-! ### Holds (R447, R508) -/

/-- Clusters of a partition in a state. -/
def State.clustersOf (s : State) (t : Nat) : List Nat :=
  (s.part t).bound.flatMap fun r => (s.activePositions r).filterMap (s.playing r)

/-- A partition that may issue: in Run, Stepping or Replay, running or replaying, not at a lock. -/
def State.running (s : State) (t : Nat) : Bool :=
  (decide (s.pmode t = 2) || decide (s.pmode t = 4) || decide (s.pmode t = 5)) &&
    (decide (s.phase t = 1) || decide (s.phase t = 7)) && !(s.part t).atLock

/-- Complete the open commands of an opcode (R430). -/
def State.closeCmds (s : State) (t opcode : Nat) : State :=
  let x := s.part t
  (x.openCmds.filter fun c => c.opcode = opcode).foldl
    (fun s c => s.finish t (BitVec.ofNat 16 c.cmdId) 0 c.arg)
    (s.setPart t { x with openCmds := x.openCmds.filter fun c => c.opcode ≠ opcode })

/-- The partition is Held. -/
def State.enterHeld (s : State) (t : Nat) (byStop : Bool) : State :=
  let x := s.part t
  let s := s.setPart t { x with holdReq := none, stepLeft := 0, begun := false,
                                heldReplay := decide (s.pmode t = 5) || (decide (s.pmode t = 4) && x.heldReplay) }
  let s := if byStop then s.setRg Reg.WHF_STOP_STAT_stopped t 1 else s
  (s.setMode t 3).closeCmds t 3

/-- A hold takes effect if the partition stands where it may: at a step boundary, or at a design-cycle boundary (R508). -/
def State.settleHold (s : State) (t : Nat) : State :=
  let x := s.part t
  match x.holdReq with
  | none => s
  | some boundary =>
    if s.pmode t = 3 then
      (s.setPart t { x with holdReq := none }).setRg Reg.WHF_STOP_STAT_stopped t 1 |>.closeCmds t 3
    else if s.running t ∧ (boundary = false ∨ x.started = false) ∧ x.memTaken = false ∧
        ((s.clustersOf t).all fun c => (s.clu c).st ≠ 5 ∧ (s.clu c).st ≠ 6) then s.enterHeld t x.stopOwed.isSome
    else s

/-! ### Registers and cells with fresh parity -/

/-- Put a stored cell into value memory; class 1 takes the flip. -/
def State.storeVm (s : State) (c cell : Nat) (v : SCell) : State :=
  let d := s.flip 1 c cell 12 v.toNat
  d.2.modClu c fun x => { x with vm := Mem.put x.vm cell (BitVec.ofNat 13 d.1) }

/-- Put a stored cell into a register; class 2 takes the flip: a mask register in its 8 bits, an accumulator in its low half
(R346). -/
def State.storeRf (s : State) (c r : Nat) (v : SCell) : State :=
  if 70 ≤ r ∧ r < 94 ∧ r % 2 = 1 then s.modClu c fun x => { x with rf := Mem.put x.rf r v }
  else if 64 ≤ r ∧ r < 68 then
    let d := s.flip 2 c r 8 (v.toNat % 256 + v.toNat / 4096 * 256)
    d.2.modClu c fun x =>
      { x with rf := Mem.put x.rf r (BitVec.ofNat 13 (d.1 % 256 + v.toNat / 256 % 16 * 256 + d.1 / 256 % 2 * 4096)) }
  else
    let d := s.flip 2 c r 12 v.toNat
    d.2.modClu c fun x => { x with rf := Mem.put x.rf r (BitVec.ofNat 13 d.1) }

/-- Store a value-memory cell with fresh parity. -/
def State.putVm (s : State) (c cell : Nat) (v : Cell) : State := s.storeVm c cell (store v)

/-- Store a register with fresh parity. -/
def State.putRf (s : State) (c r : Nat) (v : Cell) : State := s.storeRf c r (store v)

/-! ### The design-cycle boundary (R134) -/

/-- Row 2 for one cluster: PC, t, repeat levels, VL (R39, R110). -/
def Cluster.newCycle (c : Cluster) : Cluster := { c with pc := 0, t := 0, lvl0 := none, lvl1 := none, vl := 8 }

/-- Row 2 for a partition's clusters; their output registers read 0x000 (R121, R134). -/
def State.newCycles (s : State) (t : Nat) : State :=
  each (s.clustersOf t) (fun c s => (s.putRf c 94 0).modClu c Cluster.newCycle) s

/-- Row 2 for one reach: arrival-port holds (R121). -/
def Reach.newCycle (x : Reach) : Reach := { x with holds := [], transit := [] }

/-- Gauge registers written since the last boundary take effect (R504). -/
def State.takeGauges (s : State) (r : Nat) : State :=
  let s := (s.rch r).gaugeWrites.foldl (fun (s : State) e => { s with regs := s.regs.put e.1 e.2 }) s
  s.modRch r fun x => { x with gaugeWrites := [] }

/-- Rows 1, 2 and 4 and the ends of STEP, replay stop and re-execution, once step P - 1 has completed (R134, R298, R314,
R508). At the end of a pound the partition waits at the lock instead (row 3). -/
def State.cycleEnd (s : State) (t : Nat) : State :=
  let d := s.dcycle t
  let pound := s.pound t
  let x := s.part t
  let s := s.setPart t { x with dcNumber := x.dcNumber + 1, step := 0, started := false, begun := false,
                                stepLeft := x.stepLeft - 1 }
  let s := s.postEarly t
  let s := s.newCycles t
  let s := each x.bound (fun r s => (s.modRch r Reach.newCycle).takeGauges r) s
  let last := decide (d + 1 = s.poundLen t)
  let r := s.watch (x.bound.map fun r => { reach := r, kind := 3, position := 0, c := 0,
                                           value := BitVec.ofNat 12 (if last then 0 else d + 1) })
  let s := r.1.resolveFires t 0 r.2
  let returned := s.on Reg.LCK_STATUSt_reexec t && !poundLt pound x.horizonPound &&
    (decide (pound ≠ x.horizonPound) || decide (s.rg Reg.LCK_HORIZONt_h t ≤ d))
  let s := if returned then
      (s.setRg Reg.LCK_STATUSt_reexec t 0).modPart t fun x => { x with horizonOn := false, heldReplay := false }
    else s
  let s := if returned ∧ s.pmode t ≠ 5 ∧ s.phase t = 7 then s.setRg Reg.LCK_STATUSt_phase t 1 else s
  let stop := decide (s.pmode t = 5) && (match x.replayStop with
    | some (p, c, every) => decide (p = pound) && (decide (c = d) || (every && decide (c ≤ d))) ||
        (every && poundLt p pound)
    | none => false)
  let s := if last then s.setPart t { s.part t with atLock := true }
    else (s.setRg Reg.LCK_STATUSt_dcycle t (d + 1)).beginCycle t
  if stop then (s.setMode t 6).cause .lock Reg.LCK_CAUSEt_replay_stop t
  else if s.pmode t = 5 ∧ returned then (s.setMode t 2).setRg Reg.LCK_STATUSt_phase t 1
  else if s.pmode t = 4 ∧ x.stepLeft ≤ 1 then
    if last then s.setPart t { s.part t with holdReq := some true } else s.enterHeld t false
  else if last then s else s.settleHold t

end Sys2Proof.Machine
end

