-- ==== Sys2Proof/Machine/Slots.lean ====
section
/-!
DEFINITION. Sys2Proof/Machine/Slots.lean: what a slot of an instruction word and an operand descriptor can say (R82 to R112). The
codec is in Machine/SlotCodec.lean.
-/
namespace Sys2Proof.Machine

/-- Word operands (R91). -/
inductive Operand where
  | reg (r : BitVec 6)
  | cell (c : BitVec 12)
  | rel (k : BitVec 10)
  | ix (one : Bool) (base : BitVec 12)
  | li (one : Bool) (base : BitVec 12)
  | imm (v : BitVec 12)
  | xbar
  | ixReg (one : Bool)
  | liReg (one : Bool)
  | mask (m : BitVec 2)
  | vl
  | acc (high : Bool)
  | none
  /-- A kind or payload that R91 does not allow. -/
  | bad
  deriving DecidableEq, Repr

/-- Word opcodes (R94). -/
inductive WordOp where
  | add | adds | addu | sub | subs | subu | addc | subc
  | and | or | xor | andn | xnor
  | shl | shr | sar | rshr | rshe | rol | fsr
  | ceq | cne | clt | cltu | cle | cleu
  | min | max | minu | maxu | abs | neg | sel | popc
  | mul | mulu | mulsu
  | mac | macs | macu | acld | acrh | acre
  | vsetl
  deriving DecidableEq, Repr

/-- Move opcodes (R103). -/
inductive MoveOp where
  | mov | brd | xsnd | nsnd
  deriving DecidableEq, Repr

/-- Memory opcodes (R106). -/
inductive MemOp where
  | drd | drdw | dwr | dwrw
  deriving DecidableEq, Repr

/-- Vector opcodes (R112); `lane` carries the word opcode of the same name. -/
inductive VecOp where
  | lane (o : WordOp)
  | vsel | vld | vstl | vsth | vbcast | vmov | vmld | vmst
  | vrsum | vror | vrand | vrxor
  | vmand | vmor | vmxor
  deriving DecidableEq, Repr

/-- The fields of a vector lead slot (R109). -/
structure VecFields where
  vd : BitVec 3
  va : BitVec 3
  vb : BitVec 3
  um : Bool
  ms : BitVec 2
  fw : Bool
  fm : BitVec 2
  bs : Bool
  sb : BitVec 16
  aux : BitVec 12
  deriving DecidableEq, Repr

/-- A predicate: near selector and inversion (R102). -/
structure Pred where
  pn : BitVec 5
  pinv : Bool
  deriving DecidableEq, Repr

/-- A slot (R82). -/
inductive SlotI where
  | nop
  | rep (countM1 last : BitVec 10)
  | bit (am : BitVec 2) (tt a b c : BitVec 16) (n : BitVec 5)
  | move (o : MoveOp) (d s : BitVec 16) (num : BitVec 12) (cons : Bool) (p : Pred)
  | word (o : WordOp) (d a b : BitVec 16) (p : Pred) (aux : BitVec 8)
  | mem (o : MemOp) (d s x : BitVec 16) (region : BitVec 10) (p : Pred)
  | vec (o : VecOp) (f : VecFields) (p : Pred)
  | cont (part : BitVec 2)
  deriving DecidableEq, Repr

end Sys2Proof.Machine
end

