-- ==== Sys2Proof/Machine/SlotCodec.lean ====
section
/-!
DEFINITION. Sys2Proof/Machine/SlotCodec.lean: slots and operand descriptors from their bits and back (R82 to R112).
-/
namespace Sys2Proof.Machine

/-- The operand that a descriptor names (R91). -/
def operandOf (x : BitVec 16) : Operand :=
  let v := x.toNat
  let p := v % 4096
  let base := BitVec.ofNat 12 p
  match v / 4096 with
  | 0x0 => if p < 64 then .reg (BitVec.ofNat 6 p) else .bad
  | 0x1 => .cell base
  | 0x2 => if 1 ≤ p ∧ p < 1024 then .rel (BitVec.ofNat 10 p) else .bad
  | 0x3 => .ix false base
  | 0x4 => .ix true base
  | 0x5 => .li false base
  | 0x6 => .li true base
  | 0x7 => .imm base
  | 0x8 => if p = 0 then .xbar else .bad
  | 0x9 =>
    match p with
    | 0 => .ixReg false
    | 1 => .ixReg true
    | 2 => .liReg false
    | 3 => .liReg true
    | 4 => .mask 0
    | 5 => .mask 1
    | 6 => .mask 2
    | 7 => .mask 3
    | 8 => .vl
    | _ => .bad
  | 0xA => if p = 0 then .acc false else if p = 1 then .acc true else .bad
  | 0xF => if p = 0 then .none else .bad
  | _ => .bad

/-- The descriptor of an operand (R91). -/
def descriptorOf : Operand → BitVec 16
  | .reg r => BitVec.ofNat 16 r.toNat
  | .cell c => BitVec.ofNat 16 (0x1000 + c.toNat)
  | .rel k => BitVec.ofNat 16 (0x2000 + k.toNat)
  | .ix one b => BitVec.ofNat 16 ((if one then 0x4000 else 0x3000) + b.toNat)
  | .li one b => BitVec.ofNat 16 ((if one then 0x6000 else 0x5000) + b.toNat)
  | .imm v => BitVec.ofNat 16 (0x7000 + v.toNat)
  | .xbar => 0x8000
  | .ixReg one => if one then 0x9001 else 0x9000
  | .liReg one => if one then 0x9003 else 0x9002
  | .mask m => BitVec.ofNat 16 (0x9004 + m.toNat)
  | .vl => 0x9008
  | .acc high => if high then 0xA001 else 0xA000
  | .none => 0xF000
  | .bad => 0xFFFF

/-- Word opcodes by code (R94). -/
def WordOp.ofCode : Nat → Option WordOp
  | 0x00 => some .add | 0x01 => some .adds | 0x02 => some .addu | 0x03 => some .sub | 0x04 => some .subs
  | 0x05 => some .subu | 0x06 => some .addc | 0x07 => some .subc | 0x08 => some .and | 0x09 => some .or
  | 0x0A => some .xor | 0x0B => some .andn | 0x0C => some .xnor
  | 0x10 => some .shl | 0x11 => some .shr | 0x12 => some .sar | 0x13 => some .rshr | 0x14 => some .rshe
  | 0x15 => some .rol | 0x16 => some .fsr
  | 0x18 => some .ceq | 0x19 => some .cne | 0x1A => some .clt | 0x1B => some .cltu | 0x1C => some .cle
  | 0x1D => some .cleu
  | 0x20 => some .min | 0x21 => some .max | 0x22 => some .minu | 0x23 => some .maxu | 0x24 => some .abs
  | 0x25 => some .neg | 0x26 => some .sel | 0x27 => some .popc
  | 0x28 => some .mul | 0x29 => some .mulu | 0x2A => some .mulsu
  | 0x2C => some .mac | 0x2D => some .macs | 0x2E => some .macu | 0x2F => some .acld | 0x30 => some .acrh
  | 0x31 => some .acre | 0x3E => some .vsetl
  | _ => none

/-- The code of a word opcode (R94). -/
def WordOp.code : WordOp → Nat
  | .add => 0x00 | .adds => 0x01 | .addu => 0x02 | .sub => 0x03 | .subs => 0x04 | .subu => 0x05 | .addc => 0x06
  | .subc => 0x07 | .and => 0x08 | .or => 0x09 | .xor => 0x0A | .andn => 0x0B | .xnor => 0x0C | .shl => 0x10
  | .shr => 0x11 | .sar => 0x12 | .rshr => 0x13 | .rshe => 0x14 | .rol => 0x15 | .fsr => 0x16 | .ceq => 0x18
  | .cne => 0x19 | .clt => 0x1A | .cltu => 0x1B | .cle => 0x1C | .cleu => 0x1D | .min => 0x20 | .max => 0x21
  | .minu => 0x22 | .maxu => 0x23 | .abs => 0x24 | .neg => 0x25 | .sel => 0x26 | .popc => 0x27 | .mul => 0x28
  | .mulu => 0x29 | .mulsu => 0x2A | .mac => 0x2C | .macs => 0x2D | .macu => 0x2E | .acld => 0x2F | .acrh => 0x30
  | .acre => 0x31 | .vsetl => 0x3E

/-- The word opcodes that act on a lane under the same code (R112). -/
def WordOp.onLanes : WordOp → Bool
  | .add | .adds | .addu | .sub | .subs | .subu | .and | .or | .xor | .andn | .shl | .shr | .sar | .rshr | .rshe
  | .ceq | .cne | .clt | .cltu | .min | .max | .minu | .maxu => true
  | _ => false

/-- Vector opcodes by code (R112). -/
def VecOp.ofCode : Nat → Option VecOp
  | 0x26 => some .vsel | 0x30 => some .vld | 0x31 => some .vstl | 0x32 => some .vsth | 0x34 => some .vbcast
  | 0x35 => some .vmov | 0x36 => some .vmld | 0x37 => some .vmst | 0x38 => some .vrsum | 0x39 => some .vror
  | 0x3A => some .vrand | 0x3B => some .vrxor | 0x3C => some .vmand | 0x3D => some .vmor | 0x3E => some .vmxor
  | n => match WordOp.ofCode n with
    | some o => if o.onLanes then some (.lane o) else none
    | none => none

/-- The code of a vector opcode (R112). -/
def VecOp.code : VecOp → Nat
  | .lane o => o.code
  | .vsel => 0x26 | .vld => 0x30 | .vstl => 0x31 | .vsth => 0x32 | .vbcast => 0x34 | .vmov => 0x35 | .vmld => 0x36
  | .vmst => 0x37 | .vrsum => 0x38 | .vror => 0x39 | .vrand => 0x3A | .vrxor => 0x3B | .vmand => 0x3C | .vmor => 0x3D
  | .vmxor => 0x3E

/-- Move opcodes (R103). -/
def MoveOp.ofCode : Nat → Option MoveOp
  | 0 => some .mov | 1 => some .brd | 2 => some .xsnd | 3 => some .nsnd | _ => none
def MoveOp.code : MoveOp → Nat
  | .mov => 0 | .brd => 1 | .xsnd => 2 | .nsnd => 3

/-- Memory opcodes (R106). -/
def MemOp.ofCode : Nat → Option MemOp
  | 0 => some .drd | 1 => some .drdw | 2 => some .dwr | 3 => some .dwrw | _ => none
def MemOp.code : MemOp → Nat
  | .drd => 0 | .drdw => 1 | .dwr => 2 | .dwrw => 3

/-- A field of a slot. -/
def fld (w v lo : Nat) : BitVec w := BitVec.ofNat w (v / 2 ^ lo)

/-- A flag of a slot. -/
def flg (v lo : Nat) : Bool := v / 2 ^ lo % 2 = 1

/-- The slot that 72 bits spell; none where a class, opcode or must-be-zero field is illegal (R82 to R84, R86, R93, R103,
R106, R109, R118). -/
def decodeSlot (x : Slot) : Option SlotI :=
  let v := x.toNat
  if v / 2 ^ 71 = 1 then
    some (.bit (fld 2 v 69) (fld 16 v 53) (fld 16 v 37) (fld 16 v 21) (fld 16 v 5) (fld 5 v 0))
  else match v / 2 ^ 68 with
    | 0 =>
      if v = 0 then some .nop
      else if v / 2 ^ 64 = 1 ∧ v % 2 ^ 44 = 0 then some (.rep (fld 10 v 54) (fld 10 v 44))
      else none
    | 1 =>
      match MoveOp.ofCode (v / 2 ^ 64 % 16) with
      | some o =>
        if v % 2 ^ 13 = 0 then
          some (.move o (fld 16 v 48) (fld 16 v 32) (fld 12 v 20) (flg v 19) ⟨fld 5 v 14, flg v 13⟩)
        else none
      | none => none
    | 2 =>
      match WordOp.ofCode (v / 2 ^ 62 % 64) with
      | some o => some (.word o (fld 16 v 46) (fld 16 v 30) (fld 16 v 14) ⟨fld 5 v 9, flg v 8⟩ (fld 8 v 0))
      | none => none
    | 4 =>
      if v / 2 ^ 66 % 4 = 0 then
        match VecOp.ofCode (v / 2 ^ 60 % 64) with
        | some o =>
          if v % 2 ^ 10 = 0 then
            some (.vec o { vd := fld 3 v 57, va := fld 3 v 54, vb := fld 3 v 51, um := flg v 50, ms := fld 2 v 48,
                           fw := flg v 47, fm := fld 2 v 45, bs := flg v 44, sb := fld 16 v 28, aux := fld 12 v 16 }
              ⟨fld 5 v 11, flg v 10⟩)
          else none
        | none => none
      else if v % 2 ^ 66 = 0 then some (.cont (fld 2 v 66)) else none
    | 5 =>
      match MemOp.ofCode (v / 2 ^ 64 % 16) with
      | some o => some (.mem o (fld 16 v 48) (fld 16 v 32) (fld 16 v 16) (fld 10 v 6) ⟨fld 5 v 1, flg v 0⟩)
      | none => none
    | _ => none

/-- The 72 bits of a slot. -/
def encodeSlotNat : SlotI → Nat
  | .nop => 0
  | .rep n e => 2 ^ 64 + n.toNat * 2 ^ 54 + e.toNat * 2 ^ 44
  | .bit am tt a b c n =>
    2 ^ 71 + am.toNat * 2 ^ 69 + tt.toNat * 2 ^ 53 + a.toNat * 2 ^ 37 + b.toNat * 2 ^ 21 + c.toNat * 2 ^ 5 + n.toNat
  | .move o d s num cons p =>
    2 ^ 68 + o.code * 2 ^ 64 + d.toNat * 2 ^ 48 + s.toNat * 2 ^ 32 + num.toNat * 2 ^ 20 + b2n cons * 2 ^ 19 +
      p.pn.toNat * 2 ^ 14 + b2n p.pinv * 2 ^ 13
  | .word o d a b p aux =>
    2 * 2 ^ 68 + o.code * 2 ^ 62 + d.toNat * 2 ^ 46 + a.toNat * 2 ^ 30 + b.toNat * 2 ^ 14 + p.pn.toNat * 2 ^ 9 +
      b2n p.pinv * 2 ^ 8 + aux.toNat
  | .mem o d s x r p =>
    5 * 2 ^ 68 + o.code * 2 ^ 64 + d.toNat * 2 ^ 48 + s.toNat * 2 ^ 32 + x.toNat * 2 ^ 16 + r.toNat * 2 ^ 6 +
      p.pn.toNat * 2 + b2n p.pinv
  | .vec o f p =>
    4 * 2 ^ 68 + o.code * 2 ^ 60 + f.vd.toNat * 2 ^ 57 + f.va.toNat * 2 ^ 54 + f.vb.toNat * 2 ^ 51 + b2n f.um * 2 ^ 50 +
      f.ms.toNat * 2 ^ 48 + b2n f.fw * 2 ^ 47 + f.fm.toNat * 2 ^ 45 + b2n f.bs * 2 ^ 44 + f.sb.toNat * 2 ^ 28 +
      f.aux.toNat * 2 ^ 16 + p.pn.toNat * 2 ^ 11 + b2n p.pinv * 2 ^ 10
  | .cont part => 4 * 2 ^ 68 + part.toNat * 2 ^ 66

def encodeSlot (i : SlotI) : Slot := BitVec.ofNat 72 (encodeSlotNat i)

/-- The forms that have one encoding: a vector opcode of R112, a continuation of part 1 to 3 (R109). -/
def SlotI.wellFormed : SlotI → Bool
  | .vec (.lane o) _ _ => o.onLanes
  | .cont part => decide (part ≠ 0)
  | _ => true

/-! ### Legality (R118) -/

/-- A source that a move, memory or vector slot may name. -/
def Operand.isSource : Operand → Bool
  | .none | .bad | .acc _ => false
  | _ => true

/-- A cell kind. -/
def Operand.isCell : Operand → Bool
  | .cell _ | .rel _ | .ix _ _ | .li _ _ => true
  | _ => false

/-- A destination (R91). -/
def Operand.isDest : Operand → Bool
  | .reg _ | .cell _ | .rel _ | .ix _ _ | .li _ _ | .ixReg _ | .mask _ => true
  | _ => false

/-- A near selector that may stand as predicate, carry or select (R89, R90, R102). -/
def nearOk (n : Nat) : Bool := decide (n < 31) && decide (n ≠ 24) && decide (n ≠ 25)

/-- tt depends on input k (R88). -/
def dependsOn (tt : BitVec 16) (k : Nat) : Bool :=
  (List.range 16).any fun i => tt.toNat.testBit i != tt.toNat.testBit (Nat.xor i (2 ^ k))

/-- Bit-class legality (R85, R87 to R90). -/
def bitLegal (am : BitVec 2) (tt a b c : BitVec 16) (n : BitVec 5) : Bool :=
  let berth := decide (n.toNat = 24) || decide (n.toNat = 25)
  let idxOk := fun (x : BitVec 16) => decide (x.toNat % 16 < 12)
  (if dependsOn tt 0 then
      idxOk a && (decide (am ≠ 1) || (decide (1 ≤ a.toNat / 16) && decide (a.toNat / 16 < 1024)))
    else decide (a = 0)) &&
  (if dependsOn tt 1 then idxOk b else decide (b = 0)) &&
  (if berth || dependsOn tt 2 then idxOk c else decide (c = 0)) &&
  (if dependsOn tt 3 then decide (n.toNat ≠ 31) else decide (n.toNat = 26))

/-- The word operation reads A. -/
def WordOp.readsA : WordOp → Bool
  | .acrh | .acre => false
  | _ => true

/-- A shift, whose count is aux[3:0] or B[3:0] (R94). -/
def WordOp.isShift : WordOp → Bool
  | .shl | .shr | .sar | .rshr | .rshe | .rol | .fsr => true
  | _ => false

/-- The word operation reads B, given its aux field. -/
def WordOp.readsB (o : WordOp) (aux : Nat) : Bool :=
  match o with
  | .abs | .neg | .popc | .acrh | .acre | .vsetl => false
  | .acld => aux.testBit 0
  | .fsr => true
  | .shl | .shr | .sar | .rshr | .rshe | .rol => aux.testBit 7
  | _ => true

/-- The aux bits an operation uses (R94). -/
def WordOp.auxOk (o : WordOp) (aux : Nat) : Bool :=
  match o with
  | .addc | .subc | .sel => nearOk aux && decide (aux < 32)
  | .acrh | .acre => decide (aux < 32)
  | .acld => decide (aux < 2)
  | _ => if o.isShift then decide (aux < 16) || decide (aux = 0x80) else decide (aux = 0)

/-- The destination an operation may have (R94, R95). -/
def WordOp.destOk (o : WordOp) (d : Operand) : Bool :=
  match o with
  | .mac | .macs | .macu | .acld | .vsetl => decide (d = .none)
  | .mul | .mulu | .mulsu => match d with
    | .reg r => decide (r.toNat % 2 = 0)
    | _ => false
  | .ceq | .cne | .clt | .cltu | .cle | .cleu => d.isDest || decide (d = .none)
  | _ => d.isDest

/-- A source of a word slot, or the zero field of a source not read. -/
def wordSource (used : Bool) (x : BitVec 16) : Bool :=
  if used then (operandOf x).isSource || decide (operandOf x = .acc false) || decide (operandOf x = .acc true)
  else decide (x = 0)

/-- A source of a move, memory or vector slot, or the zero field of one not read. -/
def plainSource (used : Bool) (x : BitVec 16) : Bool := if used then (operandOf x).isSource else decide (x = 0)

/-- Vector-class legality of a lead (R109 to R112). -/
def vecLegal (o : VecOp) (f : VecFields) : Bool :=
  let shift := match o with | .lane w => w.isShift | _ => false
  let binary := match o with | .lane w => !w.isShift | _ => false
  let compare := match o with
    | .lane .ceq | .lane .cne | .lane .clt | .lane .cltu => true
    | _ => false
  let maskOp := match o with | .vmand | .vmor | .vmxor => true | _ => false
  let reduce := match o with | .vrsum | .vror | .vrand | .vrxor => true | _ => false
  let store := decide (o = .vstl) || decide (o = .vsth)
  let unused := fun (x : BitVec 3) => decide (x = 0)
  (if maskOp || decide (o = .vmld) then f.fw
    else if reduce || decide (o = .vmst) then !f.fw && decide (f.fm = 0)
    else f.fw || decide (f.fm = 0)) &&
  (if decide (o = .vsel) then !f.um
    else if maskOp || decide (o = .vmld) || decide (o = .vmst) then !f.um && decide (f.ms = 0)
    else f.um || decide (f.ms = 0)) &&
  (if (shift || binary && !compare) || decide (o = .vsel) || decide (o = .vld) || decide (o = .vbcast) || decide (o = .vmov)
    then true else unused f.vd) &&
  (if shift || binary || decide (o = .vsel) || store || decide (o = .vmov) || reduce then true
    else if maskOp || decide (o = .vmst) then decide (f.va.toNat < 4)
    else unused f.va) &&
  (if (binary && !f.bs) || decide (o = .vsel) then true else if maskOp then decide (f.vb.toNat < 4) else unused f.vb) &&
  (binary || !f.bs) &&
  (if decide (o = .vld) || store then (operandOf f.sb).isCell
    else if reduce || decide (o = .vmst) then (operandOf f.sb).isDest
    else plainSource (f.bs || decide (o = .vbcast) || decide (o = .vmld) || (shift && f.aux.toNat.testBit 11)) f.sb) &&
  (if shift then decide (f.aux.toNat < 16) || decide (f.aux.toNat = 0x800) else decide (f.aux = 0))

/-- The predicate is a legal one. -/
def Pred.legal (p : Pred) : Bool := nearOk p.pn.toNat

/-- One slot taken alone is legal (R85 to R112). -/
def slotLegal : SlotI → Bool
  | .nop => true
  | .rep _ _ => true
  | .bit am tt a b c n => bitLegal am tt a b c n
  | .move o d s num cons p =>
    let dst := operandOf d
    match o with
    | .mov => p.legal && !cons && decide (num = 0) && (operandOf s).isSource && dst.isDest &&
        (!(operandOf s).isCell || dst.isCell || (match dst with | .reg _ => true | _ => false))
    | .brd => p.legal && decide (s = 0) && dst.isDest
    | .xsnd => decide (p = ⟨27, false⟩) && !cons && decide (num = 0) && decide (dst = .none) && (operandOf s).isSource
    | .nsnd => decide (p = ⟨27, false⟩) && !cons && decide (dst = .none) && (operandOf s).isSource
  | .word o d a b p aux =>
    p.legal && o.auxOk aux.toNat && wordSource o.readsA a && wordSource (o.readsB aux.toNat) b && o.destOk (operandOf d)
  | .mem o d s x _ p =>
    let xo := operandOf x
    let reads := decide (o = .drd) || decide (o = .drdw)
    let dst := operandOf d
    p.legal && plainSource (!reads) s &&
      (if reads then dst.isCell || (match dst with | .reg _ => true | _ => false) else decide (dst = .none)) &&
      (if decide (o = .drd) || decide (o = .dwr) then xo.isSource
        else xo.isCell || (match xo with | .reg r => decide (r.toNat ≤ 62) | _ => false))
  | .vec o f p => p.legal && vecLegal o f
  | .cont _ => true

/-- The part of a continuation slot, 0 for a vector lead. -/
def partOf : Option SlotI → Option Nat
  | some (.vec _ _ _) => some 0
  | some (.cont p) => some p.toNat
  | _ => none

/-- A quad holds a lead and its continuations in order, or neither (R108). -/
def quadLegal (l : List (Option SlotI)) (q : Nat) : Bool :=
  let p := fun j => partOf ((l[4 * q + j]?).getD none)
  (decide (p 0 = some 0) && decide (p 1 = some 1) && decide (p 2 = some 2) && decide (p 3 = some 3)) ||
    (List.range 4).all fun j => decide (p j = none)

def isRep : Option SlotI → Bool
  | some (.rep _ _) => true
  | _ => false

def isXsnd : Option SlotI → Bool
  | some (.move .xsnd _ _ _ _ _) => true
  | _ => false

/-- The decoded slots of a word hold no illegal encoding (R118). -/
def wordLegal (l : List (Option SlotI)) : Bool :=
  (l.all fun i => match i with
    | some i => slotLegal i
    | none => false) &&
  (quadLegal l 0 && quadLegal l 1 && quadLegal l 2) &&
  decide ((l.filter isRep).length ≤ 1) && decide ((l.filter isXsnd).length ≤ 1)

/-- A slot from its six cells, cell 0 lowest (R2). -/
def slotOfCells (l : List Cell) : Slot :=
  BitVec.ofNat 72 (l.foldr (fun c v => c.toNat + 4096 * v) 0)

end Sys2Proof.Machine
end

