-- ==== Sys2Proof/Machine/Flags.lean ====
section
/-!
DEFINITION. Sys2Proof/Machine/Flags.lean: the arithmetic of the word and vector operations with their flags (R94 to R101,
R112): each forms its exact result, then rounds, then saturates or wraps.
-/
namespace Sys2Proof.Machine

/-- A signed cell (R96). -/
def sgn (a : Cell) : Int := a.toInt

/-- The low 12 bits of an exact result. -/
def cellI (i : Int) : Cell := BitVec.ofInt 12 i

/-- Clamp to a range; the flag says that it clamped (R97). -/
def clamp (lo hi i : Int) : Int × Bool := if i < lo then (lo, true) else if hi < i then (hi, true) else (i, false)

/-- Signed and unsigned 12-bit saturation. -/
def satS (i : Int) : Cell × Bool := ((cellI (clamp (-2048) 2047 i).1), (clamp (-2048) 2047 i).2)
def satU (i : Int) : Cell × Bool := ((cellI (clamp 0 4095 i).1), (clamp 0 4095 i).2)

/-- x / 2^n rounded half up (R98). -/
def halfUp (x : Int) (n : Nat) : Int := if n = 0 then x else (x + 2 ^ (n - 1)) / 2 ^ n

/-- x / 2^n rounded to nearest, a tie to even (R98). -/
def halfEven (x : Int) (n : Nat) : Int :=
  let q := x / 2 ^ n
  let r := 2 * (x % 2 ^ n)
  if r < 2 ^ n then q else if 2 ^ n < r then q + 1 else if q % 2 = 0 then q else q + 1

/-- The number of ones. -/
def ones (a : Cell) : Nat := ((List.range 12).filter fun i => a.toNat.testBit i).length

/-- A comparison's result and flag. -/
def truth (b : Bool) : Cell × Bool := (if b then 1#12 else 0#12, b)

/-- A logic result: the flag says that it is not zero. -/
def logic (a : Cell) : Cell × Bool := (a, decide (a ≠ 0))

/-- Result and flag of a word operation that writes one cell and no accumulator: n is the shift count, c the near bit of
ADDC, SUBC and SEL (R94). -/
def wordResult (o : WordOp) (a b : Cell) (n : Nat) (c : Bool) : Cell × Bool :=
  let x := a.toNat
  let y := b.toNat
  match o with
  | .add => (a + b, decide (4096 ≤ x + y))
  | .adds => satS (sgn a + sgn b)
  | .addu => satU (x + y)
  | .sub => (a - b, decide (x < y))
  | .subs => satS (sgn a - sgn b)
  | .subu => satU ((x : Int) - y)
  | .addc => (BitVec.ofNat 12 (x + y + b2n c), decide (4096 ≤ x + y + b2n c))
  | .subc => (cellI ((x : Int) - y - b2n c), decide (x < y + b2n c))
  | .and => logic (a &&& b)
  | .or => logic (a ||| b)
  | .xor => logic (a ^^^ b)
  | .andn => logic (a &&& ~~~b)
  | .xnor => logic (~~~(a ^^^ b))
  | .shl => (a <<< n, decide (4096 ≤ x * 2 ^ n))
  | .shr => (a >>> n, decide (x % 2 ^ n ≠ 0))
  | .sar => (cellI (sgn a / 2 ^ n), decide (x % 2 ^ n ≠ 0))
  | .rshr => (cellI (halfUp (sgn a) n), decide (sgn a % 2 ^ n ≠ 0))
  | .rshe => (cellI (halfEven (sgn a) n), decide (sgn a % 2 ^ n ≠ 0))
  | .rol => (a.rotateLeft (n % 12), false)
  | .fsr => (BitVec.ofNat 12 ((y * 4096 + x) / 2 ^ n), false)
  | .ceq => truth (decide (a = b))
  | .cne => truth (decide (a ≠ b))
  | .clt => truth (decide (sgn a < sgn b))
  | .cltu => truth (decide (x < y))
  | .cle => truth (decide (sgn a ≤ sgn b))
  | .cleu => truth (decide (x ≤ y))
  | .min => if sgn b < sgn a then (b, true) else (a, false)
  | .max => if sgn a < sgn b then (b, true) else (a, false)
  | .minu => if y < x then (b, true) else (a, false)
  | .maxu => if x < y then (b, true) else (a, false)
  | .abs => satS (if sgn a < 0 then -sgn a else sgn a)
  | .neg => satS (-sgn a)
  | .sel => (if c then b else a, c)
  | .popc => (BitVec.ofNat 12 (ones a), decide (ones a % 2 = 1))
  | .mul | .mulu | .mulsu | .mac | .macs | .macu | .acld | .acrh | .acre | .vsetl => (0, false)

/-- Product and flag of a multiply (R94, R95). -/
def mulResult (o : WordOp) (a b : Cell) : BitVec 24 × Bool :=
  let p : Int := match o with
    | .mul => sgn a * sgn b
    | .mulsu => sgn a * b.toNat
    | _ => (a.toNat * b.toNat : Nat)
  (BitVec.ofInt 24 p,
   match o with
   | .mulu => decide (4095 < p)
   | _ => decide (p < -2048) || decide (2047 < p))

/-- New accumulator and flag of a multiply-accumulate or ACLD; `wide` is aux[0] (R94). -/
def macResult (o : WordOp) (acc : BitVec 24) (a b : Cell) (wide : Bool) : BitVec 24 × Bool :=
  let s := acc.toInt + sgn a * sgn b
  let u := acc.toNat + a.toNat * b.toNat
  match o with
  | .mac => (BitVec.ofInt 24 s, decide (s < -8388608) || decide (8388607 < s))
  | .macs => (BitVec.ofInt 24 (clamp (-8388608) 8388607 s).1, (clamp (-8388608) 8388607 s).2)
  | .macu => (BitVec.ofNat 24 u, decide (2 ^ 24 ≤ u))
  | _ => (if wide then BitVec.ofNat 24 (b.toNat * 4096 + a.toNat) else BitVec.ofInt 24 (sgn a), false)

/-- ACRH and ACRE (R94, R98). -/
def accResult (o : WordOp) (acc : BitVec 24) (m : Nat) : Cell × Bool :=
  satS (match o with
    | .acre => halfEven acc.toInt m
    | _ => halfUp acc.toInt m)

/-- A reduction over the active lanes: result and flag (R112). -/
def reduceResult (o : VecOp) (l : List Cell) : Cell × Bool :=
  match o with
  | .vrsum => let t := (l.map (·.toNat)).sum; (BitVec.ofNat 12 t, decide (4095 < t))
  | .vror => logic (l.foldl (· ||| ·) 0)
  | .vrand => let r := l.foldl (· &&& ·) 0xFFF#12; (r, decide (r = 0xFFF#12))
  | _ => let r := l.foldl (· ^^^ ·) 0; (r, decide (ones r % 2 = 1))

/-- A mask operation (R112). -/
def maskResult (o : VecOp) (a b : Cell) : Cell :=
  match o with
  | .vmand => a &&& b
  | .vmor => a ||| b
  | _ => a ^^^ b

/-- The bit-class function: bit i = 8·N + 4·C + 2·B + A of tt (R86). -/
def tableBit (tt : BitVec 16) (a b c n : Bool) : Bool := tt.toNat.testBit (8 * b2n n + 4 * b2n c + 2 * b2n b + b2n a)

end Sys2Proof.Machine
end

