-- ==== Sys2Proof/Machine/Operands.lean ====
section
/-!
DEFINITION. Sys2Proof/Machine/Operands.lean: what a cluster's slots read on one step: registers and cells as R48 to R50 make
them visible, operand addresses (R46, R64, R87), near selectors (R89), and what each slot does with them (R86 to R115).
-/
namespace Sys2Proof.Machine

/-- What one cluster sees on one step. -/
structure View where
  c : Cluster
  /-- Steps per design cycle. -/
  p : Nat
  /-- Tight mode (R50). -/
  tight : Bool
  /-- Number of the first free choice of this cluster's step. -/
  base : Nat
  /-- The crossbar cell of this step (R122). -/
  xbar : Cell
  /-- DCP (R89). -/
  dcp : Bool
  /-- The value of a berth's entry of the current parity. -/
  berth : Nat → Cell
  /-- An access lies within its region, and a write within a writable one (R107, R156): region, address, write. -/
  inRange : Nat → Nat → Bool → Bool

/-! ### Distances (R48, R117) -/

def latReg (tight : Bool) : Nat := if tight then 1 else 2
def latMul (tight : Bool) : Nat := if tight then 2 else 3
def latCell : Nat := 2
def latLoad : Nat := 3
def latIndex : Nat := 2

/-- Distance of a word-path result by its destination. -/
def latWord (tight : Bool) : Dest → Nat
  | .rf r => if r = 68 ∨ r = 69 then latIndex else latReg tight
  | .vm _ => latCell
  | .vl => latIndex

/-! ### Reads -/

/-- New bits under a mask. -/
def merge (old new mask : Cell) : Cell := (old &&& ~~~mask) ||| (new &&& mask)

/-- The writes in flight that a read could meet: destination, value, mask, slot, issue step. -/
def View.flight (v : View) : List (Dest × Cell × Cell × Nat × Nat) :=
  (v.c.reads.filterMap fun r => if r.writes then some (r.dest, cellOf r.value, 0xFFF#12, r.slot, r.issued) else none) ++
  (v.c.inflight.map fun w => (w.dest, w.value, w.mask, w.slot, w.issued))

/-- In tight mode a read inside a write shadow returns the old or the new value, which the manual leaves open (R50): one
free choice for each write in flight and reader. -/
def View.seen (v : View) (reader : Nat) (d : Dest) (old : Cell) : Cell :=
  if v.tight then
    v.flight.foldl (fun x e =>
      if e.1 = d ∧ Config.freeBit (v.base + 64 * (e.2.2.2.1 + 16 * (v.c.gstep - e.2.2.2.2)) + reader) then
        merge x e.2.1 e.2.2.1 else x) old
  else old

/-- A register. -/
def View.rf (v : View) (reader r : Nat) : Cell := v.seen reader (.rf r) (cellOf (Mem.get v.c.rf r))

/-- A value-memory cell; reads of one cell on one step merge (R55). -/
def View.cell (v : View) (n : Nat) : Cell := v.seen 0 (.vm n) (cellOf (Mem.get v.c.vm n))

/-- The active length. -/
def View.vl (v : View) (reader : Nat) : Nat := (v.seen reader .vl (BitVec.ofNat 12 v.c.vl)).toNat

/-- Loop index k (R64). -/
def View.li (v : View) (one : Bool) : Nat :=
  match if one then v.c.lvl1 else v.c.lvl0 with
  | some l => l.done
  | none => 0

/-- A step-relative cell (R46). -/
def View.relCell (v : View) (k : Nat) : Nat := (((v.c.t : Int) - k) % (v.p : Int)).toNat

/-- The cell a cell-kind operand names. -/
def View.addr (v : View) (reader : Nat) : Operand → Nat
  | .cell c => c.toNat
  | .rel k => v.relCell k.toNat
  | .ix one b => (b.toNat + (v.rf reader (if one then 69 else 68)).toNat) % 4096
  | .li one b => (b.toNat + v.li one) % 4096
  | _ => 0

/-- The value of a source in slot s (R91, R92). -/
def View.src (v : View) (s reader : Nat) (o : Operand) : Cell :=
  match o with
  | .reg r => v.rf reader r.toNat
  | .cell _ | .rel _ | .ix _ _ | .li _ _ => v.cell (v.addr reader o)
  | .imm x => x
  | .xbar => v.xbar
  | .ixReg one => v.rf reader (if one then 69 else 68)
  | .liReg one => BitVec.ofNat 12 (v.li one)
  | .mask m => v.rf reader (64 + m.toNat)
  | .vl => BitVec.ofNat 12 (v.vl reader)
  | .acc high => v.rf reader (70 + 2 * s + b2n high)
  | .none | .bad => 0

/-- The cells and registers that reading a source touches. -/
def View.touch (v : View) (s reader : Nat) (o : Operand) : List Nat × List Nat :=
  match o with
  | .reg r => ([], [r.toNat])
  | .cell _ | .rel _ | .li _ _ => ([v.addr reader o], [])
  | .ix one _ => ([v.addr reader o], [if one then 69 else 68])
  | .ixReg one => ([], [if one then 69 else 68])
  | .mask m => ([], [64 + m.toNat])
  | .acc high => ([], [70 + 2 * s + b2n high])
  | .imm _ | .xbar | .liReg _ | .vl | .none | .bad => ([], [])

/-- The registers that forming a destination address reads. -/
def View.touchDest : Operand → List Nat
  | .ix one _ => [if one then 69 else 68]
  | _ => []

/-- Where a destination lands. -/
def View.dest (v : View) (reader : Nat) : Operand → Option Dest
  | .reg r => some (.rf r.toNat)
  | .ixReg one => some (.rf (if one then 69 else 68))
  | .mask m => some (.rf (64 + m.toNat))
  | .cell c => some (.vm c.toNat)
  | .rel k => some (.vm (v.addr reader (.rel k)))
  | .ix one b => some (.vm (v.addr reader (.ix one b)))
  | .li one b => some (.vm (v.addr reader (.li one b)))
  | _ => none

/-- This is the last issue of the body of a repeat level (R89). -/
def lastIssue : Option RepLevel → Bool
  | some l => decide (l.count ≤ 1)
  | none => false

/-- A near selector's bit; berth codes are read by the bit class itself (R89). -/
def View.near (v : View) (n : Nat) : Bool :=
  if n < 12 then v.c.latch.toNat.testBit n
  else if n < 24 then v.xbar.toNat.testBit (n - 12)
  else match n with
    | 27 => true
    | 28 => lastIssue v.c.lvl0
    | 29 => lastIssue v.c.lvl1
    | 30 => v.dcp
    | _ => false

/-- A predicate (R102). -/
def View.pred (v : View) (p : Pred) : Bool := v.near p.pn.toNat != p.pinv

/-! ### What a slot does -/

/-- An explicit write: destination, value, distance, slot. -/
structure SlotWrite where
  dest : Dest
  value : Cell
  lat : Nat
  slot : Nat
  deriving DecidableEq, Repr

/-- A design-memory access that reaches the unit or returns 0 (R106, R107). -/
structure SlotMem where
  slot : Nat
  region : Nat
  addr : Nat
  inRange : Bool
  write : Option Cell
  dest : Option Dest
  enabled : Bool
  deriving DecidableEq, Repr

/-- Everything one slot does on one step. -/
structure SlotOut where
  /-- The implied bit; none for NOP and REP (R43). -/
  flag : Option Bool := none
  writes : List SlotWrite := []
  /-- The accumulator as the next multiply-accumulate sees it (R100). -/
  acc : Option (BitVec 24) := none
  xsend : Option Cell := none
  nsend : Option (Nat × Cell) := none
  dmem : Option SlotMem := none
  /-- Cells and registers read, berths read, berths consumed. -/
  cells : List Nat := []
  regs : List Nat := []
  berths : List Nat := []
  consumes : List Nat := []
  deriving DecidableEq, Repr

/-- One write, if the predicate lets it. -/
def oneWrite (on : Bool) (d : Option Dest) (x : Cell) (lat : Dest → Nat) (s : Nat) : List SlotWrite :=
  match d with
  | some d => if on then [⟨d, (match d with | .rf r => if 64 ≤ r ∧ r < 68 then x &&& 0xFF#12 else x | _ => x), lat d, s⟩]
              else []
  | none => []

/-- Reader numbers: 0 for cells, then three operands for each slot. -/
def rdr (s k : Nat) : Nat := 1 + 3 * s + k

/-- The cell that input A of a bit-class slot reads (R87). -/
def View.bitCell (v : View) (am a : Nat) : Nat :=
  match am with
  | 1 => v.relCell a
  | 2 => (a + v.li false) % 4096
  | 3 => (a + v.li true) % 4096
  | _ => a

/-- A bit-class slot (R86 to R90). -/
def View.evalBit (v : View) (am : BitVec 2) (tt a b c : BitVec 16) (n : BitVec 5) : SlotOut :=
  let ca := v.bitCell am.toNat (a.toNat / 16)
  let berth := n.toNat = 24 ∨ n.toNat = 25
  let bn := c.toNat / 16
  let useA := dependsOn tt 0
  let useB := dependsOn tt 1
  let useC := dependsOn tt 2 && !decide berth
  let at_ := fun (use : Bool) (cell idx : Nat) => use && (v.cell cell).toNat.testBit idx
  let nb := if berth then (v.berth bn).toNat.testBit (c.toNat % 16) else v.near n.toNat
  { flag := some (tableBit tt (at_ useA ca (a.toNat % 16)) (at_ useB (b.toNat / 16) (b.toNat % 16))
      (at_ useC bn (c.toNat % 16)) nb),
    cells := (if useA then [ca] else []) ++ (if useB then [b.toNat / 16] else []) ++ (if useC then [bn] else []),
    berths := if berth then [bn] else [],
    consumes := if n.toNat = 25 then [bn] else [] }

/-- A word-class slot (R94 to R102, R114). -/
def View.evalWord (v : View) (s : Nat) (o : WordOp) (d a b : BitVec 16) (p : Pred) (aux : Nat) : SlotOut :=
  let on := v.pred p
  let oa := operandOf a
  let ob := operandOf b
  let od := operandOf d
  let useA := o.readsA
  let useB := o.readsB aux
  let x := if useA then v.src s (rdr s 0) oa else 0
  let y := if useB then v.src s (rdr s 1) ob else 0
  let n := if aux.testBit 7 then y.toNat % 16 else aux % 16
  let ta := if useA then v.touch s (rdr s 0) oa else ([], [])
  let tb := if useB then v.touch s (rdr s 1) ob else ([], [])
  let accRegs := match o with
    | .mac | .macs | .macu | .acrh | .acre => [70 + 2 * s, 71 + 2 * s]
    | _ => []
  let out : SlotOut :=
    { cells := ta.1 ++ tb.1, regs := ta.2 ++ tb.2 ++ View.touchDest od ++ accRegs }
  let dst := v.dest (rdr s 2) od
  match o with
  | .mul | .mulu | .mulsu =>
    let r := mulResult o x y
    match dst with
    | some (.rf j) =>
      { out with flag := some (on && r.2),
                 writes := if on then [⟨.rf j, r.1.setWidth 12, latMul v.tight, s⟩,
                   ⟨.rf (j + 1), (r.1 >>> 12).setWidth 12, latMul v.tight, s⟩] else [] }
    | _ => { out with flag := some false }
  | .mac | .macs | .macu | .acld =>
    let old := v.c.acLive.get s (BitVec.ofNat 24 ((cellOf (Mem.get v.c.rf (71 + 2 * s))).toNat * 4096 +
      (cellOf (Mem.get v.c.rf (70 + 2 * s))).toNat))
    let r := macResult o old x y (aux.testBit 0)
    { out with flag := some (on && r.2), acc := if on then some r.1 else none,
               writes := if on then [⟨.rf (70 + 2 * s), r.1.setWidth 12, latMul v.tight, s⟩,
                 ⟨.rf (71 + 2 * s), (r.1 >>> 12).setWidth 12, latMul v.tight, s⟩] else [] }
  | .acrh | .acre =>
    let acc := BitVec.ofNat 24 ((v.rf (rdr s 0) (71 + 2 * s)).toNat * 4096 + (v.rf (rdr s 0) (70 + 2 * s)).toNat)
    let r := accResult o acc (aux % 32)
    { out with flag := some (on && r.2), writes := oneWrite on dst r.1 (latWord v.tight) s }
  | .vsetl =>
    let g := min x.toNat 8
    { out with flag := some (on && decide (g < x.toNat)),
               writes := if on then [⟨.rf 69, BitVec.ofNat 12 g, latIndex, s⟩, ⟨.vl, BitVec.ofNat 12 g, latIndex, s⟩]
                 else [] }
  | _ =>
    let r := wordResult o x y n (v.near (aux % 32))
    { out with flag := some (on && r.2), writes := oneWrite on dst r.1 (latWord v.tight) s }

/-- A move-class slot (R103 to R105). -/
def View.evalMove (v : View) (s : Nat) (o : MoveOp) (d src : BitVec 16) (num : Nat) (cons : Bool) (p : Pred) : SlotOut :=
  let on := v.pred p
  let os := operandOf src
  let od := operandOf d
  let dst := v.dest (rdr s 2) od
  match o with
  | .mov =>
    let x := v.src s (rdr s 0) os
    let t := v.touch s (rdr s 0) os
    let lat := fun (d : Dest) => match d with
      | .rf r => if os.isCell && decide (r < 64) then latLoad else latWord v.tight (.rf r)
      | d => latWord v.tight d
    { flag := some (on && decide (x ≠ 0)), writes := oneWrite on dst x lat s, cells := t.1,
      regs := t.2 ++ View.touchDest od }
  | .brd =>
    let x := v.berth num
    { flag := some (on && decide (x ≠ 0)), writes := oneWrite on dst x (latWord v.tight) s, regs := View.touchDest od,
      berths := [num], consumes := if cons then [num] else [] }
  | .xsnd =>
    let t := v.touch s (rdr s 0) os
    { flag := some false, xsend := some (v.src s (rdr s 0) os), cells := t.1, regs := t.2 }
  | .nsnd =>
    let t := v.touch s (rdr s 0) os
    { flag := some false, nsend := some (num, v.src s (rdr s 0) os), cells := t.1, regs := t.2 }

/-- A memory-class slot (R106, R107, R156). -/
def View.evalMem (v : View) (s : Nat) (o : MemOp) (d src x : BitVec 16) (region : Nat) (p : Pred) : SlotOut :=
  let on := v.pred p
  let ox := operandOf x
  let os := operandOf src
  let wide := decide (o = .drdw) || decide (o = .dwrw)
  let write := decide (o = .dwr) || decide (o = .dwrw)
  let lo := v.src s (rdr s 0) ox
  let ca := v.addr (rdr s 0) ox
  let hi : Cell := if !wide then 0 else match ox with
    | .reg r => v.rf (rdr s 0) (r.toNat + 1)
    | _ => v.cell ((ca + 1) % 4096)
  let t := v.touch s (rdr s 0) ox
  let more : List Nat × List Nat := if !wide then ([], []) else match ox with
    | .reg r => ([], [r.toNat + 1])
    | _ => ([(ca + 1) % 4096], [])
  let a := hi.toNat * 4096 + lo.toNat
  let y := v.src s (rdr s 1) os
  let ts := if write then v.touch s (rdr s 1) os else ([], [])
  let ok := v.inRange region a write
  { flag := some (on && !ok),
    cells := t.1 ++ more.1 ++ ts.1, regs := t.2 ++ more.2 ++ ts.2 ++ View.touchDest (operandOf d),
    dmem := some ⟨s, region, a, ok, if write then some y else none,
      if write then none else v.dest (rdr s 2) (operandOf d), on⟩ }

/-! ### Vector quads (R108 to R115) -/

/-- Flags of the four slots of a quad from the eight lanes (R113). -/
def pairFlags (l : Nat → Bool) (j : Nat) : Bool := l (2 * j) || l (2 * j + 1)

/-- What one lane does: its value for vd, its flag. -/
def View.lane (v : View) (o : VecOp) (f : VecFields) (q i : Nat) (sb : Cell) (m : Cell) : Cell × Bool :=
  let a := v.rf (rdr q 0) (8 * f.va.toNat + i)
  let b := if f.bs then sb else v.rf (rdr q 1) (8 * f.vb.toNat + i)
  match o with
  | .lane w => wordResult w a b (if f.aux.toNat.testBit 11 then sb.toNat % 16 else f.aux.toNat % 16) false
  | .vsel => (if m.toNat.testBit i then b else a, m.toNat.testBit i)
  | .vbcast => logic sb
  | .vld => logic (v.cell ((v.addr (rdr q 2) (operandOf f.sb) + i) % 4096))
  | _ => logic a

/-- The lanes that a lane operation of the quad acts on: active ones, and of those 0 to 3 for VSTL and 4 to 7 for VSTH. -/
def VecOp.takes (o : VecOp) (i : Nat) : Bool :=
  match o with
  | .vstl => decide (i < 4)
  | .vsth => decide (4 ≤ i)
  | _ => true

/-- The whole quad: what its lead does, and the flags of its four slots. -/
def View.evalVec (v : View) (q : Nat) (o : VecOp) (f : VecFields) (p : Pred) : SlotOut × (Nat → Bool) :=
  let on := v.pred p
  let os := operandOf f.sb
  let vl := v.vl (rdr q 2)
  let mreg := 64 + f.ms.toNat
  let m := v.rf (rdr q 2) mreg
  let useM := f.um || decide (o = .vsel)
  let active := fun i => decide (i < vl) && (!f.um || m.toNat.testBit i)
  let act := which 8 active
  let mask := fun (x : BitVec 3) => 64 + x.toNat % 4
  let maskWrite := fun (x : Cell) => oneWrite on (some (.rf (64 + f.fm.toNat))) x (latWord v.tight) q
  let one := fun (b : Bool) (j : Nat) => decide (j = 0) && b
  match o with
  | .vmst =>
    if vl = 0 then ({}, fun _ => false)
    else
      let x := v.rf (rdr q 0) (mask f.va)
      ({ writes := oneWrite on (v.dest (rdr q 2) os) x (latWord v.tight) q, regs := [mask f.va] ++ View.touchDest os },
        one (on && decide (x ≠ 0)))
  | .vmld =>
    let x := v.src q (rdr q 0) os &&& 0xFF#12
    let t := v.touch q (rdr q 0) os
    ({ writes := maskWrite x, cells := t.1, regs := t.2 },
      pairFlags fun i => on && decide (vl ≠ 0) && x.toNat.testBit i)
  | .vmand | .vmor | .vmxor =>
    let x := maskResult o (v.rf (rdr q 0) (mask f.va)) (v.rf (rdr q 1) (mask f.vb))
    ({ writes := maskWrite x, regs := [mask f.va, mask f.vb] },
      pairFlags fun i => on && decide (vl ≠ 0) && x.toNat.testBit i)
  | .vrsum | .vror | .vrand | .vrxor =>
    if vl = 0 then ({}, fun _ => false)
    else
      let r := reduceResult o (act.map fun i => v.rf (rdr q 0) (8 * f.va.toNat + i))
      ({ writes := oneWrite on (v.dest (rdr q 2) os) r.1 (latWord v.tight) q,
         regs := (act.map fun i => 8 * f.va.toNat + i) ++ (if f.um then [mreg] else []) ++ View.touchDest os },
        one (on && r.2))
  | _ =>
    let store := decide (o = .vstl) || decide (o = .vsth)
    let load := decide (o = .vld)
    let ls := act.filter o.takes
    let isShift := match o with | .lane w => w.isShift | _ => false
    let compare := match o with
      | .lane .ceq | .lane .cne | .lane .clt | .lane .cltu => true
      | _ => false
    let usesSb := f.bs || decide (o = .vbcast) || (isShift && f.aux.toNat.testBit 11)
    let sb := v.src q (rdr q 2) os
    let base := v.addr (rdr q 2) os
    let usesA := match o with | .vld | .vbcast => false | _ => true
    let usesB := match o with | .lane _ => !f.bs && !isShift | .vsel => true | _ => false
    let res := fun i => v.lane o f q i sb m
    let flag := fun i => (ls.contains i) && (res i).2
    let t := if ls = [] then ([], []) else if usesSb then v.touch q (rdr q 2) os
      else if store || load then ([], View.touchDest os) else ([], [])
    let lw := if !on || compare then [] else ls.map fun i =>
      if store then ⟨.vm ((base + i) % 4096), (res i).1, latCell, q + i % 4⟩
      else ⟨.rf (8 * f.vd.toNat + i), (res i).1, if load then latLoad else latReg v.tight, q⟩
    let fm := (which 8 flag).foldl (fun n i => n + 2 ^ i) 0
    ({ writes := lw ++ (if f.fw then maskWrite (BitVec.ofNat 12 fm) else []),
       cells := t.1 ++ (if load then ls.map fun i => (base + i) % 4096 else []),
       regs := t.2 ++ (if useM && decide (vl ≠ 0) then [mreg] else []) ++ (if usesA then ls.map fun i => 8 * f.va.toNat + i else []) ++
         (if usesB then ls.map fun i => 8 * f.vb.toNat + i else []) },
      pairFlags fun i => on && flag i)

/-- What slot s of a word does. The lead of a quad carries the quad's reads and writes; each slot of it has its own flag. -/
def View.evalSlot (v : View) (l : List SlotI) (s : Nat) : SlotOut :=
  match (l[s]?).getD .nop with
  | .nop | .rep _ _ => {}
  | .bit am tt a b c n => v.evalBit am tt a b c n
  | .word o d a b p aux => v.evalWord s o d a b p aux.toNat
  | .move o d x num cons p => v.evalMove s o d x num.toNat cons p
  | .mem o d y x r p => v.evalMem s o d y x r.toNat p
  | .vec o f p => let r := v.evalVec s o f p; { r.1 with flag := some (r.2 0) }
  | .cont part =>
    match (l[s - part.toNat]?).getD .nop with
    | .vec o f p => { flag := some ((v.evalVec (s - part.toNat) o f p).2 part.toNat) }
    | _ => {}

/-- What the twelve slots of a word do, in slot order. -/
def View.evalWordAll (v : View) (l : List SlotI) : List SlotOut := (List.range 12).map (v.evalSlot l)

end Sys2Proof.Machine
end

