-- ==== Sys2Proof/Machine/Issue.lean ====
section
/-!
DEFINITION. Sys2Proof/Machine/Issue.lean: one step of a partition on this device: fetch, the checks before a step, the waits,
and what the step does (R21, R39 to R76, R118, R121 to R134, R150, R160 to R165, R189 to R201).
-/
namespace Sys2Proof.Machine

/-! ### Faults before a step -/

/-- Latch a cluster cause and stop it before its next step (CLU_STATUS.state 8). A retired cluster issues nothing and raises no
cause (R81; log entry 64). -/
def State.cluStop (s : State) (c : Nat) (f : Field) : State :=
  if s.on Reg.CLU_ROLE_retired c then s else (s.cause (.cluster c) f c).modClu c fun x => { x with st := 8 }

/-- Latch a reach cause with its first record, and stop the partition (RCH_FAULT_INFO). -/
def State.rchStop (s : State) (t r : Nat) (f : Field) (pos slot net step : Nat) : State :=
  let s := if s.on Reg.RCH_FAULT_INFO_valid r then s
    else ((((s.setRg Reg.RCH_FAULT_INFO_valid r 1).setRg Reg.RCH_FAULT_INFO_position r pos).setRg
      Reg.RCH_FAULT_INFO_slot r slot).setRg Reg.RCH_FAULT_INFO_net_slot r net).setRg Reg.RCH_FAULT_INFO_step r step
  (s.cause (.reach r) f r).modPart t fun x => { x with stopped := true }

/-! ### Writes that fall due -/

/-- One write takes effect. A merge into a cell with a parity error stores nothing (R75, R76). -/
def State.land (s : State) (c : Nat) (d : Dest) (v mask : Cell) : State :=
  match d with
  | .vl => s.modClu c fun x => { x with vl := v.toNat }
  | .rf r => s.putRf c r v
  | .vm n =>
    if mask = 0xFFF#12 then s.putVm c n v
    else
      let old := Mem.get (s.clu c).vm n
      if parityOk old then s.putVm c n (merge (cellOf old) v mask)
      else (s.tally true 0 1 c n).cluStop c Reg.CLU_CAUSE_vm_parity

/-- The explicit writes of a cluster due at or before step g, in the order of R53: by the step they issued on, then by slot. -/
def Cluster.explicitDue (c : Cluster) (g : Nat) : List (Dest × Cell × Cell) :=
  ((c.reads.filter fun r => r.issued + dmemL ≤ g ∧ r.writes).map fun r => (r.dest, cellOf r.value, 0xFFF#12)) ++
  (c.inflight.filter fun w => w.due ≤ g ∧ !w.implied).map fun w => (w.dest, w.value, w.mask)

/-- The writes of a cluster due at or before step g, in the order of R53. An implied write has reached its cell with the step
after its own (R56); where an explicit write to that cell is due with it, it takes effect once more, after that write. -/
def Cluster.due (c : Cluster) (g : Nat) : List (Dest × Cell × Cell) :=
  let l := c.explicitDue g
  l ++ (c.inflight.filter fun w => w.implied ∧ w.due ≤ g ∧
      (c.gstep < w.issued + 2 ∨ (l.any fun e => decide (e.1 = w.dest)) = true)).map fun w => (w.dest, w.value, w.mask)

/-- What a write left in value memory, for the gauges of its reach (R493). -/
def State.seenAt (s : State) (c : Nat) (d : Dest) : List Seen :=
  match d, s.position c with
  | .vm n, some p => [{ reach := c / 17, kind := 0, position := p, c := n, value := cellOf (Mem.get (s.clu c).vm n) }]
  | _, _ => []

/-- Writes take effect in order; what they left in value memory is offered to the gauges. -/
def State.landAll (s : State) (c : Nat) (l : List (Dest × Cell × Cell)) : State × List Seen :=
  l.foldl (fun a w =>
    let s := a.1.land c w.1 w.2.1 w.2.2
    (s, a.2 ++ s.seenAt c w.1)) (s, [])

/-- The cell of a value-memory write. -/
def Dest.cell? : Dest → Option Nat
  | .vm n => some n
  | _ => none

/-- The writes of a cluster due by step g take effect. -/
def State.commitDue (s : State) (c g : Nat) : State × List Seen :=
  let x := s.clu c
  let s := s.setClu c { x with reads := x.reads.filter fun r => g < r.issued + dmemL,
                               inflight := x.inflight.filter fun w => g < w.due,
                               stepWrites := x.stepWrites ++ (x.explicitDue g).filterMap (·.1.cell?) }
  s.landAll c (x.due g)

/-- Every write a cluster has issued is completed, each after those due before it (R53, R54). VL is 8 afterwards, as row 2 of R134 and
action 8 of R302 leave it (R110; log entry 77). -/
def State.completeWrites (s : State) (c : Nat) : State × List Seen :=
  let g := (s.clu c).gstep
  let r := (List.range (dmemL + 1)).foldl (fun (a : State × List Seen) i =>
    let b := a.1.commitDue c (g + i)
    (b.1, a.2 ++ b.2)) (s, [])
  (r.1.modClu c fun x => { x with stepWrites := [], vl := 8 }, r.2)

/-- As a step ends, the implied write of the step before it reaches its cell (R56, R75). -/
def State.mergeImplied (s : State) (c : Nat) : State × List Seen :=
  let x := s.clu c
  s.landAll c ((x.inflight.filter fun w => w.implied ∧ w.issued + 2 = x.gstep).map fun w => (w.dest, w.value, w.mask))

/-- A cluster as the windows and the snapshot show it: in Readback, every write of the design cycle that has ended is complete, though
it takes effect for the slots only when it is due (R45, R51, R499). -/
def State.shown (s : State) (c : Nat) : Cluster :=
  match s.owner (c / 17) with
  | some t =>
    if s.pmode t = 6 then
      let s := (s.setRg Reg.TST_FLIP_arm 0 0).modClu c fun x => { x with reads := x.reads.filter fun r => parityOk r.value }
      ((s.completeWrites c).1).clu c
    else s.clu c
  | none => s.clu c

/-- A value cell that a window is about to write has taken the writes that Readback shows as complete (R499; log entry 91). -/
def State.settleCell (s : State) (c n : Nat) : State :=
  let x := s.clu c
  let v := s.shown c
  let pending := (x.inflight.any fun w => w.dest = .vm n) || x.reads.any fun r => r.dest = .vm n
  if pending ∧ (s.owner (c / 17)).any (fun t => s.pmode t = 6) then
    (s.storeVm c n (Mem.get v.vm n)).modClu c fun y =>
      { y with inflight := y.inflight.filter fun w => w.dest ≠ .vm n, reads := y.reads.filter fun r => r.dest ≠ .vm n }
  else s

/-! ### Fetch and legality -/

/-- The slots of a program word. -/
def Cluster.slots (c : Cluster) (w : Nat) : List (Option SlotI) :=
  (List.range 12).map fun s =>
    decodeSlot (slotOfCells ((List.range 6).map fun i => cellOf (Mem.get c.pm (72 * w + 6 * s + i))))

/-- The first cell of a word that fails parity (R67). -/
def Cluster.badCell (c : Cluster) (w : Nat) : Option Nat :=
  (List.range 72).find? fun i => !parityOk (Mem.get c.pm (72 * w + i))

/-- The REP of a word. -/
def repOf (l : List SlotI) : Option (Nat × Nat) :=
  l.findSome? fun i => match i with
    | .rep n e => some (n.toNat + 1, e.toNat)
    | _ => none

/-- A REP that R63 forbids. -/
def repFault (c : Cluster) (lastWord : Nat) (l : List SlotI) : Bool :=
  match repOf l with
  | none => false
  | some (_, e) => (c.lvl0.isSome && c.lvl1.isSome) || decide (e ≤ c.pc) || decide (lastWord < e) ||
      (match c.lvl0 with
        | some l0 => decide (l0.last < e)
        | none => false)

/-- One cluster of a step: its reach, its position, its number, its word. -/
structure Unit_ where
  reach : Nat
  pos : Nat
  c : Nat
  word : List SlotI
  deriving DecidableEq, Repr

/-- What a fetch finds. -/
inductive Fetched where
  | word (l : List SlotI)
  | parity
  | breakpoint
  | illegal
  | rep
  deriving DecidableEq, Repr

/-- Fetch the word at a cluster's PC (R67, R71, R118, R63). -/
def State.fetch (s : State) (c : Nat) : Fetched :=
  let x := s.clu c
  if (x.badCell x.pc).isSome then .parity
  else if s.on Reg.CLU_TRAP_bp_en c ∧ s.rg Reg.CLU_TRAP_bp_word c = x.pc ∧ !x.bpPass then .breakpoint
  else
    let l := x.slots x.pc
    let w := l.filterMap id
    if !wordLegal l then .illegal
    else if repFault x (s.rg Reg.CLU_PROG_last_word c) w then .rep
    else .word w

/-- A fetch that finds no word stops or delays its cluster. -/
def State.fetchStop (s : State) (c : Nat) (f : Fetched) : State :=
  match f with
  | .word _ => s
  | .parity => s.modClu c fun x => { x with st := 5 }
  | .breakpoint => (s.cause (.cluster c) Reg.CLU_CAUSE_breakpoint c).modClu c fun x => { x with st := 6, stopBit := some 1 }
  | .illegal => s.cluStop c Reg.CLU_CAUSE_illegal
  | .rep => s.cluStop c Reg.CLU_CAUSE_repeat

/-! ### Reach tables -/

/-- Cells of a table entry. -/
def entryCells (m : Mem 13) (a n : Nat) : List SCell := Mem.getRun m a n

def entryOk (l : List SCell) : Bool := l.all parityOk

/-- The number that an entry's cells spell (R2). -/
def entryNat (l : List SCell) : Nat := l.foldr (fun c v => (cellOf c).toNat + 4096 * v) 0

/-- A table entry that failed parity is written back from its golden copy, or is lost with both copies (R150). The entry is
the lowest-numbered cell that takes a flip (R346). -/
def State.rewriteEntry (s : State) (r a : Nat) (l : List Cell) (addr : Nat) (nsm : Bool) : State :=
  let d := s.flipCell 3 r addr ((l.head?).getD 0)
  let cells := d.1 :: (l.tail.map store)
  d.2.modRch r fun x => if nsm then { x with nsm := Mem.putRun x.nsm a cells } else { x with xbt := Mem.putRun x.xbt a cells }

/-- A net-slot entry's golden cells, its local reach replaced by the bound physical reach (R133, R146). -/
def State.goldNet (s : State) (t rel n : Nat) : List Cell :=
  let l := Mem.getRun (s.part t).goldNsm (12288 * rel + 3 * n) 3
  let v : Nat := l.foldr (fun c n => c.toNat + 4096 * n) 0
  if v / 2 ^ 34 = 1 then
    let w := v - bits v 16 5 * 2 ^ 16 + s.phys t (bits v 16 5) * 2 ^ 16
    [BitVec.ofNat 12 w, BitVec.ofNat 12 (w / 4096), BitVec.ofNat 12 (w / 4096 / 4096)]
  else l

/-- Key in `Part.goldLost` of crossbar entry u and net slot n of a relative reach. -/
def goldXbtKey (rel u : Nat) : Nat := 2 ^ 20 + 1024 * rel + u
def goldNsmKey (rel n : Nat) : Nat := 2 ^ 21 + 4096 * rel + n

/-- The first or the second golden copy of an entry is unreadable (R69, R70, R150; log entry 50). -/
def State.goldLostOf (s : State) (t : Nat) (second : Bool) (key : Nat) : Bool :=
  (s.part t).goldLost.any fun n => Config.goldHit n second key

/-- Both golden copies of an entry are unreadable (R69, R150, R322). -/
def State.goldGone (s : State) (t key : Nat) : Bool := s.goldLostOf t false key && s.goldLostOf t true key

/-- Read a crossbar entry, refetching it when it fails parity; none when both copies fail. -/
def State.readXbt (s : State) (t r u : Nat) : Option Nat × State :=
  let rel := s.rel r
  let l := entryCells (s.rch r).xbt (8 * u) 8
  if entryOk l then (some (entryNat l), s)
  else if s.goldGone t (goldXbtKey rel u) then (none, s.tally true 0 3 r u)
  else
    let s := (s.tally false 0 3 r u).rewriteEntry r (8 * u) (Mem.getRun (s.part t).goldXbt (8192 * rel + 8 * u) 8) u false
    let l := entryCells (s.rch r).xbt (8 * u) 8
    if entryOk l then (some (entryNat l), s) else (none, s.tally true 0 3 r u)

/-- Read a net-slot entry in the same way. -/
def State.readNsm (s : State) (t r n : Nat) : Option Nat × State :=
  let rel := s.rel r
  let l := entryCells (s.rch r).nsm (3 * n) 3
  if entryOk l then (some (entryNat l), s)
  else if s.goldGone t (goldNsmKey rel n) then (none, s.tally true 0 3 r (4096 + n))
  else
    let s := (s.tally false 0 3 r (4096 + n)).rewriteEntry r (3 * n) (s.goldNet t rel n) (4096 + n) true
    let l := entryCells (s.rch r).nsm (3 * n) 3
    if entryOk l then (some (entryNat l), s) else (none, s.tally true 0 3 r (4096 + n))

/-- The source code of position p in a crossbar entry (R123). -/
def xbtCode (e p : Nat) : Nat := bits e (5 * p) 5

/-- An NSND of a step, with its net-slot entry. -/
structure Nsend where
  reach : Nat
  pos : Nat
  slot : Nat
  c : Nat
  net : Nat
  entry : Nat
  deriving DecidableEq, Repr

/-- Kinds of net-slot entry (R132). -/
def Nsend.kind (n : Nsend) : Nat := n.entry / 2 ^ 34

/-- The NSNDs of a reach in ascending order of position, then slot (R125). -/
def sendsOf (us : List Unit_) (r : Nat) : List Nsend :=
  (us.filter fun u => u.reach = r).flatMap fun u =>
    u.word.zipIdx.filterMap fun x => match x.1 with
      | .move .nsnd _ _ num _ _ => some { reach := r, pos := u.pos, slot := x.2, c := u.c, net := num.toNat, entry := 0 }
      | _ => none

/-- Read the net-slot entries of a reach's sends. Each that is lost, undefined or late stops the partition before the step
(R128, R131, R150); the flag says that one did. -/
def State.readSends (s : State) (t p step : Nat) (l : List Nsend) : (Bool × List Nsend) × State :=
  l.foldl (fun a n =>
    match a.2.readNsm t n.reach n.net with
    | (none, s) => ((true, a.1.2), s.rchStop t n.reach Reg.RCH_CAUSE_table_parity n.pos n.slot n.net step)
    | (some e, s) =>
      if e / 2 ^ 34 = 0 then ((true, a.1.2), s.rchStop t n.reach Reg.RCH_CAUSE_undefined_slot n.pos n.slot n.net step)
      else
        let late := decide (e / 2 ^ 34 = 1) && decide (p - 1 < step + 8)
        ((a.1.1 || late, a.1.2 ++ [{ n with entry := e }]),
          if late then s.rchStop t n.reach Reg.RCH_CAUSE_late_send n.pos n.slot n.net step else s)) ((false, []), s)

/-- The last send of each set of two or more local sends to one arrival port, in order of physical reach, position and slot
(R128). -/
def collisions (l : List Nsend) : List Nsend :=
  let loc := l.filter fun n => n.kind = 1
  let key := fun (n : Nsend) => (bits n.entry 16 5, bits n.entry 0 2)
  let rank := fun (n : Nsend) => (n.reach * 17 + n.pos) * 12 + n.slot
  loc.filter fun n => (loc.any fun m => key m = key n ∧ m ≠ n) && loc.all fun m => key m ≠ key n || decide (rank m ≤ rank n)

/-- What the tables of one reach give a step: its crossbar entry, its sends, and whether they stop the partition. -/
structure TableRead where
  stop : Bool
  entry : Nat
  sends : List Nsend
  deriving DecidableEq, Repr

/-- The crossbar entry of a reach for a step; none when it stops the partition (R122, R150). -/
def State.reachEntry (s : State) (t step : Nat) (us : List Unit_) (r : Nat) : Option Nat × State :=
  match s.readXbt t r step with
  | (none, s) => (none, s.rchStop t r Reg.RCH_CAUSE_table_parity 0 0 0 step)
  | (some e, s) =>
    let used := (us.filter fun u => u.reach = r).map (·.pos)
    if used.any fun q => 20 < xbtCode e q ∧ xbtCode e q < 31 then
      (none, s.rchStop t r Reg.RCH_CAUSE_xbt_illegal 0 0 0 step)
    else (some e, s)

/-- The tables of one reach for a step: its crossbar entry and its sends, with every cause they raise (R122, R125, R150). -/
def State.reachTables (s : State) (t p step : Nat) (us : List Unit_) (r : Nat) : TableRead × State :=
  if (s.rch r).following = false then (⟨false, 2 ^ 85 - 1, []⟩, s)
  else
    let e := s.reachEntry t step us r
    let l := sendsOf us r
    let s := match l[4]? with
      | some n => e.2.rchStop t r Reg.RCH_CAUSE_send_overflow n.pos n.slot n.net step
      | none => e.2
    let d := s.readSends t p step l
    (⟨e.1.isNone || decide (4 < l.length) || d.1.1, e.1.getD (2 ^ 85 - 1), d.1.2⟩, d.2)

/-! ### Waits (R66) -/

/-- Berths that a word reads (R90, R103). -/
def berthsOf (l : List SlotI) : List Nat :=
  l.filterMap fun i => match i with
    | .bit _ _ _ _ c n => if n.toNat = 24 ∨ n.toNat = 25 then some (c.toNat / 16) else none
    | .move .brd _ _ num _ _ => some num.toNat
    | _ => none

/-- What keeps a step from completing. -/
inductive Hold_ where
  | berth (u : Unit_) (b : Nat)
  | clear (n : Nsend)
  | memory (c : Nat)
  deriving DecidableEq, Repr

/-- The berth, clear and design-memory waits of a step (R160, R191, R199). -/
def State.waitsOf (s : State) (t : Nat) (us : List Unit_) (sends : List Nsend) : List Hold_ :=
  (us.flatMap fun u => ((berthsOf u.word).filter fun b => !s.berthReady t u.reach b).map (Hold_.berth u)) ++
  ((sends.filter fun n => n.kind = 2 ∧ Mem.get (s.rch n.reach).outstanding (2 * n.net + s.parity t) ≠ 0).map Hold_.clear) ++
  ((us.filter fun u => (s.clu u.c).reads.any fun r => r.issued + dmemL ≤ (s.clu u.c).gstep ∧ !r.arrived).map
    fun u => Hold_.memory u.c)

/-- Count one waiting step once for a cluster. -/
def State.countWait (s : State) (c st : Nat) : State :=
  let x := s.clu c
  let s := if x.waitCounted then s else s.count Reg.CLU_CNT_WAIT_steps c 1
  s.modClu c fun x => { x with st := st, waitCounted := true }

/-- Record a berth or clear wait for the watchdog, once (R215). -/
def State.startWait (s : State) (r : Nat) (w : Wait) : State :=
  s.modRch r fun x =>
    if x.waits.any fun y => y.isClear = w.isClear ∧ y.parity = w.parity ∧ y.index = w.index then x
    else { x with waits := x.waits ++ [w] }

/-- A wait for the value of a bridge after a rollback asks it for the net slot once (R298, R314). -/
def State.rejoin (s : State) (t r b : Nat) : State :=
  let m := s.berthMap r b
  let x := s.part t
  if m.1 = 2 ∧ x.rolledBack ∧ s.pmode t ≠ 5 ∧ !x.rejoined.contains m.2 then
    (s.setPart t { x with rejoined := m.2 :: x.rejoined }).message t m.2.1 0x017 [m.2.2, s.epoch t]
  else s

/-- The state of a step that waits. -/
def State.noteWait (t : Nat) (s : State) (h : Hold_) : State :=
  let par := decide (s.parity t = 1)
  match h with
  | .berth u b => ((s.rejoin t u.reach b).startWait u.reach ⟨false, par, u.pos, b, s.epoch t, false⟩).countWait u.c 3
  | .clear n =>
    let known := (s.rch n.reach).waits.any fun y => y.isClear
    let s := if known then s else s.count Reg.RCH_CNT_CLRWAIT_steps n.reach 1
    (s.startWait n.reach ⟨true, par, n.pos, n.net, s.epoch t, false⟩).countWait n.c 3
  | .memory c => s.countWait c 4

/-- The clusters of a step stand at the barrier, but for those that a cause of their own holds (R74). -/
def State.atBarrier (s : State) (us : List Nat) : State :=
  each us (fun c s => s.modClu c fun x => if x.st = 1 ∨ x.st = 0 then { x with st := 7 } else x) s

/-! ### The step -/

/-- A remote value enters the VC0 queue of its link (R129). -/
def State.handOver (t : Nat) (s : State) (a : Handoff) : State :=
  s.sendValue t a.dest a.berth a.tag a.value.toNat a.rel (b2n a.parity) (s.epoch t)

/-- Arrivals and remote hand-offs due by step g (R127, R129). -/
def State.stages (s : State) (t : Nat) : State :=
  let g := (s.part t).gstep
  each (s.part t).bound (fun r s =>
    let x := s.rch r
    let here := x.transit.filter fun a => a.due ≤ g
    let s := s.setRch r { x with transit := x.transit.filter fun a => g < a.due,
                                 handoff := x.handoff.filter fun a => g < a.due,
                                 holds := here.foldl (fun h a => Mem.put h a.port (store a.value)) x.holds }
    (x.handoff.filter fun a => a.due ≤ g).foldl (State.handOver t) s) s

/-- The network stages of a partition complete with the last step of a pound: what they still hold enters its link queue before
the lock (R129, R134; log entry 65). -/
def State.handAll (s : State) (t : Nat) : State :=
  each (s.part t).bound (fun r s =>
    let x := s.rch r
    x.handoff.foldl (State.handOver t) (s.setRch r { x with handoff := [] })) s

/-- The cell that a crossbar entry gives position p (R121 to R124). -/
def State.xbarCell (s : State) (r e p : Nat) : Cell :=
  let k := xbtCode e p
  if k ≤ 16 then match s.playing r k with
    | some c => cellOf (Mem.get (s.clu c).rf 94)
    | none => 0
  else if k ≤ 20 then cellOf (Mem.get (s.rch r).holds (k - 17))
  else 0

/-- What one cluster sees on this step. -/
def State.view (s : State) (t : Nat) (u : Unit_) (entry base : Nat) : View :=
  { c := s.clu u.c, p := s.rg Reg.CLU_PROG_steps_m1 u.c + 1, tight := s.on Reg.CLU_CTRL_dist_mode u.c, base := base,
    xbar := s.xbarCell u.reach entry u.pos, dcp := decide (s.parity t = 1), berth := s.berthValue t u.reach,
    inRange := (s.part t).inRange }

/-- Turns that one bank needs: its distinct reads two to a turn, and its writes one to a turn from the last read's turn on
(R55, R58, R59). -/
def bankTurns (reads writes : Nat) : Nat := if writes = 0 then (reads + 1) / 2 else max 1 ((reads + 1) / 2) + writes - 1

/-- Turns of each bank on a step: the word's reads, the explicit writes due, and the implied write of the step before (R56). -/
def Cluster.turnsOf (c : Cluster) (cells : List Nat) (bank : Nat) : Nat :=
  let implied := (c.inflight.filter fun w => w.implied ∧ w.issued + 1 = c.gstep).filterMap (·.dest.cell?)
  bankTurns ((cells.dedup.filter fun n => n % 8 = bank).length) (((c.stepWrites ++ implied).filter fun n => n % 8 = bank).length)

/-- Count a step's bank turns (R60, CLU_BANK_PEAK). Of several banks with the peak, the lowest-numbered is named (log entry 64). -/
def State.countTurns (s : State) (c step : Nat) (turns : List Nat) : State :=
  let most := turns.foldl max 0
  let s := s.count Reg.CLU_CNT_BANK_turns c (most - 1)
  if s.rg Reg.CLU_BANK_PEAK_turns c < most then
    ((s.setRg Reg.CLU_BANK_PEAK_turns c most).setRg Reg.CLU_BANK_PEAK_bank c (turns.findIdx (· = most))).setRg
      Reg.CLU_BANK_PEAK_step c step
  else s

/-- The next PC and repeat levels after a word issues (R39, R61, R62). -/
def Cluster.advance (c : Cluster) (l : List SlotI) : Cluster :=
  let armed := match repOf l with
    | some (n, e) =>
      let lv : RepLevel := { count := n, first := c.pc + 1, last := e, done := 0 }
      if c.lvl0.isNone then { c with lvl0 := some lv } else { c with lvl1 := some lv }
    | none => c
  let next : Cluster := { armed with pc := c.pc + 1 }
  let ends := fun (v : Option RepLevel) => match v with
    | some v => decide (v.last = c.pc)
    | none => false
  let again := fun (v : RepLevel) => some { v with count := v.count - 1, done := v.done + 1 }
  let level0 := fun (x : Cluster) => match c.lvl0 with
    | some v =>
      if ends (some v) then
        if v.count ≤ 1 then { x with lvl0 := none } else { x with lvl0 := again v, pc := v.first }
      else x
    | none => x
  match c.lvl1 with
  | some v =>
    if ends (some v) then
      if v.count ≤ 1 then level0 { next with lvl1 := none } else { next with lvl1 := again v, pc := v.first }
    else level0 next
  | none => level0 next

/-- The word at last_word has issued with no level active: the design cycle has ended (R40). -/
def Cluster.ended (before after : Cluster) (lastWord : Nat) : Bool :=
  decide (before.pc = lastWord) && after.lvl0.isNone && after.lvl1.isNone

/-- A cluster after its step: results in flight, latch, output register, repeat levels, counters. -/
def Cluster.complete (c : Cluster) (g : Nat) (l : List SlotI) (outs : List SlotOut) : Cluster :=
  let bitOf := fun (o : SlotOut × Nat) => b2n (o.1.flag = some true) * 2 ^ o.2
  let maskOf := fun (o : SlotOut × Nat) => b2n o.1.flag.isSome * 2 ^ o.2
  let flags := BitVec.ofNat 12 ((outs.zipIdx.map bitOf).sum)
  let mask := BitVec.ofNat 12 ((outs.zipIdx.map maskOf).sum)
  let explicit := outs.flatMap fun o => o.writes.map fun w =>
    ({ dest := w.dest, value := w.value, mask := 0xFFF, issued := g, due := g + w.lat, slot := w.slot,
       implied := false } : InFlight)
  let implied : List InFlight := if mask = 0 then [] else
    [{ dest := .vm c.t, value := flags, mask := mask, issued := g, due := g + latCell, slot := 12, implied := true }]
  let acc := outs.zipIdx.foldl (fun (a : Tbl (BitVec 24)) o => match o.1.acc with
    | some v => a.put o.2 v
    | none => a) c.acLive
  { c.advance l with
    acLive := acc, latch := flags, t := c.t + 1, gstep := g + 1, st := 1, bpPass := false, waitCounted := false,
    inflight := c.inflight ++ explicit ++ implied, reads := c.reads ++ c.stepReads, stepReads := [], stepWrites := [] }

/-- Take the design-memory reads of a cluster's step: their values as they are taken, and their requests (R106, R107, R160,
R163). -/
def State.takeReads (s : State) (t : Nat) (u : Unit_) (g : Nat) (outs : List SlotOut) : State :=
  (outs.filterMap (·.dmem)).foldl (fun s m =>
    match m.dest, m.write with
    | some d, none =>
      if m.enabled then
        let v := if m.inRange then s.dmemTake t u.reach m.region m.addr g s.freeCtr else store 0
        let stamp := ((g * 24 + s.rel u.reach) * 17 + u.pos) * 12 + m.slot
        let s := if m.inRange then { s with freeCtr := s.freeCtr + 8192 }.request t u.reach m.region m.addr stamp false else s
        s.modClu u.c fun x => { x with stepReads := x.stepReads ++
          [{ slot := m.slot, issued := x.gstep, pstep := g, dest := d, region := m.region, addr := m.addr, value := v,
             inRange := m.inRange, arrived := !m.inRange, writes := true }] }
      else s
    | _, _ => s) s

/-- The design-memory writes of a word that reach the memory unit (R163). -/
def writesOf (outs : List SlotOut) : List (SlotMem × Cell) :=
  outs.filterMap fun o => o.dmem.bind fun m => match m.write with
    | some v => if m.enabled && m.inRange then some (m, v) else none
    | none => none

/-- One write enters the write buffer of its reach (R162, R175). -/
def State.bufferWrite (s : State) (t : Nat) (u : Unit_) (g : Nat) (m : SlotMem) (v : Cell) : State :=
  let e : WbEntry := { gstep := g, position := u.pos, slot := m.slot, region := m.region, addr := m.addr, value := v,
                       held := (s.part t).firstWrite m.region m.addr }
  let s := s.modRch u.reach fun x => { x with wb := x.wb ++ [e], wbTaken := x.wbTaken + 1 }
  (s.crossReads t u.reach m.region m.addr g v).request t u.reach m.region m.addr (e.stamp (s.rel u.reach)) true

/-- The writes of one reach's step, in stamp order, enter its buffer as far as it has room; the clusters whose writes are left
over wait (R162, R165). -/
def State.bufferWrites (s : State) (t r g : Nat) (outs : List (Unit_ × List SlotOut)) : List Nat × State :=
  let l := ((outs.filter fun o => o.1.reach = r).flatMap fun o => (writesOf o.2).map fun m => (o.1, m)).drop (s.rch r).wbTaken
  let room := 64 - (s.rch r).wb.length
  (((l.drop room).map (·.1.c)).dedup, (l.take room).foldl (fun s x => s.bufferWrite t x.1 g x.2.1 x.2.2) s)

/-- The values of the net sends of a step. -/
def sendValueOf (outs : List (Unit_ × List SlotOut)) (n : Nsend) : Cell :=
  match outs.find? fun x => x.1.c = n.c with
  | some x => match ((x.2[n.slot]?).getD {}).nsend with
    | some v => v.2
    | none => 0
  | none => 0

/-- A send leaves: to an arrival port, a link, or a host port (R126 to R130, R199). -/
def State.leave (s : State) (t g : Nat) (n : Nsend) (v : Cell) : State :=
  let s := s.count Reg.RCH_CNT_SEND_sends n.reach 1
  match n.kind with
  | 1 => s.modRch (bits n.entry 16 5) fun x => { x with transit := x.transit ++ [⟨g + 8, bits n.entry 0 2, v⟩] }
  | 2 =>
    let p := s.parity t
    let d := s.flip 3 n.reach (3 * 4096 + n.net) 1 (1 + 2)
    let bad := decide (oddOnes 2 d.1)
    let key := 2 * n.net + p
    let s := d.2.modPart t fun x =>
      { x with bridge := x.bridge.put (4096 * n.reach + n.net) (x.bridge.get (4096 * n.reach + n.net) [] ++ [(v, decide (p = 1))]) }
    s.modRch n.reach fun x =>
      { x with outstanding := Mem.put x.outstanding key (BitVec.ofNat 1 d.1),
               clrBad := if bad then key :: x.clrBad else x.clrBad.filter (· ≠ key),
               handoff := x.handoff ++
                 [⟨g + 4, n.net, v, decide (p = 1), bits n.entry 22 12, bits n.entry 0 12, bits n.entry 16 5⟩] }
  | _ => s.hostSend t (bits n.entry 0 10) v

/-- One berth's consuming reads of a step: the input is logged, the entry emptied, and its clear sent (R192, R200, R204,
R206, R207, R298, R314). -/
def State.consume (s : State) (t r b : Nat) : State :=
  let m := s.berthMap r b
  let p := s.parity t
  let d := s.dcycle t
  let v := s.berthValue t r b
  match m.1 with
  | 3 =>
    match s.logged t 0 m.2.1 0 d with
    | some _ => s
    | none =>
      let x := s.inPort t m.2.1
      ((s.emptyEntry r b p).setInPort t m.2.1 { x with taken := x.taken.drop 1, consumed := x.consumed + 1,
                                                       dirty := true }).logInput t
        { dcycle := d, kind := 0, source := m.2.1, rel := 0, value := v, status := 0 }
  | 2 =>
    match s.logged t 2 b (s.rel r) d with
    | some _ => s
    | none =>
      ((s.emptyEntry r b p).logInput t
        { dcycle := d, kind := 2, source := b, rel := s.rel r, value := v, status := 0 }) |> fun s =>
        if s.pmode t = 5 then s else s.sendClear t m.2.1 m.2.2 p (s.epoch t)
  | 1 => (s.emptyEntry r b p).sendClear t m.2.1 m.2.2 p (s.epoch t)
  | _ => s

/-- The parity errors among what a cluster's slots read, each with its cause: a cell, a register, a berth (R76, CLU_CAUSE,
RCH_BCAUSE). The flag says that one was found. -/
def State.readFault (s : State) (t : Nat) (u : Unit_) (outs : List SlotOut) : Bool × State :=
  let x := s.clu u.c
  let cell := (outs.flatMap (·.cells)).find? fun n => !parityOk (Mem.get x.vm n)
  let reg := (outs.flatMap (·.regs)).find? fun n => !parityOk (Mem.get x.rf n)
  let berth := (outs.flatMap (·.berths)).find? fun b => s.berthBad t u.reach b
  let s := match cell with
    | some n => (s.tally true 0 1 u.c n).cluStop u.c Reg.CLU_CAUSE_vm_parity
    | none => s
  let s := match reg with
    | some n => (s.tally true 0 2 u.c n).cluStop u.c Reg.CLU_CAUSE_reg_parity
    | none => s
  let s := match berth with
    | some b => ((s.tally true 0 4 u.reach (s.parity t * 4096 + b)).cause (.reach u.reach)
        Reg.RCH_BCAUSE_berth_parity u.reach).modPart t fun y => { y with stopped := true }
    | none => s
  (cell.isSome || reg.isSome || berth.isSome, s)

/-- The output registers that the step's crossbar entries present and that fail parity (class 2, register 94). -/
def State.outRegBad (s : State) (us : List Unit_) (entry : Nat → Nat) : List Nat :=
  (us.filterMap fun u =>
    let k := xbtCode (entry u.reach) u.pos
    if k ≤ 16 ∧ (u.word.any fun i => decide (i ≠ .nop)) then
      match s.playing u.reach k with
      | some c => if parityOk (Mem.get (s.clu c).rf 94) then none else some c
      | none => none
    else none).dedup

/-- One cluster completes a step (R39, R121). The implied write of the step before reaches its cell, and a step count that differs
from the cluster's P stops it (R40); the flag says that it did. R40 compares as last_word issues; a count that passes P without it stops
at step P - 1 (DESIGN CHOICE; log entry 99). -/
def State.finishCluster (s : State) (u : Unit_) (outs : List SlotOut) : Bool × State × List Seen :=
  let c := u.c
  let before := s.clu c
  let after := before.complete before.gstep u.word outs
  let s := s.setClu c after
  let s := match (outs.filterMap (·.xsend)).head? with
    | some v => s.putRf c 94 v
    | none => s
  let r := s.mergeImplied c
  if before.ended after (s.rg Reg.CLU_PROG_last_word c) = decide (before.t = s.rg Reg.CLU_PROG_steps_m1 c) then
    (false, r)
  else (true, r.1.cluStop c Reg.CLU_CAUSE_sequence, r.2)

/-- The step completes on every cluster and network stage (R21, R39, R121, R134). The sends of a step reach the host's ports by relative
reach, position and slot (DESIGN CHOICE; log entry 66). -/
def State.finishStep (s : State) (t : Nat) (outs : List (Unit_ × List SlotOut)) (sends : List Nsend) : State :=
  let g := (s.part t).gstep
  let step := (s.part t).step
  let par := s.parity t
  let fin := outs.foldl (fun (a : Bool × State × List Seen) o =>
    let r := a.2.1.finishCluster o.1 o.2
    (a.1 || r.1, r.2.1, a.2.2 ++ r.2.2)) (false, s, [])
  let s := fin.2.1
  -- sends, then consumed berths, one clear for each entry
  let values := sends.map fun n => (n, sendValueOf outs n)
  let s := values.foldl (fun s x => s.leave t g x.1 x.2) s
  let taken := (outs.flatMap fun o => (o.2.flatMap (·.consumes)).map fun b => (o.1.reach, b)).dedup
  let seenB := taken.map fun x => ({ reach := x.1, kind := 2, position := 0, c := x.2,
                                     value := s.berthValue t x.1 x.2 } : Seen)
  let s := taken.foldl (fun s x => s.consume t x.1 x.2) s
  let seenN := values.map fun x => ({ reach := x.1.reach, kind := 1, position := x.1.pos, c := x.1.net,
                                      value := x.2 } : Seen)
  let w := s.watch (fin.2.2 ++ seenN ++ seenB)
  let s := w.1.resolveFires t step ((w.1.part t).fires ++ w.2)
  let s := each (s.part t).bound (fun r s => s.modRch r fun x => { x with waits := [], wbTaken := 0 }) s
  let s := s.modPart t fun x =>
    { x with step := step + 1, gstep := g + 1, started := true, begun := false, memTaken := false, fires := [] }
  if par = s.parity t ∧ step + 1 = s.steps t ∧ fin.1 = false then
    (if s.dcycle t + 1 = s.poundLen t then s.handAll t else s).cycleEnd t
  else s.settleHold t

/-- CLU_CTRL.enable asks a cluster to issue, and no stop plank forbids it (R41, R81). -/
def State.cluWanted (s : State) (c : Nat) : Bool := s.on Reg.CLU_CTRL_enable c && !s.on Reg.CLU_ROLE_retired c

/-- A cluster whose enable is 0 leaves issue at a step boundary. Where it leaves within a design cycle, no step P - 1 precedes the
step 0 at which it begins again, so its latch must then be loaded (R41, R52). -/
def State.dropCluster (c : Nat) (s : State) : State :=
  if s.cluWanted c then s
  else s.modClu c fun x => { x with issuing := false, st := 0, stopBit := none, latchLoad := x.latchLoad || decide (x.t ≠ 0) }

/-- Issue begins at step 0: enables take effect, and a cluster that begins has its latch loaded where R52 says (R39, R81, R152). -/
def State.beginStep0 (s : State) (t : Nat) : State :=
  let s := each (s.part t).bound (fun r s =>
    s.modRch r fun x => { x with following := s.on Reg.RCH_CTRL_enable r }) s
  each (s.clustersOf t) (fun c s =>
    let x := s.clu c
    if s.cluWanted c = false then s.dropCluster c
    else
      let lw := s.rg Reg.CLU_PROG_last_word c
      let keep := (List.range 12).foldl (fun n i => match ((x.slots lw)[i]?).getD none with
        | some .nop => n
        | some (.rep _ _) => n
        | _ => n + 2 ^ i) 0
      let latch := if x.latchLoad then cellOf (Mem.get x.vm (s.rg Reg.CLU_PROG_steps_m1 c)) &&& BitVec.ofNat 12 keep
        else x.latch
      let y : Cluster := if x.issuing then x else { x with pc := 0, t := 0, lvl0 := none, lvl1 := none, vl := 8 }
      s.setClu c { y with issuing := true, latch := latch, latchLoad := false,
                          st := if x.st = 6 ∨ x.st = 8 ∨ x.st = 5 then x.st else 1 }) s

/-- A cluster or reach whose enable is 0 stops at this step boundary (R41, R81, R152). -/
def State.dropDisabled (s : State) (t : Nat) : State :=
  let s := each (s.part t).bound (fun r s =>
    if s.on Reg.RCH_CTRL_enable r then s else s.modRch r fun x => { x with following := false, holds := [] }) s
  each (s.clustersOf t) State.dropCluster s

/-- A cluster that stands before its step in a refetch or on a cause leaves at once when its enable is 0 (R41). -/
def State.dropStopped (s : State) (t : Nat) : State :=
  each ((s.clustersOf t).filter fun c => decide ((s.clu c).st = 5) || decide ((s.clu c).st = 6) || decide ((s.clu c).st = 8))
    State.dropCluster s

/-- A step begins: the enables that govern it are taken once, and its free values are numbered (R41, R51, R152). -/
def State.beginStep (s : State) (t : Nat) : State :=
  let x := s.part t
  if x.begun then s.dropStopped t
  else
    let s := if x.started then s.dropDisabled t else s.beginStep0 t
    let n := s.freeCtr
    { s.modPart t fun y => { y with begun := true, stepFree := n } with freeCtr := n + 32768 * 408 }

/-- The clusters that issue, in order of relative reach and position. -/
def State.issuers (s : State) (t : Nat) : List (Nat × Nat × Nat) :=
  (s.part t).bound.flatMap fun r => (s.activePositions r).filterMap fun p =>
    match s.playing r p with
    | some c => if (s.clu c).issuing then some (r, p, c) else none
    | none => none

/-- A role written in a reach of the partition waits for this step boundary, at which the partition pauses (R81, R335). -/
def State.roleDue (s : State) (t : Nat) : Bool :=
  (s.part t).bound.any fun r => (List.range 17).any fun i => (s.clu (17 * r + i)).roleArmed.isSome

/-- The partition may issue a step now: no role waits to take effect, and no cluster that takes part in its barrier is in a refetch, a
trap or on a cause (R41, R72, R74, R81, R134, R196, R508). -/
def State.mayIssue (s : State) (t : Nat) : Bool :=
  decide (s.mode = 1) && s.running t && !(s.part t).stopped && ((s.part t).memTaken || !s.roleDue t) &&
    (s.issuers t).all fun u => !s.cluWanted u.2.2 ||
      (decide ((s.clu u.2.2).st ≠ 5) && decide ((s.clu u.2.2).st ≠ 6) && decide ((s.clu u.2.2).st ≠ 8))

/-- The parity errors that a step would read stop it before it completes; the flag says that one does. -/
def State.stepFaults (s : State) (t : Nat) (us : List Unit_) (entry : Nat → Nat) (outs : List (Unit_ × List SlotOut)) :
    Bool × State :=
  let bad := s.outRegBad us entry
  let s := bad.foldl (fun s c => (s.tally true 0 2 c 94).cluStop c Reg.CLU_CAUSE_reg_parity) s
  outs.foldl (fun (a : Bool × State) o =>
    let r := a.2.readFault t o.1 o.2
    (a.1 || r.1, r.2)) (!bad.isEmpty, s)

/-- The design-memory part of a step: every read takes its value before the step's writes enter, and the writes enter as their
buffers have room (R162, R165). The clusters that wait for room are returned. -/
def State.stepMemory (s : State) (t : Nat) (outs : List (Unit_ × List SlotOut)) : List Nat × State :=
  let g := (s.part t).gstep
  let s := if (s.part t).memTaken then s
    else (outs.foldl (fun s o => s.takeReads t o.1 g o.2) s).modPart t fun x => { x with memTaken := true }
  (s.part t).bound.foldl (fun (a : List Nat × State) r =>
    let b := a.2.bufferWrites t r g outs
    (a.1 ++ b.1, b.2)) ([], s)

/-- The outstanding bits that a step's remote sends consult, where one fails parity (class 3, R319). -/
def State.clearFaults (s : State) (t step : Nat) (l : List Nsend) : State :=
  l.foldl (fun s n => (s.tally true 0 3 n.reach (3 * 4096 + n.net)).rchStop t n.reach Reg.RCH_CAUSE_table_parity n.pos n.slot
    n.net step) s

/-- The waits and what follows them, once every cluster has its word and every table its entry. -/
def State.runStep (s : State) (t : Nat) (us : List Unit_) (entry : Nat → Nat) (sends : List Nsend) : State :=
  let step := (s.part t).step
  let waits := s.waitsOf t us sends
  let cs := us.map (·.c)
  let lost := sends.filter fun n => (s.rch n.reach).clrBad.contains (2 * n.net + s.parity t)
  if lost ≠ [] then (s.clearFaults t step lost).atBarrier cs
  else if waits ≠ [] then (waits.foldl (State.noteWait t) s).atBarrier cs
  else
    let s := s.stages t
    let cm := us.foldl (fun (a : State × List Seen) u =>
      let r := a.1.commitDue u.c (s.clu u.c).gstep
      (r.1, a.2 ++ r.2)) (s, [])
    let w := cm.1.watch cm.2
    let s := w.1.modPart t fun x => { x with fires := x.fires ++ w.2 }
    if us.any fun u => (s.clu u.c).st = 8 then s.atBarrier cs
    else
      let base := (s.part t).stepFree
      let outs := us.map fun u => (u, (s.view t u (entry u.reach) (base + 32768 * u.c)).evalWordAll u.word)
      match s.stepFaults t us entry outs with
      | (true, s) => s.atBarrier cs
      | (false, s) =>
        match s.stepMemory t outs with
        | (c :: l, s) => ((c :: l).foldl (fun s c => s.countWait c 4) s).atBarrier cs
        | ([], s) =>
          let s := outs.foldl (fun s o =>
            s.countTurns o.1.c step ((List.range 8).map ((s.clu o.1.c).turnsOf (o.2.flatMap (·.cells))))) s
          s.finishStep t outs sends

/-- One step of a partition. -/
def State.issue (s : State) (t : Nat) : State :=
  let s := s.beginStep t
  let l := s.issuers t
  let cs := l.map fun u => u.2.2
  let f := l.map fun u => (u, s.fetch u.2.2)
  match f.find? fun x => match x.2 with | .word _ => false | _ => true with
  | some _ => (f.foldl (fun s x => s.fetchStop x.1.2.2 x.2) s).atBarrier cs
  | none =>
    let us : List Unit_ := f.filterMap fun x => match x.2 with
      | .word w => some { reach := x.1.1, pos := x.1.2.1, c := x.1.2.2, word := w }
      | _ => none
    let step := (s.part t).step
    let tb := (s.part t).bound.foldl (fun (a : List (Nat × TableRead) × State) r =>
      let d := a.2.reachTables t (s.steps t) step us r
      (a.1 ++ [(r, d.1)], d.2)) ([], s)
    let sends := tb.1.flatMap fun x => x.2.sends
    let hits := collisions sends
    let s := hits.foldl (fun s n => s.rchStop t n.reach Reg.RCH_CAUSE_arrival_collision n.pos n.slot n.net step) tb.2
    if hits ≠ [] ∨ (tb.1.any fun x => x.2.stop) = true then s.atBarrier cs
    else s.runStep t us (fun r => ((tb.1.find? fun x => x.1 = r).map fun x => x.2.entry).getD (2 ^ 85 - 1)) sends

/-- ISSUE_STEP: the partition of tenant t issues one step if nothing holds it (R39). -/
def execIssueStep (t : Fin 16) (s : State) : Host.Outcome State Fault Refusal :=
  done s (let s := s.settleHold t.val
    if s.mayIssue t.val then s.issue t.val else s)

end Sys2Proof.Machine
end

