-- ==== Sys2Proof/Machine/Access.lean ====
section
/-!
DEFINITION. Sys2Proof/Machine/Access.lean: who may reach which register: requesters (R548), the units they select, power
domains (R540, R541), basin owners (R519), writers (the last rules of each register chapter) and the refusal record
(WHF_ACCERR).
-/
namespace Sys2Proof.Machine

/-- The keeper a requester acts as: Capstan acts as the system keeper in ring 1 (R502). -/
def State.keeperOf (s : State) : Requester → Option Nat
  | .pf => none
  | .keeper k _ _ => some k.val
  | .capstan => some s.system

/-- The ring a requester acts in. -/
def ringOf : Requester → Nat
  | .pf => 0
  | .keeper _ r _ => r.toNat
  | .capstan => 1

/-- Keeper k serves tenant t (R381). -/
def State.serves (s : State) (k t : Nat) : Bool := bit (s.rg Reg.KPR_HOOK_tenants k) t

/-- Keeper 0, or the keeper that has taken its place (R377). -/
def State.isKeeper0 (s : State) (who : Requester) : Bool := decide (s.keeperOf who = some s.system)

/-- The system keeper in ring 0 or 1. -/
def State.isSystem (s : State) (who : Requester) : Bool :=
  decide (s.keeperOf who = some s.system) && decide (ringOf who ≤ 1)

/-! ### Host requests (R418 to R421, R453) -/

/-- The function exists: the PF, or a VF that VF Enable and NumVFs bring out (R418). -/
def State.present (s : State) (fn : Nat) : Bool :=
  decide (fn = 0) || ((s.fn 0).vfEnable && decide (fn ≤ (s.fn 0).numVfs))

/-- Memory Space Enable of a function; the VFs' is the PF's VF MSE (R420; log entry 25). -/
def State.memOn (s : State) (fn : Nat) : Bool :=
  if fn = 0 then (s.fn 0).memEnable else s.present fn && (s.fn 0).vfMem

/-- The function serves memory requests: enabled, in D0, and out of Bring-up; only the PF has BAR0 (R419 to R421). -/
def State.served (s : State) (fn : Nat) (bar2 : Bool) : Bool :=
  s.memOn fn && !(s.fn fn).d3hot && decide (s.mode ≠ 0) && (bar2 || decide (fn = 0))

/-- How a host request has completed. -/
def State.replied (s : State) (code : Nat) : State := { s with power := { s.power with reply := code } }

/-- A memory request completes as Unsupported Request, which the function reports in its AER and Device Status (R418, R420; log
entry 25). -/
def State.unsupported (s : State) (fn : Nat) : State :=
  let x := s.fn fn
  (s.replied 1).setFn fn { x with aer := x.aer.put 1 (Nat.lor (x.aer.get 1 0) (2 ^ 20)), devSta := Nat.lor x.devSta 8 }

/-- The link leaves L1 or L1.2, a link event (R397, R453). -/
def State.leaveL1 (s : State) : State :=
  if s.power.linkState = 1 ∨ s.power.linkState = 2 then { s with power := { s.power with linkState := 0 } }.edge 134 else s

/-- A request of the host brings the link out of L1 before it arrives (R453). -/
def State.reached (s : State) (who : Requester) : State := if who = .pf then s.leaveL1 else s

/-- The doorbell page answers: in full service, or in Repair (R421, R505). The doorbells proper, but for WHF_STOP, do nothing in
Repair. -/
def State.pageOpen (s : State) (doorbell : Bool) : Bool :=
  decide (s.mode = 1) || decide (s.mode = 2) || (decide (s.mode = 3) && !doorbell)

/-- A write to a function's doorbell page: the link leaves L1 first, and a function that does not serve it discards it (R420, R453). -/
def State.onPage (s : State) (fn : Nat) (doorbell : Bool) (f : State → State) : State :=
  let s := s.leaveL1
  if s.served fn true = false then s.unsupported fn
  else
    if s.pageOpen doorbell then f (s.replied 0) else s.replied 0

/-- A read of a function's doorbell page: all ones where it is not served (R420). -/
def State.readPage (s : State) (fn : Nat) (f : State → State) : State :=
  let s := s.leaveL1
  if s.served fn true = false then (s.unsupported fn).answer 0xFFFFFFFF
  else
    if s.pageOpen false then f (s.replied 0) else (s.replied 0).answer 0xFFFFFFFF

/-! ### Selected units -/

def State.selCluster (s : State) (who : Requester) : Option Nat :=
  let c := s.rgw Reg.CLU_SEL_cluster (copyOf who)
  if c < 408 then some c else none
def State.selReach (s : State) (who : Requester) : Option Nat :=
  let r := s.rgw Reg.RCH_SEL_reach (copyOf who)
  if r < 24 then some r else none
def State.selLink (s : State) (who : Requester) : Nat := s.rgw Reg.AQ_SEL_link (copyOf who)
def State.selLane (s : State) (who : Requester) : Option Nat :=
  let l := s.rgw Reg.AQ_SEL_lane (copyOf who)
  if l < 5 then some (5 * s.selLink who + l) else none
def State.selKeeper (s : State) (who : Requester) : Nat := s.rgw Reg.KPR_SEL_keeper (copyOf who)
def State.selEngine (s : State) (who : Requester) : Nat := s.rgw Reg.SLC_SEL_engine (copyOf who)
def State.selChannel (s : State) (who : Requester) : Nat :=
  16 * s.selEngine who + s.rgw Reg.SLC_SEL_channel (copyOf who)
def State.selOwner (s : State) (who : Requester) : Option Nat :=
  let o := s.rgw Reg.WEIR_BKT_SEL_owner (copyOf who)
  if o < 17 then some o else none
def State.selDomain (s : State) (who : Requester) : Option Nat :=
  let d := s.rgw Reg.PWR_DOM_SEL_domain (copyOf who)
  if d < 35 then some d else none

/-- Instances of a basin kind (R518). -/
def basinCount : Nat → Nat
  | 0 => 408
  | 1 => 408
  | 2 => 24
  | 3 => 24
  | 4 => 4
  | 5 => 1
  | 6 => 1
  | 7 => 4
  | _ => 0

def State.selBasin (s : State) (who : Requester) : Option Nat :=
  let k := s.rgw Reg.PWR_BASIN_SEL_kind (copyOf who)
  let i := s.rgw Reg.PWR_BASIN_SEL_instance (copyOf who)
  if i < basinCount k then some (512 * k + i) else none

/-- The instance of a register that an access at `addr` by `who` reaches. A register of the CLU or RCH window, one that each requester
has its own copy of included, is reached only while a unit is selected (R81, R152). -/
def State.instOf (s : State) (d : RegDef) (who : Requester) (addr : Nat) : Option Nat :=
  match d.inst with
  | .dev => some 0
  | .who =>
    if d.addr / 2 ^ 20 = 1 ∧ d ≠ Reg.CLU_SEL then (s.selCluster who).map fun _ => 0
    else if d.addr / 2 ^ 20 = 2 ∧ d ≠ Reg.RCH_SEL then (s.selReach who).map fun _ => 0
    else some 0
  | .cluster => s.selCluster who
  | .reach => s.selReach who
  | .gauge => (s.selReach who).map fun r => 16 * r + s.rgw Reg.GAU_IDX_index (copyOf who)
  | .link => some (s.selLink who)
  | .lane => s.selLane who
  | .tree =>
    let i := s.rgw Reg.LCK_TREE_ADDR_index (copyOf who)
    if i < 17 then some (17 * s.rgw Reg.LCK_TREE_ADDR_tenant (copyOf who) + i) else none
  | .keeper => some (s.selKeeper who)
  | .ktimer => some (2 * s.selKeeper who + (addr - d.addr) / 4)
  | .channel => some (s.selChannel who)
  | .engine => some (s.selEngine who)
  | .stride => some ((addr - d.addr) / d.stride)
  | .owner => s.selOwner who
  | .ownerBlk => (s.selOwner who).map fun o => 16 * o + (addr - d.addr) / 4
  | .domain => s.selDomain who
  | .basin => s.selBasin who
  | .fn => none
  | .fnq => none

/-! ### Power domains, basins -/

/-- The register answers whatever the state of its block's domain (R540). -/
def alwaysAnswers (addr : Nat) : Bool :=
  let o := addr % 2 ^ 20
  match addr / 2 ^ 20 with
  | 1 => o = 0 ∨ o = 4 ∨ o = 8
  | 2 => o = 0 ∨ o = 4
  | 4 => o = 0 ∨ o = 4 ∨ o = 8 ∨ o = 0xC ∨ o = 0x40 ∨ o = 0x44 ∨ (0x80 ≤ o ∧ o < 0xC0)
  | 7 => false
  | 9 => false
  | 10 => false
  | 11 => false
  | 12 => false
  | 13 => o < 0x80
  | _ => true

/-- The power domain of the register an access reaches (R540). -/
def State.domainOf (s : State) (who : Requester) (addr : Nat) : Option Nat :=
  match addr / 2 ^ 20 with
  | 1 => (s.selCluster who).map (· / 17)
  | 2 => s.selReach who
  | 4 => some (24 + s.selLink who / 4)
  | 7 => some 32
  | 9 => some 31
  | 10 => some 31
  | 11 => some 31
  | 12 => some 34
  | 13 => some 33
  | _ => none

/-- The domain is On. -/
def State.powered (s : State) (d : Nat) : Bool := decide (s.rg Reg.PWR_DOM_state d = 1)

/-- The access meets a domain that is not On (R541). -/
def State.dark (s : State) (who : Requester) (addr : Nat) : Bool :=
  !alwaysAnswers addr && (match s.domainOf who addr with
    | some d => !s.powered d
    | none => false)

/-- The owner of a basin (R518, R519). -/
def State.basinOwner (s : State) (b : Nat) : Nat :=
  (s.regs.find (fieldKey Reg.PWR_BASIN_OWN_owner b 0)).getD s.power.basinDefault

/-- The owner code of a requester. -/
def State.ownerCode (s : State) (who : Requester) : Nat :=
  match who with
  | .pf => 4
  | _ => if s.isKeeper0 who then 1 else 8

/-- The requester may access a basin as far as its owner decides: always in Ready, Link test and Standby (R519). -/
def State.basinOk (s : State) (who : Requester) (b : Nat) : Bool :=
  decide (s.mode = 1) || decide (s.mode = 2) || decide (s.mode = 5) || decide (s.basinOwner b = 0) ||
    decide (s.basinOwner b = s.ownerCode who)

/-! ### Refusals -/

/-- Record a refused access in the requester's WHF_ACCERR, if it holds none (R543). -/
def State.refuse (s : State) (who : Requester) (reason addr : Nat) : State :=
  if s.rgw Reg.WHF_ACCERR_valid (copyOf who) = 1 then s
  else ((s.setRgw Reg.WHF_ACCERR_valid (copyOf who) 0 1).setRgw Reg.WHF_ACCERR_reason (copyOf who) 0 reason).setRgw
    Reg.WHF_ACCERR_addr (copyOf who) 0 addr

/-- A basin access by a requester that does not own it (R519). -/
def State.refuseBasin (s : State) (who : Requester) (b addr : Nat) : State :=
  (s.setRg Reg.PWR_BASIN_OWN_refused b 1).refuse who 2 addr

/-! ### Writers -/

/-- The channel's keeper in ring 0 or 1, or in ring 2 when RG.tenant is the channel's tenant (R479). -/
def State.channelWriter (s : State) (who : Requester) (c : Nat) : Bool :=
  match who with
  | .keeper k r t =>
    decide (k.val = s.rg Reg.SLC_CHCFG_keeper c) &&
      (decide (r.toNat ≤ 1) || (decide (r.toNat = 2) && decide (t.toNat = s.rg Reg.SLC_CHCFG_tenant c)))
  | _ => false

/-- The keeper that serves the owner of reach r, in ring 0 to 2 with its RG.tenant (R504). -/
def State.gaugeWriter (s : State) (who : Requester) (r : Nat) : Bool :=
  match who, s.owner r with
  | .keeper k ring t, some o => s.serves k.val o && decide (ring.toNat ≤ 2) && decide (t.toNat = o)
  | _, _ => false

/-- The requesters whose writes to the registers of the selected keeper are accepted (R391). -/
def State.kprWriter (s : State) (who : Requester) : Bool :=
  decide (who = .pf) || s.isSystem who || (decide (s.keeperOf who = some (s.selKeeper who)) && decide (ringOf who ≤ 1))

/-- The requester may write the register at `addr` (R81, R152, R187, R265, R316, R345, R391, R479, R503, R504, R539).
Registers held per requester may be written by each (R548). -/
def State.mayWrite (s : State) (who : Requester) (addr : Nat) : Bool :=
  let o := addr % 2 ^ 20
  let pf := decide (who = .pf)
  match addr / 2 ^ 20 with
  | 1 => if o = 8 then s.isKeeper0 who else true
  | 2 =>
    if o = 4 then s.isKeeper0 who
    else if 0x84 ≤ o ∧ o ≤ 0x98 then
      pf || (match s.selReach who with | some r => s.gaugeWriter who r | none => false)
    else true
  | 3 => if (0x20 ≤ o ∧ o < 0x60) ∨ o = 0x68 then s.isKeeper0 who else true
  | 4 => if o = 4 ∨ o = 0x44 ∨ (0x80 ≤ o ∧ o < 0xC0) then s.isKeeper0 who else true
  | 5 =>
    let r := o % 0x40
    if o = 4 ∨ (0x100 ≤ o ∧ (r = 0 ∨ r = 0x24 ∨ r = 0x28 ∨ r = 0x2C ∨ r = 0x30)) then s.isKeeper0 who else true
  | 6 => o = 8 ∨ s.isKeeper0 who ∨ pf
  | 7 => o = 0 ∨ o = 0x34 ∨ o = 0x38 ∨ s.kprWriter who
  | 9 =>
    if o = 0 then true
    else if o = 4 then pf ∨ s.isSystem who
    else if o ≤ 0x20 then pf ∨ s.isSystem who ∨ s.channelWriter who (s.selChannel who)
    else true
  | 10 => if o % 0x20 = 0 then pf ∨ s.isSystem who else true
  | 11 => if o < 8 then s.isKeeper0 who ∧ ringOf who = 0 else true
  | 12 => o = 0x10 ∨ s.isKeeper0 who ∨ pf
  | 13 =>
    if o = 0x14 ∨ o = 0x1C then true
    else if 0x80 ≤ o then pf ∨ (s.isSystem who ∧ ringOf who = 0)
    else if o = 0xC then pf ∨ s.isSystem who ∨ s.isKeeper0 who
    else pf ∨ s.isSystem who
  | _ => true

/-- The host's BAR0 answers: where the PF serves memory requests (R420, R421), and in Sanitize only reads of the PWR, AON and SEC
registers (R505). -/
def State.barOpen (s : State) (who : Requester) (addr : Nat) (write : Bool) : Bool :=
  match who with
  | .pf => s.served 0 false && (decide (s.mode ≠ 4) || (!write && decide (addr / 2 ^ 20 = 13)))
  | _ => true

/-- The basin whose contents the register at `addr` reaches: program memory, value memory, reach tables and berths, keeper
tables (R518). -/
def State.basinOf (s : State) (who : Requester) (addr : Nat) : Option Nat :=
  if addr = Reg.CLU_PM_DATA.addr then s.selCluster who
  else if addr = Reg.CLU_VM_DATA.addr then (s.selCluster who).map fun c => 512 + c
  else if addr = Reg.RCH_XBT_DATA.addr ∨ addr = Reg.RCH_NSM_DATA.addr ∨ addr = Reg.RCH_BMAP_DATA.addr ∨
      addr = Reg.RCH_BPEEK_DATA.addr then (s.selReach who).map fun r => 512 * 3 + r
  else if addr = Reg.KPR_TBL_DATA.addr then some (512 * 4 + s.selKeeper who)
  else none

/-- The basin that an access reaches and that its requester may not (R519). -/
def State.basinShut (s : State) (who : Requester) (addr : Nat) : Option Nat :=
  match s.basinOf who addr with
  | some b => if s.basinOk who b then none else some b
  | none => none

/-- Carry out a register write that the requester may make, or record its refusal (R519, R541, R543). -/
def State.asWriter (s : State) (who : Requester) (addr : Nat) (f : State → State) : State :=
  let s := s.reached who
  if !s.barOpen who addr true then s.unsupported 0
  else if s.dark who addr then s.refuse who 5 addr
  else if !s.mayWrite who addr then s.refuse who 2 addr
  else match s.basinShut who addr with
    | some b => s.refuseBasin who b addr
    | none => f s

/-- Carry out a register read; a register that does not answer reads zero (R519, R541). -/
def State.asReader (s : State) (who : Requester) (addr : Nat) (f : State → State) : State :=
  let s := s.reached who
  if !s.barOpen who addr false then (s.unsupported 0).answer 0xFFFFFFFF
  else if s.dark who addr then s.answer 0
  else match s.basinShut who addr with
    | some b => (s.setRg Reg.PWR_BASIN_OWN_refused b 1).answer 0
    | none => f s

end Sys2Proof.Machine
end

