-- ==== Sys2Proof/Machine/Write.lean ====
section
/-!
DEFINITION. Sys2Proof/Machine/Write.lean: how a write to a register is applied field by field (R8, R547 to R553), and how a
register's stored fields are read.
-/
namespace Sys2Proof.Machine

/-- The copy of a register's fields that a requester sees (R548). -/
def RegDef.copy (d : RegDef) (who : Requester) : Nat := if d.inst = .who then copyOf who else 0

/-- A channel is queued or running (R470). -/
def State.channelBusy (s : State) (c : Nat) : Bool :=
  decide (s.rg Reg.SLC_CHSTAT_state c = 1) || decide (s.rg Reg.SLC_CHSTAT_state c = 2)

/-- The condition under which the Fixed fields of instance i of a register are in use (R11, R549). Where a field's Meaning states none,
it is that of the neighbouring field or register that it serves (DESIGN CHOICE; log entry 98). -/
def State.inUse (s : State) (d : RegDef) (i : Nat) : Bool :=
  if d = Reg.CLU_CTRL ∨ d = Reg.CLU_PROG then s.on Reg.CLU_CTRL_enable i
  else if d = Reg.RCH_OWNER ∨ d = Reg.RCH_CTRL then s.on Reg.RCH_CTRL_enable i
  else if d = Reg.DMEM_RESVt ∨ d = Reg.AQ_SPNt ∨ d = Reg.LCK_CTRLt then s.loaded i
  else if d = Reg.LCK_TREE_DATA then s.loaded (i / 17)
  else if d = Reg.AQ_DEVID then (List.range 16).any fun l => s.rg Reg.AQ_STATUS_state l ≠ 0
  else if d = Reg.AQ_CTRL ∨ d = Reg.AQ_LANEMAP then s.rg Reg.AQ_STATUS_state i ≠ 0
  else if d = Reg.SLC_CHCFG ∨ d = Reg.SLC_CHDESC_LO ∨ d = Reg.SLC_CHDESC_HI ∨ d = Reg.SLC_CHCMD then s.channelBusy i
  else if d = Reg.CHK_ASSIGNu then
    s.on Reg.CHK_SCANu_CTRL_busy i ||
      (decide (s.rg Reg.CHK_ASSIGNu_kind i = 2) && s.channelBusy (s.rg Reg.CHK_ASSIGNu_id i))
  else if d = Reg.LDG_POOLk then s.ledger.tags ≠ []
  else if d = Reg.WEIR_CTRL ∨ d = Reg.WEIR_RING_CFG then s.on Reg.WEIR_CTRL_ring_en
  else false

/-- A value that a field's Meaning rejects as a Fixed write is (R550). -/
def badValue (d : RegDef) (v : Word) : Bool :=
  if d = Reg.CLU_PROG then decide (Reg.CLU_PROG_steps_m1.of v < 63)
  else if d = Reg.LDG_POOLk then decide (Reg.LDG_POOLk_base.of v = 127)
  else if d = Reg.WEIR_RING_CFG then decide (10 < Reg.WEIR_RING_CFG_size_log2.of v)
  else false

/-- The write would change a Fixed field that is in use (R550). -/
def State.fixedHit (s : State) (d : RegDef) (i : Nat) (v : Word) : Bool :=
  s.inUse d i && d.fields.any fun f => decide (f.cls = .fixed) && decide (f.of v ≠ s.rg f i)

/-- One field under a write: RW takes the bits, W1C clears and W1S sets where a 1 is written; an At-lock field's active copy follows the
shadow only while tenant i has no partition loaded (R8, R552). -/
def State.writeField (s : State) (c i : Nat) (v : Word) (f : Field) : State :=
  match f.acc with
  | .rw =>
    let s := s.setRgw f c i (f.of v)
    if f.cls = .atLock ∧ s.loaded i = false then s.setRgw f 1 i (f.of v) else s
  | .w1c => s.setRgw f c i (s.rgw f c i - Nat.land (s.rgw f c i) (f.of v))
  | .w1s => s.setRgw f c i (Nat.lor (s.rgw f c i) (f.of v))
  | _ => s

/-- The unit whose interrupt source a register's cause or enable bits feed. -/
def blkOf (d : RegDef) (i : Nat) : Option Blk :=
  if d = Reg.CLU_CAUSE ∨ d = Reg.CLU_CAUSE_EN ∨ d = Reg.CLU_ROLE then some (.cluster i)
  else if d = Reg.RCH_CAUSE ∨ d = Reg.RCH_CAUSE_EN ∨ d = Reg.RCH_BCAUSE ∨ d = Reg.RCH_BCAUSE_EN ∨ d = Reg.DMEM_R_CAUSE then
    some (.reach i)
  else if d = Reg.GAU_CAUSE then some (.gauge i)
  else if d = Reg.DMEM_CAUSE ∨ d = Reg.DMEM_CAUSE_EN then some .dmem
  else if d = Reg.AQ_CAUSE ∨ d = Reg.AQ_CAUSE_EN then some (.link i)
  else if d = Reg.LCK_CAUSEt ∨ d = Reg.LCK_CAUSE_ENt then some .lock
  else if d = Reg.SLC_CAUSE ∨ d = Reg.SLC_CAUSE_EN ∨ d = Reg.SLC_HALT then some (.engine i)
  else if d = Reg.CHK_SCANu_CTRL then some (.chk i)
  else if d = Reg.LDG_CAUSE ∨ d = Reg.LDG_CAUSE_EN then some .ledger
  else if d = Reg.WEIR_CAUSE ∨ d = Reg.WEIR_CAUSE_EN then some .weir
  else none

/-- Edges that a register write raises by changing causes or enables. -/
def State.sensed (s s0 : State) (d : RegDef) (i : Nat) : State :=
  match blkOf d i with
  | some b => State.sense b s0 s
  | none => s

/-- Every field of a register under a write. -/
def State.writeFields (s : State) (d : RegDef) (who : Requester) (i : Nat) (v : Word) : State :=
  (d.fields.foldl (fun s f => s.writeField (d.copy who) i v f) s).sensed s d i

/-- A write under its change classes, and what it does beyond its fields; a refused write is recorded (R550, R551). -/
def State.classWrite (s : State) (d : RegDef) (who : Requester) (i addr : Nat) (v : Word)
    (f : State → State := fun s => s.writeFields d who i v) : State :=
  if s.fixedHit d i v then s.refuse who 0 addr
  else if badValue d v then s.refuse who 1 addr
  else f s

/-- The stored fields of a register, as a number. At-lock fields answer with the copy that WHF_VIEW selects (R552). -/
def State.readFields (s : State) (d : RegDef) (who : Requester) (i : Nat) : Nat :=
  (d.fields.map fun f =>
    let c := if f.cls = .atLock ∧ s.rgw Reg.WHF_VIEW_active (copyOf who) = 1 then 1 else d.copy who
    if f.acc = .wo then 0 else f.at (s.rgw f c i)).sum

/-- Read and clear the RC fields of a register, with the fields that the same read clears (R8). -/
def State.readClear (s : State) (d : RegDef) (who : Requester) (i : Nat) (also : List Field := []) : State :=
  (d.fields.foldl (fun s f => if f.acc = .rc ∨ f ∈ also then s.setRg f i 0 else s) s).answer (s.readFields d who i)

/-- Shadows of tenant t become active, and WHF_ATLOCKt returns to the next commit (R553). -/
def State.applyShadows (s : State) (t lock : Nat) : State :=
  let k := s.rg Reg.WHF_ATLOCKt_lock t
  if k = 0xFFFFFF ∨ subMod 24 lock k < 2 ^ 23 then
    (((s.setRgw Reg.LCK_CTRLt_export_every 1 t (s.rg Reg.LCK_CTRLt_export_every t)).setRgw
      Reg.LCK_CTRLt_log_to_host 1 t (s.rg Reg.LCK_CTRLt_log_to_host t))).setRg Reg.WHF_ATLOCKt_lock t 0xFFFFFF
  else s

end Sys2Proof.Machine
end

