-- ==== Sys2Proof/Machine/Windows.lean ====
section
/-!
DEFINITION. Sys2Proof/Machine/Windows.lean: the cluster and reach windows (R67 to R81, R149 to R152, R217, R218) and live
substitution (R333 to R338).
-/
namespace Sys2Proof.Machine

/-! ### Who and when -/

/-- Keeper 0, the keeper that serves tenant t in ring 0 or 1, or the host (R77, R151). -/
def State.windowUser (s : State) (who : Requester) (owner : Option Nat) : Bool :=
  match who, owner with
  | .pf, _ => true
  | _, o => s.isKeeper0 who || (decide (ringOf who ≤ 1) &&
      (match s.keeperOf who, o with
        | some k, some t => s.serves k t
        | _, _ => false))

/-- The keeper supervisor serves: the system keeper runs, in Ready or in Link test (log entry 71). -/
def State.supervised (s : State) : Bool := (decide (s.mode = 1) || decide (s.mode = 2)) && s.on Reg.KPR_CTRL_run s.system

/-- A cluster of the partition stands in a fetch trap or at a breakpoint (R509). -/
def State.trapped (s : State) (t : Nat) : Bool := (s.clustersOf t).any fun c => decide ((s.clu c).st = 6)

/-- The partition issues no step (R77, R151, R509). -/
def State.quiet (s : State) (t : Nat) : Bool :=
  decide (s.pmode t = 0) || decide (s.pmode t = 1) || decide (s.pmode t = 3) || decide (s.pmode t = 6) ||
    (decide (s.pmode t = 4) && s.trapped t) || decide (s.phase t = 4) || decide (s.phase t = 5)

/-- A disabled cluster has left issue: it stands out of the step in progress, if one is (R41, R77, R81). -/
def State.cluLeft (s : State) (c : Nat) : Bool :=
  !s.on Reg.CLU_CTRL_enable c && (!(s.clu c).issuing || decide ((s.clu c).st = 5) || (match s.owner (c / 17) with
    | some t => !(s.part t).begun
    | none => true))

/-- The window of a cluster is open (R77). A requester that R77 does not name is refused as an access at the wrong time is (DESIGN CHOICE; log
entry 64). -/
def State.cluOpen (s : State) (who : Requester) (c : Nat) : Bool :=
  let o := s.owner (c / 17)
  s.windowUser who o &&
    ((match o with
      | some t => s.quiet t
      | none => true) || decide (s.mode = 3) || decide ((s.clu c).st = 6) || decide ((s.clu c).st = 8) ||
      s.cluLeft c || decide (s.rg Reg.CLU_ROLE_role c = 0x1F) || s.on Reg.CLU_ROLE_retired c)

/-- Causes of a reach that stop its partition before a step (R151). -/
def State.reachCaused (s : State) (r : Nat) : Bool :=
  decide (s.causeBits Reg.RCH_CAUSE.fields r ≠ 0) || decide (Nat.land (s.causeBits Reg.RCH_BCAUSE.fields r) 0x2E ≠ 0) ||
    decide (s.causeBits Reg.DMEM_R_CAUSE.fields r ≠ 0)

/-- The window of a reach is open (R151). -/
def State.rchOpen (s : State) (who : Requester) (r : Nat) : Bool :=
  let o := s.owner r
  s.windowUser who o &&
    ((match o with
      | some t => s.quiet t || ((s.part t).stopped && s.reachCaused r)
      | none => true) || decide (s.mode = 3))

/-! ### Refetch and resume -/

/-- A fetch trap with its record (R69). -/
def State.fetchTrap (s : State) (c w cell : Nat) : State :=
  let s := s.tally true 0 0 c (cell * 1024 + w)
  let s := ((s.setRg Reg.CLU_FETCH_ERR_valid c 1).setRg Reg.CLU_FETCH_ERR_cell c cell).setRg Reg.CLU_FETCH_ERR_word c w
  (s.cause (.cluster c) Reg.CLU_CAUSE_fetch_trap c).modClu c fun x => { x with st := 6, stopBit := some 0 }

/-- Key of a program word in the golden copies: its partition-relative reach, position and word (R146). -/
def State.goldWord (s : State) (c w : Nat) : Nat := (17 * s.rel (c / 17) + (s.position c).getD 0) * 1024 + w

/-- Write a word of program memory; the flip meets its lowest-numbered cell (R346). -/
def State.putWordPm (s : State) (c w : Nat) (l : List Cell) : State :=
  let d := s.flipCell 0 c w ((l.head?).getD 0)
  d.2.modClu c fun x => { x with pm := Mem.putRun x.pm (72 * w) (d.1 :: l.tail.map store) }

/-- A refetch completes: the reach memory unit answers from the first golden copy, or reports it unreadable (R67 to R69). -/
def State.refetch (s : State) (c : Nat) : State :=
  match s.owner (c / 17), (s.clu c).badCell (s.clu c).pc with
  | some t, some bad =>
    let w := (s.clu c).pc
    let g := s.goldWord c w
    if s.goldLostOf t false g then s.fetchTrap c w bad
    else
      let s := s.putWordPm c w (Mem.getRun (s.part t).goldPm (72 * g) 72)
      match (s.clu c).badCell w with
      | some cell => s.fetchTrap c w cell
      | none => ((s.tally false 0 0 c (bad * 1024 + w)).count Reg.CLU_CNT_REFETCH_count c 1).modClu c fun x =>
          { x with st := 1 }
  | _, _ => s.modClu c fun x => { x with st := 1 }

/-- REFETCH: the golden copy of the word at the PC answers (R67). -/
def execRefetch (cluster : Fin 408) (s : State) : Host.Outcome State Fault Refusal :=
  done s (if (s.clu cluster.val).st = 5 then s.refetch cluster.val else s)

/-- A resume (R70 to R72). -/
def State.resume (s : State) (c : Nat) : State :=
  let x := s.clu c
  match x.stopBit with
  | some b =>
    if x.st = 6 ∧ bit (s.cluCause c) b = false then
      s.setClu c { x with st := 1, stopBit := none, bpPass := decide (b = 1) }
    else s
  | none => s

/-- Carry a write into the register of the selected cluster. -/
def State.onCluster (s : State) (who : Requester) (f : Nat → State → State) : State :=
  match s.selCluster who with
  | some c => f c s
  | none => s

/-- Read a register of the selected cluster; with none selected it reads zero. -/
def State.ofCluster (s : State) (who : Requester) (f : Nat → State → State) : State :=
  match s.selCluster who with
  | some c => f c s
  | none => s.answer 0

/-- CLU_RESUME. -/
def execCluResume (who : Requester) (value : Word) (s : State) : Host.Outcome State Fault Refusal :=
  done s (s.asWriter who Reg.CLU_RESUME.addr fun s => s.onCluster who fun c s =>
    if Reg.CLU_RESUME_resume.of value = 1 then s.resume c else s)

/-- CLU_CTRL: dist_mode under its class, enable for the next boundary (R81). -/
def State.wCluCtrl (s : State) (who : Requester) (v : Word) : State :=
  s.onCluster who fun c s => s.classWrite Reg.CLU_CTRL who c Reg.CLU_CTRL.addr v

/-- CLU_CTRL_ENABLE. -/
def execCluCtrlEnable (who : Requester) (value : Word) (s : State) : Host.Outcome State Fault Refusal :=
  done s (s.asWriter who Reg.CLU_CTRL.addr fun s => s.wCluCtrl who value)

/-! ### Roles -/

/-- A role takes effect (CLU_CAUSE.role_applied). -/
def State.applyRole (s : State) (c role : Nat) : State :=
  ((s.setRg Reg.CLU_ROLE_role c role).modClu c fun x => { x with roleArmed := none }).cause (.cluster c)
    Reg.CLU_CAUSE_role_applied c

/-- The first copied unit of a cluster that fails parity: `inl` a value cell, `inr` a register (R336). -/
def Cluster.badCopy (c : Cluster) : Option (Nat ⊕ Nat) :=
  match c.vm.find? fun e => !parityOk e.2 with
  | some e => some (.inl e.1)
  | none => (c.rf.find? fun e => !parityOk e.2).map fun e => .inr e.1

/-- What the staging engine copies to the spare beside its memories (R335): where the cluster stands, and its writes and reads
that are not yet due, so that no read's value changes (R25, R49, R51; log entry 67). A refetch, a trap or a breakpoint belongs to the
outgoing cluster's program memory and CLU_TRAP: the spare fetches its own word. -/
def Cluster.moved (old new : Cluster) : Cluster :=
  { new with acLive := old.acLive, vl := old.vl, t := old.t, pc := old.pc, gstep := old.gstep,
             lvl0 := old.lvl0, lvl1 := old.lvl1, latch := old.latch, latchLoad := old.latchLoad, reads := old.reads,
             st := if old.issuing then 1 else 0, issuing := old.issuing, bpPass := false, stopBit := none,
             waitCounted := false, roleArmed := none, inflight := old.inflight,
             stepWrites := old.stepWrites, stepReads := old.stepReads }

/-- The staging engine copies value memory and registers to the spare, the lowest-numbered unit first, which the armed flip meets
(R335, R346). -/
def State.copyCluster (s : State) (old spare : Nat) : State :=
  let x := s.clu old
  let s := s.setClu spare { x.moved (s.clu spare) with vm := [], rf := [] }
  let s := s.storeVm spare 0 (Mem.get x.vm 0)
  let s := (x.vm.filter fun e => e.1 ≠ 0).foldl (fun s e => s.storeVm spare e.1 e.2) s
  let s := s.storeRf spare 0 (Mem.get x.rf 0)
  (x.rf.filter fun e => e.1 ≠ 0).foldl (fun s e => s.storeRf spare e.1 e.2) s

/-! ### Spares (R333, R334, R577) -/

/-- The record of a fault of type 4 or 5: step, design cycle, unit and cause (R577). -/
def faultRecord (step dcycle unit reg num : Nat) : Nat :=
  step % 2 ^ 10 + dcycle % 2 ^ 20 * 2 ^ 10 + unit % 2 ^ 23 * 2 ^ 33 + reg % 16 * 2 ^ 60 + num % 16 * 2 ^ 56

/-- The unit of a record that names a cluster: its partition-relative reach and its position (R577). -/
def State.unitOf (s : State) (c : Nat) : Nat := s.rel (c / 17) + (s.position c).getD 0 * 32

/-- A standby spare of its reach. -/
def State.standby (s : State) (c : Nat) : Bool :=
  decide (s.rg Reg.CLU_ROLE_role c = 0x1F) && !s.on Reg.CLU_ROLE_retired c && (s.clu c).roleArmed.isNone

/-- The reach has a standby spare (R323). -/
def State.hasStandby (s : State) (r : Nat) : Bool := ((List.range 17).map (17 * r + ·)).any s.standby

/-- The standby spare of a reach that qualifies (R334). -/
def State.spareFor (s : State) (r : Nat) : Option Nat :=
  ((List.range 17).map (17 * r + ·)).find? fun c =>
    s.standby c && (List.range 3).all fun k => decide (s.bucket k c < s.threshold k)

/-- Keeper 0 prepares a spare for the position of a cluster: program memory and value memory from the golden copies, CLU_PROG,
dist_mode, enable (R334). -/
def State.prepareSpare (s : State) (spare old : Nat) : State :=
  match s.owner (spare / 17), s.position old with
  | some t, some p =>
    let unit := 17 * s.rel (spare / 17) + p
    let last := s.rg Reg.CLU_PROG_last_word old
    let s := each (List.range (last + 1)) (fun w s =>
      s.putWordPm spare w (Mem.getRun (s.part t).goldPm (72 * (unit * 1024 + w)) 72)) s
    let s := each (List.range 4096) (fun n s => s.putVm spare n (Mem.get (s.part t).goldVm (unit * 4096 + n))) s
    let s := (s.setRg Reg.CLU_PROG_last_word spare last).setRg Reg.CLU_PROG_steps_m1 spare (s.rg Reg.CLU_PROG_steps_m1 old)
    (s.setRg Reg.CLU_CTRL_dist_mode spare (b2n (s.part t).hdr.distMode)).setRg Reg.CLU_CTRL_enable spare 1
  | _, _ => s

/-- A cluster is to be replaced at the next commit, where `atLock`, or within the next rollback (R333). -/
def State.planRelief (s : State) (t c : Nat) (atLock : Bool) (record : Nat) : State :=
  s.modPart t fun x => { x with plans := (x.plans.filter fun q => q.1 ≠ c) ++ [(c, atLock, record)] }

/-- The error that a substitution met on the outgoing cluster latches there, and the substitution is for that rollback (R336). -/
def State.abandon (s : State) (old spare : Nat) (f : Field) : State :=
  let s := (s.cluStop old f).modClu spare fun x => { x with roleArmed := none }
  match s.owner (old / 17) with
  | some t => s.planRelief t old false (faultRecord (s.part t).step (s.dcycle t) (s.unitOf old) 0 f.lo)
  | none => s

/-- The alarm of a substitution: the cluster replaced and the position that the spare now plays (R338). -/
def State.substituted (s : State) (old spare p : Nat) : State :=
  match s.owner (spare / 17) with
  | some t => s.alarm t (srcOf 0 old) 0x004 (s.rel (spare / 17) + p * 32 + old * 1024)
  | none => s

/-- A live substitution at a step boundary (R335, R336). -/
def State.substitute (s : State) (spare p : Nat) : State :=
  match s.playing (spare / 17) p with
  | none => s.applyRole spare p
  | some old =>
    match (s.clu old).badCopy with
    | some (.inl n) => (s.tally true 0 1 old n).abandon old spare Reg.CLU_CAUSE_vm_parity
    | some (.inr n) => (s.tally true 0 2 old n).abandon old spare Reg.CLU_CAUSE_reg_parity
    | none =>
      let s := s.copyCluster old spare
      let s := (s.setRg Reg.CLU_ROLE_role old 0x1F).modClu old fun y =>
        { y with issuing := false, st := 0, stopBit := none, reads := [], inflight := [], stepWrites := [], stepReads := [] }
      (s.applyRole spare p).substituted old spare p

/-- A role written while the partition restores: no state moves, and the cluster that played the position gives it up (R335, R337,
R338; log entry 67). -/
def State.substituteRestoring (s : State) (spare p : Nat) : State :=
  match s.playing (spare / 17) p with
  | some old =>
    let s := (s.setRg Reg.CLU_ROLE_role old 0x1F).modClu old fun y => { y with issuing := false, st := 0, stopBit := none }
    (s.applyRole spare p).substituted old spare p
  | none => s.applyRole spare p

/-- CLU_ROLE: a change of role is armed for the next step boundary, or takes effect at once while no step of its partition can
intervene (R81, R337). Stop planks stay until power-on (R328). A value from 17 to 30 is stored, and its cluster plays no position
(log entry 64). -/
def State.wCluRole (s : State) (who : Requester) (v : Word) : State :=
  s.onCluster who fun c s =>
    let s0 := s
    let s := if Reg.CLU_ROLE_retired.of v = 1 ∧ s.on Reg.CLU_ROLE_retired c = false then
        (State.sense (.cluster c) s0 ((s.setRg Reg.CLU_ROLE_retired c 1).modClu c fun x =>
          { x with issuing := false, st := 0 })).unitRetired 0 c 0
      else s
    let role := Reg.CLU_ROLE_role.of v
    if role = s.rg Reg.CLU_ROLE_role c then s.modClu c fun x => { x with roleArmed := none }
    else match s.owner (c / 17) with
      | some t => if s.loaded t ∧ s.phase t ≠ 4 then s.modClu c fun x => { x with roleArmed := some role }
                  else if s.loaded t ∧ role ≤ 16 then s.substituteRestoring c role
                  else s.applyRole c role
      | none => s.applyRole c role

/-- CLU_ROLE. -/
def execCluRole (who : Requester) (value : Word) (s : State) : Host.Outcome State Fault Refusal :=
  done s (s.asWriter who Reg.CLU_ROLE.addr fun s => s.wCluRole who value)

/-- The reach's partition stands at a step boundary: no step has entered its design-memory accesses without completing, and no error
has stopped it, whose rollback comes first (R81, R335). -/
def State.atStep (s : State) (r : Nat) : Bool :=
  match s.owner r with
  | some t => !(s.part t).memTaken && !(s.part t).stopped && (s.clustersOf t).all fun c => decide ((s.clu c).st ≠ 8)
  | none => true

/-- LIVE_SUBSTITUTION: the armed role takes effect at this step boundary (R335). -/
def execLiveSubstitution (cluster : Fin 408) (s : State) : Host.Outcome State Fault Refusal :=
  done s (match (s.clu cluster.val).roleArmed with
    | some p => if s.atStep (cluster.val / 17) = false then s
                else if p ≤ 16 then s.substitute cluster.val p else s.applyRole cluster.val p
    | none => s)

/-! ### The cluster's memory windows -/

/-- An access that the window refuses (R77). -/
def State.rejectClu (s : State) (who : Requester) : State := s.setRgw Reg.CLU_VM_ADDR_rejected (copyOf who) 0 1

/-- Cell address after an access of CLU_VM_DATA. -/
def State.vmNext (s : State) (who : Requester) : State :=
  let k := copyOf who
  if s.rgw Reg.CLU_VM_ADDR_autoinc k = 1 then
    s.setRgw Reg.CLU_VM_ADDR_cell k 0 ((s.rgw Reg.CLU_VM_ADDR_cell k + 1) % 4096)
  else s

/-- Word and cell after an access of CLU_PM_DATA. -/
def State.pmNext (s : State) (who : Requester) : State :=
  let k := copyOf who
  if s.rgw Reg.CLU_PM_ADDR_autoinc k = 1 then
    let cell := s.rgw Reg.CLU_PM_ADDR_cell k
    if cell < 71 then s.setRgw Reg.CLU_PM_ADDR_cell k 0 (cell + 1)
    else (s.setRgw Reg.CLU_PM_ADDR_cell k 0 0).setRgw Reg.CLU_PM_ADDR_word k 0 ((s.rgw Reg.CLU_PM_ADDR_word k + 1) % 1024)
  else s

/-- CLU_VM_DATA, written: the masked bits merge (R77, R78). -/
def State.wVmData (s : State) (who : Requester) (v : Word) : State :=
  s.onCluster who fun c s =>
    if s.cluOpen who c then
      let mask := BitVec.ofNat 12 (s.rgw Reg.CLU_VM_WMASK_mask (copyOf who))
      let n := s.rgw Reg.CLU_VM_ADDR_cell (copyOf who)
      (((s.settleCell c n).land c (.vm n) (v.setWidth 12) mask)).vmNext who
    else s.rejectClu who

/-- A stored cell with its parity verdict, as a data register returns it. -/
def State.answerCell (s : State) (par : Field) (inst : Nat) (x : SCell) : State :=
  (s.setRg par inst (b2n (!parityOk x))).answer ((cellOf x).toNat + b2n (!parityOk x) * 4096)

/-- CLU_VM_DATA, read (R77). -/
def State.rVmData (s : State) (who : Requester) : State :=
  s.ofCluster who fun c s =>
    if s.cluOpen who c then
      ((s.answerCell Reg.CLU_VM_DATA_par_err c (Mem.get (s.shown c).vm (s.rgw Reg.CLU_VM_ADDR_cell (copyOf who))))).vmNext who
    else (s.rejectClu who).answer 0

/-- CLU_PM_DATA, written: a full cell with fresh parity (R77, R78). -/
def State.wPmData (s : State) (who : Requester) (v : Word) : State :=
  s.onCluster who fun c s =>
    if s.cluOpen who c then
      let cell := s.rgw Reg.CLU_PM_ADDR_cell (copyOf who)
      let w := s.rgw Reg.CLU_PM_ADDR_word (copyOf who)
      if cell < 72 then
        let d := s.flipCell 0 c (cell * 1024 + w) (v.setWidth 12)
        (d.2.modClu c fun x => { x with pm := Mem.put x.pm (72 * w + cell) d.1 }).pmNext who
      else s
    else s.rejectClu who

/-- CLU_PM_DATA, read. -/
def State.rPmData (s : State) (who : Requester) : State :=
  s.ofCluster who fun c s =>
    if s.cluOpen who c then
      let cell := s.rgw Reg.CLU_PM_ADDR_cell (copyOf who)
      if cell < 72 then
        ((s.answerCell Reg.CLU_PM_DATA_par_err c
          (Mem.get (s.clu c).pm (72 * s.rgw Reg.CLU_PM_ADDR_word (copyOf who) + cell)))).pmNext who
      else s.answer 0
    else (s.rejectClu who).answer 0

/-- CLU_VM_DATA_WRITE. -/
def execCluVmDataWrite (who : Requester) (value : Word) (s : State) : Host.Outcome State Fault Refusal :=
  done s (s.asWriter who Reg.CLU_VM_DATA.addr fun s => s.wVmData who value)

/-- CLU_VM_DATA_READ. -/
def execCluVmDataRead (who : Requester) (s : State) : Host.Outcome State Fault Refusal :=
  done s (s.asReader who Reg.CLU_VM_DATA.addr fun s => s.rVmData who)

/-- CLU_PM_DATA_WRITE. -/
def execCluPmDataWrite (who : Requester) (value : Word) (s : State) : Host.Outcome State Fault Refusal :=
  done s (s.asWriter who Reg.CLU_PM_DATA.addr fun s => s.wPmData who value)

/-- CLU_PM_DATA_READ. -/
def execCluPmDataRead (who : Requester) (s : State) : Host.Outcome State Fault Refusal :=
  done s (s.asReader who Reg.CLU_PM_DATA.addr fun s => s.rPmData who)

/-! ### Counters -/

def State.rCluCnt (s : State) (who : Requester) (d : RegDef) (also : List Field := []) : State :=
  s.ofCluster who fun c s => s.readClear d who c also

/-- CLU_CNT_BANK. -/
def execCluCntBank (who : Requester) (s : State) : Host.Outcome State Fault Refusal :=
  done s (s.asReader who Reg.CLU_CNT_BANK.addr fun s => s.rCluCnt who Reg.CLU_CNT_BANK)

/-- CLU_CNT_WAIT. -/
def execCluCntWait (who : Requester) (s : State) : Host.Outcome State Fault Refusal :=
  done s (s.asReader who Reg.CLU_CNT_WAIT.addr fun s => s.rCluCnt who Reg.CLU_CNT_WAIT)

/-- CLU_CNT_REFETCH. -/
def execCluCntRefetch (who : Requester) (s : State) : Host.Outcome State Fault Refusal :=
  done s (s.asReader who Reg.CLU_CNT_REFETCH.addr fun s => s.rCluCnt who Reg.CLU_CNT_REFETCH)

/-- CLU_BANK_PEAK: the read clears turns, bank and step. -/
def execCluBankPeak (who : Requester) (s : State) : Host.Outcome State Fault Refusal :=
  done s (s.asReader who Reg.CLU_BANK_PEAK.addr fun s =>
    s.rCluCnt who Reg.CLU_BANK_PEAK [Reg.CLU_BANK_PEAK_bank, Reg.CLU_BANK_PEAK_step])

/-- Fields of CLU_ID, CLU_ROLE and CLU_STATUS that are computed (R81). -/
def State.cluId (c : Nat) : Nat := Reg.CLU_ID_position.at (c % 17) + Reg.CLU_ID_reach.at (c / 17)

def State.cluRoleWord (s : State) (c : Nat) : Nat :=
  Reg.CLU_ROLE_role.at ((s.clu c).roleArmed.getD (s.rg Reg.CLU_ROLE_role c)) +
    Reg.CLU_ROLE_retired.at (s.rg Reg.CLU_ROLE_retired c)

def State.cluStatus (s : State) (c : Nat) : Nat :=
  let x := s.clu c
  Reg.CLU_STATUS_tight.at (s.rg Reg.CLU_CTRL_dist_mode c) +
    Reg.CLU_STATUS_rep_depth.at (b2n x.lvl0.isSome + b2n x.lvl1.isSome) +
    Reg.CLU_STATUS_state.at x.st + Reg.CLU_STATUS_step.at x.t + Reg.CLU_STATUS_pc.at x.pc

/-- CLU_CAUSE, written: clearing fetch_trap clears its record (CLU_FETCH_ERR). -/
def State.wCluCause (s : State) (who : Requester) (v : Word) : State :=
  s.onCluster who fun c s =>
    let s := s.writeFields Reg.CLU_CAUSE who c v
    if s.rg Reg.CLU_CAUSE_fetch_trap c = 0 then s.setRg Reg.CLU_FETCH_ERR_valid c 0 else s

/-! ### Reach windows -/

def State.onReach (s : State) (who : Requester) (f : Nat → State → State) : State :=
  match s.selReach who with
  | some r => f r s
  | none => s

def State.ofReach (s : State) (who : Requester) (f : Nat → State → State) : State :=
  match s.selReach who with
  | some r => f r s
  | none => s.answer 0

/-- RCH_CTRL: enable acts at the boundary its Meaning states (R152). -/
def State.wRchCtrl (s : State) (who : Requester) (v : Word) : State :=
  s.onReach who fun r s => s.classWrite Reg.RCH_CTRL who r Reg.RCH_CTRL.addr v

/-- RCH_CTRL_ENABLE. -/
def execRchCtrlEnable (who : Requester) (value : Word) (s : State) : Host.Outcome State Fault Refusal :=
  done s (s.asWriter who Reg.RCH_CTRL.addr fun s => s.wRchCtrl who value)

/-- A table window: its address fields, cells of an entry, number of entries, par_err field, table number of R345 and memory. -/
structure TableWin where
  rejected : Field
  autoinc : Field
  cell : Field
  entry : Field
  par : Field
  cells : Nat
  entries : Nat
  code : Nat
  deriving DecidableEq, Repr

def xbtWin : TableWin :=
  ⟨Reg.RCH_XBT_ADDR_rejected, Reg.RCH_XBT_ADDR_autoinc, Reg.RCH_XBT_ADDR_cell, Reg.RCH_XBT_ADDR_step,
    Reg.RCH_XBT_DATA_par_err, 8, 1024, 0⟩
def nsmWin : TableWin :=
  ⟨Reg.RCH_NSM_ADDR_rejected, Reg.RCH_NSM_ADDR_autoinc, Reg.RCH_NSM_ADDR_cell, Reg.RCH_NSM_ADDR_slot,
    Reg.RCH_NSM_DATA_par_err, 3, 4096, 1⟩
def bmapWin : TableWin :=
  ⟨Reg.RCH_BMAP_ADDR_rejected, Reg.RCH_BMAP_ADDR_autoinc, Reg.RCH_BMAP_ADDR_cell, Reg.RCH_BMAP_ADDR_berth,
    Reg.RCH_BMAP_DATA_par_err, 3, 4096, 2⟩

/-- The memory of a table. -/
def Reach.table (x : Reach) (code : Nat) : Mem 13 :=
  match code with
  | 0 => x.xbt
  | 1 => x.nsm
  | _ => x.bmap

/-- The reach with a table replaced. -/
def Reach.setTable (x : Reach) (code : Nat) (m : Mem 13) : Reach :=
  match code with
  | 0 => { x with xbt := m }
  | 1 => { x with nsm := m }
  | _ => { x with bmap := m }

/-- Address after an access. -/
def State.winNext (s : State) (who : Requester) (w : TableWin) : State :=
  let k := copyOf who
  if s.rgw w.autoinc k = 1 then
    let c := s.rgw w.cell k
    if c + 1 < w.cells then s.setRgw w.cell k 0 (c + 1)
    else (s.setRgw w.cell k 0 0).setRgw w.entry k 0 ((s.rgw w.entry k + 1) % w.entries)
  else s

/-- A write of a table cell (R151, R217). A refused access does not step the address (DESIGN CHOICE; log entry 64). -/
def State.wTable (s : State) (who : Requester) (w : TableWin) (v : Word) : State :=
  s.onReach who fun r s =>
    let k := copyOf who
    if s.rchOpen who r then
      let c := s.rgw w.cell k
      if c < w.cells then
        let e := s.rgw w.entry k
        let d := s.flipCell 3 r (w.code * 4096 + e) (v.setWidth 12)
        (d.2.modRch r fun x =>
          let x := x.setTable w.code (Mem.put (x.table w.code) (w.cells * e + c) d.1)
          if w.code = 2 then { x with bmapCopy := Mem.put x.bmapCopy (w.cells * e + c) (v.setWidth 12) } else x).winNext who w
      else s
    else s.setRgw w.rejected k 0 1

/-- A read of a table cell (R151, R218). A refused access, or one of cell 3, does not step the address (DESIGN CHOICE; log entry 64). -/
def State.rTable (s : State) (who : Requester) (w : TableWin) : State :=
  s.ofReach who fun r s =>
    let k := copyOf who
    if s.rchOpen who r then
      let c := s.rgw w.cell k
      if c < w.cells then
        ((s.answerCell w.par r (Mem.get ((s.rch r).table w.code) (w.cells * s.rgw w.entry k + c)))).winNext who w
      else s.answer 0
    else (s.setRgw w.rejected k 0 1).answer 0

/-- A table window's data register, written or read. -/
def State.tableAccess (s : State) (who : Requester) (d : RegDef) (w : TableWin) (access : Option Word) : State :=
  match access with
  | some v => s.asWriter who d.addr fun s => s.wTable who w v
  | none => s.asReader who d.addr fun s => s.rTable who w

/-- RCH_XBT_DATA. -/
def execRchXbtData (who : Requester) (access : Option Word) (s : State) : Host.Outcome State Fault Refusal :=
  done s (s.tableAccess who Reg.RCH_XBT_DATA xbtWin access)

/-- RCH_NSM_DATA. -/
def execRchNsmData (who : Requester) (access : Option Word) (s : State) : Host.Outcome State Fault Refusal :=
  done s (s.tableAccess who Reg.RCH_NSM_DATA nsmWin access)

/-- RCH_BMAP_DATA. -/
def execRchBmapData (who : Requester) (access : Option Word) (s : State) : Host.Outcome State Fault Refusal :=
  done s (s.tableAccess who Reg.RCH_BMAP_DATA bmapWin access)

/-- A reach's counters (R152, R188, R218). -/
def State.rRchCnt (s : State) (who : Requester) (d : RegDef) : State := s.ofReach who fun r s => s.readClear d who r

/-- RCH_CNT_SEND. -/
def execRchCntSend (who : Requester) (s : State) : Host.Outcome State Fault Refusal :=
  done s (s.asReader who Reg.RCH_CNT_SEND.addr fun s => s.rRchCnt who Reg.RCH_CNT_SEND)

/-- RCH_CNT_CLRWAIT. -/
def execRchCntClrwait (who : Requester) (s : State) : Host.Outcome State Fault Refusal :=
  done s (s.asReader who Reg.RCH_CNT_CLRWAIT.addr fun s => s.rRchCnt who Reg.RCH_CNT_CLRWAIT)

/-- RCH_STATUS (R152). -/
def State.rchStatus (s : State) (r : Nat) : Nat :=
  match s.owner r with
  | some t => Reg.RCH_STATUS_parity.at (s.parity t) + Reg.RCH_STATUS_step.at (s.part t).step
  | none => 0

/-- RCH_CAUSE, written: the record goes when the register reads zero. -/
def State.wRchCause (s : State) (who : Requester) (v : Word) : State :=
  s.onReach who fun r s =>
    let s := s.writeFields Reg.RCH_CAUSE who r v
    if s.causeBits Reg.RCH_CAUSE.fields r = 0 then s.setRg Reg.RCH_FAULT_INFO_valid r 0 else s

/-- RCH_BCAUSE, written: the watchdog's record goes with its bit. -/
def State.wRchBcause (s : State) (who : Requester) (v : Word) : State :=
  s.onReach who fun r s =>
    let s := s.writeFields Reg.RCH_BCAUSE who r v
    if s.rg Reg.RCH_BCAUSE_watchdog r = 0 then s.setRg Reg.RCH_BWD_REC_valid r 0 else s

/-- RCH_BPEEK: the selection with the valid bit of what it names (R194, R218). -/
def State.bpeek (s : State) (who : Requester) (r : Nat) : Nat :=
  let k := copyOf who
  let i := s.rgw Reg.RCH_BPEEK_index k
  let p := s.rgw Reg.RCH_BPEEK_parity k
  let v := if s.rgw Reg.RCH_BPEEK_table k = 1 then decide (Mem.get (s.rch r).outstanding (2 * i + p) ≠ 0)
    else (s.entry r i p).valid
  Reg.RCH_BPEEK_valid.at (b2n v) + Reg.RCH_BPEEK_table.at (s.rgw Reg.RCH_BPEEK_table k) + Reg.RCH_BPEEK_parity.at p +
    Reg.RCH_BPEEK_index.at i

/-- RCH_BPEEK_DATA. -/
def State.bpeekData (s : State) (who : Requester) (r : Nat) : Nat :=
  let k := copyOf who
  if s.rgw Reg.RCH_BPEEK_table k = 1 then 0
  else
    let e := s.entry r (s.rgw Reg.RCH_BPEEK_index k) (s.rgw Reg.RCH_BPEEK_parity k)
    Reg.RCH_BPEEK_DATA_tag.at (cellOf e.tag).toNat + Reg.RCH_BPEEK_DATA_value.at (cellOf e.value).toNat

end Sys2Proof.Machine
end

