-- ==== Sys2Proof/Machine/Berths.lean ====
section
/-!
DEFINITION. Sys2Proof/Machine/Berths.lean: arrivals, clears, host fills and the berth watchdog (R195 to R204, R215).
-/
namespace Sys2Proof.Machine

/-- Count a value or clear of a stale epoch (R195, R197). -/
def State.stale (s : State) (r : Nat) : State := s.count Reg.RCH_CNT_CLRWAIT_stale r 1

/-- A cause of R196: the arrival is discarded and the partition stops. -/
def State.berthFault (s : State) (t r : Nat) (f : Field) : State :=
  (s.cause (.reach r) f r).modPart t fun x => { x with stopped := true }

/-- An entry of the berth map fails parity (R319). -/
def State.bmapBad (s : State) (r b : Nat) : Bool := !entryOk (entryCells (s.rch r).bmap (3 * b) 3)

/-- An arrival, by the first row of R195 that matches. An entry that fails parity is treated as absent, and counts in class 3
(R319). -/
def State.arrival (s : State) (t r b source tag parity epoch : Nat) (value : Cell) : State :=
  let m := s.berthMap r b
  if epoch ≠ s.epoch t then s.stale r
  else if m.1 ≠ 1 ∧ m.1 ≠ 2 then
    (if s.bmapBad r b then s.tally true 0 3 r (2 * 4096 + b) else s).berthFault t r Reg.RCH_BCAUSE_unmapped_arrival
  else if m.2.1 ≠ source ∨ m.2.2 ≠ tag then s.berthFault t r Reg.RCH_BCAUSE_tag_mismatch
  else if (s.entry r b parity).valid then s.berthFault t r Reg.RCH_BCAUSE_overrun
  else s.fillEntry r b parity value (BitVec.ofNat 12 tag)

/-- BERTH_ARRIVAL. -/
def execBerthArrival (reach : Fin 24) (berth source tag : Cell) (parity : Bool) (epoch : BitVec 2) (value : Cell)
    (s : State) : Host.Outcome State Fault Refusal :=
  done s (match s.owner reach.val with
    | some t => s.arrival t reach.val berth.toNat source.toNat tag.toNat (b2n parity) epoch.toNat value
    | none => s)

/-- A clear (R200). -/
def State.clearArrives (s : State) (t r tag parity epoch : Nat) : State :=
  let k := 2 * tag + parity
  if epoch ≠ s.epoch t then s.stale r
  else if Mem.get (s.rch r).outstanding k = 0 then s.cause (.reach r) Reg.RCH_BCAUSE_stray_clear r
  else
    let d := s.flip 3 r (3 * 4096 + tag) 1 0
    let bad := decide (oddOnes 2 d.1)
    let s := d.2.modPart t fun x => match (x.bridge.get (4096 * r + tag) []).find? fun v => b2n v.2 = parity with
      | some v => { x with bridge := x.bridge.put (4096 * r + tag) ((x.bridge.get (4096 * r + tag) []).erase v) }
      | none => x
    s.modRch r fun x => { x with outstanding := Mem.put x.outstanding k (BitVec.ofNat 1 d.1),
                                   clrBad := if bad then k :: x.clrBad else x.clrBad.filter (· ≠ k) }

/-- BERTH_CLEAR. -/
def execBerthClear (reach : Fin 24) (tag : Cell) (parity : Bool) (epoch : BitVec 2) (s : State) :
    Host.Outcome State Fault Refusal :=
  done s (match s.owner reach.val with
    | some t => s.clearArrives t reach.val tag.toNat (b2n parity) epoch.toNat
    | none => s)

/-- HOST_BLOCKING_FILL (R203). -/
def execHostBlockingFill (t : Fin 16) (port : BitVec 10) (s : State) : Host.Outcome State Fault Refusal :=
  done s (s.fillBlocking t.val port.toNat)

/-- RCH_BWD_REC of an expiry. -/
def Wait.record (w : Wait) : Nat :=
  2 ^ 31 + b2n w.isClear * 2 ^ 30 + b2n w.parity * 2 ^ 29 + w.position % 32 * 4096 + w.index % 4096

/-- An expiry of a wait (R215). -/
def State.expire (s : State) (t r : Nat) (w : Wait) : State :=
  let s := s.modRch r fun x => { x with waits := x.waits.map fun y => if y = w then { y with expired := true } else y }
  let s := if s.on Reg.RCH_BWD_REC_valid r then s
    else
      let s := (((s.setRg Reg.RCH_BWD_REC_valid r 1).setRg Reg.RCH_BWD_REC_kind r (b2n w.isClear)).setRg
        Reg.RCH_BWD_REC_parity r (b2n w.parity)).setRg Reg.RCH_BWD_REC_position r w.position
      (((s.modRch r fun x => { x with bwdEpoch := w.epoch }).setRg Reg.RCH_BWD_REC_index r w.index).setRg Reg.RCH_BWD_STEP_dcycle r (s.dcycle t)).setRg
        Reg.RCH_BWD_STEP_step r (s.part t).step
  (s.cause (.reach r) Reg.RCH_BCAUSE_watchdog r).alarm t (srcOf 1 r) 0x001 w.record

/-- BERTH_WATCHDOG. -/
def execBerthWatchdog (reach : Fin 24) (isClear : Bool) (index : Cell) (parity : Bool) (s : State) :
    Host.Outcome State Fault Refusal :=
  done s (match s.owner reach.val, (s.rch reach.val).waits.find? fun w =>
      w.isClear = isClear ∧ w.index = index.toNat ∧ w.parity = parity ∧ w.expired = false with
    | some t, some w => if s.on Reg.RCH_BWD_CTRL_en reach.val then s.expire t reach.val w else s
    | _, _ => s)

end Sys2Proof.Machine
end

