-- ==== Sys2Proof/Machine/Clock.lean ====
section
/-!
DEFINITION. Sys2Proof/Machine/Clock.lean: system time (R523, R524).
-/
namespace Sys2Proof.Machine

/-- System time goes on by a number of 1/640 ns. While a COMMIT's target, which runs on at full rate, is behind, it counts at half rate,
until the two are equal (R524). Trace records that waited are in the ring by then (log entry 5). -/
def State.advance (s : State) (n : Nat) : State :=
  let p := s.power
  let own := 640 * p.time + p.frac
  let next := match p.slewTo with
    | some t => max (own + n / 2) (t + n)
    | none => own + n
  let slew := match p.slewTo with
    | some t => if t + n < next then some (t + n) else none
    | none => none
  { s with power := { p with time := next / 640 % 2 ^ 64, frac := next % 640, slewTo := slew },
           weir := { s.weir with inQueue := if n = 0 then s.weir.inQueue else 0 } }

/-- One period of the clock that system time counts: 6.4 ns of the reference clock while domain 30 is On, else 30,517 + 74/128
ns of the crystal (R523). It is what a step does when no command waits (log entry 6). -/
def State.tick (s : State) : State :=
  s.advance (if s.rg Reg.PWR_DOM_state 30 = 1 then 4096 else 30517 * 640 + 370)

end Sys2Proof.Machine
end

