-- ==== Sys2Proof/Machine/Domains.lean ====
section
/-!
DEFINITION. Sys2Proof/Machine/Domains.lean: the switched power domains (R520, R521).
-/
namespace Sys2Proof.Machine

/-! ### Domains -/

/-- The state of a domain: 0 Off, 1 On, 2 Retain, 3 switching. -/
def State.dom (s : State) (d : Nat) : Nat := s.rg Reg.PWR_DOM_state d

/-- What a domain's SRAM holds when it is switched from Off to On: zeros with fresh parity (R521). -/
def State.zeroDomain (s : State) (d : Nat) : State :=
  if d < 24 then
    let s := each ((List.range 17).map (17 * d + ·)) (fun c s => s.setClu c {}) s
    s.modRch d fun x => { ({} : Reach) with retired := x.retired, retireMark := x.retireMark, waysOff := x.waysOff }
  else if d = 32 then { s with keepers := [] }
  else if d = 33 then { s with secure := {} }
  else s

/-- A domain comes to a state; its outputs are clamped unless it is On. -/
def State.setDomain (s : State) (d st : Nat) : State :=
  let s := if s.dom d = 0 ∧ st = 1 then s.zeroDomain d else s
  (s.setRg Reg.PWR_DOM_state d st).setRg Reg.PWR_DOM_clamped d (b2n (st ≠ 1))

/-- Switch domains, one after another, as part of a larger operation. -/
def State.setDomains (s : State) (l : List Nat) (st : Nat) : State := each l (fun d s => s.setDomain d st) s

/-- The first switch of the queue is in progress: its domain is switching, and clamped (R521). -/
def State.startSwitch (s : State) : State :=
  match s.power.switches with
  | (d, _) :: _ => (s.setRg Reg.PWR_DOM_state d 3).setRg Reg.PWR_DOM_clamped d 1
  | [] => s

/-- Ask for a switch; it waits while another is in progress (R521). -/
def State.requestDomain (s : State) (d st : Nat) : State :=
  let q := s.power.switches
  let s := { s with power := { s.power with switches := q ++ [(d, st)] } }
  if q = [] ∧ s.dom d ≠ st then s.startSwitch else s

/-- DOMAIN_SWITCH: power-good is seen, or the domain is down; the next queued switch starts (R521). -/
def execDomainSwitch (s : State) : Host.Outcome State Fault Refusal :=
  done s (match s.power.switches with
    | (d, st) :: rest =>
      let s := if st = 1 then s.zeroDomain d else s
      let s := (s.setRg Reg.PWR_DOM_state d st).setRg Reg.PWR_DOM_clamped d (b2n (st ≠ 1))
      { s with power := { s.power with switches := rest } }.startSwitch
    | [] => s)

/-- Links of a quadrant that are out of Off. -/
def State.quadrantUsed (s : State) (q : Nat) : Bool := (List.range 4).any fun k => s.rg Reg.AQ_STATUS_state (4 * q + k) ≠ 0

/-- A link left or came to Off since s0: its quadrant is switched on with its first link, off with its last (R520). -/
def State.quadrant (s0 : State) (l : Nat) (s : State) : State :=
  let q := l / 4
  if s.quadrantUsed q = s0.quadrantUsed q then s else s.requestDomain (24 + q) (b2n (s.quadrantUsed q))

end Sys2Proof.Machine
end

