-- ==== Sys2Proof/Machine/Irq.lean ====
section
/-!
DEFINITION. Sys2Proof/Machine/Irq.lean: the interrupt controller (R393 to R417).
-/
namespace Sys2Proof.Machine

/-! ### Sources -/

/-- A claimed number that stands for no source (R397). -/
def reservedSource (n : Nat) : Bool :=
  (decide (9 ≤ n) && decide (n ≤ 15)) || (decide (20 ≤ n) && decide (n ≤ 31)) || (decide (92 ≤ n) && decide (n ≤ 95)) ||
    (decide (135 ≤ n) && decide (n ≤ 191)) || decide (255 < n)

/-- An edge on a claimed source, of keeper k's bank below 16 (R397, R400). -/
def State.claimedEdge (s : State) (k n : Nat) : State :=
  if reservedSource n then s else if n < 16 then s.edge (privSrc k n) else s.edge n

/-- SOURCE_EDGE (R393, R395). -/
def execSourceEdge (k : Fin 4) (scanned : Bool) (source : BitVec 9) (cause : BitVec 3) (s : State) :
    Host.Outcome State Fault Refusal :=
  done s (let n := source.toNat
    if scanned then
      if n < 408 then s.scanEdge n cause.toNat else if n < 424 then s.scanEdge n 0 else s
    else s.claimedEdge k.val n)

/-! ### Claims (R404 to R409) -/

/-- Numbers of the claimed sources eligible for target T, with their place in `State.irq`. -/
def State.candidatesFor (s : State) (T : Nat) : List (Nat × Nat) :=
  s.irq.filterMap fun e =>
    let num := if e.1 < 256 then some e.1
      else if 1024 ≤ e.1 ∧ e.1 < 1024 + 64 then (if (e.1 - 1024) / 16 = T then some ((e.1 - 1024) % 16) else none)
      else none
    match num with
    | some n => if s.eligible e.1 T then some (n, e.1) else none
    | none => none

/-- The winner: highest priority, then lowest number (R404). -/
def State.winner (s : State) (l : List (Nat × Nat)) : Option (Nat × Nat) :=
  l.find? fun a => l.all fun b =>
    decide ((s.src b.2).prio < (s.src a.2).prio) || (decide ((s.src b.2).prio = (s.src a.2).prio) && decide (a.1 ≤ b.1))

/-- A keeper's interrupt request: an eligible claimed source, or an enabled pending scanned one (R405, R412). -/
def State.scanGroup (s : State) (k g : Nat) : Bool :=
  s.irq.any fun e => decide (2048 ≤ e.1) && decide ((e.1 - 2048) / 32 = g) && e.2.pending && s.passes e.1 e.2 && s.aimedAt e.1 k

/-- IRQ_SSUMk. -/
def State.ssum (s : State) (k : Nat) : Nat := ((List.range 14).map fun g => b2n (s.scanGroup k g) * 2 ^ g).sum

/-- The keeper's request is active (R405). -/
def State.irqRequest (s : State) (k : Nat) : Bool := decide (s.candidatesFor k ≠ []) || decide (s.ssum k ≠ 0)

/-- A claim by target T, with `claimer` recorded (R406, R410). -/
def State.claim (s : State) (T : Nat) : State :=
  let l := s.candidatesFor T
  match s.winner l with
  | none => s.answer 0
  | some w =>
    let x := s.src w.2
    let ties := (l.filter fun b => (s.src b.2).prio = x.prio ∧ b ≠ w).length
    (s.setSrc w.2 { x with pending := false, count := 0, active := true, claimer := T, masking := false }).answer
      (2 ^ 31 + min 15 ties * 2 ^ 12 + x.count * 2 ^ 8 + w.1)

/-- A read of claim register T by its own keeper in ring 0 or 1, or by the host; T is 5 for IRQ_CLAIMH. -/
def State.rClaim (s : State) (who : Requester) (T : Nat) : State :=
  if (T = 5 ∧ who = .pf) ∨ (T < 4 ∧ s.keeperOf who = some T ∧ ringOf who ≤ 1) then s.claim T else s.answer 0

/-- A read of an IRQ register by the host, completed, closes the window of its masks (R410). -/
def State.hostRead (s : State) (who : Requester) : State :=
  if who = .pf then { s with irq := s.irq.map fun (e : Nat × Src) =>
      if e.2.masking ∧ s.targetOf e.1 = 5 then (e.1, { e.2 with masking := false }) else e }
  else s

/-- Address of a claim register. -/
def claimAddr (r : Nat) : Nat := 0x800010 + 4 * r

/-- The target of claim or completion register r: 4 is the host's. -/
def claimTarget (r : Nat) : Nat := if r = 4 then 5 else r

/-- IRQ_CLAIM. -/
def execIrqClaim (who : Requester) (register : Fin 5) (s : State) : Host.Outcome State Fault Refusal :=
  done s (s.asReader who (claimAddr register.val) fun s => (s.rClaim who (claimTarget register.val)).hostRead who)

/-- The level of an ALERT source (R409). -/
def State.alertLevel (s : State) (n : Nat) : Bool := (decide (n = 130) && s.power.alert0) || (decide (n = 131) && s.power.alert1)

/-- A completion by target T (R408, R409). The host's request that remains active sends vector 8 again (R444). -/
def State.completeClaim (s : State) (T n : Nat) : State :=
  let k := if n < 16 then privSrc T n else n
  let x := s.src k
  if x.active ∧ x.claimer = T ∧ (n < 16 → T < 4) then
    let lv := s.alertLevel n
    let y := { x with active := false, pending := x.pending || lv, count := if lv then max 1 x.count else x.count }
    let s' := State.hostNotice s (s.setSrc k y)
    if T = 5 ∧ s.hostRequest ∧ s'.hostRequest then s'.msixSend 0 8 else s'
  else if T = 5 ∧ s.hostRequest then (s.setRg Reg.IRQ_STAT_bad_complete 0 1).msixSend 0 8
  else s.setRg Reg.IRQ_STAT_bad_complete 0 1

/-- A write of a completion register. -/
def State.wComplete (s : State) (who : Requester) (T addr : Nat) (v : Word) : State :=
  if (T = 5 ∧ who = .pf) ∨ (T < 4 ∧ s.keeperOf who = some T) then s.completeClaim T (Reg.IRQ_COMPLETEk_source.of v)
  else s.refuse who 2 addr

/-- IRQ_COMPLETE. -/
def execIrqComplete (who : Requester) (register : Fin 5) (value : Word) (s : State) : Host.Outcome State Fault Refusal :=
  done s (s.asWriter who (0x800030 + 4 * register.val) fun s =>
    s.wComplete who (claimTarget register.val) (0x800030 + 4 * register.val) value)

/-! ### Configuration (R399 to R403, R410, R411) -/

/-- The source that a requester's IRQ_SRC_SEL names: scanned, its number, and its place in `State.irq`. -/
def State.selSource (s : State) (who : Requester) : Option (Bool × Nat × Nat) :=
  let k := copyOf who
  let n := s.rgw Reg.IRQ_SRC_SEL_source k
  if s.rgw Reg.IRQ_SRC_SEL_scanned k = 1 then (if n < 424 then some (true, n, scanSrc n) else none)
  else if 255 < n then none
  else if n < 16 then some (false, n, privSrc (s.rgw Reg.IRQ_SRC_SEL_keeper k) n)
  else some (false, n, n)

/-- A source whose target cannot be written. -/
def fixedSource (scanned : Bool) (n : Nat) : Bool := !scanned && (decide (n < 16) || (decide (16 ≤ n) && decide (n ≤ 19)))

/-- The requester may write the configuration of this source (R416). -/
def State.mayConfigure (s : State) (who : Requester) (scanned : Bool) (n place : Nat) : Bool :=
  decide (who = .pf) || s.isSystem who ||
    (!scanned && decide (n < 16) && decide (ringOf who ≤ 1) && decide (s.keeperOf who = some ((place - 1024) / 16)))

/-- The keeper whose retired instructions close the window of a mask write: the target's, a new one counting anew (R410). -/
def State.maskKeeper (s : State) (place : Nat) : Option Nat :=
  let t := s.targetOf place
  if t < 4 then some t else if t = 4 then some s.system else none

/-- IRQ_SRC_CFG, written (R399, R401, R410, R411). -/
def State.wSrcCfg (s : State) (who : Requester) (v : Word) : State :=
  match s.selSource who with
  | none => s
  | some (scanned, n, place) =>
    if !s.mayConfigure who scanned n place then s.refuse who 2 Reg.IRQ_SRC_CFG.addr
    else if !scanned ∧ reservedSource n then s
    else
      let x := s.src place
      let en := decide (Reg.IRQ_SRC_CFG_en.of v = 1)
      let tg := Reg.IRQ_SRC_CFG_target.of v
      let keep := fixedSource scanned n || decide (5 < tg) || (scanned && decide (tg = 5))
      let masks := x.en && !en
      let y := { x with en := en, target := if keep then x.target else tg,
                        prio := if scanned then x.prio else Reg.IRQ_SRC_CFG_priority.of v,
                        masking := if en then false else x.masking || masks }
      let s' := s.setSrc place y
      let s' := if masks ∨ (y.masking ∧ y.target ≠ x.target) then
          match s'.maskKeeper place with
          | some k => s'.modKpr k fun c => { c with maskAge := c.maskAge.put place 1 }
          | none => s'
        else s'
      State.hostNotice s s'

/-- IRQ_SRC_CFG. -/
def execIrqSrcCfg (who : Requester) (value : Word) (s : State) : Host.Outcome State Fault Refusal :=
  done s (s.asWriter who Reg.IRQ_SRC_CFG.addr fun s => s.wSrcCfg who value)

/-- IRQ_SRC_CFG, read. -/
def State.srcCfg (s : State) (who : Requester) : Nat :=
  match s.selSource who with
  | none => 0
  | some (scanned, n, place) =>
    let x := s.src place
    Reg.IRQ_SRC_CFG_pending.at (b2n x.pending) + Reg.IRQ_SRC_CFG_active.at (b2n x.active) +
      Reg.IRQ_SRC_CFG_count.at x.count + Reg.IRQ_SRC_CFG_live.at (b2n (!scanned && s.alertLevel n)) +
      Reg.IRQ_SRC_CFG_fixed.at (b2n (fixedSource scanned n)) +
      Reg.IRQ_SRC_CFG_claimer.at (if x.active then x.claimer else 0) + Reg.IRQ_SRC_CFG_en.at (b2n x.en) +
      Reg.IRQ_SRC_CFG_target.at (if fixedSource scanned n then s.givenTarget place else x.target) +
      Reg.IRQ_SRC_CFG_priority.at (if scanned then 0 else x.prio)

/-- IRQ_SCAUSE, written: a latch that becomes zero clears pending and count (R413). -/
def State.wScause (s : State) (who : Requester) (v : Word) : State :=
  match s.selSource who with
  | some (true, _, place) =>
    s.modSrc place fun x =>
      let l := x.latch &&& ~~~(v.setWidth 8)
      if l = 0 then { x with latch := 0, pending := false, count := 0 } else { x with latch := l }
  | _ => s

/-- IRQ_SCAUSE. -/
def execIrqScause (who : Requester) (value : Word) (s : State) : Host.Outcome State Fault Refusal :=
  done s (s.asWriter who Reg.IRQ_SCAUSE.addr fun s => s.wScause who value)

/-- IRQ_SCAUSE, read. -/
def State.scause (s : State) (who : Requester) : Nat :=
  match s.selSource who with
  | some (true, _, place) => (s.src place).latch.toNat
  | _ => 0

/-! ### Doorbells, software sources, static targets -/

/-- IRQ_KDOOR (R397). -/
def State.wKdoor (s : State) (who : Requester) (v : Word) : State :=
  if Reg.IRQ_KDOOR_go.of v = 1 then
    s.edge (privSrc (Reg.IRQ_KDOOR_keeper.of v) (match s.keeperOf who with
      | some n => 4 + n
      | none => 8))
  else s

/-- IRQ_KDOOR. -/
def execIrqKdoor (who : Requester) (value : Word) (s : State) : Host.Outcome State Fault Refusal :=
  done s (s.asWriter who Reg.IRQ_KDOOR.addr fun s => s.wKdoor who value)

/-- IRQ_SWSET. -/
def State.wSwset (s : State) (who : Requester) (v : Word) : State :=
  if 1 < ringOf who then s.refuse who 2 Reg.IRQ_SWSET.addr
  else if Reg.IRQ_SWSET_go.of v = 1 ∧ 192 ≤ Reg.IRQ_SWSET_source.of v then s.edge (Reg.IRQ_SWSET_source.of v)
  else s

/-- IRQ_SWSET. -/
def execIrqSwset (who : Requester) (value : Word) (s : State) : Host.Outcome State Fault Refusal :=
  done s (s.asWriter who Reg.IRQ_SWSET.addr fun s => s.wSwset who value)

/-- A static target takes a legal code (R399). -/
def State.setTarget (s : State) (f : Field) (v : Word) : State := if 5 < f.of v then s else s.setRg f 0 (f.of v)

/-- IRQ_PTGT: keeper 0 in ring 0 until the lock is set; nobody after it (R402). -/
def State.wPtgt (s : State) (who : Requester) (v : Word) : State :=
  if s.on Reg.IRQ_PTGT_lock then s
  else if !(s.isKeeper0 who && decide (ringOf who = 0)) then s.refuse who 2 Reg.IRQ_PTGT.addr
  else
    let s' := [Reg.IRQ_PTGT_lock_unit, Reg.IRQ_PTGT_thermal, Reg.IRQ_PTGT_tamper, Reg.IRQ_PTGT_fatal].foldl
      (fun s f => s.setTarget f v) s
    State.hostNotice s (s'.setRg Reg.IRQ_PTGT_lock 0 (Reg.IRQ_PTGT_lock.of v))

/-- IRQ_PTGT. -/
def execIrqPtgt (who : Requester) (value : Word) (s : State) : Host.Outcome State Fault Refusal :=
  done s (s.asWriter who Reg.IRQ_PTGT.addr fun s => s.wPtgt who value)

/-! ### Pending words -/

/-- IRQ_PENDw. -/
def State.pendWord (s : State) (who : Requester) (w : Nat) : Nat :=
  let bank := (s.keeperOf who).getD (s.rgw Reg.IRQ_SRC_SEL_keeper (copyOf who))
  ((List.range 32).map fun j =>
    let n := 32 * w + j
    b2n (s.src (if n < 16 then privSrc bank n else n)).pending * 2 ^ j).sum

/-- IRQ_SPENDw. -/
def State.spendWord (s : State) (w : Nat) : Nat :=
  ((List.range 32).map fun j => b2n (s.src (scanSrc (32 * w + j))).pending * 2 ^ j).sum

/-- An instruction of keeper k retires: of the masks that stood before it, those older than four of its instructions have taken effect
(R410). What an open window lets through is free anew after each. -/
def State.ageMasks (s : State) (k : Nat) (before : Tbl Nat) : State :=
  let x := s.kpr k
  let old := x.maskAge.map fun (e : Nat × Nat) => if before.contains e then (e.1, e.2 + 1) else e
  let s := s.setKpr k { x with maskAge := old.filter fun e => e.2 < 5 }
  let s := if old = [] then s else { s with freeCtr := s.freeCtr + 4096 }
  (old.filter fun e => 5 ≤ e.2).foldl (fun s e => s.modSrc e.1 fun y => { y with masking := false }) s

/-! ### Resets (R414, R415) -/

/-- A keeper resets: its claims become pending again. -/
def State.dropClaims (s : State) (k : Nat) : State :=
  let s' := { s with irq := s.irq.map fun (e : Nat × Src) =>
    if e.2.active ∧ e.2.claimer = k then
      (e.1, { e.2 with active := false, pending := true, count := max 1 e.2.count })
    else e }
  State.hostNotice s s'

end Sys2Proof.Machine
end

