-- ==== Sys2Proof/Machine/Ledger.lean ====
section
/-!
DEFINITION. Sys2Proof/Machine/Ledger.lean: the mooring ledger, its grants, and the check units (R455 to R469).
-/
namespace Sys2Proof.Machine

/-! ### Tags and the free list (R455, R456) -/

def tagKind (t : Nat) : Nat := bits t 14 2
def tagId (t : Nat) : Nat := bits t 8 6
def tagAccount (t : Nat) : Nat := bits t 4 4
def tagGen (t : Nat) : Nat := bits t 0 4

/-- A tag from its fields. -/
def tagOf (kind id account gen : Nat) : Nat := kind % 4 * 2 ^ 14 + id % 64 * 2 ^ 8 + account % 16 * 16 + gen % 16

/-- Buffers that are allocated: 65,504 and above hold the ownership table (R455). -/
def dataBuffers : Nat := 65504

/-- The tag of a buffer. -/
def State.tag (s : State) (b : Nat) : Nat := (Mem.get s.ledger.tags b).toNat

/-- A tag changes, with its copy in the ownership table in HBM (R455). -/
def State.setTag (s : State) (b v : Nat) : State :=
  let s := { s with ledger := { s.ledger with tags := Mem.put s.ledger.tags b (BitVec.ofNat 16 v) } }
  s.hbmPut (s.bufAddr (dataBuffers + b / 2048) + b % 2048 * 2) (leBytes 2 v)

/-- The head of the free list: buffers never allocated come first. -/
def Ledger.head (l : Ledger) : Option Nat := if l.fresh < dataBuffers then some l.fresh else l.returned.head?

/-- The free list without its head. -/
def Ledger.pop (l : Ledger) : Ledger :=
  if l.fresh < dataBuffers then { l with fresh := l.fresh + 1 } else { l with returned := l.returned.tail }

/-- Buffers on the free list. -/
def Ledger.free (l : Ledger) : Nat := dataBuffers - l.fresh + l.returned.length

/-- The ledger buffer that lies in a physical page (R455). -/
def State.bufferOf (s : State) (p : Nat) : Option Nat :=
  let base := s.rg Reg.LDG_POOLk_base (p / 2 ^ 22) * 32768
  let i := p % 2 ^ 22
  if base ≤ i ∧ i < base + 32768 then some (p / 2 ^ 22 * 32768 + (i - base)) else none

/-- The buffer's page has been retired, so it is not allocated again (R177; log entry 75). -/
def State.bufferGone (s : State) (b : Nat) : Bool := s.pagesRetired.contains (s.bufAddr b / 4096)

/-- The free list from its first buffer on that may be allocated. -/
def State.usableList (s : State) : Nat → Ledger → Ledger
  | 0, l => l
  | n + 1, l => match l.head with
    | some b => if s.bufferGone b then s.usableList n l.pop else l
    | none => l

/-- Buffers on the free list that may be allocated. -/
def State.ledgerFree (s : State) : Nat :=
  s.ledger.free - (((s.pagesRetired.filterMap s.bufferOf).eraseDups).filter fun b =>
    (decide (s.ledger.fresh ≤ b) && decide (b < dataBuffers)) || s.ledger.returned.contains b).length

/-- Buffers charged to tenant t. -/
def State.ledgerUsed (s : State) (t : Nat) : Nat :=
  (s.ledger.tags.filter fun e => tagKind e.2.toNat ≠ 0 ∧ tagAccount e.2.toNat = t).length

/-- The account of tenant t has reached its quota. -/
def State.atQuota (s : State) (t : Nat) : Bool := decide (s.rg Reg.LDG_QUOTAt_quota t ≤ s.ledgerUsed t)

/-- Allocate the head of the free list to an owner, raising its generation (R458). -/
def State.takeBuffer (s : State) (kind id account : Nat) : Option (Nat × State) :=
  let l := s.usableList s.pagesRetired.length s.ledger
  match l.head with
  | none => none
  | some b =>
    let s := { s with ledger := l.pop }
    some (b, s.setTag b (tagOf kind id account (tagGen (s.tag b) + 1)))

/-- Zero-fill a buffer, and append it to the free list (R459). -/
def State.giveBack (s : State) (b : Nat) : State :=
  let a := s.bufAddr b
  let s := { s with hbm := Tbl.keep s.hbm fun x => decide (x < a) || decide (a + 4096 ≤ x) }
  let s := s.setTag b (tagGen (s.tag b))
  { s with ledger := { s.ledger with returned := s.ledger.returned ++ [b] } }

/-- The buffers of tenant t: those it owns, and those charged to its account (R450, R456). -/
def State.tenantBuffers (s : State) (t : Nat) : List Nat :=
  (s.ledger.tags.filter fun e => tagKind e.2.toNat ≠ 0 ∧
    (tagAccount e.2.toNat = t ∨ (tagKind e.2.toNat = 1 ∧ tagId e.2.toNat = t))).map (·.1)

/-- A buffer that keeper 0 took for a partition of tenant t is still what it was taken for: another owner may have freed it, and a third
hold it now (R456, R459). -/
def State.heldFor (s : State) (t b : Nat) : Bool :=
  decide (tagKind (s.tag b) = 2) && decide (tagAccount (s.tag b) = t)

/-! ### Identities (R457) -/

/-- The requester may act as the owner (kind, id): the PF and the system keeper as any tag (R457). -/
def State.mayAct (s : State) (who : Requester) (kind id : Nat) : Bool :=
  decide (who = .pf) || s.isSystem who ||
    (match who with
      | .keeper k ring t =>
        if 2 ≤ ring.toNat then decide (kind = 1) && decide (id = t.toNat)
        else decide (kind = 1) || (decide (kind = 2) && decide (id = k.val)) ||
          (decide (kind = 3) && decide (s.rg Reg.SLC_CHCFG_keeper id = k.val))
      | _ => false)

/-- The default identity. -/
def State.defaultId (s : State) (who : Requester) : Nat × Nat :=
  match who with
  | .pf => (1, 0)
  | .keeper k ring t => if 2 ≤ ring.toNat then (1, t.toNat) else (2, k.val)
  | .capstan => (2, s.system)

/-- The outcome of the last operation (LDG_RESULT). -/
def State.ldgResult (s : State) (who : Requester) (v : Nat) : State := s.setRgw Reg.LDG_RESULT_outcome (copyOf who) 0 v

/-! ### Allocation (R458) -/

/-- LDG_ALLOC, read: the answer and the state after. -/
def State.rAlloc (s : State) (who : Requester) : State :=
  let t := s.rgw Reg.LDG_ALLOC_TAG_tag (copyOf who) * 16
  if !s.mayAct who (tagKind t) (tagId t) then s.answer 0
  else if s.atQuota (tagAccount t) then s.answer (2 ^ 30)
  else match s.takeBuffer (tagKind t) (tagId t) (tagAccount t) with
    | none => s.answer 0
    | some r => r.2.answer (2 ^ 31 + tagGen (r.2.tag r.1) * 2 ^ 16 + r.1)

/-- LDG_ALLOC. -/
def execLdgAlloc (who : Requester) (s : State) : Host.Outcome State Fault Refusal :=
  done s (s.asReader who Reg.LDG_ALLOC.addr fun s => s.rAlloc who)

/-! ### Frees and gives (R459, R460) -/

/-- An offence: logged, sent to the weir, and raised against the offender. `off` is 1 for a double free, 2 for a foreign one. -/
def State.offence (s : State) (give : Bool) (off b : Nat) (offender : Nat × Nat) (named : Nat) : State :=
  let bad := tagOf offender.1 offender.2 (tagAccount named) (tagGen named)
  let r : Offence := { give := give, offence := off, buffer := b, owner := s.tag b, offender := bad }
  let l := s.ledger
  let s := { s with ledger :=
    if l.log.length < 32 then { l with log := l.log ++ [r] } else { l with lost := satAdd 255 l.lost 1 } }
  let owner := if offender.1 = 1 then offender.2 else if offender.1 = 3 then s.rg Reg.SLC_CHCFG_tenant offender.2 else 16
  let s := s.log owner (srcOf 8 0) 0x102 (b + bad * 2 ^ 16 + off * 2 ^ 32)
  let record := b + s.tag b * 2 ^ 16 + bad * 2 ^ 32
  let s := if offender.1 = 1 ∨ offender.1 = 3 then s.postFault (owner % 16) (16 + off) record 0 else s
  if offender.1 = 2 ∨ offender.1 = 3 then s.cause .ledger Reg.LDG_CAUSE_offence else s

/-- What the first matching row of R459 decides, for a requester that may act (`ok`) as the named tag: 0 accepted, 1 double
free, 2 foreign free. -/
def State.ownerTest (s : State) (ok : Bool) (b named : Nat) : Nat :=
  let t := s.tag b
  if dataBuffers ≤ b ∨ ok = false then 2
  else if tagKind t = 0 ∨ tagGen named ≠ tagGen t then 1
  else if tagKind named ≠ tagKind t ∨ tagId named ≠ tagId t then 2
  else 0

/-- Whom an offence is charged to (R459 row 1, R460). -/
def State.charged (s : State) (who : Requester) (ok : Bool) (b named : Nat) : Nat × Nat :=
  if dataBuffers ≤ b ∨ ok = false then s.defaultId who else (tagKind named, tagId named)

/-- LDG_FREE. -/
def State.wFree (s : State) (who : Requester) (v : Word) : State :=
  let b := Reg.LDG_FREE_buffer.of v
  let t := Reg.LDG_FREE_tag.of v
  let ok := s.mayAct who (tagKind t) (tagId t)
  match s.ownerTest ok b t with
  | 0 => (s.giveBack b).ldgResult who 0
  | n => (s.offence false n b (s.charged who ok b t) t).ldgResult who n

/-- LDG_GIVE. -/
def State.wGive (s : State) (who : Requester) (v : Word) : State :=
  let b := Reg.LDG_GIVE_buffer.of v
  let t := Reg.LDG_GIVE_tag.of v
  let ok := s.mayAct who (tagKind t) (tagId t)
  let dst := s.rgw Reg.LDG_ALLOC_TAG_tag (copyOf who) * 16
  match s.ownerTest ok b t with
  | 0 =>
    if s.atQuota (tagAccount dst) then s.ldgResult who 3
    else (s.setTag b (dst + tagGen (s.tag b))).ldgResult who 0
  | n => (s.offence true n b (s.charged who ok b t) t).ldgResult who n

/-- LDG_FREE. -/
def execLdgFree (who : Requester) (value : Word) (s : State) : Host.Outcome State Fault Refusal :=
  done s (s.asWriter who Reg.LDG_FREE.addr fun s => s.wFree who value)

/-- LDG_GIVE. -/
def execLdgGive (who : Requester) (value : Word) (s : State) : Host.Outcome State Fault Refusal :=
  done s (s.asWriter who Reg.LDG_GIVE.addr fun s => s.wGive who value)

/-- A channel frees its source buffer with its own tag (R474). -/
def State.channelFree (s : State) (c b : Nat) : State :=
  let named := tagOf 3 c (s.rg Reg.SLC_CHCFG_tenant c) (tagGen (s.tag b))
  match s.ownerTest true b named with
  | 0 => s.giveBack b
  | n => s.offence false n b (3, c) named

/-- LDG_LOG_A, read: the oldest record goes, and its LDG_LOG_B is latched. -/
def State.rLogA (s : State) : State :=
  let l := s.ledger
  match l.log with
  | [] => { s with ledger := { l with lost := 0 } }.answer (Reg.LDG_LOG_A_lost.at l.lost)
  | r :: rest =>
    let s := { s with ledger := { l with log := rest, lost := 0 } }
    let s := (s.setRg Reg.LDG_LOG_B_owner 0 r.owner).setRg Reg.LDG_LOG_B_offender 0 r.offender
    s.answer (Reg.LDG_LOG_A_valid.at 1 + Reg.LDG_LOG_A_op.at (b2n r.give) + Reg.LDG_LOG_A_offence.at r.offence +
      Reg.LDG_LOG_A_lost.at l.lost + Reg.LDG_LOG_A_buffer.at r.buffer)

/-- LDG_LOG_A. -/
def execLdgLogA (who : Requester) (s : State) : Host.Outcome State Fault Refusal :=
  done s (s.asReader who Reg.LDG_LOG_A.addr fun s => s.rLogA)

/-- LDG_QUERY, LDG_STAT and LDG_QUOTAt.used, read. -/
def State.ldgQuery (s : State) (who : Requester) : Nat :=
  let b := s.rgw Reg.LDG_QUERY_buffer (copyOf who)
  Reg.LDG_QUERY_tag.at (s.tag b) + b

/-! ### Grants (R463) -/

/-- The entry that a requester addresses, and its two words. -/
def State.grant (s : State) (g : Nat) : Nat := (Mem.get s.ledger.grants g).toNat
def State.setGrant (s : State) (g v : Nat) : State :=
  { s with ledger := { s.ledger with grants := Mem.put s.ledger.grants g (BitVec.ofNat 44 v) } }

/-- A grant of buffer b in generation g may be written by this requester: a free buffer has no current owner (R456, R463). -/
def State.mayGrant (s : State) (who : Requester) (b gen : Nat) : Bool :=
  decide (tagKind (s.tag b) ≠ 0) && s.mayAct who (tagKind (s.tag b)) (tagId (s.tag b)) && decide (tagGen (s.tag b) = gen)

/-- LDG_GNT_A. -/
def State.wGntA (s : State) (who : Requester) (v : Word) : State :=
  let g := s.rgw Reg.LDG_GNT_ADDR_grant (copyOf who)
  if s.mayGrant who (Reg.LDG_GNT_A_buffer.of v) (Reg.LDG_GNT_A_generation.of v) then
    s.setGrant g ((Reg.LDG_GNT_A.fields.map fun f => f.at (f.of v)).sum + s.grant g / 2 ^ 32 * 2 ^ 32)
  else s.setRgw Reg.LDG_GNT_ADDR_rejected (copyOf who) 0 1

/-- LDG_GNT_B: the buffer and generation are those of the entry's LDG_GNT_A (DEDUCED; log entry 26). -/
def State.wGntB (s : State) (who : Requester) (v : Word) : State :=
  let g := s.rgw Reg.LDG_GNT_ADDR_grant (copyOf who)
  let a := s.grant g % 2 ^ 32
  if s.mayGrant who (bits a 0 16) (bits a 16 4) then s.setGrant g (a + Reg.LDG_GNT_B_spn.of v * 2 ^ 32)
  else s.setRgw Reg.LDG_GNT_ADDR_rejected (copyOf who) 0 1

/-- LDG_GNT_A. -/
def execLdgGntA (who : Requester) (value : Word) (s : State) : Host.Outcome State Fault Refusal :=
  done s (s.asWriter who Reg.LDG_GNT_A.addr fun s => s.wGntA who value)

/-- The status of a peer's request of n halfwords through grant g (R464). -/
def State.grantStatus (s : State) (g off n spn : Nat) (write : Bool) : Nat :=
  let e := s.grant g
  let b := bits e 0 16
  if bit e 31 = false then 1
  else if tagKind (s.tag b) = 0 ∨ tagGen (s.tag b) ≠ bits e 16 4 then 2
  else if (if write then bit e 30 else bit e 29) = false then 3
  else if 2048 < off + n then 4
  else if bits e 32 12 ≠ spn then 5
  else 0

/-- Where the halfwords of a grant lie. -/
def State.grantAddr (s : State) (g off : Nat) : Nat := s.bufAddr (bits (s.grant g) 0 16) + 2 * off

/-- A peer's read: the status and the cells; a page that has met an uncorrectable error gives none (R464). -/
def State.grantRead (s : State) (g off n spn : Nat) : Nat × List Nat :=
  match s.grantStatus g off n spn false with
  | 0 =>
    if s.pagesBad.contains (s.grantAddr g off / 4096) then (6, [])
    else (0, (List.range n).map fun i => s.hbmHalf (s.grantAddr g off + 2 * i) % 4096)
  | st => (st, [])

/-- A peer's write: the status and the state after. -/
def State.grantWrite (s : State) (g off spn : Nat) (cells : List Nat) : Nat × State :=
  match s.grantStatus g off cells.length spn true with
  | 0 =>
    let s' := s.hbmPut (s.grantAddr g off) (cells.flatMap fun c => leBytes 2 (c % 4096))
    (0, if bit (s.grant g) 28 then (s'.setRg Reg.LDG_CAUSE_grant 0 g).cause .ledger Reg.LDG_CAUSE_grant_write else s')
  | st => (st, s)

/-! ### Check units (R465 to R469) -/

/-- Feed bytes to unit u. -/
def State.chkFeed (s : State) (u : Nat) (l : List Byte) : State :=
  let x := s.chk u
  (s.setChk u { x with crc := BitVec.ofNat 64 (l.foldl (crcFeed x.poly) x.crc.toNat) }).count Reg.CHK_BYTESu_bytes u l.length

/-- An init of unit u from its CHK_CTRL (R468). -/
def State.chkInit (s : State) (u : Nat) : State :=
  let p := s.rg Reg.CHK_CTRLu_poly u
  let s := (s.setChk u { s.chk u with poly := p, crc := BitVec.ofNat 64 (crcInit p) }).setRg Reg.CHK_BYTESu_bytes u 0
  if s.on Reg.CHK_CTRLu_fold u then s.chkFeed u (leBytes 2 (s.rg Reg.CHK_CTRLu_alive u)) else s

/-- CHK_VALu, as 64 bits. -/
def State.chkVal (s : State) (u : Nat) : Nat := crcFinal (s.chk u).poly (s.chk u).crc.toNat

/-- A keeper's write meets a unit whose assignee is a channel (R467; log entry 86). -/
def State.chkShut (s : State) (who : Requester) (u : Nat) : Bool :=
  decide (s.rg Reg.CHK_ASSIGNu_kind u = 2) && (s.keeperOf who).isSome

/-- The requester is the keeper assignee, in ring 0 or 1. -/
def State.chkScanner (s : State) (who : Requester) (u : Nat) : Bool :=
  decide (s.rg Reg.CHK_ASSIGNu_kind u = 1) && decide (s.keeperOf who = some (s.rg Reg.CHK_ASSIGNu_id u)) &&
    decide (ringOf who ≤ 1)

/-- CHK_CTRLu. -/
def State.wChkCtrl (s : State) (who : Requester) (u : Nat) (v : Word) : State :=
  if s.chkShut who u then s.refuse who 2 (Reg.CHK_CTRLu.addr + 32 * u)
  else
    let s := s.writeFields Reg.CHK_CTRLu who u v
    if Reg.CHK_CTRLu_init.of v = 1 ∧ s.on Reg.CHK_SCANu_CTRL_busy u = false then s.chkInit u else s

/-- CHK_INIT. -/
def execChkInit (who : Requester) (unit : Fin 4) (value : Word) (s : State) : Host.Outcome State Fault Refusal :=
  done s (s.asWriter who (Reg.CHK_CTRLu.addr + 32 * unit.val) fun s => s.wChkCtrl who unit.val value)

/-- CHK_SCANu_CTRL: go starts a scan of the assignee's (R467, R469). -/
def State.wChkScan (s : State) (who : Requester) (u : Nat) (v : Word) : State :=
  if s.chkShut who u then s.refuse who 2 (Reg.CHK_SCANu_CTRL.addr + 32 * u)
  else
    let s := s.writeFields Reg.CHK_SCANu_CTRL who u v
    if Reg.CHK_SCANu_CTRL_go.of v = 1 ∧ s.on Reg.CHK_SCANu_CTRL_busy u = false ∧ s.chkScanner who u = true then
      (s.setChk u { s.chk u with scanLeft := s.rg Reg.CHK_SCANu_LEN_value u,
                                 scanAddr := s.rg Reg.CHK_SCANu_ADDR_value u * 8 }).setRg Reg.CHK_SCANu_CTRL_busy u 1
    else s

/-- CHK_SCAN. -/
def execChkScan (who : Requester) (unit : Fin 4) (value : Word) (s : State) : Host.Outcome State Fault Refusal :=
  done s (s.asWriter who (Reg.CHK_SCANu_CTRL.addr + 32 * unit.val) fun s => s.wChkScan who unit.val value)

/-- SCAN_DONE: the bytes before a failing read have been fed, or all of them (R469). -/
def execScanDone (unit : Fin 4) (failsAt : Option Nat) (s : State) : Host.Outcome State Fault Refusal :=
  done s (let u := unit.val
    if s.on Reg.CHK_SCANu_CTRL_busy u then
      let x := s.chk u
      let n := match failsAt with
        | some k => min k x.scanLeft
        | none => x.scanLeft
      let s := (s.chkFeed u (s.hbmGet x.scanAddr n)).setRg Reg.CHK_SCANu_CTRL_busy u 0
      let s := s.setChk u { s.chk u with scanLeft := 0, scanAddr := 0 }
      let s := if failsAt.isSome then s.cause (.chk u) Reg.CHK_SCANu_CTRL_error u else s
      s.cause (.chk u) Reg.CHK_SCANu_CTRL_done u
    else s)

end Sys2Proof.Machine
end

