-- ==== Sys2Proof/Machine/DesignMem.lean ====
section
/-!
DEFINITION. Sys2Proof/Machine/DesignMem.lean: the design-memory units and homes (R160 to R188): data returns, fences, the
directory, writebacks, page copies, page retirement, HBM sensors and errors.
-/
namespace Sys2Proof.Machine

/-! ### Data returns -/

/-- A value failed parity as it arrived (R164): in the reach cache, or in design memory. -/
def State.dataParity (s : State) (t r : Nat) (w : WordAt) : State :=
  let s := if ((s.rch r).cache.find w.line).isSome then s.tally true 0 5 r ((s.rch r).cacheAt w.line)
    else s.tally true 0 6 (w.byte / 2 ^ 34) (w.byte % 2 ^ 34 / 4096)
  (s.cause (.reach r) Reg.DMEM_R_CAUSE_data_parity r).modPart t fun x => { x with stopped := true }

/-- The data of one read arrives in the unit of its reach (R160). -/
def State.readArrives (s : State) (c : Nat) (x : DmemRead) : State :=
  s.modClu c fun y => { y with reads := y.reads.map fun z => if z = x then { z with arrived := true } else z }

/-- The data of the oldest read of a slot that is still on its way arrives (R160, R164). A translation entry is read, and can be
unreadable, only where the translation buffer misses (R159). -/
def State.readReturn (s : State) (c slot : Nat) (xlate : Bool) : State :=
  let r := c / 17
  match s.owner r, (s.clu c).reads.find? fun x => x.slot = slot ∧ x.arrived = false with
  | some t, some x =>
    let w := (s.part t).wordAt x.region x.addr
    if ((s.rch r).requests.find w.line).isSome then s
    else if xlate ∧ !(s.rch r).tlb.contains (x.region * 8192 + x.addr / 2048) then
      ((s.tally true 0 6 (w.byte / 2 ^ 34) (w.byte % 2 ^ 34 / 4096)).cause (.reach r) Reg.DMEM_R_CAUSE_xlate_fault r).modPart t
        fun y => { y with stopped := true }
    else
      let s := s.translated r x.region x.addr
      if parityOk x.value then s.readArrives c x else s.dataParity t r w
  | _, _ => s

/-- The reads of a cluster that are still on their way as its partition stops for a rollback arrive; one that fails parity writes
nothing (R54, R164). -/
def State.endReads (s : State) (t c : Nat) : State :=
  ((s.clu c).reads.filter fun x => !x.arrived).foldl (fun s x =>
    if parityOk x.value then s.readArrives c x
    else (s.dataParity t (c / 17) ((s.part t).wordAt x.region x.addr)).modClu c fun y =>
      { y with reads := y.reads.filter fun z => z ≠ x }) s

/-- DMEM_READ_RETURN (R160). -/
def execDmemReadReturn (cluster : Fin 408) (slot : Fin 12) (xlateFault : Bool) (s : State) :
    Host.Outcome State Fault Refusal :=
  done s (s.readReturn cluster.val slot.val xlateFault)

/-! ### Fences (R167) -/

/-- A home has closed the fences of n steps, and needs their markers no more. -/
def Part.setClosed (x : Part) (home n : Nat) : Part :=
  let x := if home = 0 then { x with fenceClosed0 := n } else { x with fenceClosed1 := n }
  { x with markers := x.markers.filter fun m => !(decide (m.1 = home) && decide (m.2.2 < n)) }

/-- Close every fence of a home whose markers have all arrived. -/
def Part.closeFences : Nat → Nat → Part → Part
  | 0, _, x => x
  | n + 1, home, x =>
    let u := x.fenceClosed home
    if x.bound ≠ [] ∧ u < x.gstep ∧ x.bound.all fun r => x.markers.contains (home, r, u) then
      Part.closeFences n home (x.setClosed home (u + 1))
    else x

/-- STEP_DONE_MARKER: the marker of a completed step reaches a home. -/
def execStepDoneMarker (t : Fin 16) (reach : Fin 24) (step : Fin 2 × Nat) (s : State) : Host.Outcome State Fault Refusal :=
  let home := step.1.val
  done s (s.modPart t.val fun x =>
    if x.bound.contains reach.val ∧ step.2 < x.gstep ∧ x.fenceClosed home ≤ step.2 ∧
        !x.markers.contains (home, reach.val, step.2) then
      Part.closeFences (x.markers.length + 1) home { x with markers := (home, reach.val, step.2) :: x.markers }
    else x)

/-- A reach has received the closes of n steps from a home. -/
def Reach.setSeen (x : Reach) (home n : Nat) : Reach :=
  if home = 0 then { x with fenceSeen0 := n } else { x with fenceSeen1 := n }

/-- FENCE_CLOSE: a holder receives a home's close of a fence. -/
def execFenceClose (t : Fin 16) (reach : Fin 24) (step : Fin 2 × Nat) (s : State) : Host.Outcome State Fault Refusal :=
  let home := step.1.val
  done s (if (s.part t.val).bound.contains reach.val ∧ step.2 < (s.part t.val).fenceClosed home then
      (s.modRch reach.val fun x => x.setSeen home (max (x.fenceSeen home) (step.2 + 1))).drainSeen t.val reach.val
    else s)

/-! ### The home directory (R170 to R173) -/

def State.dirLine (s : State) (line : Nat) : DirLine := s.dir.get line {}
def State.setDir (s : State) (line : Nat) (d : DirLine) : State := { s with dir := s.dir.put line d }

/-- The issuing step of a stamp (R165). -/
def stampStep (stamp : Nat) : Nat := stamp / (24 * 17 * 12)

/-- The line lies in a single_reach region, so it bypasses the directory (R157). -/
def State.bypasses (s : State) (line : Nat) : Bool :=
  s.parts.any fun p => p.2.regions.any fun g => g.single.isSome && decide (line / 2 ^ 28 = g.stack) &&
    g.pages.contains (line % 2 ^ 28 / 64)

/-- The page of a line is held for retirement (R177). -/
def State.lineHeld (s : State) (line : Nat) : Bool := decide (s.retiring = some (line / 64))

/-- The home of a line serves a request stamped u only after fence u - 24 has closed there (R167). -/
def State.fenceOpen (s : State) (r line stamp : Nat) : Bool :=
  match s.owner r with
  | some t => decide (stampStep stamp < 24 + (s.part t).fenceClosed (line / 2 ^ 28))
  | none => false

/-- Enter a requester in the wake queue once (R171). -/
def DirLine.enqueue (d : DirLine) (r stamp : Nat) (own : Bool) : DirLine :=
  if d.queue.any fun q => q.1 = r then d else { d with queue := d.queue ++ [(r, stamp, own)] }

/-- Drop a clean copy of a line. -/
def State.dropCopy (line : Nat) (r : Nat) (s : State) : State := s.modRch r fun x => { x with cache := x.cache.del line }

/-- A reach holds a line dirty in its cache. -/
def State.holdsDirty (s : State) (r line : Nat) : Bool := ((s.rch r).cache.find line).any (·.dirty)

/-- The home handles a request of reach r for a line (R170). The owner's own request, while its writeback is on its way, waits for
the PutM as any other does (R173). -/
def State.homeRequest (s : State) (r line stamp : Nat) (own : Bool) : State :=
  match (s.rch r).requests.find line with
  | none => s
  | some q =>
    let d := s.dirLine line
    if q.2.2 ∨ q.1 ≠ stamp ∨ s.bypasses line ∨ !s.fenceOpen r line stamp then s
    else if d.busy.isSome ∨ s.lineHeld line then s.setDir line (d.enqueue r stamp own)
    else
      let d := { d with busy := some r, forOwn := own, fwd := false, data := none }
      match d.st with
      | .invalid =>
        s.setDir line { d with data := some (s.hbmLine line), owner := r, sharers := if own then [] else [r],
                               st := if own then .modified else .shared }
      | .shared =>
        if own then
          (each (d.sharers.filter (· ≠ r)) (State.dropCopy line) s).setDir line
            { d with data := some (s.hbmLine line), owner := r, sharers := [], st := .modified }
        else s.setDir line { d with data := some (s.hbmLine line), sharers := (d.sharers.filter (· ≠ r)) ++ [r] }
      | _ =>
        if own ∧ d.owner = r ∧ s.holdsDirty r line then (each (d.sharers.filter (· ≠ r)) (State.dropCopy line) s).setDir line
          { d with data := some (s.coherentLine line), sharers := [], st := .modified }
        else if own then (each (d.sharers.filter (· ≠ r)) (State.dropCopy line) s).setDir line { d with fwd := true, sharers := [] }
        else s.setDir line { d with fwd := true }

/-- GETS. -/
def execGets (reach : Fin 24) (line stamp : Nat) (s : State) : Host.Outcome State Fault Refusal :=
  done s (s.homeRequest reach.val line stamp false)

/-- GETM. -/
def execGetm (reach : Fin 24) (line stamp : Nat) (s : State) : Host.Outcome State Fault Refusal :=
  done s (s.homeRequest reach.val line stamp true)

/-- The data of a forward or a racing writeback goes to the requester that holds the line busy (R170, R173). -/
def DirLine.grant (d : DirLine) (l : List (BitVec 16)) (written : Bool) : DirLine :=
  match d.busy with
  | some q =>
    if d.forOwn then { d with data := some l, fwd := false, owner := q, sharers := [], st := .modified }
    else if written then { d with data := some l, fwd := false, sharers := (d.sharers.filter (· ≠ q)) ++ [q], st := .shared }
    else { d with data := some l, fwd := false, sharers := (d.sharers.filter (· ≠ q)) ++ [q], st := .owned }
  | none => d

/-- Reach r asks for ownership again of a line that it still holds writes for. -/
def State.rerequest (s : State) (t r line : Nat) : State :=
  match (s.rch r).wb.find? fun e => ((s.part t).wordAt e.region e.addr).line = line with
  | some e => s.miss r line (e.stamp (s.rel r)) true
  | none => s

/-- The same for whichever partition the reach serves. -/
def State.rerequestLine (s : State) (r line : Nat) : State :=
  match s.owner r with
  | some t => s.rerequest t r line
  | none => s

/-- PUTM: the home takes a dirty eviction, completing the writeback before any grant on the line (R170, R173). An eviction not
yet begun begins here, since replacement order is not specified (R169). A line that has been granted to its evicting owner again stays
its own. -/
def State.putm (s : State) (r line : Nat) : State :=
  let x := s.rch r
  let taken := match x.writeback.find line with
    | some l => if l.dirty then some l else none
    | none => match x.cache.find line with
      | some l => if l.dirty ∧ !s.bypasses line then some l else none
      | none => none
  match taken with
  | none => s
  | some l =>
    let d := s.dirLine line
    let s := ((s.setRch r { x with cache := x.cache.del line,
                                   writeback := x.writeback.put line { l with dirty := false } }).putLine line
      l.cells).rerequestLine r line
    if d.fwd then s.setDir line (d.grant l.cells true)
    else if d.owner = r ∧ d.st = .modified ∧ (s.holdsDirty r line ∨ (d.busy = some r ∧ d.data ≠ none)) then s
    else s.setDir line { d with st := if d.sharers = [] then .invalid else .shared }

/-- PUTM. -/
def execPutm (reach : Fin 24) (line : Nat) (s : State) : Host.Outcome State Fault Refusal :=
  done s (s.putm reach.val line)

/-- A buffered write may take effect before its reach answers a forward: its page is copied, its fence closed, and no older write
to the word waits (R166, R167, R175). -/
def State.settled (s : State) (t r : Nat) (e : WbEntry) : Bool :=
  !e.held && s.closeSeen t r e && !s.olderElsewhere t r e

/-- FWD_GETM: an owner receives a forward. It answers with the line after every buffered write of an earlier stamp, so it waits
until they may all take effect; it ignores the forward while the line awaits WB-Ack (R167, R170, R173). The owner of a line that
it now shares must ask again before it writes. -/
def State.forwarded (s : State) (r line : Nat) : State :=
  let d := s.dirLine line
  match s.owner r, d.busy, (s.rch r).cache.find line with
  | some t, some q, some l =>
    if d.fwd = false ∨ d.owner ≠ r ∨ l.dirty = false then s
    else
      let stamp := (((s.rch q).requests.find line).map (·.1)).getD 0
      let older := (s.rch r).wb.filter fun e =>
        ((s.part t).wordAt e.region e.addr).line = line ∧ e.stamp (s.rel r) < stamp
      if (older.all (s.settled t r)) = false then s
      else
        let s := older.foldl (fun s e =>
          (s.modRch r fun x => { x with wb := x.wb.filter fun y => y ≠ e }).applyWrite t r e) s
        let cells := (((s.rch r).cache.find line).map (·.cells)).getD l.cells
        let s := if d.forOwn then s.dropCopy line r
          else s.modRch r fun x => { x with cache := x.cache.put line { cells := cells, dirty := true, shared := true } }
        (s.setDir line (d.grant cells false)).rerequest t r line
  | _, _, _ => s

/-- FWD_GETM. -/
def execFwdGetm (reach : Fin 24) (line : Nat) (s : State) : Host.Outcome State Fault Refusal :=
  done s (s.forwarded reach.val line)

/-- RETRY: the requester waits, and the count rises (R171, R174). -/
def execRetry (reach : Fin 24) (line : Nat) (s : State) : Host.Outcome State Fault Refusal :=
  done s (match (s.rch reach.val).requests.find line with
    | some q =>
      if q.2.2 = false ∧ (s.dirLine line).queue.any fun x => x.1 = reach.val then
        (s.modRch reach.val fun x => { x with requests := x.requests.put line (q.1, q.2.1, true) }).count
          Reg.DMEM_R_RETRY_retries reach.val 1
      else s
    | none => s)

/-- WAKE_MESSAGE: the requester reissues with its original stamp (R171). -/
def execWakeMessage (reach : Fin 24) (line : Nat) (s : State) : Host.Outcome State Fault Refusal :=
  done s (let d := s.dirLine line
    match d.woken.contains reach.val, (s.rch reach.val).requests.find line with
    | true, some q =>
      (s.setDir line { d with woken := d.woken.filter (· ≠ reach.val) }).modRch reach.val fun x =>
        { x with requests := x.requests.put line (q.1, q.2.1, false) }
    | _, _ => s)

/-- WB_ACK: the old owner frees its writeback entry (R173). -/
def execWbAck (reach : Fin 24) (line : Nat) (s : State) : Host.Outcome State Fault Refusal :=
  done s (match (s.rch reach.val).writeback.find line with
    | some l => if l.dirty then s else s.modRch reach.val fun x => { x with writeback := x.writeback.del line }
    | none => s)

/-- A line leaves a reach cache: a dirty one goes to a writeback entry, or straight to HBM where it bypasses the directory (R157, R169,
R173). -/
def State.evictLine (s : State) (r a : Nat) (l : CacheLine) : State :=
  let x := s.rch r
  let s := if l.dirty = false then s.setRch r { x with cache := x.cache.del a }
    else if s.bypasses a then (s.setRch r { x with cache := x.cache.del a }).putLine a l.cells
    else s.setRch r { x with cache := x.cache.del a, writeback := x.writeback.put a l }
  s.rerequestLine r a

/-- A way leaves replacement; with four out, the reach is marked for retirement (R329, R330). -/
def Reach.dropWay (x : Reach) (w : Nat) : Reach :=
  let off := w :: x.waysOff.filter (· ≠ w)
  { x with waysOff := off, retireMark := x.retireMark || decide (4 ≤ off.length) }

/-- Keeper 0 writes back and invalidates a way in all the sets, and takes it out of replacement (R330, R331). A line's place among the
lines of its set stands for its way; in a full set whose lines have no such place, the last one goes. -/
def State.disableWay (s : State) (r w : Nat) : State :=
  let place := min w (11 - (s.rch r).waysOff.length)
  let gone := (s.rch r).cache.filter fun e => (s.rch r).cacheAt e.1 % 16 = place
  ((gone.foldl (fun s e => s.evictLine r e.1 e.2) s).modRch r fun x => x.dropWay w).unitRetired 5 r w

/-- Ways of a set in use, and the victim that a fill must evict: which one is not specified (R169; log entry 1). -/
def State.evictFor (s : State) (r line : Nat) : State :=
  let x := s.rch r
  let set := (x.cache.filter fun e => e.1 % 256 = line % 256 ∧ e.1 ≠ line)
  if set.length < 12 - x.waysOff.length then s
  else match set[(Config.freeWord s.freeCtr).toNat % set.length]? with
    | some (a, l) => { s with freeCtr := s.freeCtr + 1 }.evictLine r a l
    | none => s

/-- A line enters a reach cache, and the writes that waited for it apply (R167, R170). -/
def State.fill (s : State) (t r line : Nat) (cells : List (BitVec 16)) (own : Bool) : State :=
  let s := s.evictFor r line
  let d := s.flipLine 5 r ((s.rch r).cacheAt line) cells
  let s := d.2.modRch r fun x => { x with cache := x.cache.put line { cells := d.1, dirty := own },
                                          requests := x.requests.del line }
  let s := s.drainSeen t r
  if own then s else s.rerequest t r line

/-- LINE_DATA: a requester receives its line (R170). -/
def State.lineData (s : State) (r line : Nat) : State :=
  match s.owner r, (s.rch r).requests.find line with
  | some t, some q =>
    if s.bypasses line then (if s.lineHeld line then s else s.fill t r line (s.hbmLine line) q.2.1)
    else
      let d := s.dirLine line
      match d.data with
      | some l => if d.busy = some r then (s.setDir line { d with data := none }).fill t r line l d.forOwn else s
      | none => s
  | _, _ => s

/-- LINE_DATA. -/
def execLineData (reach : Fin 24) (line : Nat) (s : State) : Host.Outcome State Fault Refusal :=
  done s (s.lineData reach.val line)

/-- The waiting requester that is served next: one 24 or more steps older than another first, else by arrival (R172). -/
def nextWaiter (q : List (Nat × Nat × Bool)) : Option (Nat × Nat × Bool) :=
  match q.find? fun a => q.any fun b => stampStep a.2.1 + 24 ≤ stampStep b.2.1 with
  | some a => some ((q.filter fun b => q.any fun c => stampStep b.2.1 + 24 ≤ stampStep c.2.1).foldl
      (fun m b => if b.2.1 < m.2.1 then b else m) a)
  | none => q.head?

/-- Send Wake to the next waiter of a line that is free (R171). -/
def DirLine.wakeNext (d : DirLine) : DirLine :=
  match nextWaiter d.queue with
  | some a => { d with queue := d.queue.filter (· ≠ a), woken := d.woken ++ [a.1] }
  | none => d

/-- TRANSACTION_END: the acknowledge ends the transaction, and the wake queue's head is woken (R170, R171). -/
def execTransactionEnd (line : Nat) (s : State) : Host.Outcome State Fault Refusal :=
  done s (let d := s.dirLine line
    if d.busy.isSome ∧ d.data = none ∧ d.fwd = false then s.setDir line { d with busy := none, forOwn := false }.wakeNext
    else s)

/-! ### Pre-images (R175) -/

/-- Copy a page, as the reaches hold it, to another page of its stack. -/
def State.copyPage (s : State) (stack src dst : Nat) : State :=
  let key := fun p => stack * 2 ^ 22 + p
  let rest := s.pagesBad.filter (· ≠ key dst)
  let s : State := { s with pagesBad := if s.pagesBad.contains (key src) then key dst :: rest else rest }
  each (List.range 64) (fun i s =>
    s.putLine (stack * 2 ^ 28 + dst * 64 + i) (s.coherentLine (stack * 2 ^ 28 + src * 64 + i))) s

/-- PAGE_COPY: the page's pre-image is stored in an undo page of its stack, and the held writes are released (R175, R273). -/
def State.pageCopied (s : State) (t region page : Nat) : State :=
  let x := s.part t
  match x.region region with
  | none => s
  | some g =>
    let held := x.bound.any fun r => (s.rch r).wb.any fun e => e.held ∧ e.region = region ∧ e.addr / 2048 = page
    match x.undoFree.find? fun u => u.1 = g.stack ∧ !s.pagesBad.contains (u.1 * 2 ^ 22 + u.2), g.pages[page]? with
    | some u, some phys =>
      if held then
        let s := s.copyPage g.stack phys u.2
        let v : Undo := { region := region, page := page, stack := g.stack, phys := u.2 }
        let pin := x.exporting.isSome && !x.undoPinned.any fun w => w.region = region ∧ w.page = page
        let s := s.setPart t { x with undoFree := x.undoFree.erase u, copied := (region * 8192 + page) :: x.copied,
                                      undoNow := x.undoNow ++ [v],
                                      undoPinned := if pin then x.undoPinned ++ [v] else x.undoPinned }
        each x.bound (fun r s =>
          (s.modRch r fun y => { y with wb := y.wb.map fun e =>
            if e.region = region ∧ e.addr / 2048 = page then { e with held := false } else e }).drainSeen t r) s
      else s
    | _, _ => s

/-- PAGE_COPY. -/
def execPageCopy (t : Fin 16) (region : BitVec 10) (page : BitVec 13) (s : State) : Host.Outcome State Fault Refusal :=
  done s (s.pageCopied t.val region.toNat page.toNat)

/-! ### Page retirement (R177, R178) -/

/-- Where the 1,024 retirement spares of a stack begin: just below the device area (R575; log entry 8). -/
def spareBase : Nat := 4194304 - 16384 - 1024

/-- The retirement of a page begins, unless one is in progress (R177, R178). -/
def State.retireBegin (s : State) (stack page : Nat) : State :=
  if s.on Reg.DMEM_RETIRE_busy then s
  else { s.setRg Reg.DMEM_RETIRE_busy 0 1 with retiring := some (stack * 2 ^ 22 + page) }

/-- DMEM_RETIRE: stack and page are stored, and a go that finds no retirement in progress starts one (R178, R187). -/
def State.wRetire (s : State) (v : Word) : State :=
  let s := (s.setRg Reg.DMEM_RETIRE_stack 0 (Reg.DMEM_RETIRE_stack.of v)).setRg Reg.DMEM_RETIRE_page 0 (Reg.DMEM_RETIRE_page.of v)
  if Reg.DMEM_RETIRE_go.of v = 1 then s.retireBegin (Reg.DMEM_RETIRE_stack.of v) (Reg.DMEM_RETIRE_page.of v) else s

/-- DMEM_RETIRE. -/
def execDmemRetire (who : Requester) (value : Word) (s : State) : Host.Outcome State Fault Refusal :=
  done s (s.asWriter who Reg.DMEM_RETIRE.addr fun s => s.wRetire value)

/-- Every cached line of a page goes back to HBM and leaves the caches and the directory. -/
def State.recall (s : State) (page : Nat) : State :=
  let s := each (List.range 64) (fun i s => s.putLine (page * 64 + i) (s.coherentLine (page * 64 + i))) s
  let s := each (List.range 24) (fun r s => s.modRch r fun x =>
    { x with cache := x.cache.keep fun l => l / 64 ≠ page, writeback := x.writeback.keep fun l => l / 64 ≠ page }) s
  let s : State := { s with dir := s.dir.keep fun l => l / 64 ≠ page }
  each (List.range 24) (fun r s => each (List.range 64) (fun i s => s.rerequestLine r (page * 64 + i)) s) s

/-- Requests for lines of a page are made again for the same lines of another page (R177 step 5). -/
def Reach.moveRequests (x : Reach) (old new : Nat) : Reach :=
  { x with requests := x.requests.foldl (fun t e =>
      if e.1 / 64 = old then t.put (new * 64 + e.1 % 64) (e.2.1, e.2.2.1, false) else t.put e.1 e.2) [] }

/-- Wake what waits for the lines of a page (R171, R177). -/
def State.wakePage (s : State) (page : Nat) : State :=
  { s with dir := s.dir.map fun (e : Nat × DirLine) =>
      if e.1 / 64 = page ∧ e.2.busy.isNone then (e.1, e.2.wakeNext) else e }

/-- A region whose page `old` of a stack has moved to page `new` (R177 step 4). -/
def Region.remap (g : Region) (stack old new : Nat) : Region :=
  if g.stack = stack then { g with pages := g.pages.map fun q => if q = old then new else q } else g

def Undo.remap (u : Undo) (stack old new : Nat) : Undo :=
  if u.stack = stack ∧ u.phys = old then { u with phys := new } else u

/-- The translation-buffer keys of the region pages that lie in a physical page (R177 step 4). -/
def Part.keysOf (x : Part) (stack phys : Nat) : List Nat :=
  (x.regions.filter fun g => g.stack = stack).flatMap fun g =>
    (g.pages.zipIdx.filter fun p => p.1 = phys).map fun p => g.id * 8192 + p.2

/-- Step 4 clears a moved page's entry from every translation buffer. -/
def State.clearTlb (s : State) (stack phys : Nat) : State :=
  each (which 16 s.loaded) (fun t s =>
    let ks := (s.part t).keysOf stack phys
    each (s.part t).bound (fun r s => s.modRch r fun x => { x with tlb := x.tlb.filter fun k => !ks.contains k }) s) s

/-- Every entry of a partition that names a moved page names its new place. -/
def Part.remap (x : Part) (stack old new : Nat) : Part :=
  let undo := fun (l : List Undo) => l.map fun u => u.remap stack old new
  { x with regions := x.regions.map fun g => g.remap stack old new,
           undoFree := x.undoFree.map fun u => if u = (stack, old) then (stack, new) else u,
           undoNow := undo x.undoNow, undoPinned := undo x.undoPinned,
           ckpts := x.ckpts.map fun k => { k with segU := undo k.segU } }

/-- The hbm_uc bit of a stack. -/
def ucField (k : Nat) : Field := if k = 0 then Reg.DMEM_CAUSE_hbm_uc0 else Reg.DMEM_CAUSE_hbm_uc1

/-- A page is reported uncorrectable; reports from before hbm_uc of its stack was cleared are over (R321). -/
def State.noteUc (s : State) (p : Nat) : State :=
  let old := if s.on (ucField (p / 2 ^ 22)) then s.pagesUc else s.pagesUc.filter fun q => q / 2 ^ 22 ≠ p / 2 ^ 22
  { s with pagesUc := p :: old.filter (· ≠ p) }

/-- Steps 2 to 5: a page moves to the next spare of its stack; with none left it stays (R177, R178). -/
def State.retirePage (s : State) (p : Nat) : State :=
  let k := p / 2 ^ 22
  let n := s.rg Reg.DMEM_HBM_STATk_spares k
  if n = 0 then (s.cause .dmem Reg.DMEM_CAUSE_retire_fail).wakePage p
  else
    let dst := spareBase + (1024 - n)
    let s := ({ s with pagesBad := s.pagesBad.filter (· ≠ p) }.recall p).copyPage k (p % 2 ^ 22) dst
    let s := (s.setRg Reg.DMEM_HBM_STATk_spares k (n - 1)).clearTlb k (p % 2 ^ 22)
    let parts := s.parts.map fun (e : Nat × Part) => (e.1, e.2.remap k (p % 2 ^ 22) dst)
    let s : State := { s with pagesRetired := p :: s.pagesRetired, parts := parts }
    let s := each (List.range 24) (fun r s => s.modRch r fun x => x.moveRequests p (k * 2 ^ 22 + dst)) s
    (s.cause .dmem Reg.DMEM_CAUSE_retire_done).unitRetired 6 k (p % 2 ^ 22)

/-- Keeper 0 names a page in DMEM_RETIRE. -/
def State.nameRetire (s : State) (p : Nat) : State :=
  (s.setRg Reg.DMEM_RETIRE_stack 0 (p / 2 ^ 22)).setRg Reg.DMEM_RETIRE_page 0 (p % 2 ^ 22)

/-- The next page that keeper 0 has to retire (R332). -/
def State.retireNext (s : State) : State :=
  match s.retireQueue with
  | p :: rest => ({ s with retireQueue := rest }.nameRetire p).retireBegin (p / 2 ^ 22) (p % 2 ^ 22)
  | [] => s

/-- The retirement ends. -/
def State.retireEnd (s : State) (uncorrectable : Bool) : State :=
  match s.retiring with
  | none => s
  | some p =>
    let k := p / 2 ^ 22
    let s : State := { s.setRg Reg.DMEM_RETIRE_busy 0 0 with retiring := none }
    let s := if uncorrectable ∧ s.rg Reg.DMEM_HBM_STATk_spares k ≠ 0 then
        (((s.noteUc p).cause .dmem Reg.DMEM_CAUSE_retire_fail).wakePage p).cause .dmem (ucField k)
      else s.retirePage p
    s.retireNext

/-- Keeper 0 retires a page once DMEM_RETIRE is free (R332). A page of the ledger's pools only leaves use, since its buffer's address is
fixed (log entry 75). -/
def State.wantRetire (s : State) (p : Nat) : State :=
  if s.pagesRetired.contains p ∨ s.retireQueue.contains p ∨ s.retiring = some p then s
  else if (s.bufferOf p).isSome then
    { s with pagesRetired := p :: s.pagesRetired, pagesBad := s.pagesBad.filter (· ≠ p) }.unitRetired 6 (p / 2 ^ 22) (p % 2 ^ 22)
  else
    let s : State := { s with retireQueue := s.retireQueue ++ [p] }
    if s.on Reg.DMEM_RETIRE_busy then s else s.retireNext

/-- A page retires within a rollback (R323, R332). -/
def State.retireInside (s : State) (p : Nat) : State :=
  if s.retiring = some p then s
  else (({ s with retireQueue := s.retireQueue.filter (· ≠ p) } : State).nameRetire p).retirePage p

/-- RETIRE_DONE. -/
def execRetireDone (uncorrectable : Bool) (s : State) : Host.Outcome State Fault Refusal :=
  done s (s.retireEnd uncorrectable)

/-! ### Flush (R188) -/

/-- Every dirty line of a reach goes home: a PutM each, or straight to HBM where the line bypasses the directory (R157, R170). -/
def State.writeBack (s : State) (r : Nat) : State :=
  let x := s.rch r
  let dirty := (x.cache ++ x.writeback).filter fun e => e.2.dirty
  dirty.foldl (fun s e => if s.bypasses e.1 then s.evictLine r e.1 e.2 else s.putm r e.1) s

/-- A line's directory entry once reach r holds no copy of it; a line on its way to r stays granted. -/
def DirLine.without (d : DirLine) (r : Nat) : DirLine :=
  if d.busy = some r ∧ d.data ≠ none then d
  else
    let sh := d.sharers.filter (· ≠ r)
    { d with sharers := sh, st := if d.st = .shared ∧ sh = [] then .invalid else d.st }

/-- Write back every dirty line of a reach, and empty its cache and translation buffer. -/
def State.flush (s : State) (r : Nat) : State :=
  let s := (s.writeBack r).modRch r fun x => { x with cache := [], tlb := [] }
  { s with dir := s.dir.map fun (e : Nat × DirLine) => (e.1, e.2.without r) }

/-- DMEM_R_FLUSH. -/
def State.wFlush (s : State) (who : Requester) (v : Word) : State :=
  s.onReach who fun r s =>
    if Reg.DMEM_R_FLUSH_flush.of v = 0 then s
    else if s.rchOpen who r then s.flush r
    else s.setRgw Reg.RCH_XBT_ADDR_rejected (copyOf who) 0 1

/-- DMEM_R_FLUSH. -/
def execDmemRFlush (who : Requester) (value : Word) (s : State) : Host.Outcome State Fault Refusal :=
  done s (s.asWriter who Reg.DMEM_R_FLUSH.addr fun s => s.wFlush who value)

/-! ### HBM sensors and errors (R184 to R186) -/

/-- The throttle state that a temperature sets: a threshold is left 3 °C below itself (R184). -/
def throttleOf (old : Nat) (temp : Int) : Nat :=
  let met := fun (k : Nat) (th : Int) => th ≤ temp || (decide (k ≤ old) && decide (th - 3 < temp))
  if met 3 100 then 3 else if met 2 95 then 2 else if met 1 85 then 1 else 0

/-- HBM_TEMP_READ. -/
def execHbmTempRead (stack : Fin 2) (temp : BitVec 8) (s : State) : Host.Outcome State Fault Refusal :=
  done s (let k := stack.val
    let old := s.rg Reg.DMEM_HBM_STATk_throttle k
    let new := throttleOf old temp.toInt
    let s := (s.setRg Reg.DMEM_HBM_STATk_temp k temp.toNat).setRg Reg.DMEM_HBM_STATk_throttle k new
    if new = 3 ∧ old ≠ 3 then (s.cause .dmem Reg.DMEM_CAUSE_thermal_alarm).alarm 16 (srcOf 2 k) 0x008 k else s)

/-- The window that a stack's report belongs to: a stack that reports again begins the next one, and a window without shortfall ends
the run (R185; log entry 69). -/
def ShortRun.window (x : ShortRun) (stack : Nat) : ShortRun :=
  if x.seen.contains stack then { run := if x.short then x.run else 0 } else x

/-- A stack reports one window of a tenant. -/
def ShortRun.report (x : ShortRun) (stack : Nat) (short : Bool) : ShortRun :=
  let x := x.window stack
  { run := if short && !x.short then x.run + 1 else x.run, seen := stack :: x.seen, short := x.short || short }

/-- SHORTFALL_WINDOW (R185). A window counts once, whichever stack fell short in it. -/
def execShortfallWindow (t : Fin 16) (stack : Fin 2) (short : Bool) (s : State) : Host.Outcome State Fault Refusal :=
  done s (let old := (s.shortRun.get t.val {}).run
    let counted := ((s.shortRun.get t.val {}).window stack.val).short
    let x := (s.shortRun.get t.val {}).report stack.val short
    let s : State := { s with shortRun := s.shortRun.put t.val x }
    if short then
      let data := stack.val + s.rg Reg.DMEM_HBM_STATk_throttle stack.val * 2
      let s := if counted then s else s.count Reg.DMEM_SHORTt_windows t.val 1
      let s := if s.on Reg.DMEM_CTRL_short_log then s.log t.val (srcOf 2 stack.val) 0x101 data else s
      if x.run = 1000 ∧ old ≠ 1000 then s.alarm t.val (srcOf 2 stack.val) 0x005 data else s
    else s)

/-- The segments of a slot, by type code, that a buffer of it serves: its descriptor serves all four (R272, R275 to R277). -/
def SlotBufs.serves (x : SlotBufs) (b : Nat) : List Nat :=
  which 4 fun i => decide (x.desc = b) || ((x.data[i]?).getD []).contains b || ((x.lists[i]?).getD []).contains b

/-- The lowest slot that no checkpoint fills: that of the pound in progress (R271). -/
def Part.freeSlot (x : Part) : Nat := ((List.range 3).find? fun i => x.ckpts.all fun k => decide (k.slot ≠ i)).getD 0

/-- The slot of the pound in progress: the one it has been sealed in, else the free one (R271, R303). -/
def Part.nowSlot (x : Part) : Nat := ((x.ckpts.find? fun k => !k.committed).map (·.slot)).getD x.freeSlot

/-- A lost buffer spoils the slot segments that it serves (R272). -/
def Part.spoil (x : Part) (b : Nat) : Part :=
  let hit := fun i => ((x.slots[i]?).map fun v => v.serves b).getD []
  { x with ckpts := x.ckpts.map fun k => { k with bad := (k.bad ++ hit k.slot).dedup },
           badNow := (x.badNow ++ (hit x.nowSlot).filter (2 ≤ ·)).dedup }

/-- A page that a partition's regions use. -/
def Part.hasPage (x : Part) (p : Nat) : Bool := x.regions.any fun g => decide (g.stack = p / 2 ^ 22) && g.pages.contains (p % 2 ^ 22)

/-- A page that holds a pre-image of a partition. -/
def Part.hasUndo (x : Part) (p : Nat) : Bool :=
  (x.undoNow ++ x.undoPinned ++ x.ckpts.flatMap (·.segU)).any fun u => decide (u.stack * 2 ^ 22 + u.phys = p)

/-- Nothing stands in a page that may be allocated (R332). -/
def State.pageIdle (s : State) (p : Nat) : Bool :=
  match s.bufferOf p with
  | some b => decide (tagKind (s.tag b) = 0)
  | none => decide (p % 2 ^ 22 < spareBase) && s.parts.all fun e => !e.2.hasPage p && !e.2.hasUndo p

/-- An uncorrectable page: a ledger buffer of a partition there loses the slot segments or the golden copies that it held, and a page
that the manual gives no other use may hold a container (R274, R322, R332; log entries 50, 54). -/
def State.pageLost (s : State) (p : Nat) : State :=
  let s : State := { s with pagesBad := if s.pagesBad.contains p then s.pagesBad else p :: s.pagesBad }
  let s := if s.pageIdle p ∨ spareBase + 1024 ≤ p % 2 ^ 22 then
      each (which 16 s.loaded) (fun t s => { s.modPart t fun x => { x with conLost := s.freeCtr :: x.conLost } with
        freeCtr := s.freeCtr + 1 }) s
    else s
  each (which 16 s.loaded) (fun t s =>
    ((s.part t).buffers.filter fun b => s.bufAddr b / 4096 = p).foldl (fun s b =>
      let s := s.modPart t fun x => x.spoil b
      if (s.part t).goldBufs.contains b then
        let n := s.freeCtr
        { s.modPart t fun x => { x with goldLost := n :: x.goldLost } with freeCtr := n + 1 }
      else s) s) s

/-- A corrected report: at the fourth for one page within a second, the page is retired (R332). -/
def State.pageCorrected (s : State) (p : Nat) : State :=
  let now := s.power.time
  let l := (p, now) :: s.pageReports.filter fun e => decide (now < e.2 + 1000000000)
  if 4 ≤ (l.filter fun e => e.1 = p).length then { s with pageReports := l.filter fun e => e.1 ≠ p }.wantRetire p
  else { s with pageReports := l }

/-- What keeper 0 does at once about a report: a free page with an uncorrectable error is retired (R332). -/
def State.answerReport (s : State) (p : Nat) (uncorrectable : Bool) : State :=
  if s.supervised = false then s
  else if uncorrectable then (if s.pageIdle p then s.wantRetire p else s)
  else s.pageCorrected p

/-- HBM_ERROR_REPORT (R186, R332). -/
def execHbmErrorReport (stack : Fin 2) (page : BitVec 22) (uncorrectable : Bool) (s : State) :
    Host.Outcome State Fault Refusal :=
  done s (let s := s.tally uncorrectable 0 6 stack.val page.toNat
    let p := stack.val * 2 ^ 22 + page.toNat
    let s := if uncorrectable then ((s.noteUc p).pageLost p).cause .dmem (ucField stack.val) else s
    s.answerReport p uncorrectable)

/-! ### Counters -/

/-- DMEM_R_MISS. -/
def execDmemRMiss (who : Requester) (s : State) : Host.Outcome State Fault Refusal :=
  done s (s.asReader who Reg.DMEM_R_MISS.addr fun s => s.rRchCnt who Reg.DMEM_R_MISS)

/-- DMEM_R_RETRY. -/
def execDmemRRetry (who : Requester) (s : State) : Host.Outcome State Fault Refusal :=
  done s (s.asReader who Reg.DMEM_R_RETRY.addr fun s => s.rRchCnt who Reg.DMEM_R_RETRY)

/-- DMEM_SHORT of a tenant. -/
def execDmemShort (who : Requester) (t : Fin 16) (s : State) : Host.Outcome State Fault Refusal :=
  done s (s.asReader who (Reg.DMEM_SHORTt.addr + 4 * t.val) fun s => s.readClear Reg.DMEM_SHORTt who t.val)

/-- Admitted reservations on a stack (DMEM_STACKk.reserved_sum). -/
def State.reservedSum (s : State) (k : Nat) : Nat :=
  ((List.range 16).map fun t => s.rg (if k = 0 then Reg.DMEM_RESVt_stack0 else Reg.DMEM_RESVt_stack1) t).sum

end Sys2Proof.Machine
end

