-- ==== Sys2Proof/Machine/Ckpt.lean ====
section
/-!
DEFINITION. Sys2Proof/Machine/Ckpt.lean: checkpoint segments, slots and hooks (R270 to R283, R296, R310, R381, R440).
-/
namespace Sys2Proof.Machine

/-- Pad with zeros to a multiple of 8 bytes. -/
def pad8 (l : List Byte) : List Byte := l ++ List.replicate ((8 - l.length % 8) % 8) 0

/-! ### Segment C (R278) -/

/-- The cells that STATE_MARK marks for position p of relative reach r (R142). -/
def Part.markedCells (x : Part) (r p : Nat) : List Nat :=
  let m := x.marks.get (17 * r + p) 0
  which 4096 fun n => m.getLsbD n

/-- A stored cell as a halfword (R154). -/
def half (x : SCell) : List Byte := leBytes 2 x.toNat

/-- The record of one position. -/
def State.recordC (s : State) (t rel p c : Nat) : List Byte :=
  let cells := (s.part t).markedCells rel p
  pad8 ([BitVec.ofNat 8 rel, BitVec.ofNat 8 p] ++ leBytes 2 cells.length ++ leBytes 4 0 ++
    (List.range 94).flatMap (fun r => half (Mem.get (s.clu c).rf r)) ++
    cells.flatMap fun n => half (Mem.get (s.clu c).vm n))

/-- Positions of a partition: relative reach, position, cluster. -/
def State.positionsOf (s : State) (t : Nat) : List (Nat × Nat × Nat) :=
  (s.part t).bound.flatMap fun r => (s.activePositions r).filterMap fun p =>
    (s.playing r p).map fun c => (s.rel r, p, c)

/-- Segment C of a partition as it stands. -/
def State.captureC (s : State) (t : Nat) : List Byte :=
  (s.positionsOf t).flatMap fun u => s.recordC t u.1 u.2.1 u.2.2

/-- The first captured unit that fails parity: the cluster, and a value cell or a register (R283). -/
def State.captureBad (s : State) (t : Nat) : Option (Nat × (Nat ⊕ Nat)) :=
  (s.positionsOf t).findSome? fun u =>
    match ((s.part t).markedCells u.1 u.2.1).find? fun n => !parityOk (Mem.get (s.clu u.2.2).vm n) with
    | some n => some (u.2.2, .inl n)
    | none => ((List.range 94).find? fun r => !parityOk (Mem.get (s.clu u.2.2).rf r)).map fun r => (u.2.2, .inr r)

/-- Restore one record from the front of segment C into the cluster that plays its position; the rest of the segment. -/
def State.restoreRec (s : State) (t : Nat) (l : List Byte) : State × List Byte :=
  let rel := sliceLe l 0 1
  let p := sliceLe l 1 1
  let n := sliceLe l 2 2
  let size := 0xC4 + 2 * n
  let cells := (s.part t).markedCells rel p
  let cell := fun k => (BitVec.ofNat 13 (sliceLe l (8 + 2 * k) 2) : SCell)
  let s := match s.playing (s.phys t rel) p with
    | some c =>
      let s := each (List.range 94) (fun r s => s.storeRf c r (cell r)) s
      (cells.zipIdx.foldl (fun s e => s.storeVm c e.1 (cell (94 + e.2))) s).modClu c fun x => { x with acLive := [] }
    | none => s
  (s, l.drop ((size + 7) / 8 * 8))

/-- Restore segment C (R302 action 8). -/
def State.restoreC (s : State) (t : Nat) (l : List Byte) : State :=
  ((List.range (s.positionsOf t).length).foldl (fun (a : State × List Byte) _ =>
    if a.2 = [] then a else a.1.restoreRec t a.2) (s, l)).1

/-! ### Segment K (R279, R381) -/

/-- The ranges of a hook's list at a local address: address and count, until a count of 0; none when the list is out of range. -/
def Keeper.ranges (k : Keeper) : Nat → Nat → Option (List (Nat × Nat))
  | 0, _ => some []
  | n + 1, a =>
    if 65536 < a + 3 then none
    else
      let cell := fun i => (cellOf (Mem.get k.data (a + i))).toNat
      let addr := cell 0 + cell 1 % 16 * 4096
      let count := cell 2
      if count = 0 then some []
      else if 65536 < addr + count ∨ 16 ≤ cell 1 then none
      else (k.ranges n (a + 3)).map fun l => (addr, count) :: l

/-- The records of a keeper's ranges (R279). -/
def Keeper.recordsK (k : Keeper) (num : Nat) (l : List (Nat × Nat)) : List Byte :=
  l.flatMap fun r => pad8 ([BitVec.ofNat 8 num, 0] ++ leBytes 4 r.1 ++ leBytes 2 r.2 ++
    (List.range r.2).flatMap fun i => leBytes 2 (cellOf (Mem.get k.data (r.1 + i))).toNat)

/-- The bytes of segment K that range lists ask for, padded (R279, R381). -/
def sizeK (l : List (Nat × List (Nat × Nat))) : Nat := (l.flatMap fun e => e.2.map fun r => (8 + 2 * r.2 + 7) / 8 * 8).sum

/-- Write the records of segment K back into the keepers' local data (R381). -/
def State.restoreK (s : State) : Nat → List Byte → State
  | 0, _ => s
  | n + 1, l =>
    if l = [] then s
    else
      let k := sliceLe l 0 1
      let addr := sliceLe l 2 4
      let count := sliceLe l 6 2
      let cells := (List.range count).map fun i => (BitVec.ofNat 12 (sliceLe l (8 + 2 * i) 2) : Cell)
      let d := s.flipCell 8 k (unitData addr) ((cells.head?).getD 0)
      let s := if count = 0 then s
        else d.2.modKpr k fun x => { x with data := Mem.putRun x.data addr (d.1 :: cells.tail.map store) }
      s.restoreK n (l.drop ((8 + 2 * count + 7) / 8 * 8))

/-- Show the hooks that wait to keepers whose KPR_HOOK is free: restore hooks while the lock unit restores, or while LOAD_EXPORT
does, before any phase has begun (R381, R433). -/
def State.raiseHooks (s : State) : State :=
  each (List.range 4) (fun k s =>
    if s.on Reg.KPR_HOOK_pending k then s
    else match (List.range 16).find? fun t => (s.part t).hooksOpen.contains k with
      | some t => ((s.setRg Reg.KPR_HOOK_pending k 1).setRg Reg.KPR_HOOK_restore k (b2n (s.phase t = 4 ∨ s.phase t = 0))).setRg
          Reg.KPR_HOOK_tenant k t |>.modKpr k fun x => { x with hookTaken := false }
      | none => s) s

/-- Hooks for every keeper that serves a tenant. -/
def State.openHooks (s : State) (t : Nat) : State :=
  (s.modPart t fun x => { x with hooksOpen := which 4 fun k => s.serves k t, hookLists := [] }).raiseHooks

/-- A hook of a tenant has ended on a keeper. -/
def State.closeHook (s : State) (t k : Nat) : State :=
  ((s.modPart t fun x => { x with hooksOpen := x.hooksOpen.filter (· ≠ k) }).setRg Reg.KPR_HOOK_pending k 0).raiseHooks

/-! ### Segments U, L and D, descriptors (R275 to R280, R296, R310) -/

def segUBytes (l : List Undo) : List Byte :=
  l.flatMap fun u => leBytes 2 u.region ++ leBytes 2 u.page ++ leBytes 4 (u.stack * 2 ^ 31 + u.phys)

/-- What the CRC of U covers (R280). -/
def State.segUCrc (s : State) (l : List Undo) : List Byte :=
  segUBytes l ++ l.flatMap fun u => s.hbmGet (u.stack * 2 ^ 34 + u.phys * 4096) 4096

def LogRec.bytes (r : LogRec) : List Byte :=
  leBytes 4 (r.dcycle % 2 ^ 20 + r.kind * 2 ^ 20) ++ leBytes 2 r.source ++ leBytes 2 (r.rel % 32) ++
    leBytes 2 r.value.toNat ++ leBytes 2 r.status.toNat ++ leBytes 4 0

def segLBytes (l : List LogRec) : List Byte := l.flatMap LogRec.bytes

/-- A segment entry (R276), with the first list buffer of a segment held in the ledger. An absent segment has an all-zero one. -/
def segEntry (present : Bool) (lock type list : Nat) (bytes crcOver : List Byte) : List Byte :=
  if present = false then List.replicate 16 0
  else
    let alive := (lock % 512 * 8 + type) % 4096
    [BitVec.ofNat 8 type, 0] ++ leBytes 2 alive ++ leBytes 2 (if bytes = [] then 0xFFFF else list) ++
      leBytes 2 ((bytes.length + 4095) / 4096) ++ leBytes 4 bytes.length ++ leBytes 4 (crcAlive alive crcOver)

/-- A slot descriptor (R275) with a state code. -/
def State.descriptor (s : State) (t : Nat) (k : Ckpt) (state : Nat) (exported : Bool) (segs : List (List Byte)) : List Byte :=
  let h := (s.part t).hdr
  let body := leBytes 4 0x4C434B50 ++ leBytes 4 k.lock ++ leBytes 8 h.partitionId ++ leBytes 8 h.imageId ++
    leBytes 2 h.deviceIndex ++ [BitVec.ofNat 8 state] ++
    [BitVec.ofNat 8 (b2n k.start + b2n exported * 2 + b2n k.released * 4)] ++ [BitVec.ofNat 8 h.poundLog2] ++
    [BitVec.ofNat 8 k.epoch] ++ leBytes 2 0 ++ segs.flatten
  let body := body ++ List.replicate (0xFFC - body.length) 0
  body ++ leBytes 4 (crcOf 0 body)

/-- The state code of a slot's descriptor (R275). -/
def Ckpt.code (k : Ckpt) : Nat := if k.committed then 2 else 1

/-- Write a list: its list buffers name the data buffers, 2,047 to a list buffer (R277). -/
def State.writeList (s : State) : List Nat → List Nat → State
  | [], _ => s
  | l :: ls, d =>
    let part := d.take 2047
    let next := match ls with
      | [] => 0xFFFF
      | m :: _ => m
    let bytes := ((part ++ List.replicate (2047 - part.length) 0xFFFF) ++ [next]).flatMap (leBytes 2)
    (s.hbmPut (s.bufAddr l) bytes).writeList ls (d.drop 2047)

/-- Write bytes into data buffers, 4,096 to a buffer. -/
def State.writeData (s : State) : List Nat → List Byte → State
  | [], _ => s
  | b :: bs, l => (s.hbmPut (s.bufAddr b) (l.take 4096)).writeData bs (l.drop 4096)

/-- The segments of a slot as bytes: C, K, U and L. -/
def Ckpt.segments (k : Ckpt) : List (List Byte) := [k.segC, k.segK, segUBytes k.segU, segLBytes k.segL]

/-- The first list buffer of a segment of a slot; a slot without buffers names none. -/
def State.listOf (s : State) (t : Nat) (k : Ckpt) (i : Nat) : Nat :=
  (((s.part t).slots[k.slot]?).bind fun v => ((v.lists[i]?).getD []).head?).getD 0xFFFF

/-- The five segment entries of a slot (R275, R276). U and L are absent from the start checkpoint's slot (R270). -/
def State.slotEntries (s : State) (k : Ckpt) (list : Nat → Nat) : List (List Byte) :=
  let l := segLBytes k.segL
  [segEntry true k.lock 0 (list 0) k.segC k.segC, segEntry true k.lock 1 (list 1) k.segK k.segK,
   segEntry (!k.start) k.lock 2 (list 2) (segUBytes k.segU) (s.segUCrc k.segU),
   segEntry (!k.start) k.lock 3 (list 3) l l, segEntry false k.lock 4 0 [] []]

/-- A slot's descriptor goes into its ledger buffer with a state code (R275). -/
def State.writeDesc (s : State) (t : Nat) (k : Ckpt) (state : Nat) : State :=
  match (s.part t).slots[k.slot]? with
  | some v => s.hbmPut (s.bufAddr v.desc) (s.descriptor t k state k.exported (s.slotEntries k (s.listOf t k)))
  | none => s

/-- A segment goes into its data buffers, which its list buffers name (R277). -/
def State.writeSegment (s : State) (lists data : List Nat) (l : List Byte) : State :=
  let used := data.take ((l.length + 4095) / 4096)
  (s.writeList (lists.take ((used.length + 2046) / 2047)) used).writeData used l

/-- The segments and the descriptor of a slot go into the ledger, with state 1 (R281 action 5). -/
def State.writeSlot (s : State) (t : Nat) (k : Ckpt) : State :=
  match (s.part t).slots[k.slot]? with
  | some v =>
    let s := (List.range 4).foldl (fun s i =>
      s.writeSegment ((v.lists[i]?).getD []) ((v.data[i]?).getD []) ((k.segments[i]?).getD [])) s
    s.writeDesc t k 1
  | none => s

/-- Segment i of a slot, as its data buffers and, for U, the undo pages hold it, passes the CRC of its entry; an absent segment has none to
fail (R272, R276, R280, R468). -/
def State.segPasses (s : State) (t : Nat) (k : Ckpt) (i : Nat) : Bool :=
  match (s.part t).slots[k.slot]? with
  | none => true
  | some v =>
    let entry := s.hbmGet (s.bufAddr v.desc + 0x20 + 16 * i) 16
    let n := sliceLe entry 8 4
    let bytes := ((((v.data[i]?).getD []).take ((n + 4095) / 4096)).flatMap fun b => s.hbmGet (s.bufAddr b) 4096).take n
    let pages := if i = 2 then k.segU.flatMap fun u => s.hbmGet (u.stack * 2 ^ 34 + u.phys * 4096) 4096 else []
    (k.start && decide (2 ≤ i)) || decide (crcAlive (sliceLe entry 2 2) (bytes ++ pages) = sliceLe entry 12 4)

/-- Allocate n buffers to keeper 0 on a tenant's account. -/
def State.takeForLoad (s : State) (t : Nat) : Nat → List Nat × State
  | 0 => ([], s)
  | n + 1 => match s.takeBuffer 2 s.system t with
    | some r => let q := r.2.takeForLoad t n
                (r.1 :: q.1, q.2)
    | none => ([], s)

/-- A segment that HBM failed to take moves to fresh ledger buffers, while the ledger has them: the flag says that it has (R283; log
entry 54). -/
def State.renewSegment (s : State) (t slot i : Nat) : Bool × State :=
  match (s.part t).slots[slot]? with
  | none => (true, s)
  | some v =>
    let old := (v.data[i]?).getD []
    let r := s.takeForLoad t old.length
    if r.1.length < old.length then (false, each r.1 (fun b s => s.giveBack b) r.2)
    else
      let s := each old (fun b s => s.giveBack b) r.2
      (true, s.modPart t fun x => { x with slots := x.slots.set slot { v with data := v.data.set i r.1 },
                                           buffers := (x.buffers.filter fun b => !old.contains b) ++ r.1 })

/-- A buffer of a slot that is not in use, on a page with an uncorrectable error or on a retired one: another takes its place, and its
page is retired (R332). -/
def State.renewBuffer (s : State) (t b : Nat) : State :=
  let p := s.bufAddr b / 4096
  if s.pagesBad.contains p = false ∧ s.pagesRetired.contains p = false then s
  else match s.takeBuffer 2 s.system t with
    | none => s
    | some (n, s) =>
      let swap := fun x => if x = b then n else x
      let move := fun (v : SlotBufs) =>
        ({ desc := swap v.desc, data := v.data.map (·.map swap), lists := v.lists.map (·.map swap) } : SlotBufs)
      ((s.giveBack b).wantRetire p).modPart t fun x =>
        { x with slots := x.slots.map move, buffers := x.buffers.map swap }

/-- The buffers of the slots that hold no checkpoint, once a slot has been released (R332). -/
def State.renewSlots (s : State) (t : Nat) : State :=
  let x := s.part t
  let free := ((List.range 3).filter fun i => x.ckpts.all fun k => decide (k.slot ≠ i)).filterMap fun i => x.slots[i]?
  (free.flatMap fun v => v.desc :: (v.data ++ v.lists).flatten).foldl (fun s b => s.renewBuffer t b) s

/-- Segment D: every page of every writable region as it stood at the exported lock, an entry and 4,096 bytes each: the pinned
pre-image of a page written since, else the page (R310, R311). -/
def State.segD (s : State) (t : Nat) : List Byte :=
  ((s.part t).regions.filter fun g => !g.readOnly).flatMap fun g => g.pages.zipIdx.flatMap fun p =>
    leBytes 2 g.id ++ leBytes 2 p.2 ++ leBytes 4 0 ++
      (let phys := (((s.part t).undoPinned.find? fun u => u.region = g.id ∧ u.page = p.2).map (·.phys)).getD p.1
       (List.range 64).flatMap fun i =>
        (s.coherentLine (g.stack * 2 ^ 28 + phys * 64 + i)).flatMap fun h => leBytes 2 h.toNat)

/-- The export stream of a committed lock (R310): descriptor, C, K, D. Segment D has no list buffers (log entry 94). -/
def State.exportStream (s : State) (t : Nat) (k : Ckpt) (d : List Byte) : List Byte :=
  let absent := fun i => segEntry false k.lock i 0 [] []
  s.descriptor t k k.code true [segEntry true k.lock 0 (s.listOf t k 0) k.segC k.segC,
    segEntry true k.lock 1 (s.listOf t k 1) k.segK k.segK, absent 2, absent 3, segEntry true k.lock 4 0xFFFF d d] ++
    k.segC ++ k.segK ++ d

/-- A log delivery (R440): a descriptor and segment L. -/
def State.logStream (s : State) (t : Nat) (k : Ckpt) : List Byte :=
  s.descriptor t k k.code k.exported (s.slotEntries k (s.listOf t k)) ++ segLBytes k.segL

end Sys2Proof.Machine
end

