-- ==== Sys2Proof/Machine/Image.lean ====
section
/-!
DEFINITION. Sys2Proof/Machine/Image.lean: the image container, and the load checks that need nothing but its bytes (R138 to R145).
Numbers in names are those of the checks of R145. A check answers none, or the index of the section at fault, 0xFFFF for none.
-/
namespace Sys2Proof.Machine

/-! ### The header (R139) -/

/-- Byte positions that R139 does not list. -/
def unlisted (k : Nat) : Bool := decide (k = 0x26) || decide (k = 0x27) || (decide (0x5C ≤ k) && decide (k < 0xF8))

/-- Checks 1 and 2. -/
def headerCrcOk (l : List Byte) : Bool := decide (256 ≤ l.length) && decide (crcOf 0 (l.take 252) = sliceLe l 252 4)
def headerKnown (l : List Byte) : Bool :=
  decide (sliceLe l 0 4 = 0x4D49584F) && decide (sliceLe l 4 2 = 1) && decide (sliceLe l 8 2 = 7) && decide (sliceLe l 10 2 ≤ 0xB0)

def imgReaches (l : List Byte) : Nat := sliceLe l 0x24 2
def imgMargin (l : List Byte) (r : Nat) : Bool := bit (sliceLe l 0x28 4) r
def imgSteps (l : List Byte) : Nat := sliceLe l 0x2C 2 + 1
def imgPound (l : List Byte) : Nat := sliceLe l 0x2E 1
def imgFlag (l : List Byte) (k : Nat) : Bool := bit (sliceLe l 0x2F 1) k
def imgEncrypted (l : List Byte) : Bool := imgFlag l 2
def imgSections (l : List Byte) : Nat := sliceLe l 0x32 2
def imgDevices (l : List Byte) : Nat := sliceLe l 0x20 2
def imgTableEnd (l : List Byte) : Nat := 256 + 32 * imgSections l

/-- The header as the partition keeps it. -/
def imgHeader (l : List Byte) : Header :=
  { imageId := sliceLe l 0x10 8, partitionId := sliceLe l 0x18 8, deviceCount := imgDevices l, deviceIndex := sliceLe l 0x22 2,
    reachCount := imgReaches l, marginMask := sliceLe l 0x28 4, stepsM1 := sliceLe l 0x2C 2, poundLog2 := imgPound l,
    distMode := imgFlag l 0, early := imgFlag l 1 }

/-- Check 3. A higher format_minor may have put additions where R139 lists nothing. -/
def headerRanges (l : List Byte) : Bool :=
  let mask := sliceLe l 0x28 4
  decide (sliceLe l 0x0C 4 = 256) && decide (1 ≤ imgDevices l) && decide (imgDevices l ≤ 4096) &&
    decide (sliceLe l 0x22 2 < imgDevices l) && decide (1 ≤ imgReaches l) && decide (imgReaches l ≤ 24) &&
    decide (mask < 2 ^ imgReaches l) && decide ((which 24 (bit mask)).length ≤ 8) &&
    decide (64 ≤ imgSteps l) && decide (imgSteps l ≤ 1024) && decide (8 ≤ imgPound l) && decide (imgPound l ≤ 20) &&
    decide (sliceLe l 0x2F 1 < 8) && decide (1 ≤ sliceLe l 0x30 2) && decide (sliceLe l 0x30 2 ≤ 8) &&
    decide (1 ≤ imgSections l) && decide (imgSections l ≤ 4095) && decide (sliceLe l 0x34 2 < 4096) &&
    (if imgEncrypted l then decide (sliceLe l 0x36 2 < 64)
      else decide (sliceLe l 0x36 2 = 0) && decide (sliceLe l 0x4C 16 = 0)) &&
    (decide (sliceLe l 6 2 ≠ 0) || (List.range 256).all fun k => !unlisted k || decide (l[k]? = some 0))

/-! ### Sections (R140 to R142) -/

/-- A section of the plaintext container. -/
structure Section where
  index : Nat
  type : Nat
  target : Nat
  offset : Nat
  body : List Byte
  crc : Nat
  deriving DecidableEq, Repr

def sectionAt (l : List Byte) (i : Nat) : Section :=
  let e := l.drop (256 + 32 * i)
  { index := i, type := sliceLe e 0 2, target := sliceLe e 2 2, offset := sliceLe e 8 8,
    body := (l.drop (sliceLe e 8 8)).take (sliceLe e 0x10 8), crc := sliceLe e 0x18 4 }

def sections (l : List Byte) : List Section := (List.range (imgSections l)).map (sectionAt l)

/-- The relative reach and position of a target. -/
def Section.rel (x : Section) : Nat := bits x.target 8 5
def Section.pos (x : Section) : Nat := bits x.target 0 5

/-- Bytes [a, b) are zero. -/
def zeroGap (l : List Byte) (a b : Nat) : Bool := ((l.drop a).take (b - a)).all fun x => decide (x = 0)

/-- Check 7 from entry i on: `last` is the end of what came before, `low` the least offset that still rises. What a later minor format may
have added to an entry is accepted (log entry 22). -/
def layoutFrom (l : List Byte) : Nat → Nat → Nat → Nat → Bool
  | 0, _, last, _ => zeroGap l last l.length
  | n + 1, i, last, low =>
    let e := l.drop (256 + 32 * i)
    let off := sliceLe e 8 8
    let len := sliceLe e 0x10 8
    decide (off % 64 = 0) && decide (last ≤ off) && decide (low ≤ off) && decide (off + len ≤ l.length) && zeroGap l last off &&
      decide (sliceLe e 4 2 = (sliceLe l 0x34 2 + i) % 4096) &&
      (decide (sliceLe l 6 2 ≠ 0) || (decide (sliceLe e 6 2 = 0) && decide (sliceLe e 0x1C 4 = 0))) &&
      layoutFrom l n (i + 1) (off + len) (off + 1)

/-- Check 7. -/
def layoutOk (l : List Byte) : Bool := decide (imgTableEnd l ≤ l.length) && layoutFrom l (imgSections l) 0 (imgTableEnd l) 0

/-- Check 8. -/
def badCrc (l : List Byte) : Option Nat :=
  ((sections l).find? fun x => crcAlive (sliceLe l 0x34 2 + x.index) x.body ≠ x.crc).map (·.index)

/-- A position of a reach is active in the image. -/
def imgActive (l : List Byte) (r p : Nat) : Bool :=
  decide (r < imgReaches l) && (decide (p < 16) || (decide (p = 16) && imgMargin l r))

/-- A section's type is listed, and its target matches (R142). -/
def Section.targetOk (l : List Byte) (x : Section) : Bool :=
  let zero := decide (bits x.target 5 3 = 0) && decide (bits x.target 13 3 = 0)
  if x.type = 1 ∨ x.type = 2 ∨ x.type = 3 then zero && imgActive l x.rel x.pos
  else if 0x10 ≤ x.type ∧ x.type ≤ 0x13 then zero && decide (x.pos = 0) && decide (x.rel < imgReaches l)
  else if x.type = 0x20 ∨ x.type = 0x21 ∨ x.type = 0x30 ∨ x.type = 0x31 ∨ x.type = 0x32 ∨ x.type = 0x40 ∨ x.type = 0xFF then
    decide (x.target = 0xFFFF)
  else false

/-- The section of a type and target. -/
def findSection (xs : List Section) (type target : Nat) : Option Section :=
  xs.find? fun x => decide (x.type = type) && decide (x.target = target)

def deviceSection (xs : List Section) (type : Nat) : Option Section := findSection xs type 0xFFFF

/-- Index of a section, 0xFFFF where it is missing. -/
def sectionIndex (x : Option Section) : Nat := (x.map (·.index)).getD 0xFFFF

/-- Active positions of the image: relative reach and position. -/
def imgPositions (l : List Byte) : List (Nat × Nat) :=
  (List.range (imgReaches l)).flatMap fun r => ((List.range 17).filter (imgActive l r)).map fun p => (r, p)

/-- Cells of a payload, by halfword (R4). -/
def bodyCells : List Byte → List Cell
  | a :: b :: l => BitVec.ofNat 12 (a.toNat + 256 * b.toNat) :: bodyCells l
  | _ => []

/-- Cut a list into pieces of n, the last shorter. -/
def pieces {α : Type} (n : Nat) : Nat → List α → List (List α)
  | 0, _ => []
  | k + 1, l => if l = [] then [] else l.take n :: pieces n k (l.drop n)

/-- Records of n bytes of a payload. -/
def Section.records (x : Section) (n : Nat) : List (List Byte) := pieces n x.body.length x.body

/-- The decoded slots of each word of a PROGRAM section. -/
def Section.words (x : Section) : List (List (Option SlotI)) :=
  (x.records 144).map fun w => (pieces 6 12 (bodyCells w)).map fun c => decodeSlot (slotOfCells c)

/-- A slot of the memory class, by its class field: its word, slot and region. -/
def Section.memorySlots (x : Section) : List Nat :=
  ((x.records 144).flatMap fun w => (pieces 6 12 (bodyCells w)).map fun c => (slotOfCells c).toNat).filterMap fun v =>
    if v / 2 ^ 68 = 5 then some (bits v 6 10) else none

/-- Check 9: every section in order, then the required ones. -/
def badTypes (l : List Byte) : Option Nat :=
  let xs := sections l
  let twice := fun (x : Section) => decide (x.type ≠ 0xFF) &&
    xs.any fun y => decide (y.index < x.index) && decide (y.type = x.type) && decide (y.target = x.target)
  match xs.find? fun x => !Section.targetOk l x || twice x with
  | some x => some x.index
  | none =>
    let has := fun type target => (findSection xs type target).isSome
    let memory := xs.any fun x => decide (x.type = 1) && decide (x.memorySlots ≠ [])
    if ((imgPositions l).all fun u => has 1 (256 * u.1 + u.2) && has 3 (256 * u.1 + u.2)) &&
        ((List.range (imgReaches l)).all fun r => has 0x10 (256 * r) && has 0x11 (256 * r)) &&
        (decide (imgDevices l ≤ 1) || (has 0x20 0xFFFF && has 0x21 0xFFFF)) && (!memory || has 0x30 0xFFFF) &&
        has 0x32 0xFFFF && has 0x40 0xFFFF
    then none else some 0xFFFF

/-! ### Design memory (R155, R179) -/

/-- A DMEM_MAP record. -/
structure MapRec where
  id : Nat
  attr : Nat
  size : Nat
  reach : Nat
  deriving DecidableEq, Repr

def mapRec (b : List Byte) : MapRec := ⟨sliceLe b 0 2, sliceLe b 2 2, sliceLe b 4 4, sliceLe b 8 2⟩
def MapRec.readOnly (m : MapRec) : Bool := bit m.attr 0
def MapRec.stack (m : MapRec) : Nat := bits m.attr 1 2
def MapRec.single (m : MapRec) : Bool := bit m.attr 5
def MapRec.pages (m : MapRec) : Nat := (m.size + 2047) / 2048

def mapRecs (xs : List Section) : List MapRec := ((deviceSection xs 0x30).map fun x => (x.records 16).map mapRec).getD []

/-- No key is listed twice. -/
def distinct (l : List Nat) : Bool := l.eraseDups.length = l.length

/-- A DMEM_MAP section is well formed (R155). -/
def mapOk (l : List Byte) (x : Section) : Bool :=
  decide (x.body.length % 16 = 0) && distinct ((x.records 16).map fun b => sliceLe b 0 2) &&
    (x.records 16).all fun b =>
      let m := mapRec b
      decide (m.id < 1024) && decide (m.attr < 64) && decide (m.stack ≠ 2) && decide (bits m.attr 3 2 ≠ 3) &&
        decide (1 ≤ m.size) && decide (m.size ≤ 2 ^ 24) &&
        (if m.single then decide (m.reach < imgReaches l) else decide (m.reach = 0xFFFF)) && decide (sliceLe b 10 6 = 0)

/-- A RESERVATION section is well formed (R179). -/
def reservationOk (xs : List Section) (x : Section) : Bool :=
  decide (x.body.length % 8 = 0) && distinct ((x.records 8).map fun b => sliceLe b 0 2) &&
    (x.records 8).all fun b => decide (sliceLe b 2 2 = 0) && (mapRecs xs).any fun m => decide (m.id = sliceLe b 0 2)

/-- Check 10, malformed records. -/
def badReservation (l : List Byte) : Option Nat :=
  let xs := sections l
  (xs.find? fun x => (decide (x.type = 0x30) && !mapOk l x) || (decide (x.type = 0x32) && !reservationOk xs x)).map (·.index)

/-- Reserved bandwidth of a region in units of 0.1 GB/s, rounded up (R180). -/
def reserved (xs : List Section) (id : Nat) : Nat :=
  match (((deviceSection xs 0x32).map fun x => x.records 8).getD []).find? fun b => sliceLe b 0 2 = id with
  | some b => (sliceLe b 4 4 * 29 + 127) / 128
  | none => 0

/-! ### Programs (R31, R40, R63, R118, R161) -/

/-- Run the program counter through one design cycle: the word of each step, or none where R63 is broken or P is exceeded. -/
def runWords (ws : List (List SlotI)) : Nat → Cluster → List Nat → Option (List Nat)
  | 0, _, _ => none
  | n + 1, c, acc =>
    match ws[c.pc]? with
    | none => none
    | some w =>
      if repFault c (ws.length - 1) w then none
      else
        let c' := c.advance w
        if c.ended c' (ws.length - 1) then some (c.pc :: acc).reverse else runWords ws n c' (c.pc :: acc)

/-- The slots of a word that is legal. -/
def slotsOf (w : List (Option SlotI)) : List SlotI := w.filterMap id

/-- The word that each step of a design cycle issues. -/
def Section.schedule (l : List Byte) (x : Section) : Option (List Nat) := runWords (x.words.map slotsOf) (imgSteps l) {} []

/-- Slots of a word with an explicit value-memory write two steps on (R56, R115), and with a design-memory read into a cell. -/
def cellWriters (w : List SlotI) : List Nat × List Nat :=
  let at_ := fun (f : SlotI → Nat → List Nat) => (w.zipIdx.flatMap fun e => f e.1 e.2)
  (at_ fun i s => match i with
      | .word _ d _ _ _ _ => if (operandOf d).isCell then [s] else []
      | .move _ d _ _ _ _ => if (operandOf d).isCell then [s] else []
      | .vec o f _ =>
        if o = .vstl ∨ o = .vsth then [s, s + 1, s + 2, s + 3]
        else if (o = .vrsum ∨ o = .vror ∨ o = .vrand ∨ o = .vrxor ∨ o = .vmst) ∧ (operandOf f.sb).isCell then [s] else []
      | _ => [],
   at_ fun i s => match i with
      | .mem o d _ _ _ _ => if (o = .drd ∨ o = .drdw) ∧ (operandOf d).isCell then [s] else []
      | _ => [])

/-- R161 over one design cycle, whose writes carry into the next (R51). -/
def readsClash (ws : List (List SlotI)) (steps : List Nat) : Bool :=
  let p := steps.length
  let word := fun s => cellWriters ((ws[(steps[s % p]?).getD 0]?).getD [])
  (List.range p).any fun s => (word s).2.any fun k => (word (s + dmemL + p - 2)).1.contains k

/-- Check 11 of one PROGRAM section. -/
def programOk (l : List Byte) (x : Section) : Bool :=
  decide (x.body.length % 144 = 0) && decide (1 ≤ x.words.length) && decide (x.words.length ≤ 1024) && x.words.all wordLegal &&
    match x.schedule l with
    | some st => decide (st.length = imgSteps l) && !readsClash (x.words.map slotsOf) st
    | none => false

/-- Check 11. -/
def badProgram (l : List Byte) : Option Nat :=
  ((sections l).find? fun x => decide (x.type = 1) && !programOk l x).map (·.index)

/-- The slots that each step issues, by reach and position. -/
def stepSlots (l : List Byte) (xs : List Section) (r : Nat) : List (List SlotI) :=
  let per := ((List.range 17).filter (imgActive l r)).filterMap fun p =>
    (findSection xs 1 (256 * r + p)).bind fun x => (x.schedule l).map fun st =>
      st.map fun w => ((x.words.map slotsOf)[w]?).getD []
  (List.range (imgSteps l)).map fun u => per.flatMap fun st => (st[u]?).getD []

/-! ### Crossbar, net slots, host ports (R123, R131, R132, R142) -/

/-- XBAR: P entries of legal codes. -/
def xbarOk (l : List Byte) (x : Section) : Bool :=
  decide (x.body.length = 16 * imgSteps l) && (x.records 16).all fun b =>
    let e : Nat := (bodyCells b).foldr (fun c v => c.toNat + 4096 * v) 0
    decide (e < 2 ^ 85) && (List.range 17).all fun p => decide (xbtCode e p ≤ 20) || decide (xbtCode e p = 31)

/-- The 36-bit entry of a NETSLOT record. -/
def netEntry (b : List Byte) : Nat := sliceLe b 2 2 % 4096 + sliceLe b 4 2 % 4096 * 4096 + sliceLe b 6 2 % 4096 * 4096 ^ 2

/-- An entry is in one of the forms of R132. -/
def netForm (l : List Byte) (e : Nat) : Bool :=
  match e / 2 ^ 34 with
  | 0 => decide (e = 0)
  | 1 => decide (bits e 2 14 = 0) && decide (bits e 21 13 = 0) && decide (bits e 16 5 < imgReaches l)
  | 2 => decide (bits e 12 4 = 0) && decide (bits e 21 1 = 0) && decide (bits e 16 5 < 24)
  | _ => decide (bits e 10 24 = 0)

/-- Net slots that a section defines. -/
def Section.defines (x : Section) : List Nat := ((x.records 8).filter fun b => netEntry b ≠ 0).map fun b => sliceLe b 0 2

def netSections (xs : List Section) : List Section := xs.filter fun x => x.type = 0x11

/-- Net slots named by the NSNDs of a reach's programs. -/
def sentBy (xs : List Section) (r : Nat) : List Nat :=
  (xs.filter fun x => x.type = 1 ∧ x.rel = r).flatMap fun x => x.words.flatMap fun w => (slotsOf w).filterMap fun i =>
    match i with
    | .move .nsnd _ _ num _ _ => some num.toNat
    | _ => none

/-- NETSLOT: forms, ranges, definition in one reach alone, and every NSND of the reach names one of them. -/
def netslotOk (l : List Byte) (xs : List Section) (x : Section) : Bool :=
  decide (x.body.length % 8 = 0) && ((x.records 8).all fun b => decide (sliceLe b 0 2 < 4096) && netForm l (netEntry b)) &&
    distinct x.defines && ((netSections xs).all fun y => decide (x.index ≤ y.index) || y.defines.all fun n => !x.defines.contains n) &&
    (sentBy xs x.rel).all x.defines.contains

/-- A HOST_PORTS record. -/
def hostPort (b : List Byte) : HostPort :=
  { port := sliceLe b 0 2, isInput := decide (sliceLe b 2 1 = 0), flagged := decide (sliceLe b 3 1 = 1), rel := sliceLe b 4 2,
    berth := sliceLe b 6 2 }

def hostPorts (xs : List Section) : List HostPort :=
  ((deviceSection xs 0x40).map fun x => (x.records 8).map hostPort).getD []

/-- HOST_PORTS: field ranges, and no port named twice in one direction. -/
def hostPortsOk (l : List Byte) (x : Section) : Bool :=
  decide (x.body.length % 8 = 0) && distinct ((x.records 8).map fun b => sliceLe b 0 2 + 1024 * sliceLe b 2 1) &&
    (x.records 8).all fun b =>
      let p := hostPort b
      decide (p.port < 1024) && decide (sliceLe b 2 1 ≤ 1) &&
        (if p.isInput then decide (sliceLe b 3 1 ≤ 1) && decide (p.rel < imgReaches l) && decide (p.berth < 4096) &&
            (!p.flagged || decide (p.berth % 2 = 0))
          else decide (sliceLe b 3 5 = 0))

/-- Every host-form entry names a declared output port. -/
def hostFormsOk (xs : List Section) (x : Section) : Bool :=
  (x.records 8).all fun b => decide (netEntry b / 2 ^ 34 ≠ 3) ||
    (hostPorts xs).any fun p => !p.isInput && decide (p.port = bits (netEntry b) 0 10)

/-- Check 12: crossbar codes, net slots, host ports. -/
def badTables (l : List Byte) : Option Nat :=
  let xs := sections l
  (xs.find? fun x =>
    (decide (x.type = 0x10) && !xbarOk l x) || (decide (x.type = 0x11) && !(netslotOk l xs x && hostFormsOk xs x)) ||
      (decide (x.type = 0x40) && !hostPortsOk l x)).map (·.index)

/-! ### Berth maps (R193, R211, R212) -/

/-- A BERTH_MAP record: berth, kind, source, tag. -/
structure BerthRec where
  berth : Nat
  kind : Nat
  source : Nat
  tag : Nat
  deriving DecidableEq, Repr

def berthRec (b : List Byte) : BerthRec := ⟨sliceLe b 0 2, sliceLe b 2 2, sliceLe b 4 2, sliceLe b 6 2⟩

def berthRecs (xs : List Section) (r : Nat) : List BerthRec :=
  ((findSection xs 0x12 (256 * r)).map fun x => (x.records 8).map berthRec).getD []

/-- Field ranges of a record; the source of kinds 1 and 2 is another device. -/
def BerthRec.ok (devid : Nat) (r : BerthRec) : Bool :=
  decide (r.berth < 4096) &&
    (if r.kind = 1 ∨ r.kind = 2 then decide (r.source < 4096) && decide (r.tag < 4096) && decide (r.source ≠ devid)
      else if r.kind = 3 then decide (r.source < 1024) && decide (r.tag = 0)
      else decide (r.kind = 4) && decide (r.berth % 2 = 0) && decide (r.source < 1024) && decide (r.tag = 0))

/-- Berths that slots read, and those they read and consume. -/
def berthsRead (l : List SlotI) : List Nat :=
  l.filterMap fun i => match i with
    | .bit _ _ _ _ c n => if n.toNat = 24 ∨ n.toNat = 25 then some (c.toNat / 16) else none
    | .move .brd _ _ num _ _ => some num.toNat
    | _ => none
def berthsConsumed (l : List SlotI) : List Nat :=
  l.filterMap fun i => match i with
    | .bit _ _ _ _ c n => if n.toNat = 25 then some (c.toNat / 16) else none
    | .move .brd _ _ num true _ => some num.toNat
    | _ => none

/-- R193 (a) and (b): one step consumes, and no read comes after it. -/
def consumedOnce (steps : List (List SlotI)) (b : Nat) : Bool :=
  let eats := which steps.length fun u => (berthsConsumed ((steps[u]?).getD [])).contains b
  match eats with
  | [u] => (steps.drop (u + 1)).all fun w => !(berthsRead w).contains b
  | _ => false

/-- R193 (a) to (c) and R212 for one reach. -/
def reachBerthsOk (l : List Byte) (xs : List Section) (devid r : Nat) : Bool :=
  let recs := berthRecs xs r
  let steps := stepSlots l xs r
  let known := recs.flatMap fun x => if x.kind = 4 then [x.berth, x.berth + 1] else [x.berth]
  distinct known && (recs.all fun x => x.ok devid) &&
    ((steps.flatMap berthsRead).all known.contains) &&
    (recs.all fun x => decide (x.kind = 4) || consumedOnce steps x.berth) &&
    (recs.all fun x => decide (x.kind ≤ 2) ||
      (hostPorts xs).any fun p => p.isInput && decide (p.port = x.source) && decide (p.rel = r) && decide (p.berth = x.berth) &&
        (p.flagged = decide (x.kind = 4)))

/-- Each input port is named by one record (R212). -/
def portsNamed (l : List Byte) (xs : List Section) : Bool :=
  (hostPorts xs).all fun p => !p.isInput ||
    decide ((((List.range (imgReaches l)).flatMap (berthRecs xs)).filter fun x => 3 ≤ x.kind ∧ x.source = p.port).length = 1)

/-- R193 (d) and (e) for one NETSLOT section: a remote entry leads to another device, and every NSND that names it issues once in
a design cycle. -/
def remoteOk (l : List Byte) (xs : List Section) (devid : Nat) (x : Section) : Bool :=
  let sent := (stepSlots l xs x.rel).flatMap fun w => w.filterMap fun i =>
    match i with
    | .move .nsnd _ _ num _ _ => some num.toNat
    | _ => none
  (x.records 8).all fun b => decide (netEntry b / 2 ^ 34 ≠ 2) ||
    (decide (bits (netEntry b) 22 12 ≠ devid) && decide (sent.count (sliceLe b 0 2) ≤ 1))

/-- Check 13, berths. -/
def badBerths (l : List Byte) (devid : Nat) : Option Nat :=
  let xs := sections l
  match (List.range (imgReaches l)).find? fun r => !(reachBerthsOk l xs devid r &&
      ((findSection xs 0x12 (256 * r)).all fun x => decide (x.body.length % 8 = 0))) with
  | some r => some (sectionIndex (findSection xs 0x12 (256 * r)))
  | none => match (netSections xs).find? fun x => !remoteOk l xs devid x with
    | some x => some x.index
    | none => if portsNamed l xs then none else some (sectionIndex (deviceSection xs 0x40))

/-! ### Gauges, routes, lock tree (R255, R284, R285, R498) -/

/-- A GAUGE record is in range. -/
def gaugeRecOk (b : List Byte) : Bool :=
  let i := sliceLe b 0 2
  let cfg := sliceLe b 2 2
  let w := sliceLe b 4 4
  let ref := sliceLe b 8 4
  decide (i < 16) && decide (bits cfg 10 5 ≤ 16) && decide (bits cfg 10 5 ≠ i + 1) && decide (bits w 21 9 = 0) &&
    decide (bits w 12 4 = 0) && decide (bits w 16 5 ≤ 16) && decide (bits ref 28 4 = 0) && decide (bits ref 12 4 = 0) &&
    decide (sliceLe b 14 2 = 0)

/-- An action of a GAUGE record that stops the partition (R495). -/
def gaugeStops (b : List Byte) : Bool := decide (bits (sliceLe b 2 2) 7 3 = 3) || decide (bits (sliceLe b 2 2) 7 3 = 4)

def gaugesOk (x : Section) : Bool :=
  decide (x.body.length % 16 = 0) && distinct ((x.records 16).map fun b => sliceLe b 0 2) && (x.records 16).all gaugeRecOk

/-- A ROUTE record of type 1: destination, candidates in order, escape. -/
structure RouteRec where
  dest : Nat
  primary : Nat
  by1 : Nat
  by2 : Nat
  escape : Nat
  deriving DecidableEq, Repr

def routeRec (b : List Byte) : RouteRec := ⟨sliceLe b 2 2, sliceLe b 4 1, sliceLe b 5 1, sliceLe b 6 1, sliceLe b 7 1⟩
def RouteRec.candidates (r : RouteRec) : List Nat := [r.primary, r.by1, r.by2].filter fun k => k ≠ 0xFF
def RouteRec.ok (r : RouteRec) : Bool :=
  decide (r.dest < 4096) && decide (r.primary < 16) && decide (r.escape < 16) && distinct r.candidates &&
    (decide (r.by1 < 16) || decide (r.by1 = 0xFF)) && (decide (r.by2 < 16) || decide (r.by2 = 0xFF))

def routeBytes (xs : List Section) (type : Nat) : List (List Byte) :=
  (((deviceSection xs 0x20).map fun x => x.records 8).getD []).filter fun b => sliceLe b 0 2 = type
def routeRecs (xs : List Section) : List RouteRec := (routeBytes xs 1).map routeRec
def imgSpn (xs : List Section) : Nat := (((routeBytes xs 3).head?).map fun b => sliceLe b 2 2).getD 0
def vc0Loads (xs : List Section) (link : Nat) : Nat :=
  ((routeBytes xs 2).map fun b => if sliceLe b 2 2 = link then sliceLe b 4 2 else 0).sum

/-- The fields of ROUTE (R255, R256). -/
def routeOk (xs : List Section) (x : Section) : Bool :=
  decide (x.body.length % 8 = 0) && ((x.records 8).all fun b =>
    match sliceLe b 0 2 with
    | 1 => (routeRec b).ok
    | 2 => decide (sliceLe b 2 2 < 16) && decide (sliceLe b 6 2 = 0)
    | 3 => decide (1 ≤ sliceLe b 2 2) && decide (sliceLe b 2 2 < 4096) && decide (sliceLe b 4 4 = 0)
    | _ => false) && decide ((routeBytes xs 3).length = 1) && distinct ((routeRecs xs).map (·.dest))

def treeBytes (xs : List Section) : List (List Byte) := ((deviceSection xs 0x21).map fun x => x.records 8).getD []
def treeSelf (xs : List Section) : List (List Byte) := (treeBytes xs).filter fun b => sliceLe b 0 2 = 1
def treeParent (xs : List Section) : Nat := (((treeSelf xs).head?).map fun b => sliceLe b 2 2).getD 0xFFFF
def treeRoot (xs : List Section) : Nat := (((treeSelf xs).head?).map fun b => sliceLe b 6 2).getD 0
def treeChildren (xs : List Section) : List Nat :=
  ((treeBytes xs).filter fun b => sliceLe b 0 2 = 2).map fun b => sliceLe b 2 2

/-- The fields of LOCK_TREE (R285). -/
def treeOk (xs : List Section) (devid : Nat) (x : Section) : Bool :=
  let b := ((treeSelf xs).head?).getD []
  let parent := treeParent xs
  let kids := treeChildren xs
  let depth := sliceLe b 4 1
  let other := fun d => decide (d < 4096) && decide (d ≠ devid)
  decide (x.body.length % 8 = 0) && decide ((treeSelf xs).length = 1) && decide (kids.length + 1 = (treeBytes xs).length) &&
    decide (sliceLe b 5 1 = kids.length) && decide (kids.length ≤ 16) && decide (depth ≤ 31) && distinct (parent :: kids) &&
    kids.all other && ((treeBytes xs).all fun c => decide (sliceLe c 0 2 = 1) || decide (sliceLe c 4 4 = 0)) &&
    (if parent = 0xFFFF then decide (depth = 0) && decide (treeRoot xs = devid)
      else decide (depth ≠ 0) && other parent && other (treeRoot xs))

/-! ### Regions and initial values (R142, R155, R157, R158) -/

/-- Every region that a slot of a reach names is in the map, and is not another reach's own. -/
def regionsNamed (xs : List Section) (x : Section) : Bool :=
  x.memorySlots.all fun n => (mapRecs xs).any fun m => decide (m.id = n) && (!m.single || decide (m.reach = x.rel))

/-- DMEM_INIT records: region, start, cells; none where the section is malformed. -/
def initRecs (xs : List Section) : Nat → List Byte → Option (List (Nat × Nat × List Cell))
  | 0, l => if l = [] then some [] else none
  | n + 1, l =>
    if l = [] then some []
    else
      let start := sliceLe l 4 4
      let count := sliceLe l 8 4
      let size := (12 + 2 * count + 7) / 8 * 8
      let fits := (mapRecs xs).any fun m => decide (m.id = sliceLe l 0 2) && decide (start + count ≤ m.size)
      if decide (sliceLe l 2 2 = 0) && decide (1 ≤ count) && decide (size ≤ l.length) && fits && zeroGap l (12 + 2 * count) size then
        (initRecs xs n (l.drop size)).map fun r => (sliceLe l 0 2, start, bodyCells ((l.drop 12).take (2 * count))) :: r
      else none

/-- VALUE_INIT records: start and cells; none where the section is malformed. -/
def valueRecs : Nat → List Byte → Option (List (Nat × List Cell))
  | 0, l => if l = [] then some [] else none
  | n + 1, l =>
    if l = [] then some []
    else
      let start := sliceLe l 0 2
      let count := sliceLe l 2 2
      if decide (1 ≤ count) && decide (count ≤ 4096) && decide (start + count ≤ 4096) && decide (4 + 2 * count ≤ l.length) then
        (valueRecs n (l.drop (4 + 2 * count))).map fun r => (start, bodyCells ((l.drop 4).take (2 * count))) :: r
      else none

/-- Ranges [a, a + n) do not meet. -/
def apart : List (Nat × Nat) → Bool
  | [] => true
  | x :: l => (l.all fun y => decide (x.1 + x.2 ≤ y.1) || decide (y.1 + y.2 ≤ x.1)) && apart l

/-- The sections of check 13 that depend on nothing but the image, by type. -/
def plainOk (xs : List Section) (x : Section) : Bool :=
  match x.type with
  | 0x13 => gaugesOk x
  | 0x31 => match initRecs xs (x.body.length + 1) x.body with
    | some r => apart (r.map fun e => (e.1 * 2 ^ 25 + e.2.1, e.2.2.length))
    | none => false
  | 0x02 => match valueRecs (x.body.length + 1) x.body with
    | some r => apart (r.map fun e => (e.1, e.2.length))
    | none => false
  | 0x03 => decide (x.body.length = 512)
  | _ => true

/-- The first section of a type that fails a test. -/
def firstBad (xs : List Section) (type : Nat) (ok : Section → Bool) : Option Nat :=
  (xs.find? fun x => decide (x.type = type) && !ok x).map (·.index)

/-- Cells with their indices from a on. -/
def placed (a : Nat) (l : List Cell) : List (Nat × Cell) := l.zipIdx.map fun e => (a + e.2, e.1)

/-- The DMEM_INIT records of an image: region, start and cells (R158). -/
def dmemInit (xs : List Section) : List (Nat × Nat × List Cell) :=
  ((deviceSection xs 0x31).bind fun x => initRecs xs (x.body.length + 1) x.body).getD []

/-- A cell of a region goes into HBM under the armed flip (R154, R158, R346). -/
def State.initCell (s : State) (g : Region) (c : Nat × Cell) : State :=
  let a := g.byte c.1
  let d := s.flipCell 6 (a / 2 ^ 34) (a % 2 ^ 34 / 4096) c.2
  d.2.hbmPut a (leBytes 2 d.1.toNat)

end Sys2Proof.Machine
end

