-- ==== Sys2Proof/Machine/Lock.lean ====
section
/-!
DEFINITION. Sys2Proof/Machine/Lock.lean: the lock flight, rollback, replay, export and the LCK registers (R281 to R317, R576).
-/
namespace Sys2Proof.Machine

/-! ### Small parts -/

/-- This device decides for the partition: the tree's root, or the one device of it (R285, R290). -/
def State.rootHere (s : State) (t : Nat) : Bool := !s.multi t || s.isRoot t

/-- The newest committed lock. -/
def State.newest (s : State) (t : Nat) : Nat := s.rg Reg.LCK_CKPTt_newest t

/-- The lock in hand: the start lock, or that of the current pound (R267, R268). -/
def State.lockNo (s : State) (t : Nat) : Nat := if (s.part t).starting then (s.part t).startLock else s.pound t

def State.setPhase (s : State) (t v : Nat) : State := s.setRg Reg.LCK_STATUSt_phase t v

/-- The committed slot of a lock. -/
def State.slotOf (s : State) (t lock : Nat) : Option Ckpt :=
  (s.part t).ckpts.find? fun k => k.lock = lock ∧ k.committed

def lockCause (s : State) (t : Nat) (f : Field) : State := s.cause .lock f t

/-- Devices of this device's subtree, less one (R286). -/
def subtree (l : List Sweep) : Nat := (l.map fun x => x.devices + 1).sum

/-- The stop of a ROLLBACK or RESUME as body cells (R286). -/
def stopCells (x : Option (Nat × Nat × Bool)) : List Nat :=
  match x with
  | some (p, d, every) => two p ++ [d % 4096, d / 4096 % 256 + b2n every * 256]
  | none => two 0 ++ [0, 2048]

/-! ### Suspension (R309, R340, R576) -/

/-- Every command of a tenant in execution completes with a status. -/
def State.dropOpen (s : State) (t status : Nat) : State :=
  let x := s.part t
  x.openCmds.foldl (fun s c => s.finish t (BitVec.ofNat 16 c.cmdId) status) (s.setPart t { x with openCmds := [] })

/-- The partition's share on this device is suspended with a reason; keeper 0 posts the fault. -/
def State.suspendPart (s : State) (t reason : Nat) : State :=
  if s.suspended t then s
  else
    let s := (s.postEarly t).modPart t fun x =>
      { x with holdReq := none, hooksOpen := [], gapWaiting := none, reqPending := none }
    let s := ((s.setMode t 7).setPhase t 6).dropOpen t 0x10
    (lockCause s t Reg.LCK_CAUSEt_suspended).postFault t 1 0 reason

/-- Suspension received or decided: forwarded, then acted on (R287, R309). -/
def State.doSuspend (s : State) (t reason : Nat) : State :=
  let s := s.broadcast t (s.children t) 0x016 (two (s.newest t) ++ [s.epoch t + reason * 4])
  s.suspendPart t reason

/-- This device's share is suspended at once; the root tells its children, another device asks the root for SUSPEND (R576). -/
def State.suspendHere (s : State) (t reason : Nat) : State :=
  if s.loaded t = false then s
  else if s.rootHere t then s.doSuspend t reason
  else (s.suspendPart t reason).message t (s.part t).rootDev 0x012 (two (s.newest t) ++ [s.epoch t + 4 * 8 + 128])

/-- SUSPEND received; a suspended device passes it on whatever its epoch, and treats it as carried out (R576). -/
def State.suspendIn (s : State) (t epoch reason : Nat) : State :=
  if s.loaded t = false then s
  else if s.suspended t then
    s.broadcast t (s.children t) 0x016 (two (s.newest t) ++ [epoch + reason * 4])
  else if epoch = s.epoch t then s.doSuspend t reason else s

/-- SUSPEND. -/
def execSuspend (t : Fin 16) (epoch : BitVec 2) (reason : BitVec 4) (s : State) : Host.Outcome State Fault Refusal :=
  done s (s.suspendIn t.val epoch.toNat reason.toNat)

/-! ### Golden copies and spares (R322, R333, R334) -/

/-- Both golden copies of something have failed: keeper 0 rebuilds them from the container, or, where the container fails its CRC too,
suspends the share and posts the lost image (R322). The flag says that the copies stand. -/
def State.rebuildGold (s : State) (t : Nat) : Bool × State :=
  let x := s.part t
  if x.goldLost = [] then (true, s)
  else if (x.conLost.any fun n => Config.goldHit n false (2 ^ 22)) ∨ (badCrc x.container).isSome then
    (false, (s.suspendHere t 4).postFault t 3 0 0)
  else (true, s.modPart t fun x => { x with goldLost := [] })

/-- Both golden copies of a program word of a cluster's position are gone. -/
def State.unitGone (s : State) (t c : Nat) : Bool :=
  (List.range (s.rg Reg.CLU_PROG_last_word c + 1)).any fun w => s.goldGone t (s.goldWord c w)

/-- The substitution of a cluster is deferred: the tenant has a fault of type 5 (R334). -/
def State.deferSpare (s : State) (t c record : Nat) : State :=
  (s.postFault t 5 record 0).modPart t fun x => { x with deferred := c :: x.deferred.filter (· ≠ c) }

/-- A spare is being prepared for, or moves to, the position of a cluster (R334, R335). -/
def State.startMove (s : State) (t spare c : Nat) : State :=
  (s.prepareSpare spare c).modPart t fun x =>
    { x with moving := x.moving ++ [(spare, c)], deferred := x.deferred.filter (· ≠ c) }

/-- Keeper 0 carries out a plan of partition t: the spare that qualifies is prepared and takes the cluster's position, with its state
where `move`. With none, the substitution is deferred (R322, R333, R334). -/
def State.relieve (s : State) (t : Nat) (move : Bool) (plan : Nat × Bool × Nat) : State :=
  let c := plan.1
  match s.position c, s.spareFor (c / 17) with
  | some p, some spare =>
    let r := if s.unitGone t c then s.rebuildGold t else (true, s)
    if r.1 = false then r.2
    else
      let s := r.2.startMove t spare c
      if move then s.substitute spare p else s.substituteRestoring spare p
  | some _, none => s.deferSpare t c plan.2.2
  | none, _ => s

/-- The plans of a partition that a commit, or a rollback, carries out (R333). -/
def State.relieveAll (s : State) (t : Nat) (atLock : Bool) : State :=
  let now := (s.part t).plans.filter fun q => q.2.1 || !atLock
  let s := s.modPart t fun x => { x with plans := if atLock then x.plans.filter fun q => !q.2.1 else [] }
  now.foldl (fun s q => s.relieve t atLock q) s

/-- A role that waited for a step boundary takes effect within the restore, with no state moved (R81, R337; log entry 67). -/
def State.armedRoles (s : State) (t : Nat) : State :=
  each ((s.part t).bound.flatMap fun r => (List.range 17).map (17 * r + ·)) (fun c s =>
    match (s.clu c).roleArmed with
    | some p => if p ≤ 16 then s.substituteRestoring c p else s.applyRole c p
    | none => s) s

/-! ### Commit (R288, R293 to R298) -/

/-- Insert an output by pound, then design cycle. -/
def insertOut (o : OutVal) : List OutVal → List OutVal
  | [] => [o]
  | p :: l => if o.dcycle < p.dcycle then o :: p :: l else p :: insertOut o l

/-- Action 4: the held outputs of a pound pass on in design-cycle order, and the sealed log goes to the host. -/
def State.releaseOutputs (s : State) (t lock : Nat) : State :=
  let x := s.part t
  let go := (x.outs.filter fun o => o.pound = lock).foldl (fun l o => insertOut o l) []
  let s := s.setPart t { x with outs := x.outs.filter fun o => o.pound ≠ lock }
  let s := go.foldl (fun s o => s.post t 3 (outEntry o)) s
  match s.slotOf t lock with
  | some k =>
    if s.rgw Reg.LCK_CTRLt_log_to_host 1 t = 1 ∧ k.start = false then
      let l := s.logStream t k
      let first := s.rg Reg.WHF_QCFG_dptr (qid t 5)
      match s.areaPut t 5 l with
      | some s => s.complete t 0xFFFF 0 2 lock first l.length
      | none => s.count Reg.WHF_TSTAT_log_skipped t 1
    else s
  | none => s

/-- Action 6: system time follows the root's, if this tenant's COMMITs set it (R524). -/
def State.syncTime (s : State) (t target : Nat) : State :=
  if s.on Reg.AON_TSYNC_en ∧ s.rg Reg.AON_TSYNC_tenant = t ∧ !s.rootHere t then
    let p := s.power
    let s := s.setRg Reg.AON_STAT_synced 0 1
    if p.time ≤ target then { s with power := { p with time := target % 2 ^ 64, slewTo := none } }
    else { s with power := { p with slewTo := some (640 * target) } }
  else s

/-- Action 7: an export of the lock begins, or is skipped while one is busy (R310, R312). -/
def State.beginExport (s : State) (t lock : Nat) : State :=
  if s.on Reg.LCK_EXPORTt_busy t then lockCause s t Reg.LCK_CAUSEt_export_skipped
  else (s.setRg Reg.LCK_EXPORTt_busy t 1).modPart t fun x => { x with exporting := s.slotOf t lock }

/-- Lock k is due for export; the start lock is the one before lock 0 (R268, R310; log entry 70). -/
def State.exportDue (s : State) (t lock : Nat) : Bool :=
  let n := s.rgw Reg.LCK_CTRLt_export_every 1 t
  decide (n ≠ 0) && decide ((lock + 1) % 2 ^ 24 % n = 0)

/-- Undo pages that no slot needs any more. -/
def Part.freeUndo (x : Part) (l : List Undo) : Part :=
  { x with undoFree := x.undoFree ++ ((l.map fun u => (u.stack, u.phys)).filter fun u =>
      !x.undoPinned.any fun w => w.stack = u.1 ∧ w.phys = u.2) }

/-- Actions 2 and 3: the slot of lock k commits, and slots older than the one before it are released, with the pages that then retire
(R332). -/
def State.commitSlots (s : State) (t lock : Nat) : State :=
  let old := s.newest t
  let x := s.part t
  let gone := x.ckpts.filter fun k => k.lock ≠ lock ∧ k.lock ≠ old
  let s := gone.foldl (fun s k => s.writeDesc t k 0) s
  let kept := (x.ckpts.filter fun k => k.lock = lock ∨ k.lock = old).map fun k =>
    if k.lock = lock then { k with committed := true, released := s.on Reg.LCK_STATUSt_released t } else k
  let s := s.setPart t ((gone.foldl (fun x k => x.freeUndo k.segU)
    { x with ckpts := kept, relPounds := x.relPounds.filter fun p => poundLt old p }))
  let s := match s.slotOf t lock with
    | some k => s.writeDesc t k k.code
    | none => s
  let bad := (gone.flatMap fun k => k.segU.map fun u => u.stack * 2 ^ 22 + u.phys).filter s.pagesBad.contains
  let s := (each bad (fun p s => s.wantRetire p) s).renewSlots t
  let s := s.setRg Reg.LCK_CKPTt_newest t lock
  if lock = old then s else (s.setRg Reg.LCK_CKPT_OLDt_valid t 1).setRg Reg.LCK_CKPT_OLDt_older t old

/-- Gauge states as of a committed lock (R497). -/
def State.saveGauges (s : State) (t : Nat) : State :=
  each (s.part t).bound (fun r s => s.modRch r fun x =>
    { x with gaugeOld := x.gaugeNew, gaugeFired := [],
             gaugeNew := (List.range 16).map fun i =>
               { index := i, count := s.rg Reg.GAU_CNT_count (16 * r + i),
                 armed := decide (s.rg Reg.GAU_CFG_chain (16 * r + i) = 0) } }) s

/-- The gauges return to their counts and armed state as of the target (R494, R497). -/
def State.restoreGauges (s : State) (t target : Nat) : State :=
  let newest := s.newest t
  each (s.part t).bound (fun r s =>
    let l := if target = newest then (s.rch r).gaugeNew else (s.rch r).gaugeOld
    let s := l.foldl (fun s g => s.setRg Reg.GAU_CNT_count (16 * r + g.index) g.count) s
    s.modRch r fun x => { x with gaugeNew := l, gaugeFired := [], gaugePrev := [] }) s

/-- A new pound begins: its log reader and its horizon (R298). -/
def State.beginPound (s : State) (t p : Nat) : State :=
  let x := s.part t
  let old := x.logOld.get p []
  let s := s.setPart t { x with atLock := false, ready := false, captured := false, captureFail := false, arrived := [],
                                copied := [], undoNow := [], logNow := old, logOld := x.logOld.del p, starting := false,
                                step := 0, started := false, segK := [], segC := [], badNow := [] }
  (s.setRg Reg.LCK_POUNDt_pound t p).setRg Reg.LCK_STATUSt_dcycle t 0

/-- A partition in Replay: in that mode or in Readback, or held on the way (R313, R314, R508). -/
def State.replaying (s : State) (t : Nat) : Bool :=
  decide (s.pmode t = 5) || decide (s.pmode t = 6) ||
    ((decide (s.pmode t = 3) || decide (s.pmode t = 4)) && (s.part t).heldReplay)

/-- Actions 2 to 7 of R288 at lock k, and the state of the lock unit that a commit ends. The release floor may rise, and with it the
horizon goes out of force (R295, R298; log entry 70). `target` is the root's time where a COMMIT brings one. -/
def State.commitActions (s : State) (t lock : Nat) (export_ : Bool) (target : Option Nat) : State :=
  let s := s.setRg Reg.LCK_FLIGHTt_flight t (min 65535 (s.power.time - (s.part t).arriveAt))
  let s := s.commitSlots t lock
  let s := s.releaseOutputs t lock
  let s := s.applyShadows t lock
  let s := match target with
    | some v => s.syncTime t v
    | none => s
  let s := if export_ then s.beginExport t lock else s
  let s := lockCause s t Reg.LCK_CAUSEt_committed
  let s := s.log t (srcOf 4 t) 0x106 lock
  let s := if s.on Reg.WHF_TCTRL_notify_lock t then s.complete t 0xFFFF 0 1 lock 0 0 else s
  let rises := match (s.part t).floor with
    | some f => poundLt f lock
    | none => true
  let s := if rises then
      (s.modPart t fun x => { x with floor := some lock, horizonOn := false }).setRg Reg.LCK_STATUSt_reexec t 0
    else s
  let s := (s.setRg Reg.LCK_HORIZONt_valid t 0).setRg Reg.LCK_STATUSt_released t 0
  let s := (s.modPart t fun x => { x with rollbacks := 0, reqPending := none, errSeen := [], bwdSeen := [] }).saveGauges t
  if (s.part t).starting then (s.setMode t 2).closeCmds t 2 else s

/-- Commit of lock k on this device: actions 1 to 7 of R288, the substitutions that take place at the lock (R333), and the next pound
(R134, R447). -/
def State.commitLock (s : State) (t lock : Nat) (export_ : Bool) (rootTime delay elapsed : Nat) : State :=
  let s := s.broadcast t (s.children t) 0x011 (two lock ++ [b2n export_] ++
    (List.range 6).map (fun i => rootTime / 4096 ^ i % 4096) ++ two (delay + elapsed + 100))
  let s := (s.commitActions t lock export_ (some (rootTime + delay + elapsed))).relieveAll t true
  let s := s.beginPound t ((lock + 1) % 2 ^ 24)
  let s := s.setPhase t (if s.replaying t then 7 else 1)
  (s.beginCycle t).settleHold t

/-! ### Rollback (R300 to R308) -/

/-- Both homes and every reach stand at the present step: nothing older is buffered (R167, R176). -/
def State.resetFences (s : State) (t : Nat) : State :=
  let g := (s.part t).gstep
  let s := s.modPart t fun x => { x with fenceClosed0 := g, fenceClosed1 := g, markers := [] }
  each (s.part t).bound (fun r s => s.modRch r fun x => { x with fenceSeen0 := g, fenceSeen1 := g }) s

/-- Lines of the partition's reaches leave the directory (R176). -/
def State.forgetLines (s : State) (rs : List Nat) : State :=
  { s with dir := s.dir.map fun (e : Nat × DirLine) =>
      let sh := e.2.sharers.filter fun r => !rs.contains r
      let busyHere : Bool := match e.2.busy with
        | some r => rs.contains r
        | none => false
      let mine := rs.contains e.2.owner && decide (e.2.st ≠ .invalid)
      if mine || busyHere || decide (sh.length < e.2.sharers.length) then
        (e.1, { ({} : DirLine) with queue := e.2.queue.filter fun q => !rs.contains q.1 })
      else e }

/-- The horizon as issue stops: the last design cycle of pound F + 1 to have begun, or a later one still in force. Where none of
pound F + 1 has begun, it is the end of pound F, since every design cycle before lies at or before it (R298; log entry 70). -/
def State.setHorizon (s : State) (t : Nat) : State :=
  let x := s.part t
  let f := (x.floor.getD 0xFFFFFF + 1) % 2 ^ 24
  let h := s.rg Reg.LCK_HORIZONt_h t
  let u := if s.pound t = f ∧ x.starting = false then
      (f, if x.horizonOn ∧ x.horizonPound = f then max h (s.dcycle t) else s.dcycle t)
    else if x.horizonOn then (x.horizonPound, h)
    else ((f + 2 ^ 24 - 1) % 2 ^ 24, s.poundLen t - 1)
  ((s.setRg Reg.LCK_HORIZONt_valid t 1).setRg Reg.LCK_HORIZONt_h t u.2).modPart t fun y =>
    { y with horizonOn := true, horizonPound := u.1 }

/-- Actions 1 to 5 on this device (R302). -/
def State.rollStart (s : State) (t target epoch : Nat) (replay : Bool) (stop : Option (Nat × Nat × Bool)) : State :=
  let s := s.broadcast t (s.children t) 0x013 (two target ++ [epoch + b2n replay * 4] ++ stopCells stop)
  let x := s.part t
  let s := s.setRg Reg.LCK_STATUSt_epoch t epoch
  let s := s.setHorizon t
  let s := s.postEarly t
  let clusters := s.clustersOf t
  let s := each clusters (fun c s => ((s.endReads t c).completeWrites c).1) s
  let s := each clusters (fun c s => s.modClu c fun y =>
    { y with st := if y.issuing then 1 else 0, stopBit := none, bpPass := false, waitCounted := false, reads := [],
             stepReads := [], stepWrites := [] }) s
  let s := each x.bound (fun r s => s.modRch r fun y =>
    { y with cache := [], writeback := [], requests := [], wb := [], wbTaken := 0, tlb := [], recent := [], berths := [],
             outstanding := [], clrBad := [], holds := [], transit := [], handoff := [], waits := [] }) s
  let s := ((s.forgetLines x.bound).resetFences t).tagPorts t
  let s := (x.ckpts.filter fun k => !k.committed).foldl (fun s k => s.writeDesc t k 0) s
  let early := x.hdr.early && x.relPounds.any fun p => poundLt target p
  let s := s.modPart t fun y =>
    { y with stopped := false, atLock := false, ready := false, captured := false, captureFail := false, arrived := [],
             segC := [], segK := [], hooksOpen := [], target := target, restored := [], restoreDone := false, restoreFlags := b2n early * 8,
             replayRun := replay, replayStop := stop, rejoined := [], rolledBack := true, step := 0, started := false,
             begun := false, memTaken := false, fires := [], starting := false,
             rollbacks := y.rollbacks + 1, reqPending := none, reqWhy := none,
             ckpts := y.ckpts.filter fun k => k.committed }
  let s := each (which 4 fun k => s.on Reg.KPR_HOOK_pending k && decide (s.rg Reg.KPR_HOOK_tenant k = t))
    (fun k s => s.setRg Reg.KPR_HOOK_pending k 0) s
  let s := s.raiseHooks
  let s := if replay then s.setMode t 5 else s
  let s := s.count Reg.LCK_CNT_ROLLBACKt_rollbacks t 1
  (s.log t (srcOf 4 t) 0x105 (target + epoch * 2 ^ 24)).setPhase t 4

/-- The pages that restoring lock j reads and rewrites: every pre-image reads, and every writable region page with an
uncorrectable error has one (R272, R332). -/
def State.pagesUsable (s : State) (t j : Nat) : Bool :=
  let x := s.part t
  let undo := x.undoNow ++ (x.ckpts.filter fun c => poundLt j c.lock).flatMap (·.segU)
  (undo.all fun u => !s.pagesBad.contains (u.stack * 2 ^ 22 + u.phys)) &&
    (x.regions.filter fun g => !g.readOnly).all fun g => g.pages.zipIdx.all fun p =>
      !s.pagesBad.contains (g.stack * 2 ^ 22 + p.1) || undo.any fun u => u.region = g.id ∧ u.page = p.2

/-- The slots and segments that restoring lock j needs all pass (R272). -/
def State.usable (s : State) (t j : Nat) : Bool :=
  match s.slotOf t j with
  | none => false
  | some k => !k.bad.contains 0 && !k.bad.contains 1 && s.pagesUsable t j && (s.part t).badNow.isEmpty &&
      s.segPasses t k 0 && s.segPasses t k 1 &&
      (s.part t).ckpts.all fun c => !(poundLt j c.lock) ||
        (!c.bad.contains 2 && !c.bad.contains 3 && s.segPasses t c 2 && s.segPasses t c 3)

/-- The root sends a ROLLBACK, or SUSPEND after four without a commit, and leaves 20 µs between two (R301, R305, R308). Of two that
wait, the one with the older target goes. -/
def State.startRollback (s : State) (t target : Nat) (replay : Bool) (stop : Option (Nat × Nat × Bool)) : State :=
  let x := s.part t
  if s.suspended t then s
  else if 4 ≤ x.rollbacks then s.doSuspend t 3
  else if x.gapRunning then
    if x.gapWaiting.any fun w => !poundLt target w.1 then s else s.setPart t { x with gapWaiting := some (target, replay, stop) }
  else
    (s.setPart t { x with gapRunning := true, gapWaiting := none }).rollStart t target ((s.epoch t + 1) % 4) replay stop

/-- The target of a REQ: the newest committed lock, or the older one if it is asked for and held (R301); while a restore is under
way, its own target (R305, R339). -/
def State.reqTarget (s : State) (t : Nat) (older : Bool) : Nat :=
  if older ∧ s.on Reg.LCK_CKPT_OLDt_valid t then s.rg Reg.LCK_CKPT_OLDt_older t
  else if s.phase t = 4 ∨ s.phase t = 5 then (s.part t).target
  else s.newest t

/-- A REQ at the root, in its own epoch (R301, R303, R305, R576). A partition in Replay stays there (log entry 70). -/
def State.reqAtRoot (s : State) (t epoch : Nat) (older suspend : Bool) : State :=
  if !s.rootHere t ∨ s.suspended t ∨ s.loaded t = false ∨ epoch ≠ s.epoch t then s
  else if suspend then s.doSuspend t 4
  else if s.pmode t = 1 then s
  else
    let x := s.part t
    let replay := s.replaying t || ((decide (s.phase t = 4) || decide (s.phase t = 5)) && x.replayRun)
    s.startRollback t (s.reqTarget t older) replay (if replay then x.replayStop else none)

/-- REQ. -/
def execReq (t : Fin 16) (_lock : BitVec 24) (epoch : BitVec 2) (older suspend : Bool) (_cause : BitVec 4) (s : State) :
    Host.Outcome State Fault Refusal :=
  done s (s.reqAtRoot t.val epoch.toNat older suspend)

/-- Send a REQ from this device (R286, R300). -/
def State.sendReq (s : State) (t : Nat) (older suspend : Bool) (cause : Nat) : State :=
  if s.rootHere t then s.reqAtRoot t (s.epoch t) older suspend
  else s.message t (s.part t).rootDev 0x012 (two (s.newest t) ++ [s.epoch t + b2n older * 4 + cause * 8 + b2n suspend * 128])

/-- Keeper 0's REQ for the newest lock (R260, R283, R300). -/
def State.askRollback (s : State) (t cause : Nat) : State :=
  if s.suspended t then s else s.sendReq t false false cause

/-- ROLLBACK received. A device that has captured the target but not received its COMMIT commits it first, and the pound's pre-images
and log are then its slot's (R272, R304). A suspended
device passes the message on and takes its epoch, nothing else (R287, R576; log entry 70). -/
def State.rollbackIn (s : State) (t target epoch : Nat) (replay : Bool) (stop : Option (Nat × Nat × Bool)) : State :=
  let x := s.part t
  if s.loaded t = false then s
  else if s.suspended t then
    (s.broadcast t (s.children t) 0x013 (two target ++ [epoch + b2n replay * 4] ++ stopCells stop)).setRg Reg.LCK_STATUSt_epoch t
      epoch
  else
    let s := if x.atLock ∧ x.ready ∧ s.lockNo t = target ∧ s.slotOf t target = none then
        (s.commitActions t target (s.exportDue t target) none).modPart t fun y => { y with undoNow := [], logNow := [], badNow := [] }
      else s
    s.rollStart t target epoch replay stop

/-- The stop that a command carries. -/
def stopOf : ReplayStop → Option (Nat × Nat × Bool)
  | .none => Option.none
  | .at p d e => some (p.toNat, d.toNat, e)

/-- ROLLBACK. -/
def execRollback (t : Fin 16) (target : BitVec 24) (epoch : BitVec 2) (replay : Bool) (stop : ReplayStop) (s : State) :
    Host.Outcome State Fault Refusal :=
  done s (s.rollbackIn t.val target.toNat epoch.toNat replay (stopOf stop))

/-- ROLLBACK_GAP: the spacing is over, and a ROLLBACK that waited goes (R305). -/
def execRollbackGap (t : Fin 16) (s : State) : Host.Outcome State Fault Refusal :=
  done s (let x := s.part t.val
    let s' := s.setPart t.val { x with gapRunning := false, gapWaiting := none }
    if x.gapRunning then
      match x.gapWaiting with
      | some (target, replay, stop) => s'.startRollback t.val target replay stop
      | none => s'
    else s)

/-! ### Restoring (R302 actions 6 to 11) -/

/-- Undo pages of a list go back into their region pages, and are free again (R272). -/
def State.applyUndo (s : State) (t : Nat) (l : List Undo) : State :=
  let s := l.foldl (fun s u => match (s.part t).region u.region with
    | some g => match g.pages[u.page]? with
      | some phys => s.copyPage u.stack u.phys phys
      | none => s
    | none => s) s
  s.modPart t fun x => x.freeUndo l

/-- Slots above lock j, newest first. -/
def slotsAbove (l : List Ckpt) (j : Nat) : List Ckpt :=
  (l.filter fun k => poundLt j k.lock).foldr (fun k a =>
    (a.filter fun b => poundLt k.lock b.lock) ++ [k] ++ a.filter fun b => !poundLt k.lock b.lock) []

/-- Before a rollback to lock j rewrites pages, an export of a later lock has read the pages that it still needs (R310, R311; log entry
94). -/
def State.holdExport (s : State) (t j : Nat) : State :=
  let x := s.part t
  match x.exporting, x.exportD with
  | some k, none => if poundLt j k.lock then s.setPart t { x with exportD := some (s.segD t) } else s
  | _, _ => s

/-- Action 7, and the logs of the pounds above the target kept for re-execution. The slots above it are free again. -/
def State.unwind (s : State) (t j : Nat) : State :=
  let x := s.part t
  let above := slotsAbove x.ckpts j
  let s := s.holdExport t j
  let s := above.foldl (fun s k => s.writeDesc t k 0) s
  let s := s.applyUndo t x.undoNow
  let s := above.foldl (fun s k => s.applyUndo t k.segU) s
  let logs := above.foldl (fun (m : Tbl (List LogRec)) k => m.put k.lock k.segL) (x.logOld.put (s.pound t) x.logNow)
  let s := s.modPart t fun y => { y with undoNow := [], ckpts := y.ckpts.filter fun k => !poundLt j k.lock,
                                         outs := y.outs.filter fun o => !poundLt j o.pound }
  let s := s.modPart t fun y => { y with logOld := logs }
  let s := s.setRg Reg.LCK_CKPTt_newest t j
  if s.rg Reg.LCK_CKPT_OLDt_older t = j then s.setRg Reg.LCK_CKPT_OLDt_valid t 0 else s

/-- Action 9: trapped or breakpointed words come back from the golden copy, and their causes clear (R70). A word with neither copy left
stays trapped until they are rebuilt (R322). -/
def State.healTraps (s : State) (t : Nat) : State :=
  each (s.clustersOf t) (fun c s =>
    let w := if s.on Reg.CLU_CAUSE_fetch_trap c then s.rg Reg.CLU_FETCH_ERR_word c else s.rg Reg.CLU_TRAP_bp_word c
    if (s.on Reg.CLU_CAUSE_fetch_trap c ∨ s.on Reg.CLU_CAUSE_breakpoint c) ∧ s.goldGone t (s.goldWord c w) = false then
      let g := s.goldWord c w
      let s := s.putWordPm c w (Mem.getRun (s.part t).goldPm (72 * g) 72)
      ((s.setRg Reg.CLU_CAUSE_fetch_trap c 0).setRg Reg.CLU_CAUSE_breakpoint c 0).setRg Reg.CLU_FETCH_ERR_valid c 0
    else s) s

/-- Every RESTORED is in: a parent sends its own; the root resumes, falls back or suspends (R302, R306, R307). -/
def State.restoredAll (s : State) (t : Nat) : State :=
  let x := s.part t
  if x.restoreDone = false ∨ x.gapWaiting.isSome ∨ s.phase t ≠ 5 ∨ !((s.children t).all fun d => x.restored.any fun r => r.child = d) then s
  else
    let flags := x.restored.foldl (fun f r => Nat.lor f r.flags) x.restoreFlags
    if s.rootHere t then
      if bit flags 2 then
        let s := (lockCause s t Reg.LCK_CAUSEt_fallback).count Reg.LCK_CNT_ROLLBACKt_fallbacks t 1
        let lower := (x.target + 2 ^ 24 - 1) % 2 ^ 24
        if (s.slotOf t lower).isSome ∧ bit flags 4 = false then s.startRollback t lower x.replayRun x.replayStop
        else s.doSuspend t 2
      else if bit flags 3 then s.doSuspend t 1
      else
        let s := s.broadcast t (s.children t) 0x015 (two x.target ++ [s.epoch t] ++ stopCells x.replayStop)
        s.modPart t fun y => { y with reqPending := some true }
    else match s.parent t with
      | some d => s.message t d 0x014 (two x.target ++ [s.epoch t + flags] ++ [subtree x.restored % 4096])
      | none => s

/-- RESUME takes effect: issue begins at step 0, unless the partition stays Held (R302, R314, R447, R511). A replay with nothing to
re-execute is at its return point, and the partition is in Run. -/
def State.resumePart (s : State) (t : Nat) (stop : Option (Nat × Nat × Bool)) : State :=
  let s := s.modPart t fun y => { y with replayStop := stop, restoreDone := false, reqPending := none, bridge := [] }
  let s := lockCause s t Reg.LCK_CAUSEt_rollback_done
  let back := (decide (s.pmode t = 5) || decide (s.pmode t = 6)) && !s.on Reg.LCK_STATUSt_reexec t
  let s := if back then s.setMode t 2 else s
  let s := s.setPhase t (if s.replaying t then 7 else 1)
  (s.beginCycle t).settleHold t

/-- Root: RESUME has been sent down, so the root resumes too. -/
def State.rootResume (s : State) (t : Nat) : State :=
  let x := s.part t
  if s.rootHere t ∧ x.reqPending = some true ∧ s.phase t = 5 then s.resumePart t x.replayStop else s

/-- The device's own RESTORED: its restore is over, with the usability of the lock below (R302, R306). -/
def State.restoreOver (s : State) (t : Nat) : State :=
  let lower := ((s.part t).target + 2 ^ 24 - 1) % 2 ^ 24
  let s := s.modPart t fun y =>
    { y with restoreDone := true, restoreFlags := Nat.lor y.restoreFlags (b2n (!s.usable t lower) * 16) }
  ((s.setPhase t 5).restoredAll t).rootResume t

/-- Action 10, then RESTORED. Re-execution lasts while the horizon lies ahead (R298). -/
def State.restoreEnd (s : State) (t : Nat) : State :=
  let x := s.part t
  let pound := (x.target + 1) % 2 ^ 24
  let s := s.beginPound t pound
  let s := s.modPart t fun y =>
    { y with dcNumber := y.dcNumber + y.dcNumber % 2,
             inputs := y.inputs.map fun e => (e.1, { e.2 with queue := e.2.taken ++ e.2.queue, taken := [] }) }
  let ahead := x.horizonOn && !poundLt x.horizonPound pound
  let s := (s.setRg Reg.LCK_STATUSt_reexec t (b2n ahead)).modPart t fun y => { y with horizonOn := ahead }
  s.restoreOver t

/-- Region pages of a partition with an uncorrectable error: the region, the region page, and the page. -/
def State.badPages (s : State) (t : Nat) (readOnly : Bool) : List (Region × Nat × Nat) :=
  ((s.part t).regions.filter fun g => g.readOnly = readOnly).flatMap fun g =>
    (g.pages.zipIdx.map fun p => (g, p.2, g.stack * 2 ^ 22 + p.1)).filter fun e => s.pagesBad.contains e.2.2

/-- Keeper 0 rewrites a region page from DMEM_INIT in the container, with zeros where no record covers it (R158, R332). -/
def State.rewritePage (s : State) (t : Nat) (e : Region × Nat × Nat) : State :=
  let recs := (dmemInit (sections (s.part t).container)).filter fun r => r.1 = e.1.id
  let cells := (recs.flatMap fun r => placed r.2.1 r.2.2).filter fun c => c.1 / 2048 = e.2.1
  let s := { s with pagesBad := s.pagesBad.filter (· ≠ e.2.2) }.zeroPages [e.2.2]
  cells.foldl (fun s c => s.initCell e.1 c) s

/-- Action 7, and the pages that an uncorrectable error has hit: writable ones, which action 7 has rewritten, and read-only ones, which
keeper 0 rewrites, retire before RESTORED (R332). -/
def State.unwindPages (s : State) (t j : Nat) : State :=
  let bad := s.badPages t false
  let plain := s.badPages t true
  let s := (s.unwind t j).renewSlots t
  let s := bad.foldl (fun s e => s.retireInside e.2.2) s
  plain.foldl (fun s e => (s.rewritePage t e).retireInside e.2.2) s

/-- Actions 6 to 9; with no hook to wait for, action 10 follows. Substitutions come before segment C is restored (R337). A target that is not usable is reported and not restored: the
segments stay as they are for the next target (R272, R306). -/
def State.restoreActions (s : State) (t : Nat) : State :=
  let j := (s.part t).target
  match s.slotOf t j with
  | none => (s.modPart t fun x => { x with restoreFlags := Nat.lor x.restoreFlags 4 }).restoreOver t
  | some k =>
    if !s.usable t j then (s.modPart t fun x => { x with restoreFlags := Nat.lor x.restoreFlags 4 }).restoreOver t
    else
      let s := ((((s.restoreGauges t j).unwindPages t j).armedRoles t).relieveAll t false).restoreC t k.segC
      let s := each (s.clustersOf t) (fun c s => s.modClu c fun x => { x with latchLoad := true }) (s.newCycles t)
      let s := each (s.part t).bound (fun r s => s.modRch r Reach.newCycle) s
      let s := (s.healTraps t).restoreK (k.segK.length) k.segK
      let s := s.openHooks t
      if (s.part t).hooksOpen = [] then s.restoreEnd t else s

/-- RESTORE_COMPLETE. -/
def execRestoreComplete (t : Fin 16) (s : State) : Host.Outcome State Fault Refusal :=
  done s (if s.phase t.val = 4 ∧ (s.part t.val).restoreDone = false ∧ (s.part t.val).hooksOpen = [] then
      s.restoreActions t.val
    else s)

/-- RESTORED received (R306). -/
def State.restoredIn (s : State) (t child target epoch flags devices : Nat) : State :=
  let x := s.part t
  if target ≠ x.target ∨ epoch ≠ s.epoch t ∨ (s.phase t ≠ 4 ∧ s.phase t ≠ 5) ∨ !(s.children t).contains child then s
  else
    ((s.setPart t { x with restored := (x.restored.filter fun r => r.child ≠ child) ++ [⟨child, flags, 0, devices⟩] }).restoredAll
      t).rootResume t

/-- RESTORED. -/
def execRestored (t : Fin 16) (child : Cell) (target : BitVec 24) (epoch : BitVec 2) (unusable early olderUnusable : Bool)
    (devices : Cell) (s : State) : Host.Outcome State Fault Refusal :=
  done s (s.restoredIn t.val child.toNat target.toNat epoch.toNat (b2n unusable * 4 + b2n early * 8 + b2n olderUnusable * 16)
    devices.toNat)

/-- RESUME received: from a restore, or to the next stop of a replay, in Readback or on the way to the last one (R302, R313, R430). A partition that has stopped at its
return point leaves Replay for Run, with a lock flight that has begun going on (R314). -/
def State.resumeIn (s : State) (t target epoch : Nat) (stop : Option (Nat × Nat × Bool)) : State :=
  let x := s.part t
  if target ≠ x.target ∨ epoch ≠ s.epoch t then s
  else if s.phase t = 5 then
    (s.broadcast t (s.children t) 0x015 (two target ++ [epoch] ++ stopCells stop)).resumePart t stop
  else if s.pmode t = 5 then
    (s.broadcast t (s.children t) 0x015 (two target ++ [epoch] ++ stopCells stop)).modPart t fun y => { y with replayStop := stop }
  else if s.pmode t = 6 then
    let s := s.broadcast t (s.children t) 0x015 (two target ++ [epoch] ++ stopCells stop)
    let s := s.modPart t fun y => { y with replayStop := stop }
    if s.on Reg.LCK_STATUSt_reexec t then s.setMode t 5
    else
      let s := s.setMode t 2
      if s.phase t = 7 then s.setPhase t 1 else s
  else s

/-- RESUME. -/
def execResume (t : Fin 16) (target : BitVec 24) (epoch : BitVec 2) (stop : ReplayStop) (s : State) :
    Host.Outcome State Fault Refusal :=
  done s (s.resumeIn t.val target.toNat epoch.toNat (stopOf stop))

/-! ### Capture and arrival (R281 to R283, R287, R291) -/

/-- Berths of kind device and bridge are empty and every outstanding bit is 0 (R202). -/
def State.drained (s : State) (t : Nat) : Bool :=
  (s.part t).bound.all fun r =>
    decide ((s.rch r).outstanding = []) && decide ((s.rch r).clrBad = []) && decide ((s.rch r).handoff = []) &&
      (s.rch r).berths.all fun e => !e.2.valid || (let k := (s.berthMap r (e.1 / 2)).1; decide (k ≠ 1) && decide (k ≠ 2))

/-- No released output of an earlier pound waits for the output queue (R438). -/
def State.outputsGone (s : State) (t : Nat) : Bool :=
  (s.queue (qid t 3)).held.all fun e => decide (sliceLe e.bytes 0 4 = s.pound t)

/-- Once ready and with every child's ARRIVE, a device sends its own; the root commits or rolls back (R287, R290). A REQ is pending
while its ROLLBACK waits for the gap (R305). A start flight in which a device names another lock ends with SUSPEND, reason 4: each device
on the way up passes the wrong lock number on (R433). -/
def State.tryArrive (s : State) (t : Nat) : State :=
  let x := s.part t
  if !x.atLock ∨ !x.ready ∨ s.phase t ≠ 2 ∨ !s.outputsGone t ∨
      !((s.children t).all fun d => x.arrived.any fun a => a.child = d) then s
  else
    let flags := x.arrived.foldl (fun f a => Nat.lor f a.flags) (b2n x.captureFail + b2n (s.on Reg.LCK_STATUSt_released t) * 2)
    let lock := ((x.arrived.find? fun a => a.lock ≠ s.lockNo t).map (·.lock)).getD (s.lockNo t)
    let wrong := decide (lock ≠ s.lockNo t)
    let s := (s.modPart t fun y => { y with arriveAt := s.power.time }).setPhase t 3
    if s.rootHere t then
      if wrong then s.doSuspend t 4
      else if bit flags 0 then s.startRollback t (s.newest t) false none
      else if x.gapWaiting.isSome then s
      else s.commitLock t lock (s.exportDue t lock) s.power.time 0 0
    else match s.parent t with
      | some d => s.message t d 0x010 (two lock ++ [flags] ++ [subtree x.arrived % 4096])
      | none => s

/-- A capture that has failed: the cause, and ARRIVE with capture_fail (R283). -/
def State.failCapture (s : State) (t : Nat) : State :=
  (lockCause s t Reg.LCK_CAUSEt_capture_fail).modPart t fun x => { x with captureFail := true }

/-- The writes of segment C or K that HBM failed: after the first it goes into fresh ledger buffers, after the second, or with none to
be had, the capture has failed (R283). -/
def State.retrySegment (s : State) (t seg fails : Nat) : State :=
  if fails = 0 then s
  else
    let x := s.part t
    let r := s.renewSegment t { x with ckpts := x.ckpts.filter fun c => c.committed }.freeSlot seg
    if r.1 ∧ fails = 1 then r.2 else r.2.failCapture t

/-- Actions 5 and 6: segment K is in the ledger, the slot is written with state 1, and the device is ready (R270, R281, R283). -/
def State.sealSlot (s : State) (t : Nat) : State :=
  let s := (s.retrySegment t 1 (s.part t).failsK).modPart t fun x => { x with ready := true, ckpts := x.ckpts.filter fun c => c.committed }
  let x := s.part t
  let k : Ckpt := { lock := s.lockNo t, committed := false, start := x.starting, exported := false,
                    released := s.on Reg.LCK_STATUSt_released t,
                    epoch := s.epoch t, segC := x.segC, segK := x.segK, segU := if x.starting then [] else x.undoNow,
                    segL := if x.starting then [] else x.logNow, bad := if x.starting then [] else x.badNow,
                    slot := x.freeSlot }
  ((s.setPart t { x with ckpts := x.ckpts ++ [k] }).writeSlot t k).tryArrive t

/-- Segment C on its way through the staging buffers: the armed flip meets the first register of the first record. The flag says that
the cell fails parity, and with it the capture (R283, R319, R346). -/
def State.stageC (s : State) (l : List Byte) : (List Byte × Bool) × State :=
  if l = [] then ((l, false), s)
  else
    let d := s.flip 9 0 0 12 (sliceLe l 8 2)
    ((l.take 8 ++ leBytes 2 d.1 ++ l.drop 10, oddOnes 13 d.1),
      { d.2 with buffers9 := Mem.put d.2.buffers9 0 (BitVec.ofNat 13 d.1) })

/-- Action 1: issued writes complete, and the gauges see them (R54, R493). The dirty lines of the partition's reaches go home, so that a
rollback, which empties the caches, finds in HBM what the pound has written (R169, R176; log entry 93). -/
def State.completeAll (s : State) (t : Nat) : State :=
  let r := (s.clustersOf t).foldl (fun (a : State × List Seen) c =>
    let b := a.1.completeWrites c
    (b.1, a.2 ++ b.2)) (s, [])
  let w := r.1.watch r.2
  each (s.part t).bound (fun r s => s.writeBack r) (w.1.resolveFires t (s.steps t - 1) w.2)

/-- Actions 1, 3 and 4 (R281, R283). `failsC` and `failsK` count the attempts to write the segments that HBM failed. -/
def State.capture (s : State) (t failsC failsK : Nat) : State :=
  let s := s.completeAll t
  match s.captureBad t with
  | some (c, .inl n) => ((s.tally true 0 1 c n).cluStop c Reg.CLU_CAUSE_vm_parity).askRollback t 0
  | some (c, .inr n) => ((s.tally true 0 2 c n).cluStop c Reg.CLU_CAUSE_reg_parity).askRollback t 0
  | none =>
    let d := s.stageC (s.captureC t)
    let bad := d.1.2
    let s := d.2.modPart t fun x => { x with segC := d.1.1, segK := [], captured := true, failsK := failsK }
    let s := s.setRg Reg.LCK_FLIGHTt_capture t (Config.freeWord s.freeCtr).toNat
    let s := { s with freeCtr := s.freeCtr + 1 }
    let s := if bad then (s.tally true 0 9 0 0).failCapture t else s.retrySegment t 0 failsC
    let s := (s.setPhase t 2).openHooks t
    if (s.part t).hooksOpen = [] then s.sealSlot t else s

/-- The partition stands at a lock that it may capture: berths are drained (R202), and every read and write issued is complete
(R54, R281). -/
def State.mayCapture (s : State) (t : Nat) : Bool :=
  (s.part t).atLock && !(s.part t).captured && (decide (s.phase t = 1) || decide (s.phase t = 7)) && s.drained t &&
    ((s.part t).bound.all fun r => (s.rch r).wb.isEmpty) &&
    (s.clustersOf t).all fun c => (s.clu c).reads.all fun x => x.arrived

/-- LOCK_CAPTURE. -/
def execLockCapture (t : Fin 16) (fails : Nat × Nat) (s : State) : Host.Outcome State Fault Refusal :=
  done s (if s.mayCapture t.val then s.capture t.val fails.1 fails.2 else s)

/-- ARRIVE received (R287). Before its own start flight ends a device keeps a child's ARRIVE, whatever lock it names: the child may have
left Loading first, or have been restored from another lock (R432, R433). -/
def State.arriveIn (s : State) (t child lock flags devices : Nat) : State :=
  let x := s.part t
  if (lock ≠ s.lockNo t ∧ s.pmode t ≠ 1) ∨ !(s.children t).contains child ∨ s.suspended t then s
  else
    (s.setPart t { x with arrived := (x.arrived.filter fun a => a.child ≠ child) ++ [⟨child, flags, lock, devices⟩] }).tryArrive t

/-- ARRIVE. -/
def execArrive (t : Fin 16) (child : Cell) (lock : BitVec 24) (captureFail early : Bool) (devices : Cell) (s : State) :
    Host.Outcome State Fault Refusal :=
  done s (s.arriveIn t.val child.toNat lock.toNat (b2n captureFail + b2n early * 2) devices.toNat)

/-- COMMIT received: at the lock it names, once ready (R288). -/
def State.commitIn (s : State) (t lock : Nat) (export_ : Bool) (rootTime delay elapsed : Nat) : State :=
  if (s.part t).atLock ∧ (s.part t).ready ∧ s.phase t = 3 ∧ lock = s.lockNo t then
    s.commitLock t lock export_ rootTime delay elapsed
  else s

/-- COMMIT. -/
def execCommit (t : Fin 16) (lock : BitVec 24) (export_ : Bool) (rootTime delay elapsed : Nat) (s : State) :
    Host.Outcome State Fault Refusal :=
  done s (s.commitIn t.val lock.toNat export_ rootTime delay elapsed)

/-- The lock unit copies the ranges of every list into segment K, keeper by keeper (R279, R381). -/
def State.copyRanges (s : State) (t : Nat) : State :=
  let l := (s.part t).hookLists
  if l = [] then s
  else s.modPart t fun x => { x with hookLists := [], segK := (List.range 4).flatMap fun k =>
    (l.filter fun e => e.1 = k).flatMap fun e => (s.kpr k).recordsK k e.2 }

/-- The hook of keeper k has been answered or has failed; the capture or restore goes on when no hook is left (R381). -/
def State.hookEnded (s : State) (t k : Nat) : State :=
  let s := s.closeHook t k
  if (s.part t).hooksOpen ≠ [] then s
  else if s.phase t = 4 then s.restoreEnd t
  else if s.phase t = 2 ∧ (s.part t).captured ∧ !(s.part t).ready then (s.copyRanges t).sealSlot t
  else if s.phase t = 0 then s.closeCmds t 11
  else s

/-! ### Bridges (R292) -/

/-- REJOIN: every value of the net slot that no clear has answered goes again, oldest first, in the new epoch. -/
def State.rejoinIn (s : State) (t tag epoch : Nat) : State :=
  (s.part t).bound.foldl (fun s r =>
    match (s.part t).bridge.get (4096 * r + tag) [] with
    | [] => s
    | l => match s.readNsm t r tag with
      | (some e, s) => l.foldl (fun s v =>
          s.sendValue t (bits e 22 12) (bits e 0 12) tag v.1.toNat (bits e 16 5) (b2n v.2) epoch) s
      | (none, s) => s) s

/-- REJOIN. -/
def execRejoin (t : Fin 16) (tag : Cell) (epoch : BitVec 2) (s : State) : Host.Outcome State Fault Refusal :=
  done s (if s.loaded t.val ∧ epoch.toNat = s.epoch t.val then s.rejoinIn t.val tag.toNat epoch.toNat else s)

/-! ### Export (R311, R312, R440) -/

/-- EXPORT_DONE: the stream of the lock, whose slot may be gone by now, is in the export area, or found too few free pages
(R310 to R312). -/
def State.exportEnd (s : State) (t : Nat) : State :=
  match (s.part t).exporting with
  | none => s
  | some k =>
    let x := s.part t
    let d := x.exportD.getD (s.segD t)
    let held := x.undoNow ++ x.ckpts.flatMap (·.segU)
    let idle := (x.undoPinned.filter fun u => !held.any fun w => w.stack = u.stack ∧ w.phys = u.phys).map fun u => (u.stack, u.phys)
    let s := (s.setRg Reg.LCK_EXPORTt_busy t 0).setPart t
      { x with exporting := none, exportD := none, undoFree := x.undoFree ++ idle, undoPinned := [] }
    let l := s.exportStream t k d
    let first := s.rg Reg.WHF_QCFG_dptr (qid t 4)
    match s.areaPut t 4 l with
    | some s =>
      let s := match s.slotOf t k.lock with
        | some c =>
          let mark := fun (c : Ckpt) => if c.lock = k.lock then { c with exported := true } else c
          (s.modPart t fun y => { y with ckpts := y.ckpts.map mark }).writeDesc t (mark c) c.code
        | none => s
      (lockCause (s.setRg Reg.LCK_EXPORTt_lock t k.lock) t Reg.LCK_CAUSEt_export_done).complete t 0xFFFF 0 3 k.lock first l.length
    | none => (lockCause s t Reg.LCK_CAUSEt_export_done).complete t 0xFFFF 0x14 3 k.lock 0 0

/-- EXPORT_DONE. -/
def execExportDone (t : Fin 16) (s : State) : Host.Outcome State Fault Refusal := done s (s.exportEnd t.val)

/-! ### LCK_CMD (R300, R313, R314, R576) -/

/-- A page that a partition holds: of a region, an undo page, or under one of its ledger buffers (R321, R327). -/
def State.holdsPage (s : State) (t p : Nat) : Bool :=
  let x := s.part t
  x.hasPage p || x.hasUndo p || (x.undoFree.any fun u => decide (u.1 * 2 ^ 22 + u.2 = p)) ||
    x.buffers.any fun b => decide (s.bufAddr b / 4096 = p)

/-- Pages of a partition whose uncorrectable report hbm_uc of their stack latches (R321). -/
def State.ucPages (s : State) (t : Nat) : List Nat :=
  s.pagesUc.filter fun p => s.on (ucField (p / 2 ^ 22)) && s.holdsPage t p

/-- The cause code of what is latched on this device for the partition (R286, R300, R321). -/
def State.latchedCause (s : State) (t : Nat) : Option Nat :=
  let bound := (s.part t).bound
  if s.on Reg.LCK_CAUSEt_capture_fail t then some 3
  else if (bound.any fun r => s.reachCaused r) ∨
      ((s.clustersOf t).any fun c => Nat.land (s.cluCause c) 0x7C ≠ 0) ∨ s.ucPages t ≠ [] then some 0
  else if bound.any fun r => s.on Reg.RCH_BCAUSE_watchdog r then some 1
  else if (List.range 16).any fun l => s.on Reg.AQ_CAUSE_retired l then some 2
  else none

/-- The cause that keeper 0's REQ names: what is latched, or what it has cleared since, as R321 bids it (R286). -/
def State.reqCause (s : State) (t : Nat) : Nat := (s.latchedCause t).getD ((s.part t).reqWhy.getD 4)

/-- The causes that a register write has cleared, kept for the REQ that follows (R321). -/
def State.noteCauses (s0 s : State) : State :=
  each (which 16 s.loaded) (fun t s => match s0.latchedCause t, s.latchedCause t with
    | some c, none => s.modPart t fun x => { x with reqWhy := some c }
    | _, _ => s) s

/-- The stop that the LCK_RPL registers name. -/
def State.rplStop (s : State) (t : Nat) : Option (Nat × Nat × Bool) :=
  if s.on Reg.LCK_RPL_DCt_none t then none
  else some (s.rg Reg.LCK_RPL_POUNDt_pound t, s.rg Reg.LCK_RPL_DCt_dcycle t, s.on Reg.LCK_RPL_DCt_every t)

/-- A replay stop beyond the return point is refused (R314): the point is the horizon, or for a partition in Run what has begun. -/
def State.stopOk (s : State) (t : Nat) : Bool :=
  match s.rplStop t with
  | none => true
  | some (p, d, _) =>
    let force := (s.part t).horizonOn || decide (s.pmode t = 5) || decide (s.pmode t = 6)
    let hp := if force then (s.part t).horizonPound else s.pound t
    let h := if force then s.rg Reg.LCK_HORIZONt_h t else s.dcycle t
    poundLt p hp || (decide (p = hp) && decide (d ≤ h))

/-- Op 4 (R313). -/
def State.replayStart (s : State) (t : Nat) : State :=
  let from_ := s.rg Reg.LCK_RPL_FROMt_lock t
  if s.rootHere t ∧ (s.pmode t = 2 ∨ s.pmode t = 3) ∧ (s.slotOf t from_).isSome ∧ s.stopOk t then
    s.startRollback t from_ true (s.rplStop t)
  else s

/-- Ops 5 and 6: RESUME to the next stop, or to the return point (R313); a partition that still replays takes the new stop, which the
RESUME that ends a restore under way then carries (R302, R430). -/
def State.replayGo (s : State) (t : Nat) (stop : Option (Nat × Nat × Bool)) : State :=
  if s.rootHere t = false ∨ (s.pmode t ≠ 5 ∧ s.pmode t ≠ 6) then s
  else if s.phase t = 4 ∨ s.phase t = 5 then s.modPart t fun x => { x with replayStop := stop }
  else s.resumeIn t (s.part t).target (s.epoch t) stop

/-- Op 3 (R576). -/
def State.suspendShare (s : State) (t : Nat) : State := s.suspendHere t 4

/-- Partitions with a region, undo page or checkpoint buffer on a stack (R327). -/
def State.usesStack (s : State) (t k : Nat) : Bool :=
  let x := s.part t
  (x.regions.any fun g => decide (g.stack = k)) || (x.undoFree.any fun u => decide (u.1 = k)) ||
    (x.undoNow.any fun u => decide (u.stack = k)) || (x.ckpts.any fun c => c.segU.any fun u => decide (u.stack = k)) ||
    (x.slots.any fun v => (v.desc :: (v.data ++ v.lists).flatten).any fun b => decide (b / 32768 = k))

/-- HBM_STACK_UNRESPONSIVE: every partition that uses the stack is suspended with reason 2 (R327). -/
def execHbmStackUnresponsive (stack : Fin 2) (s : State) : Host.Outcome State Fault Refusal :=
  done s (each (which 16 fun t => s.loaded t && s.usesStack t stack.val) (fun t s => s.suspendHere t 2) s)

/-- The devices that a partition waits for at its lock: children whose ARRIVE is out, or the parent for COMMIT (R291). -/
def State.awaited (s : State) (t : Nat) : List Nat :=
  if s.phase t = 2 then (s.children t).filter fun d => !(s.part t).arrived.any fun a => a.child = d
  else (s.parent t).toList

/-- FLIGHT_TIMEOUT: a wait at a lock, for a child's ARRIVE or for COMMIT, exceeds its limit; it continues (R291). Keeper 0 checks the
routes: with one of them unreachable the lock tree is broken, and it suspends the share with reason 4 (R340). -/
def State.flightTimeout (s : State) (t : Nat) : State :=
  let x := s.part t
  if x.atLock ∧ x.ready ∧ (s.phase t = 2 ∨ s.phase t = 3) then
    let s := (lockCause s t Reg.LCK_CAUSEt_flight_timeout).alarm t (srcOf 4 t) 0x002 (s.lockNo t)
    if (s.awaited t).all fun d => (s.route d).isSome then s
    else (s.suspendHere t 4).postFault t 6 0 0
  else s

/-- FLIGHT_TIMEOUT. -/
def execFlightTimeout (t : Fin 16) (s : State) : Host.Outcome State Fault Refusal := done s (s.flightTimeout t.val)

/-- An operation of LCK_CMDt. -/
def State.lckOp (s : State) (t op : Nat) : State :=
  match op with
  | 1 => if s.suspended t ∨ s.loaded t = false then s else s.sendReq t false false (s.reqCause t)
  | 2 => if s.suspended t ∨ s.loaded t = false then s else s.sendReq t true false (s.reqCause t)
  | 3 => s.suspendShare t
  | 4 => s.replayStart t
  | 5 => if s.stopOk t then s.replayGo t (s.rplStop t) else s
  | 6 => s.replayGo t none
  | _ => s

/-- LCK_CMDt of tenant t. -/
def State.wLckCmd (s : State) (t : Nat) (v : Word) : State :=
  if Reg.LCK_CMDt_go.of v = 1 then s.lckOp t (Reg.LCK_CMDt_op.of v) else s

/-- A write of LCK_CMDt with go and an op. -/
def State.lckCmd (s : State) (who : Requester) (t op : Nat) : State :=
  s.asWriter who (Reg.LCK_CMDt.addr + 0x40 * t) fun s => s.wLckCmd t (BitVec.ofNat 32 (2 ^ 31 + op))

/-- REQ_NEWEST. -/
def execReqNewest (who : Requester) (t : Fin 16) (s : State) : Host.Outcome State Fault Refusal :=
  done s (s.lckCmd who t.val 1)

/-- REQ_OLDER. -/
def execReqOlder (who : Requester) (t : Fin 16) (s : State) : Host.Outcome State Fault Refusal :=
  done s (s.lckCmd who t.val 2)

/-- SUSPEND_SHARE. -/
def execSuspendShare (who : Requester) (t : Fin 16) (s : State) : Host.Outcome State Fault Refusal :=
  done s (s.lckCmd who t.val 3)

/-- REPLAY_START. -/
def execReplayStart (who : Requester) (t : Fin 16) (s : State) : Host.Outcome State Fault Refusal :=
  done s (s.lckCmd who t.val 4)

/-- REPLAY_CONTINUE. -/
def execReplayContinue (who : Requester) (t : Fin 16) (s : State) : Host.Outcome State Fault Refusal :=
  done s (s.lckCmd who t.val 5)

/-- REPLAY_TO_RETURN_POINT. -/
def execReplayToReturnPoint (who : Requester) (t : Fin 16) (s : State) : Host.Outcome State Fault Refusal :=
  done s (s.lckCmd who t.val 6)

/-! ### The lock tree and counters (R317) -/

/-- Address after an access. -/
def State.treeNext (s : State) (who : Requester) : State :=
  let k := copyOf who
  if s.rgw Reg.LCK_TREE_ADDR_autoinc k = 1 then
    let i := s.rgw Reg.LCK_TREE_ADDR_index k
    s.setRgw Reg.LCK_TREE_ADDR_index k 0 (if 16 ≤ i then 0 else i + 1)
  else s

/-- The tree entry that a requester addresses. -/
def State.treeSel (s : State) (who : Requester) : Option Nat :=
  let i := s.rgw Reg.LCK_TREE_ADDR_index (copyOf who)
  if i < 17 then some (17 * s.rgw Reg.LCK_TREE_ADDR_tenant (copyOf who) + i) else none

/-- LCK_TREE_DATA, written: a write refused by its class does not move the index. -/
def State.wTree (s : State) (who : Requester) (v : Word) : State :=
  match s.treeSel who with
  | some i => s.classWrite Reg.LCK_TREE_DATA who i Reg.LCK_TREE_DATA.addr v fun s =>
      (s.writeFields Reg.LCK_TREE_DATA who i v).treeNext who
  | none => s

/-- LCK_TREE_DATA, read. -/
def State.rTree (s : State) (who : Requester) : State :=
  match s.treeSel who with
  | some i => ((s.answer (s.readFields Reg.LCK_TREE_DATA who i))).treeNext who
  | none => s.answer 0

/-- LCK_TREE_DATA. -/
def execLckTreeData (who : Requester) (access : Option Word) (s : State) : Host.Outcome State Fault Refusal :=
  done s (match access with
    | some v => s.asWriter who Reg.LCK_TREE_DATA.addr fun s => s.wTree who v
    | none => s.asReader who Reg.LCK_TREE_DATA.addr fun s => s.rTree who)

/-- LCK_CNT_ROLLBACKt. -/
def execLckCntRollback (who : Requester) (t : Fin 16) (s : State) : Host.Outcome State Fault Refusal :=
  done s (s.asReader who (Reg.LCK_CNT_ROLLBACKt.addr + 0x40 * t.val) fun s => s.readClear Reg.LCK_CNT_ROLLBACKt who t.val)

end Sys2Proof.Machine
end

