-- ==== Sys2Proof/Machine/Modes.lean ====
section
/-!
DEFINITION. Sys2Proof/Machine/Modes.lean: wake causes (R530, R531), Repair and the fatal conditions
(R507, R527, R528).
-/
namespace Sys2Proof.Machine

/-! ### Alarms of the device, commands ended -/

/-- A keeper runs. -/
def State.keeperRuns (s : State) : Bool := (List.range 4).any fun k => s.on Reg.KPR_CTRL_run k

/-- A device alarm of the power block (R525, R526). -/
def State.powerAlarm (s : State) (code data : Nat) : State := s.alarm 16 (srcOf 12 0) code data

/-- Alarm 0x00D, which keeper 0 raises: none where no keeper runs (R507, R528). -/
def State.repairAlarm (s : State) (code : Nat) : State := if s.keeperRuns then s.powerAlarm 0x00D code else s

/-- Every command of a tenant that is read or in execution completes with a status. -/
def State.endCommands (s : State) (t status : Nat) : State :=
  let s := s.dropOpen t status
  (s.fetched.get t []).foldl (fun s e => s.finish t (BitVec.ofNat 16 (e.toNat / 2 ^ 16)) status) { s with fetched := s.fetched.put t [] }

/-! ### Repair (R507) -/

/-- The device enters Repair: no partition issues from here on, partitions that span devices are suspended, and alarm 0x00D goes. -/
def State.enterRepair (s : State) : State :=
  let s := s.setRg Reg.PWR_MODE_mode 0 3
  let s := each (List.range 16) (fun t s => if s.loaded t then s.endCommands t 0x10 else s) s
  let s := if s.keeperRuns then each (which 16 fun t => s.loaded t && s.multi t) (fun t s => s.suspendShare t) s else s
  s.repairAlarm (s.rg Reg.AON_STAT_fatal)

/-- PWR_RST.stage: the lowest-numbered step not complete; 8 after the last (R515). -/
def State.stage (s : State) : Nat :=
  ((List.range 9).find? fun k => decide (1 ≤ k) && !s.power.bringUp.contains k).getD 8

/-- A bring-up step fails (R516). -/
def State.bringUpFails (s : State) (error : Nat) : State :=
  (s.setRg Reg.PWR_RST_error 0 error).enterRepair

/-! ### Wake causes (R530, R531) -/

/-- Latch a wake cause in AON_WAKE and AON_WAKE_LAST. -/
def State.latchWake (s : State) (i : Nat) : State :=
  let v := Nat.lor (s.rg Reg.AON_WAKE_cause) (2 ^ i)
  (s.setRg Reg.AON_WAKE_cause 0 v).setRg Reg.AON_WAKE_LAST_cause 0 v

/-- Domains that a wake from Standby-retain restores: those of bound reaches, and 28 to 34. -/
def State.wakeDomains (s : State) : List Nat :=
  which 24 (fun r => s.on Reg.RCH_OWNER_bound r) ++ [28, 29, 30, 31, 32, 33, 34]

/-- A PME, if the PF is in D3hot (R530). -/
def State.sendPme (s : State) : State :=
  if (s.fn 0).d3hot then
    { s.setFn 0 { s.fn 0 with pmeStatus := true } with power := { s.power with pmeSent := s.power.pmeSent + 1 } }
  else s

/-- A wake in Standby-aux: WAKE# is asserted, while PERST# is (R530, R531). -/
def State.wakeAux (s : State) : State :=
  { s with power := if s.power.perst then { s.power with wakePin := true } else { s.power with standbyAux := true } }

/-! ### Fatal conditions (R527, R528) -/

/-- A fatal condition in each device mode; the loss of the system role sends the fatal source to the host (R403). -/
def State.fatal (s : State) (code : Nat) : State :=
  let s := if code = 1 then s.setDomains (List.range 28) 0 else s
  let s := State.hostNotice s ({ s.setRg Reg.AON_STAT_fatal 0 code with
      power := { s.power with roleLost := s.power.roleLost || decide (code = 3) } }.modSrc 16 fun x => x.rise s.nextTurn)
  match s.mode with
  | 0 => (s.setRg Reg.PWR_RST_stage 0 s.stage).bringUpFails 6
  | 3 => s.repairAlarm code
  | 4 => s
  | 5 =>
    if s.rg Reg.PWR_MODE_depth = 0 then
      let keep := if code = 1 then [28, 29, 30, 31, 32, 33, 34] else s.wakeDomains
      ((s.setDomains keep 1).sendPme).enterRepair
    else s.wakeAux
  | _ => s.enterRepair

end Sys2Proof.Machine
end

