-- ==== Sys2Proof/Machine/Kpr.lean ====
section
/-!
DEFINITION. Sys2Proof/Machine/Kpr.lean: a keeper's memories, stacks, events and resets (R347 to R383), and the KPR registers.
-/
namespace Sys2Proof.Machine

/-- A fault of a keeper: its code and detail (R375), the unit that failed parity, if that is the cause, and the keeper whose
memory it is, where that is another one (R357, space 5). -/
structure KErr where
  code : Nat
  detail : Nat
  par : Option Nat := none
  of : Option Nat := none
  deriving DecidableEq, Repr

/-! ### Memories (R348, R379). A class-8 unit is numbered by memory: the manual gives TST_ELOG_B no layout for class 8. -/

def unitProg (w : Nat) : Nat := w
def unitDs (i : Nat) : Nat := 0x20000 + i
def unitRs (i : Nat) : Nat := 0x30000 + i
def unitTbl (n i c : Nat) : Nat := 0x40000 + 4096 * n + 8 * i + c
def unitItt (i : Nat) : Nat := 0x50000 + i

/-- Write a cell of local data. -/
def State.putData (s : State) (k a : Nat) (c : Cell) : State :=
  let d := s.flipCell 8 k (unitData a) c
  d.2.modKpr k fun x => { x with data := Mem.put x.data a d.1 }

/-- Read a cell of local data. -/
def State.getData (s : State) (k a : Nat) : Except KErr Cell :=
  let x := Mem.get (s.kpr k).data a
  if parityOk x then .ok (cellOf x) else .error ⟨5, 1, some (unitData a), none⟩

/-- Write a cell of an internal table; the system keeper keeps a copy (R380). -/
def State.putTbl (s : State) (k n i c : Nat) (v : Cell) : State :=
  let d := s.flipCell 8 k (unitTbl n i c) v
  d.2.modKpr k fun x => { x with tbl := Mem.put x.tbl (4096 * n + 8 * i + c) (BitVec.ofNat 14 (d.1.toNat + b2n x.image * 2 ^ 13)),
                                 tblCopy := Mem.put x.tblCopy (4096 * n + 8 * i + c) v }

/-- Cell a of keeper k's tables: as written since bring-up step 6, or as the boot ROM has it. Table 9 and entry 0 of table 5 are not of the
image (R392, R515). -/
def State.tblCell (s : State) (k a : Nat) : Cell :=
  let u := Mem.get (s.kpr k).tbl a
  if (s.kpr k).image ∧ u.getLsbD 13 = false ∧ a < 36864 ∧ a / 8 ≠ 2560 then Config.bootTable k a else cellOf (u.setWidth 13)

/-- The cell passes parity: a cell of the image does (R379). -/
def Keeper.tblSound (x : Keeper) (a : Nat) : Bool := parityOk ((Mem.get x.tbl a).setWidth 13)

/-- Parity fault of a table (R379). -/
def tblFault (n : Nat) : Nat × Nat := if n = 6 ∨ n = 7 then (6, 0) else if n = 9 then (4, 63) else (2, 63)

/-- Read a cell of an internal table. -/
def State.getTbl (s : State) (k n i c : Nat) : Except KErr Nat :=
  let a := 4096 * n + 8 * i + c
  if (s.kpr k).tblSound a then .ok (s.tblCell k a).toNat else .error ⟨(tblFault n).1, (tblFault n).2, some (unitTbl n i c), none⟩

/-- Write a program word with fresh parity (R359). -/
def State.putProg (s : State) (k w v : Nat) : State :=
  let v := v % 2 ^ 14
  let d := s.flip 8 k (unitProg w) 14 (v + b2n (oddOnes 14 v) * 2 ^ 14)
  d.2.modKpr k fun x => { x with prog := Mem.put x.prog w (BitVec.ofNat 16 (d.1 + b2n x.image * 2 ^ 15)) }

/-- Word w of program memory: as written since bring-up step 6, or as the boot ROM's upper half has it (R514). -/
def Keeper.progWord (x : Keeper) (w : Nat) : Nat :=
  let u := (Mem.get x.prog w).toNat
  if x.image ∧ u < 2 ^ 15 then (Config.bootRom (32768 + w)).toNat else u % 2 ^ 14

/-- The word fails parity: one of the image does not (R379). -/
def Keeper.progBad (x : Keeper) (w : Nat) : Bool := oddOnes 15 (Mem.get x.prog w).toNat

/-- A return entry with its two parity bits; the flip meets the low cell (R346). -/
def State.sealEntry (s : State) (k pos v : Nat) : BitVec 26 × State :=
  let d := s.flipCell 8 k (unitRs pos) (BitVec.ofNat 12 v)
  let lo := d.1.toNat
  let hi := v / 4096 % 4096
  (BitVec.ofNat 26 (lo % 4096 + hi * 4096 + lo / 4096 * 2 ^ 24 + b2n (oddOnes 12 hi) * 2 ^ 25), d.2)

/-- Both halves of a return entry pass. -/
def entryParity (e : BitVec 26) : Bool :=
  let v := e.toNat
  !(oddOnes 12 v != bit v 24) && !(oddOnes 12 (v / 4096) != bit v 25)

/-! ### RG (R351) -/

def Keeper.ring (x : Keeper) : Nat := x.rg.toNat % 4
def Keeper.ie (x : Keeper) : Bool := bit x.rg.toNat 2
def Keeper.dfl (x : Keeper) : Bool := bit x.rg.toNat 3
def Keeper.set (x : Keeper) : Nat := bits x.rg.toNat 4 3
def Keeper.tenant (x : Keeper) : Nat := bits x.rg.toNat 8 4

/-- RG from its fields. -/
def rgOf (ring : Nat) (ie dfl : Bool) (set tenant : Nat) : Cell :=
  BitVec.ofNat 12 (ring % 4 + b2n ie * 4 + b2n dfl * 8 + set % 8 * 16 + tenant % 16 * 256)

/-- RG with another stack set. -/
def Keeper.withSet (x : Keeper) (set : Nat) : Keeper := { x with rg := rgOf x.ring x.ie x.dfl set x.tenant }

/-! ### Stacks (R352, R353) -/

/-- A 16-bit base held in two cells of a stack set. -/
def State.setBase (s : State) (k set c : Nat) : Except KErr Nat := do
  let lo ← s.getTbl k 1 set c
  let hi ← s.getTbl k 1 set (c + 1)
  pure (lo + hi % 16 * 4096)

/-- Where data-stack position i lies in local data. -/
def dPlace (base i : Nat) : Nat := (base + i) % 65536

/-- Where return position i lies: two cells, the low one first. -/
def rPlace (base i : Nat) : Nat := (base + 2 * i) % 65536

/-- Spill the deepest on-chip data cell. -/
def State.spillD (s : State) (k : Nat) : Except KErr State := do
  let x := s.kpr k
  let base ← s.setBase k x.set 0
  match x.ds.getLast? with
  | none => pure s
  | some c =>
    let i := x.sp - x.ds.length
    if parityOk c then
      pure ((s.putData k (dPlace base i) (cellOf c)).modKpr k fun y => { y with ds := y.ds.dropLast })
    else .error ⟨5, 2, some (unitDs i), none⟩

/-- Refill the data cell below the on-chip part. -/
def State.refillD (s : State) (k : Nat) : Except KErr State := do
  let x := s.kpr k
  let base ← s.setBase k x.set 0
  if x.sp ≤ x.ds.length then pure s
  else
    let i := x.sp - x.ds.length - 1
    let c ← s.getData k (dPlace base i)
    let d := s.flipCell 8 k (unitDs i) c
    pure (d.2.modKpr k fun y => { y with ds := y.ds ++ [d.1] })

/-- Push a data cell. -/
def State.kpush (s : State) (k : Nat) (c : Cell) : Except KErr State := do
  let x := s.kpr k
  let limit ← s.getTbl k 1 x.set 2
  if limit ≤ x.sp then .error ⟨3, 0, none, none⟩
  else
    let s ← if 32 ≤ x.ds.length then s.spillD k else pure s
    let d := s.flipCell 8 k (unitDs x.sp) c
    pure (d.2.modKpr k fun y => { y with ds := d.1 :: y.ds, sp := x.sp + 1 })

/-- Pop a data cell; the pop that empties the on-chip part refills one. -/
def State.kpop (s : State) (k : Nat) : Except KErr (Cell × State) := do
  let x := s.kpr k
  if x.sp = 0 then .error ⟨3, 1, none, none⟩
  else
    let s ← if x.ds = [] then s.refillD k else pure s
    match (s.kpr k).ds with
    | [] => .error ⟨3, 1, none, none⟩
    | c :: rest =>
      if parityOk c then
        let s := s.modKpr k fun y => { y with ds := rest, sp := x.sp - 1 }
        let s ← if rest = [] ∧ 1 < x.sp then s.refillD k else pure s
        pure (cellOf c, s)
      else .error ⟨5, 2, some (unitDs (x.sp - 1)), none⟩

/-- The data cell i below T. -/
def State.kpeek (s : State) (k i : Nat) : Except KErr Cell := do
  let x := s.kpr k
  if x.sp ≤ i then .error ⟨3, 1, none, none⟩
  else match x.ds[i]? with
    | some c => if parityOk c then pure (cellOf c) else .error ⟨5, 2, some (unitDs (x.sp - 1 - i)), none⟩
    | none => do
      let base ← s.setBase k x.set 0
      s.getData k (dPlace base (x.sp - 1 - i))

/-- Pop n cells, T first. -/
def State.kpopN (s : State) (k : Nat) : Nat → Except KErr (List Cell × State)
  | 0 => pure ([], s)
  | n + 1 => do
    let a ← s.kpop k
    let b ← a.2.kpopN k n
    pure (a.1 :: b.1, b.2)

/-- Push cells, the first of the list deepest. -/
def State.kpushN (s : State) (k : Nat) : List Cell → Except KErr State
  | [] => pure s
  | c :: l => do
    let s ← s.kpush k c
    s.kpushN k l

/-- Store a return entry in local data. -/
def State.putEntry (s : State) (k a v : Nat) : State :=
  (s.putData k a (BitVec.ofNat 12 v)).putData k ((a + 1) % 65536) (BitVec.ofNat 12 (v / 4096))

/-- Push a return entry. RP holds no more than 2,047, whatever the limit (R350). -/
def State.rpush (s : State) (k v : Nat) : Except KErr State := do
  let x := s.kpr k
  let limit ← s.getTbl k 1 x.set 5
  if min limit 2047 ≤ x.rp then .error ⟨3, 2, none, none⟩
  else
    let base ← s.setBase k x.set 3
    let s ← (match x.rs.getLast? with
      | some e =>
        if x.rs.length < 32 then pure s
        else if entryParity e then
          pure ((s.putEntry k (rPlace base (x.rp - x.rs.length)) (e.toNat % 2 ^ 24)).modKpr k fun y =>
            { y with rs := y.rs.dropLast })
        else .error ⟨5, 2, some (unitRs (x.rp - x.rs.length)), none⟩
      | none => pure s : Except KErr State)
    let d := s.sealEntry k x.rp v
    pure (d.2.modKpr k fun y => { y with rs := d.1 :: y.rs, rp := x.rp + 1 })

/-- Refill the return entry below the on-chip part. -/
def State.refillR (s : State) (k : Nat) : Except KErr State := do
  let x := s.kpr k
  let base ← s.setBase k x.set 3
  if x.rp ≤ x.rs.length then pure s
  else
    let i := x.rp - x.rs.length - 1
    let a := rPlace base i
    let lo ← s.getData k a
    let hi ← s.getData k ((a + 1) % 65536)
    let d := s.sealEntry k i (lo.toNat + hi.toNat * 4096)
    pure (d.2.modKpr k fun y => { y with rs := y.rs ++ [d.1] })

/-- The top return entry, popped. -/
def State.rpop (s : State) (k : Nat) : Except KErr (Nat × State) := do
  let x := s.kpr k
  if x.rp = 0 then .error ⟨3, 3, none, none⟩
  else
    let s ← if x.rs = [] then s.refillR k else pure s
    match (s.kpr k).rs with
    | [] => .error ⟨3, 3, none, none⟩
    | e :: rest =>
      if entryParity e then
        let s := s.modKpr k fun y => { y with rs := rest, rp := x.rp - 1 }
        let s ← if rest = [] ∧ 1 < x.rp then s.refillR k else pure s
        pure (e.toNat % 2 ^ 24, s)
      else .error ⟨5, 2, some (unitRs (x.rp - 1)), none⟩

/-- The top return entry, which stays where it is. -/
def State.rpeek (s : State) (k : Nat) : Except KErr Nat := do
  let x := s.kpr k
  if x.rp = 0 then .error ⟨3, 3, none, none⟩
  else match x.rs with
    | e :: _ => if entryParity e then pure (e.toNat % 2 ^ 24) else .error ⟨5, 2, some (unitRs (x.rp - 1)), none⟩
    | [] => do
      let base ← s.setBase k x.set 3
      let a := rPlace base (x.rp - 1)
      let lo ← s.getData k a
      let hi ← s.getData k ((a + 1) % 65536)
      pure (lo.toNat + hi.toNat * 4096)

/-- A return entry from its fields (R354). -/
def mkEntry (kind aux addr : Nat) : Nat := kind * 2 ^ 22 + aux % 64 * 2 ^ 16 + addr % 2 ^ 15
def entryKind (e : Nat) : Nat := e / 2 ^ 22 % 4
def entryAux (e : Nat) : Nat := bits e 16 6
def entryAddr (e : Nat) : Nat := e % 2 ^ 15

/-- Spill every on-chip entry of both stacks. -/
def State.spillAll (s : State) (k : Nat) : Except KErr State := do
  let x := s.kpr k
  let s ← (List.range x.ds.length).foldlM (fun (s : State) _ => s.spillD k) s
  let base ← s.setBase k x.set 3
  let n := x.rs.length
  let s ← x.rs.zipIdx.foldlM (fun (s : State) e =>
    let i := x.rp - 1 - e.2
    if entryParity e.1 then pure (s.putEntry k (rPlace base i) (e.1.toNat % 2 ^ 24))
    else (.error ⟨5, 2, some (unitRs i), none⟩ : Except KErr State)) s
  pure (if n = 0 then s else s.modKpr k fun y => { y with rs := [] })

/-- A change of stack set (R353). -/
def State.changeSet (s : State) (k new : Nat) : Except KErr State := do
  let x := s.kpr k
  if x.set = new then pure s
  else
    let s ← s.spillAll k
    let s := (s.putTbl k 1 x.set 6 (BitVec.ofNat 12 x.sp)).putTbl k 1 x.set 7 (BitVec.ofNat 12 x.rp)
    let sp ← s.getTbl k 1 new 6
    let rp ← s.getTbl k 1 new 7
    pure (s.modKpr k fun y => { y.withSet new with sp := sp, rp := rp % 2048, ds := [], rs := [] })

/-! ### Resets and the system role (R376 to R378, R382) -/

/-- The predictor is cleared (R390). -/
def Keeper.clearPredictor (x : Keeper) : Keeper := { x with hist := 0, itt := [] }

/-- The semaphores a keeper holds are released (R382). -/
def State.releaseSems (s : State) (k : Nat) : State :=
  let mine := (s.sems.filter fun e => e.2 = k).map (·.1)
  let s := { s with sems := s.sems.filter fun e => e.2 ≠ k }
  s.setRg Reg.KPR_SEM_RST_released 0 (mine.foldl (fun v n => Nat.lor v (2 ^ n)) (s.rg Reg.KPR_SEM_RST_released))

/-- The new system keeper repeats action 9 for a partition whose restore has come that far (R339, R378). -/
def State.repeatRestore (t : Nat) (s : State) : State :=
  if s.phase t = 4 ∧ (s.part t).hooksOpen ≠ [] then
    match s.slotOf t (s.part t).target with
    | some k => ((s.healTraps t).restoreK k.segK.length k.segK).openHooks t
    | none => s
  else s

/-- The system role passes, or the fatal condition arises (R377, R403). -/
def State.passRole (s : State) : State :=
  match (List.range 4).find? fun k =>
      decide (k ≠ s.system) && s.on Reg.KPR_CTRL_run k && !bit (s.rg Reg.KPR_SYS_third) k with
  | some k =>
    State.hostNotice s ((s.setRg Reg.KPR_SYS_system 0 k).modKpr k fun x => { x with takeover := true })
  | none => s.fatal 3

/-- A keeper reset of a cause: 1 run written, 2 third fault, 3 bucket full (R376, R377, R414). The system keeper's loss raises an alarm
that names it (R339; log entry 32), after a third fault the one of R376. -/
def State.resetKeeper (s : State) (k cause : Nat) : State :=
  let x := s.kpr k
  let s := s.setKpr k { image := x.image, gold := x.gold, prog := x.prog, data := x.data, tbl := x.tbl, tblCopy := x.tblCopy, hookTaken := x.hookTaken,
                         maskAge := x.maskAge }
  let s := ((s.releaseSems k).dropClaims k).setRg Reg.KPR_STATUS_rst_cause k cause
  let s := if cause = 1 then s
    else s.setRg Reg.KPR_SYS_third 0 (Nat.lor (s.rg Reg.KPR_SYS_third) (2 ^ k))
  let s := if k = 0 then s.setRg Reg.PWR_RST_kind 0 2 else s
  if k = s.system ∧ (cause ≠ 1 ∨ s.on Reg.KPR_CTRL_run k = false) then
    (if cause = 2 then s else s.alarm 16 (srcOf 5 k) 0x006 k).passRole
  else s

/-! ### Events (R372 to R376) -/

/-- The entry address and stack set of a vector. -/
def State.vector (s : State) (k v : Nat) : Except KErr (Nat × Nat) := do
  let lo ← s.getTbl k 0 v 0
  let hi ← s.getTbl k 0 v 1
  pure (lo + hi % 8 * 4096, if v = 1 then 7 else bits hi 3 3)

/-- Rings of the vectors. -/
def vectorRing (v : Nat) : Nat := if 3 ≤ v ∧ v ≤ 5 then 1 else 0

/-- Take an event through a vector (R374). -/
def State.enterEvent (s : State) (k v resume : Nat) : Except KErr State := do
  let x := s.kpr k
  let e ← s.vector k v
  let s ← s.changeSet k e.2
  let s ← [x.ah.toNat * 4096 + x.al.toNat, x.ix.toNat, x.jx.toNat, x.fl.toNat, x.u.toNat, x.v.toNat, x.rg.toNat,
    mkEntry 3 0 resume].foldlM (fun (s : State) c => s.rpush k c) s
  let y := s.kpr k
  let flush := s.on Reg.KPR_CTRL_pred_flush_on_gate k && decide (vectorRing v ≠ x.ring)
  let z := { (if flush then y.clearPredictor else y) with
    rg := rgOf (vectorRing v) false (x.dfl || decide (v = 1)) y.set y.tenant, pc := e.1, waiting := false, inBlock := false }
  pure (s.setKpr k z)

/-- Record a fault (KPR_FAULT, KPR_FAULT_PC). -/
def State.recordFault (s : State) (k : Nat) (e : KErr) (micro : Option Nat) : State :=
  let x := s.kpr k
  let s := (((s.setRg Reg.KPR_FAULT_valid k 1).setRg Reg.KPR_FAULT_double k 0).setRg Reg.KPR_FAULT_code k e.code).setRg
    Reg.KPR_FAULT_detail k e.detail
  let s := ((s.setRg Reg.KPR_FAULT_ring k x.ring).setRg Reg.KPR_FAULT_PC_pc k x.pc).setRg Reg.KPR_FAULT_PC_micro k
    (b2n micro.isSome)
  s.setRg Reg.KPR_FAULT_PC_uaddr k (micro.getD 0)

/-- A memory of the keeper failed parity: counted in class 8 (R379). -/
def State.countPar (s : State) (k : Nat) (e : KErr) : State :=
  match e.par with
  | some a => s.tally true 0 8 (e.of.getD k) a
  | none => s

/-- A third fault: the keeper resets, and its alarm goes (R376). -/
def State.thirdFault (s : State) (k : Nat) (e : KErr) : State :=
  (s.resetKeeper k 2).alarm 16 (srcOf 5 k) 0x006 (k + e.code % 8 * 4 + e.detail % 64 * 32)

/-- A double fault, counted already: vector 1, or a third fault (R376). -/
def State.doubleFault (s : State) (k resume : Nat) (e : KErr) : State :=
  let s := ((s.setRg Reg.KPR_FAULT_double k 1).setRg Reg.KPR_FAULT_code2 k e.code).setRg Reg.KPR_FAULT_detail2 k e.detail
  match s.enterEvent k 1 resume with
  | .ok s => s
  | .error e' => (s.countPar k e').thirdFault k e'

/-- A fault of keeper k, with its state as the faulting instruction found it (R374 to R376). -/
def State.kfault (s : State) (k : Nat) (e : KErr) (micro : Option Nat := none) : State :=
  let x := s.kpr k
  let resume := if e.code = 7 then (x.pc + 1) % 2 ^ 15 else x.pc
  let s := s.countPar k e
  let s := if e.code = 2 then s.edge (privSrc k 3) else s
  if x.dfl then (s.recordFault k e micro).thirdFault k e
  else if x.entering then (s.modKpr k fun y => { y with entering := false }).doubleFault k resume e
  else
    let s := s.recordFault k e micro
    match s.enterEvent k (if 2 ≤ x.ring then 5 else 6) resume with
    | .ok s => s.modKpr k fun y => { y with entering := true }
    | .error e' => (s.countPar k e').doubleFault k resume e'

/-! ### KPR_CTRL, KPR_STATUS -/

/-- KPR_STATUS.state. -/
def State.kprState (s : State) (k : Nat) : Nat :=
  let x := s.kpr k
  if s.on Reg.KPR_CTRL_run k = false then 0 else if x.custom then 5 else if x.waiting then 2 else if x.entering then 3
  else if x.inBlock then 4 else 1

/-- KPR_STATUS, read. -/
def State.kprStatus (s : State) (k : Nat) : Nat :=
  let x := s.kpr k
  Reg.KPR_STATUS_rst_cause.at (s.rg Reg.KPR_STATUS_rst_cause k) + Reg.KPR_STATUS_state.at (s.kprState k) +
    Reg.KPR_STATUS_dfl.at (b2n x.dfl) + Reg.KPR_STATUS_ring.at x.ring + Reg.KPR_STATUS_set.at x.set +
    Reg.KPR_STATUS_ie.at (b2n x.ie) + Reg.KPR_STATUS_pc.at x.pc

/-- KPR_CTRL.run changes: a keeper is released at vector 0, or held in reset. -/
def State.setRun (s : State) (k : Nat) (run : Bool) : State :=
  if s.on Reg.KPR_CTRL_run k = run then s
  else (s.setRg Reg.KPR_CTRL_run k (b2n run)).resetKeeper k 1

/-- KPR_CTRL of the selected keeper; what is reserved to keeper 0 is the system keeper's (R377, R391, R514). -/
def State.wKprCtrl (s : State) (who : Requester) (v : Word) : State :=
  let k := s.selKeeper who
  let s := (s.setRg Reg.KPR_CTRL_pred_off k (Reg.KPR_CTRL_pred_off.of v)).setRg Reg.KPR_CTRL_pred_flush_on_gate k
    (Reg.KPR_CTRL_pred_flush_on_gate.of v)
  let s := if k = 0 ∧ s.keeperOf who = some s.system ∧ who ≠ .capstan ∧ ringOf who = 0 ∧ Reg.KPR_CTRL_rom_fetch.of v = 0 then
      s.setRg Reg.KPR_CTRL_rom_fetch 0 0
    else s
  if who = .pf ∨ s.isSystem who then s.setRun k (decide (Reg.KPR_CTRL_run.of v = 1)) else s

/-- KPR_CTRL_RUN. -/
def execKprCtrlRun (who : Requester) (value : Word) (s : State) : Host.Outcome State Fault Refusal :=
  done s (s.asWriter who Reg.KPR_CTRL.addr fun s => s.wKprCtrl who value)

/-- ROM_FETCH_OFF. -/
def execRomFetchOff (who : Requester) (value : Word) (s : State) : Host.Outcome State Fault Refusal :=
  done s (s.asWriter who Reg.KPR_CTRL.addr fun s => s.wKprCtrl who value)

/-! ### Tables (R392) -/

/-- Entries and cells of a table. -/
def tableShape (n : Nat) : Nat × Nat :=
  match n with
  | 0 => (8, 2)
  | 1 => (8, 8)
  | 2 | 3 | 4 => (64, 6)
  | 5 => (64, 5)
  | 6 => (64, 2)
  | 7 => (256, 2)
  | 8 => (1, 6)
  | 9 => (8, 2)
  | _ => (0, 0)

/-- Highest ring from which the keeper itself writes an entry. -/
def tableRing (n i : Nat) : Nat :=
  match n with
  | 3 | 4 | 6 | 7 => 1
  | 5 => if i < 32 then 0 else 1
  | _ => 0

/-- The write is permitted (R392). -/
def State.tblOpen (s : State) (who : Requester) (k n i c : Nat) : Bool :=
  let ok := match who with
    | .pf => s.on Reg.KPR_CTRL_run k = false
    | .keeper j r _ => decide (j.val = k) && decide (r.toNat ≤ tableRing n i) && !(decide (n = 5) && decide (i = 0))
    | .capstan => decide (s.system = k) && decide (1 ≤ tableRing n i)
  ok && decide (n ≠ 9) && !(decide (n = 1) && (decide (6 ≤ c) || (s.on Reg.KPR_CTRL_run k && decide (i = (s.kpr k).set))))

/-- Address after an access. -/
def State.tblNext (s : State) (who : Requester) : State :=
  let j := copyOf who
  if s.rgw Reg.KPR_TBL_ADDR_autoinc j = 1 then
    let c := s.rgw Reg.KPR_TBL_ADDR_cell j
    if c + 1 < (tableShape (s.rgw Reg.KPR_TBL_ADDR_table j)).2 then s.setRgw Reg.KPR_TBL_ADDR_cell j 0 (c + 1)
    else (s.setRgw Reg.KPR_TBL_ADDR_cell j 0 0).setRgw Reg.KPR_TBL_ADDR_index j 0 (s.rgw Reg.KPR_TBL_ADDR_index j + 1)
  else s

/-- KPR_TBL_DATA, written: entry 0 of the check descriptors stays zero. A write that R392 refuses sets rejected, and one by a requester
that R391 does not name is a refused access too (R543). -/
def State.wTbl (s : State) (who : Requester) (v : Word) : State :=
  let j := copyOf who
  let k := s.selKeeper who
  let n := s.rgw Reg.KPR_TBL_ADDR_table j
  let i := s.rgw Reg.KPR_TBL_ADDR_index j
  let c := s.rgw Reg.KPR_TBL_ADDR_cell j
  if (tableShape n).1 ≤ i ∨ (tableShape n).2 ≤ c then s
  else if s.tblOpen who k n i c then
    (if n = 5 ∧ i = 0 then s else s.putTbl k n i c (v.setWidth 12)).tblNext who
  else (if s.kprWriter who then s else s.refuse who 2 Reg.KPR_TBL_DATA.addr).setRgw Reg.KPR_TBL_ADDR_rejected j 0 1

/-- KPR_TBL_DATA, read. -/
def State.rTbl (s : State) (who : Requester) : State :=
  let j := copyOf who
  let k := s.selKeeper who
  let n := s.rgw Reg.KPR_TBL_ADDR_table j
  let i := s.rgw Reg.KPR_TBL_ADDR_index j
  let c := s.rgw Reg.KPR_TBL_ADDR_cell j
  if (tableShape n).1 ≤ i ∨ (tableShape n).2 ≤ c then s.answer 0
  else
    let a := 4096 * n + 8 * i + c
    (s.answer (Reg.KPR_TBL_DATA_par_err.at (b2n (!(s.kpr k).tblSound a)) + (s.tblCell k a).toNat)).tblNext who

/-- KPR_TBL_DATA. Its own rule says who writes, and a refusal goes to its own rejected bit (R392). -/
def execKprTblData (who : Requester) (access : Option Word) (s : State) : Host.Outcome State Fault Refusal :=
  done s (match access with
    | some v => s.asWriter who Reg.KPR_TBL_DATA.addr fun s => s.wTbl who v
    | none => s.asReader who Reg.KPR_TBL_DATA.addr fun s => s.rTbl who)

/-- KPR_CNT_MISP. -/
def execKprCntMisp (who : Requester) (s : State) : Host.Outcome State Fault Refusal :=
  done s (s.asReader who Reg.KPR_CNT_MISP.addr fun s => s.readClear Reg.KPR_CNT_MISP who (s.selKeeper who))

/-! ### Other KPR registers -/

/-- KPR_FAULT, written: the record goes with its valid bit. -/
def State.wKprFault (s : State) (who : Requester) (v : Word) : State :=
  let k := s.selKeeper who
  if Reg.KPR_FAULT_valid.of v = 1 then
    (Reg.KPR_FAULT.fields ++ Reg.KPR_FAULT_PC.fields).foldl (fun s f => s.setRg f k 0) s
  else s

/-- KPR_HOOK, written: only the PF and the system keeper (R392). -/
def State.wKprHook (s : State) (who : Requester) (v : Word) : State :=
  if who = .pf ∨ s.isSystem who then s.setRg Reg.KPR_HOOK_tenants (s.selKeeper who) (Reg.KPR_HOOK_tenants.of v)
  else s.refuse who 2 Reg.KPR_HOOK.addr

/-- Running keeper timer i counts n microseconds down; at 0 it stops and raises its source (R383). -/
def State.countTimer (n i : Nat) (s : State) : State :=
  let c := s.rg Reg.KPR_TMRk_count i
  if n < c then s.setRg Reg.KPR_TMRk_count i (c - n)
  else ((s.setRg Reg.KPR_TMRk_run i 0).setRg Reg.KPR_TMRk_count i 0).edge (privSrc (i / 2) (i % 2))

/-- The running keeper timers count n microseconds (R383). -/
def State.countTimers (s : State) (n : Nat) : State := each (which 8 fun i => s.on Reg.KPR_TMRk_run i) (State.countTimer n) s

/-- KEEPER_TIMER: a running timer reaches 0, the microseconds that it still holds having passed for every timer (R383; log entry
6). -/
def execKeeperTimer (k : Fin 4) (timer : Fin 2) (s : State) : Host.Outcome State Fault Refusal :=
  done s (let i := 2 * k.val + timer.val
    let n := s.rg Reg.KPR_TMRk_count i
    if s.on Reg.KPR_TMRk_run i then (s.advance (n * 640000)).countTimers n else s)

/-- KPR_SEM. -/
def State.semBusy (s : State) : Nat := (s.sems.map fun e => 2 ^ e.1).sum

/-! ### Hooks (R381) -/

/-- A capture hook is answered with a list, or a restore hook with go: the list is sized with those of the other keepers, before any
range is copied, or the capture fails. -/
def State.hookAnswer (s : State) (k list : Nat) : State :=
  let t := s.rg Reg.KPR_HOOK_tenant k
  if s.on Reg.KPR_HOOK_restore k then s.hookEnded t k
  else
    let x := s.part t
    match (s.kpr k).ranges 64 list with
    | none => (s.failCapture t).hookEnded t k
    | some l =>
      let all := x.hookLists ++ [(k, l)]
      if 16384 < sizeK all then (s.failCapture t).hookEnded t k
      else (s.setPart t { x with hookLists := all }).hookEnded t k

/-- KPR_HOOK_DONE of the selected keeper. -/
def State.wHookDone (s : State) (who : Requester) (v : Word) : State :=
  let k := s.selKeeper who
  if Reg.KPR_HOOK_DONE_go.of v = 1 ∧ s.on Reg.KPR_HOOK_pending k then s.hookAnswer k (Reg.KPR_HOOK_DONE_list.of v) else s

/-- KPR_HOOK_DONE. -/
def execKprHookDone (who : Requester) (value : Word) (s : State) : Host.Outcome State Fault Refusal :=
  done s (s.asWriter who Reg.KPR_HOOK_DONE.addr fun s => s.wHookDone who value)

/-- HOOK_TIMEOUT: a capture failure, or a target that is not usable (R381). -/
def execHookTimeout (k : Fin 4) (s : State) : Host.Outcome State Fault Refusal :=
  done s (if s.on Reg.KPR_HOOK_pending k.val then
      let t := s.rg Reg.KPR_HOOK_tenant k.val
      if s.on Reg.KPR_HOOK_restore k.val then
        (s.modPart t fun x => { x with restoreFlags := Nat.lor x.restoreFlags 4 }).hookEnded t k.val
      else (s.failCapture t).hookEnded t k.val
    else s)

/-! ### The dredger in keeper memories (R380) -/

/-- The golden word w of a keeper, and whether it can be had: its page has met no uncorrectable error (R379). The copy that bring-up step 6
wrote is the boot ROM's image (R515; log entry 35). -/
def State.pgold (s : State) (k w : Nat) : Nat :=
  if (s.kpr k).gold then (Config.bootRom (32768 + w)).toNat
  else s.hbmHalf (s.rg Reg.KPR_PGOLD_base k * 65536 + 2 * w) % 2 ^ 14
def State.pgoldOk (s : State) (k w : Nat) : Bool :=
  s.on Reg.KPR_PGOLD_valid k && !s.pagesBad.contains ((s.rg Reg.KPR_PGOLD_base k * 65536 + 2 * w) / 4096)

/-- Where a change from s0 to s has filled the system keeper's bucket, whichever keeper made it: it resets, and the role passes (R377,
R380). -/
def State.keeperFull (s0 s : State) : State :=
  let k := s0.system
  if s0.bucket 8 k < s0.threshold 8 ∧ s.threshold 8 ≤ s.bucket 8 k ∧ k = s.system then s.resetKeeper k 3 else s

/-- KPR_PGOLD, written: from then on it names what HBM holds there. -/
def State.wPgold (s : State) (d : RegDef) (who : Requester) (k addr : Nat) (v : Word) : State :=
  (s.classWrite d who k addr v).modKpr k fun x => { x with gold := false }

/-- One keeper: the errors found, and the state after. -/
def State.dredgeKeeper (s0 : State) (k : Nat) : Nat × State :=
  let s := s0
  let x := s.kpr k
  let bad := (x.prog.filter fun e => oddOnes 15 e.2.toNat).map (·.1)
  let s := bad.foldl (fun s w =>
    if s.pgoldOk k w then (s.tally false 1 8 k (unitProg w)).putProg k w (s.pgold k w)
    else (s.tally true 1 8 k (unitProg w)).edge (privSrc k 2)) s
  let itt := (x.itt.filter fun e => oddOnes 17 e.2.toNat).map (·.1)
  let s := itt.foldl (fun s i => (s.tally false 1 8 k (unitItt i)).modKpr k fun y => { y with itt := Mem.put y.itt i 0 }) s
  let rest := (x.data.filter fun e => !parityOk e.2).map (fun e => unitData e.1) ++
    (x.tbl.filter fun e => !x.tblSound e.1).map (fun e => 0x40000 + e.1) ++
    ((x.ds.zipIdx.filter fun e => !parityOk e.1).map fun e => unitDs (x.sp - 1 - e.2)) ++
    ((x.rs.zipIdx.filter fun e => !entryParity e.1).map fun e => unitRs (x.rp - 1 - e.2))
  let t := rest.foldl (fun s a => (s.tally true 1 8 k a).edge (privSrc k 2)) s
  let s := State.keeperFull s0 t
  (bad.length + itt.length + rest.length, s)

end Sys2Proof.Machine
end

