-- ==== Sys2Proof/Machine/Fec.lean ====
section
/-!
DEFINITION. Sys2Proof/Machine/Fec.lean: the Reed-Solomon code of a link, its scrambler, trains, striping and PAM4 levels (R220 to
R225).
-/
namespace Sys2Proof.Machine

/-! ### GF(2^10) with x^10 + x^3 + 1 (R221) -/

/-- Multiply by α. -/
def gfX (a : Nat) : Nat := if 512 ≤ a then Nat.xor (a * 2 % 1024) 9 else a * 2

/-- Product: bit by bit over b, highest first. -/
def gfMul (a b : Nat) : Nat :=
  (List.range 10).foldl (fun r i => Nat.xor (gfX r) (if b.testBit (9 - i) then a else 0)) 0

/-- α^n. -/
def gfPow : Nat → Nat
  | 0 => 1
  | n + 1 => gfX (gfPow n)

/-- a^(2^10 - 2), the inverse of a nonzero a. -/
def gfInv (a : Nat) : Nat :=
  (List.range 9).foldl (fun (p : Nat × Nat) _ => let q := gfMul p.1 p.1; (q, gfMul p.2 q)) (a, 1) |>.2

/-- The syndrome r(α^j): symbol i of a codeword is the coefficient of x^(135 - i) (R222). -/
def syndrome (l : List Nat) (j : Nat) : Nat := l.foldl (fun v c => Nat.xor (gfMul v (gfPow j)) c) 0

def syndromes (l : List Nat) : List Nat := (List.range 8).map (syndrome l)

/-- Parity symbols: the remainder of m(x)·x^8 by g(x) = (x - α^0) … (x - α^7) (R221, R222). -/
def genPoly : List Nat :=
  (List.range 8).foldl (fun g j =>
    let a := gfPow j
    (List.range (g.length + 1)).map fun i => Nat.xor ((g[i]?).getD 0) (if i = 0 then 0 else gfMul a ((g[i - 1]?).getD 0))) [1]

def rsParity (g : List Nat) (data : List Nat) : List Nat :=
  data.foldl (fun r c =>
    let f := Nat.xor c ((r[0]?).getD 0)
    (List.range 8).map fun i => Nat.xor ((r[i + 1]?).getD 0) (gfMul f ((g[i + 1]?).getD 0))) (List.replicate 8 0)

/-- Solve n equations of n unknowns, each a row of coefficients and its right side. -/
def gfSolve : Nat → List (List Nat) → Option (List Nat)
  | 0, _ => some []
  | n + 1, rows =>
    match rows.find? fun r => (r.head?).getD 0 ≠ 0 with
    | none => none
    | some p =>
      let inv := gfInv ((p.head?).getD 1)
      let q := p.map (gfMul inv)
      let rest := (rows.erase p).map fun r => (List.zipWith (fun a b => Nat.xor a (gfMul ((r.head?).getD 0) b)) r q).tail
      match gfSolve n rest with
      | none => none
      | some xs =>
        let rhs := (q.getLast?).getD 0
        some ((List.zipWith gfMul q.tail xs).foldl Nat.xor rhs :: xs)

/-- Try to correct exactly n errors: their places and values. -/
def rsTry (l : List Nat) (s : List Nat) (n : Nat) : Option (List (Nat × Nat)) :=
  let at_ := fun i => (s[i]?).getD 0
  match gfSolve n ((List.range n).map fun k => (List.range n).map (fun j => at_ (k + n - 1 - j)) ++ [at_ (k + n)]) with
  | none => none
  | some sigma =>
    let bad := (List.range 136).filter fun i =>
      let inv := gfInv (gfPow (135 - i))
      sigma.zipIdx.foldl (fun v c => Nat.xor v (gfMul c.1 ((List.range (c.2 + 1)).foldl (fun p _ => gfMul p inv) 1))) 1 = 0
    if bad.length ≠ n then none
    else
      match gfSolve n ((List.range n).map fun j =>
          bad.map (fun i => (List.range j).foldl (fun p _ => gfMul p (gfPow (135 - i))) 1) ++ [at_ j]) with
      | none => none
      | some ys =>
        let fix := bad.zip ys
        let l' := fix.foldl (fun l e => l.modify e.1 (Nat.xor · e.2)) l
        if (syndromes l').all (· = 0) then some fix else none

/-- Decode a codeword: the corrected symbols with the places corrected, or none when it is uncorrectable (R221). -/
def rsDecode (l : List Nat) : Option (List Nat × List Nat) :=
  let s := syndromes l
  if s.all (· = 0) then some (l, [])
  else match [1, 2, 3, 4].findSome? (rsTry l s) with
    | some fix => some (fix.foldl (fun l e => l.modify e.1 (Nat.xor · e.2)) l, fix.map (·.1))
    | none => none

/-! ### Trains (R223 to R225) -/

/-- n output bits of PRBS31 (x^31 + x^28 + 1) from a register of ones, as a number, the first output at bit 0. The output is the
feedback bit (log entry 9). -/
def prbs31 : Nat → Nat → Nat
  | 0, _ => 0
  | n + 1, r =>
    let b := b2n (r.testBit 30 != r.testBit 27)
    b + 2 * prbs31 n (r * 2 % 2 ^ 31 + b)

/-- The scrambler bits of a train. -/
def scrambler : Nat := prbs31 3840 (2 ^ 31 - 1)

/-- Train bits of ten barges. -/
def trainBits (l : List Barge) : Nat := l.foldr (fun b v => b.toNat + 2 ^ 384 * v) 0

/-- The three codewords of a train (R222, R223). -/
def encodeTrain (l : List Barge) : List (List (BitVec 10)) :=
  let bits_ := Nat.xor (trainBits l) scrambler
  let g := genPoly
  (List.range 3).map fun c =>
    let data := (List.range 128).map fun i => bits bits_ (1280 * c + 10 * i) 10
    (data ++ rsParity g data).map (BitVec.ofNat 10)

/-- The barges of a train from the data symbols of its codewords (R223). -/
def decodeTrain (l : List (List (BitVec 10))) : List Barge :=
  let v : Nat := (l.flatMap fun w => w.take 128).foldr (fun c v => c.toNat + 1024 * v) 0
  let d := Nat.xor v scrambler
  (List.range 10).map fun k => BitVec.ofNat 384 (d / 2 ^ (384 * k))

/-- Barges that codeword c touches, as bits (R225). -/
def touched (c : Nat) : BitVec 10 :=
  match c with
  | 0 => 0b0000001111
  | 1 => 0b0001111000
  | _ => 0b1111000000

/-- The PAM4 level of a pair, Gray coded (R220). -/
def pam4 (pair : Nat) : BitVec 2 :=
  match pair with
  | 0 => 0
  | 1 => 1
  | 3 => 2
  | _ => 3

/-- Levels of a run of bits, each pair by R220. -/
def levelsOf : List Nat → List (BitVec 2)
  | x :: y :: l => pam4 (x + 2 * y) :: levelsOf l
  | _ => []

/-- n output bits of a PRBS of order a with its second tap at b, from a register, and the register after them (R262). -/
def prbsRun (a b : Nat) : Nat → Nat → List Nat × Nat
  | 0, r => ([], r)
  | n + 1, r =>
    let f := b2n (r.testBit (a - 1) != r.testBit (b - 1))
    let q := prbsRun a b n (r * 2 % 2 ^ a + f)
    (f :: q.1, q.2)

/-- The levels of a symbol, its earlier bit of each pair less significant (R220). -/
def levels (c : BitVec 10) : List (BitVec 2) := (List.range 5).map fun i => pam4 (bits c.toNat (2 * i) 2)

/-- The levels that logical slot k carries for a codeword (R224). -/
def slotLevels (w : List (BitVec 10)) (k : Nat) : List (BitVec 2) :=
  (w.zipIdx.filter fun e => e.2 % 4 = k).flatMap fun e => levels e.1

end Sys2Proof.Machine
end

