-- ==== Sys2Proof/Machine/Links.lean ====
section
/-!
DEFINITION. Sys2Proof/Machine/Links.lean: the aqueduct link layer (R221 to R264): codewords, sequence and replay, slots, paddles,
training, lane swaps, retirement, tests and margin scans, and the AQ registers.
-/
namespace Sys2Proof.Machine

/-! ### Link state -/

def State.lstate (s : State) (l : Nat) : Nat := s.rg Reg.AQ_STATUS_state l
def State.setLstate (s : State) (l v : Nat) : State := s.setRg Reg.AQ_STATUS_state l v
def State.round (s : State) (l : Nat) : Nat := s.rg Reg.AQ_STATUS_round l

/-- A threshold field where 0 acts as 1. -/
def atLeastOne (n : Nat) : Nat := max 1 n

/-- Slot k's lane in a lane map (AQ_LANEMAP). -/
def mapLane (m k : Nat) : Nat := bits m (3 * k) 3

/-- The map with slot k on lane n. -/
def mapPut (m k n : Nat) : Nat := m - mapLane m k * 8 ^ k + n * 8 ^ k

/-- The lane of 0 to 4 that a map leaves out (R257). -/
def spareOf (m : Nat) : Nat := ((List.range 5).find? fun n => (List.range 4).all fun k => mapLane m k ≠ n).getD 4

/-- A barge goes onto the pins; ten make a train, whose codewords the lanes carry (R223, R224). -/
def State.pins (s : State) (l : Nat) (b : Barge) : State :=
  let map := s.rg Reg.AQ_LANEMAP_tx_map l
  let x := s.lnk l
  let train := x.train ++ [b]
  if train.length < 10 then s.setLnk l { x with sent := x.sent ++ [b], train := train }
  else
    let lanes := (encodeTrain train).foldl (fun t w => (List.range 4).foldl (fun t k =>
      t.put (mapLane map k) (t.get (mapLane map k) [] ++ slotLevels w k)) t) x.lanes
    -- the unused spare sends PRBS31 meanwhile (R257)
    let p := prbsRun 31 28 1020 x.spareGen
    let lanes := if x.txSpareUsed then lanes else lanes.put (spareOf map) (lanes.get (spareOf map) [] ++ levelsOf p.1)
    let n := x.txTrain + 1
    let s := s.setLnk l { x with sent := x.sent ++ [b], train := [], lanes := lanes, txTrain := n,
                                 spareGen := if x.txSpareUsed then x.spareGen else p.2 }
    -- a granted swap takes effect from its train, and is logged (R258, R490)
    match x.txSwap with
    | some (k, m, granted) =>
      if n.toNat = m then
        let s := s.modLnk l fun y => { y with txSwap := none, txSpareUsed := y.txSpareUsed || granted }
        if granted then
          (s.setRg Reg.AQ_LANEMAP_tx_map l (mapPut map k (spareOf map))).log 16 (srcOf 3 l) 0x104 (mapLane map k)
        else s
      else s
    | none => s

/-- The buffer space of an arrival link that a barge leaves (R238, R240). -/
def State.freeSpace (s : State) (src vc n : Nat) : State :=
  if 16 ≤ src then s
  else s.modLnk src fun x => match vc with
    | 0 => { x with vc0Held := x.vc0Held - n }
    | 1 => { x with freed1 := (x.freed1 + 1) % 4096 }
    | 2 => { x with freed2 := (x.freed2 + 1) % 4096 }
    | _ => { x with freed3 := (x.freed3 + 1) % 4096 }

/-- The space that a waiting barge holds on its arrival link is free (R238, R240). -/
def State.freeWaiting (s : State) (w : Waiting) : State := s.freeSpace w.src w.arr (bCount w.barge)

/-- Every barge that waits on a link, VC by VC. -/
def Link.waitingAll (x : Link) : List Waiting := x.q0 ++ x.q1 ++ x.q2 ++ x.q3

/-- The bit errors that the checker of lane n (5l + lane) has counted by now, where it is locked: the incoming bits come with no
command, so the count is free (R262; log entry 74). -/
def State.countBits (s : State) (n : Nat) : State :=
  if s.on Reg.AQ_PRBS_locked n then
    { s.setRg Reg.AQ_PRBS_ERR_errors n (Config.freeWord s.freeCtr).toNat with freeCtr := s.freeCtr + 1 }
  else s

/-- The checkers of a link's lanes are no longer locked: the link is out of Test. What they counted stays (R262). -/
def State.unlockPrbs (s : State) (l : Nat) : State :=
  each (List.range 5) (fun n s => (s.countBits (5 * l + n)).setRg Reg.AQ_PRBS_locked (5 * l + n) 0) s

/-- A link goes to Off, unless it is retired, and discards its traffic. A spare that has been used stays so (R247, R328). -/
def State.linkOff (s : State) (l : Nat) : State :=
  if s.lstate l = 0 ∨ s.lstate l = 9 then s
  else
    let gone := (s.lnk l).waitingAll
    let s := s.modLnk l fun x =>
      { ({} : Link) with sent := x.sent, lanes := x.lanes, retrainTimes := x.retrainTimes, txSpareUsed := x.txSpareUsed }
    (gone.foldl State.freeWaiting (s.unlockPrbs l)).setLstate l 0

/-! ### Retrain and retirement (R247, R259 to R261) -/

/-- Partitions loaded here with an unacknowledged sequenced barge of theirs on the link. -/
def State.unacked (s : State) (l : Nat) : List Nat :=
  (which 16 fun t => s.loaded t && (s.lnk l).window.any fun b => decide (s.spn t ≠ 0) && decide (bcell b 4 = s.spn t))

/-- A barge that waited on a link which has left Active goes to the active route of now; one of VC3 waits on its escape link, be
that down (R253, R254, R342). -/
def State.reroute (s : State) (w : Waiting) : State :=
  match s.outLink w.barge with
  | some k => s.queueWaiting k w
  | none => (s.discard (if w.src < 16 then w.src else s.blame (bcell w.barge 2)) w.barge).freeWaiting w

/-- Retirement; one in response to a fault rolls back what was unacknowledged. Barges not yet sent take the new route (R253, R260,
R261). -/
def State.retireLink (s : State) (l : Nat) (fault : Bool) : State :=
  if s.lstate l = 9 then s
  else
    let back := if fault then s.unacked l else []
    let ack := ((s.lnk l).expected + 4095) % 4096
    let s := if 4 ≤ s.lstate l ∧ s.lstate l ≤ 7 then s.pins l (linkBarge ack 3 [0x5A5] (s.round l)) else s.unlockPrbs l
    let wait := (s.lnk l).waitingAll
    let s := s.modLnk l fun x => { x with window := [], replaying := [], q0 := [], q1 := [], q2 := [], q3 := [], draining := false }
    let s := ((s.cause (.link l) Reg.AQ_CAUSE_retired l).setLstate l 9).unitRetired 7 l 7
    let s := wait.foldl (fun s w => s.reroute w) s
    each back (fun t s => s.askRollback t 2) s

/-- A permanent lane fault with no spare (R257, R259). -/
def State.laneLost (s : State) (l : Nat) : State := (s.cause (.link l) Reg.AQ_CAUSE_lane_fail l).retireLink l true

/-- A retrain starts from Active; three within a second retire the link (R247, R259). -/
def State.retrain (s : State) (l : Nat) : State :=
  if s.lstate l ≠ 6 then s
  else
    let now := s.power.time
    let times := now :: (s.lnk l).retrainTimes.filter fun t => now < t + 1000000000
    if 3 ≤ times.length then (s.modLnk l fun x => { x with retrainTimes := times }).retireLink l true
    else
      (s.modLnk l fun x => { x with retrainTimes := times, sub := 3, goodWords := 0, aligned := [], peerOk := false,
                                    peerEcho := false, echoSent := false, badWords := 0, refused := false }).setLstate l 7

/-- A fault of the link in its leaky bucket; a full bucket retrains it (R235, R259). -/
def State.linkFault (s : State) (l lane : Nat) : State :=
  let old := s.bucket 7 l
  let s := s.tally false 0 7 l lane
  if old < s.threshold 7 ∧ s.threshold 7 ≤ s.bucket 7 l then s.retrain l else s

/-- Send again every barge from ack + 1 on; replay_limit replays without progress retrain the link (R234, R235). -/
def State.replayAll (s : State) (l : Nat) : State :=
  let x := s.lnk l
  if x.window = [] then s
  else if atLeastOne (s.rg Reg.AQ_THR_replay_limit l) ≤ x.replayRuns then s.retrain l
  else
    (((s.setLnk l { x with replaying := x.window, replayRuns := x.replayRuns + 1 }).count
      Reg.AQ_CNT_REPLAY_replays l 1)).linkFault l 0

/-- REPLAY_TIMEOUT: no ack has advanced for 2 µs (R234). -/
def execReplayTimeout (link : Fin 16) (s : State) : Host.Outcome State Fault Refusal :=
  done s (if s.active link.val then s.replayAll link.val else s)

/-! ### Acks and link barges (R229, R231 to R234, R238) -/

/-- Drop what an ack covers (R231). -/
def Link.takeAck (x : Link) (ack : Nat) : Link :=
  let n := subMod 12 ack x.acked
  if n = 0 ∨ x.window.length < n then x
  else
    let w := x.window.drop n
    { x with acked := ack, window := w, replaying := x.replaying.drop (x.replaying.length - w.length), replayRuns := 0 }

/-- A status barge (R229, R234, R238). -/
def State.statusIn (s : State) (l : Nat) (b : Barge) : State :=
  let x := (s.lnk l).takeAck (bcell b 0)
  let x := { x with pad1 := x.pad1 + subMod 12 (bcell b 3) x.seen1, seen1 := bcell b 3,
                    pad2 := x.pad2 + subMod 12 (bcell b 4) x.seen2, seen2 := bcell b 4,
                    pad3 := x.pad3 + subMod 12 (bcell b 5) x.seen3, seen3 := bcell b 5 }
  let s := s.setLnk l x
  let r := bits (bcell b 2) 7 4
  if bit (bcell b 2) 11 ∧ r = (s.round l + 1) % 16 then (s.setRg Reg.AQ_STATUS_round l r).replayAll l else s

/-- The receiver detects a failure: a status barge is due, and an episode opens, unless one is open (R230, R233). -/
def Link.fail (x : Link) : Link :=
  if x.episode then { x with statusDue := true }
  else { x with episode := true, expRound := (x.expRound + 1) % 16, nak := true, statusDue := true }

/-- The status barge this end sends in its replay round (R229). -/
def Link.status (x : Link) (round : Nat) : Barge :=
  linkBarge ((x.expected + 4095) % 4096) 0 [b2n x.nak * 2048 + x.expRound * 128, x.freed1 % 4096, x.freed2 % 4096, x.freed3 % 4096]
    round

/-- The lane-swap barge this end sends (R229). -/
def swapBarge (ack : Nat) (grant announce : Bool) (slot train round : Nat) : Barge :=
  linkBarge ack 1 [b2n grant * 2048 + b2n announce * 512 + slot % 8, train % 4096, train / 4096 % 16] round

/-- Send a status barge. -/
def State.sendStatus (s : State) (l : Nat) : State :=
  let b := (s.lnk l).status (s.round l)
  (s.modLnk l fun x => { x with sinceStatus := 0, statusDue := false }).pins l b

/-- Send a lane-swap barge, behind the status barge that its slot may owe (R230, R258). -/
def State.sendSwap (s : State) (l : Nat) (grant announce : Bool) (slot train : Nat) : State :=
  let s := if 63 ≤ (s.lnk l).sinceStatus then s.sendStatus l else s
  (s.modLnk l fun x => { x with sinceStatus := x.sinceStatus + 1 }).pins l
    (swapBarge (((s.lnk l).expected + 4095) % 4096) grant announce slot train (s.round l))

/-- A lane-swap barge. The transmitter takes train 16 ahead; the receiver grants only the swap that it has asked for (R258). A
direction of 2 or 3, which R229 does not define, is taken as an announce (DESIGN CHOICE, log entry 95). -/
def State.swapIn (s : State) (l : Nat) (b : Barge) : State :=
  let c := bcell b 2
  let slot := c % 8
  let train := bcell b 3 + bcell b 4 % 16 * 4096
  if 4 ≤ slot then s
  else if bits c 9 2 = 0 then
    -- a request: this end transmits
    if (s.lnk l).txSpareUsed ∨ (s.lnk l).txSwap.isSome then s
    else
      let n := ((s.lnk l).txTrain + 16#16).toNat
      (s.modLnk l fun x => { x with txSwap := some (slot, n, false) }).sendSwap l false true slot n
  else if bit c 11 then
    s.modLnk l fun x => match x.txSwap with
      | some (k, n, _) => if k = slot ∧ n = train then { x with txSwap := some (k, n, true) } else x
      | none => x
  else if (s.lnk l).rxAsk = some slot then
    (s.modLnk l fun x => { x with rxSwap := some (slot, train) }).sendSwap l true true slot train
  else s

/-- The receiving end asks for a lane swap: onto the spare, or the link retires when none remains. The spare may fail too, and one
lane that has asked for it leaves none for another (R257 to R259). -/
def State.askSwap (s : State) (l lane : Nat) : State :=
  let map := s.rg Reg.AQ_LANEMAP_rx_map l
  let x := s.lnk l
  match (List.range 4).find? fun k => mapLane map k = lane with
  | some k =>
    if s.on Reg.AQ_STATUS_spare_used l ∨ x.rxSpareLost ∨ x.rxAsk.any (· ≠ k) then s.laneLost l
    else (s.setLnk l { x with rxAsk := some k }).sendSwap l false false k 0
  | none => if s.on Reg.AQ_STATUS_spare_used l then s else
      let s := s.setLnk l { x with rxSpareLost := true }
      if x.rxAsk.isSome then s.laneLost l else s

/-- From its train on, the receiver takes the slot on the spare, and the lane is retired (R258, R331). -/
def State.settleSwap (s : State) (l : Nat) : State :=
  match (s.lnk l).rxSwap with
  | some (k, n) =>
    if (s.lnk l).rxTrain.toNat = n then
      let map := s.rg Reg.AQ_LANEMAP_rx_map l
      let lane := mapLane map k
      let s := ((s.modLnk l fun x => { x with rxSwap := none, rxAsk := none }).setRg Reg.AQ_LANEMAP_rx_map l
        (mapPut map k (spareOf map))).setRg Reg.AQ_STATUS_spare_used l 1
      ((s.cause (.link l) Reg.AQ_CAUSE_lane_spared l).log 16 (srcOf 3 l) 0x104 lane).unitRetired 7 l lane
    else s
  | none => s

/-! ### Training (R247 to R251) -/

/-- Enter a training state; its work starts anew. -/
def State.enterTraining (s : State) (l st : Nat) : State :=
  (s.modLnk l fun x => { x with goodWords := 0, equalized := [], aligned := [], peerOk := false, peerEcho := false,
                                echoSent := false, refused := false, sub := 3 }).setLstate l st

/-- Traffic begins: grants start full at first training, trains count from here, and what a retrain left unacknowledged is sent
again (R238, R247, R258). The train in hand runs on in both directions (R223, R225); the count of replays without progress goes on
(DESIGN CHOICE, log entry 95). -/
def State.enterActive (s : State) (l : Nat) (b : Barge) : State :=
  let again := (s.lnk l).oldPeer.isSome
  let s := s.modLnk l fun x =>
    let x := { x with badWords := 0, txTrain := 0, rxTrain := 0, retrainFails := 0, oldPeer := some (bcell b 2) }
    if again then { x with replaying := x.window }
    else { x with pad2 := bcell b 5, pad3 := bcell b 6, pad1 := bcell b 7, seen1 := 0, seen2 := 0, seen3 := 0, freed1 := 0,
                  freed2 := 0, freed3 := 0, txSeq := 0, acked := 4095, expected := 0, expRound := 0, nak := false,
                  episode := false, window := [], replaying := [], replayRuns := 0, vc0Held := 0 }
  let s := (s.setRg Reg.AQ_STATUS_train_fail l 0).setLstate l 6
  if again then (s.cause (.link l) Reg.AQ_CAUSE_retrain l).log 16 (srcOf 3 l) 0x104 8
  else s.setRg Reg.AQ_STATUS_round l 0

/-- The link exchanges parameters: in Exchange, or in that step of a retrain. -/
def State.exchanging (s : State) (l : Nat) : Bool :=
  decide (s.lstate l = 5) || (decide (s.lstate l = 7) && decide ((s.lnk l).sub = 5))

/-- Each end has accepted the other's parameters and has seen its own echoed: the link is Active (R247). -/
def State.exchangeDone (s : State) (l : Nat) : State :=
  let x := s.lnk l
  if x.peerOk ∧ x.peerEcho ∧ x.echoSent then s.enterActive l x.peerBarge else s

/-- A link whose peer is refused is held in Exchange (R250). -/
def State.holdExchange (s : State) (l : Nat) (f : Field) : State :=
  ((s.modLnk l fun x => { x with refused := true, peerOk := false }).setLstate l 5).cause (.link l) f l

/-- A parameter barge: accepted, refused, or from another peer than before a retrain (R249, R250). -/
def State.paramIn (s : State) (l : Nat) (b : Barge) : State :=
  if !s.exchanging l then s
  else
    let c3 := bcell b 3
    let bridge := bit c3 4
    let s := (((s.setRg Reg.AQ_STATUS_peer l (bcell b 2)).setRg Reg.AQ_STATUS_peer_link l (c3 % 16))).setRg
      Reg.AQ_STATUS_peer_bridge l (b2n bridge)
    if bcell b 5 < 16 ∨ bcell b 8 < 128 ∨ bcell b 2 = s.devid ∨ (bridge ∧ s.on Reg.AQ_CTRL_bridge_ok l = false) then
      s.holdExchange l Reg.AQ_CAUSE_peer_refused
    else if (s.lnk l).oldPeer.any (· ≠ bcell b 2) then s.holdExchange l Reg.AQ_CAUSE_peer_changed
    else
      (s.modLnk l fun x => { x with refused := false, peerOk := true, peerEcho := x.peerEcho || decide (bcell b 10 = 1),
                                    peerBarge := b }).exchangeDone l

/-- The parameter barge this device sends (R249). -/
def State.paramOut (s : State) (l : Nat) : Barge :=
  linkBarge (((s.lnk l).expected + 4095) % 4096) 2
    [s.devid, l, 7, 16, 32, 64, 128, 512, b2n (s.lnk l).peerOk] (s.round l)

/-- Training step that a link is in: its state, or the step of a retrain. -/
def State.trainStep (s : State) (l : Nat) : Nat := if s.lstate l = 7 then (s.lnk l).sub else s.lstate l

/-- The next training step. Trains begin with Lock; the codewords that end it are good, so nothing of the train in hand is spoiled
(R225, R247). -/
def State.toStep (s : State) (l st : Nat) : State :=
  let s := if st = 4 ∧ (s.lnk l).spareGen = 0 then
      { s.modLnk l fun x => { x with spareGen := 1 + (Config.freeWord s.freeCtr).toNat % (2 ^ 31 - 1) } with
        freeCtr := s.freeCtr + 1 }
    else s
  let s := s.modLnk l fun x =>
    if st = 4 then { x with goodWords := 0, codeword := 0, bargeNo := 0, spoiled := 0, rxData := [], train := [] }
    else if st = 5 then { x with bargeNo := 3 * x.codeword, spoiled := 0 } else x
  if s.lstate l = 7 then s.modLnk l fun x => { x with sub := st } else s.setLstate l st

/-- DETECT_LOCK (R247, R251). -/
def execDetectLock (link : Fin 16) (s : State) : Host.Outcome State Fault Refusal :=
  done s (if s.lstate link.val = 1 ∧ s.mode ≠ 0 ∧ s.powered (24 + link.val / 4) then s.enterTraining link.val 2 else s)

/-- A coefficient request on a tap: the status it earns. How far a tap goes is not stated, so whether it is at its limit is free
(R248; log entry 1). -/
def State.tapRequest (s : State) (l lane tap req : Nat) : State :=
  let x := s.lnk l
  let k := 4 * lane + tap
  if req = 0 then s.setLnk l { x with tapStatus := x.tapStatus.put lane 0 }
  else if 4 ≤ tap then s.setLnk l { x with tapStatus := x.tapStatus.put lane 3 }
  else if req = 3 then s.setLnk l { x with taps := x.taps.put k 0, tapStatus := x.tapStatus.put lane 1 }
  else
    let d := s.drawBit
    if d.1 then d.2.setLnk l { x with tapStatus := x.tapStatus.put lane 2 }
    else d.2.setLnk l { x with taps := x.taps.put k (x.taps.get k 0 + if req = 1 then 1 else -1),
                               tapStatus := x.tapStatus.put lane 1 }

/-- A training frame's fields are good: marker, zero bits and CRC (R248). -/
def frameOk (f : Nat) : Bool :=
  decide (bits f 0 32 = 0x5F0A3C96) && decide (bits f 61 19 = 0) && decide (crcOf 2 (leBytes 6 (bits f 32 48)) = bits f 80 16)

/-- Add to a list once. -/
def addOnce (l : List Nat) (n : Nat) : List Nat := if l.contains n then l else n :: l

/-- TRAINING_FRAME: a lane asks nothing more when its request is hold; with every lane so, Equalize ends. In Align each lane has
reported its number (R247, R248; log entry 10). -/
def State.frameIn (s : State) (l lane f : Nat) : State :=
  if frameOk f = false then s
  else
    let st := s.trainStep l
    if st = 2 then
      let s := s.tapRequest l lane (bits f 54 3) (bits f 57 2)
      let s := s.modLnk l fun x => { x with equalized := if bits f 57 2 = 0 ∧ 2 ≤ bits f 51 3 then addOnce x.equalized lane
                                                         else x.equalized.filter (· ≠ lane) }
      if (s.lnk l).equalized.length = 5 then s.toStep l 3 else s
    else if st = 3 then
      -- a lane reports the physical number of the peer's lane that it hears
      if 4 < bits f 48 3 then s
      else
        let s := s.modLnk l fun x => { x with aligned := addOnce x.aligned (bits f 48 3) }
        if (s.lnk l).aligned.length = 5 then s.toStep l 4 else s
    else s

/-- The fields of the training frame that this device sends on a lane: bits 0 to 95, with the link's state code (R247, R248). -/
def State.frameOut (s : State) (l lane tap req : Nat) : Nat :=
  let v := s.devid % 4096 + l % 16 * 2 ^ 12 + lane % 8 * 2 ^ 16 + s.lstate l % 8 * 2 ^ 19 + tap % 8 * 2 ^ 22 + req % 4 * 2 ^ 25 +
    (s.lnk l).tapStatus.get lane 0 % 4 * 2 ^ 27
  0x5F0A3C96 + v * 2 ^ 32 + crcOf 2 (leBytes 6 v) * 2 ^ 80

/-- The bits of a number, bit 0 first. -/
def bitsOf (n v : Nat) : List Nat := (List.range n).map fun i => bits v i 1

/-- A training frame goes out on every lane. What the receivers ask of the far end while they adapt, and where the PRBS31 fill
begins, are not stated and are free (R247, R248; log entry 74). -/
def State.sendFrames (s : State) (l : Nat) : State :=
  each (List.range 5) (fun lane s =>
    let ask := (Config.freeWord s.freeCtr).toNat
    let seed := (Config.freeWord (s.freeCtr + 1)).toNat
    let f := if s.trainStep l = 2 then s.frameOut l lane (ask % 4) (ask / 4 % 4) else s.frameOut l lane 0 0
    let out := levelsOf (bitsOf 96 f ++ (prbsRun 31 28 928 (1 + seed % (2 ^ 31 - 1))).1)
    { s with freeCtr := s.freeCtr + 2 }.modLnk l fun x => { x with lanes := x.lanes.put lane (x.lanes.get lane [] ++ out) }) s

/-- TRAINING_FRAME. -/
def execTrainingFrame (link : Fin 16) (lane : Fin 5) (frame : BitVec 96) (s : State) : Host.Outcome State Fault Refusal :=
  done s (s.frameIn link.val lane.val frame.toNat)

/-- TRAINING_TIMEOUT: back to Detect, or one more failed attempt of a retrain (R247, R259). A link that R250 holds in Exchange
stays. -/
def execTrainingTimeout (link : Fin 16) (s : State) : Host.Outcome State Fault Refusal :=
  done s (let l := link.val
    let st := s.lstate l
    if (s.lnk l).refused then s
    else if 2 ≤ st ∧ st ≤ 5 then
      (s.setRg Reg.AQ_STATUS_train_fail l (satAdd 63 (s.rg Reg.AQ_STATUS_train_fail l) 1)).enterTraining l 1
    else if st = 7 then
      let n := (s.lnk l).retrainFails + 1
      let s := s.modLnk l fun x => { x with retrainFails := n }
      if 3 ≤ n then s.retireLink l true else s.enterTraining l 7
    else s)

/-! ### Codewords (R221 to R225, R259) -/

/-- Corrected symbols on each receive lane (AQ_LANE_SYM). -/
def State.countSymbols (s : State) (l : Nat) (places : List Nat) : State :=
  places.foldl (fun s i =>
    let lane := mapLane (s.rg Reg.AQ_LANEMAP_rx_map l) (i % 4)
    (s.count Reg.AQ_LANE_SYM_symbols (5 * l + lane) 1).modLnk l fun x =>
      { x with laneSym := x.laneSym.put lane (x.laneSym.get lane 0 + 1) }) s

/-- The place within its train that the next codeword takes. -/
def Link.nextWord (x : Link) (data : List (BitVec 10)) : Link :=
  let d := x.rxData ++ [data]
  if x.codeword < 2 then { x with codeword := x.codeword + 1, rxData := d }
  else { x with codeword := 0, rxData := [], rxBarges := decodeTrain d, rxTrain := x.rxTrain + 1 }

/-- A codeword arrives. A link that loses codeword lock retrains (R259). -/
def State.codewordIn (s : State) (l : Nat) (w : List (BitVec 10)) : State :=
  let st := s.trainStep l
  if st < 4 ∨ 6 < st then s
  else match rsDecode (w.map (·.toNat)) with
    | some (word, fixed) =>
      let s := if fixed = [] then s else (s.count Reg.AQ_CNT_FEC_corrected l 1).countSymbols l fixed
      let s := (s.modLnk l fun x =>
        { x.nextWord (word.map (BitVec.ofNat 10)) with goodWords := x.goodWords + 1, badWords := 0 }).settleSwap l
      if st = 4 ∧ 64 ≤ (s.lnk l).goodWords then s.toStep l 5 else s
    | none =>
      let s := s.count Reg.AQ_CNT_REPLAY_uncorrectable l 1
      let s := (s.modLnk l fun x =>
        { x.nextWord w with goodWords := 0, badWords := x.badWords + 1, spoiled := x.spoiled ||| touched x.codeword }).settleSwap l
      if st = 6 then
        let s := s.linkFault l 0
        if Config.lockLost (s.lnk l).badWords then s.retrain l else s
      else s

/-- CODEWORD. -/
def execCodeword (link : Fin 16) (symbols : List (BitVec 10)) (s : State) : Host.Outcome State Fault Refusal :=
  done s (if symbols.length = 136 then s.codewordIn link.val symbols else s)

/-- The next barge of the train has arrived: was it spoiled, and the link after it (R225). -/
def Link.nextBarge (x : Link) : Bool × Link :=
  (x.spoiled.getLsbD x.bargeNo,
    if x.bargeNo = 9 then { x with bargeNo := 0, spoiled := 0 } else { x with bargeNo := x.bargeNo + 1 })

/-- The states that take barges: Active, and Lock and Exchange, in training or in a retrain. -/
def State.takesBarges (s : State) (l : Nat) : Bool := decide (4 ≤ s.trainStep l) && decide (s.trainStep l ≤ 6)

/-- A link barge whose CRC passes: one of an unknown kind or VC is discarded whole, and otherwise its ack counts whatever its kind
(R227, R229, R231, R246). A retire barge whose cell 2 is not 0x5A5 announces nothing (DESIGN CHOICE, log entry 95). -/
def State.linkIn (s0 : State) (l : Nat) (b : Barge) : State :=
  if bVc b ≠ 0 ∨ 3 < bKind b then s0.cause (.link l) Reg.AQ_CAUSE_unknown_kind l
  else
    let s := s0.modLnk l fun x => x.takeAck (bcell b 0)
    match bKind b with
    | 0 => if s.active l then s.statusIn l b else s
    | 1 => if s.active l then s.swapIn l b else s
    | 2 => s.paramIn l b
    | _ => if bcell b 2 = 0x5A5 then s.retireLink l true else s

/-- A link barge arrives; one that is spoiled or fails its CRC counts as a failure (R225, R228, R233). -/
def State.linkBargeIn (s : State) (l : Nat) (b : Barge) : State :=
  if !s.takesBarges l then s
  else
    let n := (s.lnk l).nextBarge
    let s := s.setLnk l n.2
    if n.1 ∨ !crcOk b then (if s.active l then s.modLnk l Link.fail else s)
    else if bLink b then s.linkIn l b else s

/-- STATUS_BARGE. -/
def execStatusBarge (link : Fin 16) (barge : Barge) (s : State) : Host.Outcome State Fault Refusal :=
  done s (s.linkBargeIn link.val barge)

/-- LANE_SWAP. -/
def execLaneSwap (link : Fin 16) (barge : Barge) (s : State) : Host.Outcome State Fault Refusal :=
  done s (s.linkBargeIn link.val barge)

/-- PARAMETER_BARGE. -/
def execParameterBarge (link : Fin 16) (barge : Barge) (s : State) : Host.Outcome State Fault Refusal :=
  done s (s.linkBargeIn link.val barge)

/-- RETIRE_BARGE. -/
def execRetireBarge (link : Fin 16) (barge : Barge) (s : State) : Host.Outcome State Fault Refusal :=
  done s (s.linkBargeIn link.val barge)

/-! ### Barge slots (R230, R231, R234, R236 to R241) -/

/-- The queue of a VC. -/
def Link.queueOf (x : Link) (vc : Nat) : List Waiting :=
  match vc with
  | 0 => x.q0
  | 1 => x.q1
  | 2 => x.q2
  | _ => x.q3

def Link.setQueue (x : Link) (vc : Nat) (q : List Waiting) : Link :=
  match vc with
  | 0 => { x with q0 := q }
  | 1 => { x with q1 := q }
  | 2 => { x with q2 := q }
  | _ => { x with q3 := q }

/-- Paddles in stock; VC0 needs none (R240). -/
def Link.hasPaddle (x : Link) (vc : Nat) : Bool :=
  match vc with
  | 0 => true
  | 1 => decide (0 < x.pad1)
  | 2 => decide (0 < x.pad2)
  | _ => decide (0 < x.pad3)

def Link.spend (x : Link) (vc : Nat) : Link :=
  match vc with
  | 0 => x
  | 1 => { x with pad1 := x.pad1 - 1 }
  | 2 => { x with pad2 := x.pad2 - 1 }
  | _ => { x with pad3 := x.pad3 - 1 }

/-- A new barge of the VC is ready; while a planned retirement drains, only VC2 sends (R261). -/
def Link.readyVc (x : Link) (vc : Nat) : Bool :=
  decide (x.queueOf vc ≠ []) && x.hasPaddle vc && (!x.draining || decide (vc = 2))

/-- The VC whose new barge goes (R236, R237). -/
def Link.pick (x : Link) : Option Nat :=
  if x.readyVc 2 then some 2
  else if 15 ≤ x.run3 ∧ x.readyVc 3 then some 3
  else if 15 ≤ x.run1 ∧ x.readyVc 1 then some 1
  else [0, 3, 1].find? x.readyVc

/-- The oldest barge of the source whose turn it is: the first source after the one served last (R237). -/
def roundRobin (q : List Waiting) (last : Nat) : Option Waiting :=
  ((List.range 17).map fun i => (last + 1 + i) % 17).findSome? fun src => q.find? fun w => w.src = src

/-- How long VC1 or VC3, ready or not, has seen slots go to VC0 once VC vc takes one. A turn earned lasts until it is taken
(R237). Only slots of new barges count and break a run (DESIGN CHOICE, log entry 95). -/
def nextRun (run mine vc : Nat) (ready : Bool) : Nat :=
  if !ready ∨ vc = mine then 0 else if vc = 0 then run + 1 else if 15 ≤ run then run else 0

/-- Send a new sequenced barge of a VC. -/
def State.sendNew (s : State) (l vc : Nat) : State :=
  let x := s.lnk l
  match roundRobin (x.queueOf vc) (x.served.get vc 16) with
  | none => s
  | some w =>
    let b := sealBarge w.barge x.txSeq (s.round l)
    let s := s.setLnk l { ((x.setQueue vc ((x.queueOf vc).erase w)).spend vc) with
      served := x.served.put vc w.src, txSeq := (x.txSeq + 1) % 4096, window := x.window ++ [b],
      sinceStatus := x.sinceStatus + 1, run1 := nextRun x.run1 1 vc (x.readyVc 1), run3 := nextRun x.run3 3 vc (x.readyVc 3) }
    (s.freeWaiting w).pins l b

/-- One barge slot of an Active link. -/
def State.activeSlot (s : State) (l : Nat) : State :=
  let x := s.lnk l
  if x.statusDue ∨ 63 ≤ x.sinceStatus then s.sendStatus l
  else match x.replaying with
    | b :: rest =>
      let b := sealBarge b (bcell b 0) (s.round l)
      (s.setLnk l { x with replaying := rest, sinceStatus := x.sinceStatus + 1 }).pins l b
    | [] =>
      if 512 ≤ x.window.length then s.sendStatus l
      else match x.pick with
        | some vc => s.sendNew l vc
        | none => s.sendStatus l

/-- Where the generator of a lane's pattern is kept: each pattern stands where it was last sent to. -/
def State.genKey (s : State) (l lane : Nat) : Nat := 4 * lane + s.rg Reg.AQ_PRBS_pattern (5 * l + lane)

/-- The bits that a lane's generator sends in a slot of Test, 96 of them, and where it then stands: the registers begin at ones,
the user pattern at its bit 0 (R262; log entry 74). -/
def State.testBits (s : State) (l lane : Nat) : List Nat × Nat :=
  let at_ := (s.lnk l).gens.get (s.genKey l lane)
  match s.rg Reg.AQ_PRBS_pattern (5 * l + lane) with
  | 0 => prbsRun 7 6 96 (at_ (2 ^ 7 - 1) % 2 ^ 7)
  | 1 => prbsRun 15 14 96 (at_ (2 ^ 15 - 1) % 2 ^ 15)
  | 2 => prbsRun 31 28 96 (at_ (2 ^ 31 - 1) % 2 ^ 31)
  | _ => ((List.range 96).map fun i => bits (s.rg Reg.AQ_USERPAT_pattern l) ((at_ 0 + i) % 32) 1, (at_ 0 + 96) % 32)

/-- A slot of a link in Test: each lane whose generator is on sends its pattern. -/
def State.testSlot (s : State) (l : Nat) : State :=
  each (which 5 fun n => s.on Reg.AQ_PRBS_gen_en (5 * l + n)) (fun n s =>
    let b := s.testBits l n
    s.modLnk l fun x => { x with lanes := x.lanes.put n (x.lanes.get n [] ++ levelsOf b.1), gens := x.gens.put (s.genKey l n) b.2 }) s

/-- A slot of a link in Exchange: a parameter barge, which echoes acceptance once the peer's has been accepted (R247, R249). -/
def State.paramSlot (s : State) (l : Nat) : State :=
  let s := s.pins l (s.paramOut l)
  (s.modLnk l fun x => { x with echoSent := x.echoSent || x.peerOk }).exchangeDone l

/-- BARGE_SLOT: what the transmitter sends in a slot: training frames, in Lock status barges, in Exchange parameter barges, then
traffic, and in Test the patterns (R237, R247, R262). -/
def execBargeSlot (link : Fin 16) (s : State) : Host.Outcome State Fault Refusal :=
  done s (let l := link.val
    if s.active l then s.activeSlot l
    else if s.exchanging l then s.paramSlot l
    else if s.trainStep l = 4 then s.sendStatus l
    else if 1 ≤ s.trainStep l ∧ s.trainStep l ≤ 3 then s.sendFrames l
    else if s.lstate l = 8 then s.testSlot l
    else s)

/-- ESCAPE_WAIT: a VC1 barge that waits for a paddle moves to VC3 of its escape link; an entry that fails parity is unreachable
(R241, R254, R319). -/
def execEscapeWait (link : Fin 16) (s : State) : Host.Outcome State Fault Refusal :=
  done s (let x := s.lnk link.val
    match x.q1 with
    | w :: rest =>
      if s.active link.val ∧ x.pad1 = 0 then
        let b := BitVec.ofNat 384 (w.barge.toNat + 2 * 2 ^ 21)
        (s.setLnk link.val { x with q1 := rest }).reroute { w with barge := b }
      else s
    | [] => s)

/-! ### Lanes (R257 to R263) -/

/-- LANE_SER_WINDOW: a lane over its threshold in three windows in a row is swapped (R259). -/
def execLaneSerWindow (link : Fin 16) (s : State) : Host.Outcome State Fault Refusal :=
  done s (let l := link.val
    let x := s.lnk l
    let hot := (List.range 5).map fun n =>
      (n, if s.rg Reg.AQ_THR_lane_ser l < x.laneSym.get n 0 then x.laneOver.get n 0 + 1 else 0)
    let bad := (hot.filter fun e => 3 ≤ e.2).map (·.1)
    let s := s.setLnk l { x with laneSym := [], laneOver := hot.filter fun e => e.2 ≠ 0 ∧ e.2 < 3 }
    if s.active l then each bad (fun n s => s.askSwap l n) s else s)

/-- CDR_LOSS: an Active link swaps the lane at once (R259). -/
def execCdrLoss (link : Fin 16) (lane : Fin 5) (s : State) : Host.Outcome State Fault Refusal :=
  done s (if s.active link.val then s.askSwap link.val lane.val else s)

/-- PLANNED_RETIRE_DRAIN: the replay buffer is empty, or 100 µs have passed (R261). -/
def execPlannedRetireDrain (link : Fin 16) (s : State) : Host.Outcome State Fault Refusal :=
  done s (let x := s.lnk link.val
    if x.draining then s.retireLink link.val (decide (x.window ≠ [])) else s)

/-- The link is the active route of a destination, or a candidate of it (R262). -/
def State.onRoute (s : State) (l : Nat) : Bool :=
  (s.routes.map fun e => e.1 / 2).any fun d => decide (s.route d = some l)

/-- AQ_CTRL: enable leaves Off for Detect or Test, or returns to Off, in a mode that has links (R505); retrain; planned retirement,
which waits while traffic flows or a barge is unacknowledged (R247, R261, R262). -/
def State.wAqCtrl (s : State) (who : Requester) (v : Word) : State :=
  let l := s.selLink who
  s.classWrite Reg.AQ_CTRL who l Reg.AQ_CTRL.addr v fun s0 =>
    let st := s0.lstate l
    let s := s0.writeFields Reg.AQ_CTRL who l v
    let on := Reg.AQ_CTRL_enable.of v = 1
    let s := if on ∧ st = 0 ∧ 4 ≤ s.mode then s
      else if on ∧ st = 0 then
        if s.on Reg.AQ_CTRL_test l then (if s.mode = 2 ∨ !s.onRoute l then s.enterTraining l 8 else s)
        else if s.mode = 0 then s else s.enterTraining l 1
      else if !on then s.linkOff l
      else s
    let s := State.quadrant s0 l s
    let s := if Reg.AQ_CTRL_retrain.of v = 1 then s.retrain l else s
    if Reg.AQ_CTRL_retire.of v = 1 ∧ s.lstate l ≠ 9 ∧ (s.lstate l = 6 ∨ s.lstate l = 7 ∨ (s.lnk l).window ≠ []) then
      (s.modLnk l fun x => { x with draining := true }).setRg Reg.AQ_CTRL_retire l 1
    else if Reg.AQ_CTRL_retire.of v = 1 ∧ s.lstate l ≠ 9 ∧ s.lstate l ≠ 0 then s.retireLink l false
    else s

/-- AQ_ENABLE. -/
def execAqEnable (who : Requester) (value : Word) (s : State) : Host.Outcome State Fault Refusal :=
  done s (s.asWriter who Reg.AQ_CTRL.addr fun s => s.wAqCtrl who value)

/-- AQ_RETRAIN. -/
def execAqRetrain (who : Requester) (value : Word) (s : State) : Host.Outcome State Fault Refusal :=
  done s (s.asWriter who Reg.AQ_CTRL.addr fun s => s.wAqCtrl who value)

/-- AQ_RETIRE. -/
def execAqRetire (who : Requester) (value : Word) (s : State) : Host.Outcome State Fault Refusal :=
  done s (s.asWriter who Reg.AQ_CTRL.addr fun s => s.wAqCtrl who value)

/-- A lane that is live or in Test: its link is trained, or in Test (R263). -/
def State.scannable (s : State) (l : Nat) : Bool := decide (4 ≤ s.lstate l) && decide (s.lstate l ≤ 8)

/-- AQ_MARGIN of the selected lane: on a live or test lane, a go that finds no scan running starts one (R263). -/
def State.wMargin (s : State) (who : Requester) (v : Word) : State :=
  match s.selLane who with
  | none => s
  | some n =>
    let busy := s.on Reg.AQ_MARGIN_busy n
    let s := s.writeFields Reg.AQ_MARGIN who n v
    if Reg.AQ_MARGIN_go.of v = 1 ∧ busy = false ∧ s.scannable (n / 5) then s.setRg Reg.AQ_MARGIN_busy n 1 else s

/-- AQ_MARGIN. -/
def execAqMargin (who : Requester) (value : Word) (s : State) : Host.Outcome State Fault Refusal :=
  done s (s.asWriter who Reg.AQ_MARGIN.addr fun s => s.wMargin who value)

/-- MARGIN_SCAN_DONE: the disagreements that the second sampler counted, over 2^(dwell + 20) bits (R263). -/
def execMarginScanDone (link : Fin 16) (lane : Fin 5) (errors : Word) (s : State) : Host.Outcome State Fault Refusal :=
  done s (let n := 5 * link.val + lane.val
    if s.on Reg.AQ_MARGIN_busy n then
      (s.setRg Reg.AQ_MARGIN_busy n 0).setRg Reg.AQ_MARGIN_RES_errors n (min errors.toNat (2 ^ (s.rg Reg.AQ_MARGIN_dwell n + 20)))
    else s)

/-- PRBS_CHECKER_LOCK (R262). -/
def execPrbsCheckerLock (link : Fin 16) (lane : Fin 5) (s : State) : Host.Outcome State Fault Refusal :=
  done s (let n := 5 * link.val + lane.val
    if s.lstate link.val = 8 ∧ s.on Reg.AQ_PRBS_chk_en n then
      (s.setRg Reg.AQ_PRBS_locked n 1).setRg Reg.AQ_PRBS_ERR_errors n 0
    else s)

/-- AQ_PRBS of the selected lane: a checker turned off is no longer locked. -/
def State.wPrbs (s : State) (who : Requester) (v : Word) : State :=
  match s.selLane who with
  | none => s
  | some n =>
    let s := s.writeFields Reg.AQ_PRBS who n v
    if s.on Reg.AQ_PRBS_chk_en n then s else (s.countBits n).setRg Reg.AQ_PRBS_locked n 0

/-! ### The route table (R252, R253, R266) -/

/-- Cell 1 of an entry as it reads: the active and usable fields are those of R253. -/
def State.routeCell1 (s : State) (d : Nat) : Nat :=
  let c1 := (cellOf (Mem.get s.routes (2 * d + 1))).toNat
  let c0 := (cellOf (Mem.get s.routes (2 * d))).toNat
  let good := parityOk (Mem.get s.routes (2 * d)) && parityOk (Mem.get s.routes (2 * d + 1))
  let use := fun k => good && c1.testBit k && s.active (bits c0 (4 * k) 4)
  let act := if use 0 then 0 else if use 1 then 1 else if use 2 then 2 else 3
  bits c1 0 3 + b2n (use 0) * 8 + b2n (use 2) * 16 + b2n (use 1) * 32 + act * 64 + bits c1 8 4 * 256

/-- Address after an access. -/
def State.routeNext (s : State) (who : Requester) : State :=
  let k := copyOf who
  if s.rgw Reg.AQ_ROUTE_ADDR_autoinc k = 1 then
    if s.rgw Reg.AQ_ROUTE_ADDR_cell k = 0 then s.setRgw Reg.AQ_ROUTE_ADDR_cell k 0 1
    else (s.setRgw Reg.AQ_ROUTE_ADDR_cell k 0 0).setRgw Reg.AQ_ROUTE_ADDR_dest k 0 ((s.rgw Reg.AQ_ROUTE_ADDR_dest k + 1) % 4096)
  else s

/-- A write: read-only bits are not stored. Class 10 takes the flip (R346). -/
def State.wRoute (s : State) (who : Requester) (v : Word) : State :=
  let k := copyOf who
  let dest := s.rgw Reg.AQ_ROUTE_ADDR_dest k
  let cell := s.rgw Reg.AQ_ROUTE_ADDR_cell k
  let x : Cell := if cell = 1 then v.setWidth 12 &&& 0xF07#12 else v.setWidth 12
  let d := s.flipCell 10 0 dest x
  { d.2 with routes := Mem.put d.2.routes (2 * dest + cell) d.1,
             routesCopy := Mem.put d.2.routesCopy (2 * dest + cell) x }.routeNext who

/-- A read. -/
def State.rRoute (s : State) (who : Requester) : State :=
  let k := copyOf who
  let dest := s.rgw Reg.AQ_ROUTE_ADDR_dest k
  let cell := s.rgw Reg.AQ_ROUTE_ADDR_cell k
  let x := Mem.get s.routes (2 * dest + cell)
  let v := if cell = 1 then s.routeCell1 dest else (cellOf x).toNat
  ((s.setRg Reg.AQ_ROUTE_DATA_par_err 0 (b2n (!parityOk x))).answer (v + b2n (!parityOk x) * 4096)).routeNext who

/-- AQ_ROUTE_DATA. -/
def execAqRouteData (who : Requester) (access : Option Word) (s : State) : Host.Outcome State Fault Refusal :=
  done s (match access with
    | some v => s.asWriter who Reg.AQ_ROUTE_DATA.addr fun s => s.wRoute who v
    | none => s.asReader who Reg.AQ_ROUTE_DATA.addr fun s => s.rRoute who)

/-! ### Counters -/

/-- AQ_CNT_FEC. -/
def execAqCntFec (who : Requester) (s : State) : Host.Outcome State Fault Refusal :=
  done s (s.asReader who Reg.AQ_CNT_FEC.addr fun s => s.readClear Reg.AQ_CNT_FEC who (s.selLink who))

/-- AQ_CNT_REPLAY. -/
def execAqCntReplay (who : Requester) (s : State) : Host.Outcome State Fault Refusal :=
  done s (s.asReader who Reg.AQ_CNT_REPLAY.addr fun s => s.readClear Reg.AQ_CNT_REPLAY who (s.selLink who))

/-- A per-lane counter; no lane selected reads zero. -/
def State.rLane (s : State) (who : Requester) (d : RegDef) : State :=
  match s.selLane who with
  | some n => s.readClear d who n
  | none => s.answer 0

/-- AQ_LANE_SYM. -/
def execAqLaneSym (who : Requester) (s : State) : Host.Outcome State Fault Refusal :=
  done s (s.asReader who Reg.AQ_LANE_SYM.addr fun s => s.rLane who Reg.AQ_LANE_SYM)

/-- The errors of the selected lane, counted up to the read. -/
def State.rPrbsErr (s : State) (who : Requester) : State :=
  match s.selLane who with
  | some n => (s.countBits n).readClear Reg.AQ_PRBS_ERR who n
  | none => s.answer 0

/-- AQ_PRBS_ERR. -/
def execAqPrbsErr (who : Requester) (s : State) : Host.Outcome State Fault Refusal :=
  done s (s.asReader who Reg.AQ_PRBS_ERR.addr fun s => s.rPrbsErr who)

end Sys2Proof.Machine
end

