-- ==== Sys2Proof/Machine/Faults.lean ====
section
/-!
DEFINITION. Sys2Proof/Machine/Faults.lean: the leak, the dredger and the TST registers (R324 to R326, R345, R346, R380).
-/
namespace Sys2Proof.Machine

/-! ### Leak (R324) -/

/-- LEAK: each bucket above 0 loses 1; a leak interval of 0 stops leaking. -/
def execLeak (s : State) : Host.Outcome State Fault Refusal :=
  done s (if s.rg Reg.TST_BKT_CTRL_leak = 0 then s
    else
      let b := s.tst.buckets.map fun (e : Nat × Nat) => (e.1, e.2 - 1)
      { s with tst := { s.tst with buckets := b } })

/-! ### The dredger (R325, R326) -/

/-- A pass so far: the errors found, and the state. -/
abbrev Pass := Nat × State

/-- One more error, and what is done about it. -/
def Pass.hit (p : Pass) (f : State → State) : Pass := (p.1 + 1, f p.2)

/-- Addresses of a memory's units whose parity is wrong. An unlisted unit holds zero, whose parity is right. -/
def badCells (m : Mem 13) : List Nat := (m.filter fun e => !parityOk e.2).map (·.1)

/-- The entry a bad cell belongs to, once for each entry. -/
def badEntries (m : Mem 13) (n : Nat) : List Nat := ((badCells m).map (· / n)).eraseDups

/-- The partition, relative reach and position that a cluster plays. -/
def State.plays (s : State) (c : Nat) : Option (Nat × Nat × Nat) :=
  match s.owner (c / 17), s.position c with
  | some t, some p => some (t, s.rel (c / 17), p)
  | _, _ => none

/-- Keeper 0 is to rebuild the golden copies of a partition (R322). -/
def State.askGold (s : State) (t : Nat) : State := s.modPart t fun x => { x with goldAsk := true }

/-- A bad program word: from the golden copy, or zeros in a spare. With both copies gone they are to be rebuilt. -/
def State.dredgeWord (s : State) (c w : Nat) : State :=
  let cell := ((badCells (s.clu c).pm).find? fun a => a / 72 = w).getD 0 % 72
  match s.plays c with
  | some u =>
    let g := s.goldWord c w
    if s.goldGone u.1 g then (s.tally true 1 0 c (cell * 1024 + w)).askGold u.1
    else (s.tally false 1 0 c (cell * 1024 + w)).putWordPm c w (Mem.getRun (s.part u.1).goldPm (72 * g) 72)
  | none => (s.tally false 1 0 c (cell * 1024 + w)).putWordPm c w (List.replicate 72 0)

/-- A bad value cell: marked, unmarked, or in a spare. -/
def State.dredgeVm (s : State) (c n : Nat) : State :=
  match s.plays c with
  | some u =>
    if ((s.part u.1).marks.get (17 * u.2.1 + u.2.2) 0).getLsbD n then
      (s.tally true 1 1 c n).cluStop c Reg.CLU_CAUSE_vm_parity
    else (s.tally false 1 1 c n).putVm c n (Mem.get (s.part u.1).goldVm ((17 * u.2.1 + u.2.2) * 4096 + n))
  | none => (s.tally false 1 1 c n).putVm c n 0

/-- A bad register: of an issuing cluster, which rolls back, of another that serves a partition, which only counts, or of a spare
(log entry 53). -/
def State.dredgeRf (s : State) (c r : Nat) : State :=
  match s.plays c with
  | some _ =>
    let s' := s.tally true 1 2 c r
    if (s.clu c).issuing then s'.cluStop c Reg.CLU_CAUSE_reg_parity else s'
  | none => (s.tally false 1 2 c r).putRf c r 0

/-- One cluster. -/
def Pass.cluster (p : Pass) (c : Nat) : Pass :=
  if p.2.on Reg.CLU_ROLE_retired c then p
  else
    let p := (badEntries (p.2.clu c).pm 72).foldl (fun p w => Pass.hit p fun s => s.dredgeWord c w) p
    let p := (badCells (p.2.clu c).vm).foldl (fun p n => Pass.hit p fun s => s.dredgeVm c n) p
    (badCells (p.2.clu c).rf).foldl (fun p r => Pass.hit p fun s => s.dredgeRf c r) p

/-- A crossbar or net-slot entry of a bound reach is rewritten from its golden copy. -/
def State.rewriteGold (s : State) (t r e : Nat) (nsm : Bool) : State :=
  let rel := s.rel r
  if nsm then s.rewriteEntry r (3 * e) (s.goldNet t rel e) (4096 + e) true
  else s.rewriteEntry r (8 * e) (Mem.getRun (s.part t).goldXbt (8192 * rel + 8 * e) 8) e false

/-- A bad crossbar or net-slot entry, rewritten from its golden copy unless both copies are unreadable. -/
def State.dredgeEntry (s : State) (r e : Nat) (nsm : Bool) : State :=
  let addr := if nsm then 4096 + e else e
  match s.owner r with
  | some t =>
    if s.goldGone t (if nsm then goldNsmKey (s.rel r) e else goldXbtKey (s.rel r) e) then
      (s.tally true 1 3 r addr).askGold t
    else (s.tally false 1 3 r addr).rewriteGold t r e nsm
  | none => (s.tally false 1 3 r addr).rewriteEntry r (if nsm then 3 * e else 8 * e) (List.replicate (if nsm then 3 else 8) 0) addr nsm

/-- Keeper 0 rewrites a berth-map entry from its copy (R320). -/
def State.rewriteBmap (s : State) (r b : Nat) : State :=
  let l := Mem.getRun (s.rch r).bmapCopy (3 * b) 3
  let d := s.flipCell 3 r (2 * 4096 + b) ((l.head?).getD 0)
  d.2.modRch r fun x => { x with bmap := Mem.putRun x.bmap (3 * b) (d.1 :: l.tail.map store) }

/-- A bad berth-map entry. -/
def State.dredgeBmap (s : State) (r b : Nat) : State := (s.tally false 1 3 r (2 * 4096 + b)).rewriteBmap r b

/-- Stop the partition of a reach with a cause latched. -/
def State.dredgeStop (s : State) (r : Nat) (f : Field) : State :=
  let s := s.cause (.reach r) f r
  match s.owner r with
  | some t => s.modPart t fun x => { x with stopped := true }
  | none => s

/-- A berth entry whose value or tag fails parity. -/
def badBerth (e : Nat × BerthEntry) : Bool := !parityOk e.2.value || !parityOk e.2.tag

/-- A cached halfword fails the parity of R154. -/
def badLine (l : CacheLine) : Bool := l.cells.any fun h => !parityOk (h.setWidth 13)

/-- A bad cache line: dropped while clean, a rollback while dirty. -/
def State.dredgeLine (s : State) (r line : Nat) : State :=
  let a := (s.rch r).cacheAt line
  match (s.rch r).cache.find line with
  | some l =>
    if l.dirty then (s.tally true 1 5 r a).dredgeStop r Reg.DMEM_R_CAUSE_data_parity
    else (s.tally false 1 5 r a).dropCopy line r
  | none => s

/-- One reach. -/
def Pass.reach (p : Pass) (r : Nat) : Pass :=
  if (p.2.rch r).retired ∨ p.2.powered r = false then p
  else
    let p := ((List.range 17).map (17 * r + ·)).foldl Pass.cluster p
    let p := (badEntries (p.2.rch r).xbt 8).foldl (fun p e => Pass.hit p fun s => s.dredgeEntry r e false) p
    let p := (badEntries (p.2.rch r).nsm 3).foldl (fun p e => Pass.hit p fun s => s.dredgeEntry r e true) p
    let p := (badEntries (p.2.rch r).bmap 3).foldl (fun p b => Pass.hit p fun s => s.dredgeBmap r b) p
    let p := (p.2.rch r).clrBad.foldl (fun p k => Pass.hit p fun s =>
      (s.tally true 1 3 r (3 * 4096 + k / 2)).dredgeStop r Reg.RCH_CAUSE_table_parity) p
    let p := (((p.2.rch r).berths.filter badBerth).map (·.1)).foldl (fun p k => Pass.hit p fun s =>
      (s.tally true 1 4 r (k % 2 * 4096 + k / 2)).dredgeStop r Reg.RCH_BCAUSE_berth_parity) p
    (((p.2.rch r).cache.filter fun e => badLine e.2).map (·.1)).foldl (fun p l => Pass.hit p fun s => s.dredgeLine r l) p

/-- One keeper (R380). -/
def Pass.keeper (p : Pass) (k : Nat) : Pass :=
  let r := p.2.dredgeKeeper k
  (p.1 + r.1, r.2)

/-- A bad route entry, rewritten from keeper 0's copy. -/
def State.dredgeRoute (s : State) (d : Nat) : State :=
  let l := Mem.getRun s.routesCopy (2 * d) 2
  let x := (s.tally false 1 10 0 d).flipCell 10 0 d ((l.head?).getD 0)
  { x.2 with routes := Mem.putRun x.2.routes (2 * d) (x.1 :: l.tail.map store) }

/-- A bad spn directory entry, rewritten from keeper 0's copy. -/
def State.dredgeSpn (s : State) (t : Nat) : State := s.healSpn 1 t

/-- A bad cell of a free staging or sluice buffer is zeroed. -/
def State.dredgeStage (s : State) (u : Nat) : State :=
  let d := (s.tally false 1 9 0 u).flipCell 9 0 u 0
  { d.2 with buffers9 := Mem.put d.2.buffers9 u d.1 }

/-- A whole pass over every powered memory of the classes it covers. Between two commands every buffer of class 9 is free (log entry
53). -/
def State.dredge (s : State) : Pass :=
  let p := (List.range 24).foldl Pass.reach (0, s)
  let p := if p.2.powered 32 then (List.range 4).foldl Pass.keeper p else p
  let p := (badEntries p.2.routes 2).foldl (fun p d => Pass.hit p fun s => s.dredgeRoute d) p
  let p := (badCells p.2.buffers9).foldl (fun p u => Pass.hit p fun s => s.dredgeStage u) p
  p.2.spnBad.foldl (fun p t => Pass.hit p fun s => s.dredgeSpn t) p

/-- A pass ends: one that ends after the next was due is late, and the next starts at once (R325). -/
def State.passEnds (s : State) : State :=
  let now := s.power.time
  let late := decide (s.tst.passDue < now)
  let s := if late then s.setRg Reg.TST_DREDGE_STAT_late 0 1 else s
  { s with tst := { s.tst with passDue := max now s.tst.passDue + max 1 (s.rg Reg.TST_DREDGE_CTRL_period) * 1000000 } }

/-- TST_DREDGE_CTRL: a pass starts as the dredger is switched on. -/
def State.wDredgeCtrl (s : State) (who : Requester) (v : Word) : State :=
  let s' := s.writeFields Reg.TST_DREDGE_CTRL who 0 v
  if s.on Reg.TST_DREDGE_CTRL_en = false ∧ s'.on Reg.TST_DREDGE_CTRL_en then
    let due := s.power.time + max 1 (s'.rg Reg.TST_DREDGE_CTRL_period) * 1000000
    { s' with tst := { s'.tst with passDue := due } }
  else s'

/-- DREDGE_PASS. -/
def execDredgePass (s : State) : Host.Outcome State Fault Refusal :=
  done s (if s.on Reg.TST_DREDGE_CTRL_en = false then s
    else
      let p := s.dredge
      ((p.2.count Reg.TST_DREDGE_STAT_passes 0 1).count Reg.TST_DREDGE_STAT_errors 0 p.1).passEnds)

/-! ### TST registers (R345, R346) -/

/-- TST_FLIP_SEL: ignored while a flip is armed. -/
def State.wFlipSel (s : State) (who : Requester) (v : Word) : State :=
  if s.on Reg.TST_FLIP_arm then s else s.writeFields Reg.TST_FLIP_SEL who 0 v

/-- TST_FLIP: discarded in Deployed (R532). The mask does not change while a flip is armed; clearing fired forgets the unit. -/
def State.wFlip (s : State) (v : Word) : State :=
  if s.rg Reg.SEC_LC_state = 2 then s
  else
    let s := if s.on Reg.TST_FLIP_arm then s else s.setRg Reg.TST_FLIP_mask 0 (Reg.TST_FLIP_mask.of v)
    let s := if Reg.TST_FLIP_fired.of v = 1 then
        { s.setRg Reg.TST_FLIP_fired 0 0 with tst := { s.tst with flipped := none } }
      else s
    s.setRg Reg.TST_FLIP_arm 0 (Reg.TST_FLIP_arm.of v)

/-- TST_FLIP. -/
def execTstFlip (who : Requester) (value : Word) (s : State) : Host.Outcome State Fault Refusal :=
  done s (s.asWriter who Reg.TST_FLIP.addr fun s => s.wFlip value)

/-- Instances of a fault class (R319). -/
def classRange : Nat → Nat
  | 0 => 408
  | 1 => 408
  | 2 => 408
  | 3 => 24
  | 4 => 24
  | 5 => 24
  | 6 => 2
  | 7 => 16
  | 8 => 4
  | 9 => 1
  | 10 => 1
  | _ => 0

/-- The bucket that a requester has selected: class and instance, if there is one. -/
def State.selBucket (s : State) (who : Requester) : Option (Nat × Nat) :=
  let c := s.rgw Reg.TST_BKT_SEL_class (copyOf who)
  let i := s.rgw Reg.TST_BKT_SEL_instance (copyOf who)
  if i < classRange c then some (c, i) else none

/-- TST_BKT, written: the class's threshold and the bucket's count. -/
def State.wBkt (s : State) (who : Requester) (v : Word) : State :=
  match s.selBucket who with
  | some b =>
    { s with tst := { s.tst with buckets := s.tst.buckets.put (b.1 * 512 + b.2) (Reg.TST_BKT_count.of v),
                                 thresholds := s.tst.thresholds.put b.1 (Reg.TST_BKT_threshold.of v) } }
  | none => s

/-- TST_BKT, read. -/
def State.rBkt (s : State) (who : Requester) : Nat :=
  match s.selBucket who with
  | some b =>
    Reg.TST_BKT_threshold.at (s.tst.thresholds.get b.1 255) +
      Reg.TST_BKT_full.at (b2n (s.threshold b.1 ≤ s.bucket b.1 b.2)) + s.bucket b.1 b.2
  | none => 0

/-- TST_ELOG_A, read: the oldest entry goes, and its address is latched. -/
def State.rElogA (s : State) : State :=
  match s.tst.elog with
  | [] => s.answer 0
  | e :: rest =>
    let s : State := { s with tst := { s.tst with elog := rest } }
    ((s.setRg Reg.TST_ELOG_STAT_entries 0 rest.length).setRg Reg.TST_ELOG_B_address 0 e.addr).answer
      (Reg.TST_ELOG_A_valid.at 1 + Reg.TST_ELOG_A_uc.at (b2n e.uc) + Reg.TST_ELOG_A_source.at e.source +
        Reg.TST_ELOG_A_class.at e.cls + Reg.TST_ELOG_A_instance.at e.inst)

/-- TST_ELOG_A. -/
def execTstElogA (who : Requester) (s : State) : Host.Outcome State Fault Refusal :=
  done s (s.asReader who Reg.TST_ELOG_A.addr fun s => s.rElogA)

/-- TST_ELOG_STAT. -/
def execTstElogStat (who : Requester) (s : State) : Host.Outcome State Fault Refusal :=
  done s (s.asReader who Reg.TST_ELOG_STAT.addr fun s => s.readClear Reg.TST_ELOG_STAT who 0)

/-- TST_DREDGE_STAT. -/
def execTstDredgeStat (who : Requester) (s : State) : Host.Outcome State Fault Refusal :=
  done s (s.asReader who Reg.TST_DREDGE_STAT.addr fun s => s.readClear Reg.TST_DREDGE_STAT who 0)

end Sys2Proof.Machine
end

