-- ==== Sys2Proof/Machine/Unload.lean ====
section
/-!
DEFINITION. Sys2Proof/Machine/Unload.lean: how a partition leaves the device: unload, partition reset, FLR (R17, R329, R450 to
R452, R508).
-/
namespace Sys2Proof.Machine

/-- A reach is unbound and power-gated; what played its margin position is a spare again; one marked for retirement goes behind
its stop planks (R17, R120, R329). -/
def State.unbindReach (s : State) (r : Nat) : State :=
  let s := each ((List.range 17).map (17 * r + ·)) (fun c s =>
    let s := (s.setRg Reg.CLU_CTRL_enable c 0).modClu c fun x => { x with issuing := false, st := 0 }
    if s.rg Reg.CLU_ROLE_role c = 16 then s.setRg Reg.CLU_ROLE_role c 0x1F else s) s
  let s := (s.setRg Reg.RCH_CTRL_enable r 0).setRg Reg.RCH_OWNER_bound r 0
  let s := (s.setRg Reg.RCH_OWNER_tenant r 0).setRg Reg.RCH_OWNER_rel_reach r 0
  let s := if (s.rch r).retireMark ∧ (s.rch r).retired = false then s.unitRetired 3 r 0 else s
  let s := s.modRch r fun x => { x with following := false, retired := x.retired || x.retireMark }
  s.setDomain r 0

/-- Pages of a partition: regions, undo pages in use, and free ones. -/
def Part.pagesHeld (x : Part) : List Nat :=
  (x.regions.flatMap fun g => g.pages.map (g.stack * 2 ^ 22 + ·)) ++
    (x.undoFree.map fun u => u.1 * 2 ^ 22 + u.2) ++
    ((x.undoPinned ++ x.undoNow ++ x.ckpts.flatMap fun k => k.segU).map fun u => u.stack * 2 ^ 22 + u.phys)

/-- The lock unit's status of a tenant with no partition. -/
def State.clearLock (s : State) (t : Nat) : State :=
  (Reg.LCK_STATUSt.fields ++ Reg.LCK_POUNDt.fields ++ Reg.LCK_CKPTt.fields ++ Reg.LCK_CKPT_OLDt.fields ++
    Reg.LCK_HORIZONt.fields ++ [Reg.LCK_EXPORTt_busy, Reg.WHF_STOP_STAT_stopped, Reg.DMEM_RESVt_stack0,
      Reg.DMEM_RESVt_stack1]).foldl (fun s f => s.setRg f t f.reset) s

/-- The partition of tenant t is removed: its reaches unbound, its pages, buffers and reservation returned (R450). -/
def State.removePart (s : State) (t : Nat) : State :=
  let x := s.part t
  let s := s.forgetLines x.bound
  let s := each x.bound (fun r s => s.unbindReach r) s
  let s := each (x.buffers.filter (s.heldFor t)) (fun b s => s.giveBack b) s
  let s := { s with pagesUsed := s.pagesUsed.filter fun p => !x.pagesHeld.contains p }
  let s := each (which 4 fun k => s.on Reg.KPR_HOOK_pending k && decide (s.rg Reg.KPR_HOOK_tenant k = t))
    (fun k s => s.setRg Reg.KPR_HOOK_pending k 0) s
  let s := { s with parts := s.parts.del t, shortRun := s.shortRun.del t }
  ((s.clearLock t).setMode t 0).raiseHooks

/-- R450 on this device; the commands that it abandons end with it, and every ledger buffer of the tenant goes back. -/
def State.resetPart (s : State) (t : Nat) : State :=
  let s := s.endCommands t 0x21
  let s := if s.loaded t ∧ s.multi t then s.suspendShare t else s
  let s := if s.loaded t then s.removePart t else s
  let s := each (s.tenantBuffers t) (fun b s => s.giveBack b) s
  let q := s.queue (qid t 3)
  s.setQueue (qid t 3) { q with held := [] }

/-- Every register of a function's page at its Reset value, its queues disabled, its held faults gone, its table masked (R451). Its
configuration registers return to reset too, but for AER's, which are sticky (log entry 25). -/
def State.clearPage (s : State) (f : Nat) : State :=
  let plain := [Reg.WHF_SQ_TAIL, Reg.WHF_CQ_HEAD, Reg.WHF_FQ_HEAD, Reg.WHF_OQ_HEAD, Reg.WHF_AREA_HEAD, Reg.WHF_STOP_STAT,
    Reg.WHF_QSEL, Reg.WHF_TSTAT, Reg.WHF_TCTRL]
  let s := (plain.flatMap (·.fields)).foldl (fun s x => s.setRg x f x.reset) s
  let s := each (List.range 8) (fun k s =>
    ((Reg.WHF_QBASE_LO.fields ++ Reg.WHF_QBASE_HI.fields ++ Reg.WHF_QCFG.fields).foldl
      (fun s x => s.setRg x (qid f k) x.reset) s).setQueue (qid f k)
        { s.queue (qid f k) with phase := true, ordinal := 0, bound := false }) s
  { s.setFn f { aer := (s.fn f).aer } with faults := s.faults.del f, msix := Tbl.keep s.msix fun k => decide (k / 16 ≠ f) }

/-- An FLR of one function, a function event (R397). -/
def State.flrOne (s : State) (f : Nat) : State := ((s.resetPart f).clearPage f).edge (112 + f)

/-- An FLR; the PF's reaches every VF (R451). -/
def State.doFlr (s : State) (f : Nat) : State := if f = 0 then each (List.range 16) (fun f s => s.flrOne f) s else s.flrOne f

/-- A configuration request: Configuration Request Retry Status in Bring-up; the link leaves L1 first, and a function that does not
exist does not support it (R418, R421, R453). -/
def State.onConfig (s : State) (fn : Nat) (f : State → State) : State :=
  if s.mode = 0 then s.replied 2
  else if s.present fn then f (s.leaveL1.replied 0) else s.leaveL1.replied 1

/-- FLR. -/
def execFlr (fn : Fin 16) (s : State) : Host.Outcome State Fault Refusal :=
  done s (s.onConfig fn.val fun s => s.doFlr fn.val)

/-- PCIE_DL_DOWN acts as an FLR of the PF (R512), and is a link event (R397). -/
def execPcieDlDown (s : State) : Host.Outcome State Fault Refusal :=
  done s ({ s with power := { s.power with linkState := 0 } }.doFlr 0 |>.edge 134)

/-- WHF_TCTRL. -/
def State.wTctrl (s : State) (f : Nat) (v : Word) : State :=
  let s := s.writeFields Reg.WHF_TCTRL .pf f v
  if Reg.WHF_TCTRL_preset.of v = 1 then s.resetPart f else s

/-- PRESET. -/
def execPreset (fn : Fin 16) (value : Word) (s : State) : Host.Outcome State Fault Refusal :=
  done s (s.onPage fn.val false fun s => s.wTctrl fn.val value)

end Sys2Proof.Machine
end

