-- ==== Sys2Proof/Machine/Standby.lean ====
section
/-!
DEFINITION. Sys2Proof/Machine/Standby.lean: Sanitize entered, Standby entered and left, wake causes and tamper (R529 to R531, R534,
R535).
-/
namespace Sys2Proof.Machine

/-- Every link out of Off goes there, with its quadrant, but for retired ones. -/
def State.linksOff (s : State) : State := each (List.range 16) (fun l s => State.quadrant s l (s.linkOff l)) s

/-! ### Sanitize (R534) -/

/-- Sanitize begins: partitions are reset, commands end with 0x21, the secure basin is wiped, the links are Off. The rest is
the wipe. -/
def State.enterSanitize (s : State) : State :=
  let s := each (List.range 16) (fun t s => s.resetPart t) s
  let s := (s.linksOff).setRg Reg.PWR_MODE_mode 0 4
  { s with secure := {}, power := { s.power with wiping := true, tamperPending := false } }

/-! ### Standby (R529 to R531) -/

/-- Partitions whose reaches are retained: all that are loaded (R520, R529; log entry 33). -/
def State.retained (s : State) : List Nat := which 24 fun r => s.on Reg.RCH_OWNER_bound r

/-- The conditions of Standby-retain: a VF that VF Enable does not bring out is disabled (R453, R529). -/
def State.standbyReady (s : State) : Bool :=
  decide (s.mode = 1) && s.on Reg.PWR_CTRL_standby_en && (s.fn 0).d3hot &&
    (List.range 15).all (fun k => (s.fn (k + 1)).d3hot || !s.present (k + 1)) &&
    (List.range 16).all (fun t => decide (s.pmode t ≠ 2) && decide (s.pmode t ≠ 4) && decide (s.pmode t ≠ 5))

/-- STANDBY_ENTRY. -/
def execStandbyEntry (s : State) : Host.Outcome State Fault Refusal :=
  done s (if s.standbyReady then
      let keep := s.retained ++ [28, 29, 31, 32, 33, 34]
      let s := each (List.range 16) (fun l s => s.linkOff l) s
      let s := s.setDomains keep 2
      let s := s.setDomains ((List.range 35).filter fun d => !keep.contains d) 0
      (s.setRg Reg.PWR_MODE_mode 0 5).setRg Reg.PWR_MODE_depth 0 0
    else s)

/-- The device leaves Standby: from Standby-retain for Ready, from Standby-aux by asserting WAKE#. A tamper latched meanwhile
leads to Sanitize (R530, R531, R535). -/
def State.endStandby (s : State) : State :=
  if s.rg Reg.PWR_MODE_depth = 0 then
    let s := (s.setDomains s.wakeDomains 1).setRg Reg.PWR_MODE_mode 0 1
    let s := s.sendPme
    if s.power.tamperPending then s.enterSanitize else s
  else s.wakeAux

/-- A wake cause: latched always, it ends Standby if it is enabled; host resume and tamper are (R530, AON_WAKE_EN). -/
def State.wakeBy (s : State) (i : Nat) : State :=
  let s := s.latchWake i
  if s.mode = 5 ∧ (bit (s.rg Reg.AON_WAKE_EN_en) i ∨ i = 0 ∨ i = 5) then s.endStandby else s

/-- WAKE. -/
def execWake (cause : Fin 7) (s : State) : Host.Outcome State Fault Refusal := done s (s.wakeBy cause.val)

/-- ALERT_INPUT: the filtered level; its edge is an interrupt and a wake cause (R396, R530). -/
def execAlertInput (input : Fin 2) (asserted : Bool) (s : State) : Host.Outcome State Fault Refusal :=
  done s (let old := if input.val = 0 then s.power.alert0 else s.power.alert1
    let s := { s with power := if input.val = 0 then { s.power with alert0 := asserted } else { s.power with alert1 := asserted } }
    if asserted ∧ old = false then (s.edge (130 + input.val)).wakeBy (3 + input.val) else s)

/-- TAMPER: the secure basin is wiped at once; then Sanitize, or Standby ends first (R535). -/
def execTamper (s : State) : Host.Outcome State Fault Refusal :=
  done s (let s : State := { s with secure := { s.secure with basin := [] } }
    let s := ((s.setRg Reg.AON_STAT_tamper 0 1).edge 17).powerAlarm 0x00C 0
    match s.mode with
    | 4 => s.latchWake 5
    | 5 => { s with power := { s.power with tamperPending := true } }.wakeBy 5
    | _ => (s.latchWake 5).enterSanitize)

/-- WAKE_TIME: the comparator is armed and the time is reached; it disarms (R525). -/
def execWakeTime (s : State) : Host.Outcome State Fault Refusal :=
  done s (if s.on Reg.AON_CMP_wake_en ∧ s.power.wakeTime ≤ s.power.time then
      ((s.setRg Reg.AON_CMP_wake_en 0 0).edge 128).wakeBy 1
    else s)

end Sys2Proof.Machine
end

