-- ==== Sys2Proof/Machine/Host.lean ====
section
/-!
DEFINITION. Sys2Proof/Machine/Host.lean: the doorbell page, the queues, the commands and the stop doorbell (R422 to R453).
-/
namespace Sys2Proof.Machine

/-! ### Queues (R424 to R427, R443, R454) -/

/-- A doorbell index is written. -/
def State.ring (s : State) (f : Field) (fn : Nat) (v : Word) : State := s.setRg f fn (f.of v)

/-- WHF_SQ_TAIL: raises the submission source; a disabled queue is a queue error (R442, R454). -/
def State.wSqTail (s : State) (fn : Nat) (v : Word) : State :=
  let s := (s.setRg Reg.WHF_SQ_TAIL_index fn (Reg.WHF_SQ_TAIL_index.of v)).edge (96 + fn)
  if s.on Reg.WHF_QCFG_enable (qid fn 0) then s else s.postFault fn 7 0 0

/-- WHF_SQ_TAIL. -/
def execWhfSqTail (fn : Fin 16) (value : Word) (s : State) : Host.Outcome State Fault Refusal :=
  done s (s.onPage fn.val true fun s => s.wSqTail fn.val value)

/-- WHF_CQ_HEAD. -/
def execWhfCqHead (fn : Fin 16) (value : Word) (s : State) : Host.Outcome State Fault Refusal :=
  done s (s.onPage fn.val true fun s => s.ring Reg.WHF_CQ_HEAD_index fn.val value)

/-- WHF_FQ_HEAD. -/
def execWhfFqHead (fn : Fin 16) (value : Word) (s : State) : Host.Outcome State Fault Refusal :=
  done s (s.onPage fn.val true fun s => s.ring Reg.WHF_FQ_HEAD_index fn.val value)

/-- WHF_OQ_HEAD. -/
def execWhfOqHead (fn : Fin 16) (value : Word) (s : State) : Host.Outcome State Fault Refusal :=
  done s (s.onPage fn.val true fun s => s.ring Reg.WHF_OQ_HEAD_index fn.val value)

/-- WHF_AREA_HEAD returns pages of both areas (R440). -/
def execWhfAreaHead (fn : Fin 16) (value : Word) (s : State) : Host.Outcome State Fault Refusal :=
  done s (s.onPage fn.val true fun s =>
    (s.ring Reg.WHF_AREA_HEAD_export fn.val value).ring Reg.WHF_AREA_HEAD_log fn.val value)

/-- The doorbell index of a kind. -/
def headField (kind : Nat) : Option Field :=
  match kind with
  | 0 => some Reg.WHF_SQ_TAIL_index
  | 1 => some Reg.WHF_CQ_HEAD_index
  | 2 => some Reg.WHF_FQ_HEAD_index
  | 3 => some Reg.WHF_OQ_HEAD_index
  | 4 => some Reg.WHF_AREA_HEAD_export
  | 5 => some Reg.WHF_AREA_HEAD_log
  | _ => none

/-- A queue or area is enabled: dptr, its doorbell index and the alive counting restart at 0, its phase at 1 (WHF_QCFG). -/
def State.startQueue (s : State) (fn kind : Nat) : State :=
  let q := qid fn kind
  let s := (s.setRg Reg.WHF_QCFG_enable q 1).setRg Reg.WHF_QCFG_dptr q 0
  let s := match headField kind with
    | some f => s.setRg f fn 0
    | none => s
  s.setQueue q { s.queue q with ordinal := 0, phase := true }

/-- WHF_QCFG of the kind that WHF_QSEL shows. -/
def State.wQcfg (s : State) (fn : Nat) (v : Word) : State :=
  let kind := s.rg Reg.WHF_QSEL_kind fn
  let q := qid fn kind
  let n := Reg.WHF_QCFG_size_log2.of v
  let on := s.on Reg.WHF_QCFG_enable q
  if kind = 7 then s
  else if kind ≠ 6 ∧ ((on ∧ n ≠ s.rg Reg.WHF_QCFG_size_log2 q) ∨ n < 4 ∨ 12 < n) then s
  else
    let s := s.setRg Reg.WHF_QCFG_size_log2 q n
    if Reg.WHF_QCFG_enable.of v = 1 then (if on then s else s.startQueue fn kind)
    else (s.setRg Reg.WHF_QCFG_enable q 0).setQueue q { s.queue q with bound := false }

/-- WHF_QCFG. -/
def execWhfQcfg (fn : Fin 16) (value : Word) (s : State) : Host.Outcome State Fault Refusal :=
  done s (s.onPage fn.val false fun s => s.wQcfg fn.val value)

/-- WHF_QBASE_LO or WHF_QBASE_HI: in use while the kind is enabled. -/
def State.wQbase (s : State) (fn : Nat) (f : Field) (v : Word) : State :=
  let kind := s.rg Reg.WHF_QSEL_kind fn
  let q := qid fn kind
  if kind = 7 ∨ s.on Reg.WHF_QCFG_enable q then s
  else if f = Reg.WHF_QBASE_LO_addr ∧ v.toNat % 4096 ≠ 0 then s
  else s.setRg f q v.toNat

/-- WHF_TSTAT, read: log_skipped clears. -/
def State.rTstat (s : State) (fn : Nat) : State := s.readClear Reg.WHF_TSTAT .pf fn

/-- WHF_TSTAT. -/
def execWhfTstat (fn : Fin 16) (s : State) : Host.Outcome State Fault Refusal :=
  done s (s.readPage fn.val fun s => s.rTstat fn.val)

/-- UNLOAD ends once every committed output has been written (R430). -/
def State.tryUnload (s : State) (t : Nat) : State :=
  match (s.part t).openCmds.find? fun c => c.opcode = 6 with
  | some c => if (s.queue (qid t 3)).held = [] then (s.removePart t).finish t (BitVec.ofNat 16 c.cmdId) 0 else s
  | none => s

/-- One held entry of a queue is written, if a slot is free (R426, R427, R443); an emptied output queue may let the partition's
ARRIVE or UNLOAD go on (R438). -/
def State.drainQueue (s : State) (fn kind : Nat) : State :=
  if s.qopen fn kind = false then s
  else if kind = 2 then
    match s.faults.get fn [] with
    | f :: rest => { s with faults := s.faults.put fn rest }.qwrite fn 2 (s.faultEntry fn f)
    | [] => s
  else
    let q := s.queue (qid fn kind)
    match q.held with
    | e :: rest =>
      let s := (s.setQueue (qid fn kind) { q with held := rest }).qwrite fn kind e
      if kind = 3 then (s.tryArrive fn).tryUnload fn else s
    | [] => s

/-- QUEUE_ENTRY_WRITE: kinds 1, 2 and 3 are written by the device. -/
def execQueueEntryWrite (fn : Fin 16) (kind : BitVec 3) (s : State) : Host.Outcome State Fault Refusal :=
  done s (if 1 ≤ kind.toNat ∧ kind.toNat ≤ 3 then s.drainQueue fn.val kind.toNat else s)

/-- PSB_UPDATE: every changed count goes to the port status block (R435). -/
def State.psb (s : State) (t : Nat) : State :=
  let q := qid t 6
  if s.on Reg.WHF_QCFG_enable q = false ∨ (s.fn t).d3hot then s
  else
    let x := s.part t
    let s := (x.inputs.filter fun e => e.2.dirty).foldl (fun s e =>
      s.hostPut (s.qbase q + 4 * e.1) (leBytes 4 e.2.consumed)) s
    s.setPart t { x with inputs := x.inputs.map fun (e : Nat × InPort) => (e.1, { e.2 with dirty := false }) }

/-- PSB_UPDATE. -/
def execPsbUpdate (t : Fin 16) (s : State) : Host.Outcome State Fault Refusal := done s (s.psb t.val)

/-! ### MSI-X (R444) -/

/-- MSIX_COALESCE: the time of a batch ends. -/
def execMsixCoalesce (fn : Fin 16) (vector : BitVec 4) (s : State) : Host.Outcome State Fault Refusal :=
  done s (let k := 16 * fn.val + vector.toNat
    let x := s.msix.get k {}
    if x.batch then { s with msix := s.msix.put k { x with batch := false } }.msixSend fn.val vector.toNat else s)

/-- A vector's mask changes; a pending message goes when it is unmasked. -/
def State.setMask (s : State) (fn v : Nat) (masked : Bool) : State :=
  let x := s.msix.get (16 * fn + v) {}
  let s := { s with msix := s.msix.put (16 * fn + v) { x with masked := masked } }
  if x.pending ∧ masked = false then s.msixSend fn v else s

/-- Vectors of a function. -/
def vectorsOf (fn : Nat) : Nat := if fn = 0 then 16 else 4

/-- MSIX_UNMASK. -/
def execMsixUnmask (fn : Fin 16) (vector : BitVec 4) (s : State) : Host.Outcome State Fault Refusal :=
  done s (s.onPage fn.val false fun s =>
    if vector.toNat < vectorsOf fn.val then s.setMask fn.val vector.toNat false else s)

/-! ### Submission (R428, R429) -/

/-- The listed opcodes (R430). -/
def opcodeOk (n : Nat) : Bool := decide (1 ≤ n) && decide (n ≤ 11)

/-- An entry that has been read, with its CRC checked. -/
def State.takeEntry (s : State) (t : Nat) (e : BitVec 512) : State :=
  let q := qid t 0
  let i := s.rg Reg.WHF_QCFG_dptr q
  let x := s.queue q
  let l := leBytes 64 e.toNat
  let s := (s.setRg Reg.WHF_QCFG_dptr q ((i + 1) % s.qlen q)).setQueue q { x with ordinal := (x.ordinal + 1) % 4096 }
  let id := BitVec.ofNat 16 (sliceLe l 2 2)
  if crcAlive x.ordinal (l.take 60) ≠ sliceLe l 60 4 then (s.finish t id 0x20).postFault t 7 0 2
  else if opcodeOk (sliceLe l 0 2) then { s with fetched := s.fetched.put t [e] }
  else s.finish t id 0x16

/-- SUBMISSION_ENTRY: the next entry is read, once the one before it has been carried out, and its CRC checked. A base that cannot be
read is a queue error, and nothing is taken (R442). -/
def State.readEntry (s : State) (t : Nat) (e : Option (BitVec 512)) : State :=
  let q := qid t 0
  if s.pageOpen true = false ∨ s.on Reg.WHF_QCFG_enable q = false ∨ s.rg Reg.WHF_QCFG_dptr q = s.qhead t 0 ∨ (s.fn t).d3hot ∨
      s.fetched.get t [] ≠ [] ∨ (s.part t).openCmds ≠ [] then s
  else match e with
    | some e => s.takeEntry t e
    | none => s.postFault t 7 0 1

/-- SUBMISSION_ENTRY. -/
def execSubmissionEntry (t : Fin 16) (entry : Option (BitVec 512)) (s : State) : Host.Outcome State Fault Refusal :=
  done s (s.readEntry t.val entry)

/-- The fields of a submission entry that its command uses (R428). -/
structure SqEntry where
  opcode : Nat
  cmdId : Nat
  length : Nat
  op0 : Nat
  op1 : Nat
  op2 : Nat
  deriving DecidableEq, Repr

/-- A submission entry taken apart (R428). -/
def sqEntry (e : BitVec 512) : SqEntry :=
  let l := leBytes 64 e.toNat
  ⟨sliceLe l 0 2, sliceLe l 2 2, sliceLe l 0x10 8, sliceLe l 0x18 4, sliceLe l 0x1C 4, sliceLe l 0x20 4⟩

/-- The command may be what the tenant's fetched entry says: its opcode, its cmd_id and the operands that it uses. With nothing
fetched the command stands for its entry, read and executed (R429; log entry 24). -/
def State.agrees (s : State) (t : Nat) (cmd : BitVec 16) (opcode : Nat) (uses : SqEntry → Bool) : Bool :=
  (s.fetched.get t []).all fun e =>
    decide ((sqEntry e).opcode = opcode) && decide ((sqEntry e).cmdId = cmd.toNat) && uses (sqEntry e)

/-! ### Commands (R430) -/

/-- A command of tenant t is carried out, once no other is in execution and where it is what the fetched entry says. Where the device
mode or the partition mode does not accept it, it completes with status 0x10. -/
def State.command (s : State) (t : Nat) (cmd : BitVec 16) (opcode : Nat) (modes : List Nat) (f : State → State)
    (uses : SqEntry → Bool := fun _ => true) : State :=
  if (s.part t).openCmds ≠ [] ∨ s.mode = 0 ∨ 3 < s.mode ∨ s.agrees t cmd opcode uses = false then s
  else
    let s := { s with fetched := s.fetched.put t [] }
    if s.mode = 3 ∨ !modes.contains (s.pmode t) then s.finish t cmd 0x10 else f s

/-- The command stays open. -/
def State.openCmd (s : State) (t : Nat) (cmd : BitVec 16) (opcode arg : Nat) : State :=
  s.modPart t fun x => { x with openCmds := [⟨cmd.toNat, opcode, arg⟩] }

/-- START: the start checkpoint, then the flight of the start lock (R268, R432). -/
def execStart (t : Fin 16) (cmd : BitVec 16) (s : State) : Host.Outcome State Fault Refusal :=
  done s (s.command t.val cmd 2 [1] fun s =>
    let s := (s.openCmd t.val cmd 2 0).modPart t.val fun x => { x with starting := true, atLock := true, captured := false }
    (s.setPhase t.val 1).capture t.val 0 0)

/-- HOLD: STOP with boundary 1 on every device (R430, R495). -/
def execHold (t : Fin 16) (cmd : BitVec 16) (s : State) : Host.Outcome State Fault Refusal :=
  done s (s.command t.val cmd 3 [2, 4] fun s =>
    let d := s.drawId t.val
    ((d.2.openCmd t.val cmd 3 d.1).stopPart t.val d.1 true none).settleHold t.val)

/-- The partition leaves Held or Stepping, or a stop that has not yet taken effect is withdrawn; its HOLD then ends (R446,
R508). -/
def State.release (s : State) (t : Nat) : State :=
  let x := s.part t
  if s.suspended t then s
  else
    let s := (s.setPart t { x with holdReq := none, stopOwed := none, stepLeft := 0 }).setRg Reg.WHF_STOP_STAT_stopped t 0
    let s := if s.pmode t = 3 then s.setMode t (if x.heldReplay then 5 else 2)
      else if s.pmode t = 4 then s.setMode t 2 else s
    let s := s.closeCmds t 4
    if x.openCmds.any fun c => c.opcode = 3 then s.dropOpen t 0x10 else s

/-- GO of an id (R446). -/
def State.goPart (s : State) (t id : Nat) (sender : Option Nat) : State :=
  let x := s.part t
  if x.goIds.contains id then s
  else
    let s := s.setPart t { x with goIds := keepId x.goIds id }
    (s.broadcast t ((s.neighbours t).filter fun d => some d ≠ sender) 0x021 [id]).release t

/-- RUN: GO on every device (R430, R495). -/
def execRun (t : Fin 16) (cmd : BitVec 16) (s : State) : Host.Outcome State Fault Refusal :=
  done s (s.command t.val cmd 4 [3, 4] fun s =>
    let d := s.drawId t.val
    (d.2.openCmd t.val cmd 4 d.1).goPart t.val d.1 none)

/-- STEP (R430, R510). -/
def execStep (t : Fin 16) (cmd : BitVec 16) (op0 : Word) (s : State) : Host.Outcome State Fault Refusal :=
  done s (s.command t.val cmd 5 [3] (uses := fun e => decide (e.op0 = op0.toNat)) fun s =>
    if op0.toNat = 0 ∨ 65535 < op0.toNat then s.finish t.val cmd 0x16
    else
      let s := s.modPart t.val fun x => { x with stepLeft := op0.toNat, holdReq := none }
      ((s.setRg Reg.WHF_STOP_STAT_stopped t.val 0).setMode t.val 4).finish t.val cmd 0)

/-- UNLOAD (R430). -/
def execUnload (t : Fin 16) (cmd : BitVec 16) (s : State) : Host.Outcome State Fault Refusal :=
  done s (s.command t.val cmd 6 [1, 3, 7] fun s => (s.openCmd t.val cmd 6 0).tryUnload t.val)

/-- Offer values to an input port: those accepted, and the port after (R434, R436). -/
def InPort.offer (x : InPort) (flagged : Bool) (l : List Cell) : Nat × InPort :=
  let room := if flagged then 16 - x.queue.length else 256 - (x.queue.length + x.taken.length)
  let n := min room l.length
  (n, { x with queue := x.queue ++ l.take n, overflow := x.overflow || (flagged && decide (n < l.length)) })

/-- INPUT (R436). It reads host memory, and so waits while its function is in D3hot (R453). -/
def execInput (t : Fin 16) (cmd : BitVec 16) (op0 : Word) (length : Nat) (values : List (BitVec 16)) (s : State) :
    Host.Outcome State Fault Refusal :=
  done s (if (s.fn t.val).d3hot then s
    else s.command t.val cmd 7 [1, 2, 3, 4, 5, 6] (uses := fun e => decide (e.op0 = op0.toNat) && decide (e.length = length)) fun s =>
    let port := op0.toNat % 1024
    if length = 0 ∨ 4096 < length ∨ 1023 < op0.toNat then s.finish t.val cmd 0x16
    else match (s.part t.val).ports.find? fun p => p.port = port ∧ p.isInput with
      | none => s.finish t.val cmd 0x15
      | some p =>
        if values.length ≠ length then s.finish t.val cmd 0x12
        else
          let r := (s.inPort t.val port).offer p.flagged (values.map fun v => v.setWidth 12)
          (s.setInPort t.val port r.2).finish t.val cmd 0 r.1)

/-- SET_AREA: the area set up under kind 4 or 5 takes deliveries from here on (R430); a suspended partition does not accept it
(R508). -/
def execSetArea (t : Fin 16) (cmd : BitVec 16) (op0 : Word) (s : State) : Host.Outcome State Fault Refusal :=
  done s (s.command t.val cmd 8 [0, 1, 2, 3, 4, 5, 6] (uses := fun e => decide (e.op0 = op0.toNat)) fun s =>
    if 1 < op0.toNat then s.finish t.val cmd 0x16
    else
      let q := qid t.val (4 + op0.toNat)
      (s.setQueue q { s.queue q with bound := true }).finish t.val cmd 0)

/-- ROLLBACK, the command: LCK_CMDt op 1 or 2 at keeper 0; result0 is the target (R430). -/
def execRollbackCommand (t : Fin 16) (cmd : BitVec 16) (op0 : Word) (s : State) : Host.Outcome State Fault Refusal :=
  done s (s.command t.val cmd 9 [2, 3] (uses := fun e => decide (e.op0 = op0.toNat)) fun s =>
    if 1 < op0.toNat then s.finish t.val cmd 0x16
    else
      let older := decide (op0.toNat = 1)
      let target := s.reqTarget t.val older
      (s.sendReq t.val older false (s.reqCause t.val)).finish t.val cmd 0 target)

/-- The registers that a REPLAY command fills in. Op 4 stops, if at all, in the first pound that it replays; op 5 in the pound
that op1 names (DESIGN CHOICE; log entry 24). -/
def State.replaySetup (s : State) (t : Nat) (op op1 op2 : Nat) : State :=
  let s := if op = 4 then (s.setRg Reg.LCK_RPL_FROMt_lock t op1).setRg Reg.LCK_RPL_POUNDt_pound t (op1 + 1)
    else s.setRg Reg.LCK_RPL_POUNDt_pound t op1
  Reg.LCK_RPL_DCt.fields.foldl (fun s f => s.setRg f t (f.of (BitVec.ofNat 32 op2))) s

/-- REPLAY, the command: on the root alone (R313, R430). -/
def execReplayCommand (t : Fin 16) (cmd : BitVec 16) (op0 op1 op2 : Word) (s : State) : Host.Outcome State Fault Refusal :=
  done s (s.command t.val cmd 0xA [2, 3, 5, 6]
      (uses := fun e => decide (e.op0 = op0.toNat) && decide (e.op1 = op1.toNat) && decide (e.op2 = op2.toNat)) fun s =>
    let op := op0.toNat
    if s.rootHere t.val = false then s.finish t.val cmd 0x10
    else if op < 4 ∨ 6 < op then s.finish t.val cmd 0x16
    else if (op = 4 ∧ s.pmode t.val ≠ 2 ∧ s.pmode t.val ≠ 3) ∨ (5 ≤ op ∧ s.pmode t.val ≠ 5 ∧ s.pmode t.val ≠ 6) then s.finish t.val cmd 0x10
    else
      let s := if op = 6 then s else s.replaySetup t.val op (op1.toNat % 2 ^ 24) op2.toNat
      if (op = 4 ∧ (s.slotOf t.val (op1.toNat % 2 ^ 24)).isNone) ∨ (op ≠ 6 ∧ s.stopOk t.val = false) then
        s.finish t.val cmd 0x16
      else (s.lckOp t.val op).finish t.val cmd 0)

/-! ### Stops (R445 to R449) -/

/-- A stop of one partition that takes effect as soon as the partition stands where it may. -/
def State.stopNow (s : State) (t id : Nat) (boundary : Bool) (sender : Option Nat) : State :=
  if s.loaded t then (s.stopPart t id boundary sender).settleHold t else s

/-- WHF_STOP: acted upon at once, in Repair too (R423, R449, R505). -/
def State.wStop (s : State) (fn : Nat) (v : Word) : State :=
  if Reg.WHF_STOP_go.of v = 1 then
    let id := Reg.WHF_STOP_id.of v
    let boundary := decide (Reg.WHF_STOP_boundary.of v = 1)
    if fn = 0 ∧ Reg.WHF_STOP_scope.of v = 1 then each (List.range 16) (fun t s => s.stopNow t id boundary none) s
    else s.stopNow fn id boundary none
  else s

/-- WHF_STOP. -/
def execWhfStop (fn : Fin 16) (value : Word) (s : State) : Host.Outcome State Fault Refusal :=
  done s (s.onPage fn.val false fun s => s.wStop fn.val value)

/-- STOP, received. -/
def execStop (t : Fin 16) (sender id : Cell) (boundary : Bool) (s : State) : Host.Outcome State Fault Refusal :=
  done s (s.stopNow t.val id.toNat boundary (some sender.toNat))

/-- GO, received. -/
def execGo (t : Fin 16) (sender id : Cell) (s : State) : Host.Outcome State Fault Refusal :=
  done s (if s.loaded t.val then s.goPart t.val id.toNat (some sender.toNat) else s)

/-- STOP_REACHED: the kind-4 completion of a partition that has stopped (R439, R447). -/
def State.stopReached (s : State) (t : Nat) : State :=
  let s := s.settleHold t
  let x := s.part t
  match x.stopOwed with
  | some id =>
    if s.pmode t = 3 then
      (s.setPart t { x with stopOwed := none }).complete t 0xFFFF 0 4 id
        (s.pound t % 2 ^ 24 + s.dcycle t * 2 ^ 24 + x.step * 2 ^ 44) 0
    else s
  | none => s

/-- STOP_REACHED. -/
def execStopReached (t : Fin 16) (s : State) : Host.Outcome State Fault Refusal := done s (s.stopReached t.val)

end Sys2Proof.Machine
end

