-- ==== Sys2Proof/Machine/Power.lean ====
section
/-!
DEFINITION. Sys2Proof/Machine/Power.lean: resets, bring-up, device modes, the always-on domain, keys and the sideband (R505 to R539,
R558 to R560).
-/
namespace Sys2Proof.Machine

/-! ### Resets (R512) -/

/-- The address of the field that a key of `State.regs` belongs to. -/
def keyAddr (k : Nat) : Nat := k / (8 * 8192 * 32)

/-- The instance of a key. -/
def keyInst (k : Nat) : Nat := k / 8 % 8192

/-- A lane of a link has retired, in either direction: its slots go over the spare (R257, R328). -/
def State.laneRetired (s : State) (l : Nat) : Bool := s.on Reg.AQ_STATUS_spare_used l || (s.lnk l).txSpareUsed

/-- A field survives a device reset: the always-on and key registers, the power limit, and stop planks: retired clusters, lanes and
links, and the retirement spares that pages have used (R177, R328, R512). -/
def State.survives (s : State) (k : Nat) : Bool :=
  let i := keyInst k
  let is := fun (f : Field) => decide (k = fieldKey f i 0)
  (decide (0xD00040 ≤ keyAddr k) && decide (keyAddr k < 0xD00090)) || is Reg.PWR_LIMIT_limit || is Reg.CLU_ROLE_retired ||
    (is Reg.AQ_STATUS_state && decide (s.rg Reg.AQ_STATUS_state i = 9)) || is Reg.AQ_STATUS_spare_used ||
    ((is Reg.AQ_LANEMAP_tx_map || is Reg.AQ_LANEMAP_rx_map) && s.laneRetired i) || is Reg.DMEM_HBM_STATk_spares

/-- What a device reset leaves of a reach: its stop planks. A reach marked for retirement has lost its partition (R328, R329). -/
def Reach.planks (x : Reach) : Reach := { ({} : Reach) with retired := x.retired || x.retireMark, waysOff := x.waysOff }

/-- What a device reset leaves of a link: its retired lanes (R328). -/
def Link.planks (x : Link) : Link := { ({} : Link) with txSpareUsed := x.txSpareUsed, rxSpareLost := x.rxSpareLost }

/-- A device reset: everything outside the always-on domain, but for stop planks, fuses and the bytes in HBM (log entry 34). What the
model keeps of its own, its output and its counter of free values, stays. PWR_RST.kind names the reset (R10, R512). -/
def State.deviceReset (s : State) : State :=
  let r : State := { State.reset with
    regs := Tbl.keep s.regs s.survives
    reaches := (s.reaches.map fun (e : Nat × Reach) => (e.1, e.2.planks))
    links := (s.links.map fun (e : Nat × Link) => (e.1, e.2.planks))
    hbm := s.hbm
    pagesRetired := s.pagesRetired
    tst := { passDue := s.power.time + 100000000 }
    hostOut := s.hostOut
    tap := s.tap
    readData := s.readData
    freeCtr := s.freeCtr
    power := { s.power with basinDefault := 3, switches := [], bringUp := [], bistFailed := [], bistUnits := [], wiping := false,
                            fuseNext := none, linkState := 0, avsDown := false, roleLost := false } }
  r.setRg Reg.PWR_RST_kind 0 1

/-- A power-on reset: everything but the fuses and the levels of the pins (R512). -/
def State.powerOn (s : State) : State :=
  let p : Power := { lifeCycle := s.power.lifeCycle, kekOk := s.power.kekOk, perst := s.power.perst, alert0 := s.power.alert0,
                     alert1 := s.power.alert1, pmeSent := s.power.pmeSent }
  let r : State := { State.reset with hostOut := s.hostOut, readData := s.readData, freeCtr := s.freeCtr, power := p }
  (r.setRg Reg.SEC_LC_state 0 p.lifeCycle).setRg Reg.SEC_LC_kek_ok 0 (b2n p.kekOk)

/-- POWER_ON_RESET. -/
def execPowerOnReset (s : State) : Host.Outcome State Fault Refusal := done s s.powerOn

/-- Standby-aux: only the always-on domain runs. -/
def State.inAux (s : State) : Bool := decide (s.mode = 5) && decide (s.rg Reg.PWR_MODE_depth = 1)

/-- PERST asserted: a device reset. In Standby-aux nothing is left to reset, and a wake that waits asserts WAKE# (R531). -/
def execPerst (s : State) : Host.Outcome State Fault Refusal :=
  done s (if s.power.perst then s
    else
      let s : State := { s with power := { s.power with perst := true } }
      if s.inAux then
        { s with power := { s.power with wakePin := s.power.standbyAux, standbyAux := false } }
      else s.deviceReset)

/-- PERST_DEASSERT: WAKE# is released and the host's resume latched; the end of Standby-aux is a device reset (R515, R531). -/
def execPerstDeassert (s : State) : Host.Outcome State Fault Refusal :=
  done s (if s.power.perst then
      let s : State := { s with power := { s.power with perst := false, wakePin := false, standbyAux := false } }
      let s := s.latchWake 0
      if s.inAux then s.deviceReset else s
    else s)

/-- HOT_RESET: it needs a PCI Express link that is up. -/
def execHotReset (s : State) : Host.Outcome State Fault Refusal := done s (if s.inAux then s else s.deviceReset)

/-- PWR_CTRL: a device reset clears AON_STAT.fatal; Sanitize is entered from Ready, Link test and Repair (R506, R512, R528). -/
def State.wPwrCtrl (s : State) (who : Requester) (v : Word) : State :=
  let s := s.writeFields Reg.PWR_CTRL who 0 v
  if Reg.PWR_CTRL_dev_reset.of v = 1 then (s.setRg Reg.AON_STAT_fatal 0 0).deviceReset
  else if Reg.PWR_CTRL_sanitize.of v = 1 ∧ (s.mode = 1 ∨ s.mode = 2 ∨ s.mode = 3) then s.enterSanitize
  else s

/-- DEV_RESET. -/
def execDevReset (who : Requester) (value : Word) (s : State) : Host.Outcome State Fault Refusal :=
  done s (s.asWriter who Reg.PWR_CTRL.addr fun s => s.wPwrCtrl who value)

/-- SANITIZE. -/
def execSanitize (who : Requester) (value : Word) (s : State) : Host.Outcome State Fault Refusal :=
  done s (s.asWriter who Reg.PWR_CTRL.addr fun s => s.wPwrCtrl who value)

/-- WIPE_COMPLETE: basins and both stacks hold zeros, the fuse is blown, and the device resets; Returned disables the
key-encryption key (R532 to R534). -/
def execWipeComplete (s : State) : Host.Outcome State Fault Refusal :=
  done s (if s.mode = 4 then
      let p := s.power
      let p := match p.fuseNext with
        | some f => { p with lifeCycle := f, kekOk := p.kekOk && decide (f ≠ 3) }
        | none => p
      { s with hbm := [], power := p }.deviceReset
    else s)

/-! ### Device modes (R506) -/

/-- No partition is loaded. -/
def State.noPartition (s : State) : Bool := (List.range 16).all fun t => !s.loaded t

/-- PWR_MODE. -/
def State.wPwrMode (s : State) (v : Word) : State :=
  match Reg.PWR_MODE_request.of v with
  | 1 => if s.mode = 2 then (s.linksOff).setRg Reg.PWR_MODE_mode 0 1 else s
  | 2 => if s.mode = 1 ∧ s.noPartition then s.setRg Reg.PWR_MODE_mode 0 2 else s
  | _ => s

/-- LINK_TEST_REQUEST. -/
def execLinkTestRequest (who : Requester) (value : Word) (s : State) : Host.Outcome State Fault Refusal :=
  done s (s.asWriter who Reg.PWR_MODE.addr fun s => s.wPwrMode value)

/-- READY_REQUEST. -/
def execReadyRequest (who : Requester) (value : Word) (s : State) : Host.Outcome State Fault Refusal :=
  done s (s.asWriter who Reg.PWR_MODE.addr fun s => s.wPwrMode value)

/-- L2_ENTRY: main power goes, and everything outside the always-on domain with it (R529). -/
def execL2Entry (s : State) : Host.Outcome State Fault Refusal :=
  done s (if s.mode = 1 ∨ (s.mode = 5 ∧ s.rg Reg.PWR_MODE_depth = 0) then
      let s := { s with hbm := [] }.deviceReset
      let s : State := { s with power := { s.power with linkState := 3, wakePin := false, standbyAux := false } }
      (s.setRg Reg.PWR_MODE_mode 0 5).setRg Reg.PWR_MODE_depth 0 1
    else s)

/-! ### Bring-up (R514 to R516) -/

/-- Steps that must be complete before a step ends; steps 3 and 4 run together. -/
def stepNeeds (k : Nat) : List Nat :=
  match k with
  | 1 => []
  | 2 => [1]
  | 3 => [2]
  | 4 => [2]
  | 5 => [3, 4]
  | k => [k - 1]

/-- Step k is in progress. -/
def State.stepOpen (s : State) (k : Nat) : Bool :=
  decide (s.mode = 0) && !s.power.perst && decide (1 ≤ k) && !s.power.bringUp.contains k &&
    (stepNeeds k).all fun j => s.power.bringUp.contains j

/-- Step k is complete. -/
def State.stepDone (s : State) (k : Nat) : State :=
  let s : State := { s with power := { s.power with bringUp := s.power.bringUp ++ [k] } }
  s.setRg Reg.PWR_RST_stage 0 s.stage

/-- A basin's owner becomes the default one again, the default now being `code`. -/
def State.handBasins (s : State) (code : Nat) : State :=
  { s with regs := Tbl.keep s.regs fun k => decide (k ≠ fieldKey Reg.PWR_BASIN_OWN_owner (keyInst k) 0),
           power := { s.power with basinDefault := code } }

/-- Failed clusters of reach r that were not behind stop planks already. -/
def State.newFailed (s : State) (l : List Nat) (r : Nat) : List Nat :=
  (List.range 17).map (17 * r + ·) |>.filter fun c => l.contains c && !s.on Reg.CLU_ROLE_retired c

/-- BIST found more failed clusters in a reach than it has spares: the one spare, unless a cluster of the reach is retired
already (R516). -/
def State.bistShort (s : State) (l : List Nat) : Bool :=
  (List.range 24).any fun r =>
    let spares := if (List.range 17).any fun p => s.on Reg.CLU_ROLE_retired (17 * r + p) then 0 else 1
    decide (spares < (s.newFailed l r).length)

/-- A lane behind stop planks: its slots go to the spare; with no spare left, the link retires (R257, R328; log entry 39). -/
def State.plankLane (s : State) (l lane : Nat) : State :=
  let fix := fun (m : Nat) => match (List.range 4).find? fun k => mapLane m k = lane with
    | some k => mapPut m k (spareOf m)
    | none => m
  if s.on Reg.AQ_STATUS_spare_used l then s.retireLink l false
  else
    let s := s.setRg Reg.AQ_LANEMAP_tx_map l (fix (s.rg Reg.AQ_LANEMAP_tx_map l))
    let s := s.setRg Reg.AQ_LANEMAP_rx_map l (fix (s.rg Reg.AQ_LANEMAP_rx_map l))
    ((s.setRg Reg.AQ_STATUS_spare_used l 1).log 16 (srcOf 3 l) 0x104 lane).unitRetired 7 l lane

/-- Put the unit that a class, an instance and a unit word name behind stop planks; none where that is no unit that can
retire (R328, R345). -/
def State.plank (s : State) (cls inst unit : Nat) : Option State :=
  match cls with
  | 3 => if inst < 24 then some ((s.modRch inst fun x => { x with retired := true }).unitRetired 3 inst unit) else none
  | 4 => if inst < 24 then some ((s.modRch inst fun x => { x with retired := true }).unitRetired 4 inst unit) else none
  | 5 => if inst < 24 then
      some ((s.modRch inst fun x => x.dropWay (unit % 16)).unitRetired 5 inst unit)
    else none
  | 6 => if inst < 2 then
      let p := inst * 2 ^ 22 + unit % 2 ^ 22
      some ({ s with pagesRetired := if s.pagesRetired.contains p then s.pagesRetired else p :: s.pagesRetired }.unitRetired
        6 inst unit)
    else none
  | 7 => if inst < 16 then some (if unit % 8 < 5 then s.plankLane inst (unit % 8) else s.retireLink inst false) else none
  | k => if k ≤ 2 ∧ inst < 408 then some ((s.setRg Reg.CLU_ROLE_retired inst 1).unitRetired k inst unit) else none

/-- Step 5: failed clusters go behind stop planks, as other failed units do, and the spare takes the place of an active cluster that is behind them
(R515). -/
def State.plankFailed (s : State) (l : List Nat) : State :=
  let s := each (l.filter fun c => !s.on Reg.CLU_ROLE_retired c)
    (fun c s => (s.setRg Reg.CLU_ROLE_retired c 1).unitRetired 0 c 0) s
  each (List.range 24) (fun r s =>
    match (List.range 16).find? fun p => s.on Reg.CLU_ROLE_retired (17 * r + p) with
    | some p => if s.on Reg.CLU_ROLE_retired (17 * r + 16) then s else s.setRg Reg.CLU_ROLE_role (17 * r + 16) p
    | none => s) s

/-- Step 6: program memory and tables 0 to 8 of every keeper are as the boot ROM has them, and so is each golden copy (R514, R515; log
entry 35). -/
def State.copyImages (s : State) : State :=
  each (List.range 4) (fun k s =>
    ((s.setRg Reg.KPR_PGOLD_valid k 1).setRg Reg.KPR_PGOLD_base k (Config.goldBase k)).modKpr k fun x =>
      { x with image := true, gold := true, prog := [], tbl := Tbl.keep x.tbl fun a => decide (36864 ≤ a) }) s

/-- What a step that passes leaves. -/
def State.stepPasses (s : State) (k : Nat) (failed : List Nat) (others : List (Nat × Nat × Nat)) : State :=
  match k with
  | 1 => (s.setDomain 30 1).stepDone 1
  | 2 =>
    let s := s.setDomain 32 1
    let s := (s.setRg Reg.SEC_LC_state 0 s.power.lifeCycle).setRg Reg.SEC_LC_kek_ok 0 (b2n s.power.kekOk)
    if s.rg Reg.AON_STAT_fatal ≠ 0 then (s.setRg Reg.PWR_RST_stage 0 2).bringUpFails 6
    else
      let s := s.setRg Reg.PWR_BASIN_OWN_owner (512 * 4) 1
      (s.setRg Reg.KPR_CTRL_run 0 1).stepDone 2
  | 3 =>
    if s.bistShort failed then (s.setRg Reg.PWR_RST_stage 0 3).bringUpFails 1
    else { s.setDomains [31, 33, 34] 1 with power := { s.power with bistFailed := failed, bistUnits := others } }.stepDone 3
  | 4 => (s.setDomains [28, 29] 1).stepDone 4
  | 5 =>
    let s := (s.handBasins 1).plankFailed s.power.bistFailed
    (s.power.bistUnits.foldl (fun s u => (s.plank u.1 u.2.1 u.2.2).getD s) s).stepDone 5
  | 6 => ((s.copyImages.setRg Reg.IRQ_PTGT_lock 0 1).setRg Reg.KPR_CTRL_rom_fetch 0 0).stepDone 6
  | 7 =>
    let s := each [1, 2, 3] (fun k s => s.setRg Reg.KPR_CTRL_run k 1) (s.handBasins 0)
    (s.setRg Reg.TST_DREDGE_CTRL_en 0 1).stepDone 7
  | _ =>
    let s := (s.setRg Reg.PWR_MODE_mode 0 1).stepDone 8
    let s : State := { s with capstan := { s.capstan with out := s.capstan.out ++ [0x6F, 0x78, 0x37, 0x3E, 0x20] } }
    if s.power.tamperPending then s.enterSanitize else s

/-- The error of a step that fails or overruns without a cause of its own. The manual names none for steps 1 and 8, so there it
is free. A failed fuse read, a latched fatal condition and a bad boot ROM keep their own codes, 5, 6 and 3, in steps 2 and 6
too (R514, R516, R528; log entry 36). -/
def State.stepFails (s : State) (k : Nat) (overrun : Bool) : State :=
  match k with
  | 3 => if overrun then { s with freeCtr := s.freeCtr + 1 }.bringUpFails ((Config.freeWord s.freeCtr).toNat % 256)
         else s.bringUpFails 1
  | 4 => s.bringUpFails (if overrun then 4 else 2)
  | 1 => { s with freeCtr := s.freeCtr + 1 }.bringUpFails ((Config.freeWord s.freeCtr).toNat % 256)
  | 8 => { s with freeCtr := s.freeCtr + 1 }.bringUpFails ((Config.freeWord s.freeCtr).toNat % 256)
  | _ => s.bringUpFails 4

/-- BRING_UP_STEP. -/
def execBringUpStep (step : Fin 9) (failure : BringUpFailure) (s : State) : Host.Outcome State Fault Refusal :=
  done s (let k := step.val
    if s.stepOpen k then
      match failure with
      | .passed => s.stepPasses k [] []
      | .failed => (s.setRg Reg.PWR_RST_stage 0 k).stepFails k false
      | .units l others =>
        if k = 3 then s.stepPasses 3 (l.map (·.val)) (others.map fun u => (u.1.toNat, u.2.1.toNat, u.2.2.toNat)) else s
      | .fuses => if k = 2 then (s.setRg Reg.PWR_RST_stage 0 k).bringUpFails 5 else s
      | .rom => if 3 ≤ k ∧ k ≤ 6 then (s.setRg Reg.PWR_RST_stage 0 k).bringUpFails 3 else s
    else s)

/-- BRING_UP_TIMEOUT: the step in progress has overrun. -/
def execBringUpTimeout (s : State) : Host.Outcome State Fault Refusal :=
  done s (if s.mode = 0 ∧ s.power.perst = false then (s.setRg Reg.PWR_RST_stage 0 s.stage).stepFails s.stage true else s)

/-! ### Voltage and power (R522, R559, R560) -/

/-- Die temperature in degrees. -/
def State.temp (s : State) : Int := signed 8 (s.rg Reg.AON_STAT_temp)

/-- VCORE_ADJUST: one step of 5 mV within vmin to vmax, or none (R522). -/
def execVcoreAdjust (s : State) : Host.Outcome State Fault Refusal :=
  done s (let r := s.rg Reg.PWR_VCORE_request
    let lo := s.rg Reg.PWR_VCORE_vmin
    let hi := s.rg Reg.PWR_VCORE_vmax
    let p := s.rg Reg.PWR_LIMIT_power
    let lim := 10 * s.rg Reg.PWR_LIMIT_limit
    let warn : Int := s.rg Reg.AON_CMP_temp_warn
    if s.power.avsDown then s
    else if (lim ≤ p ∨ warn ≤ s.temp) ∧ lo + 5 ≤ r then s.setRg Reg.PWR_VCORE_request 0 (r - 5)
    else if hi < r then s.setRg Reg.PWR_VCORE_request 0 (max hi (r - 5))
    else if r < lo then s.setRg Reg.PWR_VCORE_request 0 (min lo (r + 5))
    else if 100 * p ≤ 95 * lim ∧ r + 5 ≤ hi ∧ s.temp < warn - 3 ∧ ¬(lim ≤ p ∨ warn ≤ s.temp) then
      s.setRg Reg.PWR_VCORE_request 0 (r + 5)
    else s)

/-- A supply-window event (R525). -/
def State.supplyEvent (s : State) : State :=
  (if s.on Reg.AON_CMP_supply_en then s.edge 129 else s).powerAlarm 0x00B s.power.vddCore

/-- What an AVSBus transaction with its one retry gives: the power measured, or a supply-window event (R560). -/
def State.avsbus (s : State) (ok : Bool) (power : Nat) : State :=
  let s : State := { s with power := { s.power with avsDown := !ok } }
  if ok then s.setRg Reg.PWR_LIMIT_power 0 power else s.supplyEvent

/-- AVSBUS_POLL: while the link is down, only AVSBUS_RETRY tries it. -/
def execAvsbusPoll (ok : Bool) (power : BitVec 16) (s : State) : Host.Outcome State Fault Refusal :=
  done s (if s.power.avsDown then s else s.avsbus ok power.toNat)

/-- AVSBUS_RETRY. -/
def execAvsbusRetry (ok : Bool) (power : BitVec 16) (s : State) : Host.Outcome State Fault Refusal :=
  done s (if s.power.avsDown then s.avsbus ok power.toNat else s)

/-- A power limit takes the nearer end of 60 to 240 (R522). -/
def State.setLimit (s : State) (w : Nat) : State := s.setRg Reg.PWR_LIMIT_limit 0 (max 60 (min 240 w))

/-- PWR_LIMIT. -/
def execPwrLimit (who : Requester) (value : Word) (s : State) : Host.Outcome State Fault Refusal :=
  done s (s.asWriter who Reg.PWR_LIMIT.addr fun s => s.setLimit (Reg.PWR_LIMIT_limit.of value))

/-- PWR_VCORE: both ends within 650 to 850; a vmin above vmax comes down to it (log entry 37). -/
def State.wVcore (s : State) (v : Word) : State :=
  let clamp := fun n => max 650 (min 850 n)
  let hi := clamp (Reg.PWR_VCORE_vmax.of v)
  (s.setRg Reg.PWR_VCORE_vmax 0 hi).setRg Reg.PWR_VCORE_vmin 0 (min hi (clamp (Reg.PWR_VCORE_vmin.of v)))

/-! ### Comparators (R525, R527) -/

/-- The die temperature as measured; the warning clears 3 degrees below its threshold. -/
def State.setTemp (s : State) (temp : BitVec 8) : State :=
  let s := s.setRg Reg.AON_STAT_temp 0 temp.toNat
  if s.temp ≤ (s.rg Reg.AON_CMP_temp_warn : Int) - 3 then { s with power := { s.power with warned := false } } else s

/-- THERMAL_WARNING. -/
def execThermalWarning (temp : BitVec 8) (s : State) : Host.Outcome State Fault Refusal :=
  done s (let s := s.setTemp temp
    if (s.rg Reg.AON_CMP_temp_warn : Int) ≤ s.temp ∧ s.power.warned = false then
      let s : State := { s with power := { s.power with warned := true } }
      ((s.edge 18).powerAlarm 0x00A temp.toNat).wakeBy 6
    else s)

/-- THERMAL_TRIP. -/
def execThermalTrip (temp : BitVec 8) (s : State) : Host.Outcome State Fault Refusal :=
  done s (let s := s.setTemp temp
    if 110 ≤ s.temp then s.fatal 1 else s)

/-- SUPPLY_WINDOW: VDD_CORE strays more than 30 mV from the request. -/
def execSupplyWindow (mv : BitVec 10) (s : State) : Host.Outcome State Fault Refusal :=
  done s (let s : State := { s with power := { s.power with vddCore := mv.toNat } }
    let r := s.rg Reg.PWR_VCORE_request
    if r + 30 < mv.toNat ∨ mv.toNat + 30 < r then s.supplyEvent else s)

/-- SUPPLY_ABSOLUTE: main rails are not watched while PERST# is asserted (R558). -/
def execSupplyAbsolute (s : State) : Host.Outcome State Fault Refusal := done s (if s.power.perst then s else s.fatal 2)

/-! ### Time and wake registers (R523, R531, R539) -/

/-- AON_TIME_HI: the PF sets all 64 bits, while AON_TSYNC.en is 0 (R523; log entry 86). -/
def State.wTimeHi (s : State) (who : Requester) (v : Word) : State :=
  if who ≠ .pf then s.refuse who 2 Reg.AON_TIME_HI.addr
  else if s.on Reg.AON_TSYNC_en = false then
    { s with power := { s.power with time := v.toNat * 2 ^ 32 + s.power.timeLo.toNat, frac := 0, slewTo := none } }
  else s

/-- AON_TIME_LO: held. -/
def State.wTimeLo (s : State) (who : Requester) (v : Word) : State :=
  if who ≠ .pf then s.refuse who 2 Reg.AON_TIME_LO.addr
  else if s.on Reg.AON_TSYNC_en = false then { s with power := { s.power with timeLo := v } } else s

/-- AON_TIME_HI. -/
def execAonTimeHi (who : Requester) (value : Word) (s : State) : Host.Outcome State Fault Refusal :=
  done s (s.asWriter who Reg.AON_TIME_HI.addr fun s => s.wTimeHi who value)

/-- AON_WAKE_TIME_HI commits with the held LO half. -/
def State.wWakeTimeHi (s : State) (v : Word) : State :=
  { s with power := { s.power with wakeTime := v.toNat * 2 ^ 32 + s.power.wakeLo.toNat } }

/-- AON_WAKE_TIME_HI. -/
def execAonWakeTimeHi (who : Requester) (value : Word) (s : State) : Host.Outcome State Fault Refusal :=
  done s (s.asWriter who Reg.AON_WAKE_TIME_HI.addr fun s => s.wWakeTimeHi value)

/-- AON_WAKE, read: the PF's read clears the causes. -/
def State.rWake (s : State) (who : Requester) : State :=
  let v := s.rg Reg.AON_WAKE_cause
  (if who = .pf then s.setRg Reg.AON_WAKE_cause 0 0 else s).answer v

/-- AON_WAKE. -/
def execAonWake (who : Requester) (s : State) : Host.Outcome State Fault Refusal :=
  done s (s.asReader who Reg.AON_WAKE.addr fun s => s.rWake who)

/-- AON_CMP: temp_warn is clamped to 60 to 105. -/
def State.wCmp (s : State) (v : Word) : State :=
  ((s.setRg Reg.AON_CMP_temp_warn 0 (max 60 (min 105 (Reg.AON_CMP_temp_warn.of v)))).setRg Reg.AON_CMP_supply_en 0
    (Reg.AON_CMP_supply_en.of v)).setRg Reg.AON_CMP_wake_en 0 (Reg.AON_CMP_wake_en.of v)

/-- AON_TSYNC: synced counts from the moment en becomes 1. -/
def State.wTsync (s : State) (who : Requester) (v : Word) : State :=
  let s' := s.writeFields Reg.AON_TSYNC who 0 v
  if s.on Reg.AON_TSYNC_en = false ∧ s'.on Reg.AON_TSYNC_en then s'.setRg Reg.AON_STAT_synced 0 0 else s'

/-- AON_STAT: tamper clears only while TAMPER# is deasserted. No command of the table carries the pin's release, so its level
is free whenever it is asked (log entry 38). -/
def State.wAonStat (s : State) (v : Word) : State :=
  if Reg.AON_STAT_tamper.of v = 1 then
    let d := s.drawBit
    if d.1 then d.2 else d.2.setRg Reg.AON_STAT_tamper 0 0
  else s

/-- AON_STAT, read. -/
def State.rAonStat (s : State) (who : Requester) : State :=
  let d := s.drawBit
  d.2.answer (d.2.readFields Reg.AON_STAT who 0 + Reg.AON_STAT_tamper_live.at (b2n d.1))

/-! ### Basins and stop planks (R518, R519, R539) -/

/-- PWR_BASIN_OWN: the basin goes to a new owner by its owner or by keeper 0 in ring 0, outside Ready, Link test and Standby;
only keeper 0 and the test controller may own the secure basin. -/
def State.wBasinOwn (s : State) (who : Requester) (v : Word) : State :=
  match s.selBasin who with
  | none => s
  | some b =>
    let s := s.writeField 0 b v Reg.PWR_BASIN_OWN_refused
    let o := Reg.PWR_BASIN_OWN_owner.of v
    if s.mode = 1 ∨ s.mode = 2 ∨ s.mode = 5 ∨ 5 ≤ o ∨ (b / 512 = 5 ∧ o ≠ 1 ∧ o ≠ 3) then s
    else if s.basinOwner b = s.ownerCode who ∨ (s.isKeeper0 who ∧ ringOf who = 0) then
      s.setRg Reg.PWR_BASIN_OWN_owner b o
    else s.refuse who 2 Reg.PWR_BASIN_OWN.addr

/-- PWR_BASIN_OWN. -/
def execPwrBasinOwn (who : Requester) (value : Word) (s : State) : Host.Outcome State Fault Refusal :=
  done s (s.asWriter who Reg.PWR_BASIN_OWN.addr fun s => s.wBasinOwn who value)

/-- PWR_PLANK: a go is accepted from the PF in Ready with no partition loaded. -/
def State.wPlank (s : State) (who : Requester) (v : Word) : State :=
  let s := s.writeFields Reg.PWR_PLANK who 0 v
  if Reg.PWR_PLANK_go.of v = 0 then s
  else if who = .pf ∧ s.mode = 1 ∧ s.noPartition then
    (s.plank (Reg.PWR_PLANK_class.of v) (Reg.PWR_PLANK_instance.of v) (s.rg Reg.PWR_PLANK_UNIT_unit)).getD
      (s.setRg Reg.PWR_PLANK_rejected 0 1)
  else s.setRg Reg.PWR_PLANK_rejected 0 1

/-- PWR_PLANK. -/
def execPwrPlank (who : Requester) (value : Word) (s : State) : Host.Outcome State Fault Refusal :=
  done s (s.asWriter who Reg.PWR_PLANK.addr fun s => s.wPlank who value)

/-! ### Life cycle and keys (R532 to R537) -/

/-- The transitions of R533. -/
def lcLegal (a b : Nat) : Bool := (a = 0 && b = 1) || (a = 1 && b = 2) || (a = 1 && b = 3) || (a = 2 && b = 3)

/-- SEC_LC_REQ. -/
def State.wLcReq (s : State) (who : Requester) (v : Word) : State :=
  let s := s.writeFields Reg.SEC_LC_REQ who 0 v
  let t := Reg.SEC_LC_REQ_target.of v
  if Reg.SEC_LC_REQ_go.of v = 0 then s
  else if who = .pf ∧ s.mode = 1 ∧ s.noPartition ∧ Reg.SEC_LC_REQ_confirm.of v = 0xA5C ∧ lcLegal (s.rg Reg.SEC_LC_state) t then
    { s with power := { s.power with fuseNext := some t } }.enterSanitize
  else s.setRg Reg.SEC_LC_REQ_rejected 0 1

/-- SEC_LC_REQ. -/
def execSecLcReq (who : Requester) (value : Word) (s : State) : Host.Outcome State Fault Refusal :=
  done s (s.asWriter who Reg.SEC_LC_REQ.addr fun s => s.wLcReq who value)

/-- Cells of a key slot: the first, and how many (R536). -/
def slotCells (slot : Nat) : Nat × Nat := if slot < 64 then (24 * slot, 24) else (0x600 + 33 * (slot - 64), 33)

/-- The slot holds a key. -/
def State.slotValid (s : State) (slot : Nat) : Bool :=
  (cellOf (Mem.get s.secure.basin (if slot < 64 then 24 * slot + 22 else 0x600 + 33 * (slot - 64) + 32))).getLsbD 11

/-- Write cells of the secure basin. -/
def State.putSecure (s : State) (a : Nat) (l : List Nat) : State :=
  { s with secure := { s.secure with basin := Mem.putRun s.secure.basin a (l.map fun v => store (BitVec.ofNat 12 v)) } }

/-- A key in its slot (R536). -/
def State.putKey (s : State) (slot tenant : Nat) (key : List Byte) : State :=
  let k := ofLe key
  if slot < 64 then
    s.putSecure (24 * slot) ((List.range 21).map (fun i => bits k (12 * i) 12) ++ [bits k 252 4, 2 ^ 11 + tenant, 0])
  else s.putSecure (0x600 + 33 * (slot - 64)) ((List.range 32).map (fun i => bits k (12 * i) 12) ++ [2 ^ 11])

/-- The key that the staged blob gives: its own bytes, or what the wrapped blob opens to (R537). -/
def State.blobKey (s : State) (slot tenant : Nat) (wrapped : Bool) : Option (List Byte) :=
  let b := s.secure.staging.flatMap fun w => leBytes 4 w.toNat
  let n := if slot < 64 then 32 else 48
  let take := fun off k => (List.range k).map fun i => (b[off + i]?).getD 0
  if wrapped then Config.gcmOpen Config.kek (take 0 12) (leBytes 2 slot ++ leBytes 2 tenant) (take 12 n) (take (12 + n) 16)
  else some (take 0 n)

/-- The outcome of a key operation. -/
def State.keyStatus (s : State) (v : Nat) : State := s.setRg Reg.SEC_KEY_CTRL_status 0 v

/-- A go: erase or install. A slot's erase is not tied to the life cycle (R532, R537; log entry 84). -/
def State.keyGo (s : State) : State :=
  let slot := s.rg Reg.SEC_KEY_CTRL_slot
  let tenant := s.rg Reg.SEC_KEY_CTRL_tenant
  let wrapped := s.on Reg.SEC_KEY_CTRL_wrapped
  let lc := s.rg Reg.SEC_LC_state
  let cells := slotCells slot
  if 79 < slot then s.keyStatus 2
  else if s.on Reg.SEC_KEY_CTRL_erase then (s.putSecure cells.1 (List.replicate cells.2 0)).keyStatus 0
  else if lc = 0 ∨ lc = 3 ∨ (lc = 2 ∧ wrapped = false) ∨ (wrapped ∧ s.on Reg.SEC_LC_kek_ok = false) then s.keyStatus 2
  else if s.slotValid slot then s.keyStatus 3
  else match s.blobKey slot tenant wrapped with
    | some key => (s.putKey slot tenant key).keyStatus 0
    | none => s.keyStatus 1

/-- SEC_KEY_CTRL. -/
def State.wKeyCtrl (s : State) (who : Requester) (v : Word) : State :=
  let s := s.writeFields Reg.SEC_KEY_CTRL who 0 v
  let s := if Reg.SEC_KEY_CTRL_go.of v = 1 then s.keyGo else s
  { s with secure := { s.secure with staging := [] } }

/-- KEY_INSTALL. -/
def execKeyInstall (who : Requester) (value : Word) (s : State) : Host.Outcome State Fault Refusal :=
  done s (s.asWriter who Reg.SEC_KEY_CTRL.addr fun s => s.wKeyCtrl who value)

/-- KEY_ERASE. -/
def execKeyErase (who : Requester) (value : Word) (s : State) : Host.Outcome State Fault Refusal :=
  done s (s.asWriter who Reg.SEC_KEY_CTRL.addr fun s => s.wKeyCtrl who value)

/-- STAGING_RESET. -/
def execStagingReset (who : Requester) (value : Word) (s : State) : Host.Outcome State Fault Refusal :=
  done s (s.asWriter who Reg.SEC_KEY_CTRL.addr fun s => s.wKeyCtrl who value)

/-- SEC_KEY_DATA: up to 32 words. -/
def State.wKeyData (s : State) (v : Word) : State :=
  if s.secure.staging.length < 32 then { s with secure := { s.secure with staging := s.secure.staging ++ [v] } } else s

/-- SEC_KEY_DATA. -/
def execSecKeyData (who : Requester) (value : Word) (s : State) : Host.Outcome State Fault Refusal :=
  done s (s.asWriter who Reg.SEC_KEY_DATA.addr fun s => s.wKeyData value)

/-! ### SMBus sideband (R538, R566) -/

/-- The device answers its address: not in Bring-up or Sanitize; POWER not in Standby either. A command accepted in Ready raises
source 132. -/
def State.smbus (s : State) (standby : Bool) (f : State → State) : State :=
  if s.mode = 0 ∨ s.mode = 4 ∨ (s.mode = 5 ∧ standby = false) then s
  else
    let ready := s.mode = 1
    let s := f s
    if ready then s.edge 132 else s

/-- SMB_STATUS. -/
def execSmbStatus (s : State) : Host.Outcome State Fault Refusal :=
  done s (s.smbus true fun s => s.answer (s.mode + s.rg Reg.SEC_LC_state * 16 + s.rg Reg.AON_STAT_tamper * 64))

/-- SMB_TEMP: two's complement in the word. -/
def execSmbTemp (s : State) : Host.Outcome State Fault Refusal :=
  done s (s.smbus true fun s => s.answer (wrap 16 s.temp))

/-- SMB_POWER. -/
def execSmbPower (s : State) : Host.Outcome State Fault Refusal :=
  done s (s.smbus false fun s => s.answer (s.rg Reg.PWR_LIMIT_power))

/-- SMB_PLIMIT: a write whose PEC byte is wrong is NACKed. -/
def execSmbPlimit (access : Option (BitVec 16)) (pecOk : Bool) (s : State) : Host.Outcome State Fault Refusal :=
  done s (match access with
    | none => s.smbus true fun s => s.answer (s.rg Reg.PWR_LIMIT_limit)
    | some w => if pecOk then s.smbus true fun s => s.setLimit w.toNat else s)

/-- SMB_WAKE: byte 0x01 latches the cause. -/
def execSmbWake (data : Byte) (pecOk : Bool) (s : State) : Host.Outcome State Fault Refusal :=
  done s (if pecOk ∧ data = 1 then s.smbus true fun s => s.wakeBy 2 else s)

/-- SMB_WAKE_CAUSE. -/
def execSmbWakeCause (s : State) : Host.Outcome State Fault Refusal :=
  done s (s.smbus true fun s => s.answer (s.rg Reg.AON_WAKE_LAST_cause))

end Sys2Proof.Machine
end

