-- ==== Sys2Proof/Machine/Sluice.lean ====
section
/-!
DEFINITION. Sys2Proof/Machine/Sluice.lean: the sluice: channels, descriptors, elements and their failures (R470 to R479).
-/
namespace Sys2Proof.Machine

/-! ### Descriptors (R471, R472) -/

/-- Bit field [lo + w - 1 : lo] of the n bytes at an offset of a descriptor. -/
def dfield (d : BitVec 512) (off lo w : Nat) : Nat := bits d.toNat (8 * off + lo) w

def dSrcKind (d : BitVec 512) : Nat := dfield d 0 0 4
def dSrcPat (d : BitVec 512) : Nat := dfield d 0 4 2
def dDstKind (d : BitVec 512) : Nat := dfield d 1 0 4
def dDstPat (d : BitVec 512) : Nat := dfield d 1 4 2
def dFlag (d : BitVec 512) (k : Nat) : Bool := bit (dfield d 2 0 16) k
def dTapUnit (d : BitVec 512) : Nat := dfield d 2 3 2
def dLength (d : BitVec 512) : Nat := dfield d 4 0 32
def dSrc (d : BitVec 512) : Nat := dfield d 8 0 64
def dDst (d : BitVec 512) : Nat := dfield d 0x10 0 64
def dElem (d : BitVec 512) : Nat := dfield d 0x18 0 16
def dSrcStride (d : BitVec 512) : Nat := dfield d 0x1C 0 32
def dDstStride (d : BitVec 512) : Nat := dfield d 0x20 0 32
def dIndex (d : BitVec 512) : Nat := dfield d 0x28 0 64
def dNext (d : BitVec 512) : Nat := dfield d 0x30 0 64
def dCrc (d : BitVec 512) : Nat := dfield d 0x3C 0 32

/-- Both patterns are linear: such a transfer moves by halfwords (log entry 27). -/
def dLinear (d : BitVec 512) : Bool := decide (dSrcPat d = 0) && decide (dDstPat d = 0)

/-- Bytes of an element. -/
def dSize (d : BitVec 512) : Nat := if dLinear d then 2 else dElem d

/-- Elements of the transfer. -/
def dCount (d : BitVec 512) : Nat := if dSize d = 0 then 0 else dLength d / dSize d

/-- Byte offset of element i of a linear or strided side. -/
def dStep (d : BitVec 512) (pat stride i : Nat) : Nat := if pat = 0 then i * dSize d else i * stride

/-- An endpoint address of a kind is even, and zero for kind 5. -/
def evenAddr (kind a : Nat) : Bool :=
  match kind with
  | 0 => a % 2 = 0
  | 1 => bits a 16 32 % 2 = 0
  | 2 => bits a 16 12 % 2 = 0
  | 3 => a % 2 = 0
  | 4 => true
  | _ => a = 0

/-- A linear or strided side of kind 2 stays within its buffer. -/
def dWithin (d : BitVec 512) (kind pat a stride : Nat) : Bool :=
  decide (kind ≠ 2) || decide (pat = 2) ||
    decide (bits a 16 12 + dStep d pat stride (dCount d - 1) + dSize d ≤ 4096)

/-- Every field is legal (R471, R472). -/
def dLegal (d : BitVec 512) : Bool :=
  decide (dSrcKind d ≤ 4) && decide (dDstKind d ≤ 5) && decide (dSrcPat d ≤ 2) && decide (dDstPat d ≤ 1) &&
  decide (dfield d 0 6 2 = 0) && decide (dfield d 1 6 2 = 0) && decide (dfield d 2 9 7 = 0) &&
  decide (dLength d % 2 = 0) && decide (2 ≤ dLength d) && decide (dLength d ≤ 2 ^ 30) &&
  (if dLinear d then decide (dElem d = 0)
   else decide (dElem d % 2 = 0) && decide (2 ≤ dElem d) && decide (dLength d % dElem d = 0)) &&
  decide (dfield d 0x1A 0 16 = 0) && decide (dfield d 0x24 0 32 = 0) &&
  decide (dSrcStride d % 2 = 0) && decide (dDstStride d % 2 = 0) &&
  evenAddr (dSrcKind d) (dSrc d) && evenAddr (dDstKind d) (dDst d) &&
  (decide (dSrcPat d ≠ 2) || evenAddr (dSrcKind d) (dIndex d)) &&
  dWithin d (dSrcKind d) (dSrcPat d) (dSrc d) (dSrcStride d) && dWithin d (dDstKind d) (dDstPat d) (dDst d) (dDstStride d)

/-! ### Channels (R470, R476 to R478) -/

def State.chTenant (s : State) (c : Nat) : Nat := s.rg Reg.SLC_CHCFG_tenant c
def State.chPriv (s : State) (c : Nat) : Bool := s.on Reg.SLC_CHCFG_priv c
def State.chRunning (s : State) (c : Nat) : Bool := decide (s.rg Reg.SLC_CHSTAT_state c = 2)

/-- Buffer b is one that channel c may touch (R473). -/
def State.chMay (s : State) (c b : Nat) : Bool :=
  let t := s.tag b
  (decide (tagKind t = 3) && decide (tagId t = c)) || (decide (tagKind t = 1) && decide (tagId t = s.chTenant c)) ||
    (decide (tagKind t = 2) && decide (tagAccount t = s.chTenant c))

/-- A channel's progress returns to its start. -/
def State.chIdle (s : State) (c : Nat) : State := s.setChan c { requests := (s.chan c).requests }

/-- A channel halts, and its fault is posted if it is to be (R476, R478). -/
def State.chHalt (s : State) (c status : Nat) (detail : Nat := 0) : State :=
  let s := (((s.chIdle c).setRg Reg.SLC_CHSTAT_state c 3).setRg Reg.SLC_CHSTAT_status c status).setRg
    Reg.SLC_CHSTAT_detail c detail
  let s := s.cause (.engine (c / 16)) Reg.SLC_HALT_halted (c / 16) (2 ^ (c % 16))
  if s.on Reg.SLC_CHCFG_post_fault c ∧ status ≠ 0 ∧ status ≠ 7 then
    s.postFault (s.chTenant c) 16 (status + c * 2 ^ 8 + s.rg Reg.SLC_CHDONE_bytes c * 2 ^ 16) 0
  else s

/-- The descriptor in progress ends: the next of the chain is named, or the chain ended normally. -/
def State.descDone (s : State) (c : Nat) (d : BitVec 512) : State :=
  let s := s.setRg Reg.SLC_CHSTAT_descs c (s.rg Reg.SLC_CHSTAT_descs c + 1)
  if dFlag d 7 then
    (s.chIdle c).setChan c { (s.chIdle c).chan c with next := dNext d, nextLedger := dFlag d 8 }
  else ((s.chIdle c).setRg Reg.SLC_CHSTAT_state c 0).setRg Reg.SLC_CHSTAT_status c 0

/-- A stop (R477). -/
def State.chStop (s : State) (c : Nat) : State :=
  match s.rg Reg.SLC_CHSTAT_state c with
  | 1 => { s.setRg Reg.SLC_CHSTAT_state c 0 with
      engineQ := s.engineQ.put (c / 16) ((s.engineQ.get (c / 16) []).filter fun x => x ≠ c % 16) }
  | 2 => if (s.chan c).waiting = 0 then s.chHalt c 7 else s.setChan c { s.chan c with stopping := true }
  | _ => s

/-- A start (R470, R477). -/
def State.chStart (s : State) (c : Nat) : State :=
  if s.channelBusy c then s.setRg Reg.SLC_CHCMD_rejected c 1
  else
    let s := (((s.setRg Reg.SLC_CHSTAT_state c 1).setRg Reg.SLC_CHSTAT_status c 0).setRg Reg.SLC_CHSTAT_detail c 0).setRg
      Reg.SLC_CHSTAT_descs c 0
    let s := s.chIdle c
    let s := s.setChan c { s.chan c with next := s.rg Reg.SLC_CHDESC_LO_addr c + s.rg Reg.SLC_CHDESC_HI_addr c * 2 ^ 32,
                                         nextLedger := s.on Reg.SLC_CHCMD_in_ledger c }
    { s with engineQ := s.engineQ.put (c / 16) (s.engineQ.get (c / 16) [] ++ [c % 16]) }

/-- SLC_CHCMD. -/
def State.wChcmd (s : State) (who : Requester) (c : Nat) (v : Word) : State :=
  s.classWrite Reg.SLC_CHCMD who c Reg.SLC_CHCMD.addr v fun s =>
    let s := s.writeFields Reg.SLC_CHCMD who c v
    let s := if Reg.SLC_CHCMD_stop.of v = 1 then s.chStop c else s
    if Reg.SLC_CHCMD_start.of v = 1 then s.chStart c else s

/-- SLC_START. -/
def execSlcStart (who : Requester) (value : Word) (s : State) : Host.Outcome State Fault Refusal :=
  done s (s.asWriter who Reg.SLC_CHCMD.addr fun s => s.wChcmd who (s.selChannel who) value)

/-- SLC_STOP. -/
def execSlcStop (who : Requester) (value : Word) (s : State) : Host.Outcome State Fault Refusal :=
  done s (s.asWriter who Reg.SLC_CHCMD.addr fun s => s.wChcmd who (s.selChannel who) value)

/-- No channel of engine e runs. -/
def State.engineFree (s : State) (e : Nat) : Bool := (List.range 16).all fun n => !s.chRunning (16 * e + n)

/-- CHANNEL_BEGIN: an engine whose channel has ended begins the next in its queue (R470). -/
def execChannelBegin (engine : Fin 4) (s : State) : Host.Outcome State Fault Refusal :=
  done s (let e := engine.val
    match s.engineQ.get e [] with
    | [] => s
    | n :: rest =>
      if s.engineFree e then
        { s.setRg Reg.SLC_CHSTAT_state (16 * e + n) 2 with engineQ := s.engineQ.put e rest }
      else s)

/-- SLC_ENG, read. -/
def State.slcEng (s : State) (e : Nat) : Nat :=
  let run := (List.range 16).find? fun n => s.chRunning (16 * e + n)
  Reg.SLC_ENG_busy.at (b2n run.isSome) + Reg.SLC_ENG_running.at (run.getD 0) +
    ((s.engineQ.get e []).map fun n => 2 ^ n).sum

/-- SLC_CNT_RETRY. -/
def execSlcCntRetry (who : Requester) (s : State) : Host.Outcome State Fault Refusal :=
  done s (s.asReader who Reg.SLC_CNT_RETRY.addr fun s => s.readClear Reg.SLC_CNT_RETRY who (s.selEngine who))

/-- The spn that a channel's remote requests carry: its tenant's, or 0 with priv where the tenant has no partition (R473). -/
def State.chSpn (s : State) (c : Nat) : Nat :=
  if s.chPriv c ∧ s.loaded (s.chTenant c) = false then 0 else s.spn (s.chTenant c)

/-- The function of the channel's tenant takes no request (R476 status 0x09). -/
def State.hostShut (s : State) (c : Nat) : Bool :=
  (s.fn (s.chTenant c)).d3hot || !(s.fn (s.chTenant c)).busMaster

/-- The halt that a descriptor's checks give, in the order of R476's table where the manual gives none (log entry 28). -/
def State.descCheck (s : State) (c : Nat) (d : BitVec 512) : Option Nat :=
  if dCrc d ≠ crcOf 0 (leBytes 60 d.toNat) then some 3
  else if dLegal d = false then some 4
  else if (dSrcKind d = 3 ∨ dDstKind d = 3) ∧ s.chPriv c = false then some 6
  else if (dSrcKind d = 4 ∨ dDstKind d = 4) ∧ s.chSpn c = 0 ∧ s.chPriv c = false then some 6
  else if (dSrcKind d = 0 ∨ dDstKind d = 0) ∧ s.hostShut c then some 9
  else if dFlag d 2 ∧ (s.rg Reg.CHK_ASSIGNu_kind (dTapUnit d) ≠ 2 ∨ s.rg Reg.CHK_ASSIGNu_id (dTapUnit d) ≠ c) then some 10
  else none

/-- A checked descriptor begins. -/
def State.descBegin (s : State) (c : Nat) (d : BitVec 512) : State :=
  let s := s.setChan c { s.chan c with desc := some d, tries := 0 }
  if dFlag d 2 ∧ dFlag d 5 then s.chkInit (dTapUnit d) else s

/-- The descriptor that is fetched is the one in progress, with nothing done of it (R476). -/
def State.descNamed (s : State) (c : Nat) : State :=
  let x := s.chan c
  ((s.setRg Reg.SLC_CHCUR_LO_addr c x.next).setRg Reg.SLC_CHCUR_HI_addr c (x.next / 2 ^ 32)).setRg Reg.SLC_CHDONE_bytes c 0

/-- A channel's fetch of a descriptor: from a ledger buffer it is the buffer's own bytes, from host memory those that
answered (R471). -/
def State.fetchDesc (s : State) (c : Nat) (bytes : BitVec 512) (uncorrectable : Bool) : State :=
  let x := s.chan c
  let s := s.descNamed c
  let b := bits x.next 0 16
  let off := bits x.next 16 12
  let d : BitVec 512 := if x.nextLedger then BitVec.ofNat 512 (ofLe (s.hbmGet (s.bufAddr b + off) 64)) else bytes
  let aligned := if x.nextLedger then off % 64 = 0 else x.next % 64 = 0
  if x.stopping then s.chHalt c 7
  else if ¬aligned then s.chHalt c 4
  else if x.nextLedger ∧ s.chMay c b = false then s.chHalt c 5
  else if x.nextLedger = false ∧ s.hostShut c then s.chHalt c 9
  else if uncorrectable then s.chHalt c 2
  else match s.descCheck c d with
    | some st => s.chHalt c st
    | none => s.descBegin c d

/-- DESCRIPTOR: a running channel between descriptors. -/
def execDescriptor (ch : Fin 64) (bytes : BitVec 512) (uncorrectable : Bool) (s : State) :
    Host.Outcome State Fault Refusal :=
  done s (if s.chRunning ch.val ∧ (s.chan ch.val).desc = none then s.fetchDesc ch.val bytes uncorrectable else s)

/-! ### Endpoints (R472, R473) -/

/-- The n-th list buffer after b, if every buffer on the way is the channel's to touch. -/
def State.listWalk (s : State) (c : Nat) : Nat → Nat → Option Nat
  | 0, b => if s.chMay c b then some b else none
  | n + 1, b => if s.chMay c b then s.listWalk c n (s.hbmHalf (s.bufAddr b + 4094)) else none

/-- Data buffer k of a ledger list (R277). -/
def State.listBuffer (s : State) (c b k : Nat) : Option Nat :=
  match s.listWalk c (k / 2047) b with
  | some l =>
    let d := s.hbmHalf (s.bufAddr l + 2 * (k % 2047))
    if s.chMay c d then some d else none
  | none => none

/-- HBM addresses of n bytes of an endpoint at byte offset `off` from its base, halfword by halfword; the status that halts the
channel where one is not to be touched. -/
def State.chCells (s : State) (c kind a off n : Nat) : Except Nat (List Nat) :=
  match kind with
  | 1 =>
    (List.range (n / 2)).foldr (fun i r =>
      let o := bits a 16 32 + off + 2 * i
      match r, s.listBuffer c (bits a 0 16) (o / 4096) with
      | .ok l, some b => .ok ((s.bufAddr b + o % 4096) :: l)
      | .error e, _ => .error e
      | _, none => .error 5) (.ok [])
  | 2 =>
    let o := bits a 16 12 + off
    if s.chMay c (bits a 0 16) = false then .error 5
    else if 4096 < o + n then .error 4
    else .ok ((List.range (n / 2)).map fun i => s.bufAddr (bits a 0 16) + o + 2 * i)
  | _ =>
    let o := bits a 0 35 + off
    if 2 ^ 35 < o + n then .error 4 else .ok ((List.range (n / 2)).map fun i => o + 2 * i)

/-- Read bytes of an endpoint on this device. -/
def State.chRead (s : State) (c kind a off n : Nat) : Except Nat (List Byte) :=
  match s.chCells c kind a off n with
  | .error e => .error e
  | .ok l => .ok (l.flatMap fun p => s.hbmGet p 2)

/-- Write halfwords at addresses. -/
def State.putHalves (s : State) : List Nat → List Byte → State
  | p :: ps, x :: y :: l => (s.hbmPut p [x, y]).putHalves ps l
  | _, _ => s

/-- The next request's size: halfwords left of the element, at most 19. -/
def chunk (size got : Nat) : Nat := min 19 ((size - got) / 2)

/-- Transaction ID of the n-th request of channel c: fresh for each (log entry 29). -/
def txnId (c n : Nat) : Nat := n % 64 * 64 + c

/-- Send a VC1 request for n halfwords at halfword offset `off` of a remote endpoint. -/
def State.vc1Request (s : State) (c kind a off : Nat) (data : List Nat) (n : Nat) : State :=
  let x := s.chan c
  let s := s.setChan c { x with requests := (x.requests + 1) % 64, txn := txnId c (x.requests + 1) }
  s.sendBarge 1 kind 1 (bits a 0 12) (s.chSpn c)
    ([txnId c (x.requests + 1), off % 2048 + bits a 12 1 * 2048, bits a 13 11, n] ++ data)

/-- Cells of halfwords (R464). -/
def cellsOf : List Byte → List Nat
  | x :: y :: l => (x.toNat + 256 * y.toNat) % 4096 :: cellsOf l
  | _ => []

/-- Byte offset of the element in hand from a side's base. -/
def State.elemAt (s : State) (c pat stride : Nat) (d : BitVec 512) : Nat :=
  let x := s.chan c
  if pat = 2 then 2 * x.idx.getD 0 else dStep d pat stride x.element

/-- Issue, or issue again, the remote request that the channel's state calls for. -/
def State.chRequest (s : State) (c : Nat) (d : BitVec 512) : State :=
  let x := s.chan c
  let n := chunk (dSize d) x.got
  match x.waiting with
  | 1 =>
    let o := bits (dSrc d) 24 11 + (s.elemAt c (dSrcPat d) (dSrcStride d) d + x.got) / 2
    if 2048 ≤ o then s.chHalt c 4 else s.vc1Request c 0 (dSrc d) o [] n
  | 2 =>
    let o := bits (dDst d) 24 11 + (s.elemAt c (dDstPat d) (dDstStride d) d + x.got) / 2
    if 2048 ≤ o then s.chHalt c 4 else s.vc1Request c 1 (dDst d) o (cellsOf ((x.buf.drop x.got).take (2 * n))) n
  | 3 =>
    let o := bits (dIndex d) 24 11 + 2 * x.element
    if 2048 ≤ o then s.chHalt c 4 else s.vc1Request c 0 (dIndex d) o [] 2
  | _ => s

/-- The element in hand has completed: progress, the half cause, and the end of the descriptor unless it waits for its full
cause (R475, R477). -/
def State.elementDone (s : State) (c : Nat) (d : BitVec 512) : State :=
  let x := s.chan c
  let n := (x.element + 1) * dSize d
  let s := s.setChan c { x with element := x.element + 1, got := 0, buf := [], idx := none, waiting := 0, tries := 0,
                                halfDone := decide (dLength d / 2 ≤ n) }
  let s := s.setRg Reg.SLC_CHDONE_bytes c n
  let s := if dFlag d 0 ∧ x.halfDone = false ∧ dLength d / 2 ≤ n then
      s.cause (.engine (c / 16)) Reg.SLC_CAUSE_half (c / 16) (2 ^ (c % 16))
    else s
  if x.stopping then s.chHalt c 7
  else if x.element + 1 = dCount d ∧ dFlag d 1 = false then s.descDone c d
  else s

/-- The element's bytes go to the destination. -/
def State.chWrite (s : State) (c : Nat) (d : BitVec 512) (l : List Byte) : State :=
  let off := s.elemAt c (dDstPat d) (dDstStride d) d
  match dDstKind d with
  | 0 =>
    if s.hostShut c then s.chHalt c 9
    else (s.hostPut ((dDst d + off) % 2 ^ 64) l).elementDone c d
  | 4 =>
    let s := s.setChan c { s.chan c with buf := l, got := 0, waiting := 2 }
    s.chRequest c d
  | 5 => s.elementDone c d
  | k => match s.chCells c k (dDst d) off l.length with
    | .error e => s.chHalt c e
    | .ok ps => (s.putHalves ps l).elementDone c d

/-- An element in a staging buffer of its engine: the armed flip meets its first cell. The flag says that the cell fails parity. Which
of the engine's buffers holds it is free (R346, R476; log entry 1). -/
def State.stageElement (s : State) (c : Nat) (l : List Byte) : (List Byte × Option Nat) × State :=
  if s.flipArmed 9 0 = false ∨ l.length < 2 then ((l, none), s)
  else
    let unit := 512 + 32 * (c / 16) + (Config.freeWord s.freeCtr).toNat % 32
    let h := sliceLe l 0 2
    let d := { s with freeCtr := s.freeCtr + 1 }.flip 9 0 unit 12 (store (BitVec.ofNat 12 h)).toNat
    ((leBytes 2 (d.1 % 4096 + h / 4096 * 4096) ++ l.drop 2, if oddOnes 13 d.1 then some unit else none),
      { d.2 with buffers9 := Mem.put d.2.buffers9 unit (BitVec.ofNat 13 d.1) })

/-- The element is in its staging buffer: the tap, the free of the source buffer after the last read, and the write (R474). -/
def State.chStaged (s : State) (c : Nat) (d : BitVec 512) (l : List Byte) : State :=
  let s := if dFlag d 2 then s.chkFeed (dTapUnit d) l else s
  let s := if dFlag d 6 ∧ dSrcKind d = 2 ∧ (s.chan c).element + 1 = dCount d then
      s.channelFree c (bits (dSrc d) 0 16)
    else s
  s.chWrite c d l

/-- The element has been read. A parity error in its staging buffer halts the channel (R476). -/
def State.chGot (s : State) (c : Nat) (d : BitVec 512) (l : List Byte) : State :=
  let r := (s.setChan c { s.chan c with tries := 0 }).stageElement c l
  match r.1.2 with
  | some unit => (r.2.tally true 0 9 0 unit).chHalt c 2
  | none => r.2.chStaged c d r.1.1

/-- The element is read, at a known address. -/
def State.chFetch (s : State) (c : Nat) (d : BitVec 512) (source : List Byte) (uncorrectable : Bool) : State :=
  match dSrcKind d with
  | 4 =>
    let s := s.setChan c { s.chan c with buf := [], got := 0, waiting := 1 }
    s.chRequest c d
  | 0 =>
    if s.hostShut c then s.chHalt c 9
    else if uncorrectable then s.chHalt c 2
    else if source.length = dSize d then s.chGot c d source
    else s
  | k =>
    match s.chRead c k (dSrc d) (s.elemAt c (dSrcPat d) (dSrcStride d) d) (dSize d) with
    | .error e => s.chHalt c e
    | .ok l => if uncorrectable then s.chHalt c 2 else s.chGot c d l

/-- An index entry has been read: bits [31:24] of a legal one are zero (R473). -/
def State.chIndexed (s : State) (c : Nat) (d : BitVec 512) (x : Nat) (source : List Byte) (uncorrectable : Bool) : State :=
  if 2 ^ 24 ≤ x then s.chHalt c 4
  else (s.setChan c { s.chan c with idx := some x, waiting := 0, tries := 0 }).chFetch c d source uncorrectable

/-- One element begins. -/
def State.chElement (s : State) (c : Nat) (d : BitVec 512) (source : List Byte) (index : Word) (uncorrectable : Bool) : State :=
  if dSrcPat d = 2 then
    match dSrcKind d with
    | 0 => if s.hostShut c then s.chHalt c 9 else s.chIndexed c d index.toNat source uncorrectable
    | 4 => (s.setChan c { s.chan c with waiting := 3 }).chRequest c d
    | k => match s.chRead c k (dIndex d) (4 * (s.chan c).element) 4 with
      | .error e => s.chHalt c e
      | .ok l => s.chIndexed c d (ofLe l) source uncorrectable
  else s.chFetch c d source uncorrectable

/-- ELEMENT: the next element of a running channel with no request in flight. `source` and `index` are what host memory
answers; a read whose length is not the element's is no answer to it. -/
def execElement (ch : Fin 64) (source : List Byte) (index : Word) (uncorrectable : Bool) (s : State) :
    Host.Outcome State Fault Refusal :=
  done s (let c := ch.val
    let x := s.chan c
    match x.desc with
    | none => s
    | some d =>
      if s.chRunning c ∧ x.waiting = 0 ∧ x.element < dCount d then s.chElement c d source index uncorrectable else s)

/-- INT_FULL: every write of the descriptor has reached its destination (R475). -/
def execIntFull (ch : Fin 64) (s : State) : Host.Outcome State Fault Refusal :=
  done s (let c := ch.val
    match (s.chan c).desc with
    | none => s
    | some d =>
      if s.chRunning c ∧ (s.chan c).element = dCount d then
        (s.cause (.engine (c / 16)) Reg.SLC_CAUSE_full (c / 16) (2 ^ (c % 16))).descDone c d
      else s)

/-! ### Answers and failures (R464, R476) -/

/-- A remote status other than 0 halts the channel. -/
def State.chRemote (s : State) (c status : Nat) : State := if status = 6 then s.chHalt c 2 else s.chHalt c 8 status

/-- Cells as halfwords, with bits [15:12] zero. -/
def halvesOf (l : List Cell) : List Byte := l.flatMap fun x => leBytes 2 x.toNat

/-- A read response for channel c. -/
def State.readAnswer (s : State) (c status : Nat) (cells : List Cell) : State :=
  let x := s.chan c
  match x.desc with
  | none => s
  | some d =>
    if s.chRunning c = false then s
    else if x.waiting = 3 then
      if status ≠ 0 then s.chRemote c status
      else if cells.length = 2 then (s.setChan c { x with tries := 0 }).chIndexed c d (ofLe (halvesOf cells)) [] false
      else s
    else if x.waiting = 1 then
      if status ≠ 0 then s.chRemote c status
      else if cells.length = chunk (dSize d) x.got then
        let l := x.buf ++ halvesOf cells
        if l.length = dSize d then (s.setChan c { x with buf := l, got := 0, waiting := 0, tries := 0 }).chGot c d l
        else (s.setChan c { x with buf := l, got := l.length, tries := 0 }).chRequest c d
      else s
    else s

/-- READ_RESPONSE. -/
def execReadResponse (ch : Fin 64) (status : BitVec 3) (cells : List Cell) (s : State) : Host.Outcome State Fault Refusal :=
  done s (s.readAnswer ch.val status.toNat cells)

/-- A write acknowledgement for channel c. -/
def State.writeAnswer (s : State) (c status : Nat) : State :=
  let x := s.chan c
  match x.desc with
  | none => s
  | some d =>
    if s.chRunning c = false ∨ x.waiting ≠ 2 then s
    else if status ≠ 0 then s.chRemote c status
    else
      let got := x.got + 2 * chunk (dSize d) x.got
      if got = dSize d then s.elementDone c d
      else (s.setChan c { x with got := got, tries := 0 }).chRequest c d

/-- WRITE_ACK. -/
def execWriteAck (ch : Fin 64) (status : BitVec 3) (s : State) : Host.Outcome State Fault Refusal :=
  done s (s.writeAnswer ch.val status.toNat)

/-- The channel has a request that can meet a bus error: one over VC1, or one to host memory. -/
def State.chOnBus (s : State) (c : Nat) : Bool :=
  let x := s.chan c
  s.chRunning c && (match x.desc with
    | none => !x.nextLedger
    | some d => decide (x.waiting ≠ 0) || decide (dSrcKind d = 0) || decide (dDstKind d = 0))

/-- A bus error: one more retry while R476 allows it, with a fresh request, or the halt. -/
def State.busError (s : State) (c : Nat) (failed : Bool) : State :=
  let x := s.chan c
  let s := if x.desc.isNone then s.descNamed c else s
  let n := s.rg Reg.SLC_CHCFG_retries c
  if n ≤ x.tries then s.chHalt c 1
  else
    let s := s.count Reg.SLC_CNT_RETRY_retries (c / 16) 1
    let s := s.setChan c { x with tries := x.tries + 1 }
    if failed ∧ x.tries + 1 = n then s.chHalt c 1
    else match x.desc with
      | some d => s.chRequest c d
      | none => s

/-- BUS_ERROR_RETRY: the request in hand met a bus error, and its retry 1 us later succeeds or fails too. -/
def execBusErrorRetry (ch : Fin 64) (succeeds : Bool) (s : State) : Host.Outcome State Fault Refusal :=
  done s (let c := ch.val
    if s.chOnBus c then
      let s := s.busError c (!succeeds)
      if succeeds ∧ s.chRunning c ∧ (s.chan c).waiting = 0 then s.setChan c { s.chan c with tries := 0 } else s
    else s)

/-- COMPLETION_TIMEOUT: the answer to the request in hand is missing, which counts as a bus error. -/
def execCompletionTimeout (ch : Fin 64) (s : State) : Host.Outcome State Fault Refusal :=
  done s (if s.chOnBus ch.val then s.busError ch.val false else s)

end Sys2Proof.Machine
end

