-- ==== Sys2Proof/Machine/Weir.lean ====
section
/-!
DEFINITION. Sys2Proof/Machine/Weir.lean: alarms on their way out, tokens, the ring's reader, software events, snapshots and the
registers with read effects (R480 to R504).
-/
namespace Sys2Proof.Machine

/-! ### Software events (R480, WEIR_SW) -/

/-- WEIR_SW: block 14, the writing keeper as instance; the host writes as instance 0 (log entry 31). -/
def State.wWeirSw (s : State) (who : Requester) (v : Word) : State :=
  let owner := Reg.WEIR_SW_owner.of v
  let code := Reg.WEIR_SW_code.of v
  let source := srcOf 14 ((s.keeperOf who).getD 0)
  let data := s.rg Reg.WEIR_SW_DATA_data
  if Reg.WEIR_SW_go.of v = 0 ∨ 16 < owner ∨ code < 0x100 then s
  else match Reg.WEIR_SW_class.of v with
    | 0 => s.alarm owner source code data
    | 1 => s.log owner source code data
    | 2 => s.trace owner source code data
    | _ => s

/-- WEIR_SW. -/
def execWeirSw (who : Requester) (value : Word) (s : State) : Host.Outcome State Fault Refusal :=
  done s (s.asWriter who Reg.WEIR_SW.addr fun s => s.wWeirSw who value)

/-! ### Alarms (R486 to R489) -/

/-- The fault that carries an alarm. -/
def Event.fault (e : Event) : Nat :=
  e.data % 2 ^ 36 + e.source % 2 ^ 16 * 2 ^ 36 + e.code % 2 ^ 11 * 2 ^ 52 + b2n e.merged * 2 ^ 63

/-- Change the first entry of a store that p picks; one with nothing left to post or to forward goes (R487, R489). -/
def settleFirst (p : Event → Bool) (f : Event → Event) : List Event → List Event
  | [] => []
  | e :: l => if p e then (if (f e).count = 0 ∧ (f e).fwd = 0 then l else f e :: l) else e :: settleFirst p f l

/-- The entry has still to be accepted as a fault. -/
def Event.unposted (e : Event) : Bool := decide (e.count ≠ 0)

/-- The entry has still to be forwarded. -/
def Event.unsent (e : Event) : Bool := decide (e.fwd ≠ 0)

/-- ALARM_ACCEPT: the host interface takes an owner's oldest alarm, as type 20 when it was forwarded and type 19 otherwise. One that
waits to be forwarded stays in the store. -/
def execAlarmAccept (owner : Fin 17) (s : State) : Host.Outcome State Fault Refusal :=
  done s (let l := s.weir.alarms.get owner.val []
    match l.find? Event.unposted with
    | none => s
    | some e =>
      let s := { s with weir := { s.weir with
        alarms := s.weir.alarms.put owner.val (settleFirst Event.unposted (fun x => { x with count := 0 }) l) } }
      let t := if owner.val < 16 then owner.val else 0
      s.postFault t (if e.source / 4096 = 15 then 20 else 19) e.fault e.origin e.count)

/-- The root takes in a forwarded alarm, from the body's cells 7 to 18 (R488). -/
def State.alarmIn (s : State) (t source : Nat) (cell : Nat → Nat) : State :=
  if s.loaded t ∧ s.isRoot t then
    let e : Event := { cls := 0, owner := t, source := srcOf 15 source, code := cell 10 % 2048, count := cell 11,
                       data := srcOf (cell 8 % 16) (cell 9), merged := false, pound := cell 15 + cell 16 * 4096,
                       dcycle := cell 17 + cell 18 * 4096, time := s.power.time, origin := source }
    (s.enterAlarm e).ringAlarm e
  else s

/-- ALARM. -/
def execAlarm (t : Fin 16) (source : Cell) (body : BitVec 144) (s : State) : Host.Outcome State Fault Refusal :=
  done s (s.alarmIn t.val source.toNat fun k => bits body.toNat (12 * (k - 7)) 12)

/-- The body of an ALARM message. -/
def Event.body (e : Event) : List Nat :=
  [e.owner, e.source / 4096, e.source % 4096, e.code, min 4095 e.fwd, e.data % 4096, e.data / 4096 % 4096,
    e.data / 2 ^ 24 % 4096] ++ two e.pound ++ two e.dcycle

/-- The oldest alarm that waits to be forwarded: of the tenants' own oldest, the first by time. -/
def State.nextForward (s : State) : Option Event :=
  ((List.range 16).filterMap fun t => (s.weir.alarms.get t []).find? Event.unsent).foldl (fun a e => match a with
    | some x => if e.time < x.time then some e else some x
    | none => some e) none

/-- ALARM_FORWARD: once each fwd_gap, the oldest alarm that waits goes to its partition's root (R488, R489). -/
def execAlarmForward (s : State) : Host.Outcome State Fault Refusal :=
  done s (match s.nextForward with
    | none => s
    | some e =>
      if s.on Reg.WEIR_CTRL_fwd = false then s
      else
        let l := s.weir.alarms.get e.owner []
        let s := { s with weir := { s.weir with
          alarms := s.weir.alarms.put e.owner (settleFirst Event.unsent (fun x => { x with fwd := 0 }) l) } }
        if s.loaded e.owner then s.message e.owner (s.part e.owner).rootDev 0x030 e.body else s)

/-! ### Tokens and the ring's reader (R484, R491) -/

/-- TOKEN_REFILL. -/
def execTokenRefill (owner : Fin 17) (s : State) : Host.Outcome State Fault Refusal :=
  done s (let o := owner.val
    let n := s.rg Reg.WEIR_BKT_tokens o
    if s.rg Reg.WEIR_BKT_rate o = 0 ∨ max 1 (s.rg Reg.WEIR_BKT_burst o) ≤ n then s
    else (s.setRg Reg.WEIR_BKT_tokens o (n + 1)).markers o)

/-- RING_READ_POLL. -/
def execRingReadPoll (s : State) : Host.Outcome State Fault Refusal := done s s.ringPoll

/-- WEIR_RING_RD: writes are discarded while the index comes from the list buffer. -/
def State.wRingRd (s : State) (who : Requester) (v : Word) : State :=
  if s.on Reg.WEIR_RING_CFG_rd_src then s else s.writeFields Reg.WEIR_RING_RD who 0 v

/-! ### Snapshots (R500) -/

/-- The snapshot record of one position: R278's, with P in bytes 4 and 5 and cells 0 to P - 1 before the marked cells, as
Readback shows them (R499). -/
def State.snapRecord (s : State) (t rel p c : Nat) : List Byte :=
  let cells := (s.part t).markedCells rel p
  pad8 ([BitVec.ofNat 8 rel, BitVec.ofNat 8 p] ++ leBytes 2 cells.length ++ leBytes 4 (s.steps t) ++
    (let x := s.shown c
     (List.range 94).flatMap (fun r => half (Mem.get x.rf r)) ++
      (List.range (s.steps t) ++ cells).flatMap fun n => half (Mem.get x.vm n)))

def State.snapBytes (s : State) (t : Nat) : List Byte :=
  (s.positionsOf t).flatMap fun u => s.snapRecord t u.1 u.2.1 u.2.2

/-- Allocate n buffers to tenant t, all or none. -/
def State.takeBuffers (s : State) (t : Nat) : Nat → Option (List Nat × State)
  | 0 => some ([], s)
  | n + 1 =>
    if s.atQuota t then none
    else match s.takeBuffer 1 t t with
      | none => none
      | some r => (r.2.takeBuffers t n).map fun q => (r.1 :: q.1, q.2)

/-- The end of a snapshot. -/
def State.snapEnd (s : State) (status : Nat) : State :=
  ((s.setRg Reg.WEIR_SNAP_busy 0 0).setRg Reg.WEIR_SNAP_status 0 status).cause .weir Reg.WEIR_CAUSE_snap_done

/-- WEIR_SNAP: a go starts a snapshot of a partition in Readback. -/
def State.wSnap (s : State) (who : Requester) (v : Word) : State :=
  let s := s.writeFields Reg.WEIR_SNAP who 0 v
  if Reg.WEIR_SNAP_go.of v = 0 then s
  else if s.on Reg.WEIR_SNAP_busy then s.setRg Reg.WEIR_SNAP_status 0 3
  else if s.pmode (s.rg Reg.WEIR_SNAP_tenant) ≠ 6 then s.snapEnd 1
  else { s.setRg Reg.WEIR_SNAP_busy 0 1 with weir := { s.weir with snapTenant := s.rg Reg.WEIR_SNAP_tenant } }

/-- WEIR_SNAP. -/
def execWeirSnap (who : Requester) (value : Word) (s : State) : Host.Outcome State Fault Refusal :=
  done s (s.asWriter who Reg.WEIR_SNAP.addr fun s => s.wSnap who value)

/-- The records of a snapshot go into ledger buffers of the tenant, or none stays allocated. -/
def State.snapFinish (s : State) (t : Nat) : State :=
  let l := s.snapBytes t
  let n := (l.length + 4095) / 4096
  let k := (n + 2046) / 2047
  match s.takeBuffers t (k + n) with
  | none => s.snapEnd 2
  | some r =>
    let s := (r.2.writeList (r.1.take k) (r.1.drop k)).writeData (r.1.drop k) l
    (s.setRg Reg.WEIR_SNAP_list 0 (r.1.headD 0xFFFF)).snapEnd 0

/-- SNAP_DONE: a partition that has left Readback meanwhile ends the snapshot with status 1. -/
def execSnapDone (s : State) : Host.Outcome State Fault Refusal :=
  done s (if s.on Reg.WEIR_SNAP_busy = false then s
    else if s.pmode s.weir.snapTenant ≠ 6 then s.snapEnd 1
    else s.snapFinish s.weir.snapTenant)

/-! ### Counters that a read clears (R503, R504) -/

/-- WEIR_TRC_STAT. -/
def execWeirTrcStat (who : Requester) (s : State) : Host.Outcome State Fault Refusal :=
  done s (s.asReader who Reg.WEIR_TRC_STAT.addr fun s => s.readClear Reg.WEIR_TRC_STAT who 0)

/-- WEIR_DROPb, read; an owner out of range reads zero. -/
def State.rDrop (s : State) (who : Requester) (b : Nat) : State :=
  match s.selOwner who with
  | some o => s.readClear Reg.WEIR_DROPb who (16 * o + b)
  | none => s.answer 0

/-- WEIR_DROP. -/
def execWeirDrop (who : Requester) (block : BitVec 4) (s : State) : Host.Outcome State Fault Refusal :=
  done s (s.asReader who (Reg.WEIR_DROPb.addr + 4 * block.toNat) fun s => s.rDrop who block.toNat)

/-- GAU_MATCH, read; a reach out of range reads zero. -/
def State.rGauMatch (s : State) (who : Requester) : State :=
  match s.selReach who with
  | some r => s.readClear Reg.GAU_MATCH who r [Reg.GAU_MATCH_step]
  | none => s.answer 0

/-- GAU_MATCH. -/
def execGauMatch (who : Requester) (s : State) : Host.Outcome State Fault Refusal :=
  done s (s.asReader who Reg.GAU_MATCH.addr fun s => s.rGauMatch who)

end Sys2Proof.Machine
end

