-- ==== Sys2Proof/Machine/Bus.lean ====
section
/-!
DEFINITION. Sys2Proof/Machine/Bus.lean: BAR0 and BAR2 by address (R540 to R555): every register write and read of the host,
of a keeper through window space 1 and of the Capstan monitor meets the one handler that its register's own command has.
-/
namespace Sys2Proof.Machine

/-! ### The address map (R540, R555) -/

/-- The address is one of the register's instances. -/
def RegDef.at (d : RegDef) (addr : Nat) : Bool :=
  if d.count ≤ 1 then decide (addr = d.addr)
  else decide (d.addr ≤ addr) && decide ((addr - d.addr) % d.stride = 0) && decide ((addr - d.addr) / d.stride < d.count)

/-- The register at a BAR0 dword address, if one occupies it (R541). -/
def regAt (addr : Nat) : Option RegDef := regTable.find? fun d => d.at addr

/-! ### Writes -/

/-- A gauge register: the write waits for the next design-cycle boundary unless the partition is in Loading, Held or Readback,
or the reach is unbound (R504). -/
def State.wGauge (s : State) (d : RegDef) (who : Requester) (g addr : Nat) (v : Word) : State :=
  let now := match s.owner (g / 16) with
    | some t => decide (s.pmode t = 1) || decide (s.pmode t = 3) || decide (s.pmode t = 6)
    | none => true
  if now then s.classWrite d who g addr v
  else
    let l := (d.fields.filter fun f => f.acc = .rw).map fun f => (fieldKey f g 0, f.of v)
    s.modRch (g / 16) fun x => { x with gaugeWrites := x.gaugeWrites ++ l }

/-- Lock k of tenant t has been committed on this device (R553). -/
def State.lockCommitted (s : State) (t k : Nat) : Bool :=
  (decide (2 ≤ s.pmode t) || (decide (s.pmode t = 1) && decide ((s.part t).startLock ≠ 0xFFFFFF))) && decide (k ≠ 0xFFFFFF) && decide (subMod 24 (s.rg Reg.LCK_CKPTt_newest t) k < 2 ^ 23)

/-- WHF_ATLOCKt: a lock already committed is recorded, and the shadows then apply at the next commit (R553). -/
def State.wAtlock (s : State) (who : Requester) (t addr : Nat) (v : Word) : State :=
  let k := Reg.WHF_ATLOCKt_lock.of v
  let s := if s.lockCommitted t k then s.refuse who 4 addr else s
  s.setRg Reg.WHF_ATLOCKt_lock t k

/-- CHK_SCANu_ADDR and CHK_SCANu_LEN (R467). -/
def State.wChkPlain (s : State) (d : RegDef) (who : Requester) (u addr : Nat) (v : Word) : State :=
  if s.chkShut who u then s.refuse who 2 addr else s.classWrite d who u addr v

/-- A write to instance i of a CLU, RCH, GAU, DMEM or AQ register; none where the register has no handler of its own. -/
def State.writeFabric (s : State) (d : RegDef) (who : Requester) (i addr : Nat) (v : Word) : Option State :=
  if d = Reg.CLU_CTRL then some (s.wCluCtrl who v)
  else if d = Reg.CLU_ROLE then some (s.wCluRole who v)
  else if d = Reg.CLU_CAUSE then some (s.wCluCause who v)
  else if d = Reg.CLU_RESUME then some (if Reg.CLU_RESUME_resume.of v = 1 then s.resume i else s)
  else if d = Reg.CLU_VM_DATA then some (s.wVmData who v)
  else if d = Reg.CLU_PM_DATA then some (s.wPmData who v)
  else if d = Reg.RCH_CTRL then some (s.wRchCtrl who v)
  else if d = Reg.RCH_XBT_DATA then some (s.wTable who xbtWin v)
  else if d = Reg.RCH_NSM_DATA then some (s.wTable who nsmWin v)
  else if d = Reg.RCH_BMAP_DATA then some (s.wTable who bmapWin v)
  else if d = Reg.RCH_CAUSE then some (s.wRchCause who v)
  else if d = Reg.RCH_BCAUSE then some (s.wRchBcause who v)
  else if d = Reg.DMEM_R_FLUSH then some (s.wFlush who v)
  else if d.inst = .gauge then some (s.wGauge d who i addr v)
  else if d = Reg.DMEM_RETIRE then some (s.wRetire v)
  else if d = Reg.AQ_CTRL then some (s.wAqCtrl who v)
  else if d = Reg.AQ_MARGIN then some (s.wMargin who v)
  else if d = Reg.AQ_PRBS then some (s.wPrbs who v)
  else if d = Reg.AQ_ROUTE_DATA then some (s.wRoute who v)
  else if d = Reg.AQ_SPNt then some (s.classWrite d who i addr v fun s => s.putSpn i (Reg.AQ_SPNt_spn.of v))
  else none

/-- A write to a LCK, TST, KPR or IRQ register. -/
def State.writeControl (s : State) (d : RegDef) (who : Requester) (i addr : Nat) (v : Word) : Option State :=
  if d = Reg.LCK_TREE_DATA then some (s.wTree who v)
  else if d = Reg.LCK_CMDt then some (s.wLckCmd i v)
  else if d = Reg.TST_DREDGE_CTRL then some (s.wDredgeCtrl who v)
  else if d = Reg.TST_FLIP_SEL then some (s.wFlipSel who v)
  else if d = Reg.TST_FLIP then some (s.wFlip v)
  else if d = Reg.TST_BKT then some (s.wBkt who v)
  else if d = Reg.KPR_CTRL then some (s.wKprCtrl who v)
  else if d = Reg.KPR_TBL_DATA then some (s.wTbl who v)
  else if d = Reg.KPR_PGOLD then some (s.wPgold d who i addr v)
  else if d = Reg.KPR_FAULT then some (s.wKprFault who v)
  else if d = Reg.KPR_HOOK then some (s.wKprHook who v)
  else if d = Reg.KPR_HOOK_DONE then some (s.wHookDone who v)
  else if d = Reg.IRQ_SRC_CFG then some (s.wSrcCfg who v)
  else if d = Reg.IRQ_SCAUSE then some (s.wScause who v)
  else if d = Reg.IRQ_COMPLETEk then some (s.wComplete who i addr v)
  else if d = Reg.IRQ_COMPLETEH then some (s.wComplete who 5 addr v)
  else if d = Reg.IRQ_KDOOR then some (s.wKdoor who v)
  else if d = Reg.IRQ_SWSET then some (s.wSwset who v)
  else if d = Reg.IRQ_PTGT then some (s.wPtgt who v)
  else none

/-- A write to a SLC, CHK, LDG, WEIR, PWR, AON, SEC or WHF register. -/
def State.writeService (s : State) (d : RegDef) (who : Requester) (i addr : Nat) (v : Word) : Option State :=
  if d = Reg.SLC_CHCMD then some (s.wChcmd who i v)
  else if d = Reg.CHK_CTRLu then some (s.wChkCtrl who i v)
  else if d = Reg.CHK_SCANu_CTRL then some (s.wChkScan who i v)
  else if d = Reg.CHK_SCANu_ADDR ∨ d = Reg.CHK_SCANu_LEN then some (s.wChkPlain d who i addr v)
  else if d = Reg.LDG_FREE then some (s.wFree who v)
  else if d = Reg.LDG_GIVE then some (s.wGive who v)
  else if d = Reg.LDG_GNT_A then some (s.wGntA who v)
  else if d = Reg.LDG_GNT_B then some (s.wGntB who v)
  else if d = Reg.WEIR_SW then some (s.wWeirSw who v)
  else if d = Reg.WEIR_RING_RD then some (s.wRingRd who v)
  else if d = Reg.WEIR_SNAP then some (s.wSnap who v)
  else if d = Reg.PWR_MODE then some (s.wPwrMode v)
  else if d = Reg.PWR_CTRL then some (s.wPwrCtrl who v)
  else if d = Reg.PWR_LIMIT then some (s.setLimit (Reg.PWR_LIMIT_limit.of v))
  else if d = Reg.PWR_VCORE then some (s.wVcore v)
  else if d = Reg.PWR_BASIN_OWN then some (s.wBasinOwn who v)
  else if d = Reg.PWR_PLANK then some (s.wPlank who v)
  else if d = Reg.AON_TIME_LO then some (s.wTimeLo who v)
  else if d = Reg.AON_TIME_HI then some (s.wTimeHi who v)
  else if d = Reg.AON_TSYNC then some (s.wTsync who v)
  else if d = Reg.AON_WAKE_TIME_LO then some { s with power := { s.power with wakeLo := v } }
  else if d = Reg.AON_WAKE_TIME_HI then some (s.wWakeTimeHi v)
  else if d = Reg.AON_CMP then some (s.wCmp v)
  else if d = Reg.AON_STAT then some (s.wAonStat v)
  else if d = Reg.SEC_LC_REQ then some (s.wLcReq who v)
  else if d = Reg.SEC_KEY_CTRL then some (s.wKeyCtrl who v)
  else if d = Reg.SEC_KEY_DATA then some (s.wKeyData v)
  else if d = Reg.WHF_ATLOCKt then some (s.wAtlock who i addr v)
  else none

/-- A write to instance i of a register. -/
def State.writeReg (s : State) (d : RegDef) (who : Requester) (i addr : Nat) (v : Word) : State :=
  match s.writeFabric d who i addr v with
  | some x => x
  | none => match s.writeControl d who i addr v with
    | some x => x
    | none => match s.writeService d who i addr v with
      | some x => x
      | none => s.classWrite d who i addr v

/-- Cause registers whose bits keeper 0 clears before it asks for a rollback (R300, R321). -/
def causeRegs : List RegDef :=
  [Reg.CLU_CAUSE, Reg.RCH_CAUSE, Reg.RCH_BCAUSE, Reg.DMEM_R_CAUSE, Reg.DMEM_CAUSE, Reg.LCK_CAUSEt, Reg.AQ_CAUSE]

/-- A write of a dword of BAR0: an address that no register occupies, and a selection that names no unit, discard it (R541). -/
def State.busWrite (s : State) (who : Requester) (addr : Nat) (v : Word) : State :=
  match regAt addr with
  | none =>
    let s := s.reached who
    if s.barOpen who addr true then s else s.unsupported 0
  | some d => s.asWriter who addr fun s =>
    match s.instOf d who addr with
    | some i => if causeRegs.contains d then State.noteCauses s (s.writeReg d who i addr v) else s.writeReg d who i addr v
    | none => s

/-! ### Reads -/

/-- What a register holds, where a read has no effect of its own. -/
def State.readValue (s : State) (d : RegDef) (who : Requester) (i : Nat) : Nat :=
  let plain := s.readFields d who i
  if d = Reg.CLU_ID then State.cluId i
  else if d = Reg.CLU_ROLE then s.cluRoleWord i
  else if d = Reg.CLU_STATUS then s.cluStatus i
  else if d = Reg.RCH_STATUS then s.rchStatus i
  else if d = Reg.RCH_BPEEK then (match s.selReach who with
    | some r => s.bpeek who r
    | none => 0)
  else if d = Reg.RCH_BPEEK_DATA then s.bpeekData who i
  else if d = Reg.GAU_CNT then plain + Reg.GAU_CNT_armed.at (b2n (s.armed (i / 16) (i % 16)))
  else if d = Reg.DMEM_STACKk then plain + Reg.DMEM_STACKk_reserved_sum.at (s.reservedSum i)
  else if d = Reg.TST_BKT then s.rBkt who
  else if d = Reg.KPR_STATUS then s.kprStatus i
  else if d = Reg.KPR_SEM then s.semBusy
  else if d = Reg.IRQ_SRC_CFG then s.srcCfg who
  else if d = Reg.IRQ_SCAUSE then s.scause who
  else if d = Reg.IRQ_PENDw then s.pendWord who i
  else if d = Reg.IRQ_SPENDw then s.spendWord i
  else if d = Reg.IRQ_SSUMk then s.ssum i
  else if d = Reg.SLC_ENG then s.slcEng i
  else if d = Reg.CHK_VALu_LO then s.chkVal i % 2 ^ 32
  else if d = Reg.CHK_VALu_HI then s.chkVal i / 2 ^ 32
  else if d = Reg.LDG_STAT then Reg.LDG_STAT_free.at s.ledgerFree
  else if d = Reg.LDG_QUERY then s.ldgQuery who
  else if d = Reg.LDG_GNT_A then s.grant (s.rgw Reg.LDG_GNT_ADDR_grant (copyOf who)) % 2 ^ 32
  else if d = Reg.LDG_GNT_B then s.grant (s.rgw Reg.LDG_GNT_ADDR_grant (copyOf who)) / 2 ^ 32
  else if d = Reg.LDG_QUOTAt then plain + Reg.LDG_QUOTAt_used.at (s.ledgerUsed i)
  else if d = Reg.WEIR_ALM_STAT then plain + Reg.WEIR_ALM_STAT_held.at (s.weir.alarms.get i []).length
  else if d = Reg.PWR_BASIN_OWN then
    plain - Reg.PWR_BASIN_OWN_owner.at (s.rg Reg.PWR_BASIN_OWN_owner i) + Reg.PWR_BASIN_OWN_owner.at (s.basinOwner i)
  else if d = Reg.PWR_RST then
    if s.mode = 0 then plain - Reg.PWR_RST_stage.at (s.rg Reg.PWR_RST_stage) + Reg.PWR_RST_stage.at s.stage else plain
  else if d = Reg.AON_TIME_LO then s.power.time % 2 ^ 32
  else if d = Reg.AON_TIME_HI then s.power.time / 2 ^ 32 % 2 ^ 32
  else if d = Reg.AON_WAKE_TIME_LO then s.power.wakeTime % 2 ^ 32
  else if d = Reg.AON_WAKE_TIME_HI then s.power.wakeTime / 2 ^ 32 % 2 ^ 32
  else if d = Reg.WHF_UID_LO then Config.dieUid.toNat % 2 ^ 32
  else if d = Reg.WHF_UID_HI then Config.dieUid.toNat / 2 ^ 32
  else plain

/-- A read that acts; none where the register's reads have no effect beyond those of its RC fields. -/
def State.readActs (s : State) (d : RegDef) (who : Requester) (i : Nat) : Option State :=
  if d = Reg.CLU_VM_DATA then some (s.rVmData who)
  else if d = Reg.CLU_PM_DATA then some (s.rPmData who)
  else if d = Reg.CLU_BANK_PEAK then some (s.readClear d who i [Reg.CLU_BANK_PEAK_bank, Reg.CLU_BANK_PEAK_step])
  else if d = Reg.RCH_XBT_DATA then some (s.rTable who xbtWin)
  else if d = Reg.RCH_NSM_DATA then some (s.rTable who nsmWin)
  else if d = Reg.RCH_BMAP_DATA then some (s.rTable who bmapWin)
  else if d = Reg.GAU_MATCH then some (s.rGauMatch who)
  else if d = Reg.AQ_ROUTE_DATA then some (s.rRoute who)
  else if d = Reg.AQ_PRBS_ERR then some (s.rPrbsErr who)
  else if d = Reg.LCK_TREE_DATA then some (s.rTree who)
  else if d = Reg.TST_ELOG_A then some s.rElogA
  else if d = Reg.KPR_TBL_DATA then some (s.rTbl who)
  else if d = Reg.IRQ_CLAIMk then some (s.rClaim who i)
  else if d = Reg.IRQ_CLAIMH then some (s.rClaim who 5)
  else if d = Reg.LDG_ALLOC then some (s.rAlloc who)
  else if d = Reg.LDG_LOG_A then some s.rLogA
  else if d = Reg.AON_STAT then some (s.rAonStat who)
  else if d = Reg.AON_WAKE then some (s.rWake who)
  else if d.fields.any fun f => f.acc = .rc then some (s.readClear d who i)
  else none

/-- The HI register of a pair whose LO this is (R523, R546). -/
def hiOf (d : RegDef) : Option RegDef :=
  if d = Reg.WHF_UID_LO then some Reg.WHF_UID_HI
  else if d = Reg.CHK_VALu_LO then some Reg.CHK_VALu_HI
  else if d = Reg.SLC_CHCUR_LO then some Reg.SLC_CHCUR_HI
  else if d = Reg.AON_TIME_LO then some Reg.AON_TIME_HI
  else none

/-- The register is the HI half of such a pair. -/
def isHi (d : RegDef) : Bool :=
  decide (d = Reg.WHF_UID_HI) || decide (d = Reg.CHK_VALu_HI) || decide (d = Reg.SLC_CHCUR_HI) ||
    decide (d = Reg.AON_TIME_HI)

/-- A read of instance i: a LO half latches its HI half for the requester, whose next read of HI takes the latch (R546). -/
def State.readReg (s : State) (d : RegDef) (who : Requester) (i addr : Nat) : State :=
  match s.readActs d who i with
  | some x => x
  | none =>
    let s := s.answer (s.readValue d who i)
    match hiOf d with
    | some h => { s with hiLatch := s.hiLatch.put (addr * 8 + copyOf who) (s.readValue h who i) }
    | none =>
      if isHi d then
        match s.hiLatch.find ((addr - 4) * 8 + copyOf who) with
        | some v => { s with hiLatch := s.hiLatch.del ((addr - 4) * 8 + copyOf who) }.answer v
        | none => s
      else s

/-- A read of a dword of BAR0. A read by the host of an IRQ register closes the window of its masks (R410). -/
def State.busRead (s : State) (who : Requester) (addr : Nat) : State :=
  match regAt addr with
  | none =>
    let s := s.reached who
    if s.barOpen who addr false then s.answer 0 else (s.unsupported 0).answer 0xFFFFFFFF
  | some d => s.asReader who addr fun s =>
    let t := match s.instOf d who addr with
      | some i => s.readReg d who i addr
      | none => s.answer 0
    if addr / 2 ^ 20 = 8 then t.hostRead who else t

/-! ### The doorbell page (R422, R554) -/

/-- A doorbell proper writes its index. -/
def doorIndex (off : Nat) : List Field :=
  match off with
  | 0x04 => [Reg.WHF_CQ_HEAD_index]
  | 0x08 => [Reg.WHF_FQ_HEAD_index]
  | 0x0C => [Reg.WHF_OQ_HEAD_index]
  | 0x10 => [Reg.WHF_AREA_HEAD_export, Reg.WHF_AREA_HEAD_log]
  | _ => []

/-- A dword of a vector's MSI-X table entry: address, data, vector control (R554; log entry 41). -/
def State.msixDword (s : State) (fn v k : Nat) (w : Word) : State :=
  let x := s.msix.get (16 * fn + v) {}
  match k with
  | 0 => { s with msix := s.msix.put (16 * fn + v) { x with addr := x.addr / 2 ^ 32 * 2 ^ 32 + w.toNat / 4 * 4 } }
  | 1 => { s with msix := s.msix.put (16 * fn + v) { x with addr := x.addr % 2 ^ 32 + w.toNat * 2 ^ 32 } }
  | 2 => { s with msix := s.msix.put (16 * fn + v) { x with data := w.toNat } }
  | _ => s.setMask fn v (bit w.toNat 0)

/-- A write of a dword of a function's page. -/
def State.pageWrite (s : State) (fn off : Nat) (v : Word) : State :=
  if off = 0x20 then s.wStop fn v
  else if off < 0x20 then
    if off = 0 then s.wSqTail fn v
    else (doorIndex off).foldl (fun s f => s.ring f fn v) s
  else if off = 0x40 then s.writeFields Reg.WHF_QSEL .pf fn v
  else if off = 0x44 then s.wQbase fn Reg.WHF_QBASE_LO_addr v
  else if off = 0x48 then s.wQbase fn Reg.WHF_QBASE_HI_addr v
  else if off = 0x4C then s.wQcfg fn v
  else if off = 0x50 then s.writeFields Reg.WHF_TSTAT .pf fn v
  else if off = 0x54 then s.wTctrl fn v
  else if 0x8000 ≤ off ∧ off < 0xC000 ∧ (off - 0x8000) / 16 < vectorsOf fn then
    s.msixDword fn ((off - 0x8000) / 16) (off / 4 % 4) v
  else s

/-- A read of a dword of a function's page. -/
def State.pageRead (s : State) (fn off : Nat) : State :=
  let plain := fun (d : RegDef) (i : Nat) => s.answer (s.readFields d .pf i)
  let kind := s.rg Reg.WHF_QSEL_kind fn
  let set := fun (d : RegDef) => if kind = 7 then s.answer 0 else plain d (qid fn kind)
  if off = 0x50 then s.rTstat fn
  else if off = 0x44 then set Reg.WHF_QBASE_LO
  else if off = 0x48 then set Reg.WHF_QBASE_HI
  else if off = 0x4C then set Reg.WHF_QCFG
  else if 0x8000 ≤ off ∧ off < 0xC000 then
    let v := (off - 0x8000) / 16
    let x := s.msix.get (16 * fn + v) {}
    if vectorsOf fn ≤ v then s.answer 0
    else match off / 4 % 4 with
      | 0 => s.answer (x.addr % 2 ^ 32)
      | 1 => s.answer (x.addr / 2 ^ 32)
      | 2 => s.answer x.data
      | _ => s.answer (b2n x.masked)
  else if off = 0xC000 then
    s.answer ((List.range (vectorsOf fn)).map fun v => b2n (s.msix.get (16 * fn + v) {}).pending * 2 ^ v).sum
  else match doorTable.find? fun d => d.addr = 0x4000000 + off with
    | some d => plain d fn
    | none => s.answer 0

/-! ### The commands -/

/-- A write to BAR0 with some byte enable clear is discarded whole and recorded (R544). -/
def State.hostWrite (s : State) (who : Requester) (addr : Nat) (v : Word) (enables : BitVec 4) : State :=
  if who = .pf ∧ enables ≠ 0xF#4 then
    let s := s.reached who
    if s.barOpen who addr true then s.refuse who 3 addr else s.unsupported 0
  else s.busWrite who addr v

/-- REGISTER_WRITE. -/
def execRegisterWrite (who : Requester) (addr : BitVec 25) (value : Word) (enables : BitVec 4) (s : State) :
    Host.Outcome State Fault Refusal :=
  done s (s.hostWrite who (addr.toNat / 4 * 4) value enables)

/-- MEMORY_REQUEST: one dword of a request; a request that is not served is an Unsupported Request (R420, R544). -/
def execMemoryRequest (fn : Fin 16) (bar2 : Bool) (offset : BitVec 25) (access : Option Word) (s : State) :
    Host.Outcome State Fault Refusal :=
  let off := offset.toNat / 4 * 4
  done s (match access with
    | some v =>
      if bar2 then s.onPage fn.val (decide (off % 2 ^ 16 < 0x20)) fun s => s.pageWrite fn.val (off % 2 ^ 16) v
      else if fn.val ≠ 0 then s.leaveL1.unsupported fn.val else (s.replied 0).busWrite .pf off v
    | none =>
      if bar2 then s.readPage fn.val fun s => s.pageRead fn.val (off % 2 ^ 16)
      else if fn.val ≠ 0 then (s.leaveL1.unsupported fn.val).answer 0xFFFFFFFF else (s.replied 0).busRead .pf off)

end Sys2Proof.Machine
end

