-- ==== Sys2Proof/Machine/Capstan.lean ====
section
/-!
DEFINITION. Sys2Proof/Machine/Capstan.lean: the Capstan monitor (R501, R502). The manual fixes the first two letters of an answer,
its error codes and what each answer holds; how the rest is spelt is the model's (log entry 46).
-/
namespace Sys2Proof.Machine

/-! ### Text -/

/-- ASCII of a string. -/
def ascii (t : String) : List Byte := t.toList.map fun c => BitVec.ofNat 8 c.toNat

/-- A hex digit. -/
def hexDigit (n : Nat) : Byte := BitVec.ofNat 8 (if n < 10 then 48 + n else 87 + n)

/-- A number in n hex digits. -/
def hexN : Nat → Nat → List Byte
  | 0, _ => []
  | n + 1, v => hexN n (v / 16) ++ [hexDigit (v % 16)]

/-- Words with a space before each. -/
def spaced (l : List (List Byte)) : List Byte := l.flatMap fun w => 0x20 :: w

/-- CR LF. -/
def newline : List Byte := [0x0D, 0x0A]

/-- The value of a hex digit, of either case. -/
def hexVal (b : Byte) : Option Nat :=
  let n := b.toNat
  if 48 ≤ n ∧ n ≤ 57 then some (n - 48)
  else if 97 ≤ n ∧ n ≤ 102 then some (n - 87)
  else if 65 ≤ n ∧ n ≤ 70 then some (n - 55)
  else none

/-- A number of one to eight hex digits. -/
def hexNumber (w : List Byte) : Option Nat :=
  if w = [] ∨ 8 < w.length then none
  else w.foldl (fun a b => match a, hexVal b with
    | some n, some d => some (16 * n + d)
    | _, _ => none) (some 0)

/-- The words of a line, split at spaces. -/
def wordsOf (l : List Byte) : List (List Byte) :=
  (l.foldr (fun b (a : List (List Byte)) => match a with
    | [] => if b = 0x20 then [[]] else [[b]]
    | w :: ws => if b = 0x20 then [] :: w :: ws else (b :: w) :: ws) []).filter fun w => w ≠ []

/-! ### Answers -/

/-- Bytes leave the port. -/
def State.say (s : State) (l : List Byte) : State :=
  { s with capstan := { s.capstan with out := s.capstan.out ++ l } }

/-- The prompt. -/
def State.prompt (s : State) : State := s.say (ascii "ox7> ")

/-- An answer of one or more lines, then the prompt. -/
def State.sayOk (s : State) (first : List (List Byte)) (rest : List (List Byte) := []) : State :=
  (s.say (ascii "ok" ++ spaced first ++ newline ++ rest.flatMap fun l => l ++ newline)).prompt

/-- A refusal, then the prompt. -/
def State.sayEr (s : State) (code : Nat) : State := (s.say (ascii "er " ++ hexN 2 code ++ newline)).prompt

/-- Capstan answers in Ready, Link test and Repair, and in Sanitize for ver and st; it is silent in Bring-up and Standby. -/
def State.capstanCmd (s : State) (inSanitize inDeployed : Bool) (f : State → State) : State :=
  if s.mode = 0 ∨ s.mode = 5 then s
  else if s.mode = 4 ∧ inSanitize = false then s.sayEr 4
  else if s.rg Reg.SEC_LC_state = 2 ∧ inDeployed = false then s.sayEr 3
  else f s

/-! ### Commands -/

/-- ver: part number, stepping, firmware version. -/
def State.capVer (s : State) : State :=
  s.capstanCmd true true fun s =>
    s.sayOk [ascii "OXP-7H32-ET", hexN 2 (s.rg Reg.WHF_ID_stepping),
      hexN 2 (s.rg Reg.WHF_ROMVER_major) ++ hexN 2 (s.rg Reg.WHF_ROMVER_minor) ++ hexN 4 (s.rg Reg.WHF_ROMVER_build)]

/-- st: the device mode; each tenant's mode, pound and newest lock. -/
def State.capSt (s : State) : State :=
  s.capstanCmd true true fun s =>
    s.sayOk [hexN 1 s.mode] ((List.range 16).map fun t =>
      hexN 1 t ++ spaced [hexN 1 (s.pmode t), hexN 6 (s.rg Reg.LCK_POUNDt_pound t), hexN 6 (s.rg Reg.LCK_CKPTt_newest t)])

/-- tm: the die and stack temperatures, VDD_CORE. -/
def State.capTm (s : State) : State :=
  s.capstanCmd false true fun s =>
    s.sayOk [hexN 2 (s.rg Reg.AON_STAT_temp), hexN 2 (s.rg Reg.DMEM_HBM_STATk_temp 0), hexN 2 (s.rg Reg.DMEM_HBM_STATk_temp 1),
      hexN 3 s.power.vddCore]

/-- Unread ring records, newest first, whose class f accepts. -/
def State.ringRecords (s : State) (f : Nat → Bool) : List (List Byte) :=
  ((List.range s.ringUsed).map fun i =>
    s.hbmGet (s.ringSlot ((s.rg Reg.WEIR_RING_WR_index + s.ringSize - 1 - i) % s.ringSize)) 32).filter fun r =>
      f (sliceLe r 8 1 % 4)

/-- A record as a line: its fields of R482 in order. -/
def recordLine (r : List Byte) : List Byte :=
  hexN 16 (sliceLe r 0 8) ++ spaced [hexN 4 (sliceLe r 8 2), hexN 4 (sliceLe r 10 2), hexN 3 (sliceLe r 12 2),
    hexN 4 (sliceLe r 14 2), hexN 9 (sliceLe r 16 8), hexN 6 (sliceLe r 24 4), hexN 5 (sliceLe r 28 4)]

/-- al and lg: the newest n records of the ring, n up to 40. -/
def State.capRing (s : State) (n : Nat) (f : Nat → Bool) : State :=
  s.capstanCmd false true fun s =>
    if 40 < n then s.sayEr 2
    else s.sayOk [] (((s.ringRecords f).take n).map recordLine)

/-- dr: nonzero drop counters by owner and block, trace gaps, ring_lost. -/
def State.capDr (s : State) : State :=
  s.capstanCmd false true fun s =>
    let l := which (17 * 16) fun k => s.rg Reg.WEIR_DROPb_drops k ≠ 0
    s.sayOk [hexN 4 (s.rg Reg.WEIR_TRC_STAT_gaps), hexN 4 (s.rg Reg.WEIR_TRC_STAT_ring_lost)]
      (l.map fun k => hexN 2 (k / 16) ++ spaced [hexN 1 (k % 16), hexN 8 (s.rg Reg.WEIR_DROPb_drops k)])

/-- lk: AQ_STATUS and the counters of link l, those of its five lanes among them. -/
def State.capLk (s : State) (l : Nat) : State :=
  s.capstanCmd false true fun s =>
    s.sayOk [hexN 8 (s.readFields Reg.AQ_STATUS .capstan l), hexN 8 (s.readFields Reg.AQ_CNT_FEC .capstan l),
      hexN 8 (s.readFields Reg.AQ_CNT_REPLAY .capstan l)]
      ((List.range 5).map fun k => hexN 8 (s.readFields Reg.AQ_LANE_SYM .capstan (5 * l + k)))

/-- The SEC block. -/
def secBlock (a : Nat) : Bool := decide (0xD00080 ≤ a) && decide (a < 0xD00090)

/-- rd: a register of BAR0; its data register of the block is left as it was. -/
def State.capRd (s : State) (a : Nat) : State :=
  s.capstanCmd false true fun s =>
    if 2 ^ 25 ≤ a ∨ a % 4 ≠ 0 then s.sayEr 2
    else if secBlock a then s.sayEr 5
    else
      let t := s.busRead .capstan a
      ({ t with readData := s.readData }).sayOk [hexN 8 t.readData.toNat]

/-- wr, as the system keeper in ring 1. -/
def State.capWr (s : State) (a : Nat) (v : Word) : State :=
  s.capstanCmd false false fun s =>
    if 2 ^ 25 ≤ a ∨ a % 4 ≠ 0 then s.sayEr 2 else ({ s.busWrite .capstan a v with readData := s.readData }).sayOk []

/-- bd: the new rate applies after the answer. -/
def State.capBd (s : State) (r : Nat) : State :=
  s.capstanCmd false true fun s =>
    if r = 115200 ∨ r = 921600 ∨ r = 1500000 ∨ r = 3000000 then
      let t := s.sayOk []
      { t with capstan := { t.capstan with baud := r, oldBaud := some s.capstan.baud } }
    else s.sayEr 2

/-- CAPSTAN_VER. -/
def execCapstanVer (s : State) : Host.Outcome State Fault Refusal := done s s.capVer

/-- CAPSTAN_ST. -/
def execCapstanSt (s : State) : Host.Outcome State Fault Refusal := done s s.capSt

/-- CAPSTAN_TM. -/
def execCapstanTm (s : State) : Host.Outcome State Fault Refusal := done s s.capTm

/-- CAPSTAN_AL. -/
def execCapstanAl (n : Nat) (s : State) : Host.Outcome State Fault Refusal := done s (s.capRing n fun c => decide (c = 0))

/-- CAPSTAN_LG. -/
def execCapstanLg (n : Nat) (s : State) : Host.Outcome State Fault Refusal := done s (s.capRing n fun c => decide (c = 1) || decide (c = 2))

/-- CAPSTAN_DR. -/
def execCapstanDr (s : State) : Host.Outcome State Fault Refusal := done s s.capDr

/-- CAPSTAN_LK. -/
def execCapstanLk (link : Fin 16) (s : State) : Host.Outcome State Fault Refusal := done s (s.capLk link.val)

/-- CAPSTAN_RD. -/
def execCapstanRd (addr : BitVec 25) (s : State) : Host.Outcome State Fault Refusal := done s (s.capRd addr.toNat)

/-- CAPSTAN_WR. -/
def execCapstanWr (addr : BitVec 25) (value : Word) (s : State) : Host.Outcome State Fault Refusal :=
  done s (s.capWr addr.toNat value)

/-- CAPSTAN_BD. -/
def execCapstanBd (rate : Nat) (s : State) : Host.Outcome State Fault Refusal := done s (s.capBd rate)

/-- BAUD_REVERT. -/
def execBaudRevert (s : State) : Host.Outcome State Fault Refusal :=
  done s (match s.capstan.oldBaud with
    | some b => { s with capstan := { s.capstan with baud := b, oldBaud := none } }
    | none => s)

/-! ### Lines (R501) -/

/-- A command with no operand: any word after it is a syntax error. -/
def State.bare (s : State) (rest : List (List Byte)) (f : State → State) : State :=
  if rest = [] then f s else s.capstanCmd true true fun s => s.sayEr 2

/-- A command with one number below `limit`. -/
def State.withNumber (s : State) (rest : List (List Byte)) (limit : Nat) (f : Nat → State) : State :=
  match rest with
  | [w] => match hexNumber w with
    | some n => if n < limit then f n else s.capstanCmd true true fun s => s.sayEr 2
    | none => s.capstanCmd true true fun s => s.sayEr 2
  | _ => s.capstanCmd true true fun s => s.sayEr 2

/-- Parse a line and answer it. An empty line asks nothing, and its answer is "ok" (DESIGN CHOICE; log entry 97). -/
def State.capstanLine (s : State) (l : List Byte) (long : Bool) : State :=
  let er := fun (n : Nat) => s.capstanCmd true true fun s => s.sayEr n
  if long then er 2
  else match wordsOf l with
    | [] => s.capstanCmd true true fun s => s.sayOk []
    | c :: rest =>
      if c = ascii "ver" then s.bare rest State.capVer
      else if c = ascii "st" then s.bare rest State.capSt
      else if c = ascii "tm" then s.bare rest State.capTm
      else if c = ascii "dr" then s.bare rest State.capDr
      else if c = ascii "al" then s.withNumber rest 41 fun n => s.capRing n fun c => decide (c = 0)
      else if c = ascii "lg" then s.withNumber rest 41 fun n => s.capRing n fun c => decide (c = 1) || decide (c = 2)
      else if c = ascii "lk" then s.withNumber rest 16 s.capLk
      else if c = ascii "rd" then s.withNumber rest (2 ^ 25) s.capRd
      else if c = ascii "bd" then s.withNumber rest (2 ^ 32) s.capBd
      else if c = ascii "wr" then
        match rest with
        | [a, v] => match hexNumber a, hexNumber v with
          | some a, some v => s.capWr a (BitVec.ofNat 32 v)
          | _, _ => er 2
        | _ => er 2
      else er 1

/-- CAPSTAN_LINE: CR ends the line. -/
def execCapstanLine (s : State) : Host.Outcome State Fault Refusal :=
  done s (let c := s.capstan
    State.capstanLine { s with capstan := { c with line := [], tooLong := false } } c.line c.tooLong)

/-- A byte or a break reaches the port, unless the device is in Bring-up or Standby; it raises source 133. -/
def State.capstanRx (s : State) (f : Capstan → Capstan) : State :=
  if s.mode = 0 ∨ s.mode = 5 then s else { s with capstan := f s.capstan }.edge 133

/-- CAPSTAN_BREAK. -/
def execCapstanBreak (s : State) : Host.Outcome State Fault Refusal :=
  done s (s.capstanRx fun c => { c with line := [], tooLong := false })

/-- A character: every one is echoed, 0x08 then deletes the last of the line, CR ends the line (CAPSTAN_LINE), and any other joins a line
of at most 80. Any byte keeps the new rate. -/
def Capstan.byte (c : Capstan) (b : Byte) : Capstan :=
  let c := { c with oldBaud := none, out := c.out ++ [b] }
  if b = 0x08 then { c with line := c.line.dropLast }
  else if b = 0x0D then c
  else if c.line.length < 80 then { c with line := c.line ++ [b] } else { c with tooLong := true }

/-- CAPSTAN_BYTE. -/
def execCapstanByte (byte : Byte) (s : State) : Host.Outcome State Fault Refusal := done s (s.capstanRx fun c => c.byte byte)

end Sys2Proof.Machine
end

