-- ==== Sys2Proof/Machine/ConfigSpace.lean ====
section
/-!
DEFINITION. Sys2Proof/Machine/ConfigSpace.lean: the configuration space of the functions (R418, R419, R542), at the places that PCI
Express Base gives the registers (PRESUMED; log entry 25), and the states of functions and link (R453).
-/
namespace Sys2Proof.Machine

/-! ### What each dword holds -/

/-- Reset values of the AER dwords 1 to 5 (log entry 25). -/
def aerReset (k : Nat) : Nat := if k = 3 then 0x00462030 else if k = 5 then 0x6000 else 0

/-- A held dword of AER. -/
def Fn.aerWord (x : Fn) (k : Nat) : Nat := x.aer.get k (aerReset k)

/-- Header: identity (R542), Command with the list of capabilities present, class, the PF's two BARs (R419), subsystem. -/
def Fn.headerWord (x : Fn) (pf : Bool) (n : Nat) : Nat :=
  match n with
  | 0 => if pf then 0x00071F7A else 0xFFFFFFFF
  | 1 => b2n (x.memEnable && pf) * 2 + b2n x.busMaster * 4 + 0x100000
  | 2 => 0x120000B0
  | 4 => if pf then x.bar0 % 2 ^ 32 + 4 else 0
  | 5 => if pf then x.bar0 / 2 ^ 32 else 0
  | 6 => if pf then x.bar2 % 2 ^ 32 + 4 else 0
  | 7 => if pf then x.bar2 / 2 ^ 32 else 0
  | 11 => 0x00071F7A
  | 13 => 0x40
  | _ => 0

/-- A dword of the capabilities at 0x40 (power management), 0x50 (PCI Express), 0x90 (MSI-X), 0x100 (AER) and, in the PF, 0x140
(SR-IOV); none where the model holds nothing. -/
def Fn.capWord (x : Fn) (fn n : Nat) : Option Nat :=
  let pf := decide (fn = 0)
  match n with
  | 16 => some (0x00035001 + b2n pf * 0xC0000000)
  | 17 => some (b2n x.d3hot * 3 + 8 + b2n x.pmeEnable * 2 ^ 8 + b2n x.pmeStatus * 2 ^ 15)
  | 20 => some 0x00029010
  | 21 => some 0x10008022
  | 22 => some (x.devCtl + x.devSta * 2 ^ 16)
  | 23 => some (6 + 16 * 2 ^ 4 + 2 * 2 ^ 10)
  | 37 => some 0x8002
  | 38 => some 0xC002
  | 64 => some (0x00020001 + b2n pf * 0x14000000)
  | 65 => some (x.aerWord 1)
  | 66 => some (x.aerWord 2)
  | 67 => some (x.aerWord 3)
  | 68 => some (x.aerWord 4)
  | 69 => some (x.aerWord 5)
  | 80 => if pf then some 0x00010010 else none
  | 82 => if pf then some (b2n x.vfEnable + b2n x.vfMem * 8) else none
  | 83 => if pf then some (15 + 15 * 2 ^ 16) else none
  | 84 => if pf then some x.numVfs else none
  | 85 => if pf then some (1 + 2 ^ 16) else none
  | 89 => if pf then some 0 else none
  | 90 => if pf then some 0 else none
  | 91 => if pf then some (x.vfBar % 2 ^ 32 + 4) else none
  | 92 => if pf then some (x.vfBar / 2 ^ 32) else none
  | _ => none

/-- A configuration read; a dword that the model does not hold reads a free value. -/
def State.configRead (s : State) (fn off : Nat) : State :=
  let n := off / 4
  if n < 16 then s.answer ((s.fn fn).headerWord (decide (fn = 0)) n)
  else match (s.fn fn).capWord fn n with
    | some v => s.answer v
    | none => { s with readData := Config.freeWord s.freeCtr, freeCtr := s.freeCtr + 1 }

/-! ### Function power states (R453) -/

/-- A function's power state changes. In D0 its unmasked pending messages go; a PF that comes to D0 in Standby-retain is the
host's resume (R453, R530, R531). -/
def State.setPower (s : State) (fn : Nat) (d3hot : Bool) : State :=
  let was := (s.fn fn).d3hot
  let s := s.setFn fn { s.fn fn with d3hot := d3hot }
  let s := if was = d3hot then s else s.edge (112 + fn)
  let s := if was ∧ d3hot = false then
      each (which 16 fun v => (s.msix.get (16 * fn + v) {}).pending && !(s.msix.get (16 * fn + v) {}).masked)
        (fun v s => s.msixSend fn v) s
    else s
  if s.mode = 5 ∧ fn = 0 ∧ was ∧ d3hot = false then s.wakeBy 0 else s

/-- POWER_STATE_WRITE. -/
def execPowerStateWrite (fn : Fin 16) (d3hot : Bool) (s : State) : Host.Outcome State Fault Refusal :=
  done s (s.onConfig fn.val fun s => s.setPower fn.val d3hot)

/-! ### Writes -/

/-- The high or low half of a 64-bit base address of a size. -/
def barLow (old size : Nat) (v : Word) : Nat := old / 2 ^ 32 * 2 ^ 32 + v.toNat / size * size
def barHigh (old : Nat) (v : Word) : Nat := old % 2 ^ 32 + v.toNat * 2 ^ 32

/-- PMCSR: the power state, PME Enable, and PME Status, which a 1 clears. -/
def State.wPmcsr (s : State) (fn : Nat) (v : Word) : State :=
  let x := s.fn fn
  let s := s.setFn fn { x with pmeEnable := bit v.toNat 8, pmeStatus := x.pmeStatus && !bit v.toNat 15 }
  if v.toNat % 4 = 0 then s.setPower fn false else if v.toNat % 4 = 3 then s.setPower fn true else s

/-- Bits of x that are 1 in v, cleared. -/
def clearBits (x v : Nat) : Nat := x - Nat.land x v

/-- Device Control and Status. A payload above 512 bytes or a read request above 4,096 leaves that field as it was; Initiate FLR is an
FLR (R418, R451; log entry 25). -/
def State.wDevCtl (s : State) (fn : Nat) (v : Word) : State :=
  let x := s.fn fn
  let old := x.devCtl
  let w := v.toNat % 2 ^ 15
  let w := if 2 < bits w 5 3 then w - bits w 5 3 * 2 ^ 5 + bits old 5 3 * 2 ^ 5 else w
  let w := if 5 < bits w 12 3 then w - bits w 12 3 * 2 ^ 12 + bits old 12 3 * 2 ^ 12 else w
  let s := s.setFn fn { x with devCtl := w, devSta := clearBits x.devSta (v.toNat / 2 ^ 16) }
  if bit v.toNat 15 then s.doFlr fn else s

/-- SR-IOV Control: VF Enable and VF Memory Space Enable. VF Enable cleared resets every VF (R451). -/
def State.wSriov (s : State) (v : Word) : State :=
  let x := s.fn 0
  let s := s.setFn 0 { x with vfEnable := bit v.toNat 0, vfMem := bit v.toNat 3 }
  if x.vfEnable ∧ bit v.toNat 0 = false then each (List.range 15) (fun k s => s.flrOne (k + 1)) s else s

/-- A dword of AER: the status registers clear where a 1 is written. -/
def State.wAer (s : State) (fn k : Nat) (v : Word) : State :=
  let x := s.fn fn
  let w := if k = 1 ∨ k = 4 then clearBits (x.aerWord k) v.toNat else v.toNat
  s.setFn fn { x with aer := x.aer.put k w }

/-- A configuration write; a dword that the model does not hold takes none. -/
def State.configWrite (s : State) (fn off : Nat) (v : Word) : State :=
  let x := s.fn fn
  let n := off / 4
  if n = 1 then s.setFn fn { x with memEnable := bit v.toNat 1 && decide (fn = 0), busMaster := bit v.toNat 2 }
  else if n = 17 then s.wPmcsr fn v
  else if n = 22 then s.wDevCtl fn v
  else if 65 ≤ n ∧ n ≤ 69 then s.wAer fn (n - 64) v
  else if fn ≠ 0 then s
  else match n with
    | 4 => s.setFn 0 { x with bar0 := barLow x.bar0 (2 ^ 25) v }
    | 5 => s.setFn 0 { x with bar0 := barHigh x.bar0 v }
    | 6 => s.setFn 0 { x with bar2 := barLow x.bar2 (2 ^ 16) v }
    | 7 => s.setFn 0 { x with bar2 := barHigh x.bar2 v }
    | 82 => s.wSriov v
    | 84 => if x.vfEnable ∨ 15 < v.toNat then s else s.setFn 0 { x with numVfs := v.toNat }
    | 91 => s.setFn 0 { x with vfBar := barLow x.vfBar (2 ^ 16) v }
    | 92 => s.setFn 0 { x with vfBar := barHigh x.vfBar v }
    | _ => s

/-- CONFIG_REQUEST; a function that does not exist reads all ones (R421, R505). -/
def execConfigRequest (fn : Fin 16) (offset : BitVec 12) (access : Option Word) (s : State) :
    Host.Outcome State Fault Refusal :=
  done s (match access with
    | some v => s.onConfig fn.val fun s => s.configWrite fn.val offset.toNat v
    | none =>
      if s.mode ≠ 0 ∧ s.present fn.val = false then (s.onConfig fn.val id).answer 0xFFFFFFFF
      else s.onConfig fn.val fun s => s.configRead fn.val offset.toNat)

/-! ### Link states (R453) -/

/-- A channel has a request to host memory outstanding. -/
def State.chAtHost (s : State) (c : Nat) : Bool :=
  s.chRunning c && (match (s.chan c).desc with
    | none => !(s.chan c).nextLedger
    | some d => decide (dSrcKind d = 0) || decide (dDstKind d = 0))

/-- ASPM_L1_ENTRY: 20 us have gone by without doorbell-page activity, as the command says, and no request is outstanding. -/
def execAspmL1Entry (l12 : Bool) (s : State) : Host.Outcome State Fault Refusal :=
  done s (if s.power.linkState = 0 ∧ (List.range 64).all (fun c => !s.chAtHost c) then
      { s with power := { s.power with linkState := if l12 then 2 else 1 } }.edge 134
    else s)

/-- L1_EXIT. -/
def execL1Exit (s : State) : Host.Outcome State Fault Refusal := done s s.leaveL1

end Sys2Proof.Machine
end

