-- ==== Sys2Proof/Machine/Deliver.lean ====
section
/-!
DEFINITION. Sys2Proof/Machine/Deliver.lean: sequenced barges: acceptance, forwarding and local delivery (R232, R233, R240, R242 to
R246, R254).
-/
namespace Sys2Proof.Machine

/-- A cause of link l for content it discards. -/
def linkCause (s : State) (l : Nat) (f : Field) : State := s.cause (.link l) f l

/-! ### VC0 records (R242, R243) -/

/-- A value record at cell k. -/
def State.valueIn (s : State) (t : Nat) (b : Barge) (k : Nat) : State :=
  let c := bcell b (k + 3)
  match (s.part t).bound[bits c 7 5]? with
  | some r => s.arrival t r (bcell b k) (bcell b 3) (bcell b (k + 1)) (bits c 6 1) (bits c 4 2) (BitVec.ofNat 12 (bcell b (k + 2)))
  | none => s

/-- The reach of a partition whose net-slot map defines a tag, by the directory built at load (R243). -/
def State.definer (s : State) (t tag : Nat) : Option Nat :=
  ((s.part t).netDir.find tag).bind fun rel => (s.part t).bound[rel]?

/-- A clear record at cell k. -/
def State.clearIn (s : State) (t : Nat) (b : Barge) (k : Nat) : State :=
  match s.definer t (bcell b k) with
  | some r => s.clearArrives t r (bcell b k) (bits (bcell b (k + 1)) 6 1) (bits (bcell b (k + 1)) 4 2)
  | none => s

/-- The first n records of a VC0 barge for this device. -/
def State.vc0Local (s0 : State) (l : Nat) (b : Barge) (n : Nat) : State :=
  let s := s0.healSpns
  match s0.tenantOf (bcell b 4) with
  | none => linkCause s l Reg.AQ_CAUSE_unknown_spn
  | some t =>
    if bKind b = 0 then each (List.range n) (fun i s => s.valueIn t b (5 + 4 * i)) s
    else each (List.range n) (fun i s => s.clearIn t b (5 + 2 * i)) s

/-- The barge with only its first n records. -/
def firstRecords (b : Barge) (n : Nat) : Barge :=
  let w := if bKind b = 0 then 4 else 2
  seqBarge 0 (bKind b) n (bcell b 2) (bcell b 3) (bcell b 4) ((List.range (w * n)).map fun i => bcell b (5 + i))

/-! ### VC1 and VC3 (R244, R464) -/

/-- Answer a request: the response echoes the space and the length. -/
def State.respond (s : State) (b : Barge) (kind status : Nat) (data : List Nat) : State :=
  s.sendBarge 1 kind 1 (bcell b 3) (bcell b 4)
    ([bcell b 5, bcell b 6, bcell b 7, bits (bcell b 8) 8 4 * 256 + status * 32 + bcell b 8 % 32] ++ data)

/-- The channel that awaits a transaction ID. -/
def State.awaiting (s : State) (txn : Nat) : Option Nat :=
  (List.range 64).find? fun c => decide ((s.chan c).waiting ≠ 0) && decide ((s.chan c).txn = txn)

/-- A request or response for this device; a length outside 1 to 19 is content that the manual does not define (log entry 47). -/
def State.vc1Local (s : State) (l : Nat) (b : Barge) : State :=
  let n := bcell b 8 % 32
  let status := bits (bcell b 8) 5 3
  let addr := bcell b 6 + 4096 * bcell b 7
  let data := (List.range n).map fun i => bcell b (9 + i)
  if n = 0 ∨ 19 < n then linkCause s l Reg.AQ_CAUSE_unknown_kind
  else match bKind b with
    | 0 =>
      let a := if bits (bcell b 8) 8 4 ≠ 0 then (7, []) else s.grantRead (bits addr 11 12) (bits addr 0 11) n (bcell b 4)
      s.respond b 2 a.1 a.2
    | 1 =>
      let a := if bits (bcell b 8) 8 4 ≠ 0 then (7, s) else s.grantWrite (bits addr 11 12) (bits addr 0 11) (bcell b 4) data
      a.2.respond b 3 a.1 []
    | 2 => match s.awaiting (bcell b 5) with
      | some c => s.readAnswer c status (if status = 0 then data.map (BitVec.ofNat 12) else [])
      | none => s
    | _ => match s.awaiting (bcell b 5) with
      | some c => s.writeAnswer c status
      | none => s

/-! ### VC2 (R245, R286, R445, R488) -/

/-- Two cells, low first. -/
def pair (b : Barge) (k : Nat) : Nat := bcell b k + 4096 * bcell b (k + 1)

/-- The stop of a ROLLBACK or RESUME body, from cell 10 (R286). -/
def stopBody (b : Barge) : Option (Nat × Nat × Bool) :=
  let c := bcell b 13
  if bit c 11 then none else some (pair b 10, bcell b 12 + bits c 0 8 * 4096, bit c 8)

/-- A message of a partition held here, by its type; an unknown or reserved type sets unknown_kind (R246). -/
def State.messageIn (s : State) (l t : Nat) (b : Barge) : State :=
  let src := bcell b 3
  let c9 := bcell b 9
  match bcell b 5 with
  | 0x010 => s.arriveIn t src (pair b 7) (bits c9 0 2) (bcell b 10)
  | 0x011 => s.commitIn t (pair b 7) (bit c9 0) (pair b 10 + pair b 12 * 4096 ^ 2 + pair b 14 * 4096 ^ 4) (pair b 16) 0
  | 0x012 => s.reqAtRoot t (bits c9 0 2) (bit c9 2) (bit c9 7)
  | 0x013 => s.rollbackIn t (pair b 7) (bits c9 0 2) (bit c9 2) (stopBody b)
  | 0x014 => s.restoredIn t src (pair b 7) (bits c9 0 2) (bits c9 2 3 * 4) (bcell b 10)
  | 0x015 => s.resumeIn t (pair b 7) (bits c9 0 2) (stopBody b)
  | 0x016 => s.suspendIn t (bits c9 0 2) (bits c9 2 4)
  | 0x017 => if bits (bcell b 8) 0 2 = s.epoch t then s.rejoinIn t (bcell b 7) (bits (bcell b 8) 0 2) else s
  | 0x020 => s.stopNow t (bcell b 7) (bit (bcell b 8) 0) (some src)
  | 0x021 => s.goPart t (bcell b 7) (some src)
  | 0x030 => s.alarmIn t src (bcell b)
  | _ => linkCause s l Reg.AQ_CAUSE_unknown_kind

/-- The types that the manual defines. -/
def knownType (n : Nat) : Bool := (decide (0x010 ≤ n) && decide (n ≤ 0x017)) || n = 0x020 || n = 0x021 || n = 0x030

/-- A VC2 message for this device: alive, type, then the partition. No chapter defines a neighbour message (log entry 47). -/
def State.vc2Local (s : State) (l : Nat) (b : Barge) : State :=
  let src := bcell b 3
  if bKind b = 1 then linkCause s l Reg.AQ_CAUSE_unknown_kind
  else if s.aliveSeen.find src = some (bcell b 6) then linkCause s l Reg.AQ_CAUSE_alive_repeat
  else
    let s := { s with aliveSeen := s.aliveSeen.put src (bcell b 6) }
    if !knownType (bcell b 5) then linkCause s l Reg.AQ_CAUSE_unknown_kind
    else match s.tenantOf (bcell b 4) with
      | some t => s.healSpns.messageIn l t b
      | none => linkCause s.healSpns l Reg.AQ_CAUSE_unknown_spn

/-! ### Acceptance (R232, R233) -/

/-- The records a barge may hold, by VC and kind (R242). -/
def recordLimit (vc kind : Nat) : Nat :=
  match vc, kind with
  | 0, 0 => 5
  | 0, 1 => 11
  | 1, k => if k ≤ 3 then 1 else 0
  | 3, k => if k ≤ 3 then 1 else 0
  | 2, k => if k ≤ 1 then 1 else 0
  | _, _ => 0

/-- Its kind and count are of R242. -/
def bargeKnown (b : Barge) : Bool := decide (1 ≤ bCount b) && decide (bCount b ≤ recordLimit (bVc b) (bKind b))

/-- The VC0 records that find room in a link's receive buffer (R240). -/
def State.vc0Room (s : State) (l n : Nat) : Nat := min n (2048 - (s.lnk l).vc0Held)

/-- An accepted barge goes to this device or on along its route; its space is free once it has left (R238, R240, R254). -/
def State.deliver (s : State) (l : Nat) (b : Barge) : State :=
  let vc := bVc b
  let here := decide (bcell b 2 = s.devid) || (decide (vc = 2) && decide (bKind b = 1))
  if !bargeKnown b then (linkCause s l Reg.AQ_CAUSE_unknown_kind).freeSpace l vc 0
  else if vc = 0 then
    let n := s.vc0Room l (bCount b)
    let s := if n < bCount b then linkCause s l Reg.AQ_CAUSE_vc0_overflow else s
    if n = 0 then s
    else if here then s.vc0Local l b n
    else
      let s := if (s.route (bcell b 2)).isSome then s.modLnk l fun x => { x with vc0Held := x.vc0Held + n } else s
      s.emit l (if n < bCount b then firstRecords b n else b) l
  else if here then (if vc = 2 then s.vc2Local l b else s.vc1Local l b).freeSpace l vc 1
  else if (s.outLink b).isSome then s.emit l b l
  else (s.emit l b l).freeSpace l vc 1

/-- The oldest of this device's barges for itself is delivered (R254; log entry 71). -/
def State.deliverOwn (s : State) : State :=
  match s.ownBarges with
  | [] => s
  | b :: rest =>
    let s := { s with ownBarges := rest }
    match bVc b with
    | 0 => s.vc0Local 0 b (bCount b)
    | 2 => s.vc2Local 0 b
    | _ => s.vc1Local 0 b

/-- What the receiver of a sequenced barge does with its counters, and whether it accepts (R232, R233). -/
def Link.receive (x : Link) (good : Bool) (b : Barge) : Bool × Link :=
  if !good then (false, x.fail)
  else if bEcho b ≠ x.expRound then (false, x)
  else if bcell b 0 = x.expected then (true, { x with expected := (x.expected + 1) % 4096, nak := false, episode := false })
  else (false, ({ x with episode := false } : Link).fail)

/-- A barge arrives on link l (R225, R228, R232). -/
def State.bargeIn (s : State) (l : Nat) (b : Barge) : State :=
  let n := (s.lnk l).nextBarge
  let good := !n.1 && crcOk b
  if s.takesBarges l = false then s
  else if good && bLink b || !s.active l then s.linkBargeIn l b
  else
    let r := n.2.receive good b
    let s := s.setLnk l r.2
    if r.1 then s.deliver l b else s

/-- BARGE. -/
def execBarge (link : Fin 16) (barge : Barge) (s : State) : Host.Outcome State Fault Refusal :=
  done s (s.bargeIn link.val barge)

end Sys2Proof.Machine
end

