-- ==== Sys2Proof/Machine/KealaMem.lean ====
section
/-!
DEFINITION. Sys2Proof/Machine/KealaMem.lean: a keeper's 24-bit data addresses: ring regions, windows and their spaces (R355 to
R359), and how a keeper runs one instruction (R356, R373, R379).
-/
namespace Sys2Proof.Machine

/-! ### Ring regions (R356) -/

/-- The ring that owns place a, by three ascending boundaries in cells c to c + 2 of table 8, each in units of n. -/
def State.regionOf (s : State) (k c n a : Nat) : Except KErr Nat := do
  let b1 ← s.getTbl k 8 0 c
  let b2 ← s.getTbl k 8 0 (c + 1)
  let b3 ← s.getTbl k 8 0 (c + 2)
  pure (if a < b1 * n then 0 else if a < b2 * n then 1 else if a < b3 * n then 2 else 3)

/-- The ring whose region holds program word w. -/
def State.progRing (s : State) (k w : Nat) : Except KErr Nat := s.regionOf k 0 8 w

/-- The ring whose region holds local cell a. -/
def State.dataRing (s : State) (k a : Nat) : Except KErr Nat := s.regionOf k 3 16 a

/-! ### Windows (R357) -/

/-- A window, as WINR returns it: low cell and high cell. -/
def State.window (s : State) (k w : Nat) : Except KErr Nat := do
  let lo ← s.getTbl k 9 w 0
  let hi ← s.getTbl k 9 w 1
  pure (lo + hi * 4096)

def winSpace (w : Nat) : Nat := bits w 21 3
def winWe (w : Nat) : Bool := bit w 20
def winOuter (w : Nat) : Nat := bits w 18 2
def winBase (w : Nat) : Nat := bits w 0 14

/-- Cells of a window's space, where the manual bounds them: program memory, local data, boot ROM, secure basin. -/
def spaceEnd (space base : Nat) : Nat :=
  match space with
  | 3 => 0x2AAAA - base * 2 ^ 20
  | 4 => if base < 4 then 65536 else 0
  | 5 => if base < 4 then 65536 else 0
  | 6 => 131072
  | _ => 2 ^ 20

/-- The window lets this ring make this access to cell o; a store into program memory also needs the region of its word
(R357, R359). -/
def State.winCheck (s : State) (ring w o : Nat) (write : Bool) : Except KErr Unit := do
  let sp := winSpace w
  if sp = 0 ∨ sp = 7 ∨ ((sp = 3 ∨ sp = 6) ∧ ring ≠ 0) ∨ winOuter w < ring then .error ⟨4, 1, none, none⟩
  else if write ∧ (winWe w = false ∨ sp = 6) then .error ⟨4, 2, none, none⟩
  else if spaceEnd sp (winBase w) ≤ o then .error ⟨4, 0, none, none⟩
  else if write ∧ sp = 4 then do
    let g ← (s.progRing (winBase w) (o / 2)).mapError fun e => { e with of := some (winBase w) }
    if g < ring then .error ⟨4, 3, none, none⟩ else pure ()
  else pure ()

/-- Keeper k as a requester of BAR0 state, with its ring and RG.tenant (R358). -/
def State.asRequester (s : State) (k : Nat) : Requester :=
  .keeper (Fin.ofNat 4 k) (BitVec.ofNat 2 (s.kpr k).ring) (BitVec.ofNat 4 (s.kpr k).tenant)

/-- BAR0 byte address of cell o through a window of space 1. -/
def barAddr (base o : Nat) : Nat := base * 2 ^ 20 + o / 4 * 4

/-- Read the register that a cell of space 1 belongs to: cell 0 reads it, cells 1 and 2 answer from the latch (R358). -/
def State.barLoad (s : State) (k base o : Nat) : Cell × State :=
  let a := barAddr base o
  match o % 4 with
  | 0 =>
    let t := s.busRead (s.asRequester k) a
    (t.readData.setWidth 12,
      { t.modKpr k fun x => { x with rdLatch := some (a, t.readData) } with readData := s.readData })
  | 3 => (0, s)
  | n =>
    match (s.kpr k).rdLatch with
    | some (b, v) => (if b = a then BitVec.ofNat 12 (if n = 1 then bits v.toNat 12 12 else bits v.toNat 24 8) else 0, s)
    | none => (0, s)

/-- Write a cell of space 1: cells 0 and 1 fill the write latch, cell 2 writes the register whole (R358). -/
def State.barStore (s : State) (k base o : Nat) (c : Cell) : State :=
  let l := (s.kpr k).wrLatch
  match o % 4 with
  | 0 => s.modKpr k fun x => { x with wrLatch := BitVec.ofNat 24 (l.toNat / 4096 * 4096 + c.toNat) }
  | 1 => s.modKpr k fun x => { x with wrLatch := BitVec.ofNat 24 (l.toNat % 4096 + c.toNat * 4096) }
  | 2 => { s.busWrite (s.asRequester k) (barAddr base o) (BitVec.ofNat 32 (l.toNat + c.toNat % 256 * 2 ^ 24)) with
      readData := s.readData }
  | _ => s

/-- HBM byte address of cell o through a window of space 2. -/
def hbmWindow (base o : Nat) : Nat := base * 2 ^ 21 + 2 * o

/-- Cell o of a 14-bit word memory whose word w is v w: the low cell, then bits [13:12]. -/
def wordCell (v o : Nat) : Cell := BitVec.ofNat 12 (if o % 2 = 0 then v % 4096 else v / 4096 % 4)

/-- The secure basin is powered and this requester may access it (R519, R541). -/
def State.basinReady (s : State) (k : Nat) : Bool := s.powered 33 && s.basinOk (s.asRequester k) (512 * 5)

/-- The basin that a window reaches and that keeper k may not: the memories of another keeper, or of its own (R518, R519). -/
def State.winShut (s : State) (k w : Nat) : Option Nat :=
  let b := 512 * 4 + winBase w
  if (winSpace w = 4 ∨ winSpace w = 5) ∧ s.basinOk (s.asRequester k) b = false then some b else none

/-- Load cell o through window w. A basin that the keeper does not own reads zero (R519). -/
def State.winLoad (s : State) (k w o : Nat) : Except KErr (Cell × State) :=
  let base := winBase w
  match s.winShut k w with
  | some b => .ok (0, s.setRg Reg.PWR_BASIN_OWN_refused b 1)
  | none => match winSpace w with
  | 1 => .ok (s.barLoad k base o)
  | 2 => .ok (BitVec.ofNat 12 (s.readbackHalf (hbmWindow base o)), s)
  | 3 =>
    if s.basinReady k then .ok (cellOf (Mem.get s.secure.basin (base * 2 ^ 20 + o)), s)
    else .ok (0, if s.powered 33 then s.setRg Reg.PWR_BASIN_OWN_refused (512 * 5) 1 else s)
  | 4 => .ok (wordCell ((s.kpr base).progWord (o / 2)) o, s)
  | 5 => match s.getData base o with
    | .ok c => .ok (c, s)
    | .error e => .error { e with of := some base }
  | _ => .ok (wordCell (Config.bootRom (o / 2)).toNat o, s)

/-- Store cell o through window w. A basin that the keeper does not own discards it (R519). -/
def State.winStore (s : State) (k w o : Nat) (c : Cell) : State :=
  let base := winBase w
  match s.winShut k w with
  | some b => s.setRg Reg.PWR_BASIN_OWN_refused b 1
  | none => match winSpace w with
  | 1 => s.barStore k base o c
  | 2 => s.hbmPut (hbmWindow base o) (leBytes 2 c.toNat)
  | 3 =>
    if s.basinReady k then { s with secure := { s.secure with basin := Mem.put s.secure.basin (base * 2 ^ 20 + o) (store c) } }
    else if s.powered 33 then s.setRg Reg.PWR_BASIN_OWN_refused (512 * 5) 1 else s
  | 4 =>
    if o % 2 = 0 then s.modKpr k fun x => { x with pmLatch := c }
    else s.putProg base (o / 2) ((s.kpr k).pmLatch.toNat + c.toNat % 4 * 4096)
  | _ => s

/-! ### Loads and stores -/

/-- The window that an address meets, and the cell within it (R355). -/
def winOf (a : Nat) : Nat × Nat := ((a - 0x800000) / 2 ^ 20 % 8, a % 2 ^ 20)

/-- An access to data address a that keeper k may make (R355 to R357). -/
def State.kcheck (s : State) (k a : Nat) (write : Bool) : Except KErr Unit := do
  let a := a % 2 ^ 24
  if a < 0x10000 then do
    let g ← s.dataRing k a
    if g < (s.kpr k).ring then .error ⟨4, 3, none, none⟩ else pure ()
  else if a < 0x800000 then .error ⟨4, 0, none, none⟩
  else do
    let w ← s.window k (winOf a).1
    s.winCheck (s.kpr k).ring w (winOf a).2 write

/-- Load the cell at data address a. -/
def State.kload (s : State) (k a : Nat) : Except KErr (Cell × State) := do
  let a := a % 2 ^ 24
  s.kcheck k a false
  if a < 0x10000 then do
    let c ← s.getData k a
    pure (c, s)
  else do
    let w ← s.window k (winOf a).1
    s.winLoad k w (winOf a).2

/-- Store a cell at data address a. -/
def State.kstore (s : State) (k a : Nat) (c : Cell) : Except KErr State := do
  let a := a % 2 ^ 24
  s.kcheck k a true
  if a < 0x10000 then pure (s.putData k a c)
  else do
    let w ← s.window k (winOf a).1
    pure (s.winStore k w (winOf a).2 c)

/-! ### Running one instruction -/

/-- A lock hook waits for keeper k (R381). -/
def State.hookWaits (s : State) (k : Nat) : Bool := s.on Reg.KPR_HOOK_pending k && !(s.kpr k).hookTaken

/-- Keeper k may take a hook or an interrupt (R373). -/
def Keeper.interruptible (x : Keeper) : Bool := x.ie && decide (x.ring ≠ 0)

/-- The event that keeper k takes at this boundary: 2 takeover, 4 lock hook, 3 interrupt (R372, R373). -/
def State.eventAt (s : State) (k : Nat) : Option Nat :=
  let x := s.kpr k
  if x.takeover && !x.dfl then some 2
  else if x.interruptible && s.hookWaits k then some 4
  else if x.interruptible && s.irqRequest k then some 3
  else none

/-- What ends a WAIT, even with ie = 0 (R362). -/
def State.wakes (s : State) (k : Nat) : Bool := (s.kpr k).takeover || s.hookWaits k || s.irqRequest k

/-- Keeper k runs: released, its domain On. -/
def State.keeperOn (s : State) (k : Nat) : Bool := s.on Reg.KPR_CTRL_run k && s.powered 32

/-- Keeper k issues an instruction now. -/
def State.issues (s : State) (k : Nat) : Bool :=
  s.keeperOn k && (s.eventAt k).isNone && (!(s.kpr k).waiting || s.wakes k)

/-- The next instruction's address. -/
def State.kNext (s : State) (k : Nat) : State := s.modKpr k fun x => { x with pc := (x.pc + 1) % 2 ^ 15 }

/-- Fetch the word at the PC: from the boot ROM, or from program memory with its ring region and its parity, a bad word being
rewritten from the golden copy (R356, R379, R514). Where the fetch fails, the state is that the fault finds. -/
def State.kfetch (s : State) (k : Nat) : State × Option KErr :=
  let x := s.kpr k
  if s.on Reg.KPR_CTRL_rom_fetch k then (s, none)
  else match s.progRing k x.pc with
    | .error e => (s, some e)
    | .ok g =>
      if g ≠ x.ring then (s, some ⟨1, 1, none, none⟩)
      else if x.progBad x.pc = false then (s, none)
      else if s.pgoldOk k x.pc then
        let s := s.putProg k x.pc (s.pgold k x.pc)
        if (s.kpr k).progBad x.pc then (s, some ⟨5, 0, some (unitProg x.pc), none⟩)
        else (s.tally false 0 8 k (unitProg x.pc), none)
      else (s, some ⟨5, 0, some (unitProg x.pc), none⟩)

/-- Keeper k runs the instruction it has fetched; a fault leaves what the instruction found (R368, R375). A block instruction
between elements has not retired. -/
def State.kealaRun (s : State) (k : Nat) (body : State → Except KErr State) : State :=
  if s.issues k then
    let f := s.kfetch k
    let t := match f.2 with
      | some e => f.1.kfault k e
      | none =>
        let s := f.1.modKpr k fun x => { x with entering := false, waiting := false }
        match body s with
        | .ok t => if (t.kpr k).inBlock then t else t.ageMasks k (s.kpr k).maskAge
        | .error e => s.kfault k e
    State.keeperFull s t
  else s

/-- An instruction that goes on to the next one. -/
def State.kealaOp (s : State) (k : Nat) (body : State → Except KErr State) : State :=
  s.kealaRun k fun s => do
    let s ← body s
    pure (s.kNext k)

/-- An op outside its rings (R362). -/
def State.needRing (s : State) (k r : Nat) : Except KErr Unit :=
  if r < (s.kpr k).ring then .error ⟨1, 0, none, none⟩ else pure ()

/-- An operand that an op does not use (R362). -/
def operandBelow (o : BitVec 6) (n : Nat) : Except KErr Unit :=
  if o.toNat < n then pure () else .error ⟨0, 1, none, none⟩

end Sys2Proof.Machine
end

