-- ==== Sys2Proof/Machine/KealaOps.lean ====
section
/-!
DEFINITION. Sys2Proof/Machine/KealaOps.lean: what each Keala operation does to a keeper, its program counter apart (R362 to
R371). Instructions and micro-words share these.
-/
namespace Sys2Proof.Machine

/-! ### Flags (R350, R363) -/

/-- FL from its flags. -/
def flOf (c z n v : Bool) : Cell := BitVec.ofNat 12 (b2n c + b2n z * 2 + b2n n * 4 + b2n v * 8)

def Keeper.c (x : Keeper) : Bool := bit x.fl.toNat 0
def Keeper.z (x : Keeper) : Bool := bit x.fl.toNat 1
def Keeper.n (x : Keeper) : Bool := bit x.fl.toNat 2
def Keeper.ov (x : Keeper) : Bool := bit x.fl.toNat 3

/-- FL of a result: Z and N from it. -/
def flRes (r : Cell) (c v : Bool) : Cell := flOf c (decide (r = 0)) r.msb v

/-- a + b + carry, and its flags. -/
def kadd (a b : Cell) (cin : Nat) : Cell × Cell :=
  let r := BitVec.ofNat 12 (a.toNat + b.toNat + cin)
  (r, flRes r (decide (4096 ≤ a.toNat + b.toNat + cin)) (decide (a.toInt + b.toInt + cin ≠ r.toInt)))

/-- a - b - borrow, and its flags. -/
def ksub (a b : Cell) (bin : Nat) : Cell × Cell :=
  let r := BitVec.ofNat 12 (a.toNat + 8192 - b.toNat - bin)
  (r, flRes r (decide (a.toNat < b.toNat + bin)) (decide (a.toInt - b.toInt - bin ≠ r.toInt)))

/-- A shift left or right, arithmetic or not, with its flags: C is the last bit shifted out. -/
def kshift (left arith : Bool) (a : Cell) (n : Nat) : Cell × Cell :=
  let r := if left then a <<< n else if arith then a.sshiftRight n else a >>> n
  let out := if n = 0 then false
    else if left then decide (n ≤ 12) && a.getLsbD (12 - n)
    else if n ≤ 12 then a.getLsbD (n - 1) else arith && a.msb
  (r, flRes r out false)

/-- Condition c of TESTF. -/
def Keeper.cond (x : Keeper) (c : Nat) : Bool :=
  match c with
  | 0 => x.z
  | 1 => !x.z
  | 2 => x.c
  | 3 => !x.c
  | 4 => x.n
  | 5 => !x.n
  | 6 => x.ov
  | 7 => !x.ov
  | 8 => x.n != x.ov
  | 9 => x.n == x.ov
  | 10 => x.z || (x.n != x.ov)
  | 11 => !(x.z || (x.n != x.ov))
  | 12 => x.c || x.z
  | _ => !(x.c || x.z)

/-- Set FL. -/
def State.setFl (s : State) (k : Nat) (f : Cell) : State := s.modKpr k fun x => { x with fl := f }

/-! ### Stack shapes -/

/-- Pop n cells and push what f makes of them, deepest first; f takes them deepest first. -/
def State.kmap (s : State) (k n : Nat) (f : List Cell → List Cell) : Except KErr State := do
  let p ← s.kpopN k n
  p.2.kpushN k (f p.1.reverse)

/-- ( a b -- r ), with flags. -/
def State.kbin (s : State) (k : Nat) (f : Keeper → Cell → Cell → Cell × Cell) : Except KErr State := do
  let b ← s.kpop k
  let a ← b.2.kpop k
  let r := f (s.kpr k) a.1 b.1
  let s ← a.2.kpush k r.1
  pure (s.setFl k r.2)

/-- ( a -- r ), with flags. -/
def State.kun (s : State) (k : Nat) (f : Cell → Cell × Cell) : Except KErr State := do
  let a ← s.kpop k
  let r := f a.1
  let s ← a.2.kpush k r.1
  pure (s.setFl k r.2)

/-- ( a b -- lo hi ): a 24-bit product; C and V clear. -/
def State.kmul (s : State) (k : Nat) (f : Cell → Cell → Nat) : Except KErr State := do
  let b ← s.kpop k
  let a ← b.2.kpop k
  let p := f a.1 b.1 % 2 ^ 24
  let s ← a.2.kpushN k [BitVec.ofNat 12 p, BitVec.ofNat 12 (p / 4096)]
  pure (s.setFl k (flOf false (decide (p = 0)) (bit p 23) false))

/-- Pop an address pair (lo hi). -/
def State.kpopPair (s : State) (k : Nat) : Except KErr (Nat × State) := do
  let hi ← s.kpop k
  let lo ← hi.2.kpop k
  pure (lo.1.toNat + hi.1.toNat * 4096, lo.2)

/-! ### Operations 0x00 to 0x2A -/

def State.kDup (s : State) (k : Nat) : Except KErr State := do
  let a ← s.kpeek k 0
  s.kpush k a
def State.kDrop (s : State) (k : Nat) : Except KErr State := do
  let a ← s.kpop k
  pure a.2
def State.kSwap (s : State) (k : Nat) : Except KErr State :=
  s.kmap k 2 fun | [a, b] => [b, a] | l => l
def State.kOver (s : State) (k : Nat) : Except KErr State := do
  let a ← s.kpeek k 1
  s.kpush k a
def State.kRot (s : State) (k : Nat) : Except KErr State :=
  s.kmap k 3 fun | [a, b, c] => [b, c, a] | l => l
def State.kNip (s : State) (k : Nat) : Except KErr State :=
  s.kmap k 2 fun | [_, b] => [b] | l => l
def State.kPick (s : State) (k : Nat) (o : BitVec 6) : Except KErr State := do
  operandBelow o 32
  let a ← s.kpeek k o.toNat
  s.kpush k a
def State.kTor (s : State) (k : Nat) : Except KErr State := do
  let a ← s.kpop k
  a.2.rpush k a.1.toNat
def State.kFromr (s : State) (k : Nat) : Except KErr State := do
  let e ← s.rpop k
  e.2.kpush k (BitVec.ofNat 12 e.1)
def State.kRfetch (s : State) (k : Nat) : Except KErr State := do
  let e ← s.rpeek k
  s.kpush k (BitVec.ofNat 12 e)
def State.kTestf (s : State) (k : Nat) (o : BitVec 6) : Except KErr State := do
  operandBelow o 14
  s.kpush k (if (s.kpr k).cond o.toNat then 0xFFF#12 else 0)
def State.kDepth (s : State) (k : Nat) : Except KErr State := s.kpush k (BitVec.ofNat 12 (s.kpr k).sp)

def State.kAdd (s : State) (k : Nat) : Except KErr State := s.kbin k fun _ a b => kadd a b 0
def State.kSub (s : State) (k : Nat) : Except KErr State := s.kbin k fun _ a b => ksub a b 0
def State.kAdc (s : State) (k : Nat) : Except KErr State := s.kbin k fun x a b => kadd a b (b2n x.c)
def State.kSbb (s : State) (k : Nat) : Except KErr State := s.kbin k fun x a b => ksub a b (b2n x.c)
def State.kAnd (s : State) (k : Nat) : Except KErr State := s.kbin k fun _ a b => (a &&& b, flRes (a &&& b) false false)
def State.kOr (s : State) (k : Nat) : Except KErr State := s.kbin k fun _ a b => (a ||| b, flRes (a ||| b) false false)
def State.kXor (s : State) (k : Nat) : Except KErr State := s.kbin k fun _ a b => (a ^^^ b, flRes (a ^^^ b) false false)
def State.kNot (s : State) (k : Nat) : Except KErr State := s.kun k fun a => (~~~a, flRes (~~~a) false false)
def State.kShift (s : State) (k : Nat) (left arith : Bool) (o : BitVec 6) : Except KErr State := do
  operandBelow o 16
  s.kun k fun a => kshift left arith a o.toNat
def State.kMulu (s : State) (k : Nat) : Except KErr State := s.kmul k fun a b => a.toNat * b.toNat
def State.kMuls (s : State) (k : Nat) : Except KErr State := s.kmul k fun a b => wrap 24 (a.toInt * b.toInt)
def State.kCmp (s : State) (k : Nat) : Except KErr State := do
  let b ← s.kpop k
  let a ← b.2.kpop k
  pure (a.2.setFl k (ksub a.1 b.1 0).2)
def State.kAddi (s : State) (k : Nat) (o : BitVec 6) : Except KErr State := s.kun k fun a => kadd a (o.signExtend 12) 0
def State.kCmpi (s : State) (k : Nat) (o : BitVec 6) : Except KErr State := do
  let a ← s.kpeek k 0
  pure (s.setFl k (ksub a (o.setWidth 12) 0).2)

/-- The address pair AH:AL. -/
def Keeper.addr (x : Keeper) : Nat := x.al.toNat + x.ah.toNat * 4096

/-- Set the address pair. -/
def State.setAddr (s : State) (k a : Nat) : State :=
  s.modKpr k fun x => { x with al := BitVec.ofNat 12 a, ah := BitVec.ofNat 12 (a / 4096) }

/-- A push is possible: it is checked before a load acts. -/
def State.kroom (s : State) (k : Nat) : Except KErr Unit := do
  let limit ← s.getTbl k 1 (s.kpr k).set 2
  if limit ≤ (s.kpr k).sp then .error ⟨3, 0, none, none⟩ else pure ()

/-- Load a cell and push it. -/
def State.kloadPush (s : State) (k a : Nat) : Except KErr State := do
  s.kroom k
  let c ← s.kload k a
  c.2.kpush k c.1

/-- Pop a cell and store it. -/
def State.kpopStore (s : State) (k a : Nat) : Except KErr State := do
  let c ← s.kpop k
  c.2.kstore k a c.1

/-- IX rises by 1. -/
def State.stepIx (s : State) (k : Nat) (o : BitVec 6) : State :=
  if o.toNat = 1 then s.modKpr k fun x => { x with ix := x.ix + 1 } else s

def State.kLda (s : State) (k : Nat) (o : BitVec 6) : Except KErr State := s.kloadPush k ((s.kpr k).addr + o.toNat)
def State.kSta (s : State) (k : Nat) (o : BitVec 6) : Except KErr State := s.kpopStore k ((s.kpr k).addr + o.toNat)
def State.kLdx (s : State) (k : Nat) (o : BitVec 6) : Except KErr State := do
  operandBelow o 2
  let s ← s.kloadPush k ((s.kpr k).addr + (s.kpr k).ix.toNat)
  pure (s.stepIx k o)
def State.kStx (s : State) (k : Nat) (o : BitVec 6) : Except KErr State := do
  operandBelow o 2
  let s ← s.kpopStore k ((s.kpr k).addr + (s.kpr k).ix.toNat)
  pure (s.stepIx k o)
def State.kLd (s : State) (k : Nat) : Except KErr State := do
  let a ← s.kpopPair k
  let c ← a.2.kload k a.1
  c.2.kpush k c.1
def State.kSt (s : State) (k : Nat) : Except KErr State := do
  let a ← s.kpopPair k
  a.2.kpopStore k a.1
def State.kSeta (s : State) (k : Nat) : Except KErr State := do
  let a ← s.kpopPair k
  pure (a.2.setAddr k a.1)
def State.kGeta (s : State) (k : Nat) : Except KErr State := s.kpushN k [(s.kpr k).al, (s.kpr k).ah]
def State.kAdda (s : State) (k : Nat) : Except KErr State := do
  let d ← s.kpop k
  pure (d.2.setAddr k ((s.kpr k).addr + (d.1.signExtend 24).toNat))

/-- Register r (R350). -/
def Keeper.reg (x : Keeper) (r : Nat) : Cell :=
  match r with
  | 0 => x.ah
  | 1 => x.al
  | 2 => x.ix
  | 3 => x.jx
  | 4 => x.fl
  | 5 => x.u
  | 6 => x.v
  | 7 => x.rg
  | 8 => BitVec.ofNat 12 x.sp
  | _ => BitVec.ofNat 12 x.rp

def State.kRd (s : State) (k : Nat) (o : BitVec 6) : Except KErr State := do
  operandBelow o 10
  s.kpush k ((s.kpr k).reg o.toNat)

/-- RG under WR: ring 1 sets ie and tenant, ring 0 dfl as well (R351). -/
def Keeper.writeRg (x : Keeper) (c : Cell) : Cell :=
  rgOf x.ring (bit c.toNat 2) (if x.ring = 0 then bit c.toNat 3 else x.dfl) x.set (bits c.toNat 8 4)

/-- Register r under WR. SP and RP change with every on-chip entry spilled, so that a depth finds its entries where R352 places
them (log entry 43). -/
def State.writeKreg (s : State) (k r : Nat) (c : Cell) : Except KErr State :=
  match r with
  | 0 => pure (s.modKpr k fun x => { x with ah := c })
  | 1 => pure (s.modKpr k fun x => { x with al := c })
  | 2 => pure (s.modKpr k fun x => { x with ix := c })
  | 3 => pure (s.modKpr k fun x => { x with jx := c })
  | 4 => pure (s.setFl k (c &&& 0xF#12))
  | 5 => pure (s.modKpr k fun x => { x with u := c })
  | 6 => pure (s.modKpr k fun x => { x with v := c })
  | 7 => if 1 < (s.kpr k).ring then .error ⟨1, 2, none, none⟩ else pure (s.modKpr k fun x => { x with rg := x.writeRg c })
  | 8 => do
    s.needRing k 1
    let s ← s.spillAll k
    pure (s.modKpr k fun x => { x with sp := c.toNat })
  | _ => do
    s.needRing k 1
    let s ← s.spillAll k
    pure (s.modKpr k fun x => { x with rp := c.toNat % 2048 })

def State.kWr (s : State) (k : Nat) (o : BitVec 6) : Except KErr State := do
  operandBelow o 10
  let c ← s.kpop k
  c.2.writeKreg k o.toNat c.1

/-! ### Code transfers and prediction (R361, R387 to R390) -/

/-- Jump. -/
def State.kjump (s : State) (k a : Nat) : State := s.modKpr k fun x => { x with pc := a % 2 ^ 15 }

/-- The target of a relative transfer. -/
def relTarget (pc : Nat) (w : Nat) (off : Nat) : Nat := (pc + 1 + off % 2 ^ w + (2 ^ 15 - (if off.testBit (w - 1) then 2 ^ w else 0))) % 2 ^ 15

/-- A conditional branch, with its hint and outcome. -/
def State.kbranch (s : State) (k : Nat) (hint taken : Bool) (off : BitVec 9) : State :=
  let x := s.kpr k
  let s := if s.on Reg.KPR_CTRL_pred_off k then s
    else
      let s := s.modKpr k fun y => { y with hist := BitVec.ofNat 8 (2 * y.hist.toNat + b2n taken) }
      if hint = taken then s else s.count Reg.KPR_CNT_MISP_misp k 1
  s.kjump k (if taken then relTarget x.pc 9 off.toNat else x.pc + 1)

/-- The indirect-target entry of the instruction at the PC. -/
def Keeper.ittIndex (x : Keeper) : Nat := Nat.xor (Nat.xor x.hist.toNat (x.pc % 256)) (x.pc / 256 % 128)

/-- An entry of the indirect-target table with its parity, under the armed flip. -/
def State.putItt (s : State) (k i target : Nat) : State :=
  let v := target % 2 ^ 15 + 2 ^ 15
  let d := s.flip 8 k (unitItt i) 16 (v + b2n (oddOnes 16 v) * 2 ^ 16)
  d.2.modKpr k fun x => { x with itt := Mem.put x.itt i (BitVec.ofNat 17 d.1) }

/-- An indirect transfer to `a`: predicted from the table, which then takes the actual target. An entry that fails parity is
invalid, and corrected (R379, R387). -/
def State.ktransfer (s : State) (k a : Nat) : State :=
  let x := s.kpr k
  if s.on Reg.KPR_CTRL_pred_off k then s.kjump k a
  else
    let i := x.ittIndex
    let e := (Mem.get x.itt i).toNat
    let bad := oddOnes 17 e
    let s := if bad then s.tally false 0 8 k (unitItt i) else s
    let guess := if bit e 15 && !bad then e % 2 ^ 15 else (x.pc + 1) % 2 ^ 15
    let s := if guess = a % 2 ^ 15 then s else s.count Reg.KPR_CNT_MISP_misp k 1
    (s.putItt k i a).kjump k a

/-- A change of ring through a gate or an event clears the predictor where KPR_CTRL asks for it (R390). -/
def State.ringFlush (s : State) (k old new : Nat) : State :=
  if s.on Reg.KPR_CTRL_pred_flush_on_gate k ∧ old ≠ new then s.modKpr k Keeper.clearPredictor else s

/-- The code address of a popped pair: hi[11:3] is ignored. -/
def codeAddr (pair : Nat) : Nat := pair % 2 ^ 15

/-- The address after the instruction. -/
def Keeper.next (x : Keeper) : Nat := (x.pc + 1) % 2 ^ 15

/-! ### Masked calls and returns (R364, R365) -/

/-- The entry that a register of a mask saves. -/
def Keeper.saved (x : Keeper) (b : Nat) : Nat :=
  match b with
  | 0 => x.addr
  | 1 => x.ix.toNat
  | 2 => x.jx.toNat
  | 3 => x.fl.toNat
  | 4 => x.u.toNat
  | _ => x.v.toNat

/-- Restore a saved register. -/
def State.restoreReg (s : State) (k b e : Nat) : State :=
  let c : Cell := BitVec.ofNat 12 e
  match b with
  | 0 => s.setAddr k e
  | 1 => s.modKpr k fun x => { x with ix := c }
  | 2 => s.modKpr k fun x => { x with jx := c }
  | 3 => s.setFl k (c &&& 0xF#12)
  | 4 => s.modKpr k fun x => { x with u := c }
  | _ => s.modKpr k fun x => { x with v := c }

/-- The bits of a mask, ascending. -/
def maskBits (m : BitVec 6) : List Nat := which 6 m.getLsbD

def State.kMcall (s : State) (k : Nat) (o : BitVec 6) : Except KErr State := do
  let x := s.kpr k
  let a ← s.kpopPair k
  let s ← (maskBits o).foldlM (fun (s : State) b => s.rpush k (x.saved b)) a.2
  let s ← s.rpush k (mkEntry 1 o.toNat x.next)
  pure (s.ktransfer k (codeAddr a.1))

def State.kMret (s : State) (k : Nat) (o : BitVec 6) : Except KErr State := do
  let e ← s.rpop k
  if entryKind e.1 ≠ 1 then .error ⟨3, 4, none, none⟩
  else if entryAux e.1 ≠ o.toNat then .error ⟨3, 5, none, none⟩
  else do
    let s ← (maskBits o).reverse.foldlM (fun (s : State) b => do
      let r ← s.rpop k
      pure (r.2.restoreReg k b r.1)) e.2
    pure (s.kjump k (entryAddr e.1))

/-- RET n through a gate entry (R371). -/
def State.gateReturn (s : State) (k n e : Nat) (popped : State) : Except KErr State := do
  let ring := entryAux e % 4
  let set := entryAux e / 4 % 8
  if (s.kpr k).sp < n then .error ⟨3, 6, none, none⟩
  else if ring < (s.kpr k).ring then .error ⟨3, 4, none, none⟩
  else do
    let r ← popped.kpopN k n
    let t ← r.2.changeSet k set
    let x := t.kpr k
    let t := t.setKpr k { x with rg := rgOf ring x.ie x.dfl set x.tenant }
    let t ← t.kpushN k r.1.reverse
    pure ((t.ringFlush k (s.kpr k).ring ring).kjump k (entryAddr e))

def State.kRet (s : State) (k : Nat) (o : BitVec 6) : Except KErr State := do
  operandBelow o 8
  let e ← s.rpop k
  match entryKind e.1 with
  | 0 => if o.toNat = 0 then pure (e.2.kjump k (entryAddr e.1)) else .error ⟨3, 4, none, none⟩
  | 2 => s.gateReturn k o.toNat e.1 e.2
  | _ => .error ⟨3, 4, none, none⟩

def State.kCalla (s : State) (k : Nat) : Except KErr State := do
  let a ← s.kpopPair k
  let t ← a.2.rpush k (mkEntry 0 0 (s.kpr k).next)
  pure (t.ktransfer k (codeAddr a.1))

def State.kJmpa (s : State) (k : Nat) : Except KErr State := do
  let a ← s.kpopPair k
  pure (a.2.ktransfer k (codeAddr a.1))

/-- RETI: the frame of R374 in reverse; the zero bits of FL and RG stay zero (R350, R351). -/
def State.kReti (s : State) (k : Nat) : Except KErr State := do
  s.needRing k 1
  let old := (s.kpr k).ring
  let e ← s.rpop k
  if entryKind e.1 ≠ 3 then .error ⟨3, 4, none, none⟩
  else do
    let rg ← e.2.rpop k
    let v ← rg.2.rpop k
    let u ← v.2.rpop k
    let fl ← u.2.rpop k
    let jx ← fl.2.rpop k
    let ix ← jx.2.rpop k
    let a ← ix.2.rpop k
    let g : Cell := BitVec.ofNat 12 rg.1 &&& 0xF7F#12
    let t ← a.2.changeSet k (bits g.toNat 4 3)
    let x := t.kpr k
    let t := t.setKpr k { x with
      al := BitVec.ofNat 12 a.1, ah := BitVec.ofNat 12 (a.1 / 4096), ix := BitVec.ofNat 12 ix.1, jx := BitVec.ofNat 12 jx.1,
      fl := BitVec.ofNat 12 fl.1 &&& 0xF#12, u := BitVec.ofNat 12 u.1, v := BitVec.ofNat 12 v.1, rg := g }
    pure ((t.ringFlush k old (g.toNat % 4)).kjump k (entryAddr e.1))

/-! ### Gates (R369, R370) -/

/-- A 24-bit bound of check descriptor d. -/
def State.checkBound (s : State) (k d c : Nat) : Except KErr Nat := do
  let lo ← s.getTbl k 5 d c
  let hi ← s.getTbl k 5 d (c + 1)
  pure (lo + hi * 4096)

/-- Arguments pass check descriptor d at argument i. A kind other than 1 to 3 checks nothing, and a check that needs arguments
beyond the last fails (log entry 44). -/
def State.checkArg (s : State) (k d i : Nat) (args : List Cell) : Except KErr Bool := do
  let kind ← s.getTbl k 5 d 0
  let lo ← s.checkBound k d 1
  let hi ← s.checkBound k d 3
  let arg := fun j => (args[i + j]?.getD 0).toNat
  let inside := fun a => decide (lo ≤ a) && decide (a ≤ hi)
  pure (match kind % 4 with
    | 1 => decide (lo % 4096 ≤ arg 0) && decide (arg 0 ≤ hi % 4096)
    | 2 => decide (i + 1 < args.length) && inside (arg 0 + arg 1 * 4096)
    | 3 =>
      let a := arg 0 + arg 1 * 4096
      decide (i + 2 < args.length) && inside a && (decide (arg 2 = 0) || inside (a + arg 2 - 1))
    | _ => true)

/-- The check field of argument i. -/
def checkField (cells : List Nat) (i : Nat) : Nat :=
  let c := cells[2 + i / 2]?.getD 0
  if i = 6 then cells[5]?.getD 0 % 64 else if i % 2 = 0 then c % 64 else c / 64 % 64

/-- The checks of a gate, in ascending argument order. -/
def State.gateChecks (s : State) (k ring : Nat) (cells : List Nat) (args : List Cell) : Except KErr Unit :=
  (List.range args.length).foldlM (fun _ i => do
    let d := checkField cells i
    if d = 0 then pure ()
    else if ring = 1 ∧ 32 ≤ d then .error ⟨2, 3, none, none⟩
    else do
      let ok ← s.checkArg k d i args
      if ok then pure () else .error ⟨2, 8 + i, none, none⟩) ()

def State.kGate (s : State) (k : Nat) (o : BitVec 6) : Except KErr State := do
  let x := s.kpr k
  let r := x.ring
  if r = 0 then .error ⟨2, 0, none, none⟩
  else do
    let cells ← (List.range 6).mapM fun c => s.getTbl k (1 + r) o.toNat c
    let c0 := cells[0]?.getD 0
    let c1 := cells[1]?.getD 0
    let argc := bits c1 5 3
    let set := bits c1 8 3
    let ring := bits c1 3 2
    if bit c1 11 = false then .error ⟨2, 0, none, none⟩
    else if r ≤ ring then .error ⟨2, 1, none, none⟩
    else if x.sp < argc then .error ⟨2, 2, none, none⟩
    else do
      let p ← s.kpopN k argc
      let args := p.1.reverse
      s.gateChecks k r cells args
      let t ← p.2.changeSet k set
      let t ← t.rpush k (mkEntry 2 (r + x.set * 4) x.next)
      let t ← t.kpushN k args
      let y := t.kpr k
      let t := t.setKpr k { y with rg := rgOf ring y.ie y.dfl set y.tenant }
      pure ((t.ringFlush k r ring).kjump k (c0 + c1 % 8 * 4096))

/-! ### Other operations -/

def State.kPflush (s : State) (k : Nat) : Except KErr State := do
  s.needRing k 1
  pure (s.modKpr k Keeper.clearPredictor)

def State.kWait (s : State) (k : Nat) : Except KErr State := do
  s.needRing k 1
  pure (s.modKpr k fun x => { x with waiting := true })

/-- The semaphore may be used in this ring (R382). -/
def State.semRing (s : State) (k : Nat) (o : BitVec 6) : Except KErr Unit :=
  if o.toNat < 16 ∧ 1 < (s.kpr k).ring then .error ⟨1, 3, none, none⟩ else pure ()

def State.kSemt (s : State) (k : Nat) (o : BitVec 6) : Except KErr State := do
  operandBelow o 32
  s.semRing k o
  let n := o.toNat
  match s.sems.find n with
  | some _ => s.kpush k 0
  | none => do
    let rel := s.rg Reg.KPR_SEM_RST_released
    let s ← s.kpush k (if bit rel n then 0x7FF#12 else 0xFFF#12)
    pure { s.setRg Reg.KPR_SEM_RST_released 0 (if bit rel n then rel - 2 ^ n else rel) with sems := s.sems.put n k }

def State.kSemg (s : State) (k : Nat) (o : BitVec 6) : Except KErr State := do
  operandBelow o 32
  s.semRing k o
  if s.sems.find o.toNat = some k then pure { s with sems := s.sems.del o.toNat } else .error ⟨4, 4, none, none⟩

def State.kWinr (s : State) (k : Nat) (o : BitVec 6) : Except KErr State := do
  operandBelow o 8
  s.needRing k 1
  let w ← s.window k o.toNat
  s.kpushN k [BitVec.ofNat 12 w, BitVec.ofNat 12 (w / 4096)]

def State.kWinw (s : State) (k : Nat) (o : BitVec 6) : Except KErr State := do
  operandBelow o 8
  s.needRing k 1
  let a ← s.kpopPair k
  let t := a.2.putTbl k 9 o.toNat 0 (BitVec.ofNat 12 (a.1 % 4096))
  pure (t.putTbl k 9 o.toNat 1 (BitVec.ofNat 12 (a.1 / 4096 / 64 * 64 + a.1 / 4096 % 4)))

/-! ### Block instructions: one element (R366 to R368) -/

/-- The block ends: its operand cells are popped, and the next instruction follows. -/
def State.blockEnd (s : State) (k n : Nat) : Except KErr State := do
  let p ← s.kpopN k n
  pure ((p.2.modKpr k fun x => { x with inBlock := false }).kNext k)

/-- The n operand cells are on-chip before an element, the deeper ones refilled (R366, R368). -/
def State.refillTo (s : State) (k n : Nat) : Except KErr State :=
  (List.range n).foldlM (fun (s : State) _ => if (s.kpr k).ds.length < n then s.refillD k else pure s) s

/-- An element boundary: every operand cell changes together, where it stands; the list gives them deepest first. -/
def State.blockBoundary (s : State) (k : Nat) (l : List Cell) : State :=
  let n := l.length
  let p := l.zipIdx.foldl (fun (p : List SCell × State) e =>
    let d := p.2.flipCell 8 k (unitDs ((s.kpr k).sp - n + e.2)) e.1
    (d.1 :: p.1, d.2)) ([], s)
  p.2.modKpr k fun x => { x with ds := p.1 ++ x.ds.drop n, inBlock := true }

/-- The last element has made its boundary, and the block ends; where that faults, the element stands (R368). -/
def State.blockLast (s : State) (k n : Nat) : State :=
  match s.blockEnd k n with
  | .ok t => t
  | .error _ => s

/-- Operand cell i below T. -/
def State.operand (s : State) (k i : Nat) : Except KErr Nat := do
  let c ← s.kpeek k i
  pure c.toNat

/-- The two cells of an address one further on. -/
def nextPair (a : Nat) : List Cell := [BitVec.ofNat 12 ((a + 1) % 2 ^ 24), BitVec.ofNat 12 ((a + 1) % 2 ^ 24 / 4096)]

def State.kMoveb (s : State) (k : Nat) : Except KErr State := do
  let s ← s.refillTo k 5
  let n ← s.operand k 0
  let dh ← s.operand k 1
  let dl ← s.operand k 2
  let sh ← s.operand k 3
  let sl ← s.operand k 4
  let src := sl + sh * 4096
  let dst := dl + dh * 4096
  if n = 0 then s.blockEnd k 5
  else do
    s.kcheck k src false
    s.kcheck k dst true
    let c ← s.kload k src
    let s ← c.2.kstore k dst c.1
    let s := s.blockBoundary k (nextPair src ++ nextPair dst ++ [BitVec.ofNat 12 (n - 1)])
    pure (if n = 1 then s.blockLast k 5 else s)

def State.kFillb (s : State) (k : Nat) : Except KErr State := do
  let s ← s.refillTo k 4
  let n ← s.operand k 0
  let v ← s.operand k 1
  let dh ← s.operand k 2
  let dl ← s.operand k 3
  let dst := dl + dh * 4096
  if n = 0 then s.blockEnd k 4
  else do
    let s ← s.kstore k dst (BitVec.ofNat 12 v)
    let s := s.blockBoundary k (nextPair dst ++ [BitVec.ofNat 12 v, BitVec.ofNat 12 (n - 1)])
    pure (if n = 1 then s.blockLast k 4 else s)

/-- The end of SCANB: nothing is popped, and Z says that n is 0. -/
def State.scanEnd (s : State) (k : Nat) (z : Bool) : State :=
  let x := s.kpr k
  ((s.setFl k (flOf x.c z x.n x.ov)).modKpr k fun y => { y with inBlock := false }).kNext k

def State.kScanb (s : State) (k : Nat) (o : BitVec 6) : Except KErr State := do
  operandBelow o 2
  let s ← s.refillTo k 4
  let n ← s.operand k 0
  let v ← s.operand k 1
  let sh ← s.operand k 2
  let sl ← s.operand k 3
  let src := sl + sh * 4096
  if n = 0 then pure (s.scanEnd k true)
  else do
    let c ← s.kload k src
    if (c.1.toNat = v) ↔ (o.toNat = 0) then pure (c.2.scanEnd k false)
    else
      let s := c.2.blockBoundary k (nextPair src ++ [BitVec.ofNat 12 v, BitVec.ofNat 12 (n - 1)])
      pure (if n = 1 then s.scanEnd k true else s)

def State.kChkb (s : State) (k : Nat) (o : BitVec 6) : Except KErr State := do
  operandBelow o 4
  let u := o.toNat
  let s ← s.refillTo k 3
  let n ← s.operand k 0
  let sh ← s.operand k 1
  let sl ← s.operand k 2
  let src := sl + sh * 4096
  if n = 0 then s.blockEnd k 3
  else if s.rg Reg.CHK_ASSIGNu_kind u ≠ 1 ∨ s.rg Reg.CHK_ASSIGNu_id u ≠ k then .error ⟨4, 5, none, none⟩
  else if s.on Reg.CHK_SCANu_CTRL_busy u then pure (s.modKpr k fun x => { x with inBlock := true })
  else do
    let c ← s.kload k src
    let s := c.2.chkFeed u (leBytes 2 c.1.toNat)
    let s := s.blockBoundary k (nextPair src ++ [BitVec.ofNat 12 (n - 1)])
    pure (if n = 1 then s.blockLast k 3 else s)

/-! ### Microcode (R384 to R386) -/

/-- A micro-operation: ops 0x00 to 0x28, RD and WR of registers 0 to 6, and LITM. -/
def State.microOp (s : State) (k op : Nat) (o : BitVec 6) : Except KErr State :=
  let plain := fun (f : Except KErr State) => do
    operandBelow o 1
    f
  match op with
  | 0x00 => plain (pure s)
  | 0x01 => plain (s.kDup k)
  | 0x02 => plain (s.kDrop k)
  | 0x03 => plain (s.kSwap k)
  | 0x04 => plain (s.kOver k)
  | 0x05 => plain (s.kRot k)
  | 0x06 => plain (s.kNip k)
  | 0x07 => s.kPick k o
  | 0x08 => plain (s.kTor k)
  | 0x09 => plain (s.kFromr k)
  | 0x0A => plain (s.kRfetch k)
  | 0x0B => s.kTestf k o
  | 0x0C => plain (s.kDepth k)
  | 0x10 => plain (s.kAdd k)
  | 0x11 => plain (s.kSub k)
  | 0x12 => plain (s.kAdc k)
  | 0x13 => plain (s.kSbb k)
  | 0x14 => plain (s.kAnd k)
  | 0x15 => plain (s.kOr k)
  | 0x16 => plain (s.kXor k)
  | 0x17 => plain (s.kNot k)
  | 0x18 => s.kShift k true false o
  | 0x19 => s.kShift k false false o
  | 0x1A => s.kShift k false true o
  | 0x1B => plain (s.kMulu k)
  | 0x1C => plain (s.kMuls k)
  | 0x1D => plain (s.kCmp k)
  | 0x1E => s.kAddi k o
  | 0x1F => s.kCmpi k o
  | 0x20 => s.kLda k o
  | 0x21 => s.kSta k o
  | 0x22 => s.kLdx k o
  | 0x23 => s.kStx k o
  | 0x24 => plain (s.kLd k)
  | 0x25 => plain (s.kSt k)
  | 0x26 => plain (s.kSeta k)
  | 0x27 => plain (s.kGeta k)
  | 0x28 => plain (s.kAdda k)
  | 0x29 => if 7 ≤ o.toNat then .error ⟨6, 3, none, none⟩ else s.kRd k o
  | 0x2A => if 7 ≤ o.toNat then .error ⟨6, 3, none, none⟩ else s.kWr k o
  | 0x3F => s.kpush k (o.setWidth 12)
  | _ => .error ⟨6, 3, none, none⟩

/-- The micro-word at micro-address u. -/
def State.microWord (s : State) (k u : Nat) : Except KErr Nat := do
  let lo ← s.getTbl k 7 u 0
  let hi ← s.getTbl k 7 u 1
  pure (lo + hi * 4096)

/-- One micro-word: the state after, and the next micro-address if the instruction goes on. -/
def State.microStep (s : State) (k : Nat) (imm : BitVec 6) (u : Nat) : Except KErr (State × Option Nat) := do
  let w ← s.microWord k u
  let s ← s.microOp k (bits w 6 6) (if bit w 12 then imm else BitVec.ofNat 6 w)
  if bit w 13 then pure (s, none)
  else do
    let go ← (match bits w 14 2 with
      | 0 => pure false
      | 1 => pure true
      | q => do
        let t ← s.kpeek k 0
        pure (decide (t = 0) == decide (q = 2)) : Except KErr Bool)
    pure (s, some (if go then bits w 16 8 else u + 1))

/-- The rest of a customer instruction, `fuel` micro-words at most: its effects, and the fault and micro-address that end it. -/
def State.microRun (k : Nat) (imm : BitVec 6) : Nat → Nat → State → State × Option (KErr × Nat)
  | 0, u, s => (s, some (⟨6, 1, none, none⟩, u))
  | fuel + 1, u, s =>
    if 255 < u then (s, some (⟨6, 2, none, none⟩, u))
    else match s.microStep k imm u with
      | .error e => (s, some (e, u))
      | .ok (s, none) => (s, none)
      | .ok (s, some v) => State.microRun k imm fuel v s

/-- The start micro-address of decode-table entry i for the current ring and tenant (R384). -/
def State.microStart (s : State) (k i : Nat) : Except KErr Nat := do
  let c0 ← s.getTbl k 6 i 0
  let c1 ← s.getTbl k 6 i 1
  let x := s.kpr k
  if bit c0 11 = false then .error ⟨0, 2, none, none⟩
  else if bit c1 (4 + x.ring) = false ∨ (bit c1 8 = false ∧ c1 % 16 ≠ x.tenant) then .error ⟨0, 3, none, none⟩
  else pure (c0 % 256)

end Sys2Proof.Machine
end

