-- ==== Sys2Proof/Machine/Keala.lean ====
section
/-!
DEFINITION. Sys2Proof/Machine/Keala.lean: the Keala instructions and the events of a keeper (R347 to R390), one meaning for each
command. The command is the instruction that the keeper has fetched at its program counter (log entry 45).
-/
namespace Sys2Proof.Machine

/-! ### Literals and relative transfers (R360, R361) -/

/-- LITERAL. -/
def execLiteral (k : Fin 4) (cell : Cell) (s : State) : Host.Outcome State Fault Refusal :=
  done s (s.kealaOp k.val fun s => s.kpush k.val cell)

/-- JMP. -/
def execJmp (k : Fin 4) (offset : BitVec 10) (s : State) : Host.Outcome State Fault Refusal :=
  done s (s.kealaRun k.val fun s => pure (s.kjump k.val (relTarget (s.kpr k.val).pc 10 offset.toNat)))

/-- CALL: a plain entry. -/
def execCall (k : Fin 4) (offset : BitVec 10) (s : State) : Host.Outcome State Fault Refusal :=
  done s (s.kealaRun k.val fun s => do
    let x := s.kpr k.val
    let t ← s.rpush k.val (mkEntry 0 0 x.next)
    pure (t.kjump k.val (relTarget x.pc 10 offset.toNat)))

/-- BZ. -/
def execBz (k : Fin 4) (hint : Bool) (offset : BitVec 9) (s : State) : Host.Outcome State Fault Refusal :=
  done s (s.kealaRun k.val fun s => do
    let t ← s.kpop k.val
    pure (t.2.kbranch k.val hint (decide (t.1 = 0)) offset))

/-- BNZ. -/
def execBnz (k : Fin 4) (hint : Bool) (offset : BitVec 9) (s : State) : Host.Outcome State Fault Refusal :=
  done s (s.kealaRun k.val fun s => do
    let t ← s.kpop k.val
    pure (t.2.kbranch k.val hint (decide (t.1 ≠ 0)) offset))

/-! ### Operations (R362) -/

/-- NOP. -/
def execKealaNop (k : Fin 4) (s : State) : Host.Outcome State Fault Refusal := done s (s.kealaOp k.val fun s => pure s)

/-- DUP. -/
def execDup (k : Fin 4) (s : State) : Host.Outcome State Fault Refusal :=
  done s (s.kealaOp k.val fun s => s.kDup k.val)

/-- DROP. -/
def execDrop (k : Fin 4) (s : State) : Host.Outcome State Fault Refusal :=
  done s (s.kealaOp k.val fun s => s.kDrop k.val)

/-- SWAP. -/
def execSwap (k : Fin 4) (s : State) : Host.Outcome State Fault Refusal :=
  done s (s.kealaOp k.val fun s => s.kSwap k.val)

/-- OVER. -/
def execOver (k : Fin 4) (s : State) : Host.Outcome State Fault Refusal :=
  done s (s.kealaOp k.val fun s => s.kOver k.val)

/-- ROT. -/
def execRot (k : Fin 4) (s : State) : Host.Outcome State Fault Refusal :=
  done s (s.kealaOp k.val fun s => s.kRot k.val)

/-- NIP. -/
def execNip (k : Fin 4) (s : State) : Host.Outcome State Fault Refusal :=
  done s (s.kealaOp k.val fun s => s.kNip k.val)

/-- PICK. -/
def execPick (k : Fin 4) (o : BitVec 6) (s : State) : Host.Outcome State Fault Refusal :=
  done s (s.kealaOp k.val fun s => s.kPick k.val o)

/-- TOR. -/
def execTor (k : Fin 4) (s : State) : Host.Outcome State Fault Refusal :=
  done s (s.kealaOp k.val fun s => s.kTor k.val)

/-- FROMR. -/
def execFromr (k : Fin 4) (s : State) : Host.Outcome State Fault Refusal :=
  done s (s.kealaOp k.val fun s => s.kFromr k.val)

/-- RFETCH. -/
def execRfetch (k : Fin 4) (s : State) : Host.Outcome State Fault Refusal :=
  done s (s.kealaOp k.val fun s => s.kRfetch k.val)

/-- TESTF. -/
def execTestf (k : Fin 4) (o : BitVec 6) (s : State) : Host.Outcome State Fault Refusal :=
  done s (s.kealaOp k.val fun s => s.kTestf k.val o)

/-- DEPTH. -/
def execDepth (k : Fin 4) (s : State) : Host.Outcome State Fault Refusal :=
  done s (s.kealaOp k.val fun s => s.kDepth k.val)

/-- ADD. -/
def execKealaAdd (k : Fin 4) (s : State) : Host.Outcome State Fault Refusal :=
  done s (s.kealaOp k.val fun s => s.kAdd k.val)

/-- SUB. -/
def execKealaSub (k : Fin 4) (s : State) : Host.Outcome State Fault Refusal :=
  done s (s.kealaOp k.val fun s => s.kSub k.val)

/-- ADC. -/
def execAdc (k : Fin 4) (s : State) : Host.Outcome State Fault Refusal :=
  done s (s.kealaOp k.val fun s => s.kAdc k.val)

/-- SBB. -/
def execSbb (k : Fin 4) (s : State) : Host.Outcome State Fault Refusal :=
  done s (s.kealaOp k.val fun s => s.kSbb k.val)

/-- AND. -/
def execKealaAnd (k : Fin 4) (s : State) : Host.Outcome State Fault Refusal :=
  done s (s.kealaOp k.val fun s => s.kAnd k.val)

/-- OR. -/
def execKealaOr (k : Fin 4) (s : State) : Host.Outcome State Fault Refusal :=
  done s (s.kealaOp k.val fun s => s.kOr k.val)

/-- XOR. -/
def execKealaXor (k : Fin 4) (s : State) : Host.Outcome State Fault Refusal :=
  done s (s.kealaOp k.val fun s => s.kXor k.val)

/-- NOT. -/
def execNot (k : Fin 4) (s : State) : Host.Outcome State Fault Refusal :=
  done s (s.kealaOp k.val fun s => s.kNot k.val)

/-- SHL. -/
def execKealaShl (k : Fin 4) (o : BitVec 6) (s : State) : Host.Outcome State Fault Refusal :=
  done s (s.kealaOp k.val fun s => s.kShift k.val true false o)

/-- SHR. -/
def execKealaShr (k : Fin 4) (o : BitVec 6) (s : State) : Host.Outcome State Fault Refusal :=
  done s (s.kealaOp k.val fun s => s.kShift k.val false false o)

/-- SAR. -/
def execKealaSar (k : Fin 4) (o : BitVec 6) (s : State) : Host.Outcome State Fault Refusal :=
  done s (s.kealaOp k.val fun s => s.kShift k.val false true o)

/-- MULU. -/
def execKealaMulu (k : Fin 4) (s : State) : Host.Outcome State Fault Refusal :=
  done s (s.kealaOp k.val fun s => s.kMulu k.val)

/-- MULS. -/
def execMuls (k : Fin 4) (s : State) : Host.Outcome State Fault Refusal :=
  done s (s.kealaOp k.val fun s => s.kMuls k.val)

/-- CMP. -/
def execCmp (k : Fin 4) (s : State) : Host.Outcome State Fault Refusal :=
  done s (s.kealaOp k.val fun s => s.kCmp k.val)

/-- ADDI. -/
def execAddi (k : Fin 4) (o : BitVec 6) (s : State) : Host.Outcome State Fault Refusal :=
  done s (s.kealaOp k.val fun s => s.kAddi k.val o)

/-- CMPI. -/
def execCmpi (k : Fin 4) (o : BitVec 6) (s : State) : Host.Outcome State Fault Refusal :=
  done s (s.kealaOp k.val fun s => s.kCmpi k.val o)

/-- LDA. -/
def execLda (k : Fin 4) (o : BitVec 6) (s : State) : Host.Outcome State Fault Refusal :=
  done s (s.kealaOp k.val fun s => s.kLda k.val o)

/-- STA. -/
def execSta (k : Fin 4) (o : BitVec 6) (s : State) : Host.Outcome State Fault Refusal :=
  done s (s.kealaOp k.val fun s => s.kSta k.val o)

/-- LDX. -/
def execLdx (k : Fin 4) (o : BitVec 6) (s : State) : Host.Outcome State Fault Refusal :=
  done s (s.kealaOp k.val fun s => s.kLdx k.val o)

/-- STX. -/
def execStx (k : Fin 4) (o : BitVec 6) (s : State) : Host.Outcome State Fault Refusal :=
  done s (s.kealaOp k.val fun s => s.kStx k.val o)

/-- LD. -/
def execLd (k : Fin 4) (s : State) : Host.Outcome State Fault Refusal :=
  done s (s.kealaOp k.val fun s => s.kLd k.val)

/-- ST. -/
def execSt (k : Fin 4) (s : State) : Host.Outcome State Fault Refusal :=
  done s (s.kealaOp k.val fun s => s.kSt k.val)

/-- SETA. -/
def execSeta (k : Fin 4) (s : State) : Host.Outcome State Fault Refusal :=
  done s (s.kealaOp k.val fun s => s.kSeta k.val)

/-- GETA. -/
def execGeta (k : Fin 4) (s : State) : Host.Outcome State Fault Refusal :=
  done s (s.kealaOp k.val fun s => s.kGeta k.val)

/-- ADDA. -/
def execAdda (k : Fin 4) (s : State) : Host.Outcome State Fault Refusal :=
  done s (s.kealaOp k.val fun s => s.kAdda k.val)

/-- RD. -/
def execRd (k : Fin 4) (o : BitVec 6) (s : State) : Host.Outcome State Fault Refusal :=
  done s (s.kealaOp k.val fun s => s.kRd k.val o)

/-- WR. -/
def execWr (k : Fin 4) (o : BitVec 6) (s : State) : Host.Outcome State Fault Refusal :=
  done s (s.kealaOp k.val fun s => s.kWr k.val o)

/-- PFLUSH. -/
def execPflush (k : Fin 4) (s : State) : Host.Outcome State Fault Refusal :=
  done s (s.kealaOp k.val fun s => s.kPflush k.val)

/-- WAIT: issue stops after it. -/
def execWait (k : Fin 4) (s : State) : Host.Outcome State Fault Refusal :=
  done s (s.kealaOp k.val fun s => s.kWait k.val)

/-- BRK: a break fault, which resumes at the next instruction (R374). -/
def execBrk (k : Fin 4) (s : State) : Host.Outcome State Fault Refusal :=
  done s (s.kealaRun k.val fun _ => .error ⟨7, 0, none, none⟩)

/-! ### Block instructions: each command runs one element (R366 to R368) -/

/-- MOVEB. -/
def execMoveb (k : Fin 4) (s : State) : Host.Outcome State Fault Refusal :=
  done s (s.kealaRun k.val fun s => s.kMoveb k.val)

/-- FILLB. -/
def execFillb (k : Fin 4) (s : State) : Host.Outcome State Fault Refusal :=
  done s (s.kealaRun k.val fun s => s.kFillb k.val)

/-- SCANB. -/
def execScanb (k : Fin 4) (o : BitVec 6) (s : State) : Host.Outcome State Fault Refusal :=
  done s (s.kealaRun k.val fun s => s.kScanb k.val o)

/-- CHKB. -/
def execChkb (k : Fin 4) (o : BitVec 6) (s : State) : Host.Outcome State Fault Refusal :=
  done s (s.kealaRun k.val fun s => s.kChkb k.val o)

/-! ### Semaphores, windows -/

/-- SEMT. -/
def execSemt (k : Fin 4) (o : BitVec 6) (s : State) : Host.Outcome State Fault Refusal :=
  done s (s.kealaOp k.val fun s => s.kSemt k.val o)

/-- SEMG. -/
def execSemg (k : Fin 4) (o : BitVec 6) (s : State) : Host.Outcome State Fault Refusal :=
  done s (s.kealaOp k.val fun s => s.kSemg k.val o)

/-- WINR. -/
def execWinr (k : Fin 4) (o : BitVec 6) (s : State) : Host.Outcome State Fault Refusal :=
  done s (s.kealaOp k.val fun s => s.kWinr k.val o)

/-- WINW. -/
def execWinw (k : Fin 4) (o : BitVec 6) (s : State) : Host.Outcome State Fault Refusal :=
  done s (s.kealaOp k.val fun s => s.kWinw k.val o)

/-! ### Calls, returns, gates (R364, R365, R370, R371, R374) -/

/-- RET. -/
def execRet (k : Fin 4) (o : BitVec 6) (s : State) : Host.Outcome State Fault Refusal :=
  done s (s.kealaRun k.val fun s => s.kRet k.val o)

/-- MCALL. -/
def execMcall (k : Fin 4) (o : BitVec 6) (s : State) : Host.Outcome State Fault Refusal :=
  done s (s.kealaRun k.val fun s => s.kMcall k.val o)

/-- MRET. -/
def execMret (k : Fin 4) (o : BitVec 6) (s : State) : Host.Outcome State Fault Refusal :=
  done s (s.kealaRun k.val fun s => s.kMret k.val o)

/-- CALLA. -/
def execCalla (k : Fin 4) (s : State) : Host.Outcome State Fault Refusal :=
  done s (s.kealaRun k.val fun s => s.kCalla k.val)

/-- JMPA. -/
def execJmpa (k : Fin 4) (s : State) : Host.Outcome State Fault Refusal :=
  done s (s.kealaRun k.val fun s => s.kJmpa k.val)

/-- GATE. -/
def execGate (k : Fin 4) (o : BitVec 6) (s : State) : Host.Outcome State Fault Refusal :=
  done s (s.kealaRun k.val fun s => s.kGate k.val o)

/-- RETI. -/
def execReti (k : Fin 4) (s : State) : Host.Outcome State Fault Refusal :=
  done s (s.kealaRun k.val fun s => s.kReti k.val)

/-! ### Customer instructions (R384 to R386) -/

/-- A customer instruction: what its micro-words did stands, and a fault resumes at the instruction. -/
def State.customer (s : State) (k : Nat) (index imm : BitVec 6) : State :=
  if s.issues k then
    let f := s.kfetch k
    let t := match f.2 with
      | some e => f.1.kfault k e
      | none =>
        let s := f.1.modKpr k fun x => { x with entering := false, waiting := false }
        match s.microStart k index.toNat with
        | .error e => s.kfault k e
        | .ok u =>
          let r := State.microRun k imm 64 u (s.modKpr k fun x => { x with custom := true })
          let t := r.1.modKpr k fun x => { x with custom := false }
          match r.2 with
          | none => (t.kNext k).ageMasks k (s.kpr k).maskAge
          | some e => t.kfault k e.1 (some e.2)
    State.keeperFull s t
  else s

/-- CUSTOMER_INSTRUCTION. -/
def execCustomerInstruction (k : Fin 4) (index imm : BitVec 6) (s : State) : Host.Outcome State Fault Refusal :=
  done s (s.customer k.val index imm)

/-! ### Events (R372 to R376) -/

/-- Entry to an event has failed: a parity error of the vector or of a stack set makes it a double fault, which is recorded whole
(R375, R379; log entry 96), any other error is a fault. -/
def State.entryFault (s : State) (k : Nat) (e : KErr) : State :=
  if e.par.isSome ∧ e.code = 2 ∧ (s.kpr k).dfl = false then
    (((s.countPar k e).edge (privSrc k 3)).recordFault k e none).doubleFault k (s.kpr k).pc e
  else s.kfault k e

/-- Keeper k takes the event of vector v, if that is the one it takes at this boundary. -/
def State.takeEvent (s : State) (k v : Nat) : State :=
  if s.keeperOn k ∧ s.eventAt k = some v then
    let t := match s.enterEvent k v (s.kpr k).pc with
      | .ok t => t.modKpr k fun x =>
          { x with takeover := x.takeover && decide (v ≠ 2), hookTaken := x.hookTaken || decide (v = 4) }
      | .error e => s.entryFault k e
    State.keeperFull s t
  else s

/-- INTERRUPT_ENTRY. -/
def execInterruptEntry (k : Fin 4) (s : State) : Host.Outcome State Fault Refusal := done s (s.takeEvent k.val 3)

/-- LOCK_HOOK. -/
def execLockHook (k : Fin 4) (s : State) : Host.Outcome State Fault Refusal := done s (s.takeEvent k.val 4)

/-- TAKEOVER: the ring-0 code of the new system keeper then repeats action 9 where a restore has come that far (R378). -/
def execTakeover (k : Fin 4) (s : State) : Host.Outcome State Fault Refusal :=
  done s (if s.keeperOn k.val ∧ s.eventAt k.val = some 2 then
      let t := s.takeEvent k.val 2
      if (t.kpr k.val).takeover then t else each (which 16 t.loaded) State.repeatRestore t
    else s)

/-- The illegal-instruction detail of a word, if it is illegal: 0 op not listed, 1 operand bit set. -/
def illegalDetail (w : BitVec 14) : Option Nat :=
  match kealaInstr 0 w with
  | none => some (b2n (kealaOp (bits w.toNat 6 6)).isSome)
  | some _ => none

/-- ILLEGAL_INSTRUCTION: a word that is legal is not this command's. -/
def execIllegalInstruction (k : Fin 4) (word : BitVec 14) (s : State) : Host.Outcome State Fault Refusal :=
  done s (match illegalDetail word with
    | some d => s.kealaRun k.val fun _ => .error ⟨0, d, none, none⟩
    | none => s)

end Sys2Proof.Machine
end

