-- ==== Sys2Proof/Machine/Load.lean ====
section
/-!
DEFINITION. Sys2Proof/Machine/Load.lean: loading: the checks that need the device, admission, writing an image in, and LOAD_EXPORT
(R119, R133, R144 to R147, R159, R181, R273, R274, R431, R433).
-/
namespace Sys2Proof.Machine

/-! ### Binding (check 4) -/

/-- A reach that a load may take: bound to nobody, not retired or marked for it, every position from 0 to 15 played. -/
def State.freeReach (s : State) (r : Nat) : Bool :=
  (s.owner r).isNone && !(s.rch r).retired && !(s.rch r).retireMark && (List.range 16).all fun p => (s.playing r p).isSome

/-- Give each relative reach of a list the lowest free reach left; a margin reach needs a spare. -/
def State.bindEach (s : State) (l : List Byte) : List Nat → List (Nat × Nat) → Option (List (Nat × Nat))
  | [], acc => some acc
  | rel :: rest, acc =>
    match (List.range 24).find? fun r => s.freeReach r && !(acc.any fun a => decide (a.2 = r)) &&
        (!imgMargin l rel || (s.spareFor r).isSome) with
    | some r => s.bindEach l rest ((rel, r) :: acc)
    | none => none

/-- The binding: margin reaches choose first (log entry 48). -/
def State.bindReaches (s : State) (l : List Byte) : Option (List Nat) :=
  let rels := List.range (imgReaches l)
  (s.bindEach l (rels.filter (imgMargin l) ++ rels.filter fun r => !imgMargin l r) []).map fun b =>
    rels.map fun rel => ((b.find? fun e => e.1 = rel).map (·.2)).getD 0

/-! ### Keys (checks 5 and 6) -/

/-- The life cycle accepts the image, and its key slot holds a key of the tenant (R144, R532, R536). -/
def State.keyOk (s : State) (t : Nat) (l : List Byte) : Bool :=
  let lc := s.rg Reg.SEC_LC_state
  let slot := sliceLe l 0x36 2
  let cell := (cellOf (Mem.get s.secure.basin (24 * slot + 22))).toNat
  (decide (lc = 1) || (decide (lc = 2) && imgEncrypted l)) && (!imgEncrypted l || (bit cell 11 && decide (cell % 16 = t)))

/-- The image key of a slot. -/
def State.imageKey (s : State) (slot : Nat) : List Byte :=
  let cell := fun i => (cellOf (Mem.get s.secure.basin (24 * slot + i))).toNat
  leBytes 32 (((List.range 21).map fun i => cell i * 4096 ^ i).sum + cell 21 % 16 * 2 ^ 252)

/-- The plaintext container; none when the tag fails (R143). -/
def State.plaintext (s : State) (l : List Byte) : Option (List Byte) :=
  if imgEncrypted l = false then some l
  else
    let head := l.take (imgTableEnd l)
    let aad := l.take 0x4C ++ List.replicate 16 0 ++ (l.drop 0x5C).take 0xA0 ++ head.drop 256
    (Config.gcmOpen (s.imageKey (sliceLe l 0x36 2)) ((l.drop 0x40).take 12) aad (l.drop (imgTableEnd l))
      ((l.drop 0x4C).take 16)).map (head ++ ·)

/-! ### Admission (check 10) -/

/-- Bandwidth already reserved on a stack, in units of 0.1 GB/s. -/
def State.reservedOn (s : State) (k : Nat) : Nat :=
  ((which 16 s.loaded).map fun t => s.rg (if k = 0 then Reg.DMEM_RESVt_stack0 else Reg.DMEM_RESVt_stack1) t).sum

/-- Insert a region by rising number. -/
def insertRegion (m : MapRec) : List MapRec → List MapRec
  | [] => [m]
  | x :: l => if m.id < x.id then m :: x :: l else x :: insertRegion m l

/-- The stack of each region, and what each stack then holds (R181). -/
def State.placeRegions (s : State) (xs : List Section) : Nat × Nat × List (Nat × Nat) :=
  let add := fun (a : Nat × Nat × List (Nat × Nat)) (m : MapRec) (k : Nat) =>
    (a.1 + (if k = 0 then reserved xs m.id else 0), a.2.1 + (if k = 0 then 0 else reserved xs m.id), (m.id, k) :: a.2.2)
  let fixed := ((mapRecs xs).filter fun m => m.stack ≠ 3).foldl (fun a m => add a m m.stack)
    (s.reservedOn 0, s.reservedOn 1, [])
  (((mapRecs xs).filter fun m => m.stack = 3).foldl (fun l m => insertRegion m l) []).foldl
    (fun a m => add a m (if a.1 ≤ a.2.1 then 0 else 1)) fixed

/-- A page that may be allocated (R575). -/
def State.pageFree (s : State) (k p : Nat) : Bool :=
  let pool := s.rg Reg.LDG_POOLk_base k * 32768
  decide (p < spareBase) && !(decide (pool ≤ p) && decide (p < pool + 32768)) && !s.pagesUsed.contains (k * 2 ^ 22 + p) &&
    !s.pagesRetired.contains (k * 2 ^ 22 + p) && !s.pagesBad.contains (k * 2 ^ 22 + p)

/-- The n lowest free pages of a stack from p on; none when there are too few. -/
def State.freePages (s : State) (k : Nat) : Nat → Nat → Nat → Option (List Nat)
  | _, _, 0 => some []
  | 0, _, _ => none
  | fuel + 1, p, n + 1 =>
    if s.pageFree k p then (s.freePages k fuel (p + 1) n).map (p :: ·) else s.freePages k fuel (p + 1) (n + 1)

/-- Regions with their pages, each taking its share of its stack's list in turn. -/
def takePages (stack : Nat → Nat) : List MapRec → (Nat → List Nat) → List Region × (Nat → List Nat)
  | [], f => ([], f)
  | m :: l, f =>
    let k := stack m.id
    let r := takePages stack l fun j => if j = k then (f k).drop m.pages else f j
    (⟨m.id, m.readOnly, bits m.attr 3 2, if m.single then some m.reach else none, m.size, k, (f k).take m.pages⟩ :: r.1, r.2)

/-- Ledger buffers of a load (R146, R274): data buffers of C, K, U and L of a slot, of the held outputs, and of one golden copy. -/
structure Needs where
  segs : List Nat
  outs : Nat
  gold : Nat
  deriving DecidableEq, Repr

/-- List buffers of each segment: one for every 2,047 data buffers. -/
def Needs.lists (n : Needs) : List Nat := n.segs.map fun k => (k + 2046) / 2047

/-- Buffers in all, with the three descriptors and both golden copies. -/
def Needs.total (n : Needs) : Nat := 3 + 3 * (n.segs.sum + n.lists.sum) + n.outs + 2 * n.gold

def bufferNeeds (l : List Byte) : Needs :=
  let xs := sections l
  let up := fun n d => (n + d - 1) / d
  let marked := fun (x : Section) => (x.body.map fun b => ones (b.setWidth 12)).sum
  let c := up ((xs.filter fun x => x.type = 3).map fun x => (0xC4 + 2 * marked x + 7) / 8 * 8).sum 4096
  let u := up (8 * ((mapRecs xs).map fun m => if m.readOnly then 0 else m.pages).sum) 4096
  let bridges := (((List.range (imgReaches l)).flatMap (berthRecs xs)).filter fun b => b.kind = 2).length
  let r := ((hostPorts xs).filter (·.isInput)).length + bridges
  { segs := [c, 4, u, up (16 * r * 2 ^ imgPound l) 4096],
    outs := up (2 * ((hostPorts xs).filter fun p => !p.isInput).length * 2 ^ imgPound l * 16) 4096,
    gold := up (((xs.filter fun x => x.type = 1 ∨ x.type = 2 ∨ x.type = 0x10 ∨ x.type = 0x11).map fun x => x.body.length).sum) 4096 }

def bufferNeed (l : List Byte) : Nat := (bufferNeeds l).total

/-- Deal buffers out in runs of the given lengths. -/
def dealOut : List Nat → List Nat → List (List Nat) × List Nat
  | [], l => ([], l)
  | n :: ns, l =>
    let r := dealOut ns (l.drop n)
    (l.take n :: r.1, r.2)

/-- The three slots take their buffers in order: descriptor, data, lists (log entry 54). -/
def dealSlots (n : Needs) : Nat → List Nat → List SlotBufs × List Nat
  | 0, l => ([], l)
  | k + 1, l =>
    let d := dealOut n.segs (l.drop 1)
    let m := dealOut n.lists d.2
    let r := dealSlots n k m.2
    ({ desc := l.headD 0xFFFF, data := d.1, lists := m.1 } :: r.1, r.2)

/-- What admission has settled. -/
structure Plan where
  bound : List Nat
  regions : List Region
  undo : List (Nat × Nat)
  need : Nat
  resv0 : Nat
  resv1 : Nat
  deriving DecidableEq, Repr

/-- Reservations, pages and buffers, if the load fits (R181, R273, R274). -/
def State.admission (s : State) (t : Nat) (l : List Byte) (bound : List Nat) : Option Plan :=
  let xs := sections l
  let place := s.placeRegions xs
  let stack := fun id => ((place.2.2.find? fun e => e.1 = id).map (·.2)).getD 0
  let pagesOn := fun k => (((mapRecs xs).filter fun m => stack m.id = k).map fun m => if m.readOnly then m.pages else 5 * m.pages).sum
  let need := bufferNeed l
  if 6550 < place.1 ∨ 6550 < place.2.1 ∨ 13100 < place.1 + place.2.1 ∨ s.ledgerFree < need ∨
      s.rg Reg.LDG_QUOTAt_quota t < s.ledgerUsed t + need then none
  else match s.freePages 0 spareBase 0 (pagesOn 0), s.freePages 1 spareBase 0 (pagesOn 1) with
    | some a, some b =>
      let r := takePages stack (mapRecs xs) fun k => if k = 0 then a else b
      some { bound := bound, regions := r.1, undo := (r.2 0).map (0, ·) ++ (r.2 1).map (1, ·), need := need,
             resv0 := place.1 - s.reservedOn 0, resv1 := place.2.1 - s.reservedOn 1 }
    | _, _ => none

/-! ### Routes (check 13, R256) -/

/-- A destination has a candidate whose link is Active. -/
def State.usableRoute (s : State) (r : RouteRec) : Bool := r.candidates.any s.active

/-- ROUTE against the device: its spn, the routes of loaded partitions, the links and their VC0 space. -/
def State.routesFit (s : State) (xs : List Section) : Bool :=
  let others := which 16 s.loaded
  let theirs := others.flatMap fun u => routeRecs (sections (s.part u).container)
  (others.all fun u => decide (s.spn u ≠ imgSpn xs)) &&
    ((routeRecs xs).all fun r => s.usableRoute r && theirs.all fun o => decide (o.dest ≠ r.dest) || decide (o = r)) &&
    (List.range 16).all fun k => decide (vc0Loads xs k + (others.map fun u => (s.part u).vc0Load.get k 0).sum ≤ 2048)

/-- Parent, children and root have usable routes (R285). -/
def State.treeRouted (s : State) (xs : List Section) : Bool :=
  let need := treeChildren xs ++ (if treeParent xs = 0xFFFF then [] else [treeParent xs, treeRoot xs])
  need.all fun d => (routeRecs xs).any fun r => decide (r.dest = d) && s.usableRoute r

/-- The tenant of a load is the one that the partition has on its root device (R498; log entry 80). -/
def State.rootTenantOk (s : State) (t : Nat) (l : List Byte) (xs : List Section) : Bool :=
  decide (treeSelf xs = []) || decide (treeRoot xs = s.devid) ||
    decide (Config.rootTenant (imgHeader l).partitionId (treeRoot xs) = t)

/-- Check 13. -/
def State.badSections (s : State) (t : Nat) (l : List Byte) : Option Nat :=
  let xs := sections l
  (badBerths l s.devid).or <| (firstBad xs 0x13 fun x => gaugesOk x && (!(x.records 16).any gaugeStops || s.rootTenantOk t l xs)).or <|
    (firstBad xs 0x20 fun x => routeOk xs x && s.routesFit xs).or <|
    (firstBad xs 0x21 fun x => treeOk xs s.devid x && s.treeRouted xs).or <|
    (if (xs.filter fun x => x.type = 1).all (regionsNamed xs) then none else some (sectionIndex (deviceSection xs 0x30))).or <|
    (firstBad xs 0x31 (plainOk xs)).or <| (firstBad xs 2 (plainOk xs)).or (firstBad xs 3 (plainOk xs))

/-! ### The checks in order (R145) -/

/-- What a load has come to: the status and section of the first check that failed, or the plaintext; the plan once admission has
passed. -/
structure Checked where
  status : Nat
  index : Nat := 0
  plain : List Byte := []
  plan : Option Plan := none
  deriving DecidableEq, Repr

/-- Checks 7 to 13 of a plaintext container. -/
def State.checkPlain (s : State) (t : Nat) (l : List Byte) (bound : List Nat) : Checked :=
  if !layoutOk l then { status := 0x08 }
  else match badCrc l with
  | some i => { status := 0x09, index := i }
  | none => match badTypes l with
  | some i => { status := 0x0A, index := i }
  | none => match badReservation l with
  | some i => { status := 0x0D, index := i }
  | none => match s.admission t l bound with
  | none => { status := 0x05 }
  | some plan => match badProgram l with
  | some i => { status := 0x0B, index := i, plan := some plan }
  | none => match badTables l with
  | some i => { status := 0x0C, index := i, plan := some plan }
  | none => match s.badSections t l with
  | some i => { status := 0x0D, index := i, plan := some plan }
  | none => { status := 0, plain := l, plan := some plan }

/-- Checks 1 to 13. -/
def State.check (s : State) (t : Nat) (l : List Byte) : Checked :=
  if !headerCrcOk l then { status := 0x01 }
  else if !headerKnown l then { status := 0x02 }
  else if !headerRanges l then { status := 0x03 }
  else match s.bindReaches l with
    | none => { status := 0x04 }
    | some bound =>
      if !s.keyOk t l then { status := 0x06 }
      else match s.plaintext l with
        | none => { status := 0x07 }
        | some p => s.checkPlain t p bound

/-! ### Writing the image in (check 14, R146, R147) -/

/-- Write cells of a memory of unit `inst`, each given as its place, the address that the error log would name, and its value;
the flag says that every cell reads back as written. -/
def State.writeCells (s : State) (cls inst : Nat) (l : List (Nat × Nat × Cell)) (m : Mem 13) : Mem 13 × Bool × State :=
  l.foldl (fun a e =>
    let d := a.2.2.flipCell cls inst e.2.1 e.2.2
    (Mem.put a.1 e.1 d.1, a.2.1 && decide (d.1 = store e.2.2), d.2)) (m, true, s)

/-- A step of the installation: the state, and whether everything has read back so far. -/
abbrev Installed := State × Bool

/-- PROGRAM or VALUE_INIT of one position. -/
def installCluster (l : List Byte) (plan : Plan) (a : Installed) (x : Section) : Installed :=
  let s := a.1
  match s.playing ((plan.bound[x.rel]?).getD 0) x.pos with
  | none => a
  | some c =>
    if x.type = 1 then
      let w := s.writeCells 0 c ((placed 0 (bodyCells x.body)).map fun e => (e.1, e.1 % 72 * 1024 + e.1 / 72, e.2)) []
      let s := w.2.2.modClu c fun y => { y with pm := w.1 }
      let s := (s.setRg Reg.CLU_PROG_last_word c (x.body.length / 144 - 1)).setRg Reg.CLU_PROG_steps_m1 c (imgSteps l - 1)
      ((s.setRg Reg.CLU_CTRL_dist_mode c (b2n (imgFlag l 0))).setRg Reg.CLU_CTRL_enable c 1, a.2 && w.2.1)
    else
      let cells := ((valueRecs (x.body.length + 1) x.body).getD []).flatMap fun r => placed r.1 r.2
      let w := s.writeCells 1 c (cells.map fun e => (e.1, e.1, e.2)) []
      (w.2.2.modClu c fun y => { y with vm := w.1 }, a.2 && w.2.1)

/-- A net-slot entry as hardware holds it: the reach of a local entry is the physical one (R133). -/
def boundEntry (bound : List Nat) (e : Nat) : Nat :=
  if e / 2 ^ 34 = 1 then e - bits e 16 5 * 2 ^ 16 + (bound[bits e 16 5]?).getD 0 * 2 ^ 16 else e

/-- The three cells of a 36-bit entry. -/
def threeCells (e : Nat) : List Cell := [BitVec.ofNat 12 e, BitVec.ofNat 12 (e / 4096), BitVec.ofNat 12 (e / 4096 ^ 2)]

/-- XBAR, NETSLOT or BERTH_MAP of one reach. -/
def installReach (plan : Plan) (a : Installed) (x : Section) : Installed :=
  let s := a.1
  let r := (plan.bound[x.rel]?).getD 0
  if x.type = 0x10 then
    let w := s.writeCells 3 r ((placed 0 (bodyCells x.body)).map fun e => (e.1, e.1 / 8, e.2)) []
    (w.2.2.modRch r fun y => { y with xbt := w.1 }, a.2 && w.2.1)
  else if x.type = 0x11 then
    let cells := ((x.records 8).filter fun b => netEntry b ≠ 0).flatMap fun b =>
      placed (3 * sliceLe b 0 2) (threeCells (boundEntry plan.bound (netEntry b)))
    let w := s.writeCells 3 r (cells.map fun e => (e.1, 4096 + e.1 / 3, e.2)) []
    (w.2.2.modRch r fun y => { y with nsm := w.1 }, a.2 && w.2.1)
  else
    let entry := fun b k src tag => placed (3 * b) [BitVec.ofNat 12 k, BitVec.ofNat 12 src, BitVec.ofNat 12 tag]
    let cells := (x.records 8).flatMap fun b =>
      let q := berthRec b
      entry q.berth q.kind q.source q.tag ++ (if q.kind = 4 then entry (q.berth + 1) 5 q.source q.tag else [])
    let w := s.writeCells 3 r (cells.map fun e => (e.1, 2 * 4096 + e.1 / 3, e.2)) []
    (w.2.2.modRch r fun y => { y with bmap := w.1, bmapCopy := cells.foldl (fun m e => Mem.put m e.1 e.2) [] }, a.2)

/-- GAUGE of one reach. -/
def State.installGauges (s : State) (r : Nat) (x : Section) : State :=
  (x.records 16).foldl (fun s b =>
    let i := 16 * r + sliceLe b 0 2
    let put := fun (d : RegDef) (v : Nat) (s : State) => (d.fields.filter fun f => f.acc = .rw).foldl
      (fun s f => s.setRg f i (f.of (BitVec.ofNat 32 v))) s
    put Reg.GAU_REF (sliceLe b 8 4) (put Reg.GAU_WATCH (sliceLe b 4 4)
      (put Reg.GAU_CFG (sliceLe b 2 2 + sliceLe b 12 2 * 65536) s))) s

/-- One reach is bound, switched on, and made ready for the image; its clusters' sources go to the keeper that serves the tenant, where
one does (R17, R147, R401). -/
def State.bindReach (s : State) (t : Nat) (l : List Byte) (rel r : Nat) : State :=
  let s := s.setDomain r 1
  let s := ((s.setRg Reg.RCH_OWNER_bound r 1).setRg Reg.RCH_OWNER_tenant r t).setRg Reg.RCH_OWNER_rel_reach r rel
  let s := (s.setRg Reg.RCH_CTRL_steps_m1 r (imgSteps l - 1)).setRg Reg.RCH_CTRL_margin r (b2n (imgMargin l rel))
  let s := s.setRg Reg.RCH_CTRL_enable r 1
  let s := match (List.range 4).find? fun k => s.serves k t with
    | some k => each (List.range 17) (fun i (s : State) => s.modSrc (scanSrc (17 * r + i)) fun x => { x with target := k }) s
    | none => s
  let s := each (List.range 16) (fun i s =>
    (Reg.GAU_CFG.fields ++ Reg.GAU_WATCH.fields ++ Reg.GAU_REF.fields ++ Reg.GAU_CNT.fields).foldl
      (fun s f => s.setRg f (16 * r + i) f.reset) s) s
  match imgMargin l rel, s.spareFor r with
  | true, some c => s.setRg Reg.CLU_ROLE_role c 16
  | _, _ => s

/-- The lock tree of the tenant (R284). -/
def State.installTree (s : State) (t : Nat) (xs : List Section) : State :=
  let s := each (List.range 17) (fun i s => Reg.LCK_TREE_DATA.fields.foldl (fun s f => s.setRg f (17 * t + i) f.reset) s) s
  if treeSelf xs = [] then s
  else
    let p := treeParent xs
    let s := if p = 0xFFFF then s.setRg Reg.LCK_TREE_DATA_root (17 * t) 1
      else (s.setRg Reg.LCK_TREE_DATA_valid (17 * t) 1).setRg Reg.LCK_TREE_DATA_device (17 * t) p
    (treeChildren xs).zipIdx.foldl (fun s e =>
      (s.setRg Reg.LCK_TREE_DATA_valid (17 * t + 1 + e.2) 1).setRg Reg.LCK_TREE_DATA_device (17 * t + 1 + e.2) e.1) s

/-- Route entries and the spn (R256). -/
def State.installRoutes (s : State) (t : Nat) (xs : List Section) : State :=
  let s := (routeRecs xs).foldl (fun s r =>
    let link := fun k => if k = 0xFF then 0 else k
    let c0 : Cell := BitVec.ofNat 12 (link r.by2 * 256 + link r.by1 * 16 + r.primary)
    let c1 : Cell := BitVec.ofNat 12 (r.escape * 256 + b2n (r.by2 ≠ 0xFF) * 4 + b2n (r.by1 ≠ 0xFF) * 2 + 1)
    let d0 := s.flipCell 10 0 r.dest c0
    let d1 := d0.2.flipCell 10 0 r.dest c1
    { d1.2 with routes := Mem.put (Mem.put d1.2.routes (2 * r.dest) d0.1) (2 * r.dest + 1) d1.1,
                routesCopy := Mem.put (Mem.put d1.2.routesCopy (2 * r.dest) c0) (2 * r.dest + 1) c1 }) s
  s.putSpn t (imgSpn xs)

/-- Region pages hold zeros, and then the cells of DMEM_INIT (R154, R158). -/
def State.installRegions (s : State) (plan : Plan) (xs : List Section) : State :=
  let pages := plan.regions.flatMap fun g => g.pages.map (g.stack * 2 ^ 22 + ·)
  let s := { s.zeroPages pages with
                    pagesUsed := s.pagesUsed ++ pages ++ plan.undo.map fun u => u.1 * 2 ^ 22 + u.2 }
  (dmemInit xs).foldl (fun s e => match plan.regions.find? fun g => g.id = e.1 with
    | some g => (placed e.2.1 e.2.2).foldl (fun s c => s.initCell g c) s
    | none => s) s

/-- The golden copies of R146. -/
def goldOf (xs : List Section) (type : Nat) (f : Section → List (Nat × Cell)) : Mem 12 :=
  ((xs.filter fun x => x.type = type).flatMap f).foldl (fun m e => Mem.put m e.1 e.2) []

/-- The partition as a load leaves it. -/
def newPart (l : List Byte) (plan : Plan) (buffers : List Nat) : Part :=
  let xs := sections l
  let unit_ := fun (x : Section) => 17 * x.rel + x.pos
  let need := bufferNeeds l
  let deal := dealSlots need 3 buffers
  { hdr := imgHeader l, bound := plan.bound, container := l,
    marks := (xs.filter fun x => x.type = 3).foldl (fun m x => m.put (unit_ x) (BitVec.ofNat 4096 (ofLe x.body))) [],
    goldPm := goldOf xs 1 fun x => placed (unit_ x * 73728) (bodyCells x.body),
    goldVm := goldOf xs 2 fun x => ((valueRecs (x.body.length + 1) x.body).getD []).flatMap fun r =>
      placed (unit_ x * 4096 + r.1) r.2,
    goldXbt := goldOf xs 0x10 fun x => placed (8192 * x.rel) (bodyCells x.body),
    goldNsm := goldOf xs 0x11 fun x => ((x.records 8).filter fun b => netEntry b ≠ 0).flatMap fun b =>
      placed (12288 * x.rel + 3 * sliceLe b 0 2) (threeCells (netEntry b)),
    regions := plan.regions, ports := hostPorts xs,
    netDir := ((xs.filter fun x => x.type = 0x11).flatMap fun x => ((x.records 8).filter fun b => netEntry b ≠ 0).map fun b =>
      (sliceLe b 0 2, x.rel)).foldl (fun m e => m.put e.1 e.2) [],
    vc0Load := ((List.range 16).filter fun k => vc0Loads xs k ≠ 0).map fun k => (k, vc0Loads xs k),
    buffers := buffers, slots := deal.1, goldBufs := deal.2.drop need.outs, undoFree := plan.undo, rootDev := treeRoot xs }

/-- The load writes everything; the flag says that check 14 passes. -/
def State.install (s : State) (t : Nat) (l : List Byte) (plan : Plan) : Installed :=
  let xs := sections l
  let b := s.takeForLoad t plan.need
  let s := b.2.setPart t (newPart l plan b.1)
  let s := plan.bound.zipIdx.foldl (fun s e => s.bindReach t l e.2 e.1) s
  let s := s.installRegions plan xs
  let a := (xs.filter fun x => x.type = 1 ∨ x.type = 2).foldl (installCluster l plan) (s, true)
  let a := (xs.filter fun x => x.type = 0x10 ∨ x.type = 0x11 ∨ x.type = 0x12).foldl (installReach plan) a
  let s := (xs.filter fun x => x.type = 0x13).foldl (fun s x => s.installGauges ((plan.bound[x.rel]?).getD 0) x) a.1
  let s := if (deviceSection xs 0x20).isSome then s.installRoutes t xs else s
  let s := ((s.tagPorts t).clearLock t).installTree t xs
  let s := (s.setRg Reg.LCK_CTRLt_pound_log2 t (imgPound l)).setRg Reg.LCK_CTRLt_early_release t (b2n (imgFlag l 1))
  ((s.setRg Reg.DMEM_RESVt_stack0 t plan.resv0).setRg Reg.DMEM_RESVt_stack1 t plan.resv1, a.2)

/-- A load ends: its status is kept, and posted (R145, R431). -/
def State.loadEnds (s : State) (t : Nat) (cmd : BitVec 16) (status id index : Nat) : State :=
  (s.setRg Reg.WHF_TSTAT_load_status t status).finish t cmd status id (if 9 ≤ status ∧ status ≤ 13 then index else 0)

/-- A load that fails after admission returns what it took (R145). -/
def State.undoLoad (s : State) (t need : Nat) : State :=
  let b := s.takeForLoad t need
  each b.1 (fun b s => s.giveBack b) b.2

/-- Transfer, check and admission. -/
def State.loadImage (s : State) (t : Nat) (cmd : BitVec 16) (l : List Byte) : State :=
  let id := sliceLe l 0x10 8
  let r := s.check t l
  match r.plan with
  | none => s.loadEnds t cmd r.status id r.index
  | some plan =>
    if r.status ≠ 0 then (s.undoLoad t plan.need).loadEnds t cmd r.status id r.index
    else
      let a := s.install t r.plain plan
      if a.2 then (a.1.setMode t 1).loadEnds t cmd 0 id 0
      else (a.1.removePart t).loadEnds t cmd 0x0E id 0

/-- LOAD (R430, R431, R505, R535). `container` is what the host answered; where a read failed, it is what came before it. The header
is read first. It reads host memory, and so waits while its function is in D3hot (R453). -/
def execLoad (t : Fin 16) (cmd : BitVec 16) (length : Nat) (container : List Byte) (readFails : Bool) (s : State) :
    Host.Outcome State Fault Refusal :=
  done s (if (s.part t.val).openCmds ≠ [] ∨ s.mode = 0 ∨ 3 < s.mode ∨ (s.fn t.val).d3hot ∨
        s.agrees t.val cmd 1 (fun e => decide (e.length = length)) = false then s
    else
      let s := { s with fetched := s.fetched.put t.val [] }
      if s.mode ≠ 1 ∨ s.on Reg.AON_STAT_tamper then s.loadEnds t.val cmd 0x10 0 0
      else if s.loaded t.val then s.loadEnds t.val cmd 0x11 0 0
      else if readFails ∧ container.length < 0x40 then s.loadEnds t.val cmd 0x12 0 0
      else if length ≠ sliceLe container 0x38 8 then s.loadEnds t.val cmd 0x13 0 0
      else if readFails ∨ container.length ≠ length then s.loadEnds t.val cmd 0x12 0 0
      else s.loadImage t.val cmd container)

/-! ### LOAD_EXPORT (R310, R433) -/

/-- Length of a segment of an export stream, from its descriptor. -/
def segLength (l : List Byte) (type : Nat) : Nat := sliceLe l (0x20 + 16 * type + 8) 4

/-- The bytes of segment C, K or D, which follow the descriptor in that order. -/
def segBytes (l : List Byte) (type : Nat) : List Byte :=
  let before := if type = 0 then 0 else if type = 1 then segLength l 0 else segLength l 0 + segLength l 1
  (l.drop (4096 + before)).take (segLength l type)

/-- The stream is an export of this image on this device: its descriptor, its identity, and the CRCs of its segments (R276, R433;
log entry 49). -/
def State.exportMatches (s : State) (t : Nat) (l : List Byte) : Bool :=
  let h := (s.part t).hdr
  decide (sliceLe l 0 4 = 0x4C434B50) && decide (crcOf 0 (l.take 0xFFC) = sliceLe l 0xFFC 4) &&
    decide (sliceLe l 8 8 = h.partitionId) && decide (sliceLe l 0x10 8 = h.imageId) &&
    decide (l.length = 4096 + segLength l 0 + segLength l 1 + segLength l 4) &&
    [0, 1, 4].all fun k => decide (segLength l k = 0) ||
      decide (crcAlive (sliceLe l (0x20 + 16 * k + 4) 2) (segBytes l k) = sliceLe l (0x20 + 16 * k + 12) 4)

/-- Pages of segment D go into the writable regions. -/
def State.restoreD (s : State) (t : Nat) (l : List Byte) : State :=
  (pieces 4104 (l.length / 4104) l).foldl (fun s r => match (s.part t).region (sliceLe r 0 2) with
    | some g => match g.pages[sliceLe r 2 2]? with
      | some p => if g.readOnly then s else s.putPage (g.stack * 2 ^ 22 + p) (r.drop 8)
      | none => s
    | none => s) s

/-- LOAD_EXPORT: it ends once every restore hook is answered. -/
def execLoadExport (t : Fin 16) (cmd : BitVec 16) (stream : List Byte) (s : State) : Host.Outcome State Fault Refusal :=
  done s (if (s.fn t.val).d3hot then s
    else s.command t.val cmd 0xB [1] (uses := fun e => decide (e.length = stream.length)) fun s =>
    if s.exportMatches t.val stream = false then s.finish t.val cmd 0x17
    else
      let lock := sliceLe stream 4 3
      let s := (s.restoreC t.val (segBytes stream 0)).restoreK stream.length (segBytes stream 1)
      let s := (s.restoreD t.val (segBytes stream 4)).setRg Reg.LCK_CKPTt_newest t.val lock
      let s := (s.modPart t.val fun x => { x with startLock := lock }).openCmd t.val cmd 11 lock
      let s := s.openHooks t.val
      if (s.part t.val).hooksOpen = [] then s.closeCmds t.val 11 else s)

end Sys2Proof.Machine
end

