-- ==== Sys2Proof/Machine/Tap.lean ====
section
/-!
DEFINITION. Sys2Proof/Machine/Tap.lean: the boundary-scan port (R569, R570). States and edges are those of IEEE 1149.1, which
the manual names (PRESUMED; log entry 40).
-/
namespace Sys2Proof.Machine

/-- The next controller state on a rising TCK edge. -/
def TapState.next : TapState → Bool → TapState
  | .reset, tms => if tms then .reset else .idle
  | .idle, tms => if tms then .selectDr else .idle
  | .selectDr, tms => if tms then .selectIr else .captureDr
  | .captureDr, tms => if tms then .exit1Dr else .shiftDr
  | .shiftDr, tms => if tms then .exit1Dr else .shiftDr
  | .exit1Dr, tms => if tms then .updateDr else .pauseDr
  | .pauseDr, tms => if tms then .exit2Dr else .pauseDr
  | .exit2Dr, tms => if tms then .updateDr else .shiftDr
  | .updateDr, tms => if tms then .selectDr else .idle
  | .selectIr, tms => if tms then .reset else .captureIr
  | .captureIr, tms => if tms then .exit1Ir else .shiftIr
  | .shiftIr, tms => if tms then .exit1Ir else .shiftIr
  | .exit1Ir, tms => if tms then .updateIr else .pauseIr
  | .pauseIr, tms => if tms then .exit2Ir else .pauseIr
  | .exit2Ir, tms => if tms then .updateIr else .shiftIr
  | .updateIr, tms => if tms then .selectDr else .idle

/-- The data registers. -/
inductive TapReg where
  | bypass | idcode | boundary
  deriving DecidableEq, Repr

/-- The data register an instruction selects; EXTEST is BYPASS unless PERST# is asserted (R569). -/
def tapReg (ir : BitVec 5) (perst : Bool) : TapReg :=
  if ir = 0b00001#5 then .idcode
  else if ir = 0b00010#5 then .boundary
  else if ir = 0b00000#5 ∧ perst then .boundary
  else .bypass

/-- A rising edge: capture or shift in the present state, then the next one. -/
def Tap.rise (x : Tap) (tms tdi perst : Bool) (pins : BitVec 15) : Tap :=
  let r := tapReg x.ir perst
  let inBit : Nat := if tdi then 1 else 0
  let x := match x.st, r with
    | .captureIr, _ => { x with irShift := 0b00001#5 }
    | .shiftIr, _ => { x with irShift := BitVec.ofNat 5 (x.irShift.toNat / 2 + inBit * 16) }
    | .captureDr, .bypass => { x with drShift := 0 }
    | .captureDr, .idcode => { x with drShift := 0xB0007A35#32 }
    | .captureDr, .boundary => { x with boundary := pins }
    | .shiftDr, .bypass => { x with drShift := BitVec.ofNat 32 inBit }
    | .shiftDr, .idcode => { x with drShift := BitVec.ofNat 32 (x.drShift.toNat / 2 + inBit * 2 ^ 31) }
    | .shiftDr, .boundary => { x with boundary := BitVec.ofNat 15 (x.boundary.toNat / 2 + inBit * 2 ^ 14) }
    | _, _ => x
  let st := x.st.next tms
  if st = .reset then { x with st := st, ir := 0b00001#5 } else { x with st := st }

/-- A falling edge: TDO changes, and an update takes effect. -/
def Tap.fall (x : Tap) (perst : Bool) : Tap :=
  match x.st with
  | .shiftIr => { x with tdo := x.irShift.getLsbD 0 }
  | .shiftDr => { x with tdo := match tapReg x.ir perst with
      | .boundary => x.boundary.getLsbD 0
      | _ => x.drShift.getLsbD 0 }
  | .updateIr => { x with ir := x.irShift }
  | .updateDr => if tapReg x.ir perst = .boundary then { x with update := x.boundary } else x
  | _ => x

/-- What the port makes of the pins: nothing, while they serve their functions; else the levels that the boundary cells drive, or
none where they float. EXTEST, CLAMP and HIGHZ take the pins only while PERST# is asserted (R569, R570). -/
def Tap.pins (x : Tap) (perst : Bool) : Option (Option (BitVec 15)) :=
  if perst = false then none
  else if x.ir = 0b00000#5 ∨ x.ir = 0b00011#5 then some (some x.update)
  else if x.ir = 0b00100#5 then some none
  else none

/-- TAP_CLOCK. -/
def execTapClock (rising tms tdi : Bool) (pins : BitVec 15) (s : State) : Host.Outcome State Fault Refusal :=
  done s { s with tap := if rising then s.tap.rise tms tdi s.power.perst pins else s.tap.fall s.power.perst }

/-- TRST_ASSERT. -/
def execTrstAssert (s : State) : Host.Outcome State Fault Refusal :=
  done s { s with tap := { s.tap with st := .reset, ir := 0b00001#5 } }

end Sys2Proof.Machine
end

