-- ==== Sys2Proof/Machine/Dispatch.lean ====
section
/-!
DEFINITION. Sys2Proof/Machine/Dispatch.lean: one arm for each command.
-/
namespace Sys2Proof.Machine

/-- The effect of a command on everything but the queue of waiting commands. -/
def exec (i : Instr) (s : State) : Host.Outcome State Fault Refusal :=
  match i with
  | .issueStep t => Sys2Proof.Machine.execIssueStep t s
  | .refetch cluster => Sys2Proof.Machine.execRefetch cluster s
  | .liveSubstitution cluster => Sys2Proof.Machine.execLiveSubstitution cluster s
  | .dmemReadReturn cluster slot xlateFault => Sys2Proof.Machine.execDmemReadReturn cluster slot xlateFault s
  | .stepDoneMarker t reach step => Sys2Proof.Machine.execStepDoneMarker t reach step s
  | .fenceClose t reach step => Sys2Proof.Machine.execFenceClose t reach step s
  | .gets reach line stamp => Sys2Proof.Machine.execGets reach line stamp s
  | .getm reach line stamp => Sys2Proof.Machine.execGetm reach line stamp s
  | .putm reach line => Sys2Proof.Machine.execPutm reach line s
  | .fwdGetm reach line => Sys2Proof.Machine.execFwdGetm reach line s
  | .retry reach line => Sys2Proof.Machine.execRetry reach line s
  | .wakeMessage reach line => Sys2Proof.Machine.execWakeMessage reach line s
  | .wbAck reach line => Sys2Proof.Machine.execWbAck reach line s
  | .lineData reach line => Sys2Proof.Machine.execLineData reach line s
  | .transactionEnd line => Sys2Proof.Machine.execTransactionEnd line s
  | .pageCopy t region page => Sys2Proof.Machine.execPageCopy t region page s
  | .dmemRetire who value => Sys2Proof.Machine.execDmemRetire who value s
  | .retireDone uncorrectable => Sys2Proof.Machine.execRetireDone uncorrectable s
  | .dmemRFlush who value => Sys2Proof.Machine.execDmemRFlush who value s
  | .hbmTempRead stack temp => Sys2Proof.Machine.execHbmTempRead stack temp s
  | .shortfallWindow t stack short => Sys2Proof.Machine.execShortfallWindow t stack short s
  | .berthArrival reach berth source tag parity epoch value => Sys2Proof.Machine.execBerthArrival reach berth source tag parity epoch value s
  | .berthClear reach tag parity epoch => Sys2Proof.Machine.execBerthClear reach tag parity epoch s
  | .hostBlockingFill t port => Sys2Proof.Machine.execHostBlockingFill t port s
  | .berthWatchdog reach isClear index parity => Sys2Proof.Machine.execBerthWatchdog reach isClear index parity s
  | .codeword link symbols => Sys2Proof.Machine.execCodeword link symbols s
  | .barge link barge => Sys2Proof.Machine.execBarge link barge s
  | .readResponse ch status cells => Sys2Proof.Machine.execReadResponse ch status cells s
  | .writeAck ch status => Sys2Proof.Machine.execWriteAck ch status s
  | .statusBarge link barge => Sys2Proof.Machine.execStatusBarge link barge s
  | .laneSwap link barge => Sys2Proof.Machine.execLaneSwap link barge s
  | .parameterBarge link barge => Sys2Proof.Machine.execParameterBarge link barge s
  | .retireBarge link barge => Sys2Proof.Machine.execRetireBarge link barge s
  | .trainingFrame link lane frame => Sys2Proof.Machine.execTrainingFrame link lane frame s
  | .bargeSlot link => Sys2Proof.Machine.execBargeSlot link s
  | .replayTimeout link => Sys2Proof.Machine.execReplayTimeout link s
  | .escapeWait link => Sys2Proof.Machine.execEscapeWait link s
  | .trainingTimeout link => Sys2Proof.Machine.execTrainingTimeout link s
  | .detectLock link => Sys2Proof.Machine.execDetectLock link s
  | .laneSerWindow link => Sys2Proof.Machine.execLaneSerWindow link s
  | .cdrLoss link lane => Sys2Proof.Machine.execCdrLoss link lane s
  | .plannedRetireDrain link => Sys2Proof.Machine.execPlannedRetireDrain link s
  | .aqEnable who value => Sys2Proof.Machine.execAqEnable who value s
  | .aqRetrain who value => Sys2Proof.Machine.execAqRetrain who value s
  | .aqRetire who value => Sys2Proof.Machine.execAqRetire who value s
  | .aqMargin who value => Sys2Proof.Machine.execAqMargin who value s
  | .marginScanDone link lane errors => Sys2Proof.Machine.execMarginScanDone link lane errors s
  | .aqRouteData who access => Sys2Proof.Machine.execAqRouteData who access s
  | .arrive t child lock captureFail early devices => Sys2Proof.Machine.execArrive t child lock captureFail early devices s
  | .commit t lock export_ rootTime delay elapsed => Sys2Proof.Machine.execCommit t lock export_ rootTime delay elapsed s
  | .req t lock epoch older suspend cause => Sys2Proof.Machine.execReq t lock epoch older suspend cause s
  | .rollback t target epoch replay stop => Sys2Proof.Machine.execRollback t target epoch replay stop s
  | .restoreComplete t => Sys2Proof.Machine.execRestoreComplete t s
  | .restored t child target epoch unusable early olderUnusable devices => Sys2Proof.Machine.execRestored t child target epoch unusable early olderUnusable devices s
  | .resume t target epoch stop => Sys2Proof.Machine.execResume t target epoch stop s
  | .suspend t epoch reason => Sys2Proof.Machine.execSuspend t epoch reason s
  | .rejoin t tag epoch => Sys2Proof.Machine.execRejoin t tag epoch s
  | .lockCapture t fails => Sys2Proof.Machine.execLockCapture t fails s
  | .flightTimeout t => Sys2Proof.Machine.execFlightTimeout t s
  | .rollbackGap t => Sys2Proof.Machine.execRollbackGap t s
  | .exportDone t => Sys2Proof.Machine.execExportDone t s
  | .reqNewest who t => Sys2Proof.Machine.execReqNewest who t s
  | .reqOlder who t => Sys2Proof.Machine.execReqOlder who t s
  | .suspendShare who t => Sys2Proof.Machine.execSuspendShare who t s
  | .replayStart who t => Sys2Proof.Machine.execReplayStart who t s
  | .replayContinue who t => Sys2Proof.Machine.execReplayContinue who t s
  | .replayToReturnPoint who t => Sys2Proof.Machine.execReplayToReturnPoint who t s
  | .lckTreeData who access => Sys2Proof.Machine.execLckTreeData who access s
  | .dredgePass => Sys2Proof.Machine.execDredgePass s
  | .leak => Sys2Proof.Machine.execLeak s
  | .tstFlip who value => Sys2Proof.Machine.execTstFlip who value s
  | .tstElogA who => Sys2Proof.Machine.execTstElogA who s
  | .tstElogStat who => Sys2Proof.Machine.execTstElogStat who s
  | .tstDredgeStat who => Sys2Proof.Machine.execTstDredgeStat who s
  | .literal k cell => Sys2Proof.Machine.execLiteral k cell s
  | .jmp k offset => Sys2Proof.Machine.execJmp k offset s
  | .call k offset => Sys2Proof.Machine.execCall k offset s
  | .bz k hint offset => Sys2Proof.Machine.execBz k hint offset s
  | .bnz k hint offset => Sys2Proof.Machine.execBnz k hint offset s
  | .kealaNop k => Sys2Proof.Machine.execKealaNop k s
  | .dup k => Sys2Proof.Machine.execDup k s
  | .drop k => Sys2Proof.Machine.execDrop k s
  | .swap k => Sys2Proof.Machine.execSwap k s
  | .over k => Sys2Proof.Machine.execOver k s
  | .rot k => Sys2Proof.Machine.execRot k s
  | .nip k => Sys2Proof.Machine.execNip k s
  | .pick k o => Sys2Proof.Machine.execPick k o s
  | .tor k => Sys2Proof.Machine.execTor k s
  | .fromr k => Sys2Proof.Machine.execFromr k s
  | .rfetch k => Sys2Proof.Machine.execRfetch k s
  | .testf k o => Sys2Proof.Machine.execTestf k o s
  | .depth k => Sys2Proof.Machine.execDepth k s
  | .kealaAdd k => Sys2Proof.Machine.execKealaAdd k s
  | .kealaSub k => Sys2Proof.Machine.execKealaSub k s
  | .adc k => Sys2Proof.Machine.execAdc k s
  | .sbb k => Sys2Proof.Machine.execSbb k s
  | .kealaAnd k => Sys2Proof.Machine.execKealaAnd k s
  | .kealaOr k => Sys2Proof.Machine.execKealaOr k s
  | .kealaXor k => Sys2Proof.Machine.execKealaXor k s
  | .not k => Sys2Proof.Machine.execNot k s
  | .kealaShl k o => Sys2Proof.Machine.execKealaShl k o s
  | .kealaShr k o => Sys2Proof.Machine.execKealaShr k o s
  | .kealaSar k o => Sys2Proof.Machine.execKealaSar k o s
  | .kealaMulu k => Sys2Proof.Machine.execKealaMulu k s
  | .muls k => Sys2Proof.Machine.execMuls k s
  | .cmp k => Sys2Proof.Machine.execCmp k s
  | .addi k o => Sys2Proof.Machine.execAddi k o s
  | .cmpi k o => Sys2Proof.Machine.execCmpi k o s
  | .lda k o => Sys2Proof.Machine.execLda k o s
  | .sta k o => Sys2Proof.Machine.execSta k o s
  | .ldx k o => Sys2Proof.Machine.execLdx k o s
  | .stx k o => Sys2Proof.Machine.execStx k o s
  | .ld k => Sys2Proof.Machine.execLd k s
  | .st k => Sys2Proof.Machine.execSt k s
  | .seta k => Sys2Proof.Machine.execSeta k s
  | .geta k => Sys2Proof.Machine.execGeta k s
  | .adda k => Sys2Proof.Machine.execAdda k s
  | .rd k o => Sys2Proof.Machine.execRd k o s
  | .wr k o => Sys2Proof.Machine.execWr k o s
  | .pflush k => Sys2Proof.Machine.execPflush k s
  | .wait k => Sys2Proof.Machine.execWait k s
  | .brk k => Sys2Proof.Machine.execBrk k s
  | .moveb k => Sys2Proof.Machine.execMoveb k s
  | .fillb k => Sys2Proof.Machine.execFillb k s
  | .scanb k o => Sys2Proof.Machine.execScanb k o s
  | .chkb k o => Sys2Proof.Machine.execChkb k o s
  | .semt k o => Sys2Proof.Machine.execSemt k o s
  | .semg k o => Sys2Proof.Machine.execSemg k o s
  | .winr k o => Sys2Proof.Machine.execWinr k o s
  | .winw k o => Sys2Proof.Machine.execWinw k o s
  | .ret k o => Sys2Proof.Machine.execRet k o s
  | .mcall k o => Sys2Proof.Machine.execMcall k o s
  | .mret k o => Sys2Proof.Machine.execMret k o s
  | .calla k => Sys2Proof.Machine.execCalla k s
  | .jmpa k => Sys2Proof.Machine.execJmpa k s
  | .gate k o => Sys2Proof.Machine.execGate k o s
  | .reti k => Sys2Proof.Machine.execReti k s
  | .customerInstruction k index imm => Sys2Proof.Machine.execCustomerInstruction k index imm s
  | .interruptEntry k => Sys2Proof.Machine.execInterruptEntry k s
  | .lockHook k => Sys2Proof.Machine.execLockHook k s
  | .takeover k => Sys2Proof.Machine.execTakeover k s
  | .kprHookDone who value => Sys2Proof.Machine.execKprHookDone who value s
  | .hookTimeout k => Sys2Proof.Machine.execHookTimeout k s
  | .kprCtrlRun who value => Sys2Proof.Machine.execKprCtrlRun who value s
  | .romFetchOff who value => Sys2Proof.Machine.execRomFetchOff who value s
  | .keeperTimer k timer => Sys2Proof.Machine.execKeeperTimer k timer s
  | .kprTblData who access => Sys2Proof.Machine.execKprTblData who access s
  | .kprCntMisp who => Sys2Proof.Machine.execKprCntMisp who s
  | .sourceEdge k scanned source cause => Sys2Proof.Machine.execSourceEdge k scanned source cause s
  | .alertInput input asserted => Sys2Proof.Machine.execAlertInput input asserted s
  | .irqClaim who register => Sys2Proof.Machine.execIrqClaim who register s
  | .irqComplete who register value => Sys2Proof.Machine.execIrqComplete who register value s
  | .irqScause who value => Sys2Proof.Machine.execIrqScause who value s
  | .irqSrcCfg who value => Sys2Proof.Machine.execIrqSrcCfg who value s
  | .irqKdoor who value => Sys2Proof.Machine.execIrqKdoor who value s
  | .irqSwset who value => Sys2Proof.Machine.execIrqSwset who value s
  | .irqPtgt who value => Sys2Proof.Machine.execIrqPtgt who value s
  | .configRequest fn offset access => Sys2Proof.Machine.execConfigRequest fn offset access s
  | .memoryRequest fn bar2 offset access => Sys2Proof.Machine.execMemoryRequest fn bar2 offset access s
  | .whfSqTail fn value => Sys2Proof.Machine.execWhfSqTail fn value s
  | .whfCqHead fn value => Sys2Proof.Machine.execWhfCqHead fn value s
  | .whfFqHead fn value => Sys2Proof.Machine.execWhfFqHead fn value s
  | .whfOqHead fn value => Sys2Proof.Machine.execWhfOqHead fn value s
  | .whfAreaHead fn value => Sys2Proof.Machine.execWhfAreaHead fn value s
  | .whfQcfg fn value => Sys2Proof.Machine.execWhfQcfg fn value s
  | .whfStop fn value => Sys2Proof.Machine.execWhfStop fn value s
  | .preset fn value => Sys2Proof.Machine.execPreset fn value s
  | .flr fn => Sys2Proof.Machine.execFlr fn s
  | .submissionEntry t entry => Sys2Proof.Machine.execSubmissionEntry t entry s
  | .load t cmd length container readFails => Sys2Proof.Machine.execLoad t cmd length container readFails s
  | .start t cmd => Sys2Proof.Machine.execStart t cmd s
  | .hold t cmd => Sys2Proof.Machine.execHold t cmd s
  | .run t cmd => Sys2Proof.Machine.execRun t cmd s
  | .step t cmd op0 => Sys2Proof.Machine.execStep t cmd op0 s
  | .unload t cmd => Sys2Proof.Machine.execUnload t cmd s
  | .input t cmd op0 length values => Sys2Proof.Machine.execInput t cmd op0 length values s
  | .setArea t cmd op0 => Sys2Proof.Machine.execSetArea t cmd op0 s
  | .rollbackCommand t cmd op0 => Sys2Proof.Machine.execRollbackCommand t cmd op0 s
  | .replayCommand t cmd op0 op1 op2 => Sys2Proof.Machine.execReplayCommand t cmd op0 op1 op2 s
  | .loadExport t cmd stream => Sys2Proof.Machine.execLoadExport t cmd stream s
  | .stop t sender id boundary => Sys2Proof.Machine.execStop t sender id boundary s
  | .go t sender id => Sys2Proof.Machine.execGo t sender id s
  | .stopReached t => Sys2Proof.Machine.execStopReached t s
  | .psbUpdate t => Sys2Proof.Machine.execPsbUpdate t s
  | .msixCoalesce fn vector => Sys2Proof.Machine.execMsixCoalesce fn vector s
  | .queueEntryWrite fn kind => Sys2Proof.Machine.execQueueEntryWrite fn kind s
  | .aspmL1Entry l12 => Sys2Proof.Machine.execAspmL1Entry l12 s
  | .powerStateWrite fn d3hot => Sys2Proof.Machine.execPowerStateWrite fn d3hot s
  | .slcStart who value => Sys2Proof.Machine.execSlcStart who value s
  | .slcStop who value => Sys2Proof.Machine.execSlcStop who value s
  | .channelBegin engine => Sys2Proof.Machine.execChannelBegin engine s
  | .descriptor ch bytes uncorrectable => Sys2Proof.Machine.execDescriptor ch bytes uncorrectable s
  | .element ch source index uncorrectable => Sys2Proof.Machine.execElement ch source index uncorrectable s
  | .intFull ch => Sys2Proof.Machine.execIntFull ch s
  | .busErrorRetry ch succeeds => Sys2Proof.Machine.execBusErrorRetry ch succeeds s
  | .slcCntRetry who => Sys2Proof.Machine.execSlcCntRetry who s
  | .ldgAlloc who => Sys2Proof.Machine.execLdgAlloc who s
  | .ldgFree who value => Sys2Proof.Machine.execLdgFree who value s
  | .ldgGive who value => Sys2Proof.Machine.execLdgGive who value s
  | .ldgGntA who value => Sys2Proof.Machine.execLdgGntA who value s
  | .ldgLogA who => Sys2Proof.Machine.execLdgLogA who s
  | .chkInit who unit value => Sys2Proof.Machine.execChkInit who unit value s
  | .chkScan who unit value => Sys2Proof.Machine.execChkScan who unit value s
  | .scanDone unit failsAt => Sys2Proof.Machine.execScanDone unit failsAt s
  | .weirSw who value => Sys2Proof.Machine.execWeirSw who value s
  | .alarmAccept owner => Sys2Proof.Machine.execAlarmAccept owner s
  | .alarm t source body => Sys2Proof.Machine.execAlarm t source body s
  | .alarmForward => Sys2Proof.Machine.execAlarmForward s
  | .tokenRefill owner => Sys2Proof.Machine.execTokenRefill owner s
  | .ringReadPoll => Sys2Proof.Machine.execRingReadPoll s
  | .weirSnap who value => Sys2Proof.Machine.execWeirSnap who value s
  | .snapDone => Sys2Proof.Machine.execSnapDone s
  | .weirTrcStat who => Sys2Proof.Machine.execWeirTrcStat who s
  | .weirDrop who block => Sys2Proof.Machine.execWeirDrop who block s
  | .gauMatch who => Sys2Proof.Machine.execGauMatch who s
  | .capstanLine => Sys2Proof.Machine.execCapstanLine s
  | .capstanBreak => Sys2Proof.Machine.execCapstanBreak s
  | .capstanVer => Sys2Proof.Machine.execCapstanVer s
  | .capstanSt => Sys2Proof.Machine.execCapstanSt s
  | .capstanTm => Sys2Proof.Machine.execCapstanTm s
  | .capstanAl n => Sys2Proof.Machine.execCapstanAl n s
  | .capstanLg n => Sys2Proof.Machine.execCapstanLg n s
  | .capstanDr => Sys2Proof.Machine.execCapstanDr s
  | .capstanLk link => Sys2Proof.Machine.execCapstanLk link s
  | .capstanRd addr => Sys2Proof.Machine.execCapstanRd addr s
  | .capstanWr addr value => Sys2Proof.Machine.execCapstanWr addr value s
  | .capstanBd rate => Sys2Proof.Machine.execCapstanBd rate s
  | .baudRevert => Sys2Proof.Machine.execBaudRevert s
  | .powerOnReset => Sys2Proof.Machine.execPowerOnReset s
  | .perst => Sys2Proof.Machine.execPerst s
  | .hotReset => Sys2Proof.Machine.execHotReset s
  | .devReset who value => Sys2Proof.Machine.execDevReset who value s
  | .bringUpStep step failure => Sys2Proof.Machine.execBringUpStep step failure s
  | .bringUpTimeout => Sys2Proof.Machine.execBringUpTimeout s
  | .linkTestRequest who value => Sys2Proof.Machine.execLinkTestRequest who value s
  | .readyRequest who value => Sys2Proof.Machine.execReadyRequest who value s
  | .sanitize who value => Sys2Proof.Machine.execSanitize who value s
  | .wipeComplete => Sys2Proof.Machine.execWipeComplete s
  | .standbyEntry => Sys2Proof.Machine.execStandbyEntry s
  | .l2Entry => Sys2Proof.Machine.execL2Entry s
  | .wake cause => Sys2Proof.Machine.execWake cause s
  | .domainSwitch => Sys2Proof.Machine.execDomainSwitch s
  | .vcoreAdjust => Sys2Proof.Machine.execVcoreAdjust s
  | .avsbusPoll ok power => Sys2Proof.Machine.execAvsbusPoll ok power s
  | .avsbusRetry ok power => Sys2Proof.Machine.execAvsbusRetry ok power s
  | .thermalWarning temp => Sys2Proof.Machine.execThermalWarning temp s
  | .thermalTrip temp => Sys2Proof.Machine.execThermalTrip temp s
  | .supplyWindow mv => Sys2Proof.Machine.execSupplyWindow mv s
  | .supplyAbsolute => Sys2Proof.Machine.execSupplyAbsolute s
  | .wakeTime => Sys2Proof.Machine.execWakeTime s
  | .tamper => Sys2Proof.Machine.execTamper s
  | .secLcReq who value => Sys2Proof.Machine.execSecLcReq who value s
  | .keyInstall who value => Sys2Proof.Machine.execKeyInstall who value s
  | .keyErase who value => Sys2Proof.Machine.execKeyErase who value s
  | .stagingReset who value => Sys2Proof.Machine.execStagingReset who value s
  | .secKeyData who value => Sys2Proof.Machine.execSecKeyData who value s
  | .aonTimeHi who value => Sys2Proof.Machine.execAonTimeHi who value s
  | .aonWakeTimeHi who value => Sys2Proof.Machine.execAonWakeTimeHi who value s
  | .aonWake who => Sys2Proof.Machine.execAonWake who s
  | .pwrBasinOwn who value => Sys2Proof.Machine.execPwrBasinOwn who value s
  | .pwrPlank who value => Sys2Proof.Machine.execPwrPlank who value s
  | .pwrLimit who value => Sys2Proof.Machine.execPwrLimit who value s
  | .smbStatus => Sys2Proof.Machine.execSmbStatus s
  | .smbTemp => Sys2Proof.Machine.execSmbTemp s
  | .smbPower => Sys2Proof.Machine.execSmbPower s
  | .smbPlimit access pecOk => Sys2Proof.Machine.execSmbPlimit access pecOk s
  | .smbWake data pecOk => Sys2Proof.Machine.execSmbWake data pecOk s
  | .smbWakeCause => Sys2Proof.Machine.execSmbWakeCause s
  | .cluResume who value => Sys2Proof.Machine.execCluResume who value s
  | .cluCtrlEnable who value => Sys2Proof.Machine.execCluCtrlEnable who value s
  | .cluRole who value => Sys2Proof.Machine.execCluRole who value s
  | .cluVmDataWrite who value => Sys2Proof.Machine.execCluVmDataWrite who value s
  | .cluVmDataRead who => Sys2Proof.Machine.execCluVmDataRead who s
  | .cluPmDataWrite who value => Sys2Proof.Machine.execCluPmDataWrite who value s
  | .cluPmDataRead who => Sys2Proof.Machine.execCluPmDataRead who s
  | .cluCntBank who => Sys2Proof.Machine.execCluCntBank who s
  | .cluCntWait who => Sys2Proof.Machine.execCluCntWait who s
  | .cluCntRefetch who => Sys2Proof.Machine.execCluCntRefetch who s
  | .cluBankPeak who => Sys2Proof.Machine.execCluBankPeak who s
  | .rchCtrlEnable who value => Sys2Proof.Machine.execRchCtrlEnable who value s
  | .rchXbtData who access => Sys2Proof.Machine.execRchXbtData who access s
  | .rchNsmData who access => Sys2Proof.Machine.execRchNsmData who access s
  | .rchBmapData who access => Sys2Proof.Machine.execRchBmapData who access s
  | .rchCntSend who => Sys2Proof.Machine.execRchCntSend who s
  | .rchCntClrwait who => Sys2Proof.Machine.execRchCntClrwait who s
  | .dmemRMiss who => Sys2Proof.Machine.execDmemRMiss who s
  | .dmemRRetry who => Sys2Proof.Machine.execDmemRRetry who s
  | .dmemShort who t => Sys2Proof.Machine.execDmemShort who t s
  | .aqCntFec who => Sys2Proof.Machine.execAqCntFec who s
  | .aqCntReplay who => Sys2Proof.Machine.execAqCntReplay who s
  | .aqLaneSym who => Sys2Proof.Machine.execAqLaneSym who s
  | .aqPrbsErr who => Sys2Proof.Machine.execAqPrbsErr who s
  | .lckCntRollback who t => Sys2Proof.Machine.execLckCntRollback who t s
  | .whfTstat fn => Sys2Proof.Machine.execWhfTstat fn s
  | .registerWrite who addr value enables => Sys2Proof.Machine.execRegisterWrite who addr value enables s
  | .hbmErrorReport stack page uncorrectable => Sys2Proof.Machine.execHbmErrorReport stack page uncorrectable s
  | .hbmStackUnresponsive stack => Sys2Proof.Machine.execHbmStackUnresponsive stack s
  | .illegalInstruction k word => Sys2Proof.Machine.execIllegalInstruction k word s
  | .msixUnmask fn vector => Sys2Proof.Machine.execMsixUnmask fn vector s
  | .l1Exit => Sys2Proof.Machine.execL1Exit s
  | .pcieDlDown => Sys2Proof.Machine.execPcieDlDown s
  | .completionTimeout ch => Sys2Proof.Machine.execCompletionTimeout ch s
  | .capstanByte byte => Sys2Proof.Machine.execCapstanByte byte s
  | .perstDeassert => Sys2Proof.Machine.execPerstDeassert s
  | .tapClock rising tms tdi pins => Sys2Proof.Machine.execTapClock rising tms tdi pins s
  | .trstAssert => Sys2Proof.Machine.execTrstAssert s
  | .prbsCheckerLock link lane => Sys2Proof.Machine.execPrbsCheckerLock link lane s

end Sys2Proof.Machine
end

