-- ==== Sys2Proof/Machine/Supervisor.lean ====
section
/-!
DEFINITION. Sys2Proof/Machine/Supervisor.lean: what the keeper supervisor does of its own about latched faults (R70, R216, R319 to
R324, R333 to R340, R380), and what the block does while no command waits (log entry 71).
-/
namespace Sys2Proof.Machine

/-! ### Errors and their records (R321, R577) -/

/-- An uncorrectable error: its record, and the cluster that it names. A page's error is repaired by the rollback itself (R332). -/
structure Trouble where
  record : Nat
  cluster : Option Nat
  page : Bool
  deriving DecidableEq, Repr

/-- The record of an error of partition t that stands now. -/
def State.recordNow (s : State) (t unit reg num : Nat) : Nat := faultRecord (s.part t).step (s.dcycle t) unit reg num

/-- The set bits of a number among the low eight, in a mask. -/
def causesIn (v mask : Nat) : List Nat := which 8 fun k => bit v k && bit mask k

/-- Errors that a cluster has latched. -/
def State.cluTroubles (s : State) (t c : Nat) : List Trouble :=
  (causesIn (s.cluCause c) 0x7C).map fun k => ⟨s.recordNow t (s.unitOf c) 0 k, some c, false⟩

/-- Errors that a reach has latched. -/
def State.rchTroubles (s : State) (t r : Nat) : List Trouble :=
  let of := fun (reg v mask : Nat) => (causesIn v mask).map fun k => (⟨s.recordNow t (s.rel r) reg k, none, false⟩ : Trouble)
  of 1 (s.causeBits Reg.RCH_CAUSE.fields r) 0xFF ++ of 2 (s.causeBits Reg.RCH_BCAUSE.fields r) 0x2E ++
    of 3 (s.causeBits Reg.DMEM_R_CAUSE.fields r) 0xFF

/-- The errors of R321 that are latched for a partition. -/
def State.troubles (s : State) (t : Nat) : List Trouble :=
  (s.clustersOf t).flatMap (s.cluTroubles t) ++ (s.part t).bound.flatMap (s.rchTroubles t) ++
    ((s.ucPages t).map fun p => ⟨s.recordNow t p 4 0, none, true⟩) ++
    (if s.on Reg.LCK_CAUSEt_capture_fail t then [⟨s.recordNow t 0 5 0, none, false⟩] else [])

/-! ### Rewrites and causes (R319, R321) -/

/-- An unmarked value cell that fails parity comes back from the golden VALUE_INIT copy, or as 0x000 (R321). -/
def State.mendVm (s : State) (c : Nat) : State :=
  match s.plays c with
  | some u => (badCells (s.clu c).vm).foldl (fun s n =>
      if ((s.part u.1).marks.get (17 * u.2.1 + u.2.2) 0).getLsbD n then s
      else s.putVm c n (Mem.get (s.part u.1).goldVm ((17 * u.2.1 + u.2.2) * 4096 + n))) s
  | none => s

/-- The table entries and the clear-table bits of a reach that fail parity are rewritten (R319, R320). -/
def State.mendReach (s : State) (t r : Nat) : State :=
  let s := (badEntries (s.rch r).xbt 8).foldl (fun s e => s.rewriteGold t r e false) s
  let s := (badEntries (s.rch r).nsm 3).foldl (fun s e => s.rewriteGold t r e true) s
  let s := (badEntries (s.rch r).bmap 3).foldl (fun s b => s.rewriteBmap r b) s
  s.modRch r fun x => { x with clrBad := [] }

/-- Clear the listed cause bits of an instance. -/
def State.clearBits (s : State) (i : Nat) (l : List Field) : State := l.foldl (fun s f => s.setRg f i 0) s

/-- The errors of R321 in CLU_CAUSE, and in RCH_BCAUSE. -/
def cluErrors : List Field :=
  [Reg.CLU_CAUSE_illegal, Reg.CLU_CAUSE_sequence, Reg.CLU_CAUSE_repeat, Reg.CLU_CAUSE_reg_parity, Reg.CLU_CAUSE_vm_parity]
def berthErrors : List Field :=
  [Reg.RCH_BCAUSE_berth_parity, Reg.RCH_BCAUSE_overrun, Reg.RCH_BCAUSE_tag_mismatch, Reg.RCH_BCAUSE_unmapped_arrival]

/-- The sources of a partition's clusters and reaches, and what is left of one once keeper 0 has answered it (R393, R413). -/
def State.sourcesOf (s : State) (t : Nat) : List Nat := (s.clustersOf t).map scanSrc ++ (s.part t).bound.map (32 + ·)
def State.srcDone (s : State) (n : Nat) : State :=
  if (s.src n).pending then s.modSrc n fun x => { x with pending := false, count := 0, latch := 0 } else s

/-- When the first error of a partition that still pends was latched, and partitions in the order of those (R339). -/
def State.turnOf (s : State) (t : Nat) : Nat :=
  ((s.sourcesOf t).filter fun n => (s.src n).pending).foldl (fun m n => min m (s.src n).turn) s.nextTurn
def State.inTurn (s : State) (l : List Nat) : List Nat :=
  l.foldl (fun a t => let first := fun u => decide (s.turnOf u ≤ s.turnOf t)
    a.takeWhile first ++ t :: a.dropWhile first) []

/-- Keeper 0 makes the rewrites and clears the causes of a partition's errors, and their sources (R321). -/
def State.settleCauses (s : State) (t : Nat) : State :=
  let s := each (s.clustersOf t) (fun c s =>
    (if s.on Reg.CLU_CAUSE_vm_parity c then s.mendVm c else s).clearBits c cluErrors) s
  let s := each (s.part t).bound (fun r s =>
    (((if s.reachCaused r then s.mendReach t r else s).clearBits r (Reg.RCH_CAUSE.fields ++ berthErrors ++
      Reg.DMEM_R_CAUSE.fields)).setRg Reg.RCH_FAULT_INFO_valid r 0)) s
  (s.sourcesOf t).foldl State.srcDone (s.setRg Reg.LCK_CAUSEt_capture_fail t 0)

/-! ### Recurrence (R323, R334) -/

/-- No way is left: keeper 0 suspends the share and posts the repeated fault. -/
def State.giveUp (s : State) (t record : Nat) : State := (s.suspendShare t).postFault t 4 record 0

/-- An error is compared with those since the last commit: the first of a record is kept; one that recurs leads to a substitution, or
to suspension. With a standby spare that does not qualify, the substitution is deferred, and a later recurrence suspends. -/
def State.recur (s : State) (t : Nat) (e : Trouble) : State :=
  if (s.part t).errSeen.contains e.record = false then s.modPart t fun x => { x with errSeen := x.errSeen ++ [e.record] }
  else if e.page then s
  else match e.cluster with
    | none => s.giveUp t e.record
    | some c =>
      if (s.spareFor (c / 17)).isSome then s.planRelief t c false e.record
      else if s.hasStandby (c / 17) ∧ (s.part t).deferred.contains c = false then s.deferSpare t c e.record
      else s.giveUp t e.record

/-- Keeper 0 answers the errors of a partition (R321, R323). A capture failure whose ARRIVE has already led to a rollback asks for no
second one (log entry 71). -/
def State.answerErrors (s : State) (t : Nat) (es : List Trouble) : State :=
  if es = [] then s
  else
    let failed := s.on Reg.LCK_CAUSEt_capture_fail t && decide (es.length = 1)
    let s := es.foldl (fun s e => s.recur t e) (s.settleCauses t)
    if s.suspended t ∨ (failed = true ∧ (s.phase t = 4 ∨ s.phase t = 5)) then s
    else s.sendReq t false false (if failed then 3 else 0)

/-- The errors of the listed partitions are answered; hbm_uc is cleared once all that hold a page of it have been seen. -/
def State.answerAll (s : State) (live : List Nat) : State :=
  let ts := live.map fun t => (t, s.troubles t)
  let s := { s.clearBits 0 [Reg.DMEM_CAUSE_hbm_uc0, Reg.DMEM_CAUSE_hbm_uc1] with pagesUc := [] }
  ts.foldl (fun s e => s.answerErrors e.1 e.2) s

/-! ### Fetch traps (R70, R322) -/

/-- Keeper 0 answers a fetch trap: a clean word from a golden copy that can be read, the second one where the first cannot, the cause
cleared, and CLU_RESUME (R70). With neither, the copies are rebuilt first (R322). -/
def State.freeTrap (t c : Nat) (s : State) : State :=
  if s.on Reg.CLU_CAUSE_fetch_trap c = false ∨ s.suspended t then s
  else
    let r := if s.goldGone t (s.goldWord c (s.rg Reg.CLU_FETCH_ERR_word c)) then s.rebuildGold t else (true, s)
    if r.1 = false then r.2
    else
      let w := r.2.rg Reg.CLU_FETCH_ERR_word c
      let s := r.2.putWordPm c w (Mem.getRun (r.2.part t).goldPm (72 * r.2.goldWord c w) 72)
      ((s.setRg Reg.CLU_CAUSE_fetch_trap c 0).setRg Reg.CLU_FETCH_ERR_valid c 0).resume c

/-- Fetch traps, and golden copies that a table or the dredger has found gone, of a partition that is not restoring (R322). -/
def State.freeTraps (t : Nat) (s : State) : State :=
  if s.phase t = 4 then s
  else
    let s := each (s.clustersOf t) (State.freeTrap t) s
    if (s.part t).goldAsk ∨ ((s.part t).bound.any fun r => s.on Reg.RCH_CAUSE_table_parity r) = true then
      (s.modPart t fun x => { x with goldAsk := false }).rebuildGold t |>.2
    else s

/-! ### The berth watchdog (R216, R339) -/

/-- The record of an expiry at a reach (R577). -/
def State.watchRecord (s : State) (r : Nat) : Nat :=
  (Reg.RCH_BWD_REC.fields.map fun f => f.at (s.rg f r)).sum + s.rel r % 32 * 2 ^ 17 +
    (Reg.RCH_BWD_STEP.fields.map fun f => f.at (s.rg f r)).sum * 2 ^ 32

/-- A link that a route of the partition may take retires or trains anew. -/
def State.routeMoving (s : State) (t : Nat) : Bool :=
  (routeRecs (sections (s.part t).container)).any fun r => r.candidates.any fun l =>
    decide (s.rg Reg.AQ_STATUS_state l = 7) || (s.lnk l).draining

/-- Keeper 0 answers an expiry: a rollback, or suspension with the record where it recurs. One of an older epoch is discarded. -/
def State.answerWatch (t r : Nat) (s : State) : State :=
  if s.on Reg.RCH_BCAUSE_watchdog r = false ∨ s.suspended t ∨ s.routeMoving t then s
  else
    let rec_ := s.watchRecord r
    let s := (s.setRg Reg.RCH_BCAUSE_watchdog r 0).setRg Reg.RCH_BWD_REC_valid r 0
    if s.phase t = 4 ∨ s.phase t = 5 ∨ (s.rch r).bwdEpoch ≠ s.epoch t then s
    else if (s.part t).bwdSeen.contains rec_ then (s.suspendShare t).postFault t 2 rec_ 0
    else (s.modPart t fun x => { x with bwdSeen := rec_ :: x.bwdSeen }).sendReq t false false 1

/-! ### Full buckets (R319, R324, R329, R330, R333, R380) -/

/-- A full bucket of an active cluster: a live substitution, one at the lock, or one within the rollback of an error (R333). With no
spare that qualifies it is deferred (R334). -/
def State.bucketCluster (s : State) (t c p cls : Nat) : State :=
  let record := faultRecord 0 0 (s.unitOf c) 6 cls
  if ((s.part t).moving.any fun m => m.2 = c) ∨ (s.part t).plans.any fun q => q.1 = c then s
  else match s.spareFor (c / 17) with
    | none => s.deferSpare t c record
    | some spare =>
      if s.phase t = 4 ∨ s.phase t = 5 ∨ Nat.land (s.cluCause c) 0x7C ≠ 0 then s.planRelief t c false record
      else if s.phase t = 2 ∨ s.phase t = 3 then s.planRelief t c true record
      else
        let r := if s.unitGone t c then s.rebuildGold t else (true, s)
        if r.1 = false then r.2 else (r.2.startMove t spare c).modClu spare fun x => { x with roleArmed := some p }

/-- The way of a reach cache that holds the most logged errors, of those in use; of equal ones the lowest (R330; log entry 71). -/
def State.worstWay (s : State) (r : Nat) : Nat :=
  let errors := fun w => (s.tst.elog.filter fun e => e.cls = 5 ∧ e.inst = r ∧ e.addr % 16 = w).length
  let ways := (List.range 12).filter fun w => !(s.rch r).waysOff.contains w
  ways.foldl (fun b w => if errors b < errors w then w else b) (ways.headD 0)

/-- A bad cell of a keeper's tables is rewritten from the system keeper's copy (R380). -/
def State.mendTables (s : State) (k : Nat) : State :=
  (((s.kpr k).tbl.filter fun e => !(s.kpr k).tblSound e.1).map (·.1)).foldl (fun s a => s.putTbl k (a / 4096) (a % 4096 / 8) (a % 8) (Mem.get (s.kpr k).tblCopy a)) s

/-- A full bucket of a keeper that does not hold the system role: its tables are rewritten, it is reset through KPR_CTRL.run, a
bucket-full reset as KPR_STATUS and KPR_SYS report it, and the partitions that it serves roll back (R377, R380, R392). -/
def State.bucketKeeper (s : State) (k : Nat) : State :=
  let s := (((s.mendTables k).setRun k false).setRun k true).setRg Reg.KPR_STATUS_rst_cause k 3
  let s := s.setRg Reg.KPR_SYS_third 0 (Nat.lor (s.rg Reg.KPR_SYS_third) (2 ^ k))
  each (which 16 fun t => s.loaded t && !s.suspended t && s.serves k t) (fun t s => s.sendReq t false false 0) s

/-- An alarm of software for a full bucket; its code and data are the supervisor's (R319, R485; log entry 71). -/
def State.bucketAlarm (s : State) (cls : Nat) : State :=
  { s.alarm 16 (srcOf 9 cls) (0x100 + (Config.freeWord s.freeCtr).toNat % 0x700) (Config.freeWord (s.freeCtr + 1)).toNat with
    freeCtr := s.freeCtr + 2 }

/-- The action of a full bucket, and whether it is taken, so that the count returns to 0. -/
def State.bucketAction (s : State) (cls i : Nat) : Bool × State :=
  match cls with
  | 3 | 4 => (true, s.modRch i fun x => { x with retireMark := true })
  | 5 => (true, s.disableWay i (s.worstWay i))
  | 6 | 9 | 10 => (true, s.bucketAlarm cls)
  | 8 =>
    let s := if i = s.system then s.resetKeeper i 3 else s
    (true, if i = s.system then s else s.bucketKeeper i)
  | k => if 2 < k then (false, s)
    else match s.plays i with
      | some u => (true, s.bucketCluster u.1 i u.2.2 k)
      | none => (false, s)

/-- A full bucket: the action, and the count written to 0 (R324). -/
def State.bucketFull (s : State) (key : Nat) : State :=
  let r := s.bucketAction (key / 512) (key % 512)
  if r.1 then { r.2 with tst := { r.2.tst with buckets := r.2.tst.buckets.put key 0 } } else r.2

/-- Every full bucket. -/
def State.answerBuckets (s : State) : State :=
  ((s.tst.buckets.filter fun e => s.threshold (e.1 / 512) ≤ e.2).map (·.1)).foldl State.bucketFull s

/-! ### Substitutions under way (R335, R336, R339) -/

/-- The spare has failed while a restore goes into it: it retires, its position goes back, and keeper 0 asks again (R339). -/
def State.spareFails (s : State) (t spare old : Nat) : State :=
  let record := ((s.cluTroubles t spare).map (·.record)).headD 0
  let p := s.rg Reg.CLU_ROLE_role spare
  let s := (s.clearBits spare cluErrors).setRg Reg.CLU_ROLE_role spare 0x1F
  let s := ((s.setRg Reg.CLU_ROLE_retired spare 1).modClu spare fun x => { x with issuing := false, st := 0, stopBit := none }).unitRetired
    0 spare 0
  let s := (s.applyRole old p).modPart t fun x => { x with moving := x.moving.filter fun m => m.1 ≠ spare }
  (s.postFault t 5 record 0).sendReq t false false 0

/-- Keeper 0 follows a substitution: the outgoing cluster retires once the spare serves (R335), a spare that fails within a restore
gives way (R339), and one whose move was abandoned is forgotten (R336). -/
def State.followMove (t : Nat) (s : State) (m : Nat × Nat) : State :=
  let drop := fun (s : State) => s.modPart t fun x => { x with moving := x.moving.filter fun q => q ≠ m }
  let restoring := decide (s.phase t = 4) || decide (s.phase t = 5)
  if (s.clu m.1).roleArmed.isSome then s
  else if s.rg Reg.CLU_ROLE_role m.1 = 0x1F then drop s
  else if restoring ∧ s.cluTroubles t m.1 ≠ [] then s.spareFails t m.1 m.2
  else if restoring then s
  else
    let s := drop s
    if s.on Reg.CLU_ROLE_retired m.2 then s else (s.setRg Reg.CLU_ROLE_retired m.2 1).unitRetired 0 m.2 0

/-! ### Keeper memory (R375, R380, R442) -/

/-- Memory of tenant services fails parity: local data from the third boundary of table 8 on, or a stack of a keeper in ring 2 or 3. -/
def State.serviceBad (s : State) (k : Nat) : Bool :=
  let x := s.kpr k
  (match s.getTbl k 8 0 4 with
    | .ok b => (badCells x.data).any fun a => decide (b * 16 ≤ a)
    | .error _ => false) ||
    (decide (2 ≤ x.ring) && ((x.ds.any fun c => !parityOk c) || x.rs.any fun c => !entryParity c))

/-- The supervisor answers what keeper k has recorded: bad tables are rewritten; a fault of a tenant service is posted to its tenant, and
one of parity rolls the tenant's partition back; a memory error that the dredger found there rolls back each partition that the keeper
serves (R380, R442; log entry 71). -/
def State.answerKeeper (k : Nat) (s : State) : State :=
  let fault := s.on Reg.KPR_FAULT_valid k
  let found := (s.src (privSrc k 2)).pending
  if fault = false ∧ found = false then s
  else
    let code := s.rg Reg.KPR_FAULT_code k
    let tenant := (s.kpr k).tenant
    let service := fault && decide (2 ≤ s.rg Reg.KPR_FAULT_ring k)
    let bad := (s.kpr k).tbl.any fun e => !(s.kpr k).tblSound e.1
    let s := s.mendTables k
    let s := if service || (fault && bad) then s.clearBits k (Reg.KPR_FAULT.fields ++ Reg.KPR_FAULT_PC.fields) else s
    let s := if service then s.postFault tenant 8 0 code else s
    let back := (if service && decide (code = 5) then [tenant] else []) ++
      (if found && s.serviceBad k then which 16 (s.serves k) else [])
    let s := if found then s.setSrc (privSrc k 2) { s.src (privSrc k 2) with pending := false, count := 0 } else s
    each back.eraseDups (fun t s => if s.loaded t && !s.suspended t then s.sendReq t false false 0 else s) s

/-! ### The supervisor's round -/

/-- What the supervisor does about everything that is latched, partition by partition in the order in which their errors were latched
(R339; log entry 71). -/
def State.supervise (s : State) : State :=
  if s.supervised = false then s
  else
    let order := s.inTurn (which 16 s.loaded)
    let live := fun (s : State) => order.filter fun t => s.loaded t && !s.suspended t
    let s := each (live s) (fun t s => (s.part t).moving.foldl (State.followMove t) s) s
    let s := each (live s) State.freeTraps s
    let s := s.answerAll (live s)
    let s := each (live s) (fun t s => each (s.part t).bound (State.answerWatch t) s) s
    let s := each (List.range 4) State.answerKeeper s
    s.answerBuckets

/-- One period passes, and the running keeper timers count the microseconds that it completes (R383, R523). -/
def State.passTime (s : State) : State :=
  let t := s.tick
  let n := t.power.time / 1000 - s.power.time / 1000
  if n = 0 then t else t.countTimers n

/-- While no command waits, a barge of the device's own is delivered, the supervisor makes a round, and the time goes on by one period
(R254, R523; log entries 6, 71). -/
def State.idle (s : State) : State := (s.deliverOwn).supervise.passTime

end Sys2Proof.Machine
end

