-- ==== Sys2Proof/Safety.lean ====
section
/-!
DEFINITION. Sys2Proof/Safety.lean: what counts as a safe step, a safe run and a well-kept state, in the terms the statements use.
-/
namespace Sys2Proof.Machine

/-- The step neither stops with a fault nor refuses. -/
def SafeStep (s : State) : Prop := ∃ t, step s = .next t

/-- n steps in a row are safe. -/
def SafeRun : Nat → State → Prop
  | 0, _ => True
  | n + 1, s => ∃ t, step s = .next t ∧ SafeRun n t

/-- The memories of a cluster are canonical. -/
def Cluster.memWf (x : Cluster) : Bool := Memory.wf x.pm && Memory.wf x.vm && Memory.wf x.rf

/-- The memories of a reach are canonical. -/
def Reach.memWf (x : Reach) : Bool :=
  Memory.wf x.xbt && Memory.wf x.nsm && Memory.wf x.bmap && Memory.wf x.bmapCopy && Memory.wf x.outstanding && Memory.wf x.holds

/-- The memories of a keeper are canonical. -/
def Keeper.memWf (x : Keeper) : Bool :=
  Memory.wf x.prog && Memory.wf x.data && Memory.wf x.tbl && Memory.wf x.tblCopy && Memory.wf x.itt

/-- Every addressed memory of the device is canonical: addresses rising, no entry equal to what an unlisted address reads
as. -/
def State.memWf (s : State) : Bool :=
  Memory.wf s.hbm && Memory.wf s.buffers9 && Memory.wf s.routes && Memory.wf s.routesCopy && Memory.wf s.ledger.tags &&
    Memory.wf s.ledger.grants && Memory.wf s.secure.basin && s.clusters.all (fun e => e.2.memWf) &&
    s.reaches.all (fun e => e.2.memWf) && s.keepers.all (fun e => e.2.memWf)

end Sys2Proof.Machine
end

