-- ==== Sys2Proof/WellFormed.lean ====
section
/-!
DEFINITION. Sys2Proof/WellFormed.lean: which operands a command can carry. A command's types already bound unit numbers; this says
the rest: ranges, alignment and lengths that the manual gives.
-/
namespace Sys2Proof

/-- A claimed source that is not reserved (R397), or a scanned source: a cause bit of a cluster, or a link (R395). -/
def sourceOk (scanned : Bool) (n cause : Nat) : Bool :=
  if scanned then decide (n < 408) || (decide (n < 424) && decide (cause = 0))
  else decide (n ≤ 8) || (decide (16 ≤ n) && decide (n ≤ 19)) || (decide (32 ≤ n) && decide (n ≤ 91)) ||
    (decide (96 ≤ n) && decide (n ≤ 134)) || (decide (192 ≤ n) && decide (n < 256))

/-- An MSI-X vector that the function has: 16 in the physical function, 4 in a virtual one (R444). -/
def vectorOk (fn : Fin 16) (v : BitVec 4) : Bool := decide (fn.val = 0) || decide (v.toNat < 4)

/-- Only step 3 reports units, clusters on their own and the others by a class of 3 to 7, only step 2 reads fuses, and the boot ROM is in use in steps 3 to 6 (R514, R515). -/
def failureOk (step : Nat) : BringUpFailure → Bool
  | .passed => true
  | .failed => true
  | .units _ others => decide (step = 3) && others.all fun u => decide (3 ≤ u.1.toNat) && decide (u.1.toNat ≤ 7)
  | .fuses => decide (step = 2)
  | .rom => decide (3 ≤ step) && decide (step ≤ 6)

/-- An operate word that is illegal: its op is not listed, or an operand bit that the op does not use is set (R362, R375). -/
def opIllegal (w : Nat) : Bool :=
  decide (w / 4096 = 2) && (
    let op := w / 64 % 64
    let o := w % 64
    if op ∈ [0x0D, 0x0E, 0x0F, 0x2B, 0x2F, 0x3F] then true
    else if op ∈ [0x1E, 0x1F, 0x20, 0x21, 0x39, 0x3A, 0x3D] then false
    else if op ∈ [0x07, 0x34, 0x35] then decide (32 ≤ o)
    else if op = 0x0B then decide (14 ≤ o)
    else if op ∈ [0x18, 0x19, 0x1A] then decide (16 ≤ o)
    else if op ∈ [0x29, 0x2A] then decide (10 ≤ o)
    else if op ∈ [0x36, 0x37, 0x38] then decide (8 ≤ o)
    else if op = 0x33 then decide (4 ≤ o)
    else if op ∈ [0x22, 0x23, 0x32] then decide (2 ≤ o)
    else decide (1 ≤ o))

/-- The command's operands are ones the manual gives it. -/
def Instr.wellFormed (i : Instr) : Bool :=
  match i with
  | .gets _ line _ => decide (line < 2 ^ 29)
  | .getm _ line _ => decide (line < 2 ^ 29)
  | .putm _ line => decide (line < 2 ^ 29)
  | .fwdGetm _ line => decide (line < 2 ^ 29)
  | .retry _ line => decide (line < 2 ^ 29)
  | .wakeMessage _ line => decide (line < 2 ^ 29)
  | .wbAck _ line => decide (line < 2 ^ 29)
  | .lineData _ line => decide (line < 2 ^ 29)
  | .transactionEnd line => decide (line < 2 ^ 29)
  | .codeword _ symbols => decide (symbols.length = 136)
  | .readResponse _ status cells => decide (if status = 0 then 1 ≤ cells.length ∧ cells.length ≤ 19 else cells.length = 0)
  | .commit _ _ _ rootTime _ _ => decide (rootTime < 2 ^ 64)
  | .pick _ o => decide (o.toNat < 32)
  | .testf _ o => decide (o.toNat < 14)
  | .kealaShl _ o => decide (o.toNat < 16)
  | .kealaShr _ o => decide (o.toNat < 16)
  | .kealaSar _ o => decide (o.toNat < 16)
  | .ldx _ o => decide (o.toNat < 2)
  | .stx _ o => decide (o.toNat < 2)
  | .rd _ o => decide (o.toNat < 10)
  | .wr _ o => decide (o.toNat < 10)
  | .scanb _ o => decide (o.toNat < 2)
  | .chkb _ o => decide (o.toNat < 4)
  | .semt _ o => decide (o.toNat < 32)
  | .semg _ o => decide (o.toNat < 32)
  | .winr _ o => decide (o.toNat < 8)
  | .winw _ o => decide (o.toNat < 8)
  | .ret _ o => decide (o.toNat < 8)
  | .sourceEdge _ scanned source cause => sourceOk scanned source.toNat cause.toNat
  | .configRequest _ offset _ => decide (offset.toNat % 4 = 0)
  | .memoryRequest _ bar2 offset _ => decide (offset.toNat % 4 = 0 ∧ (bar2 = true → offset.toNat < 0x10000))
  | .load _ _ length container _ => decide (container.length = length ∧ length < 2 ^ 32)
  | .input _ _ _ length values => decide (1 ≤ length ∧ length ≤ 4096 ∧ values.length = length)
  | .msixCoalesce fn vector => vectorOk fn vector
  | .queueEntryWrite _ kind => decide (1 ≤ kind.toNat ∧ kind.toNat ≤ 3)
  | .capstanAl n => decide (n ≤ 40)
  | .capstanLg n => decide (n ≤ 40)
  | .capstanRd addr => decide (addr.toNat % 4 = 0)
  | .capstanWr addr _ => decide (addr.toNat % 4 = 0)
  | .capstanBd rate => decide (rate = 115200 ∨ rate = 921600 ∨ rate = 1500000 ∨ rate = 3000000)
  | .bringUpStep no failure => failureOk no.val failure
  | .registerWrite _ addr _ _ => decide (addr.toNat % 4 = 0)
  | .illegalInstruction _ word => opIllegal word.toNat
  | .msixUnmask fn vector => vectorOk fn vector
  | .issueStep _ | .refetch _ | .liveSubstitution _ | .dmemReadReturn _ _ _ | .stepDoneMarker _ _ _
  | .fenceClose _ _ _ | .pageCopy _ _ _ | .dmemRetire _ _ | .retireDone _ | .dmemRFlush _ _ | .hbmTempRead _ _
  | .shortfallWindow _ _ _ | .berthArrival _ _ _ _ _ _ _ | .berthClear _ _ _ _ | .hostBlockingFill _ _
  | .berthWatchdog _ _ _ _ | .barge _ _ | .writeAck _ _ | .statusBarge _ _ | .laneSwap _ _ | .parameterBarge _ _
  | .retireBarge _ _ | .trainingFrame _ _ _ | .bargeSlot _ | .replayTimeout _ | .escapeWait _ | .trainingTimeout _
  | .detectLock _ | .laneSerWindow _ | .cdrLoss _ _ | .plannedRetireDrain _ | .aqEnable _ _ | .aqRetrain _ _
  | .aqRetire _ _ | .aqMargin _ _ | .marginScanDone _ _ _ | .aqRouteData _ _ | .arrive _ _ _ _ _ _ | .req _ _ _ _ _ _
  | .rollback _ _ _ _ _ | .restoreComplete _ | .restored _ _ _ _ _ _ _ _ | .resume _ _ _ _ | .suspend _ _ _
  | .rejoin _ _ _ | .lockCapture _ _ | .flightTimeout _ | .rollbackGap _ | .exportDone _ | .reqNewest _ _
  | .reqOlder _ _ | .suspendShare _ _ | .replayStart _ _ | .replayContinue _ _ | .replayToReturnPoint _ _
  | .lckTreeData _ _ | .dredgePass | .leak | .tstFlip _ _ | .tstElogA _ | .tstElogStat _ | .tstDredgeStat _
  | .literal _ _ | .jmp _ _ | .call _ _ | .bz _ _ _ | .bnz _ _ _ | .kealaNop _ | .dup _ | .drop _ | .swap _ | .over _
  | .rot _ | .nip _ | .tor _ | .fromr _ | .rfetch _ | .depth _ | .kealaAdd _ | .kealaSub _ | .adc _ | .sbb _
  | .kealaAnd _ | .kealaOr _ | .kealaXor _ | .not _ | .kealaMulu _ | .muls _ | .cmp _ | .addi _ _ | .cmpi _ _
  | .lda _ _ | .sta _ _ | .ld _ | .st _ | .seta _ | .geta _ | .adda _ | .pflush _ | .wait _ | .brk _ | .moveb _
  | .fillb _ | .mcall _ _ | .mret _ _ | .calla _ | .jmpa _ | .gate _ _ | .reti _ | .customerInstruction _ _ _
  | .interruptEntry _ | .lockHook _ | .takeover _ | .kprHookDone _ _ | .hookTimeout _ | .kprCtrlRun _ _
  | .romFetchOff _ _ | .keeperTimer _ _ | .kprTblData _ _ | .kprCntMisp _ | .alertInput _ _ | .irqClaim _ _
  | .irqComplete _ _ _ | .irqScause _ _ | .irqSrcCfg _ _ | .irqKdoor _ _ | .irqSwset _ _ | .irqPtgt _ _
  | .whfSqTail _ _ | .whfCqHead _ _ | .whfFqHead _ _ | .whfOqHead _ _ | .whfAreaHead _ _ | .whfQcfg _ _
  | .whfStop _ _ | .preset _ _ | .flr _ | .submissionEntry _ _ | .start _ _ | .hold _ _ | .run _ _ | .step _ _ _
  | .unload _ _ | .setArea _ _ _ | .rollbackCommand _ _ _ | .replayCommand _ _ _ _ _ | .loadExport _ _ _
  | .stop _ _ _ _ | .go _ _ _ | .stopReached _ | .psbUpdate _ | .aspmL1Entry _ | .powerStateWrite _ _ | .slcStart _ _
  | .slcStop _ _ | .channelBegin _ | .descriptor _ _ _ | .element _ _ _ _ | .intFull _ | .busErrorRetry _ _
  | .slcCntRetry _ | .ldgAlloc _ | .ldgFree _ _ | .ldgGive _ _ | .ldgGntA _ _ | .ldgLogA _ | .chkInit _ _ _
  | .chkScan _ _ _ | .scanDone _ _ | .weirSw _ _ | .alarmAccept _ | .alarm _ _ _ | .alarmForward | .tokenRefill _
  | .ringReadPoll | .weirSnap _ _ | .snapDone | .weirTrcStat _ | .weirDrop _ _ | .gauMatch _ | .capstanLine
  | .capstanBreak | .capstanVer | .capstanSt | .capstanTm | .capstanDr | .capstanLk _ | .baudRevert | .powerOnReset
  | .perst | .hotReset | .devReset _ _ | .bringUpTimeout | .linkTestRequest _ _ | .readyRequest _ _ | .sanitize _ _
  | .wipeComplete | .standbyEntry | .l2Entry | .wake _ | .domainSwitch | .vcoreAdjust | .avsbusPoll _ _
  | .avsbusRetry _ _ | .thermalWarning _ | .thermalTrip _ | .supplyWindow _ | .supplyAbsolute | .wakeTime | .tamper
  | .secLcReq _ _ | .keyInstall _ _ | .keyErase _ _ | .stagingReset _ _ | .secKeyData _ _ | .aonTimeHi _ _
  | .aonWakeTimeHi _ _ | .aonWake _ | .pwrBasinOwn _ _ | .pwrPlank _ _ | .pwrLimit _ _ | .smbStatus | .smbTemp
  | .smbPower | .smbPlimit _ _ | .smbWake _ _ | .smbWakeCause | .cluResume _ _ | .cluCtrlEnable _ _ | .cluRole _ _
  | .cluVmDataWrite _ _ | .cluVmDataRead _ | .cluPmDataWrite _ _ | .cluPmDataRead _ | .cluCntBank _ | .cluCntWait _
  | .cluCntRefetch _ | .cluBankPeak _ | .rchCtrlEnable _ _ | .rchXbtData _ _ | .rchNsmData _ _ | .rchBmapData _ _
  | .rchCntSend _ | .rchCntClrwait _ | .dmemRMiss _ | .dmemRRetry _ | .dmemShort _ _ | .aqCntFec _ | .aqCntReplay _
  | .aqLaneSym _ | .aqPrbsErr _ | .lckCntRollback _ _ | .whfTstat _ | .hbmErrorReport _ _ _ | .hbmStackUnresponsive _
  | .l1Exit | .pcieDlDown | .completionTimeout _ | .capstanByte _ | .perstDeassert | .tapClock _ _ _ _ | .trstAssert
  | .prbsCheckerLock _ _ => true

end Sys2Proof
end

