-- ==== Sys2Proof/Certificates/Slice0/Obligations.lean ====
section
/-!
DEFINITION. Sys2Proof/Certificates/Slice0/Obligations.lean: the statements for the provers, and the predicates that they share.
-/
namespace Sys2Proof.Claims
open Sys2Proof.Machine

/-! ### What stays -/

/-- Every register field but those of the listed keys stays. -/
abbrev RegsBut (s t : State) (keys : List Nat) : Prop := ∀ key, key ∉ keys → t.regs.find key = s.regs.find key

/-- Only cluster c has changed, into x. -/
abbrev CluIs (s t : State) (c : Nat) (x : Cluster) : Prop := t.clu c = x ∧ ∀ d, d ≠ c → t.clu d = s.clu d

/-- Only reach r has changed, into x. -/
abbrev RchIs (s t : State) (r : Nat) (x : Reach) : Prop := t.rch r = x ∧ ∀ d, d ≠ r → t.rch d = s.rch d

/-- Only the partition of tenant p has changed, into x. -/
abbrev PartIs (s t : State) (p : Nat) (x : Part) : Prop := t.part p = x ∧ ∀ d, d ≠ p → t.part d = s.part d

/-- Only link l has changed, into x. -/
abbrev LinkIs (s t : State) (l : Nat) (x : Link) : Prop := t.lnk l = x ∧ ∀ d, d ≠ l → t.lnk d = s.lnk d

/-- Memory t is memory s with x at address a. -/
abbrev StoredAt {n : Nat} (s t : Mem n) (a : Nat) (x : BitVec n) : Prop :=
  Mem.get t a = x ∧ ∀ b, b ≠ a → Mem.get t b = Mem.get s b

/-- The causes of a block and what they raise apart, registers but those of the listed keys stay (R395). -/
abbrev Elsewhere (s t : State) : Prop := { t with regs := s.regs, clusters := s.clusters, reaches := s.reaches } = s

/-- Every partition but those of the listed tenants stays. -/
abbrev PartsBut (s t : State) (ts : List Nat) : Prop := ∀ p, p ∉ ts → t.part p = s.part p

/-- Every cluster but those listed stays. -/
abbrev ClusBut (s t : State) (cs : List Nat) : Prop := ∀ d, d ∉ cs → t.clu d = s.clu d

/-! ### Register access -/

/-- No access has to bring the link out of L1 first (R453). -/
abbrev LinkAwake (s : State) (who : Requester) : Prop := who = .pf → s.power.linkState ≠ 1 ∧ s.power.linkState ≠ 2

/-- The requester may read the register at an address, and its unit answers (R420, R453, R518 to R521, R541). -/
abbrev Readable (s : State) (who : Requester) (addr : Nat) : Prop :=
  LinkAwake s who ∧ s.barOpen who addr false = true ∧ s.dark who addr = false ∧ s.basinShut who addr = none

/-- The requester may write the register at an address, and its unit answers. -/
abbrev Writable (s : State) (who : Requester) (addr : Nat) : Prop :=
  LinkAwake s who ∧ s.barOpen who addr true = true ∧ s.dark who addr = false ∧ s.mayWrite who addr = true ∧ s.basinShut who addr = none

/-- A counter that a read returns and clears: who reads, at which address, which instance, the register's fields, and those that
the read clears. -/
structure Counter where
  who : Requester
  addr : Nat
  inst : Option Nat
  fields : List Field
  clears : List Field

/-- The counter of each read-and-clear command. -/
def counterOf (s : State) : Instr → Option Counter
  | .cluCntBank who => some ⟨who, 0x100040, s.selCluster who, [Reg.CLU_CNT_BANK_turns], [Reg.CLU_CNT_BANK_turns]⟩
  | .cluCntWait who => some ⟨who, 0x100044, s.selCluster who, [Reg.CLU_CNT_WAIT_steps], [Reg.CLU_CNT_WAIT_steps]⟩
  | .cluCntRefetch who => some ⟨who, 0x100048, s.selCluster who, [Reg.CLU_CNT_REFETCH_count], [Reg.CLU_CNT_REFETCH_count]⟩
  | .cluBankPeak who => some ⟨who, 0x10004C, s.selCluster who,
      [Reg.CLU_BANK_PEAK_bank, Reg.CLU_BANK_PEAK_step, Reg.CLU_BANK_PEAK_turns],
      [Reg.CLU_BANK_PEAK_bank, Reg.CLU_BANK_PEAK_step, Reg.CLU_BANK_PEAK_turns]⟩
  | .rchCntSend who => some ⟨who, 0x20002C, s.selReach who, [Reg.RCH_CNT_SEND_sends], [Reg.RCH_CNT_SEND_sends]⟩
  | .rchCntClrwait who => some ⟨who, 0x200074, s.selReach who,
      [Reg.RCH_CNT_CLRWAIT_stale, Reg.RCH_CNT_CLRWAIT_steps], [Reg.RCH_CNT_CLRWAIT_stale, Reg.RCH_CNT_CLRWAIT_steps]⟩
  | .dmemRMiss who => some ⟨who, 0x200044, s.selReach who, [Reg.DMEM_R_MISS_misses], [Reg.DMEM_R_MISS_misses]⟩
  | .dmemRRetry who => some ⟨who, 0x200048, s.selReach who, [Reg.DMEM_R_RETRY_retries], [Reg.DMEM_R_RETRY_retries]⟩
  | .dmemShort who t => some ⟨who, 0x300080 + 4 * t.val, some t.val, [Reg.DMEM_SHORTt_windows], [Reg.DMEM_SHORTt_windows]⟩
  | .aqCntFec who => some ⟨who, 0x400020, some (s.selLink who), [Reg.AQ_CNT_FEC_corrected], [Reg.AQ_CNT_FEC_corrected]⟩
  | .aqCntReplay who => some ⟨who, 0x400024, some (s.selLink who),
      [Reg.AQ_CNT_REPLAY_replays, Reg.AQ_CNT_REPLAY_uncorrectable], [Reg.AQ_CNT_REPLAY_replays, Reg.AQ_CNT_REPLAY_uncorrectable]⟩
  | .aqLaneSym who => some ⟨who, 0x400028, s.selLane who, [Reg.AQ_LANE_SYM_symbols], [Reg.AQ_LANE_SYM_symbols]⟩
  | .aqPrbsErr who => some ⟨who, 0x400030, s.selLane who, [Reg.AQ_PRBS_ERR_errors], [Reg.AQ_PRBS_ERR_errors]⟩
  | .lckCntRollback who t => some ⟨who, 0x500138 + 0x40 * t.val, some t.val,
      [Reg.LCK_CNT_ROLLBACKt_fallbacks, Reg.LCK_CNT_ROLLBACKt_rollbacks],
      [Reg.LCK_CNT_ROLLBACKt_fallbacks, Reg.LCK_CNT_ROLLBACKt_rollbacks]⟩
  | .tstElogStat who => some ⟨who, 0x600014, some 0, [Reg.TST_ELOG_STAT_entries, Reg.TST_ELOG_STAT_lost], [Reg.TST_ELOG_STAT_lost]⟩
  | .tstDredgeStat who => some ⟨who, 0x600024, some 0,
      [Reg.TST_DREDGE_STAT_late, Reg.TST_DREDGE_STAT_passes, Reg.TST_DREDGE_STAT_errors],
      [Reg.TST_DREDGE_STAT_passes, Reg.TST_DREDGE_STAT_errors]⟩
  | .kprCntMisp who => some ⟨who, 0x70003C, some (s.selKeeper who), [Reg.KPR_CNT_MISP_misp], [Reg.KPR_CNT_MISP_misp]⟩
  | .slcCntRetry who => some ⟨who, 0x900050, some (s.selEngine who), [Reg.SLC_CNT_RETRY_retries], [Reg.SLC_CNT_RETRY_retries]⟩
  | .weirTrcStat who => some ⟨who, 0xC0001C, some 0,
      [Reg.WEIR_TRC_STAT_ring_lost, Reg.WEIR_TRC_STAT_gaps, Reg.WEIR_TRC_STAT_dropped],
      [Reg.WEIR_TRC_STAT_ring_lost, Reg.WEIR_TRC_STAT_gaps, Reg.WEIR_TRC_STAT_dropped]⟩
  | .weirDrop who b => some ⟨who, 0xC00040 + 4 * b.toNat, (s.selOwner who).map fun o => 16 * o + b.toNat,
      [Reg.WEIR_DROPb_drops], [Reg.WEIR_DROPb_drops]⟩
  | .gauMatch who => some ⟨who, 0x200094, s.selReach who, [Reg.GAU_MATCH_step, Reg.GAU_MATCH_fired],
      [Reg.GAU_MATCH_step, Reg.GAU_MATCH_fired]⟩
  | _ => none

/-- The fields of an instance, each in its place in the register. -/
def wordOf (s : State) (fields : List Field) (i : Nat) : Nat := (fields.map fun f => f.at (s.rg f i)).sum

/-! ### Keepers -/

/-- The keeper's fetch meets no fault: from the boot ROM, or from a program word of the current ring's region with good parity. -/
def FetchOk (s : State) (k : Nat) : Bool :=
  s.on Reg.KPR_CTRL_rom_fetch k ||
    (match s.progRing k (s.kpr k).pc with
      | .ok g => decide (g = (s.kpr k).ring) && !oddOnes 15 (Mem.get (s.kpr k).prog (s.kpr k).pc).toNat
      | .error _ => false)

/-- Cell c of the current stack set holds a limit of at least n. -/
def roomFor (s : State) (k c n : Nat) : Bool :=
  match s.getTbl k 1 (s.kpr k).set c with
  | .ok m => decide (n ≤ m)
  | .error _ => false

/-- Keeper k issues; its data stack is `st`, T first, all of it on chip; there is room for two more cells, no flip is armed. -/
abbrev KReady (s : State) (k : Nat) (st : List Cell) : Prop :=
  s.issues k = true ∧ FetchOk s k = true ∧ s.on Reg.TST_FLIP_arm = false ∧ (s.kpr k).ds = st.map store ∧
    (s.kpr k).sp = st.length ∧ st.length ≤ 30 ∧ roomFor s k 2 (st.length + 2) = true

/-- Only keeper k has changed, into x; its own count of the instructions since a mask write, the masks that have thereby taken effect, and
the numbering of free choices apart (R410). -/
abbrev KDid (s t : State) (k : Nat) (x : Keeper) : Prop :=
  t.kpr k = { x with maskAge := (t.kpr k).maskAge } ∧ (∀ j, j ≠ k → t.kpr j = s.kpr j) ∧
    (∀ n, { t.src n with masking := (s.src n).masking } = s.src n) ∧ { t with keepers := s.keepers, irq := s.irq, freeCtr := s.freeCtr } = s

/-- As KDid, but the misprediction count of keeper k may have risen (R387). -/
abbrev KWent (s t : State) (k : Nat) (x : Keeper) : Prop :=
  KDid s { t with regs := s.regs } k x ∧
    ∀ key, key ≠ fieldKey Reg.KPR_CNT_MISP_misp k 0 → t.regs.find key = s.regs.find key

/-- The keeper as an instruction begins. -/
def begun (x : Keeper) : Keeper := { x with entering := false, waiting := false }

/-- The keeper with data stack `st`, T first, at the next instruction. -/
def next (x : Keeper) (st : List Cell) : Keeper := { x with ds := st.map store, sp := st.length, pc := (x.pc + 1) % 32768 }

/-- FL from its flags (R350). -/
def flags (c z n v : Bool) : Cell :=
  BitVec.ofNat 12 ((if c then 1 else 0) + (if z then 2 else 0) + (if n then 4 else 0) + (if v then 8 else 0))

/-- FL of a result, N and Z from it (R363). -/
def resultFlags (r : Cell) (c v : Bool) : Cell := flags c (decide (r = 0)) r.msb v

/-- a + b + carry: the sum modulo 4,096, C the carry out, V the signed overflow (R363). -/
def addOf (a b : Cell) (cin : Nat) : Cell × Cell :=
  let r := BitVec.ofNat 12 (a.toNat + b.toNat + cin)
  let i := a.toInt + b.toInt + cin
  (r, resultFlags r (decide (4096 ≤ a.toNat + b.toNat + cin)) (decide (i < -2048) || decide (2047 < i)))

/-- a - b - borrow: C is the borrow, V the signed overflow (R363). -/
def subOf (a b : Cell) (bin : Nat) : Cell × Cell :=
  let r := a - b - BitVec.ofNat 12 bin
  let i := a.toInt - b.toInt - bin
  (r, resultFlags r (decide (a.toNat < b.toNat + bin)) (decide (i < -2048) || decide (2047 < i)))

/-- SHL by n: C is the last bit shifted out (R363). -/
def shlOf (a : Cell) (n : Nat) : Cell × Cell :=
  let r := BitVec.ofNat 12 (a.toNat * 2 ^ n)
  (r, resultFlags r ((a.toNat * 2 ^ n).testBit 12) false)

/-- SHR by n. -/
def shrOf (a : Cell) (n : Nat) : Cell × Cell :=
  let r := BitVec.ofNat 12 (a.toNat / 2 ^ n)
  (r, resultFlags r (decide (n ≠ 0) && a.toNat.testBit (n - 1)) false)

/-- SAR by n. -/
def sarOf (a : Cell) (n : Nat) : Cell × Cell :=
  let r := BitVec.ofInt 12 (a.toInt / 2 ^ n)
  (r, resultFlags r (decide (n ≠ 0) && decide (a.toInt / 2 ^ (n - 1) % 2 = 1)) false)

/-- A logic result: C and V clear (R363). -/
def logicOf (r : Cell) : Cell × Cell := (r, resultFlags r false false)

/-- A 24-bit product p, high cell on top: Z and N from p, C and V clear (R362, R363). -/
def mulOf (p : Nat) : List Cell × Cell :=
  ([BitVec.ofNat 12 (p / 4096), BitVec.ofNat 12 p], flags false (decide (p % 2 ^ 24 = 0)) (p.testBit 23) false)

/-- The condition of TESTF c (R362): Z, NZ, C, NC, N, NN, V, NV, LT, GE, LE, GT, LEU, GTU. -/
def condition (x : Keeper) (c : Nat) : Bool :=
  let cf := x.fl.getLsbD 0
  let z := x.fl.getLsbD 1
  let n := x.fl.getLsbD 2
  let v := x.fl.getLsbD 3
  ([z, !z, cf, !cf, n, !n, v, !v, n != v, n == v, z || (n != v), !(z || (n != v)), cf || z, !(cf || z)][c]?).getD false

/-- Register r (R350). -/
def register (x : Keeper) (r : Nat) : Cell :=
  ([x.ah, x.al, x.ix, x.jx, x.fl, x.u, x.v, x.rg, BitVec.ofNat 12 x.sp, BitVec.ofNat 12 x.rp][r]?).getD 0

/-- What an operation makes of the stack, T first, and of the keeper's registers. -/
abbrev Effect := List Cell → List Cell × Keeper

/-- An operation that takes one cell and gives one, with flags. -/
def unary (x : Keeper) (f : Cell → Cell × Cell) : Effect := fun st =>
  match st with
  | a :: l => ((f a).1 :: l, { x with fl := (f a).2 })
  | [] => ([], x)

/-- An operation ( a b -- r ), with flags. -/
def binary (x : Keeper) (f : Cell → Cell → Cell × Cell) : Effect := fun st =>
  match st with
  | b :: a :: l => ((f a b).1 :: l, { x with fl := (f a b).2 })
  | l => (l, x)

/-- A multiplication ( a b -- lo hi ). -/
def product (x : Keeper) (f : Cell → Cell → Nat) : Effect := fun st =>
  match st with
  | b :: a :: l => ((mulOf (f a b)).1 ++ l, { x with fl := (mulOf (f a b)).2 })
  | l => (l, x)

/-- Stack operations: the cells they take, and what becomes of the stack (R362). -/
def stackOp (x : Keeper) : Instr → Option (Fin 4 × Nat × Effect)
  | .literal k c => some (k, 0, fun l => (c :: l, x))
  | .kealaNop k => some (k, 0, fun l => (l, x))
  | .dup k => some (k, 1, fun | a :: l => (a :: a :: l, x) | l => (l, x))
  | .drop k => some (k, 1, fun | _ :: l => (l, x) | l => (l, x))
  | .swap k => some (k, 2, fun | b :: a :: l => (a :: b :: l, x) | l => (l, x))
  | .over k => some (k, 2, fun | b :: a :: l => (a :: b :: a :: l, x) | l => (l, x))
  | .rot k => some (k, 3, fun | c :: b :: a :: l => (a :: c :: b :: l, x) | l => (l, x))
  | .nip k => some (k, 2, fun | b :: _ :: l => (b :: l, x) | l => (l, x))
  | .pick k o => some (k, o.toNat + 1, fun l => ((l[o.toNat]?).getD 0 :: l, x))
  | .testf k o => some (k, 0, fun l => ((if condition x o.toNat then 0xFFF#12 else 0) :: l, x))
  | .depth k => some (k, 0, fun l => (BitVec.ofNat 12 x.sp :: l, x))
  | _ => none

/-- Arithmetic and logic operations (R362, R363). -/
def aluOp (x : Keeper) : Instr → Option (Fin 4 × Nat × Effect)
  | .kealaAdd k => some (k, 2, binary x fun a b => addOf a b 0)
  | .kealaSub k => some (k, 2, binary x fun a b => subOf a b 0)
  | .adc k => some (k, 2, binary x fun a b => addOf a b (if x.fl.getLsbD 0 then 1 else 0))
  | .sbb k => some (k, 2, binary x fun a b => subOf a b (if x.fl.getLsbD 0 then 1 else 0))
  | .kealaAnd k => some (k, 2, binary x fun a b => logicOf (a &&& b))
  | .kealaOr k => some (k, 2, binary x fun a b => logicOf (a ||| b))
  | .kealaXor k => some (k, 2, binary x fun a b => logicOf (a ^^^ b))
  | .not k => some (k, 1, unary x fun a => logicOf (~~~a))
  | .kealaShl k o => some (k, 1, unary x fun a => shlOf a o.toNat)
  | .kealaShr k o => some (k, 1, unary x fun a => shrOf a o.toNat)
  | .kealaSar k o => some (k, 1, unary x fun a => sarOf a o.toNat)
  | .kealaMulu k => some (k, 2, product x fun a b => a.toNat * b.toNat)
  | .muls k => some (k, 2, product x fun a b => ((a.toInt * b.toInt) % (2 ^ 24 : Int)).toNat)
  | .cmp k => some (k, 2, fun | b :: a :: l => (l, { x with fl := (subOf a b 0).2 }) | l => (l, x))
  | .addi k o => some (k, 1, unary x fun a => addOf a (o.signExtend 12) 0)
  | .cmpi k o => some (k, 1, fun | a :: l => (a :: l, { x with fl := (subOf a (o.setWidth 12) 0).2 }) | l => (l, x))
  | _ => none

/-- The address pair set to a 24-bit address. -/
def withAddr (x : Keeper) (a : Nat) : Keeper := { x with al := BitVec.ofNat 12 a, ah := BitVec.ofNat 12 (a / 4096) }

/-- WR of registers 0 to 7: FL keeps four bits; RG takes ie and tenant in ring 1, and dfl too in ring 0 (R350, R351). -/
def written (x : Keeper) (r : Nat) (c : Cell) : Keeper :=
  match r with
  | 0 => { x with ah := c }
  | 1 => { x with al := c }
  | 2 => { x with ix := c }
  | 3 => { x with jx := c }
  | 4 => { x with fl := c &&& 0xF#12 }
  | 5 => { x with u := c }
  | 6 => { x with v := c }
  | _ =>
    let keep : Cell := if x.rg.toNat % 4 = 0 then 0x073#12 else 0x07B#12
    { x with rg := (x.rg &&& keep) ||| (c &&& (0xF7F#12 &&& ~~~keep)) }

/-- Operations on registers (R362); WR RG and the privileged ones need ring 0 or 1. -/
def registerOp (x : Keeper) : Instr → Option (Fin 4 × Nat × Effect)
  | .seta k => some (k, 2, fun | hi :: lo :: l => (l, withAddr x (lo.toNat + hi.toNat * 4096)) | l => (l, x))
  | .geta k => some (k, 0, fun l => (x.ah :: x.al :: l, x))
  | .adda k => some (k, 1, fun
      | d :: l => (l, withAddr x (((x.al.toNat + x.ah.toNat * 4096 : Nat) + d.toInt) % (2 ^ 24 : Int)).toNat)
      | l => (l, x))
  | .rd k o => some (k, 0, fun l => (register x o.toNat :: l, x))
  | .wr k o =>
    if o.toNat < 7 ∨ (o.toNat = 7 ∧ x.rg.toNat % 4 ≤ 1) then
      some (k, 1, fun | c :: l => (l, written x o.toNat c) | l => (l, x))
    else none
  | .pflush k => if x.rg.toNat % 4 ≤ 1 then some (k, 0, fun l => (l, { x with hist := 0, itt := [] })) else none
  | .wait k => if x.rg.toNat % 4 ≤ 1 then some (k, 0, fun l => (l, { x with waiting := true })) else none
  | _ => none

/-- Local data address a, which the current ring may access (R355, R356). -/
def localOk (s : State) (k a : Nat) : Bool :=
  decide (a < 0x10000) && (match s.dataRing k a with
    | .ok g => decide ((s.kpr k).ring ≤ g)
    | .error _ => false)

/-- A load: its address, the cells that stay below the loaded one, and the registers after (R362). -/
def loadOp (x : Keeper) (st : List Cell) : Instr → Option (Fin 4 × Nat × List Cell × Keeper)
  | .lda k o => some (k, (x.al.toNat + x.ah.toNat * 4096 + o.toNat) % 2 ^ 24, st, x)
  | .ldx k o => some (k, (x.al.toNat + x.ah.toNat * 4096 + x.ix.toNat) % 2 ^ 24, st, { x with ix := x.ix + o.setWidth 12 })
  | .ld k => match st with
    | hi :: lo :: l => some (k, lo.toNat + hi.toNat * 4096, l, x)
    | _ => none
  | _ => none

/-- A store: its address, the cell stored, the cells that stay, and the registers after (R362). -/
def storeOp (x : Keeper) (st : List Cell) : Instr → Option (Fin 4 × Nat × Cell × List Cell × Keeper)
  | .sta k o => match st with
    | c :: l => some (k, (x.al.toNat + x.ah.toNat * 4096 + o.toNat) % 2 ^ 24, c, l, x)
    | _ => none
  | .stx k o => match st with
    | c :: l => some (k, (x.al.toNat + x.ah.toNat * 4096 + x.ix.toNat) % 2 ^ 24, c, l, { x with ix := x.ix + o.setWidth 12 })
    | _ => none
  | .st k => match st with
    | hi :: lo :: c :: l => some (k, lo.toNat + hi.toNat * 4096, c, l, x)
    | _ => none
  | _ => none

/-- A return entry as the return stack holds it: 24 bits, and a parity bit for each half (R348, R354). -/
def sealedEntry (e : Nat) : BitVec 26 :=
  BitVec.ofNat 26 (e % 2 ^ 24 + (if oddOnes 12 e then 2 ^ 24 else 0) + (if oddOnes 12 (e / 4096) then 2 ^ 25 else 0))

/-- The return stack is `es`, the top first, all of it on chip, with room for eight more entries. -/
abbrev RReady (s : State) (k : Nat) (es : List Nat) : Prop :=
  (s.kpr k).rs = es.map sealedEntry ∧ (s.kpr k).rp = es.length ∧ es.length ≤ 24 ∧ (∀ e ∈ es, e < 2 ^ 24) ∧
    roomFor s k 5 (es.length + 8) = true ∧ (s.setBase k (s.kpr k).set 3).toOption.isSome = true

/-- The keeper with this return stack. -/
def withReturns (x : Keeper) (es : List Nat) : Keeper := { x with rs := es.map sealedEntry, rp := es.length }

/-- A + 1 + offset modulo 32,768, the offset signed in w bits (R361). -/
def relativeTarget (pc : Nat) {w : Nat} (off : BitVec w) : Nat := ((pc + 1 : Nat) + off.toInt).toNat % 32768 + (if (pc + 1 : Nat) + off.toInt < 0 then 32768 - (-((pc + 1 : Nat) + off.toInt)).toNat else 0)

/-- The history after a conditional branch (R387, R389). -/
def branchHistory (s : State) (k : Nat) (taken : Bool) : BitVec 8 :=
  if s.on Reg.KPR_CTRL_pred_off k then (s.kpr k).hist else (s.kpr k).hist * 2 + (if taken then 1 else 0)

/-- The registers of mask m as MCALL pushes them, the last pushed first (R364). -/
def maskedRegisters (x : Keeper) (m : BitVec 6) : List Nat :=
  (if m.getLsbD 5 then [x.v.toNat] else []) ++ (if m.getLsbD 4 then [x.u.toNat] else []) ++
    (if m.getLsbD 3 then [x.fl.toNat] else []) ++ (if m.getLsbD 2 then [x.jx.toNat] else []) ++
    (if m.getLsbD 1 then [x.ix.toNat] else []) ++ (if m.getLsbD 0 then [x.al.toNat + x.ah.toNat * 4096] else [])

/-- A plain, masked or gate return entry (R354). -/
def returnEntry (kind aux addr : Nat) : Nat := kind * 2 ^ 22 + aux * 2 ^ 16 + addr

/-- Every cell of gate entry g that ring r calls, and the fields of its cell 1 (R369). -/
def gateCells (s : State) (k r g : Nat) : List Nat :=
  (List.range 6).map fun c => match s.getTbl k (1 + r) g c with
    | .ok v => v
    | .error _ => 0

/-- The gate entry reads without a parity error. -/
def gateReads (s : State) (k r g : Nat) : Bool :=
  (List.range 6).all fun c => (s.getTbl k (1 + r) g c).toOption.isSome

/-- The predictor after a change from ring r to ring q by a gate or an event (R390). -/
def flushed (s : State) (k r q : Nat) (x : Keeper) : Keeper :=
  if s.on Reg.KPR_CTRL_pred_flush_on_gate k ∧ r ≠ q then { x with hist := 0, itt := [] } else x

/-- RG with another ring and ie. -/
def rgWith (x : Keeper) (ring : Nat) (ie dfl : Bool) : Cell :=
  BitVec.ofNat 12 (ring + (if ie then 4 else 0) + (if dfl then 8 else 0) + x.rg.toNat / 16 % 8 * 16 + x.rg.toNat / 256 * 256)

/-- Vector v of keeper k reads: its address, and a stack set that is the current one (R372). -/
def vectorTo (s : State) (k v : Nat) : Option Nat :=
  match s.getTbl k 0 v 0, s.getTbl k 0 v 1 with
  | .ok lo, .ok hi => if hi / 8 % 8 = (s.kpr k).set then some (lo + hi % 8 * 4096) else none
  | _, _ => none

/-- The keeper after entry to an event in ring q at address a (R374): AH:AL, IX, JX, FL, U, V, RG and the resume address on the
return stack, ie 0. -/
def entered (s : State) (k q a resume : Nat) (x : Keeper) (es : List Nat) : Keeper :=
  flushed s k x.ring q (withReturns { x with rg := rgWith x q false x.dfl, pc := a, waiting := false, inBlock := false }
    ([returnEntry 3 0 resume, x.rg.toNat, x.v.toNat, x.u.toNat, x.fl.toNat, x.jx.toNat, x.ix.toNat,
      x.al.toNat + x.ah.toNat * 4096] ++ es))

/-- The instructions that only raise a fault: their code and detail, and whether the handler resumes after them (R374, R375). -/
def faultOf : Instr → Option (Fin 4 × Nat × Nat × Bool)
  | .brk k => some (k, 7, 0, true)
  | .illegalInstruction k w =>
    some (k, 0, if w.toNat / 64 % 64 ∈ [0x0D, 0x0E, 0x0F, 0x2B, 0x2F, 0x3F] then 0 else 1, false)
  | _ => none

/-- The fault registers name a first fault (R375, R391). -/
abbrev FaultRecorded (t : State) (k code detail ring pc : Nat) : Prop :=
  t.rg Reg.KPR_FAULT_valid k = 1 ∧ t.rg Reg.KPR_FAULT_double k = 0 ∧ t.rg Reg.KPR_FAULT_code k = code ∧
    t.rg Reg.KPR_FAULT_detail k = detail ∧ t.rg Reg.KPR_FAULT_ring k = ring ∧ t.rg Reg.KPR_FAULT_PC_pc k = pc ∧
    t.rg Reg.KPR_FAULT_PC_micro k = 0

/-- The cells of an address one further on, the high one on top. -/
def pairAfter (a : Nat) : List Cell := [BitVec.ofNat 12 ((a + 1) % 2 ^ 24 / 4096), BitVec.ofNat 12 (a + 1)]

/-- The keeper between two elements of a block: operand cells `l` on top of `st` (R366). -/
def between (x : Keeper) (l st : List Cell) : Keeper :=
  { x with ds := (l ++ st).map store, sp := l.length + st.length, inBlock := true }

/-! ### Windows -/

/-- An address register after an access: with autoinc the lower field counts to its end, and then the upper one counts (R78, R152). -/
def nextAddr (inc : Bool) (low lowEnd high highEnd : Nat) : Nat × Nat :=
  if inc then (if low + 1 < lowEnd then (low + 1, high) else (0, (high + 1) % highEnd)) else (low, high)

/-- The fields of a reach table's window: rejected, autoinc, cell, entry, par_err; cells of an entry; entries. -/
structure Win where
  data : RegDef
  rejected : Field
  autoinc : Field
  cell : Field
  entry : Field
  par : Field
  cells : Nat
  entries : Nat
  table : Reach → Mem 13

/-- Crossbar table, net-slot map and berth map (R152, R217). -/
def windows : List Win :=
  [⟨Reg.RCH_XBT_DATA, Reg.RCH_XBT_ADDR_rejected, Reg.RCH_XBT_ADDR_autoinc, Reg.RCH_XBT_ADDR_cell, Reg.RCH_XBT_ADDR_step,
      Reg.RCH_XBT_DATA_par_err, 8, 1024, Reach.xbt⟩,
   ⟨Reg.RCH_NSM_DATA, Reg.RCH_NSM_ADDR_rejected, Reg.RCH_NSM_ADDR_autoinc, Reg.RCH_NSM_ADDR_cell, Reg.RCH_NSM_ADDR_slot,
      Reg.RCH_NSM_DATA_par_err, 3, 4096, Reach.nsm⟩,
   ⟨Reg.RCH_BMAP_DATA, Reg.RCH_BMAP_ADDR_rejected, Reg.RCH_BMAP_ADDR_autoinc, Reg.RCH_BMAP_ADDR_cell, Reg.RCH_BMAP_ADDR_berth,
      Reg.RCH_BMAP_DATA_par_err, 3, 4096, Reach.bmap⟩]

/-- A stored cell as a data register returns it: value in [11:0], par_err in [12]. -/
def cellWord (x : SCell) : Nat := (cellOf x).toNat + (if parityOk x then 0 else 4096)

/-- The command that accesses a window's data register. -/
def Win.Access (w : Win) (who : Requester) (a : Option Word) (c : Instr) : Prop :=
  (w.data = Reg.RCH_XBT_DATA ∧ c = .rchXbtData who a) ∨ (w.data = Reg.RCH_NSM_DATA ∧ c = .rchNsmData who a) ∨
    (w.data = Reg.RCH_BMAP_DATA ∧ c = .rchBmapData who a)

/-! ### Cluster operations -/

/-- An exact result clamped to a range, and whether it was clamped (R97). -/
def clamped (lo hi v : Int) : Cell × Bool := (BitVec.ofInt 12 (max lo (min hi v)), decide (v < lo) || decide (hi < v))

/-- A rotation of 12 bits left. -/
def rotated (a : Cell) (n : Nat) : Cell := BitVec.ofNat 12 (a.toNat * 2 ^ (n % 12) + a.toNat * 2 ^ (n % 12) / 4096)

/-- Result and flag of the word operations that write one cell (R94, R96 to R99): shift count n, carry or select bit c. -/
def wordTable (o : WordOp) (a b : Cell) (n : Nat) (c : Bool) : Option (Cell × Bool) :=
  let x : Int := a.toNat
  let y : Int := b.toNat
  let i := a.toInt
  let j := b.toInt
  let k : Int := if c then 1 else 0
  let nz := fun (r : Cell) => (r, decide (r ≠ 0))
  let cmp := fun (t : Bool) => ((if t then 1#12 else 0#12), t)
  let lost := decide (a.toNat % 2 ^ n ≠ 0)
  match o with
  | .add => some (BitVec.ofInt 12 (x + y), decide (4095 < x + y))
  | .adds => some (clamped (-2048) 2047 (i + j))
  | .addu => some (clamped 0 4095 (x + y))
  | .sub => some (BitVec.ofInt 12 (x - y), decide (x < y))
  | .subs => some (clamped (-2048) 2047 (i - j))
  | .subu => some (clamped 0 4095 (x - y))
  | .addc => some (BitVec.ofInt 12 (x + y + k), decide (4095 < x + y + k))
  | .subc => some (BitVec.ofInt 12 (x - y - k), decide (x < y + k))
  | .and => some (nz (a &&& b))
  | .or => some (nz (a ||| b))
  | .xor => some (nz (a ^^^ b))
  | .andn => some (nz (a &&& ~~~b))
  | .xnor => some (nz (~~~(a ^^^ b)))
  | .shl => some (BitVec.ofNat 12 (a.toNat * 2 ^ n), decide (a.toNat * 2 ^ n / 4096 ≠ 0))
  | .shr => some (BitVec.ofNat 12 (a.toNat / 2 ^ n), lost)
  | .sar => some (BitVec.ofInt 12 (i / 2 ^ n), lost)
  | .rshr => some (BitVec.ofInt 12 (if n = 0 then i else (i + 2 ^ (n - 1)) / 2 ^ n), lost)
  | .rol => some (rotated a n, false)
  | .fsr => some (BitVec.ofNat 12 ((b.toNat * 4096 + a.toNat) / 2 ^ n), false)
  | .ceq => some (cmp (decide (a = b)))
  | .cne => some (cmp (decide (a ≠ b)))
  | .clt => some (cmp (decide (i < j)))
  | .cltu => some (cmp (decide (x < y)))
  | .cle => some (cmp (decide (i ≤ j)))
  | .cleu => some (cmp (decide (x ≤ y)))
  | .min => some (if j < i then b else a, decide (j < i))
  | .max => some (if i < j then b else a, decide (i < j))
  | .minu => some (if y < x then b else a, decide (y < x))
  | .maxu => some (if x < y then b else a, decide (x < y))
  | .abs => some (clamped (-2048) 2047 (max i (-i)))
  | .neg => some (clamped (-2048) 2047 (-i))
  | .sel => some (if c then b else a, c)
  | .popc =>
    let ones := ((List.range 12).map fun m => if a.toNat.testBit m then 1 else 0).sum
    some (BitVec.ofNat 12 ones, decide (ones % 2 = 1))
  | _ => none

/-- q is a / 2^n rounded to the nearest integer, a tie to the even one (R98). -/
def NearestEven (a : Int) (n : Nat) (q : Int) : Prop :=
  -(2 ^ n : Int) ≤ 2 * (q * 2 ^ n - a) ∧ 2 * (q * 2 ^ n - a) ≤ 2 ^ n ∧
    (2 * (q * 2 ^ n - a) = 2 ^ n ∨ 2 * (q * 2 ^ n - a) = -(2 ^ n : Int) → q % 2 = 0)

/-- A slot that holds NOP, or a word operation whose near selector is unused, that always writes W register d from registers a and b. -/
def regSlot : SlotI → Option (Option (WordOp × Nat × Nat × Nat × Nat))
  | .nop => some none
  | .word o d a b p aux =>
    match operandOf d, operandOf a, operandOf b with
    | .reg d, .reg a, .reg b =>
      if p = ⟨27, false⟩ ∧ ([.add, .adds, .addu, .sub, .subs, .subu, .and, .or, .xor, .andn, .xnor, .ceq, .cne, .clt, .cltu, .cle,
          .cleu, .min, .max, .minu, .maxu] : List WordOp).contains o then some (some (o, d.toNat, a.toNat, b.toNat, aux.toNat % 16))
      else none
    | _, _, _ => none
  | _ => none

/-- What slot i of such a word gives on cluster x: its register, result and flag. -/
def slotGives (x : Cluster) (w : SlotI) : Option (Nat × Cell × Bool) :=
  match regSlot w with
  | some (some (o, d, a, b, n)) =>
    (wordTable o (cellOf (Mem.get x.rf a)) (cellOf (Mem.get x.rf b)) n false).map fun r => (d, r.1, r.2)
  | _ => none

/-- A partition of one reach with one cluster, about to issue a word of such slots that is not the design cycle's last: every enable set,
nothing in flight, no wait, stop, hold or repeat pending (R39, R41). -/
structure ReadyToIssue (s : State) (t r c : Nat) (w : List SlotI) : Prop where
  mode : s.mode = 1
  runs : s.running t = true
  part : (s.part t).stopped = false ∧ (s.part t).started = true ∧ (s.part t).holdReq = none ∧ (s.part t).bound = [r] ∧
    (s.part t).step + 1 < s.steps t ∧ (s.part t).step < 1023 ∧ (s.part t).begun = false ∧ (s.part t).memTaken = false ∧ (s.part t).fires = []
  enabled : s.on Reg.RCH_CTRL_enable r = true ∧ s.on Reg.CLU_CTRL_enable c = true ∧ s.on Reg.CLU_ROLE_retired c = false
  cluster : s.clustersOf t = [c] ∧ (s.clu c).issuing = true ∧ (s.clu c).st = 1 ∧ (s.clu c).inflight = [] ∧ (s.clu c).reads = [] ∧
    (s.clu c).stepReads = [] ∧ (s.clu c).lvl0 = none ∧ (s.clu c).lvl1 = none ∧ (s.clu c).pc ≠ s.rg Reg.CLU_PROG_last_word c ∧
    (s.clu c).t ≠ s.rg Reg.CLU_PROG_steps_m1 c
  reach : (s.rch r).following = false ∧ (s.rch r).transit = [] ∧ (s.rch r).handoff = [] ∧ (s.rch r).wb = []
  fetched : s.fetch c = .word w
  slots : w.length = 12 ∧ w.all (fun i => (regSlot i).isSome) = true
  parity : ∀ n, parityOk (Mem.get (s.clu c).rf n) = true

/-- The bit for slot i of a word: its flag, and whether it has one. -/
def flagBits (x : Cluster) (w : List SlotI) (has : Bool) : Cell :=
  BitVec.ofNat 12 (((List.range 12).map fun i =>
    if ((w[i]?).bind (slotGives x)).any fun g => has || g.2.2 then 2 ^ i else 0).sum)

/-- The writes that a word puts in flight: each result to its register, due after the relaxed distance 2 or the tight distance 1, in
slot order, then the implied bits of the slots that have one to cell t of value memory, due after 2 (R43, R44, R48, R117). -/
def wordWrites (x : Cluster) (tight : Bool) (w : List SlotI) : List InFlight :=
  ((List.range 12).filterMap fun i => ((w[i]?).bind (slotGives x)).map fun g =>
    { dest := .rf g.1, value := g.2.1, mask := 0xFFF, issued := x.gstep, due := x.gstep + (if tight then 1 else 2), slot := i,
      implied := false }) ++
  (if flagBits x w true = 0 then [] else
    [{ dest := .vm x.t, value := flagBits x w false, mask := flagBits x w true, issued := x.gstep, due := x.gstep + 2, slot := 12,
       implied := true }])

/-! ### Design memory -/

/-- A request of reach r for a line stands with this stamp, and the home may serve it: it is not waiting for a Wake, the line uses the
directory, and fence u - 24 has closed (R157, R167, R171). -/
structure Requested (s : State) (r line stamp : Nat) : Prop where
  request : ∃ own, (s.rch r).requests.find line = some (stamp, own, false)
  shared : s.bypasses line = false
  fence : s.fenceOpen r line stamp = true

/-- The home's answer to GetS (own false) or GetM (own true) from reach q for a line that is not busy: hbm is the line as HBM holds it,
whole the line as it stands, which an owner that holds it dirty and asks to write alone is granted; an owner whose writeback is on its
way is answered with that writeback (R170, R173). -/
def homeAnswer (hbm whole : List (BitVec 16)) (d : DirLine) (q : Nat) (holds own : Bool) : DirLine :=
  match d.st, own with
  | .invalid, false => { d with busy := some q, forOwn := own, fwd := false, data := some hbm, owner := q, sharers := [q], st := .shared }
  | .shared, false =>
    { d with busy := some q, forOwn := own, fwd := false, data := some hbm, sharers := (d.sharers.filter (· ≠ q)) ++ [q] }
  | .invalid, true | .shared, true =>
    { d with busy := some q, forOwn := own, fwd := false, data := some hbm, owner := q, sharers := [], st := .modified }
  | .owned, false | .modified, false => { d with busy := some q, forOwn := own, fwd := true, data := none }
  | .owned, true | .modified, true =>
    if d.owner = q ∧ holds = true then
      { d with busy := some q, forOwn := own, fwd := false, data := some whole, sharers := [], st := .modified }
    else { d with busy := some q, forOwn := own, fwd := true, data := none, sharers := [] }

/-- Only the directory entry of a line has changed, into d. -/
abbrev DirIs (s t : State) (line : Nat) (d : DirLine) : Prop := t.dirLine line = d ∧ ∀ l, l ≠ line → t.dirLine l = s.dirLine l

/-- Directory, reach units and HBM apart, nothing has changed. -/
abbrev HomeOnly (s t : State) : Prop := { t with dir := s.dir, reaches := s.reaches, hbm := s.hbm } = s

/-- The bytes of a line in HBM. -/
def lineBytes (l : List (BitVec 16)) : List Byte := l.flatMap fun (h : BitVec 16) => [h.setWidth 8, (h >>> 8).setWidth 8]

/-! ### Links -/

/-- Register fields but those of the listed keys, the fault log's and the weir's, which every logged event may write, stay. -/
abbrev RegsBeside (s t : State) (keys : List Nat) : Prop :=
  ∀ key, key ∉ keys → key / 2 ^ 41 ≠ 6 → key / 2 ^ 41 ≠ 12 → t.regs.find key = s.regs.find key

/-- Nothing but register fields, links, and what a logged event writes (interrupt sources, MSI-X, fault log, weir and its ring) has
changed. -/
abbrev LinksOnly (s t : State) : Prop :=
  { t with regs := s.regs, links := s.links, irq := s.irq, msix := s.msix, hostOut := s.hostOut, weir := s.weir, tst := s.tst,
           hbm := s.hbm } = s

/-- Every link but those listed stays. -/
abbrev LinksBut (s t : State) (ls : List Nat) : Prop := ∀ k, k ∉ ls → t.lnk k = s.lnk k

/-- Barge b reaches link l whole: no uncorrectable codeword touched it, and its CRC passes (R225, R228). -/
abbrev Sound (s : State) (l : Nat) (b : Barge) : Prop :=
  (s.lnk l).spoiled.getLsbD (s.lnk l).bargeNo = false ∧ crcOk b = true

/-- The receiver once a barge has arrived: it stands at the next place of the train (R223, R225). -/
def atNextBarge (x : Link) : Link :=
  if x.bargeNo = 9 then { x with bargeNo := 0, spoiled := 0 } else { x with bargeNo := x.bargeNo + 1 }

/-- A failure at the receiver: a status barge is due; it opens an episode, advances the expected round and asks for a replay (R230,
R233). -/
def failedOnce (x : Link) : Link :=
  if x.episode then { x with statusDue := true }
  else { x with episode := true, expRound := (x.expRound + 1) % 16, nak := true, statusDue := true }

/-- What the ack of a link barge, of whichever kind, does to the transmitter: it frees barges of the replay buffer (R227, R231). -/
def ackTaken (x : Link) (b : Barge) : Link :=
  let n := subMod 12 (bcell b 0) x.acked
  if 0 < n ∧ n ≤ x.window.length then
    { x with acked := bcell b 0, window := x.window.drop n, replayRuns := 0,
             replaying := x.replaying.drop (x.replaying.length - (x.window.length - n)) }
  else x

/-- What a status barge does to the transmitter: its ack, and the paddles freed since its last report are added (R231, R238). -/
def statusTaken (x : Link) (b : Barge) : Link :=
  { ackTaken x b with
    pad1 := x.pad1 + subMod 12 (bcell b 3) x.seen1, pad2 := x.pad2 + subMod 12 (bcell b 4) x.seen2,
    pad3 := x.pad3 + subMod 12 (bcell b 5) x.seen3, seen1 := bcell b 3, seen2 := bcell b 4, seen3 := bcell b 5 }

/-- Link x with one more barge sent, while its train has room for it. -/
def withSent (x : Link) (b : Barge) : Link := { x with sent := x.sent ++ [b], train := x.train ++ [b] }

/-- The lane-swap barge of one end: acknowledging, grant, announce, slot and train, in its replay round (R227, R229, R258). -/
def laneSwapBarge (x : Link) (round : Nat) (grant announce : Bool) (slot train : Nat) : Barge :=
  linkBarge ((x.expected + 4095) % 4096) 1
    [(if grant then 2048 else 0) + (if announce then 512 else 0) + slot, train % 4096, train / 4096] round

/-- An empty leaky bucket of the link gains 1 without filling. -/
abbrev BucketSpare (s : State) (l : Nat) : Prop := s.bucket 7 l + 1 < s.threshold 7

/-- A link that has retired: quiet, nothing left to send again, behind its planks (R260). -/
structure Retired (s t : State) (l : Nat) : Prop where
  state : t.rg Reg.AQ_STATUS_state l = 9
  cause : t.on Reg.AQ_CAUSE_retired l = true
  window : (t.lnk l).window = [] ∧ (t.lnk l).replaying = []
  queues : (t.lnk l).q0 = [] ∧ (t.lnk l).q1 = [] ∧ (t.lnk l).q2 = [] ∧ (t.lnk l).q3 = []
  others : LinksBut s t [l]

/-- Keys of what retirement, retraining and a lane swap change of a link's registers. -/
def linkKeys (l : Nat) : List Nat :=
  [fieldKey Reg.AQ_STATUS_state l 0, fieldKey Reg.AQ_CAUSE_retired l 0, fieldKey Reg.AQ_CAUSE_lane_fail l 0]

/-- No partition has unacknowledged barges of its own on link l, so that its retirement rolls nothing back. -/
abbrev NothingUnacked (s : State) (l : Nat) : Prop := s.unacked l = []

/-- A link at the start of a training state: no lane equalized or aligned, no peer accepted (R247). -/
def trainingAnew (x : Link) : Link :=
  { x with goodWords := 0, equalized := [], aligned := [], peerOk := false, peerEcho := false, echoSent := false,
           refused := false, sub := 3 }

/-- No barge waits on link l, and its train has room for one more. -/
abbrev NothingWaits (s : State) (l : Nat) : Prop := (s.lnk l).waitingAll = [] ∧ (s.lnk l).train.length < 9

/-- A turn of VC1 or VC3 once VC vc has taken a slot: what it has earned while it was ready, lost when it is not, spent when taken
(R237). -/
def turnAfter (ready : Prop) [Decidable ready] (run mine vc : Nat) : Nat :=
  if ready ∧ vc ≠ mine then (if vc = 0 then run + 1 else if run < 15 then 0 else run) else 0

/-- The status barge that the receiver half of a link sends, in the replay round of the link (R227, R229, R230). -/
def statusOf (x : Link) (round : Nat) : Barge :=
  linkBarge ((x.expected + 4095) % 4096) 0
    [(if x.nak then 2048 else 0) + x.expRound * 128, x.freed1 % 4096, x.freed2 % 4096, x.freed3 % 4096] round

/-- The link after a status barge. -/
def statusSent (x : Link) (round : Nat) : Link := withSent { x with sinceStatus := 0, statusDue := false } (statusOf x round)

/-- The link after it has sent the oldest barge of its own device that waits on a VC: numbered, kept until acknowledged, in the round
of the link (R231, R236). -/
def newSent (x : Link) (vc round : Nat) (b : Barge) : Link :=
  let b := sealBarge b x.txSeq round
  withSent { x with txSeq := (x.txSeq + 1) % 4096, window := x.window ++ [b], sinceStatus := x.sinceStatus + 1,
                    served := x.served.put vc 16 } b

/-- The slot of a lane map that lane n carries. -/
abbrev CarriesSlot (s : State) (l lane k : Nat) : Prop :=
  (List.range 4).find? (fun j => decide (bits (s.rg Reg.AQ_LANEMAP_rx_map l) (3 * j) 3 = lane)) = some k

/-- The spare of link l can still take slot k: it is neither used nor lost, and no other slot has asked for it (R257, R258). -/
abbrev SpareFor (s : State) (l k : Nat) (x : Link) : Prop :=
  s.on Reg.AQ_STATUS_spare_used l = false ∧ x.rxSpareLost = false ∧ (x.rxAsk = none ∨ x.rxAsk = some k)

/-- A lane of link l fails for good: its slot is asked onto the spare, or, with no spare left for it, the link retires (R257 to R259). x
is the link as it then stands. -/
structure LaneGone (s t : State) (l k : Nat) (x : Link) : Prop where
  frame : LinksOnly s t
  spared : SpareFor s l k x → t.regs = s.regs ∧
    LinkIs s t l (withSent { x with rxAsk := some k, sinceStatus := x.sinceStatus + 1 } (laneSwapBarge x (s.rg Reg.AQ_STATUS_round l) false false k 0))
  lost : ¬ SpareFor s l k x →
    Retired s t l ∧ t.on Reg.AQ_CAUSE_lane_fail l = true ∧ RegsBeside s t (linkKeys l)

/-- Keys of the fields of AQ_CTRL and AQ_STATUS.state of a link, and of its quadrant's power domain. -/
def ctrlKeys (l : Nat) : List Nat :=
  [fieldKey Reg.AQ_CTRL_enable l 0, fieldKey Reg.AQ_CTRL_retire l 0, fieldKey Reg.AQ_CTRL_test l 0, fieldKey Reg.AQ_CTRL_bridge_ok l 0,
   fieldKey Reg.AQ_CTRL_reach l 0, fieldKey Reg.AQ_STATUS_state l 0, fieldKey Reg.PWR_DOM_state (24 + l / 4) 0,
   fieldKey Reg.PWR_DOM_clamped (24 + l / 4) 0]

/-- Keys of the state of the checkers of a link's lanes. -/
def checkerKeys (l : Nat) : List Nat :=
  (List.range 5).flatMap fun n => [fieldKey Reg.AQ_PRBS_locked (5 * l + n) 0, fieldKey Reg.AQ_PRBS_ERR_errors (5 * l + n) 0]

/-- Every link of l's quadrant but l is Off. -/
abbrev AloneInQuadrant (s : State) (l : Nat) : Prop := ∀ k < 4, 4 * (l / 4) + k ≠ l → s.rg Reg.AQ_STATUS_state (4 * (l / 4) + k) = 0

/-- Links, registers, the queue of domain switches and the numbering of free choices apart, nothing has changed. -/
abbrev LinkControlOnly (s t : State) : Prop :=
  LinksOnly s { t with power := { t.power with switches := s.power.switches }, freeCtr := s.freeCtr }

/-! ### The lock unit -/

/-- The VC2 message that this device sends next for tenant t (R242, R245). -/
def towpath (s : State) (t dest type : Nat) (body : List Nat) : Barge :=
  seqBarge 2 0 1 dest (s.rg Reg.AQ_DEVID_devid) (s.rg Reg.AQ_SPNt_spn t) ([type, (s.aliveOwn + 1) % 4096] ++ body)

/-- VC2 of a link with one more message of a type: a lock-flight or stop message passes the ALARM messages that wait, and any other
goes last (R237, R286, R445, R489). -/
def vc2After (q : List Waiting) (type : Nat) (w : Waiting) : List Waiting :=
  if type ∈ [0x010, 0x011, 0x012, 0x013, 0x014, 0x015, 0x016, 0x017, 0x020, 0x021] then
    q.filter (fun v => decide (bcell v.barge 5 ≠ 0x030)) ++ [w] ++ q.filter (fun v => decide (bcell v.barge 5 = 0x030))
  else q ++ [w]

/-- One message of tenant t has gone to a device: it waits on VC2 of the link of its route, and no other link has changed; one for
this device waits here (R237, R245, R252 to R254, R489). -/
structure MessageSent (s u : State) (t dest type : Nat) (body : List Nat) : Prop where
  alive : u.aliveOwn = (s.aliveOwn + 1) % 4096
  queued : dest ≠ s.rg Reg.AQ_DEVID_devid → ∀ l ∈ s.route dest,
    LinkIs s u l { s.lnk l with q2 := vc2After (s.lnk l).q2 type ⟨16, towpath s t dest type body, 2⟩ }
  own : dest = s.rg Reg.AQ_DEVID_devid → u.ownBarges = s.ownBarges ++ [towpath s t dest type body]

/-- No page has failed or been retired, and no substitution waits for a lock or a rollback, so that a commit or a restore is only that
(R332, R333). -/
abbrev Untroubled (s : State) (t : Nat) : Prop := s.pagesBad = [] ∧ s.pagesRetired = [] ∧ (s.part t).plans = []

/-- A lock number as two body cells, low first (R286). -/
abbrev cells2 (n : Nat) : List Nat := [n % 4096, n / 4096 % 4096]

/-- Units that a lock flight leaves alone: clusters, keepers, directory, ledger, and every other partition. -/
abbrev FlightFrame (s u : State) (t : Nat) : Prop :=
  u.clusters = s.clusters ∧ u.keepers = s.keepers ∧ u.dir = s.dir ∧ u.ledger = s.ledger ∧ PartsBut s u [t]

/-- Lock `lock` has committed on this device: it is the newest, the one before it the older, no other slot is left, its outputs have
gone, and the next pound begins (R271, R288, R293, R298, R308). -/
structure Committed (s u : State) (t lock : Nat) (export_ : Bool) : Prop where
  frame : FlightFrame s u t
  newest : u.rg Reg.LCK_CKPTt_newest t = lock
  older : lock ≠ s.rg Reg.LCK_CKPTt_newest t →
    u.on Reg.LCK_CKPT_OLDt_valid t = true ∧ u.rg Reg.LCK_CKPT_OLDt_older t = s.rg Reg.LCK_CKPTt_newest t
  slots : (u.part t).ckpts = ((s.part t).ckpts.filter fun k => k.lock = lock ∨ k.lock = s.rg Reg.LCK_CKPTt_newest t).map fun k =>
    if k.lock = lock then { k with committed := true, released := s.on Reg.LCK_STATUSt_released t } else k
  outputs : (u.part t).outs = (s.part t).outs.filter fun o => o.pound ≠ lock
  pound : u.rg Reg.LCK_POUNDt_pound t = (lock + 1) % 2 ^ 24 ∧ u.rg Reg.LCK_STATUSt_dcycle t = 0
  begun : (u.part t).atLock = false ∧ (u.part t).ready = false ∧ (u.part t).arrived = [] ∧ (u.part t).undoNow = [] ∧
    (u.part t).rollbacks = 0
  status : u.on Reg.LCK_STATUSt_released t = false ∧ u.on Reg.LCK_CAUSEt_committed t = true ∧ u.on Reg.LCK_HORIZONt_valid t = false
  exported : (export_ = true → s.on Reg.LCK_EXPORTt_busy t = false → u.on Reg.LCK_EXPORTt_busy t = true ∧ (u.part t).exporting = u.slotOf t lock) ∧
    (export_ = true → s.on Reg.LCK_EXPORTt_busy t = true → u.on Reg.LCK_CAUSEt_export_skipped t = true)
  started : (s.part t).starting = true → u.rg Reg.WHF_TSTAT_mode t = 2 ∨ u.rg Reg.WHF_TSTAT_mode t = 3

/-- Actions 1 to 5 of a ROLLBACK have been carried out: the new epoch, issue stopped with every write complete that was due within the
longest latency, caches, buffers, berths and holds empty, the horizon recorded (R298, R302). -/
structure RolledBack (s u : State) (t target epoch : Nat) (replay : Bool) : Prop where
  others : PartsBut s u [t]
  epoch : u.rg Reg.LCK_STATUSt_epoch t = epoch
  phase : u.rg Reg.LCK_STATUSt_phase t = 4
  mode : replay = true → u.rg Reg.WHF_TSTAT_mode t = 5
  horizon : u.on Reg.LCK_HORIZONt_valid t = true
  part : (u.part t).target = target ∧ (u.part t).restoreDone = false ∧ (u.part t).atLock = false ∧ (u.part t).stopped = false ∧
    (u.part t).step = 0 ∧ (u.part t).started = false ∧ (u.part t).rollbacks = (s.part t).rollbacks + 1 ∧
    (u.part t).ckpts = (s.part t).ckpts.filter fun k => k.committed
  clusters : ∀ c ∈ s.clustersOf t, (u.clu c).reads = [] ∧ (u.clu c).stopBit = none ∧
    ((∀ w ∈ (s.clu c).inflight, w.due ≤ (s.clu c).gstep + 24) → (u.clu c).inflight = [])
  reaches : ∀ r ∈ (s.part t).bound, (u.rch r).cache = [] ∧ (u.rch r).writeback = [] ∧ (u.rch r).wb = [] ∧ (u.rch r).tlb = [] ∧
    (∀ e ∈ (u.rch r).berths, e.2.valid = false) ∧ (u.rch r).outstanding = [] ∧ (u.rch r).holds = [] ∧ (u.rch r).waits = []
  counted : u.rg Reg.LCK_CNT_ROLLBACKt_rollbacks t = satAdd 65535 (s.rg Reg.LCK_CNT_ROLLBACKt_rollbacks t) 1
  outside : u.ledger = s.ledger ∧ u.routes = s.routes
  keepers : (∀ p < 16, p ≠ t → (s.part p).hooksOpen = []) → u.keepers = s.keepers

/-- The partition's share here is suspended: it issues nothing more, its commands have completed, and the tenant has its fault with the
reason (R309, R441). -/
structure Suspended (s u : State) (t reason : Nat) : Prop where
  frame : FlightFrame s u t
  reaches : u.reaches = s.reaches
  mode : u.rg Reg.WHF_TSTAT_mode t = 7 ∧ u.rg Reg.LCK_STATUSt_phase t = 6
  cause : u.on Reg.LCK_CAUSEt_suspended t = true
  part : (u.part t).openCmds = [] ∧ (u.part t).holdReq = none ∧ (u.part t).ckpts = (s.part t).ckpts
  fault : s.qopen t 2 = false → (s.faults.get t []).length < 64 → (u.faults.get t []) = s.faults.get t [] ++ [⟨1, 1, 0, reason⟩]

/-- Device-local root of a partition without children: nothing is forwarded. -/
abbrev Alone (s : State) (t : Nat) : Prop := s.multi t = false ∧ s.children t = []

/-- The partition stands at the lock with its capture sealed and may send its ARRIVE once its children have sent theirs (R281, R287). -/
structure ReadyAtLock (s : State) (t : Nat) : Prop where
  part : (s.part t).atLock = true ∧ (s.part t).ready = true ∧ (s.part t).captureFail = false
  phase : s.rg Reg.LCK_STATUSt_phase t = 2
  outputs : s.outputsGone t = true
  running : s.suspended t = false

/-- No keeper serves the tenant, so no hook is raised (R381). -/
abbrev NoHooks (s : State) (t : Nat) : Prop := ∀ k < 4, s.serves k t = false

/-- The device is a leaf below device d: its parent, to which a route leads. -/
structure LeafBelow (s : State) (t d : Nat) : Prop where
  many : s.multi t = true
  root : s.isRoot t = false
  parent : s.parent t = some d
  route : (s.route d).isSome = true

/-- The partition goes on in Replay when it resumes: in that mode, or on the way to it, with something left to run again, or held in a
replay (R302, R314, R508). -/
abbrev ReplayGoesOn (s : State) (t : Nat) : Prop :=
  let mode := s.rg Reg.WHF_TSTAT_mode t
  ((mode = 5 ∨ mode = 6) ∧ s.on Reg.LCK_STATUSt_reexec t = true) ∨ ((mode = 3 ∨ mode = 4) ∧ (s.part t).heldReplay = true)

/-- What a ROLLBACK of the root's for its partition t keeps: Replay, for a partition in it or on its way back into it (R313, R314). -/
abbrev RollsInReplay (s : State) (t : Nat) : Prop :=
  let mode := s.rg Reg.WHF_TSTAT_mode t
  let phase := s.rg Reg.LCK_STATUSt_phase t
  mode = 5 ∨ mode = 6 ∨ ((mode = 3 ∨ mode = 4) ∧ (s.part t).heldReplay = true) ∨ ((phase = 4 ∨ phase = 5) ∧ (s.part t).replayRun = true)

/-- The lock that the root rolls back to on a REQ: the older one when it is asked for and held, in a restore its own target, else the
newest (R301, R305, R339). -/
def rollTarget (s : State) (t : Nat) (older : Bool) : Nat :=
  let phase := s.rg Reg.LCK_STATUSt_phase t
  if older = true ∧ s.on Reg.LCK_CKPT_OLDt_valid t = true then s.rg Reg.LCK_CKPT_OLDt_older t
  else if phase = 4 ∨ phase = 5 then (s.part t).target
  else s.rg Reg.LCK_CKPTt_newest t

/-! ### Interrupts, faults, keepers' registers -/

/-- The place in order that a source takes which begins to pend now: after every other (R339). -/
def nextPlace (s : State) : Nat := (s.irq.map fun e => e.2.turn).foldl max 0 + 1

/-- Source n after one more edge: pending, its count saturating at 15 (R393), in the order of the requests where it was not (R339). -/
def afterEdge (s : State) (n : Nat) : Src :=
  { s.src n with pending := true, count := min 15 ((s.src n).count + 1),
                 turn := if (s.src n).pending = true then (s.src n).turn else nextPlace s }

/-- Every source but those listed stays. -/
abbrev SrcsBut (s t : State) (l : List Nat) : Prop := ∀ m, m ∉ l → t.src m = s.src m

/-- Only source n has changed, into x. -/
abbrev SrcIs (s t : State) (n : Nat) (x : Src) : Prop := t.src n = x ∧ SrcsBut s t [n]

/-- Nothing but sources and the message that the host's request becoming active sends (vector 8) has changed (R405, R444). -/
abbrev IrqOnly (s t : State) : Prop := { t with irq := s.irq, msix := s.msix, hostOut := s.hostOut } = s ∧
  (s.hostRequest = true ∨ t.hostRequest = false → t.msix = s.msix ∧ t.hostOut = s.hostOut)

/-- One edge on the source at place n, and nothing else. -/
abbrev Raised (s t : State) (n : Nat) : Prop := SrcIs s t n (afterEdge s n) ∧ IrqOnly s t

/-- The claimed numbers that stand for a source (R397). -/
abbrev claimedSource (n : Nat) : Prop :=
  n ≤ 8 ∨ (16 ≤ n ∧ n ≤ 19) ∨ (32 ≤ n ∧ n ≤ 91) ∨ (96 ≤ n ∧ n ≤ 134) ∨ (192 ≤ n ∧ n ≤ 255)

/-- Where source n lies: 0 to 15 in the bank of a keeper (R400). -/
def placeOf (keeper n : Nat) : Nat := if n < 16 then 1024 + 16 * keeper + n else n

/-- Source n at place p wins target T's arbitration: eligible, and every other eligible source has a lower priority, or the same and a
higher number (R404). -/
abbrev Wins (s : State) (T n p : Nat) : Prop :=
  s.candidatesFor T ≠ [] ∧ (n, p) ∈ s.candidatesFor T ∧ ∀ b ∈ s.candidatesFor T, (s.src b.2).prio < (s.src p).prio ∨
    ((s.src b.2).prio = (s.src p).prio ∧ n ≤ b.1 ∧ (b.1 = n → b = (n, p)))

/-- A keeper's reset: its registers, stacks, semaphores, claims and predictor go, its memories stay (R376, R382, R414). -/
structure KeeperReset (s t : State) (k : Nat) (run : Bool) : Prop where
  keeper : let x := s.kpr k
    t.kpr k = { image := x.image, gold := x.gold, prog := x.prog, data := x.data, tbl := x.tbl, tblCopy := x.tblCopy, hookTaken := x.hookTaken,
                maskAge := x.maskAge }
  others : ∀ j < 4, j ≠ k → (t.kpr j).prog = (s.kpr j).prog ∧ (t.kpr j).pc = (s.kpr j).pc ∧ (t.kpr j).ds = (s.kpr j).ds
  run : t.on Reg.KPR_CTRL_run k = run
  cause : t.rg Reg.KPR_STATUS_rst_cause k = 1
  sems : t.sems = s.sems.filter fun e => e.2 ≠ k
  claims : ∀ e ∈ s.irq, (s.src e.1).active = true → (s.src e.1).claimer = k → (t.src e.1).active = false ∧ (t.src e.1).pending = true
  rest : t.clusters = s.clusters ∧ t.reaches = s.reaches ∧ t.parts = s.parts ∧ t.hbm = s.hbm ∧ t.links = s.links

/-! ### The host interface -/

/-- The link is not in L1 or L1.2, which a request of the host would bring it out of first (R453). -/
abbrev LinkUp (s : State) : Prop := s.power.linkState ≠ 1 ∧ s.power.linkState ≠ 2

/-- The function exists: the PF, or a VF that VF Enable and NumVFs bring out (R418). -/
abbrev FnPresent (s : State) (f : Nat) : Prop := f = 0 ∨ ((s.fn 0).vfEnable = true ∧ f ≤ (s.fn 0).numVfs)

/-- The function serves memory requests: present, enabled, in D0, the device out of Bring-up (R418, R420, R421). -/
abbrev FnServed (s : State) (f : Nat) : Prop :=
  s.rg Reg.PWR_MODE_mode 0 ≠ 0 ∧ FnPresent s f ∧ (s.fn f).d3hot = false ∧ (if f = 0 then (s.fn 0).memEnable else (s.fn 0).vfMem) = true

/-- The host's request has completed: 0 successfully, 1 as an Unsupported Request, 2 with Configuration Request Retry Status. -/
abbrev replyOf (s : State) (code : Nat) : State := { s with power := { s.power with reply := code } }

/-- A memory request of function f completes as an Unsupported Request, which the function's AER and Device Status record (R418, R420;
the bits' places are those of log entry 25). -/
abbrev unsupportedBy (s : State) (f : Nat) : State :=
  (replyOf s 1).setFn f { s.fn f with aer := (s.fn f).aer.put 1 (Nat.lor ((s.fn f).aer.get 1 0) (2 ^ 20)), devSta := Nat.lor (s.fn f).devSta 8 }

/-- The command is one by which the host writes a function's doorbell page. -/
abbrev PageWrite (fn : Fin 16) (v : Word) (vector : BitVec 4) (c : Instr) : Prop :=
  c = .whfSqTail fn v ∨ c = .whfCqHead fn v ∨ c = .whfFqHead fn v ∨ c = .whfOqHead fn v ∨ c = .whfAreaHead fn v ∨ c = .whfStop fn v ∨
    c = .whfQcfg fn v ∨ c = .preset fn v ∨ c = .msixUnmask fn vector

/-- The device takes commands and doorbells (R505). -/
abbrev TakesCommands (s : State) : Prop := s.rg Reg.PWR_MODE_mode 0 = 1 ∨ s.rg Reg.PWR_MODE_mode 0 = 2

/-- A completion entry but for its phase and CRC (R439). -/
def completionBytes (s : State) (t cmd status kind r0 r1 r2 : Nat) : List Byte :=
  leBytes 2 cmd ++ leBytes 1 status ++ leBytes 1 kind ++ leBytes 2 (s.rg Reg.WHF_QCFG_dptr (8 * t)) ++ [0, 0] ++ leBytes 8 r0 ++
    leBytes 8 r1 ++ leBytes 4 r2

/-- A fault entry but for its phase and CRC (R441). -/
def faultBytes (s : State) (t type count record detail : Nat) : List Byte :=
  leBytes 2 type ++ leBytes 2 (min count 65535) ++ leBytes 4 (s.rg Reg.LCK_CKPTt_newest t) ++ leBytes 8 record ++
    leBytes 8 (s.part t).hdr.imageId ++ leBytes 2 detail ++ [0, 0]

/-- An entry as it is written: its phase in the top bit of byte n, and the CRC with the alive value folded in (R425, R426). -/
def stamped (x : Queue) (n : Nat) (l : List Byte) : List Byte :=
  let body := l.zipIdx.map fun e => if x.phase = true ∧ e.2 = n then e.1 ||| 0x80#8 else e.1
  body ++ leBytes 4 (crcAlive x.ordinal body)

/-- The messages that vector v of a function sends now: none while it is masked (R444). -/
def messages (s : State) (fn v : Nat) : List HostWrite :=
  let x := s.msix.get (16 * fn + v) {}
  if x.masked = true ∨ (s.fn fn).d3hot = true then [] else [⟨x.addr, leBytes 4 x.data, false⟩]

/-- Where an entry of n bytes goes in the queue of a kind (R424). -/
def entryAddr (s : State) (fn kind n : Nat) : Nat := s.qbase (8 * fn + kind) + s.rg Reg.WHF_QCFG_dptr (8 * fn + kind) * n

/-- Only queue q has changed, into x. -/
abbrev QueueIs (s t : State) (q : Nat) (x : Queue) : Prop := t.queue q = x ∧ ∀ p, p ≠ q → t.queue p = s.queue p

/-- What a posting may change apart from the queue itself. -/
abbrev PostingOnly (s u : State) : Prop := { u with regs := s.regs, queues := s.queues, hostOut := s.hostOut, msix := s.msix } = s

/-- Entry l, with its phase in byte n, has been written to a device queue: to host memory, then its messages (R425, R426, R444). -/
structure Written (s u : State) (fn kind n : Nat) (l : List Byte) : Prop where
  out : u.hostOut = s.hostOut ++ [⟨entryAddr s fn kind (l.length + 4), stamped (s.queue (8 * fn + kind)) n l, false⟩] ++
    (if s.rg Reg.WHF_TCTRL_coalesce fn = 0 then messages s fn (kind - 1) else []) ++
    (if kind = 1 ∧ l[3]? = some 4#8 then messages s fn 3 else [])
  batch : s.rg Reg.WHF_TCTRL_coalesce fn ≠ 0 → (u.msix.get (16 * fn + (kind - 1)) {}).batch = true
  queue : QueueIs s u (8 * fn + kind) { s.queue (8 * fn + kind) with
    ordinal := ((s.queue (8 * fn + kind)).ordinal + 1) % 4096,
    phase := if s.rg Reg.WHF_QCFG_dptr (8 * fn + kind) + 1 = s.qlen (8 * fn + kind) then !(s.queue (8 * fn + kind)).phase
             else (s.queue (8 * fn + kind)).phase }
  dptr : u.rg Reg.WHF_QCFG_dptr (8 * fn + kind) = (s.rg Reg.WHF_QCFG_dptr (8 * fn + kind) + 1) % s.qlen (8 * fn + kind)
  regs : RegsBut s u [fieldKey Reg.WHF_QCFG_dptr (8 * fn + kind) 0]
  frame : PostingOnly s u

/-- Entry l goes to a device queue: written at once, or, the queue being full, disabled or already holding, held behind what it holds
(R427). -/
structure Queued (s u : State) (fn kind n : Nat) (l : List Byte) : Prop where
  now : s.qopen fn kind = true → (s.queue (8 * fn + kind)).held = [] → Written s u fn kind n l
  later : s.qopen fn kind = false ∨ (s.queue (8 * fn + kind)).held ≠ [] →
    u = s.setQueue (8 * fn + kind) { s.queue (8 * fn + kind) with held := (s.queue (8 * fn + kind)).held ++ [⟨l⟩] }

/-- The completion of a command of tenant t (R429, R439). -/
abbrev Completes (s u : State) (t : Nat) (cmd : BitVec 16) (status r0 : Nat) : Prop :=
  Queued s u t 1 7 (completionBytes s t cmd.toNat status 0 r0 0 0)

/-- As Queued, in company of other effects on the host's side. -/
structure CompletionPosted (s u : State) (t : Nat) (l : List Byte) : Prop where
  now : s.qopen t 1 = true → (s.queue (8 * t + 1)).held = [] →
    ⟨entryAddr s t 1 32, stamped (s.queue (8 * t + 1)) 7 l, false⟩ ∈ u.hostOut
  later : s.qopen t 1 = false ∨ (s.queue (8 * t + 1)).held ≠ [] → (u.queue (8 * t + 1)).held = (s.queue (8 * t + 1)).held ++ [⟨l⟩]

/-- The same fault: type and record (R443). -/
abbrev sameFault (f g : FaultRec) : Bool := decide (f.type = g.type) && decide (f.record = g.record)

/-- A fault of a tenant: written to its fault queue, or held, or counted with a held one (R441 to R443). -/
structure FaultPosted (s u : State) (t type count record detail : Nat) : Prop where
  qerr : type = 7 → u.on Reg.WHF_TSTAT_qerr t = true ∧ u.src (112 + t) = afterEdge s (112 + t)
  now : s.qopen t 2 = true → s.faults.get t [] = [] →
    ⟨entryAddr s t 2 32, stamped (s.queue (8 * t + 2)) 0x1B (faultBytes s t type count record detail), false⟩ ∈ u.hostOut ∧
      u.faults.get t [] = []
  held : (s.qopen t 2 = false ∨ s.faults.get t [] ≠ []) → (s.faults.get t []).length < 64 →
    u.faults.get t [] = s.faults.get t [] ++ [⟨type, count, record, detail⟩]
  counted : 64 ≤ (s.faults.get t []).length → (s.faults.get t []).any (sameFault ⟨type, count, record, detail⟩) = true →
    u.faults.get t [] = (s.faults.get t []).map fun g =>
      if sameFault ⟨type, count, record, detail⟩ g = true then { g with count := min 65535 (g.count + count) } else g
  merged : 64 ≤ (s.faults.get t []).length → (s.faults.get t []).any (sameFault ⟨type, count, record, detail⟩) = false →
    u.on Reg.WHF_TSTAT_fq_merged t = true ∧ (u.faults.get t []).length = (s.faults.get t []).length ∧
    (u.faults.get t []).dropLast = (s.faults.get t []).dropLast ∧
    (∀ g ∈ (s.faults.get t []).getLast?, (u.faults.get t []).getLast? = some { g with count := min 65535 (g.count + count) })

/-- The doorbell index of a queue or area (R454). -/
def doorbells : List Field :=
  [Reg.WHF_SQ_TAIL_index, Reg.WHF_CQ_HEAD_index, Reg.WHF_FQ_HEAD_index, Reg.WHF_OQ_HEAD_index, Reg.WHF_AREA_HEAD_export,
   Reg.WHF_AREA_HEAD_log]

/-- n bytes of a submission entry, from byte i (R428). -/
def entryField (e i n : Nat) : Nat := e / 2 ^ (8 * i) % 2 ^ (8 * n)

/-- The entry that has been read for tenant t, if any, is this command: its opcode, its id, and each operand that it uses, given by its
place, its size and its value (R428, R429). -/
abbrev EntrySays (s : State) (t : Nat) (cmd : BitVec 16) (opcode : Nat) (ops : List (Nat × Nat × Nat)) : Prop :=
  ∀ e ∈ (s.fetched.get t []).map BitVec.toNat, entryField e 0 2 = opcode ∧ entryField e 2 2 = cmd.toNat ∧ ∀ o ∈ ops, entryField e o.1 o.2.1 = o.2.2

/-- A command of tenant t is accepted: none other is in execution, the entry read for it says so, and the device and the partition are in
a mode that takes it (R429, R430, R505). -/
abbrev Accepted (s : State) (t : Nat) (cmd : BitVec 16) (opcode : Nat) (ops : List (Nat × Nat × Nat)) (modes : List Nat) : Prop :=
  (s.part t).openCmds = [] ∧ TakesCommands s ∧ s.rg Reg.WHF_TSTAT_mode t ∈ modes ∧ EntrySays s t cmd opcode ops

/-- The state in which the tenant's entry has been taken. -/
abbrev begunCmd (s : State) (t : Nat) : State := { s with fetched := s.fetched.put t [] }

/-- A command of R430: whose it is, its id and opcode, the operands that it uses, the partition modes that accept it, and whether it
reads host memory. -/
structure Submitted where
  tenant : Fin 16
  cmd : BitVec 16
  opcode : Nat
  ops : List (Nat × Nat × Nat)
  modes : List Nat
  reads : Bool := false

/-- The commands of R430 that act on a partition, with the places of their operands in the entry (R428). LOAD and LOAD_EXPORT have
statements of their own. -/
def submitted : Instr → Option Submitted
  | .start t c => some ⟨t, c, 2, [], [1], false⟩
  | .hold t c => some ⟨t, c, 3, [], [2, 4], false⟩
  | .run t c => some ⟨t, c, 4, [], [3, 4], false⟩
  | .step t c o => some ⟨t, c, 5, [(0x18, 4, o.toNat)], [3], false⟩
  | .unload t c => some ⟨t, c, 6, [], [1, 3, 7], false⟩
  | .input t c o n _ => some ⟨t, c, 7, [(0x18, 4, o.toNat), (0x10, 8, n)], [1, 2, 3, 4, 5, 6], true⟩
  | .setArea t c o => some ⟨t, c, 8, [(0x18, 4, o.toNat)], [0, 1, 2, 3, 4, 5, 6], false⟩
  | .rollbackCommand t c o => some ⟨t, c, 9, [(0x18, 4, o.toNat)], [2, 3], false⟩
  | .replayCommand t c o o1 o2 => some ⟨t, c, 10, [(0x18, 4, o.toNat), (0x1C, 4, o1.toNat), (0x20, 4, o2.toNat)], [2, 3, 5, 6], false⟩
  | _ => none

/-- The partition stands where a hold at a design-cycle boundary takes effect: issuing, no step of the cycle begun, no cluster in a
refetch or fetch trap (R448, R508). -/
abbrev AtBoundary (s : State) (t : Nat) (boundary : Bool) : Prop :=
  s.running t = true ∧ (boundary = false ∨ (s.part t).started = false) ∧
    ∀ c ∈ s.clustersOf t, (s.clu c).st ≠ 5 ∧ (s.clu c).st ≠ 6

/-- A stop of an id has reached the partition, whose record was x: recorded, in effect if the partition stands where it may, to take
effect later otherwise (R445 to R447). -/
structure StopTaken (s u : State) (t id : Nat) (boundary : Bool) (x : Part) : Prop where
  ids : (u.part t).stopIds = (id :: x.stopIds).take 16
  owed : (u.part t).stopOwed = some id ∧ u.rg Reg.WHF_STOP_STAT_id t = id
  now : s.rg Reg.WHF_TSTAT_mode t = 3 ∨ AtBoundary s t (boundary && x.holdReq != some false) →
    u.rg Reg.WHF_TSTAT_mode t = 3 ∧ u.on Reg.WHF_STOP_STAT_stopped t = true ∧ (u.part t).holdReq = none
  later : s.rg Reg.WHF_TSTAT_mode t ≠ 3 → ¬ AtBoundary s t (boundary && x.holdReq != some false) →
    u.rg Reg.WHF_TSTAT_mode t = s.rg Reg.WHF_TSTAT_mode t ∧ (u.part t).holdReq = some (boundary && x.holdReq != some false)
  same : PartsBut s u [t] ∧ u.clusters = s.clusters ∧ u.reaches = s.reaches ∧ u.keepers = s.keepers ∧ u.ledger = s.ledger

/-- STOP goes on to the neighbours but the sender; said for one such neighbour (R445). -/
abbrev StopForwarded (s u : State) (t id : Nat) (boundary : Bool) (sender : Option Nat) : Prop :=
  (((s.neighbours t).filter fun d => some d ≠ sender) = [] → u.links = s.links) ∧
  (∀ d ∈ s.neighbours t, ((s.neighbours t).filter fun d => some d ≠ sender) = [d] → MessageSent s u t d 0x020 [id, if boundary then 1 else 0])

/-- The partition has left Held or Stepping, or a stop that had not taken effect is withdrawn (R446, R508). -/
structure Released (s u : State) (t : Nat) : Prop where
  mode : u.rg Reg.WHF_TSTAT_mode t =
    (if s.rg Reg.WHF_TSTAT_mode t = 3 ∧ (s.part t).heldReplay = true then 5
     else if s.rg Reg.WHF_TSTAT_mode t = 3 ∨ s.rg Reg.WHF_TSTAT_mode t = 4 then 2 else s.rg Reg.WHF_TSTAT_mode t)
  stopped : u.on Reg.WHF_STOP_STAT_stopped t = false
  part : (u.part t).holdReq = none ∧ (u.part t).stopOwed = none ∧ (u.part t).stepLeft = 0
  same : PartsBut s u [t] ∧ u.clusters = s.clusters ∧ u.reaches = s.reaches ∧ u.keepers = s.keepers ∧ u.ledger = s.ledger

/-- Tenant t's partition has left this device: its reaches unbound and Off, its clusters idle, a reach marked for retirement retired, its
pages, buffers and reservation returned (R17, R329, R450). -/
structure Removed (s u : State) (t : Nat) : Prop where
  part : PartIs s u t {}
  mode : u.rg Reg.WHF_TSTAT_mode t = 0 ∧ u.rg Reg.LCK_STATUSt_phase t = 0 ∧ u.on Reg.WHF_STOP_STAT_stopped t = false
  reaches : ∀ r ∈ (s.part t).bound, u.on Reg.RCH_OWNER_bound r = false ∧ u.rg Reg.PWR_DOM_state r = 0 ∧
    u.rg Reg.PWR_DOM_clamped r = 1 ∧ (u.rch r).retired = ((s.rch r).retired || (s.rch r).retireMark)
  clusters : ∀ r ∈ (s.part t).bound, ∀ p < 17,
    u.on Reg.CLU_CTRL_enable (17 * r + p) = false ∧ (u.clu (17 * r + p)).issuing = false ∧
    u.rg Reg.CLU_ROLE_role (17 * r + p) = (if s.rg Reg.CLU_ROLE_role (17 * r + p) = 16 then 0x1F else s.rg Reg.CLU_ROLE_role (17 * r + p))
  pages : u.pagesUsed = s.pagesUsed.filter fun p => !(s.part t).pagesHeld.contains p
  buffers : ∀ b ∈ (s.part t).buffers, s.heldFor t b = true → b ∈ u.ledger.returned
  reserved : u.rg Reg.DMEM_RESVt_stack0 t = 0 ∧ u.rg Reg.DMEM_RESVt_stack1 t = 0

/-- The capture of a partition's start finds nothing that stands in its way: no write in flight, no fault in a captured memory, no keeper's
hook, no child heard of, no output waiting (R281, R287). -/
abbrev StartClean (s : State) (t : Nat) : Prop :=
  NoHooks s t ∧ (s.part t).arrived = [] ∧ (s.part t).ready = false ∧ (s.part t).captureFail = false ∧
    (s.queue (8 * t + 3)).held = [] ∧ (∀ r ∈ (s.part t).bound, (s.rch r).wb = [] ∧ (s.rch r).following = false) ∧
    (∀ c ∈ s.clustersOf t, (s.clu c).inflight = []) ∧ s.captureBad t = none

/-- A replay stop at a pound and design cycle that the return point, the horizon or else the present cycle, does not precede (R298,
R314). -/
def stopAllowed (s : State) (t pound dcycle : Nat) : Bool :=
  let mode := s.rg Reg.WHF_TSTAT_mode t
  let force := (s.part t).horizonOn || decide (mode = 5) || decide (mode = 6)
  let hp := if force then (s.part t).horizonPound else s.rg Reg.LCK_POUNDt_pound t
  let h := if force then s.rg Reg.LCK_HORIZONt_h t else s.rg Reg.LCK_STATUSt_dcycle t
  poundLt pound hp || (decide (pound = hp) && decide (dcycle ≤ h))

/-! ### The sluice, the ledger and the check units -/

/-- The channel that a requester's SLC_SEL shows (R479). -/
abbrev channelOf (s : State) (who : Requester) : Nat :=
  16 * s.rgw Reg.SLC_SEL_engine (copyOf who) + s.rgw Reg.SLC_SEL_channel (copyOf who)

/-- Only channel c has changed, into x. -/
abbrev ChanIs (s t : State) (c : Nat) (x : Channel) : Prop := t.chan c = x ∧ ∀ d, d ≠ c → t.chan d = s.chan d

/-- A channel at rest: it keeps only the number of its remote requests. -/
abbrev atRest (x : Channel) : Channel := { requests := x.requests }

/-- What a channel's step may change: registers, channels, and what its causes and faults raise on the host's side. -/
abbrev ChannelOnly (s u : State) : Prop :=
  { u with regs := s.regs, channels := s.channels, irq := s.irq, msix := s.msix, hostOut := s.hostOut, queues := s.queues,
           faults := s.faults } = s

/-- Keys of a channel's status registers and of its engine's causes. -/
def channelKeys (c : Nat) : List Nat :=
  [fieldKey Reg.SLC_CHSTAT_state c 0, fieldKey Reg.SLC_CHSTAT_status c 0, fieldKey Reg.SLC_CHSTAT_detail c 0,
   fieldKey Reg.SLC_CHSTAT_descs c 0, fieldKey Reg.SLC_CHCUR_LO_addr c 0, fieldKey Reg.SLC_CHCUR_HI_addr c 0,
   fieldKey Reg.SLC_CHDONE_bytes c 0, fieldKey Reg.SLC_HALT_halted (c / 16) 0, fieldKey Reg.SLC_CAUSE_half (c / 16) 0,
   fieldKey Reg.SLC_CAUSE_full (c / 16) 0]

/-- Keys of what a fault posted to tenant t writes. -/
def faultKeys (t : Nat) : List Nat := [fieldKey Reg.WHF_TSTAT_fq_merged t 0, fieldKey Reg.WHF_QCFG_dptr (8 * t + 2) 0]

/-- Channel c has halted with a status, its descriptor having come to `done` bytes; a status other than 0x07 posts fault 16 if the channel
is to (R476, R478). -/
structure ChHalted (s u : State) (c status detail done : Nat) : Prop where
  state : u.rg Reg.SLC_CHSTAT_state c = 3 ∧ u.rg Reg.SLC_CHSTAT_status c = status ∧ u.rg Reg.SLC_CHSTAT_detail c = detail
  halted : bit (u.rg Reg.SLC_HALT_halted (c / 16)) (c % 16) = true
  chan : ChanIs s u c (atRest (s.chan c))
  fault : s.on Reg.SLC_CHCFG_post_fault c = true → status ≠ 7 →
    FaultPosted s u (s.rg Reg.SLC_CHCFG_tenant c) 16 1 (status + c * 2 ^ 8 + done * 2 ^ 16) 0
  quiet : s.on Reg.SLC_CHCFG_post_fault c = false ∨ status = 7 → u.faults = s.faults
  regs : RegsBut s u (channelKeys c ++ faultKeys (s.rg Reg.SLC_CHCFG_tenant c))
  frame : ChannelOnly s u

/-- The descriptor in hand has ended: the next of the chain is named, or the chain ended normally (R471, R475, R476). -/
structure DescEnded (s u : State) (c : Nat) (d : BitVec 512) : Prop where
  counted : u.rg Reg.SLC_CHSTAT_descs c = (s.rg Reg.SLC_CHSTAT_descs c + 1) % 65536
  next : dFlag d 7 = true → ChanIs s u c { atRest (s.chan c) with next := dNext d, nextLedger := dFlag d 8 } ∧
    u.rg Reg.SLC_CHSTAT_state c = s.rg Reg.SLC_CHSTAT_state c
  last : dFlag d 7 = false → ChanIs s u c (atRest (s.chan c)) ∧ u.rg Reg.SLC_CHSTAT_state c = 0 ∧ u.rg Reg.SLC_CHSTAT_status c = 0

/-- The element in hand of descriptor d has completed (R473, R475, R477). -/
structure ElementEnded (s u : State) (c : Nat) (d : BitVec 512) : Prop where
  done : u.rg Reg.SLC_CHDONE_bytes c = ((s.chan c).element + 1) * dSize d
  half : dFlag d 0 = true → (s.chan c).halfDone = false → dLength d / 2 ≤ ((s.chan c).element + 1) * dSize d →
    bit (u.rg Reg.SLC_CAUSE_half (c / 16)) (c % 16) = true
  goesOn : (s.chan c).stopping = false → ¬ ((s.chan c).element + 1 = dCount d ∧ dFlag d 1 = false) →
    ChanIs s u c { s.chan c with element := (s.chan c).element + 1, got := 0, buf := [], idx := none, waiting := 0, tries := 0,
                                 halfDone := decide (dLength d / 2 ≤ ((s.chan c).element + 1) * dSize d) } ∧
    u.rg Reg.SLC_CHSTAT_state c = s.rg Reg.SLC_CHSTAT_state c
  last : (s.chan c).stopping = false → (s.chan c).element + 1 = dCount d → dFlag d 1 = false → DescEnded s u c d
  stopped : (s.chan c).stopping = true → u.rg Reg.SLC_CHSTAT_state c = 3 ∧ u.rg Reg.SLC_CHSTAT_status c = 7 ∧
    ChanIs s u c (atRest (s.chan c))
  regs : RegsBut s u (channelKeys c)

/-- Where byte 0 of the element in hand lies on one side, from the side's base (R473). -/
def sideOffset (x : Channel) (d : BitVec 512) (pat stride : Nat) : Nat :=
  if pat = 2 then 2 * x.idx.getD 0 else if pat = 0 then x.element * dSize d else x.element * stride

/-- The bytes l of the element in hand have gone to a destination on this side of the links, and the element has ended. -/
structure ElementWritten (s u : State) (c : Nat) (d : BitVec 512) (l : List Byte) : Prop where
  ended : ElementEnded s u c d
  host : dDstKind d = 0 → ⟨(dDst d + sideOffset (s.chan c) d (dDstPat d) (dDstStride d)) % 2 ^ 64, l, false⟩ ∈ u.hostOut ∧ u.hbm = s.hbm
  nowhere : dDstKind d = 5 → u.hbm = s.hbm
  physical : dDstKind d = 3 → ∀ i < l.length, ∀ b ∈ l[i]?,
    Mem.get u.hbm (bits (dDst d) 0 35 + sideOffset (s.chan c) d (dDstPat d) (dDstStride d) + i) = b
  buffer : dDstKind d = 2 → ∀ i < l.length, ∀ b ∈ l[i]?,
    Mem.get u.hbm (s.bufAddr (bits (dDst d) 0 16) + bits (dDst d) 16 12 + sideOffset (s.chan c) d (dDstPat d) (dDstStride d) + i) = b
  list : ∀ ps ∈ (s.chCells c (dDstKind d) (dDst d) (sideOffset (s.chan c) d (dDstPat d) (dDstStride d)) l.length).toOption,
    dDstKind d = 1 → u.hbm = (s.putHalves ps l).hbm
  same : u.ledger = s.ledger ∧ u.chks = s.chks ∧ u.links = s.links ∧ u.parts = s.parts

/-- The VC1 request barge of channel c on address a (R229, R242, R472). -/
abbrev askBarge (s : State) (c kind a offset : Nat) (data : List Nat) (n : Nat) (x : Channel) : Barge :=
  seqBarge 1 kind 1 (bits a 0 12) (s.rg Reg.AQ_DEVID_devid)
    (if s.on Reg.SLC_CHCFG_priv c = true ∧ s.rg Reg.WHF_TSTAT_mode (s.rg Reg.SLC_CHCFG_tenant c) = 0 then 0
     else s.rg Reg.AQ_SPNt_spn (s.rg Reg.SLC_CHCFG_tenant c))
    ([(x.requests + 1) % 64 * 64 + c, offset % 2048 + bits a 12 1 * 2048, bits a 13 11, n] ++ data)

/-- A VC1 request of channel c, fresh in its transaction ID, waits on the link to the device that address a names, or for delivery here where
it names this device; in Repair, where no VC1 traffic originates, neither; x is the channel as it asks (R242, R254, R464, R473, R476,
R505). -/
structure Asked (s u : State) (c kind a offset : Nat) (data : List Nat) (n : Nat) (x : Channel) : Prop where
  chan : ChanIs s u c { x with requests := (x.requests + 1) % 64, txn := (x.requests + 1) % 64 * 64 + c }
  queued : s.mode ≠ 3 → bits a 0 12 ≠ s.rg Reg.AQ_DEVID_devid → ∀ l ∈ s.route (bits a 0 12),
    LinkIs s u l { s.lnk l with q1 := (s.lnk l).q1 ++ [⟨16, askBarge s c kind a offset data n x, 1⟩] }
  own : s.mode ≠ 3 → bits a 0 12 = s.rg Reg.AQ_DEVID_devid →
    u.ownBarges = s.ownBarges ++ [askBarge s c kind a offset data n x] ∧ u.links = s.links
  repair : s.mode = 3 → u.ownBarges = s.ownBarges ∧ u.links = s.links
  hbm : u.hbm = s.hbm ∧ u.hostOut = s.hostOut

/-! ### The weir -/

/-- The 32-byte ring record of an event (R482). -/
def ringRecord (time cls owner : Nat) (merged rerun : Bool) (source code count data pound dcycle : Nat) : List Byte :=
  leBytes 8 time ++ leBytes 2 (cls + 4 * owner + (if merged then 128 else 0) + (if rerun then 256 else 0)) ++ leBytes 2 source ++
    leBytes 2 code ++ leBytes 2 count ++ leBytes 8 (data % 2 ^ 36) ++ leBytes 4 pound ++ leBytes 4 dcycle

/-- The pound and design cycle that an event of an owner carries: zero for the device (R482). -/
abbrev poundOf (s : State) (owner : Nat) : Nat := if owner < 16 then s.rg Reg.LCK_POUNDt_pound owner else 0
abbrev cycleOf (s : State) (owner : Nat) : Nat := if owner < 16 then s.rg Reg.LCK_STATUSt_dcycle owner else 0

/-- A record made while a partition re-executes, or in Replay (R482). -/
abbrev rerunOf (s : State) (owner : Nat) : Bool :=
  decide (owner < 16) && (s.on Reg.LCK_STATUSt_reexec owner || decide (s.rg Reg.WHF_TSTAT_mode owner = 5))

/-- The ring is on and has room for n records, one slot staying free (R483). -/
abbrev RingTakes (s : State) (n : Nat) : Prop := s.on Reg.WEIR_CTRL_ring_en = true ∧ s.ringUsed + n < 128 * 2 ^ s.rg Reg.WEIR_RING_CFG_size_log2

/-- The ring is on, full to n records, and its reader has freed nothing that the device could take (R483, R484). -/
abbrev RingFull (s : State) (n : Nat) : Prop :=
  s.on Reg.WEIR_CTRL_ring_en = true ∧ ¬ s.ringUsed + n < 128 * 2 ^ s.rg Reg.WEIR_RING_CFG_size_log2 ∧
    s.on Reg.WEIR_RING_CFG_rd_src = false

/-- One record has gone to the ring (R482, R483). -/
structure RingWritten (s u : State) (l : List Byte) : Prop where
  bytes : ∀ i < 32, ∀ b ∈ l[i]?, Mem.get u.hbm (s.ringSlot (s.rg Reg.WEIR_RING_WR_index) + i) = b
  index : u.rg Reg.WEIR_RING_WR_index = (s.rg Reg.WEIR_RING_WR_index + 1) % (128 * 2 ^ s.rg Reg.WEIR_RING_CFG_size_log2)

/-- What an event may change: registers, the weir, its ring, and what its causes raise. -/
abbrev WeirOnly (s u : State) : Prop :=
  { u with regs := s.regs, weir := s.weir, hbm := s.hbm, irq := s.irq, msix := s.msix, hostOut := s.hostOut } = s

/-- Two alarms coalesce: owner, source, code and data are equal (R487). -/
abbrev coalesces (a b : Event) : Bool :=
  decide (a.owner = b.owner) && decide (a.source = b.source) && decide (a.code = b.code) && decide (a.data = b.data)

/-- Alarm e has entered its owner's store, where it waits to be posted and to be forwarded (R487, R489). -/
structure AlarmStored (s u : State) (e : Event) : Prop where
  equal : (s.weir.alarms.get e.owner []).any (coalesces e) = true →
    u.weir.alarms.get e.owner [] = (s.weir.alarms.get e.owner []).map fun x =>
      if coalesces e x = true then { x with count := min 65535 (x.count + e.count), fwd := min 65535 (x.fwd + e.fwd) } else x
  free : (s.weir.alarms.get e.owner []).any (coalesces e) = false → (s.weir.alarms.get e.owner []).length < 64 →
    u.weir.alarms.get e.owner [] = s.weir.alarms.get e.owner [] ++ [e]
  full : (s.weir.alarms.get e.owner []).any (coalesces e) = false → 64 ≤ (s.weir.alarms.get e.owner []).length →
    (u.weir.alarms.get e.owner []).dropLast = (s.weir.alarms.get e.owner []).dropLast ∧
    (∀ x ∈ (s.weir.alarms.get e.owner []).getLast?, (u.weir.alarms.get e.owner []).getLast? =
      some { x with count := min 65535 (x.count + e.count), fwd := min 65535 (x.fwd + e.fwd), merged := true }) ∧
    u.on Reg.WEIR_ALM_STAT_merged e.owner = true ∧ u.on Reg.WEIR_CAUSE_alarm_merged = true

/-- The 64-bit fault record of an alarm (R486). -/
def alarmRecord (e : Event) : Nat :=
  e.data % 2 ^ 36 + e.source % 2 ^ 16 * 2 ^ 36 + e.code % 2 ^ 11 * 2 ^ 52 + (if e.merged then 2 ^ 63 else 0)

/-- The body of an ALARM message, with the count that has still to be forwarded (R488). -/
def alarmBody (e : Event) : List Nat :=
  [e.owner, e.source / 4096, e.source % 4096, e.code, min 4095 e.fwd, e.data % 4096, e.data / 4096 % 4096, e.data / 2 ^ 24 % 4096,
   e.pound % 4096, e.pound / 4096 % 4096, e.dcycle % 4096, e.dcycle / 4096 % 4096]

/-! ### The Capstan monitor -/

/-- Text as ASCII bytes. -/
abbrev text (t : String) : List Byte := t.toList.map fun c => BitVec.ofNat 8 c.toNat

/-- The state in which Capstan has sent bytes. -/
abbrev sent (s : State) (l : List Byte) : State := { s with capstan := { s.capstan with out := s.capstan.out ++ l } }

/-- An answer that begins with "ok": the words of its first line, then its further lines, then the prompt. -/
def okAnswer (words lines : List (List Byte)) : List Byte :=
  text "ok" ++ (words.flatMap fun w => 0x20#8 :: w) ++ [0x0D, 0x0A] ++ (lines.flatMap fun l => l ++ [0x0D, 0x0A]) ++ text "ox7> "

/-- An answer of "er" and two hex digits, then the prompt. -/
def erAnswer (code : Nat) : List Byte := text "er 0" ++ [BitVec.ofNat 8 (48 + code)] ++ [0x0D, 0x0A] ++ text "ox7> "

/-! ### Resets, bring-up, device modes -/

/-- The register field of a key is kept over a device reset: the always-on and SEC registers, PWR_LIMIT.limit, the stop planks of clusters,
links and lanes, and the retirement spares that pages have used (R177, R328, R512). -/
def kept (s : State) (key : Nat) : Bool :=
  let addr := key / 2 ^ 21
  let inst := key / 8 % 8192
  let is := fun (f : Field) => decide (key = fieldKey f inst 0)
  (decide (0xD00040 ≤ addr) && decide (addr < 0xD00090)) || is Reg.PWR_LIMIT_limit || is Reg.CLU_ROLE_retired ||
    (is Reg.AQ_STATUS_state && decide (s.rg Reg.AQ_STATUS_state inst = 9)) || is Reg.AQ_STATUS_spare_used ||
    ((is Reg.AQ_LANEMAP_tx_map || is Reg.AQ_LANEMAP_rx_map) && s.laneRetired inst) || is Reg.DMEM_HBM_STATk_spares

/-- Registers after a device reset, but for those of the listed keys. -/
abbrev RegsReset (s u : State) (keys : List Nat) : Prop :=
  ∀ key, key ∉ keys → u.regs.find key = if kept s key = true then s.regs.find key else none

/-- What a device reset leaves of what the model holds beside the registers: the always-on domain as p has it, stop planks, the bytes in
HBM (log entry 34), and the record of what has gone to the host (R512). -/
structure DeviceReset (s u : State) (p : Power) : Prop where
  reaches : ∀ r < 24, u.rch r = { ({} : Reach) with retired := (s.rch r).retired || (s.rch r).retireMark, waysOff := (s.rch r).waysOff }
  links : ∀ l < 16, u.lnk l = { ({} : Link) with txSpareUsed := (s.lnk l).txSpareUsed, rxSpareLost := (s.lnk l).rxSpareLost }
  dredger : u.tst = { passDue := s.power.time + 100000000 }
  rest : u = { State.reset with
    pending := s.pending, regs := u.regs, reaches := u.reaches, links := u.links, tst := u.tst, hbm := s.hbm, pagesRetired := s.pagesRetired, hostOut := s.hostOut,
    tap := s.tap, readData := s.readData, freeCtr := s.freeCtr,
    power := { p with basinDefault := 3, switches := [], bringUp := [], bistFailed := [], bistUnits := [], wiping := false, fuseNext := none,
                      linkState := 0, avsDown := false, roleLost := false } }

/-- A device reset, its kind reported as 1. -/
structure ResetByHost (s u : State) (p : Power) : Prop where
  reset : DeviceReset s u p
  regs : RegsReset s u [fieldKey Reg.PWR_RST_kind 0 0]
  kind : u.rg Reg.PWR_RST_kind 0 = 1

/-- The always-on state with cause i latched (R530). -/
abbrev latched (s : State) (i : Nat) : State :=
  let v := Nat.lor (s.rg Reg.AON_WAKE_cause 0) (2 ^ i)
  (s.setRg Reg.AON_WAKE_cause 0 v).setRg Reg.AON_WAKE_LAST_cause 0 v

/-- The device is in Repair: commands are over, partitions that span devices suspended where a keeper runs, all else held as it was
(R505, R507). -/
structure IntoRepair (s u : State) : Prop where
  mode : u.rg Reg.PWR_MODE_mode 0 = 3
  commands : ∀ t < 16, s.loaded t = true → (u.part t).openCmds = [] ∧ u.fetched.get t [] = []
  peers : ∀ t < 16, u.rg Reg.WHF_TSTAT_mode t =
    (if s.keeperRuns = true ∧ s.loaded t = true ∧ s.multi t = true then 7 else s.rg Reg.WHF_TSTAT_mode t)
  same : u.clusters = s.clusters ∧ u.reaches = s.reaches ∧ u.power = s.power ∧ u.secure = s.secure ∧ u.ledger = s.ledger

/-- Every link is Off, but for retired ones. -/
abbrev LinksOff (s u : State) : Prop :=
  ∀ l < 16, u.rg Reg.AQ_STATUS_state l = (if s.rg Reg.AQ_STATUS_state l = 9 then 9 else 0)

/-- The device is in Sanitize: partitions removed, links Off, the secure basin wiped, the wipe of the rest running (R534). -/
structure IntoSanitize (s u : State) (fuse : Option Nat) : Prop where
  mode : u.rg Reg.PWR_MODE_mode 0 = 4
  parts : ∀ t < 16, u.rg Reg.WHF_TSTAT_mode t = 0 ∧ (s.loaded t = true → u.part t = {})
  commands : ∀ t < 16, (u.part t).openCmds = [] ∧ u.fetched.get t [] = []
  links : LinksOff s u
  secure : u.secure = {}
  power : u.power.wiping = true ∧ u.power.tamperPending = false ∧ u.power.fuseNext = fuse ∧ u.power.time = s.power.time
  same : u.keepers = s.keepers

/-- The bring-up step in progress: the lowest-numbered one not complete (R515). -/
def lowestOpen (b : List Nat) : Nat := ((List.range 9).find? fun j => decide (1 ≤ j) && !b.contains j).getD 8

/-- Step k may end: those before it are complete; steps 3 and 4 run together (R515). -/
abbrev StepOpen (s : State) (k : Nat) : Prop :=
  s.rg Reg.PWR_MODE_mode 0 = 0 ∧ s.power.perst = false ∧ k ∉ s.power.bringUp ∧
    (k = 1 ∨ (k = 2 ∧ 1 ∈ s.power.bringUp) ∨ (k = 3 ∧ 2 ∈ s.power.bringUp) ∨ (k = 4 ∧ 2 ∈ s.power.bringUp) ∨
     (k = 5 ∧ 3 ∈ s.power.bringUp ∧ 4 ∈ s.power.bringUp) ∨ (6 ≤ k ∧ k ≤ 8 ∧ k - 1 ∈ s.power.bringUp))

/-- Step k is complete, and PWR_RST.stage shows the next. -/
abbrev StepComplete (s u : State) (k : Nat) : Prop :=
  u.power.bringUp = s.power.bringUp ++ [k] ∧ u.rg Reg.PWR_RST_stage 0 = lowestOpen (s.power.bringUp ++ [k])

/-- Keys of the registers of power domains. -/
def domainKeys (l : List Nat) : List Nat := l.flatMap fun d => [fieldKey Reg.PWR_DOM_state d 0, fieldKey Reg.PWR_DOM_clamped d 0]

/-- The listed domains are On, their clamps released. -/
abbrev DomainsOn (u : State) (l : List Nat) : Prop := ∀ d ∈ l, u.rg Reg.PWR_DOM_state d = 1 ∧ u.rg Reg.PWR_DOM_clamped d = 0

/-- Bring-up has stopped at a step with an error code (R516). -/
structure BringUpFailed (s u : State) (k error : Nat) : Prop where
  repair : IntoRepair s u
  stage : u.rg Reg.PWR_RST_stage 0 = k
  error : u.rg Reg.PWR_RST_error 0 = error

/-- What may change of the state beside registers and the listed unit. -/
abbrev RegsAndPower (s u : State) : Prop := { u with regs := s.regs, power := s.power } = s

/-! ### The always-on domain -/

/-- Domains that a wake from Standby-retain restores: those of bound reaches, and 28 to 34 (R520, R530). -/
def wakeList (s : State) : List Nat := ((List.range 24).filter fun r => s.on Reg.RCH_OWNER_bound r) ++ [28, 29, 30, 31, 32, 33, 34]

/-- Cause i may end Standby: it is enabled; causes 0 and 5 always are (R530). -/
abbrev Wakes (s : State) (i : Nat) : Prop :=
  s.rg Reg.PWR_MODE_mode 0 = 5 ∧ (bit (s.rg Reg.AON_WAKE_EN_en 0) i = true ∨ i = 0 ∨ i = 5)

/-- A PME goes to the host if the PF is in D3hot. -/
abbrev PmeSent (s u : State) : Prop :=
  u.power.pmeSent = s.power.pmeSent + (if (s.fn 0).d3hot = true then 1 else 0) ∧
    u.fn 0 = (if (s.fn 0).d3hot = true then { s.fn 0 with pmeStatus := true } else s.fn 0)

/-- Wake cause i has been latched, and has ended Standby where it may (R530, R535). -/
structure Woken (s u : State) (i : Nat) : Prop where
  stays : ¬ Wakes s i → u = latched s i
  ready : Wakes s i → s.rg Reg.PWR_MODE_depth 0 = 0 → s.power.tamperPending = false →
    u.rg Reg.PWR_MODE_mode 0 = 1 ∧ DomainsOn u (wakeList s) ∧ PmeSent s u ∧
    RegsBut (latched s i) u (fieldKey Reg.PWR_MODE_mode 0 0 :: domainKeys (wakeList s)) ∧
    { u with regs := s.regs, power := s.power, fns := s.fns, clusters := s.clusters, reaches := s.reaches, keepers := s.keepers,
             secure := s.secure } = s
  held : Wakes s i → s.rg Reg.PWR_MODE_depth 0 = 0 → s.power.tamperPending = false →
    (∀ d ∈ wakeList s, d ≠ 30 → s.rg Reg.PWR_DOM_state d = 2) →
    u.clusters = s.clusters ∧ u.reaches = s.reaches ∧ u.keepers = s.keepers ∧ u.secure = s.secure
  tamper : Wakes s i → s.rg Reg.PWR_MODE_depth 0 = 0 → s.power.tamperPending = true →
    u.rg Reg.PWR_MODE_mode 0 = 4 ∧ u.power.wiping = true ∧ u.secure = {}
  aux : Wakes s i → s.rg Reg.PWR_MODE_depth 0 = 1 → u = { latched s i with
    power := if s.power.perst = true then { s.power with wakePin := true } else { s.power with standbyAux := true } }

/-- An alarm of the power block, which is the device's (R486, R526). -/
def powerAlarm (s : State) (code data : Nat) : Event :=
  { cls := 0, owner := 16, source := 0xC000, code := code, count := 1, data := data, merged := false, pound := 0, dcycle := 0,
    time := s.power.time, origin := s.rg Reg.AQ_DEVID_devid 0 }

/-- It has been raised. -/
abbrev PowerAlarmed (s u : State) (code data : Nat) : Prop := AlarmStored s u (powerAlarm s code data)

/-- Alarm 0x00D, which a keeper raises, so where one runs (R507, R528). -/
abbrev RepairAlarmed (s u : State) (code : Nat) : Prop :=
  (s.keeperRuns = true → PowerAlarmed s u 0x00D code) ∧ (s.keeperRuns = false → u.weir = s.weir)

/-- The power state once a fatal condition has struck: the loss of the system role is remembered (R403). -/
def struck (s : State) (code : Nat) : Power := { s.power with roleLost := s.power.roleLost || decide (code = 3) }

/-- A fatal condition has struck in each device mode (R527, R528). -/
structure FatalTaken (s u : State) (code : Nat) : Prop where
  fatal : u.rg Reg.AON_STAT_fatal 0 = code ∧ u.src 16 = afterEdge s 16
  trip : code = 1 → ∀ d < 28, u.rg Reg.PWR_DOM_state d = 0 ∧ u.rg Reg.PWR_DOM_clamped d = 1
  bringUp : s.rg Reg.PWR_MODE_mode 0 = 0 → u.rg Reg.PWR_MODE_mode 0 = 3 ∧ u.rg Reg.PWR_RST_error 0 = 6 ∧
    u.rg Reg.PWR_RST_stage 0 = lowestOpen s.power.bringUp
  service : s.rg Reg.PWR_MODE_mode 0 = 1 ∨ s.rg Reg.PWR_MODE_mode 0 = 2 → u.rg Reg.PWR_MODE_mode 0 = 3 ∧
    (∀ t < 16, s.loaded t = true → (u.part t).openCmds = [] ∧ u.fetched.get t [] = []) ∧
    (code ≠ 1 → u.clusters = s.clusters ∧ u.reaches = s.reaches)
  repair : s.rg Reg.PWR_MODE_mode 0 = 3 → u.rg Reg.PWR_MODE_mode 0 = 3 ∧ RepairAlarmed s u code ∧ u.parts = s.parts
  sanitize : s.rg Reg.PWR_MODE_mode 0 = 4 → u.rg Reg.PWR_MODE_mode 0 = 4 ∧ u.power = struck s code ∧ u.weir = s.weir
  standby : s.rg Reg.PWR_MODE_mode 0 = 5 → s.rg Reg.PWR_MODE_depth 0 = 0 →
    u.rg Reg.PWR_MODE_mode 0 = 3 ∧ PmeSent s u ∧ DomainsOn u (if code = 1 then [28, 29, 30, 31, 32, 33, 34] else wakeList s)
  aux : s.rg Reg.PWR_MODE_mode 0 = 5 → s.rg Reg.PWR_MODE_depth 0 = 1 → u.rg Reg.PWR_MODE_mode 0 = 5 ∧
    u.power = (if s.power.perst = true then { struck s code with wakePin := true } else { struck s code with standbyAux := true })
  causes : u.rg Reg.AON_WAKE_cause 0 = s.rg Reg.AON_WAKE_cause 0 ∧ u.rg Reg.AON_WAKE_LAST_cause 0 = s.rg Reg.AON_WAKE_LAST_cause 0

/-- A supply-window event: source 129, where the comparator is on, and alarm 0x00B (R525). -/
structure SupplyEvent (s u : State) : Prop where
  source : u.src 129 = (if s.on Reg.AON_CMP_supply_en 0 = true then afterEdge s 129 else s.src 129)
  alarm : PowerAlarmed s u 0x00B s.power.vddCore
  power : u.power = s.power
  same : u.rg Reg.PWR_VCORE_request 0 = s.rg Reg.PWR_VCORE_request 0 ∧ u.rg Reg.PWR_LIMIT_power 0 = s.rg Reg.PWR_LIMIT_power 0 ∧
    u.parts = s.parts ∧ u.clusters = s.clusters ∧ u.reaches = s.reaches

/-- The state with a die temperature measured; the warning clears 3 degrees below its threshold (R525). -/
abbrev measured (s : State) (temp : BitVec 8) : State :=
  { s.setRg Reg.AON_STAT_temp 0 temp.toNat with
    power := { s.power with warned := s.power.warned && decide (¬ temp.toInt + 3 ≤ (s.rg Reg.AON_CMP_temp_warn 0 : Int)) } }

/-! ### Basins, stop planks, keys -/

/-- The alarm of a unit that has gone behind its stop planks (R331, R485). -/
def retiredAlarm (s : State) (cls inst unit : Nat) : Event :=
  { cls := 0, owner := 16, source := 0x9000 + cls, code := 3, count := 1, data := cls + inst * 16 + unit % 2 ^ 23 * 2 ^ 13,
    merged := false, pound := 0, dcycle := 0, time := s.power.time, origin := s.rg Reg.AQ_DEVID_devid 0 }

/-- The link slots of a map, the lane that fails replaced by the lane that no slot uses: bits 3k to 3k + 2 name the lane of slot k (R257). -/
def remapped (m lane : Nat) : Nat :=
  match (List.range 4).find? fun k => bits m (3 * k) 3 = lane with
  | some k => m - lane * 2 ^ (3 * k) + (10 - ((List.range 4).map fun j => bits m (3 * j) 3).sum) * 2 ^ (3 * k)
  | none => m

/-- Cells from a on hold the listed values, with good parity, and no other cell has changed. -/
abbrev CellsAt (s u : Mem 13) (a : Nat) (l : List Nat) : Prop :=
  (∀ i < l.length, Mem.get u (a + i) = store (BitVec.ofNat 12 (l.getD i 0))) ∧ ∀ b, b < a ∨ a + l.length ≤ b → Mem.get u b = Mem.get s b

/-- The cells of a key in its slot (R536). -/
def keyCells (slot tenant : Nat) (key : List Byte) : List Nat :=
  let k := ofLe key
  if slot < 64 then ((List.range 21).map fun i => bits k (12 * i) 12) ++ [bits k 252 4, 2048 + tenant, 0]
  else ((List.range 32).map fun i => bits k (12 * i) 12) ++ [2048]

/-- The first cell of a slot, and the number of its cells (R536). -/
def keyPlace (slot : Nat) : Nat × Nat := if slot < 64 then (24 * slot, 24) else (0x600 + 33 * (slot - 64), 33)

/-- The valid bit of a slot. -/
def keyValid (s : State) (slot : Nat) : Bool :=
  (cellOf (Mem.get s.secure.basin (if slot < 64 then 24 * slot + 22 else 0x600 + 33 * (slot - 64) + 32))).getLsbD 11

/-- A key operation has ended with a status, its operands in SEC_KEY_CTRL, its staging area wiped (R537). -/
structure KeyDone (s u : State) (v : Word) (status : Nat) : Prop where
  status : u.rg Reg.SEC_KEY_CTRL_status 0 = status
  fields : u.rg Reg.SEC_KEY_CTRL_slot 0 = v.toNat % 128 ∧ u.rg Reg.SEC_KEY_CTRL_tenant 0 = bits v.toNat 16 4 ∧
    u.on Reg.SEC_KEY_CTRL_wrapped 0 = bit v.toNat 20 ∧ u.on Reg.SEC_KEY_CTRL_erase 0 = bit v.toNat 24
  staging : u.secure.staging = []
  same : { u with regs := s.regs, secure := s.secure } = s ∧ RegsBut s u [fieldKey Reg.SEC_KEY_CTRL_status 0 0,
    fieldKey Reg.SEC_KEY_CTRL_slot 0 0, fieldKey Reg.SEC_KEY_CTRL_tenant 0 0, fieldKey Reg.SEC_KEY_CTRL_wrapped 0 0,
    fieldKey Reg.SEC_KEY_CTRL_erase 0 0, fieldKey Reg.SEC_KEY_CTRL_go 0 0]

/-! ### Boundary scan, function resets, loading, the bus -/

/-- The next state of the TAP controller on a rising edge of TCK (IEEE 1149.1). -/
def tapNext (x : TapState) (tms : Bool) : TapState :=
  match x with
  | .reset => if tms = true then .reset else .idle
  | .idle => if tms = true then .selectDr else .idle
  | .selectDr => if tms = true then .selectIr else .captureDr
  | .captureDr => if tms = true then .exit1Dr else .shiftDr
  | .shiftDr => if tms = true then .exit1Dr else .shiftDr
  | .exit1Dr => if tms = true then .updateDr else .pauseDr
  | .pauseDr => if tms = true then .exit2Dr else .pauseDr
  | .exit2Dr => if tms = true then .updateDr else .shiftDr
  | .updateDr => if tms = true then .selectDr else .idle
  | .selectIr => if tms = true then .reset else .captureIr
  | .captureIr => if tms = true then .exit1Ir else .shiftIr
  | .shiftIr => if tms = true then .exit1Ir else .shiftIr
  | .exit1Ir => if tms = true then .updateIr else .pauseIr
  | .pauseIr => if tms = true then .exit2Ir else .pauseIr
  | .exit2Ir => if tms = true then .updateIr else .shiftIr
  | .updateIr => if tms = true then .selectDr else .idle

/-- The scan port after a rising edge has moved its controller and done nothing else. -/
abbrev tapMoved (x : Tap) (tms : Bool) (y : Tap) : Tap :=
  { y with st := tapNext x.st tms, ir := if tapNext x.st tms = .reset then 0b00001#5 else y.ir }

/-- Tenant t's partition has gone from this device, in company of other functions' resets (R450). -/
structure PartGone (s u : State) (t : Nat) : Prop where
  part : (u.part t).bound = [] ∧ (u.part t).openCmds = [] ∧ u.fetched.get t [] = [] ∧ (s.loaded t = true → u.part t = {})
  mode : s.loaded t = true → u.rg Reg.WHF_TSTAT_mode t = 0
  reaches : s.loaded t = true → ∀ r ∈ (s.part t).bound, u.on Reg.RCH_OWNER_bound r = false ∧ u.rg Reg.PWR_DOM_state r = 0
  outputs : (u.queue (8 * t + 3)).held = []

/-- A function has been reset (R451). -/
structure FunctionReset (s u : State) (f : Nat) : Prop where
  gone : PartGone s u f
  page : u.rg Reg.WHF_TSTAT_mode f = 0 ∧ u.rg Reg.WHF_TSTAT_load_status f = 0 ∧ u.rg Reg.WHF_SQ_TAIL_index f = 0 ∧
    u.rg Reg.WHF_CQ_HEAD_index f = 0 ∧ u.rg Reg.WHF_FQ_HEAD_index f = 0 ∧ u.rg Reg.WHF_OQ_HEAD_index f = 0 ∧
    u.rg Reg.WHF_QSEL_kind f = 0 ∧ u.rg Reg.WHF_TCTRL_psb_interval f = 10 ∧ u.on Reg.WHF_TCTRL_notify_lock f = false
  queues : ∀ k < 8, u.on Reg.WHF_QCFG_enable (8 * f + k) = false ∧ u.rg Reg.WHF_QCFG_size_log2 (8 * f + k) = 4 ∧
    u.rg Reg.WHF_QCFG_dptr (8 * f + k) = 0 ∧ u.qbase (8 * f + k) = 0 ∧ (u.queue (8 * f + k)).bound = false
  faults : u.faults.get f [] = []
  function : u.fn f = { aer := (s.fn f).aer } ∧ (u.src (112 + f)).pending = true ∧ ∀ v < 16, u.msix.get (16 * f + v) {} = {}

/-- The image of a plain container stands in the reaches that a load has bound, and the partition is in Loading (R133, R142, R145, R147). -/
structure ImageLoaded (s u : State) (t : Nat) (l : List Byte) : Prop where
  mode : u.rg Reg.WHF_TSTAT_mode t = 1 ∧ u.rg Reg.WHF_TSTAT_load_status t = 0
  header : (u.part t).hdr.imageId = sliceLe l 0x10 8 ∧ (u.part t).hdr.partitionId = sliceLe l 0x18 8 ∧
    (u.part t).hdr.deviceCount = sliceLe l 0x20 2 ∧ (u.part t).bound.length = sliceLe l 0x24 2
  reaches : ∀ rel < sliceLe l 0x24 2, ∀ r ∈ (u.part t).bound[rel]?, s.on Reg.RCH_OWNER_bound r = false ∧
    u.on Reg.RCH_OWNER_bound r = true ∧ u.rg Reg.RCH_OWNER_tenant r = t ∧ u.rg Reg.RCH_OWNER_rel_reach r = rel ∧
    u.rg Reg.PWR_DOM_state r = 1 ∧ u.rg Reg.RCH_CTRL_steps_m1 r = sliceLe l 0x2C 2
  pound : u.rg Reg.LCK_CTRLt_pound_log2 t = sliceLe l 0x2E 1
  programs : ∀ x ∈ sections l, x.type = 1 → ∀ r ∈ (u.part t).bound[x.rel]?, ∀ c ∈ u.playing r x.pos,
    u.rg Reg.CLU_PROG_last_word c + 1 = x.body.length / 144 ∧
    ∀ i < x.body.length / 2, Mem.get (u.clu c).pm i = store (BitVec.ofNat 12 (sliceLe x.body (2 * i) 2))
  crossbars : ∀ x ∈ sections l, x.type = 0x10 → ∀ r ∈ (u.part t).bound[x.rel]?, ∀ i < x.body.length / 2,
    Mem.get (u.rch r).xbt i = store (BitVec.ofNat 12 (sliceLe x.body (2 * i) 2))

/-- What a load that a check has refused leaves: the partition table, reaches and pages as they were (R145). -/
abbrev LoadUndone (s u : State) (t status : Nat) : Prop :=
  u.rg Reg.WHF_TSTAT_load_status t = status ∧ u.rg Reg.WHF_TSTAT_mode t = s.rg Reg.WHF_TSTAT_mode t ∧ u.parts = s.parts ∧
    u.clusters = s.clusters ∧ u.reaches = s.reaches ∧ u.pagesUsed = s.pagesUsed ∧
    (s.pagesRetired = [] → u.ledger.free = s.ledger.free)

end Sys2Proof.Claims

open Sys2Proof Sys2Proof.Machine Sys2Proof.Claims

/-- One step takes the command at the front of the queue and answers what exec answers on the state with the queue's rest. -/
def Obligations.StepRunsFrontCommand : Prop :=
  ∀ (c : Instr) (cs : List Instr) (s : State), s.pending = c :: cs → step s = exec c { s with pending := cs }

/-- Every command answers a next state, and leaves the queue of waiting commands as it found it. -/
def Obligations.EveryCommandAnswersAndKeepsQueue : Prop :=
  ∀ (c : Instr) (s : State), ∃ t, exec c s = .next t ∧ t.pending = s.pending

/-- A read of a read-and-clear counter returns the register and clears its RC fields, with the fields that the same read clears; every other
field, and everything else, stays (R8). A counter read that selects no unit answers zero and changes nothing else (R541). The errors
that a locked checker has counted are free (log entry 74). -/
def Obligations.CounterReads : Prop :=
  (∀ (s : State) (c : Instr) (x : Counter) (i : Nat), counterOf s c = some x → x.inst = some i → Readable s x.who x.addr →
     (x.addr = 0x400030 → s.on Reg.AQ_PRBS_locked i = false) →
     exec c s = .next ((x.clears.foldl (fun u f => u.setRg f i 0) s).answer (wordOf s x.fields i))) ∧
  (∀ (s : State) (c : Instr) (x : Counter), counterOf s c = some x → x.inst = none → Readable s x.who x.addr →
     exec c s = .next (s.answer 0)) ∧
  (∀ (s : State) (who : Requester) (n : Nat), s.selLane who = some n → Readable s who 0x400030 → s.on Reg.AQ_PRBS_locked n = true →
     ∃ u, exec (.aqPrbsErr who) s = .next u ∧ u.readData = Config.freeWord s.freeCtr ∧ u.rg Reg.AQ_PRBS_ERR_errors n = 0 ∧
       RegsBut s u [fieldKey Reg.AQ_PRBS_ERR_errors n 0] ∧
       { u with regs := s.regs, readData := s.readData, freeCtr := s.freeCtr } = s)

/-- Literals and stack operations leave the stack that R362 gives, change no flag and no memory, and go on to the next instruction.
Arithmetic, logic, shift, multiply and compare operations leave the result and the flags of R362 and R363. Operations on the registers of
R350, and the two privileged operations that only set a mode, in the rings that may run them. TOR moves a cell to the return stack, FROMR
brings one back, and RFETCH copies one; an entry's low cell is the cell (R362). -/
def Obligations.KealaOperations : Prop :=
  (∀ (s : State) (c : Instr) (k : Fin 4) (n : Nat) (f : Effect) (st : List Cell),
     stackOp (begun (s.kpr k.val)) c = some (k, n, f) → c.wellFormed = true → KReady s k.val st → n ≤ st.length →
       ∃ t, exec c s = .next t ∧ KDid s t k.val (next (f st).2 (f st).1)) ∧
  (∀ (s : State) (c : Instr) (k : Fin 4) (n : Nat) (f : Effect) (st : List Cell),
     aluOp (begun (s.kpr k.val)) c = some (k, n, f) → c.wellFormed = true → KReady s k.val st → n ≤ st.length →
       ∃ t, exec c s = .next t ∧ KDid s t k.val (next (f st).2 (f st).1)) ∧
  (∀ (s : State) (c : Instr) (k : Fin 4) (n : Nat) (f : Effect) (st : List Cell),
     registerOp (begun (s.kpr k.val)) c = some (k, n, f) → c.wellFormed = true → KReady s k.val st → n ≤ st.length →
       ∃ t, exec c s = .next t ∧ KDid s t k.val (next (f st).2 (f st).1)) ∧
  (∀ (s : State) (k : Fin 4) (st : List Cell) (es : List Nat),
     let x := begun (s.kpr k.val)
     (∀ c, KReady s k.val (c :: st) → RReady s k.val es →
       ∃ t, exec (.tor k) s = .next t ∧ KDid s t k.val (withReturns (next x st) (c.toNat :: es))) ∧
     (∀ e, KReady s k.val st → RReady s k.val (e :: es) →
       (∃ t, exec (.fromr k) s = .next t ∧ KDid s t k.val (withReturns (next x (BitVec.ofNat 12 e :: st)) es)) ∧
       (∃ t, exec (.rfetch k) s = .next t ∧ KDid s t k.val (next x (BitVec.ofNat 12 e :: st)))))

/-- A load from local data that the ring may read pushes the cell and changes no memory (R355, R356, R362). A store to local data that the
ring may write stores the cell at its address with fresh parity; every other cell of local data, and everything else, stays (R355, R356,
R362). -/
def Obligations.KealaLocalMemory : Prop :=
  (∀ (s : State) (c : Instr) (k : Fin 4) (a : Nat) (l st : List Cell) (x : Keeper),
     loadOp (begun (s.kpr k.val)) st c = some (k, a, l, x) → c.wellFormed = true → KReady s k.val st →
       localOk s k.val a = true → parityOk (Mem.get (s.kpr k.val).data a) = true →
       ∃ t, exec c s = .next t ∧ KDid s t k.val (next x (cellOf (Mem.get (s.kpr k.val).data a) :: l))) ∧
  (∀ (s : State) (c : Instr) (k : Fin 4) (a : Nat) (v : Cell) (l st : List Cell) (x : Keeper),
     storeOp (begun (s.kpr k.val)) st c = some (k, a, v, l, x) → c.wellFormed = true → KReady s k.val st →
       localOk s k.val a = true →
       ∃ t, exec c s = .next t ∧ KDid s t k.val { next x l with data := (t.kpr k.val).data } ∧
         Mem.get (t.kpr k.val).data a = store v ∧
         ∀ b, b ≠ a → Mem.get (t.kpr k.val).data b = Mem.get (s.kpr k.val).data b)

/-- JMP, CALL, BZ and BNZ go where R361 says; a branch pops T, shifts its outcome into the history and counts a wrong hint (R387). JMPA,
CALLA and MCALL pop a pair and go to hi[2:0] × 4,096 + lo; CALLA pushes a plain entry, MCALL the registers of its mask and a masked entry.
Only the predictor's target table and its count may change beside them (R362, R364, R387). RET 0 returns through a plain entry, and MRET
restores the registers of its mask from beneath a masked entry (R364, R365). GATE through a valid entry to a lower ring whose stack set is
the current one and whose arguments carry no check: the callee's ring, its entry address, and a gate entry with the caller's ring and set;
RET through that entry comes back (R370, R371). -/
def Obligations.KealaTransfersOfControl : Prop :=
  ((∀ (s : State) (k : Fin 4) (off : BitVec 10) (st : List Cell), KReady s k.val st → (s.kpr k.val).pc < 32768 →
     ∃ t, exec (.jmp k off) s = .next t ∧
       KDid s t k.val { begun (s.kpr k.val) with pc := relativeTarget (s.kpr k.val).pc off }) ∧
   (∀ (s : State) (k : Fin 4) (off : BitVec 10) (st : List Cell) (es : List Nat), KReady s k.val st → RReady s k.val es →
     (s.kpr k.val).pc < 32768 →
     ∃ t, exec (.call k off) s = .next t ∧
       KDid s t k.val (withReturns { begun (s.kpr k.val) with pc := relativeTarget (s.kpr k.val).pc off }
         (returnEntry 0 0 (((s.kpr k.val).pc + 1) % 32768) :: es))) ∧
   (∀ (s : State) (k : Fin 4) (hint z : Bool) (off : BitVec 9) (a : Cell) (st : List Cell), KReady s k.val (a :: st) →
     (s.kpr k.val).pc < 32768 →
     let taken := if z then decide (a = 0) else decide (a ≠ 0)
     let x := begun (s.kpr k.val)
     ∃ t, exec (if z then .bz k hint off else .bnz k hint off) s = .next t ∧
       KWent s t k.val { next x st with pc := if taken then relativeTarget x.pc off else (x.pc + 1) % 32768,
                                        hist := branchHistory s k.val taken } ∧
       t.rg Reg.KPR_CNT_MISP_misp k.val =
         (if s.on Reg.KPR_CTRL_pred_off k.val ∨ hint = taken then s.rg Reg.KPR_CNT_MISP_misp k.val
          else min (2 ^ 32 - 1) (s.rg Reg.KPR_CNT_MISP_misp k.val + 1)))) ∧
  (∀ (s : State) (k : Fin 4) (lo hi : Cell) (st : List Cell) (es : List Nat) (m : BitVec 6),
     KReady s k.val (hi :: lo :: st) → RReady s k.val es → oddOnes 17 (Mem.get (s.kpr k.val).itt (s.kpr k.val).ittIndex).toNat = false →
     let x := begun (s.kpr k.val)
     let y := { next x st with pc := hi.toNat % 8 * 4096 + lo.toNat }
     (∃ t, exec (.jmpa k) s = .next t ∧ KWent s t k.val { y with itt := (t.kpr k.val).itt }) ∧
     (∃ t, exec (.calla k) s = .next t ∧
       KWent s t k.val (withReturns { y with itt := (t.kpr k.val).itt } (returnEntry 0 0 ((x.pc + 1) % 32768) :: es))) ∧
     (∃ t, exec (.mcall k m) s = .next t ∧
       KWent s t k.val (withReturns { y with itt := (t.kpr k.val).itt }
         (returnEntry 1 m.toNat ((x.pc + 1) % 32768) :: (maskedRegisters x m ++ es))))) ∧
  ((∀ (s : State) (k : Fin 4) (st : List Cell) (a : Nat) (es : List Nat), KReady s k.val st → a < 32768 →
     RReady s k.val (returnEntry 0 0 a :: es) →
     ∃ t, exec (.ret k 0) s = .next t ∧ KDid s t k.val (withReturns { begun (s.kpr k.val) with pc := a } es)) ∧
   (∀ (s : State) (k : Fin 4) (st : List Cell) (a : Nat) (m : BitVec 6) (y : Keeper) (es : List Nat), KReady s k.val st → a < 32768 →
     RReady s k.val (returnEntry 1 m.toNat a :: (maskedRegisters y m ++ es)) →
     let x := begun (s.kpr k.val)
     ∃ t, exec (.mret k m) s = .next t ∧
       KDid s t k.val (withReturns { x with
         pc := a
         al := if m.getLsbD 0 then y.al else x.al
         ah := if m.getLsbD 0 then y.ah else x.ah
         ix := if m.getLsbD 1 then y.ix else x.ix
         jx := if m.getLsbD 2 then y.jx else x.jx
         fl := if m.getLsbD 3 then y.fl &&& 0xF#12 else x.fl
         u := if m.getLsbD 4 then y.u else x.u
         v := if m.getLsbD 5 then y.v else x.v } es))) ∧
  ((∀ (s : State) (k : Fin 4) (g : BitVec 6) (st : List Cell) (es : List Nat),
     let x := begun (s.kpr k.val)
     let cells := gateCells s k.val x.ring g.toNat
     let c1 := cells[1]?.getD 0
     KReady s k.val st → RReady s k.val es → x.ring ≠ 0 → gateReads s k.val x.ring g.toNat = true → c1.testBit 11 = true →
     c1 / 8 % 4 < x.ring → c1 / 32 % 8 ≤ st.length → c1 / 256 % 8 = x.set → cells.drop 2 = [0, 0, 0, 0] →
     ∃ t, exec (.gate k g) s = .next t ∧
       KDid s t k.val (flushed s k.val x.ring (c1 / 8 % 4) (withReturns
         { x with rg := rgWith x (c1 / 8 % 4) x.ie x.dfl, pc := cells[0]?.getD 0 + c1 % 8 * 4096 }
         (returnEntry 2 (x.ring + x.set * 4) ((x.pc + 1) % 32768) :: es)))) ∧
   (∀ (s : State) (k : Fin 4) (n : BitVec 6) (q a : Nat) (st : List Cell) (es : List Nat),
     let x := begun (s.kpr k.val)
     KReady s k.val st → n.toNat < 8 → n.toNat ≤ st.length → x.ring ≤ q → q < 4 → a < 32768 →
     RReady s k.val (returnEntry 2 (q + x.set * 4) a :: es) →
     ∃ t, exec (.ret k n) s = .next t ∧
       KDid s t k.val (flushed s k.val x.ring q (withReturns { x with rg := rgWith x q x.ie x.dfl, pc := a } es))))

/-- BRK and an illegal instruction raise their fault: recorded, and the handler entered through vector 6, or vector 5 from rings 2 and 3,
with the resume address that R374 gives. A takeover, a lock hook and an interrupt are taken at a boundary, through vectors 2, 4 and 3: a
takeover in ring 0, the others in ring 1 (R372 to R374, R378, R381; of a takeover, where no restore has to be repeated). RETI through an
event entry of the current stack set restores every register from the frame, the zero bits of FL and RG apart (R350, R351, R374). -/
def Obligations.KealaEntriesAndReturn : Prop :=
  (∀ (s : State) (c : Instr) (k : Fin 4) (code detail a : Nat) (after : Bool) (st : List Cell) (es : List Nat),
     faultOf c = some (k, code, detail, after) → c.wellFormed = true → KReady s k.val st → RReady s k.val es →
     let x := begun (s.kpr k.val)
     x.dfl = false → x.inBlock = false → x.pc < 32768 → vectorTo s k.val (if 2 ≤ x.ring then 5 else 6) = some a →
     ∃ t, exec c s = .next t ∧ FaultRecorded t k.val code detail x.ring x.pc ∧
       KDid s { t with regs := s.regs } k.val
         { entered s k.val (if 2 ≤ x.ring then 1 else 0) a (if after then (x.pc + 1) % 32768 else x.pc) x es with entering := true } ∧
       ∀ key, t.regs.find key ≠ s.regs.find key →
         ∃ f ∈ Reg.KPR_FAULT.fields ++ Reg.KPR_FAULT_PC.fields, key = fieldKey f k.val 0) ∧
  (∀ (s : State) (k : Fin 4) (v a : Nat) (es : List Nat), v = 2 ∨ v = 3 ∨ v = 4 → s.keeperOn k.val = true →
     s.eventAt k.val = some v → s.on Reg.TST_FLIP_arm = false → RReady s k.val es → (s.kpr k.val).pc < 32768 →
     vectorTo s k.val v = some a →
     (v = 2 → ∀ t < 16, s.rg Reg.LCK_STATUSt_phase t ≠ 4 ∨ (s.part t).hooksOpen = []) →
     let x := s.kpr k.val
     ∃ t, exec (if v = 2 then .takeover k else if v = 3 then .interruptEntry k else .lockHook k) s = .next t ∧
       KDid s t k.val { entered s k.val (if v = 2 then 0 else 1) a x.pc x es with
         takeover := x.takeover && decide (v ≠ 2), hookTaken := x.hookTaken || decide (v = 4) }) ∧
  (∀ (s : State) (k : Fin 4) (y : Keeper) (a : Nat) (st : List Cell) (es : List Nat),
     let x := begun (s.kpr k.val)
     let rg := y.rg &&& 0xF7F#12
     KReady s k.val st → x.ring ≤ 1 → a < 32768 → y.set = x.set →
     RReady s k.val ([returnEntry 3 0 a, y.rg.toNat, y.v.toNat, y.u.toNat, y.fl.toNat, y.jx.toNat, y.ix.toNat,
       y.al.toNat + y.ah.toNat * 4096] ++ es) →
     ∃ t, exec (.reti k) s = .next t ∧
       KDid s t k.val (flushed s k.val x.ring y.ring (withReturns { x with
         pc := a, rg := rg, v := y.v, u := y.u, fl := y.fl &&& 0xF#12, jx := y.jx, ix := y.ix, al := y.al, ah := y.ah } es)))

/-- MOVEB and FILLB handle one element of local data: the cell is stored and no other changes, the operand cells change together, and after
the last element they are popped (R366, R367). SCANB looks at one cell of local data: a match ends it with Z 0 and its operands in place;
otherwise it goes on, and at n = 0 it ends with Z 1 (R367). A block instruction that finds no element left pops its operands and goes on;
CHKB feeds one cell of local data, low byte first, to a check unit that is assigned to the keeper and runs no scan (R367, R468). -/
def Obligations.KealaBlockOperations : Prop :=
  (∀ (s : State) (k : Fin 4) (n v sl sh dl dh : Cell) (st : List Cell),
     let x := begun (s.kpr k.val)
     let src := sl.toNat + sh.toNat * 4096
     let dst := dl.toNat + dh.toNat * 4096
     n ≠ 0 → localOk s k.val dst = true →
     (KReady s k.val ([n, dh, dl, sh, sl] ++ st) → localOk s k.val src = true → parityOk (Mem.get x.data src) = true →
       ∃ t, exec (.moveb k) s = .next t ∧ Mem.get (t.kpr k.val).data dst = store (cellOf (Mem.get x.data src)) ∧
         (∀ b, b ≠ dst → Mem.get (t.kpr k.val).data b = Mem.get x.data b) ∧
         KDid s t k.val { (if n = 1 then { next x st with inBlock := false }
           else between x ([n - 1] ++ pairAfter dst ++ pairAfter src) st) with data := (t.kpr k.val).data }) ∧
     (KReady s k.val ([n, v, dh, dl] ++ st) →
       ∃ t, exec (.fillb k) s = .next t ∧ Mem.get (t.kpr k.val).data dst = store v ∧
         (∀ b, b ≠ dst → Mem.get (t.kpr k.val).data b = Mem.get x.data b) ∧
         KDid s t k.val { (if n = 1 then { next x st with inBlock := false }
           else between x ([n - 1, v] ++ pairAfter dst) st) with data := (t.kpr k.val).data })) ∧
  (∀ (s : State) (k : Fin 4) (e : Bool) (n v sl sh : Cell) (st : List Cell),
     let x := begun (s.kpr k.val)
     let src := sl.toNat + sh.toNat * 4096
     let z := fun (b : Bool) => (x.fl &&& 0xD#12) ||| (if b then 2#12 else 0#12)
     KReady s k.val ([n, v, sh, sl] ++ st) → x.fl.toNat < 16 → localOk s k.val src = true → parityOk (Mem.get x.data src) = true →
     ∃ t, exec (.scanb k (if e then 1 else 0)) s = .next t ∧
       KDid s t k.val
         (if n = 0 then { next x ([n, v, sh, sl] ++ st) with fl := z true, inBlock := false }
          else if (cellOf (Mem.get x.data src) = v) ↔ (e = false) then
            { next x ([n, v, sh, sl] ++ st) with fl := z false, inBlock := false }
          else if n = 1 then { next x ([0, v] ++ pairAfter src ++ st) with fl := z true, inBlock := false }
          else between x ([n - 1, v] ++ pairAfter src) st)) ∧
  ((∀ (s : State) (k : Fin 4) (u : BitVec 6) (a b c d : Cell) (st : List Cell), u.toNat < 4 →
     let x := begun (s.kpr k.val)
     (KReady s k.val ([0, a, b, c, d] ++ st) → ∃ t, exec (.moveb k) s = .next t ∧ KDid s t k.val { next x st with inBlock := false }) ∧
     (KReady s k.val ([0, a, b, c] ++ st) → ∃ t, exec (.fillb k) s = .next t ∧ KDid s t k.val { next x st with inBlock := false }) ∧
     (KReady s k.val ([0, a, b] ++ st) → ∃ t, exec (.chkb k u) s = .next t ∧ KDid s t k.val { next x st with inBlock := false })) ∧
   (∀ (s : State) (k : Fin 4) (u : BitVec 6) (n sl sh : Cell) (st : List Cell), u.toNat < 4 →
     let x := begun (s.kpr k.val)
     let src := sl.toNat + sh.toNat * 4096
     n ≠ 0 → KReady s k.val ([n, sh, sl] ++ st) → localOk s k.val src = true → parityOk (Mem.get x.data src) = true →
     s.rg Reg.CHK_ASSIGNu_kind u.toNat = 1 → s.rg Reg.CHK_ASSIGNu_id u.toNat = k.val → s.on Reg.CHK_SCANu_CTRL_busy u.toNat = false →
     let c := (cellOf (Mem.get x.data src)).toNat
     ∃ t, exec (.chkb k u) s = .next t ∧
       KDid (s.chkFeed u.toNat [BitVec.ofNat 8 c, BitVec.ofNat 8 (c / 256)]) t k.val
         (if n = 1 then { next x st with inBlock := false } else between x ([n - 1] ++ pairAfter src) st)))

/-- SEMT takes a free semaphore and answers 0xFFF, or 0x7FF once when a keeper reset released it; a held one answers 0. SEMG gives back a
semaphore that the keeper holds (R382). WINR pushes a window's two cells and WINW writes them, bits [17:14] reading zero, in rings 0 and 1
(R357, R362). A customer instruction whose one micro-word is LITM with its end bit set pushes the immediate, or the micro-word's own
operand, and goes on to the next instruction (R384, R385). -/
def Obligations.KealaSystemOperations : Prop :=
  (∀ (s : State) (k : Fin 4) (n : BitVec 6) (st : List Cell),
     let x := begun (s.kpr k.val)
     KReady s k.val st → n.toNat < 32 → (n.toNat < 16 → x.ring ≤ 1) →
     (∀ j, s.sems.find n.toNat = some j → ∃ t, exec (.semt k n) s = .next t ∧ KDid s t k.val (next x (0 :: st))) ∧
     (s.sems.find n.toNat = none → s.rg Reg.KPR_SEM_RST_released < 2 ^ 32 → ∃ t, exec (.semt k n) s = .next t ∧
       KDid s { t with sems := s.sems, regs := s.regs } k.val
         (next x ((if (s.rg Reg.KPR_SEM_RST_released).testBit n.toNat then 0x7FF#12 else 0xFFF#12) :: st)) ∧
       t.sems.find n.toNat = some k.val ∧ (∀ j, j ≠ n.toNat → t.sems.find j = s.sems.find j) ∧
       (∀ i, (t.rg Reg.KPR_SEM_RST_released).testBit i =
         ((s.rg Reg.KPR_SEM_RST_released).testBit i && decide (i ≠ n.toNat)))) ∧
     (s.sems.find n.toNat = some k.val → ∃ t, exec (.semg k n) s = .next t ∧
       KDid s { t with sems := s.sems } k.val (next x st) ∧ t.sems.find n.toNat = none ∧
       ∀ j, j ≠ n.toNat → t.sems.find j = s.sems.find j)) ∧
  (∀ (s : State) (k : Fin 4) (w : BitVec 6) (st : List Cell),
     let x := begun (s.kpr k.val)
     w.toNat < 8 → x.ring ≤ 1 →
     (∀ lo hi, s.getTbl k.val 9 w.toNat 0 = .ok lo → s.getTbl k.val 9 w.toNat 1 = .ok hi → KReady s k.val st →
       ∃ t, exec (.winr k w) s = .next t ∧ KDid s t k.val (next x (BitVec.ofNat 12 hi :: BitVec.ofNat 12 lo :: st))) ∧
     (∀ lo hi : Cell, KReady s k.val (hi :: lo :: st) →
       ∃ t, exec (.winw k w) s = .next t ∧ KDid s t k.val { next x st with tbl := (t.kpr k.val).tbl, tblCopy := (t.kpr k.val).tblCopy } ∧
         t.getTbl k.val 9 w.toNat 0 = .ok lo.toNat ∧ t.getTbl k.val 9 w.toNat 1 = .ok (hi &&& 0xFC3#12).toNat ∧
         ∀ a, a ≠ 36864 + 8 * w.toNat → a ≠ 36864 + 8 * w.toNat + 1 → Mem.get (t.kpr k.val).tbl a = Mem.get x.tbl a)) ∧
  (∀ (s : State) (k : Fin 4) (index imm : BitVec 6) (c0 c1 lo hi : Nat) (st : List Cell),
     let x := begun (s.kpr k.val)
     KReady s k.val st → s.getTbl k.val 6 index.toNat 0 = .ok c0 → s.getTbl k.val 6 index.toNat 1 = .ok c1 →
     c0.testBit 11 = true → c1.testBit (4 + x.ring) = true → (c1.testBit 8 = true ∨ c1 % 16 = x.tenant) →
     s.getTbl k.val 7 (c0 % 256) 0 = .ok lo → s.getTbl k.val 7 (c0 % 256) 1 = .ok hi → lo / 64 = 0x3F → hi.testBit 1 = true →
     ∃ t, exec (.customerInstruction k index imm) s = .next t ∧
       KDid s t k.val { next x ((if hi.testBit 0 then imm.setWidth 12 else BitVec.ofNat 12 (lo % 64)) :: st) with custom := false })

/-- While a cluster's window is open, CLU_VM_DATA and CLU_PM_DATA write one cell with fresh parity (CLU_VM_DATA under its mask) and read one
back with its parity verdict; nothing moves but the cell, the address under autoinc, and par_err (R77, R78). While a reach's windows are
open, a write of RCH_XBT_DATA, RCH_NSM_DATA or RCH_BMAP_DATA stores one cell of its table with fresh parity, and a read returns one with its
parity verdict; the copy of the berth map apart, nothing else moves but the address under autoinc and par_err (R151, R152, R217). A window
that is closed refuses: a write changes only the requester's rejected bit, and a read returns zero and sets it (R77, R151). LCK_TREE_DATA
stores and reads the entry that LCK_TREE_ADDR names, and steps the index modulo 17 when autoinc is set (R317). -/
def Obligations.MemoryAndTableWindows : Prop :=
  (∀ (s : State) (who : Requester) (c : Nat) (v : Word), s.selCluster who = some c → s.cluOpen who c = true →
     s.on Reg.TST_FLIP_arm = false →
     let k := copyOf who
     let x := s.clu c
     let a := s.rgw Reg.CLU_VM_ADDR_cell k
     let mask := BitVec.ofNat 12 (s.rgw Reg.CLU_VM_WMASK_mask k)
     let a' := nextAddr (decide (s.rgw Reg.CLU_VM_ADDR_autoinc k = 1)) 0 1 a 4096
     let w := s.rgw Reg.CLU_PM_ADDR_word k
     let e := s.rgw Reg.CLU_PM_ADDR_cell k
     let w' := nextAddr (decide (s.rgw Reg.CLU_PM_ADDR_autoinc k = 1)) e 72 w 1024
     let vmKeys := [fieldKey Reg.CLU_VM_ADDR_cell 0 k]
     let pmKeys := [fieldKey Reg.CLU_PM_ADDR_cell 0 k, fieldKey Reg.CLU_PM_ADDR_word 0 k]
     a < 4096 → e < 72 → w < 1024 →
     (Writable s who Reg.CLU_VM_DATA.addr → parityOk (Mem.get x.vm a) = true →
       ∃ t, exec (.cluVmDataWrite who v) s = .next t ∧ Elsewhere s t ∧ t.reaches = s.reaches ∧
         CluIs s t c { x with vm := (t.clu c).vm } ∧
         StoredAt x.vm (t.clu c).vm a (store ((cellOf (Mem.get x.vm a) &&& ~~~mask) ||| (v.setWidth 12 &&& mask))) ∧
         t.rgw Reg.CLU_VM_ADDR_cell k = a'.2 ∧ RegsBut s t vmKeys) ∧
     (Readable s who Reg.CLU_VM_DATA.addr →
       ∃ t, exec (.cluVmDataRead who) s = .next t ∧ Elsewhere s { t with readData := s.readData } ∧ t.clusters = s.clusters ∧
         t.reaches = s.reaches ∧ t.readData = BitVec.ofNat 32 (cellWord (Mem.get x.vm a)) ∧
         t.rgw Reg.CLU_VM_ADDR_cell k = a'.2 ∧ RegsBut s t (fieldKey Reg.CLU_VM_DATA_par_err c 0 :: vmKeys)) ∧
     (Writable s who Reg.CLU_PM_DATA.addr →
       ∃ t, exec (.cluPmDataWrite who v) s = .next t ∧ Elsewhere s t ∧ t.reaches = s.reaches ∧
         CluIs s t c { x with pm := (t.clu c).pm } ∧ StoredAt x.pm (t.clu c).pm (72 * w + e) (store (v.setWidth 12)) ∧
         (t.rgw Reg.CLU_PM_ADDR_cell k, t.rgw Reg.CLU_PM_ADDR_word k) = w' ∧ RegsBut s t pmKeys) ∧
     (Readable s who Reg.CLU_PM_DATA.addr →
       ∃ t, exec (.cluPmDataRead who) s = .next t ∧ Elsewhere s { t with readData := s.readData } ∧ t.clusters = s.clusters ∧
         t.reaches = s.reaches ∧ t.readData = BitVec.ofNat 32 (cellWord (Mem.get x.pm (72 * w + e))) ∧
         (t.rgw Reg.CLU_PM_ADDR_cell k, t.rgw Reg.CLU_PM_ADDR_word k) = w' ∧
         RegsBut s t (fieldKey Reg.CLU_PM_DATA_par_err c 0 :: pmKeys))) ∧
  (∀ (s : State) (who : Requester) (r : Nat) (v : Word) (w : Win) (wr rd : Instr), w ∈ windows → w.Access who (some v) wr →
     w.Access who none rd → s.selReach who = some r → s.rchOpen who r = true →
     s.on Reg.TST_FLIP_arm = false →
     let k := copyOf who
     let x := s.rch r
     let c := s.rgw w.cell k
     let e := s.rgw w.entry k
     let a' := nextAddr (decide (s.rgw w.autoinc k = 1)) c w.cells e w.entries
     let keys := [fieldKey w.cell 0 k, fieldKey w.entry 0 k]
     c < w.cells → e < w.entries →
     (Writable s who w.data.addr →
       ∃ t, exec wr s = .next t ∧ Elsewhere s t ∧ t.clusters = s.clusters ∧
         RchIs s t r { x with xbt := (t.rch r).xbt, nsm := (t.rch r).nsm, bmap := (t.rch r).bmap, bmapCopy := (t.rch r).bmapCopy } ∧
         StoredAt (w.table x) (w.table (t.rch r)) (w.cells * e + c) (store (v.setWidth 12)) ∧
         (∀ w' ∈ windows, w'.data ≠ w.data → w'.table (t.rch r) = w'.table x) ∧
         (t.rgw w.cell k, t.rgw w.entry k) = a' ∧ RegsBut s t keys) ∧
     (Readable s who w.data.addr →
       ∃ t, exec rd s = .next t ∧ Elsewhere s { t with readData := s.readData } ∧ t.clusters = s.clusters ∧
         t.reaches = s.reaches ∧ t.readData = BitVec.ofNat 32 (cellWord (Mem.get (w.table x) (w.cells * e + c))) ∧
         (t.rgw w.cell k, t.rgw w.entry k) = a' ∧ RegsBut s t (fieldKey w.par r 0 :: keys))) ∧
  (∀ (s : State) (who : Requester) (v : Word),
     let k := copyOf who
     (∀ c, s.selCluster who = some c → s.cluOpen who c = false →
       (Writable s who Reg.CLU_VM_DATA.addr → exec (.cluVmDataWrite who v) s = .next (s.setRgw Reg.CLU_VM_ADDR_rejected k 0 1)) ∧
       (Readable s who Reg.CLU_VM_DATA.addr →
         exec (.cluVmDataRead who) s = .next ((s.setRgw Reg.CLU_VM_ADDR_rejected k 0 1).answer 0)) ∧
       (Writable s who Reg.CLU_PM_DATA.addr → exec (.cluPmDataWrite who v) s = .next (s.setRgw Reg.CLU_VM_ADDR_rejected k 0 1)) ∧
       (Readable s who Reg.CLU_PM_DATA.addr →
         exec (.cluPmDataRead who) s = .next ((s.setRgw Reg.CLU_VM_ADDR_rejected k 0 1).answer 0))) ∧
     (∀ r, s.selReach who = some r → s.rchOpen who r = false →
       ∀ (w : Win) (wr rd : Instr), w ∈ windows → w.Access who (some v) wr → w.Access who none rd →
       (Writable s who w.data.addr → exec wr s = .next (s.setRgw w.rejected k 0 1)) ∧
       (Readable s who w.data.addr → exec rd s = .next ((s.setRgw w.rejected k 0 1).answer 0)))) ∧
  (∀ (s : State) (who : Requester) (v : Word),
     let k := copyOf who
     let index := s.rgw Reg.LCK_TREE_ADDR_index k
     let i := 17 * s.rgw Reg.LCK_TREE_ADDR_tenant k + index
     let keys := [fieldKey Reg.LCK_TREE_DATA_root i 0, fieldKey Reg.LCK_TREE_DATA_valid i 0, fieldKey Reg.LCK_TREE_DATA_device i 0,
       fieldKey Reg.LCK_TREE_ADDR_index 0 k]
     let next := fun (t : State) => t.rgw Reg.LCK_TREE_ADDR_index k = if s.rgw Reg.LCK_TREE_ADDR_autoinc k = 1 then (index + 1) % 17 else index
     index < 17 →
     (Writable s who 0x500004 → s.loaded (i / 17) = false →
       ∃ u, exec (.lckTreeData who (some v)) s = .next u ∧ { u with regs := s.regs } = s ∧ u.rg Reg.LCK_TREE_DATA_root i = bits v.toNat 13 1 ∧
         u.rg Reg.LCK_TREE_DATA_valid i = bits v.toNat 12 1 ∧ u.rg Reg.LCK_TREE_DATA_device i = bits v.toNat 0 12 ∧ next u ∧ RegsBut s u keys) ∧
     (Readable s who 0x500004 →
       ∃ u, exec (.lckTreeData who none) s = .next u ∧ { u with regs := s.regs, readData := s.readData } = s ∧ next u ∧ RegsBut s u keys ∧
         u.readData.toNat = s.rg Reg.LCK_TREE_DATA_root i * 8192 + s.rg Reg.LCK_TREE_DATA_valid i * 4096 + s.rg Reg.LCK_TREE_DATA_device i))

/-- CLU_CTRL and RCH_CTRL: a write that changes no Fixed field in use stores every field of the register for the selected cluster or reach,
and nothing else; one that would change such a field is refused whole, with reason 0 in the requester's WHF_ACCERR (R81, R152, R550).
CLU_RESUME: a write of 1 releases a cluster in a fetch trap or at a breakpoint whose cause bit has been cleared, and a cleared breakpoint
lets its word pass once; while the bit stands, in any other state, and for a write of 0, nothing changes (R70 to R72). -/
def Obligations.ClusterControls : Prop :=
  (∀ (s : State) (who : Requester) (v : Word),
     (∀ c, s.selCluster who = some c → Writable s who Reg.CLU_CTRL.addr →
       let fixed := s.on Reg.CLU_CTRL_enable c = true ∧ Reg.CLU_CTRL_dist_mode.of v ≠ s.rg Reg.CLU_CTRL_dist_mode c
       (¬ fixed → ∃ t, exec (.cluCtrlEnable who v) s = .next t ∧ { t with regs := s.regs } = s ∧
         t.rg Reg.CLU_CTRL_enable c = Reg.CLU_CTRL_enable.of v ∧ t.rg Reg.CLU_CTRL_dist_mode c = Reg.CLU_CTRL_dist_mode.of v ∧
         RegsBut s t [fieldKey Reg.CLU_CTRL_enable c 0, fieldKey Reg.CLU_CTRL_dist_mode c 0]) ∧
       (fixed → exec (.cluCtrlEnable who v) s = .next (s.refuse who 0 Reg.CLU_CTRL.addr))) ∧
     (∀ r, s.selReach who = some r → Writable s who Reg.RCH_CTRL.addr →
       let fixed := s.on Reg.RCH_CTRL_enable r = true ∧
         (Reg.RCH_CTRL_margin.of v ≠ s.rg Reg.RCH_CTRL_margin r ∨ Reg.RCH_CTRL_steps_m1.of v ≠ s.rg Reg.RCH_CTRL_steps_m1 r)
       (¬ fixed → ∃ t, exec (.rchCtrlEnable who v) s = .next t ∧ { t with regs := s.regs } = s ∧
         t.rg Reg.RCH_CTRL_enable r = Reg.RCH_CTRL_enable.of v ∧ t.rg Reg.RCH_CTRL_margin r = Reg.RCH_CTRL_margin.of v ∧
         t.rg Reg.RCH_CTRL_steps_m1 r = Reg.RCH_CTRL_steps_m1.of v ∧
         RegsBut s t [fieldKey Reg.RCH_CTRL_enable r 0, fieldKey Reg.RCH_CTRL_margin r 0, fieldKey Reg.RCH_CTRL_steps_m1 r 0]) ∧
       (fixed → exec (.rchCtrlEnable who v) s = .next (s.refuse who 0 Reg.RCH_CTRL.addr)))) ∧
  (∀ (s : State) (who : Requester) (c : Nat) (v : Word), s.selCluster who = some c → Writable s who Reg.CLU_RESUME.addr →
     (∀ b ∈ (s.clu c).stopBit, Reg.CLU_RESUME_resume.of v = 1 → (s.clu c).st = 6 → (s.cluCause c).testBit b = false →
       ∃ t, exec (.cluResume who v) s = .next t ∧ { t with clusters := s.clusters } = s ∧
         CluIs s t c { s.clu c with st := 1, stopBit := none, bpPass := decide (b = 1) }) ∧
     (∀ b ∈ (s.clu c).stopBit, (s.cluCause c).testBit b = true → exec (.cluResume who v) s = .next s) ∧
     ((Reg.CLU_RESUME_resume.of v = 0 ∨ (s.clu c).st ≠ 6) → exec (.cluResume who v) s = .next s))

/-- A refetch brings the golden copy of the word at the PC: its 72 cells are stored with fresh parity, the cluster goes on, and the
correction is counted and logged as class 0; with that copy unreadable, the cluster stops in a fetch trap with its record; a cluster that
waits for no refetch is as it was (R67 to R69). CLU_ROLE. A new role is armed for the next step boundary of a loaded partition, or takes
effect at once, with role_applied latched, where no step can intervene: in a reach without an owner, and while the partition restores, where
the cluster that held the position becomes a spare with role 0x1F and no memory moves. The same role again takes back what was armed. The
stop plank, written 1, is set and the cluster issues no more (R81, R328, R335, R337). That the last form of R337 acts at the write is the
model's choice (log entry 67). A live substitution at a step boundary: the spare takes over the value memory, the registers, the counters
and what is on its way of the cluster it replaces, keeps its own program memory, and plays the position from now on; the cluster replaced
has role 0x1F and issues no more; role_applied latches. Where a copied unit fails parity the substitution is abandoned, with the cause on
the outgoing cluster and no role changed; with no role armed, nothing happens (R335, R336). That writes and reads on their way go along is
the model's choice (log entry 67). -/
def Obligations.RolesRefetchAndSubstitution : Prop :=
  (∀ (s : State) (c : Fin 408),
     let x := s.clu c.val
     (x.st ≠ 5 → exec (.refetch c) s = .next s) ∧
     (∀ t, s.owner (c.val / 17) = some t → ∀ bad, x.badCell x.pc = some bad → x.st = 5 →
       let g := s.goldWord c.val x.pc
       let y := { x with pm := Mem.putRun x.pm (72 * x.pc) ((Mem.getRun (s.part t).goldPm (72 * g) 72).map store) }
       (y.badCell x.pc = none → s.goldLostOf t false g = false → s.on Reg.TST_FLIP_arm = false →
         exec (.refetch c) s = .next ((((s.setClu c.val y).tally false 0 0 c.val (bad * 1024 + x.pc)).count
           Reg.CLU_CNT_REFETCH_count c.val 1).modClu c.val fun z => { z with st := 1 })) ∧
       ∃ u, exec (.refetch c) s = .next u ∧ (s.goldLostOf t false g = true → (u.clu c.val).st = 6 ∧ (u.clu c.val).stopBit = some 0 ∧
         u.on Reg.CLU_CAUSE_fetch_trap c.val = true ∧ u.on Reg.CLU_FETCH_ERR_valid c.val = true ∧
         u.rg Reg.CLU_FETCH_ERR_cell c.val = bad ∧ u.rg Reg.CLU_FETCH_ERR_word c.val = x.pc % 1024 ∧ (u.clu c.val).pm = x.pm))) ∧
  (∀ (s : State) (who : Requester) (c : Nat) (v : Word), s.selCluster who = some c → Writable s who Reg.CLU_ROLE.addr →
     let role := Reg.CLU_ROLE_role.of v
     let x := s.clu c
     let plain := Reg.CLU_ROLE_retired.of v = 0 ∨ s.on Reg.CLU_ROLE_retired c = true
     (plain → role = s.rg Reg.CLU_ROLE_role c → exec (.cluRole who v) s = .next (s.setClu c { x with roleArmed := none })) ∧
     (∀ t, s.owner (c / 17) = some t → plain → role ≠ s.rg Reg.CLU_ROLE_role c → s.loaded t = true → s.phase t ≠ 4 →
       exec (.cluRole who v) s = .next (s.setClu c { x with roleArmed := some role })) ∧
     (plain → role ≠ s.rg Reg.CLU_ROLE_role c → s.owner (c / 17) = none →
       exec (.cluRole who v) s = .next (((s.setRg Reg.CLU_ROLE_role c role).setClu c { x with roleArmed := none }).cause (.cluster c)
         Reg.CLU_CAUSE_role_applied c)) ∧
     (∀ t, s.owner (c / 17) = some t → ∀ old, s.playing (c / 17) role = some old → plain → role ≠ s.rg Reg.CLU_ROLE_role c → role ≤ 16 →
       old ≠ c → s.loaded t = true → s.phase t = 4 →
       ∃ u, exec (.cluRole who v) s = .next u ∧ u.rg Reg.CLU_ROLE_role c = role ∧ u.rg Reg.CLU_ROLE_role old = 0x1F ∧
         u.on Reg.CLU_CAUSE_role_applied c = true ∧ u.clu c = { x with roleArmed := none } ∧
         u.clu old = { s.clu old with issuing := false, st := 0, stopBit := none } ∧ ClusBut s u [c, old]) ∧
     (Reg.CLU_ROLE_retired.of v = 1 → s.on Reg.CLU_ROLE_retired c = false → role = s.rg Reg.CLU_ROLE_role c →
       ∃ u, exec (.cluRole who v) s = .next u ∧ u.on Reg.CLU_ROLE_retired c = true ∧ u.rg Reg.CLU_ROLE_role c = role ∧
         CluIs s u c { x with issuing := false, st := 0, roleArmed := none } ∧ u.parts = s.parts)) ∧
  (∀ (s : State) (c : Fin 408),
     ((s.clu c.val).roleArmed = none → exec (.liveSubstitution c) s = .next s) ∧
     (∀ p ∈ (s.clu c.val).roleArmed, ∀ old, s.playing (c.val / 17) p = some old → p ≤ 16 → old ≠ c.val → s.atStep (c.val / 17) = true →
       let x := s.clu old
       (x.badCopy = none → s.memWf = true → s.on Reg.TST_FLIP_arm = false →
         ∃ t, exec (.liveSubstitution c) s = .next t ∧
           (t.clu c.val).vm = x.vm ∧ (t.clu c.val).rf = x.rf ∧
           (t.clu c.val).pc = x.pc ∧ (t.clu c.val).t = x.t ∧ (t.clu c.val).lvl0 = x.lvl0 ∧ (t.clu c.val).lvl1 = x.lvl1 ∧
           (t.clu c.val).latch = x.latch ∧ (t.clu c.val).vl = x.vl ∧ (t.clu c.val).acLive = x.acLive ∧
           (t.clu c.val).inflight = x.inflight ∧ (t.clu c.val).reads = x.reads ∧ (t.clu c.val).pm = (s.clu c.val).pm ∧
           (t.clu c.val).issuing = x.issuing ∧ (t.clu old).issuing = false ∧ ClusBut s t [c.val, old] ∧
           t.rg Reg.CLU_ROLE_role c.val = p ∧ t.rg Reg.CLU_ROLE_role old = 0x1F ∧ t.on Reg.CLU_CAUSE_role_applied c.val = true) ∧
       (∀ b ∈ x.badCopy, s.on Reg.CLU_ROLE_retired old = false →
         ∃ t, exec (.liveSubstitution c) s = .next t ∧ (t.clu c.val).roleArmed = none ∧ (t.clu old).st = 8 ∧
           t.rg Reg.CLU_ROLE_role old = s.rg Reg.CLU_ROLE_role old ∧ t.rg Reg.CLU_ROLE_role c.val = s.rg Reg.CLU_ROLE_role c.val ∧
           t.on (match b with | .inl _ => Reg.CLU_CAUSE_vm_parity | .inr _ => Reg.CLU_CAUSE_reg_parity) old = true)))

/-- Every slot encoding reads back: a well-formed slot from its 72 bits, and 72 bits that decode from the slot they decode to; and every
operand from its descriptor (R82 to R112). No two words of a keeper's program spell one instruction, and what a word spells is well formed
(R360 to R362). -/
def Obligations.SlotRoundTrip : Prop :=
  (∀ i : SlotI, i.wellFormed = true → decodeSlot (encodeSlot i) = some i) ∧
  (∀ (x : Slot) (i : SlotI), decodeSlot x = some i → encodeSlot i = x ∧ i.wellFormed = true) ∧
  (∀ o : Operand, o ≠ .bad → o ≠ .rel 0 → operandOf (descriptorOf o) = o) ∧
  (∀ x : BitVec 16, operandOf x ≠ .bad → descriptorOf (operandOf x) = x) ∧
  (∀ (k : Fin 4) (w w' : BitVec 14) (i : Instr), kealaInstr k w = some i → i.wellFormed = true ∧ (kealaInstr k w' = some i → w' = w))

/-- The results and flags of the word operations, the multiplies and the accumulator operations (R94 to R99). -/
def Obligations.WordOperationResults : Prop :=
  (∀ (o : WordOp) (a b : Cell) (n : Nat) (c : Bool) (r : Cell × Bool), n < 16 → wordTable o a b n c = some r →
    wordResult o a b n c = r) ∧
  (∀ (a b : Cell) (n : Nat) (c : Bool), n < 16 → NearestEven a.toInt n (wordResult .rshe a b n c).1.toInt ∧
    ((wordResult .rshe a b n c).2 = true ↔ a.toNat % 2 ^ n ≠ 0)) ∧
  (∀ a b : Cell, mulResult .mul a b = (BitVec.ofInt 24 (a.toInt * b.toInt), !decide (-2048 ≤ a.toInt * b.toInt ∧ a.toInt * b.toInt ≤ 2047)) ∧
    mulResult .mulu a b = (BitVec.ofNat 24 (a.toNat * b.toNat), decide (4095 < a.toNat * b.toNat)) ∧
    mulResult .mulsu a b = (BitVec.ofInt 24 (a.toInt * b.toNat), !decide (-2048 ≤ a.toInt * b.toNat ∧ a.toInt * b.toNat ≤ 2047))) ∧
  (∀ (c : BitVec 24) (a b : Cell) (wide : Bool),
    let x := c.toInt + a.toInt * b.toInt
    macResult .mac c a b wide = (BitVec.ofInt 24 x, !decide (-8388608 ≤ x ∧ x ≤ 8388607)) ∧
    macResult .macs c a b wide = (BitVec.ofInt 24 (max (-8388608) (min 8388607 x)), !decide (-8388608 ≤ x ∧ x ≤ 8388607)) ∧
    macResult .macu c a b wide = (BitVec.ofNat 24 (c.toNat + a.toNat * b.toNat), decide (16777215 < c.toNat + a.toNat * b.toNat)) ∧
    macResult .acld c a b wide = (if wide then BitVec.ofNat 24 (b.toNat * 4096 + a.toNat) else a.signExtend 24, false)) ∧
  (∀ (c : BitVec 24) (m : Nat), m < 32 →
    accResult .acrh c m = clamped (-2048) 2047 (if m = 0 then c.toInt else (c.toInt + 2 ^ (m - 1)) / 2 ^ m) ∧
    ∃ q, NearestEven c.toInt m q ∧ accResult .acre c m = clamped (-2048) 2047 q)

/-- A step of a partition whose one cluster holds a word of register operations: the word issues, its results and implied bits go in flight,
PC, t and the step count rise by one, and of everything else only the bank counters and the numbering of free choices may move (R21, R39,
R43, R44, R47, R48). -/
def Obligations.IssueStepRunsRegisterWord : Prop :=
  ∀ (s : State) (t : Fin 16) (r c : Nat) (w : List SlotI), ReadyToIssue s t.val r c w →
    let x := s.clu c
    ∃ u, exec (.issueStep t) s = .next u ∧
      CluIs s u c { x with
        pc := x.pc + 1, t := x.t + 1, gstep := x.gstep + 1, latch := flagBits x w false,
                           inflight := wordWrites x (s.on Reg.CLU_CTRL_dist_mode c) w, bpPass := false, waitCounted := false, stepWrites := [] } ∧
      PartIs s u t.val { s.part t.val with
        step := (s.part t.val).step + 1, gstep := (s.part t.val).gstep + 1,
                                         stepFree := s.freeCtr } ∧
      RchIs s u r { s.rch r with waits := [], wbTaken := 0 } ∧
      RegsBut s u [fieldKey Reg.CLU_CNT_BANK_turns c 0, fieldKey Reg.CLU_BANK_PEAK_turns c 0, fieldKey Reg.CLU_BANK_PEAK_bank c 0,
        fieldKey Reg.CLU_BANK_PEAK_step c 0] ∧
      { u with clusters := s.clusters, reaches := s.reaches, parts := s.parts, regs := s.regs, freeCtr := s.freeCtr } = s

/-- The home answers GetS and GetM by the state of the line: data from HBM, a forward to the owner, invalidated sharers, sole ownership to
an owner that asks for it; a busy or held line only enters the requester in its wake queue, once (R170, R171, R177). The messages of the
protocol. PutM: the dirty line goes to HBM and awaits WB-Ack, and the line is Shared with the sharers that remain or Invalid, and a write
still buffered for it asks for the line again; WB-Ack frees the entry. A forward is answered with the owner's line. Retry is counted, and
Wake lets the request go again. The data of a line enters the cache. The acknowledge ends the transaction and wakes the first waiter (R170,
R171, R173). -/
def Obligations.HomeDirectoryAndLines : Prop :=
  (∀ (s : State) (r : Fin 24) (line stamp : Nat) (own : Bool), Requested s r.val line stamp →
     let d := s.dirLine line
     ∃ t, exec (if own then .getm r line stamp else .gets r line stamp) s = .next t ∧ { t with dir := s.dir, reaches := s.reaches } = s ∧
       (if d.busy.isSome ∨ s.lineHeld line = true then
         t.reaches = s.reaches ∧ DirIs s t line (if d.queue.any (fun q => decide (q.1 = r.val)) then d
           else { d with queue := d.queue ++ [(r.val, stamp, own)] })
       else
         DirIs s t line (homeAnswer (s.hbmLine line) (s.coherentLine line) d r.val (s.holdsDirty r.val line) own) ∧
         ∀ q, t.rch q = (if own = true ∧ d.st ≠ .invalid ∧ q ≠ r.val ∧ q ∈ d.sharers then
           { s.rch q with cache := (s.rch q).cache.del line } else s.rch q))) ∧
  (∀ (s : State) (r : Fin 24) (line : Nat),
     let d := s.dirLine line
     let x := s.rch r.val
     (∀ p e l, s.owner r.val = some p → x.wb = [e] → ((s.part p).wordAt e.region e.addr).line = line → x.requests.find line = none →
       x.cache.find line = some l → l.dirty = true → x.writeback.find line = none → s.bypasses line = false →
       ∃ t, exec (.putm r line) s = .next t ∧ (t.rch r.val).requests.find line = some (e.stamp (s.rel r.val), true, false) ∧
         (t.rch r.val).wb = x.wb) ∧
     (∀ l, x.cache.find line = some l → l.dirty = true → x.writeback.find line = none → s.bypasses line = false → d.fwd = false →
       s.on Reg.TST_FLIP_arm = false → x.wb = [] →
       ∃ t, exec (.putm r line) s = .next t ∧ HomeOnly s t ∧ t.hbm = Mem.putRun s.hbm (line * 64) (lineBytes l.cells) ∧
         RchIs s t r.val { x with cache := x.cache.del line, writeback := x.writeback.put line { l with dirty := false } } ∧
         DirIs s t line (if d.owner = r.val ∧ d.st = .modified ∧ d.busy = some r.val ∧ d.data ≠ none then d
           else { d with st := if d.sharers = [] then .invalid else .shared })) ∧
     (∀ l, x.writeback.find line = some l → l.dirty = false →
       exec (.wbAck r line) s = .next (s.setRch r.val { x with writeback := x.writeback.del line })) ∧
     (∀ t l q, s.owner r.val = some t → d.busy = some q → x.cache.find line = some l → d.fwd = true → d.owner = r.val → l.dirty = true →
       x.wb = [] →
       ∃ u, exec (.fwdGetm r line) s = .next u ∧ HomeOnly s u ∧ u.hbm = s.hbm ∧
         DirIs s u line (if d.forOwn then { d with data := some l.cells, fwd := false, owner := q, sharers := [], st := .modified }
           else { d with data := some l.cells, fwd := false, sharers := (d.sharers.filter (· ≠ q)) ++ [q], st := .owned }) ∧
         RchIs s u r.val (if d.forOwn then { x with cache := x.cache.del line }
           else { x with cache := x.cache.put line { l with shared := true } })) ∧
     (∀ stamp own, x.requests.find line = some (stamp, own, false) → d.queue.any (fun q => decide (q.1 = r.val)) = true →
       exec (.retry r line) s = .next ((s.setRch r.val { x with requests := x.requests.put line (stamp, own, true) }).count
         Reg.DMEM_R_RETRY_retries r.val 1)) ∧
     (∀ stamp own b, x.requests.find line = some (stamp, own, b) → d.woken.contains r.val = true →
       exec (.wakeMessage r line) s = .next ((s.setDir line { d with woken := d.woken.filter (· ≠ r.val) }).setRch r.val
         { x with requests := x.requests.put line (stamp, own, false) })) ∧
     (∀ t l q, s.owner r.val = some t → x.requests.find line = some q → s.bypasses line = false → d.data = some l → d.busy = some r.val →
       x.wb = [] → (x.cache.filter fun e => e.1 % 256 = line % 256 ∧ e.1 ≠ line).length < 12 - x.waysOff.length →
       s.on Reg.TST_FLIP_arm = false →
       ∃ u, exec (.lineData r line) s = .next u ∧ HomeOnly s u ∧ u.hbm = s.hbm ∧ DirIs s u line { d with data := none } ∧
         RchIs s u r.val { x with cache := x.cache.put line { cells := l, dirty := d.forOwn }, requests := x.requests.del line }) ∧
     (∀ q, d.busy = some q → d.data = none → d.fwd = false →
       (d.queue = [] → exec (.transactionEnd line) s = .next (s.setDir line { d with busy := none, forOwn := false })) ∧
       (∀ a l, d.queue = a :: l → (∀ b ∈ d.queue, ∀ c ∈ d.queue, stampStep b.2.1 < stampStep c.2.1 + 24) → a ∉ l →
         exec (.transactionEnd line) s =
           .next (s.setDir line { d with busy := none, forOwn := false, queue := l, woken := d.woken ++ [a.1] }))))

/-- A read's data arrives in its reach's unit, whose translation buffer then holds the page, the oldest of more than 256 leaving it; an
entry that cannot be read where the buffer misses stops the reach. A fence closes at a home once the markers of its step have come there
from every reach, and a holder that alone owns the line then applies the buffered writes that the close from their home lets in (R159,
R160, R167, R169; which translation entry leaves: the model's choice, log 69). -/
def Obligations.ReadsAndFences : Prop :=
  (∀ (s : State) (c : Fin 408) (slot : Fin 12) (t : Nat) (x : DmemRead), s.owner (c.val / 17) = some t → (s.clu c.val).reads = [x] →
    x.slot = slot.val → x.arrived = false → (s.rch (c.val / 17)).requests.find ((s.part t).wordAt x.region x.addr).line = none →
    let y := s.rch (c.val / 17)
    let page := x.region * 8192 + x.addr / 2048
    (∀ fault : Bool, parityOk x.value = true → (fault = false ∨ y.tlb.contains page = true) →
      ∃ u, exec (.dmemReadReturn c slot fault) s = .next u ∧ { u with clusters := s.clusters, reaches := s.reaches } = s ∧
        CluIs s u c.val { s.clu c.val with reads := [{ x with arrived := true }] } ∧
        RchIs s u (c.val / 17) { y with tlb := if y.tlb.contains page then y.tlb else (page :: y.tlb).take 256 }) ∧
    (y.tlb.contains page = false → ∃ u, exec (.dmemReadReturn c slot true) s = .next u ∧ (u.part t).stopped = true ∧ u.clusters = s.clusters ∧
      u.on Reg.DMEM_R_CAUSE_xlate_fault (c.val / 17) = true)) ∧
  (∀ (s : State) (t : Fin 16) (r : Fin 24) (home : Fin 2) (step : Nat),
    let x := s.part t.val
    r.val ∈ x.bound → x.fenceClosed home.val = step → step < x.gstep → (home.val, r.val, step) ∉ x.markers →
    (∀ m ∈ x.markers, m.1 = home.val → m.2.2 = step) →
    ∃ u, exec (.stepDoneMarker t r (home, step)) s = .next u ∧ { u with parts := s.parts } = s ∧
      PartIs s u t.val (if x.bound.all (fun q => decide (q = r.val) || x.markers.contains (home.val, q, step)) then
        { x with fenceClosed0 := if home = 0 then step + 1 else x.fenceClosed0,
                 fenceClosed1 := if home = 0 then x.fenceClosed1 else step + 1,
                 markers := x.markers.filter fun m => decide (m.1 ≠ home.val) }
        else { x with markers := (home.val, r.val, step) :: x.markers })) ∧
  (∀ (s : State) (t : Fin 16) (r : Fin 24) (home : Fin 2) (step : Nat) (e : WbEntry) (l : CacheLine),
    let x := s.part t.val
    let y := s.rch r.val
    let w := x.wordAt e.region e.addr
    let page := e.region * 8192 + e.addr / 2048
    let seen := max (y.fenceSeen home.val) (step + 1)
    x.bound = [r.val] → step < x.fenceClosed home.val → x.home e.region = home.val → y.wb = [e] → e.held = false →
    e.gstep ≤ seen + 23 → s.on Reg.TST_FLIP_arm = false → y.cache.find w.line = some l → l.dirty = true →
    l.shared = false → (∀ q, q ≠ r.val → (s.rch q).cache.find w.line = none) → (∀ q, (s.rch q).writeback.find w.line = none) →
    (s.dirLine w.line).data = none →
    ∃ u, exec (.fenceClose t r (home, step)) s = .next u ∧ { u with reaches := s.reaches } = s ∧
      RchIs s u r.val { y with fenceSeen0 := if home = 0 then seen else y.fenceSeen0,
                               fenceSeen1 := if home = 0 then y.fenceSeen1 else seen, wb := [], recent := (u.rch r.val).recent,
                               cache := y.cache.put w.line (l.set w.idx ((store e.value).setWidth 16)),
                               tlb := if y.tlb.contains page then y.tlb else (page :: y.tlb).take 256 })

/-- Pages: a pre-image copy, retirement, a flush (R175, R177, R178, R188). HBM reports: the temperature and its throttle state with 3 °C of
hysteresis and an alarm at 100 °C, a shortfall window's count and its one alarm at 1,000 windows in a row, whichever stack falls short (when
a window begins: the model's choice, log 69), and an error report, counted as class 6, with hbm_uc for an uncorrectable one; the fourth
corrected report of a page within a second retires it while the system keeper serves (R184 to R186, R332). -/
def Obligations.PagesAndReports : Prop :=
  ((∀ (s : State) (t : Fin 16) (r : Nat) (e : WbEntry) (g : Region) (phys : Nat) (u : Nat × Nat) (region : BitVec 10) (page : BitVec 13),
     let x := s.part t.val
     x.bound = [r] → x.region region.toNat = some g → g.pages[page.toNat]? = some phys → x.undoFree = [u] → u.1 = g.stack → u.2 ≠ phys →
     s.pagesBad = [] → (s.rch r).wb = [e] → e.held = true → e.region = region.toNat → e.addr / 2048 = page.toNat → x.exporting = none →
     g.single = none → (∀ q, (s.rch q).cache = [] ∧ (s.rch q).writeback = []) → (∀ line, (s.dirLine line).data = none) →
     s.on Reg.TST_FLIP_arm = false →
     ∃ v, exec (.pageCopy t region page) s = .next v ∧ { v with parts := s.parts, reaches := s.reaches, hbm := s.hbm } = s ∧
       PartIs s v t.val { x with undoFree := [], copied := (region.toNat * 8192 + page.toNat) :: x.copied,
                                 undoNow := x.undoNow ++ [{ region := region.toNat, page := page.toNat, stack := g.stack, phys := u.2 }] } ∧
       (v.rch r).wb = [{ e with held := false }] ∧
       (∀ i, i < 4096 → Mem.get v.hbm (g.stack * 2 ^ 34 + u.2 * 4096 + i) = Mem.get s.hbm (g.stack * 2 ^ 34 + phys * 4096 + i)) ∧
       ∀ a, a < g.stack * 2 ^ 34 + u.2 * 4096 ∨ g.stack * 2 ^ 34 + u.2 * 4096 + 4096 ≤ a → Mem.get v.hbm a = Mem.get s.hbm a) ∧
   (∀ (s : State) (who : Requester) (v : Word), Writable s who Reg.DMEM_RETIRE.addr →
     exec (.dmemRetire who v) s = .next (
       let u := (s.setRg Reg.DMEM_RETIRE_stack 0 (Reg.DMEM_RETIRE_stack.of v)).setRg Reg.DMEM_RETIRE_page 0 (Reg.DMEM_RETIRE_page.of v)
       if v.msb = true ∧ s.on Reg.DMEM_RETIRE_busy = false then { u.setRg Reg.DMEM_RETIRE_busy 0 1 with
         retiring := some (Reg.DMEM_RETIRE_stack.of v * 2 ^ 22 + Reg.DMEM_RETIRE_page.of v) } else u)) ∧
   (∀ (s : State) (k p : Nat) (uc : Bool), s.retiring = some (k * 2 ^ 22 + p) → k < 2 → p < 2 ^ 22 → s.on Reg.TST_FLIP_arm = false →
     s.on Reg.WEIR_CTRL_ring_en = false → (∀ q, (s.rch q).cache = [] ∧ (s.rch q).writeback = []) →
     (∀ line, (s.dirLine line).data = none) → s.retireQueue = [] →
     let n := s.rg Reg.DMEM_HBM_STATk_spares k
     ∃ u, exec (.retireDone uc) s = .next u ∧ u.retiring = none ∧ u.on Reg.DMEM_RETIRE_busy = false ∧
       (n = 0 ∨ uc = true → u.on Reg.DMEM_CAUSE_retire_fail = true ∧ u.parts = s.parts ∧ u.hbm = s.hbm ∧ u.pagesRetired = s.pagesRetired ∧
         (n ≠ 0 → u.on (if k = 0 then Reg.DMEM_CAUSE_hbm_uc0 else Reg.DMEM_CAUSE_hbm_uc1) = true)) ∧
       (n ≠ 0 → n ≤ 1024 → p < spareBase → uc = false → u.on Reg.DMEM_CAUSE_retire_done = true ∧
         u.rg Reg.DMEM_HBM_STATk_spares k = n - 1 ∧ u.pagesRetired = (k * 2 ^ 22 + p) :: s.pagesRetired ∧
         (∀ i, i < 4096 → Mem.get u.hbm (k * 2 ^ 34 + (spareBase + 1024 - n) * 4096 + i) = Mem.get s.hbm (k * 2 ^ 34 + p * 4096 + i)) ∧
         ∀ t, (u.part t).regions = (s.part t).regions.map fun g =>
           if g.stack = k then { g with pages := g.pages.map fun q => if q = p then spareBase + 1024 - n else q } else g)) ∧
   (∀ (s : State) (who : Requester) (r : Nat), Writable s who Reg.DMEM_R_FLUSH.addr → s.selReach who = some r → s.rchOpen who r = true →
     s.on Reg.TST_FLIP_arm = false →
     let x := s.rch r
     ((∀ e ∈ x.cache ++ x.writeback, e.2.dirty = false) →
       ∃ u, exec (.dmemRFlush who 1) s = .next u ∧ { u with reaches := s.reaches, dir := s.dir } = s ∧
         RchIs s u r { x with cache := [], tlb := [] } ∧
         ∀ line, (s.dirLine line).busy ≠ some r ∨ (s.dirLine line).data = none → r ∉ (u.dirLine line).sharers) ∧
     (∀ line l, x.cache = [(line, l)] → l.dirty = true → x.writeback = [] → x.wb = [] → s.bypasses line = false →
       ∃ u, exec (.dmemRFlush who 1) s = .next u ∧ HomeOnly s u ∧ u.hbm = Mem.putRun s.hbm (line * 64) (lineBytes l.cells) ∧
         RchIs s u r { x with cache := [], tlb := [], writeback := [(line, { l with dirty := false })] }))) ∧
  ((∀ (s : State) (k : Fin 2) (v : BitVec 8),
     let old := s.rg Reg.DMEM_HBM_STATk_throttle k.val
     let met := fun (n : Nat) (th : Int) => th ≤ v.toInt ∨ (n ≤ old ∧ th - 3 < v.toInt)
     let new := if met 3 100 then 3 else if met 2 95 then 2 else if met 1 85 then 1 else 0
     let u := (s.setRg Reg.DMEM_HBM_STATk_temp k.val v.toNat).setRg Reg.DMEM_HBM_STATk_throttle k.val new
     exec (.hbmTempRead k v) s = .next (if new = 3 ∧ old ≠ 3 then
       (u.cause .dmem Reg.DMEM_CAUSE_thermal_alarm).alarm 16 (0x2000 + k.val) 0x008 k.val else u)) ∧
   (∀ (s : State) (t : Fin 16) (k : Fin 2), s.on Reg.DMEM_CTRL_short_log = false →
     let x := s.shortRun.get t.val {}
     let again := x.seen.contains k.val
     let seen := if again then [k.val] else k.val :: x.seen
     let run := if again ∧ x.short = false then 0 else x.run
     let counted := again = false ∧ x.short = true
     let n := if counted then run else run + 1
     let u := { (if counted then s else s.count Reg.DMEM_SHORTt_windows t.val 1) with
       shortRun := s.shortRun.put t.val { run := n, seen := seen, short := true } }
     exec (.shortfallWindow t k true) s = .next (if n = 1000 ∧ x.run ≠ 1000 then
       u.alarm t.val (0x2000 + k.val) 0x005 (k.val + s.rg Reg.DMEM_HBM_STATk_throttle k.val * 2) else u) ∧
     exec (.shortfallWindow t k false) s = .next { s with
       shortRun := s.shortRun.put t.val { run := run, seen := seen, short := decide counted } }) ∧
   (∀ (s : State) (k : Fin 2) (page : BitVec 22),
     let p := k.val * 2 ^ 22 + page.toNat
     let recent := s.pageReports.filter fun e => decide (s.power.time < e.2 + 1000000000)
     (s.supervised = false → exec (.hbmErrorReport k page false) s = .next (s.tally false 0 6 k.val page.toNat)) ∧
     (s.supervised = true → 3 ≤ (recent.filter fun e => decide (e.1 = p)).length → p ∉ s.pagesRetired → s.retiring = none →
       s.retireQueue = [] → s.on Reg.DMEM_RETIRE_busy = false → s.bufferOf p = none →
       ∃ u, exec (.hbmErrorReport k page false) s = .next u ∧ u.retiring = some p ∧ u.on Reg.DMEM_RETIRE_busy = true ∧
         u.rg Reg.DMEM_RETIRE_stack 0 = k.val ∧ u.rg Reg.DMEM_RETIRE_page 0 = page.toNat) ∧
     ∃ u, exec (.hbmErrorReport k page true) s = .next u ∧
       u.on (if k.val = 0 then Reg.DMEM_CAUSE_hbm_uc0 else Reg.DMEM_CAUSE_hbm_uc1) = true ∧
       (p ∈ u.pagesBad ∨ s.supervised = true ∧ p ∈ u.pagesRetired)))

/-- An arrival of the epoch in force, for a mapped berth of kind 1 or 2 with the source and tag of its entry, fills the empty entry of its
parity; a stale one is only counted; an unmapped, mismatched or overrunning one is discarded and stops the partition with its cause (R189,
R195, R196). A clear of the epoch in force empties the outstanding bit of its net slot and parity, a stale one is counted, and one that
finds no outstanding value latches stray_clear (R198, R200). The next value of a blocking host port fills the empty entry of the first
design cycle, of the one in progress and the two after it, that has no value yet, and then waits for its consumption; a wait that lasts past
the watchdog's limit is recorded once, latches RCH_BCAUSE.watchdog and raises alarm 0x001 (R203, R215). -/
def Obligations.Berths : Prop :=
  (∀ (s : State) (r : Fin 24) (b source tag value : Cell) (parity : Bool) (epoch : BitVec 2) (t : Nat), s.owner r.val = some t →
     let p := if parity then 1 else 0
     let m := s.berthMap r.val b.toNat
     let stop := fun (f : Field) => ∃ u, exec (.berthArrival r b source tag parity epoch value) s = .next u ∧
       (u.part t).stopped = true ∧ u.on f r.val = true ∧ u.reaches = s.reaches ∧ u.clusters = s.clusters
     (epoch.toNat ≠ s.epoch t →
       exec (.berthArrival r b source tag parity epoch value) s = .next (s.count Reg.RCH_CNT_CLRWAIT_stale r.val 1)) ∧
     (epoch.toNat = s.epoch t → m.1 ≠ 1 ∧ m.1 ≠ 2 → stop Reg.RCH_BCAUSE_unmapped_arrival) ∧
     (epoch.toNat = s.epoch t → (m.1 = 1 ∨ m.1 = 2) → (m.2.1 ≠ source.toNat ∨ m.2.2 ≠ tag.toNat) → stop Reg.RCH_BCAUSE_tag_mismatch) ∧
     (epoch.toNat = s.epoch t → (m.1 = 1 ∨ m.1 = 2) → m.2 = (source.toNat, tag.toNat) → (s.entry r.val b.toNat p).valid = true →
       stop Reg.RCH_BCAUSE_overrun) ∧
     (epoch.toNat = s.epoch t → (m.1 = 1 ∨ m.1 = 2) → m.2 = (source.toNat, tag.toNat) → (s.entry r.val b.toNat p).valid = false →
       s.on Reg.TST_FLIP_arm = false →
       ∃ u, exec (.berthArrival r b source tag parity epoch value) s = .next u ∧ { u with reaches := s.reaches } = s ∧
         u.entry r.val b.toNat p = { value := store value, tag := store tag, parity := parity, valid := true } ∧
         (∀ b' p', p' < 2 → (b', p') ≠ (b.toNat, p) → u.entry r.val b' p' = s.entry r.val b' p') ∧
         RchIs s u r.val { s.rch r.val with berths := (u.rch r.val).berths })) ∧
  (∀ (s : State) (r : Fin 24) (tag : Cell) (parity : Bool) (epoch : BitVec 2) (t : Nat), s.owner r.val = some t →
     let k := 2 * tag.toNat + (if parity then 1 else 0)
     (epoch.toNat ≠ s.epoch t → exec (.berthClear r tag parity epoch) s = .next (s.count Reg.RCH_CNT_CLRWAIT_stale r.val 1)) ∧
     (epoch.toNat = s.epoch t → Mem.get (s.rch r.val).outstanding k = 0 →
       exec (.berthClear r tag parity epoch) s = .next (s.cause (.reach r.val) Reg.RCH_BCAUSE_stray_clear r.val)) ∧
     (epoch.toNat = s.epoch t → Mem.get (s.rch r.val).outstanding k = 1 → s.on Reg.TST_FLIP_arm = false →
       ∃ u, exec (.berthClear r tag parity epoch) s = .next u ∧ { u with reaches := s.reaches, parts := s.parts } = s ∧
         StoredAt (s.rch r.val).outstanding (u.rch r.val).outstanding k 0 ∧
         RchIs s u r.val { s.rch r.val with outstanding := (u.rch r.val).outstanding, clrBad := (s.rch r.val).clrBad.filter (· ≠ k) } ∧
         PartIs s u t { s.part t with bridge := (u.part t).bridge })) ∧
  ((∀ (s : State) (t : Fin 16) (port : BitVec 10) (h : HostPort) (v : Cell) (l : List Cell),
     let x := s.part t.val
     let q := s.inPort t.val port.toNat
     let r := s.phys t.val h.rel
     let p := (x.dcNumber + q.taken.length) % 2
     x.ports = [h] → h.port = port.toNat → h.isInput = true → h.flagged = false → q.queue = v :: l → q.taken.length < 3 →
     (s.entry r h.berth p).valid = false → x.logNow = [] → x.atLock = false → s.phase t.val ≠ 4 →
     s.rg Reg.LCK_STATUSt_dcycle t.val + q.taken.length < s.poundLen t.val → s.on Reg.TST_FLIP_arm = false →
     ∃ u, exec (.hostBlockingFill t port) s = .next u ∧ { u with reaches := s.reaches, parts := s.parts } = s ∧
       u.entry r h.berth p = { value := store v, tag := store (port.setWidth 12), parity := decide (p = 1), valid := true } ∧
       u.inPort t.val port.toNat = { q with queue := l, taken := q.taken ++ [v] } ∧ RchIs s u r { s.rch r with berths := (u.rch r).berths } ∧
       PartIs s u t.val { x with inputs := (u.part t.val).inputs }) ∧
   (∀ (s : State) (r : Fin 24) (t : Nat) (w : Wait) (index : Cell), s.owner r.val = some t → (s.rch r.val).waits = [w] →
     w.index = index.toNat → w.expired = false → s.on Reg.RCH_BWD_CTRL_en r.val = true → s.on Reg.RCH_BWD_REC_valid r.val = false →
     w.position < 32 → (s.weir.alarms.get t []).length < 64 →
     ∃ u, exec (.berthWatchdog r w.isClear index w.parity) s = .next u ∧ u.on Reg.RCH_BCAUSE_watchdog r.val = true ∧
       u.on Reg.RCH_BWD_REC_valid r.val = true ∧ u.rg Reg.RCH_BWD_REC_kind r.val = (if w.isClear then 1 else 0) ∧
       u.rg Reg.RCH_BWD_REC_parity r.val = (if w.parity then 1 else 0) ∧ u.rg Reg.RCH_BWD_REC_position r.val = w.position ∧
       u.rg Reg.RCH_BWD_REC_index r.val = w.index ∧ RchIs s u r.val { s.rch r.val with waits := [{ w with expired := true }], bwdEpoch := w.epoch } ∧
       (u.weir.alarms.get t []).any (fun e => decide (e.code = 0x001 ∧ e.source = 0x1000 + r.val)) = true ∧
       u.clusters = s.clusters ∧ u.parts = s.parts))

/-- Link barges at an Active link: the ack of each counts; status barges take paddles, and a NAK of the next round starts the replay of all
that is unacknowledged; the three messages of a lane swap, of which the receiver grants only the one that it has asked for; retirement;
kinds that the manual does not define; and barges that fail (R225, R227, R229, R231, R233, R234, R238, R246, R258, R260). A sequenced barge
at an Active link is accepted only when it is whole, carries the expected round and the expected number; one of an older round is dropped in
silence, any other is a failure. A barge that is only accepted is one of a kind or count that R242 does not list: it is numbered,
acknowledged and thrown away (R232, R233, R246). An accepted request of VC1 for this device is answered, outside Repair, by its own kind of
response with the status of R464, and a write whose grant allows it is made (R242, R464, R505); a VC2 message of unknown type, an unknown partition's values, and a barge for a device without a usable route each latch their cause
(R243, R246, R254). A codeword of the Lock, Exchange and Active states: its data enters the train, corrected symbols are counted for the
link and the lane that carried them, and an uncorrectable one spoils the barges that it touches. Sixty-four good ones in a row end Lock, and
a loss of codeword lock retrains the link (R221, R223, R225, R247, R259; after how many bad codewords lock is lost is free, log 74). -/
def Obligations.BargeArrivals : Prop :=
  (∀ (s : State) (l : Fin 16) (b : Barge), s.rg Reg.AQ_STATUS_state l.val = 6 →
     let y := atNextBarge (s.lnk l.val)
     let x := ackTaken y b
     let k := bKind b
     let c2 := bcell b 2
     let round := bits c2 7 4
     let own := s.rg Reg.AQ_STATUS_round l.val
     let slot := bits c2 0 3
     let train := bcell b 3 + bits (bcell b 4) 0 4 * 4096
     (∀ c ∈ [Instr.statusBarge l b, .laneSwap l b, .parameterBarge l b, .retireBarge l b],
       (¬ Sound s l.val b → exec c s = .next (s.setLnk l.val (failedOnce y))) ∧
       (Sound s l.val b → bLink b = true → (bVc b ≠ 0 ∨ 3 < k) →
         exec c s = .next ((s.setLnk l.val y).cause (.link l.val) Reg.AQ_CAUSE_unknown_kind l.val))) ∧
     (Sound s l.val b → bLink b = true → bVc b = 0 →
       (k = 0 → (bit c2 11 = false ∨ round ≠ (own + 1) % 16) → exec (.statusBarge l b) s = .next (s.setLnk l.val (statusTaken y b))) ∧
       (k = 0 → bit c2 11 = true → round = (own + 1) % 16 →
         (statusTaken y b).window ≠ [] → (statusTaken y b).replayRuns < max 1 (s.rg Reg.AQ_THR_replay_limit l.val) → BucketSpare s l.val →
         ∃ t, exec (.statusBarge l b) s = .next t ∧ LinksOnly s t ∧ t.rg Reg.AQ_STATUS_round l.val = round ∧
           LinkIs s t l.val { statusTaken y b with replaying := (statusTaken y b).window, replayRuns := (statusTaken y b).replayRuns + 1 } ∧
           t.rg Reg.AQ_CNT_REPLAY_replays l.val = satAdd (2 ^ Reg.AQ_CNT_REPLAY_replays.width - 1) (s.rg Reg.AQ_CNT_REPLAY_replays l.val) 1 ∧
           t.bucket 7 l.val = s.bucket 7 l.val + 1 ∧
           RegsBeside s t [fieldKey Reg.AQ_STATUS_round l.val 0, fieldKey Reg.AQ_CNT_REPLAY_replays l.val 0]) ∧
       (k = 1 → slot < 4 → x.train.length < 9 → x.sinceStatus < 63 →
         (bits c2 9 2 = 0 → x.txSpareUsed = false → x.txSwap = none →
           let n := (x.txTrain.toNat + 16) % 65536
           exec (.laneSwap l b) s = .next (s.setLnk l.val (withSent
             { x with txSwap := some (slot, n, false), sinceStatus := x.sinceStatus + 1 } (laneSwapBarge x own false true slot n)))) ∧
         (bits c2 9 2 = 1 → bit c2 11 = false → x.rxAsk = some slot →
           exec (.laneSwap l b) s = .next (s.setLnk l.val (withSent
             { x with rxSwap := some (slot, train), sinceStatus := x.sinceStatus + 1 } (laneSwapBarge x own true true slot train)))) ∧
         (bits c2 9 2 = 1 → bit c2 11 = false → x.rxAsk ≠ some slot → exec (.laneSwap l b) s = .next (s.setLnk l.val x)) ∧
         (bits c2 9 2 = 1 → bit c2 11 = true → ∀ g, x.txSwap = some (slot, train, g) →
           exec (.laneSwap l b) s = .next (s.setLnk l.val { x with txSwap := some (slot, train, true) }))) ∧
       (k = 3 → c2 ≠ 0x5A5 → exec (.retireBarge l b) s = .next (s.setLnk l.val x)) ∧
       (k = 3 → c2 = 0x5A5 → NothingUnacked s l.val → NothingWaits s l.val →
         ∃ t, exec (.retireBarge l b) s = .next t ∧ LinksOnly s t ∧ Retired s t l.val ∧ RegsBeside s t (linkKeys l.val) ∧
           (t.lnk l.val).sent = x.sent ++ [linkBarge ((x.expected + 4095) % 4096) 3 [0x5A5] own]))) ∧
  (∀ (s : State) (l : Fin 16) (b : Barge), s.rg Reg.AQ_STATUS_state l.val = 6 → bLink b = false →
     let x := atNextBarge (s.lnk l.val)
     let taken : Link := { x with expected := (x.expected + 1) % 4096, nak := false, episode := false }
     let here := bcell b 2 = s.rg Reg.AQ_DEVID_devid
     (¬ Sound s l.val b → exec (.barge l b) s = .next (s.setLnk l.val (failedOnce x))) ∧
     (Sound s l.val b →
       (bEcho b ≠ x.expRound → exec (.barge l b) s = .next (s.setLnk l.val x)) ∧
       (bEcho b = x.expRound → bcell b 0 ≠ x.expected → exec (.barge l b) s = .next (s.setLnk l.val (failedOnce { x with episode := false }))) ∧
       (bEcho b = x.expRound → bcell b 0 = x.expected →
         (bVc b = 0 → (1 < bKind b ∨ bCount b = 0 ∨ (if bKind b = 0 then 5 else 11) < bCount b) →
           exec (.barge l b) s = .next ((s.setLnk l.val taken).cause (.link l.val) Reg.AQ_CAUSE_unknown_kind l.val)) ∧
         (bVc b = 0 → bKind b ≤ 1 → 1 ≤ bCount b → bCount b ≤ (if bKind b = 0 then 5 else 11) → taken.vc0Held + bCount b ≤ 2048 → here →
           s.tenantOf (bcell b 4) = none →
           exec (.barge l b) s = .next ((s.setLnk l.val taken).cause (.link l.val) Reg.AQ_CAUSE_unknown_spn l.val)) ∧
         (bVc b = 1 → bKind b ≤ 3 → bCount b = 1 → ¬ here → s.route (bcell b 2) = none →
           parityOk (Mem.get s.routes (2 * bcell b 2)) = true → parityOk (Mem.get s.routes (2 * bcell b 2 + 1)) = true →
           ∃ t, exec (.barge l b) s = .next t ∧ LinksOnly s t ∧ t.on Reg.AQ_CAUSE_unreachable l.val = true ∧
             LinkIs s t l.val { taken with freed1 := (taken.freed1 + 1) % 4096 } ∧
             RegsBeside s t [fieldKey Reg.AQ_CAUSE_unreachable l.val 0]) ∧
         (∀ out, s.route (bcell b 2) = some out → bVc b = 1 → bKind b ≤ 3 → bCount b = 1 → ¬ here → out ≠ l.val →
           ∃ t, exec (.barge l b) s = .next t ∧ LinksOnly s t ∧ t.regs = s.regs ∧ t.lnk l.val = taken ∧
             t.lnk out = { s.lnk out with q1 := (s.lnk out).q1 ++ [⟨l.val, b, 1⟩] } ∧ LinksBut s t [l.val, out]) ∧
         (∀ out, s.route (bcell b 3) = some out → bVc b = 1 → bCount b = 1 → here → 1 ≤ bcell b 8 % 32 → bcell b 8 % 32 ≤ 19 →
          s.mode ≠ 3 → bcell b 3 ≠ s.rg Reg.AQ_DEVID_devid → out ≠ l.val →
          let n := bcell b 8 % 32
          let addr := bcell b 6 + 4096 * bcell b 7
          let grant := addr / 2 ^ 11 % 4096
          let off := addr % 2 ^ 11
          let space := bits (bcell b 8) 8 4
          let cells := (List.range n).map fun i => bcell b (9 + i)
          let may := s.grantStatus grant off n (bcell b 4) true
          let read := if space = 0 then s.grantRead grant off n (bcell b 4) else (7, [])
          let answered := fun (t : State) (kind status : Nat) (data : List Nat) =>
            LinksOnly s t ∧ LinksBut s t [l.val, out] ∧ t.lnk l.val = { taken with freed1 := (taken.freed1 + 1) % 4096 } ∧
            t.lnk out = { s.lnk out with q1 := (s.lnk out).q1 ++ [⟨16, seqBarge 1 kind 1 (bcell b 3) (s.rg Reg.AQ_DEVID_devid) (bcell b 4)
              ([bcell b 5, bcell b 6, bcell b 7, space * 256 + status * 32 + n] ++ data), 1⟩] }
          (bKind b = 0 → ∃ t, exec (.barge l b) s = .next t ∧ answered t 2 read.1 read.2 ∧ t.regs = s.regs ∧ t.hbm = s.hbm) ∧
          (bKind b = 1 → (space ≠ 0 ∨ may ≠ 0) → ∃ t, exec (.barge l b) s = .next t ∧
            answered t 3 (if space = 0 then may else 7) [] ∧ t.regs = s.regs ∧ t.hbm = s.hbm) ∧
          (bKind b = 1 → space = 0 → may = 0 → ∃ t, exec (.barge l b) s = .next t ∧ answered t 3 0 [] ∧
            t.hbm = (s.hbmPut (s.grantAddr grant off) (cells.flatMap (leBytes 2))).hbm ∧
            (bit (s.grant grant) 28 = false → t.regs = s.regs) ∧
            (bit (s.grant grant) 28 = true → t.on Reg.LDG_CAUSE_grant_write = true ∧ t.rg Reg.LDG_CAUSE_grant = grant))) ∧
        (bVc b = 2 → bKind b = 0 → bCount b = 1 → here → s.aliveSeen.find (bcell b 3) = some (bcell b 6) →
           ∃ t, exec (.barge l b) s = .next t ∧ LinksOnly s t ∧ t.on Reg.AQ_CAUSE_alive_repeat l.val = true ∧
             LinkIs s t l.val { taken with freed2 := (taken.freed2 + 1) % 4096 } ∧
             RegsBeside s t [fieldKey Reg.AQ_CAUSE_alive_repeat l.val 0]) ∧
         (bVc b = 2 → bKind b = 0 → bCount b = 1 → here → s.aliveSeen.find (bcell b 3) ≠ some (bcell b 6) →
           bcell b 5 ∉ [0x010, 0x011, 0x012, 0x013, 0x014, 0x015, 0x016, 0x017, 0x020, 0x021, 0x030] →
           ∃ t, exec (.barge l b) s = .next t ∧ LinksOnly s { t with aliveSeen := s.aliveSeen } ∧
             t.aliveSeen = s.aliveSeen.put (bcell b 3) (bcell b 6) ∧ t.on Reg.AQ_CAUSE_unknown_kind l.val = true ∧
             LinkIs s t l.val { taken with freed2 := (taken.freed2 + 1) % 4096 } ∧
             RegsBeside s t [fieldKey Reg.AQ_CAUSE_unknown_kind l.val 0])))) ∧
  (∀ (s : State) (l : Fin 16) (w : List (BitVec 10)), w.length = 136 → (s.lnk l.val).codeword < 2 → (s.lnk l.val).rxSwap = none →
     let x := s.lnk l.val
     let st := s.rg Reg.AQ_STATUS_state l.val
     let y := fun (d : List Nat) => ({ x with codeword := x.codeword + 1, goodWords := x.goodWords + 1,
                                              badWords := 0, rxData := x.rxData ++ [d.map (BitVec.ofNat 10)] } : Link)
     (∀ d, rsDecode (w.map (·.toNat)) = some (d, []) → (st = 5 ∨ st = 6 ∨ (st = 4 ∧ x.goodWords < 63)) →
       exec (.codeword l w) s = .next (s.setLnk l.val (y d))) ∧
     (∀ d, rsDecode (w.map (·.toNat)) = some (d, []) → st = 4 → 63 ≤ x.goodWords →
       exec (.codeword l w) s = .next ((s.setLnk l.val { y d with bargeNo := 3 * (x.codeword + 1), spoiled := 0 }).setRg
         Reg.AQ_STATUS_state l.val 5)) ∧
     (∀ d p, rsDecode (w.map (·.toNat)) = some (d, [p]) → (st = 5 ∨ st = 6) →
       let lane := bits (s.rg Reg.AQ_LANEMAP_rx_map l.val) (3 * (p % 4)) 3
       exec (.codeword l w) s = .next (((s.count Reg.AQ_CNT_FEC_corrected l.val 1).count Reg.AQ_LANE_SYM_symbols (5 * l.val + lane) 1).setLnk
         l.val { y d with laneSym := x.laneSym.put lane (x.laneSym.get lane 0 + 1) })) ∧
     (st = 6 → rsDecode (w.map (·.toNat)) = none → BucketSpare s l.val →
       ∃ t, exec (.codeword l w) s = .next t ∧ (Config.lockLost (x.badWords + 1) = false → LinksOnly s t ∧
         t.bucket 7 l.val = s.bucket 7 l.val + 1 ∧ t.rg Reg.AQ_CNT_REPLAY_uncorrectable l.val =
           satAdd (2 ^ Reg.AQ_CNT_REPLAY_uncorrectable.width - 1) (s.rg Reg.AQ_CNT_REPLAY_uncorrectable l.val) 1 ∧
         LinkIs s t l.val { x with codeword := x.codeword + 1, goodWords := 0, badWords := x.badWords + 1, rxData := x.rxData ++ [w],
                                   spoiled := x.spoiled ||| (if x.codeword = 0 then 0b0000001111#10 else 0b0001111000#10) } ∧
         RegsBeside s t [fieldKey Reg.AQ_CNT_REPLAY_uncorrectable l.val 0])) ∧
     (st = 6 → rsDecode (w.map (·.toNat)) = none → BucketSpare s l.val → x.retrainTimes = [] →
       ∃ t, exec (.codeword l w) s = .next t ∧ (Config.lockLost (x.badWords + 1) = true → LinksOnly s t ∧
         t.rg Reg.AQ_STATUS_state l.val = 7 ∧ (t.lnk l.val).sub = 3 ∧ (t.lnk l.val).window = x.window ∧ LinksBut s t [l.val])))

/-- Training. A parameter barge refuses the peer, one that has changed among them, or accepts it, and with echoes of acceptance received and
sent the link is Active with full grants; training frames carry tap requests in Equalize and the peer's lane numbers in Align; Detect ends
when the lanes hold lock, never in Bring-up; and a state that overruns its bound starts again or retires the link (R238, R247 to R251,
R259). -/
def Obligations.LinkTraining : Prop :=
  ∀ (s : State) (l : Fin 16) (b : Barge) (lane : Fin 5) (f : BitVec 96),
    let x := s.lnk l.val
    let y := ackTaken (atNextBarge x) b
    let st := s.rg Reg.AQ_STATUS_state l.val
    let refuse := bcell b 5 < 16 ∨ bcell b 8 < 128 ∨ bcell b 2 = s.rg Reg.AQ_DEVID_devid ∨
      (bit (bcell b 3) 4 = true ∧ s.on Reg.AQ_CTRL_bridge_ok l.val = false)
    let peerKeys := [fieldKey Reg.AQ_STATUS_peer l.val 0, fieldKey Reg.AQ_STATUS_peer_link l.val 0, fieldKey Reg.AQ_STATUS_peer_bridge l.val 0]
    let far := bits f.toNat 48 3
    let tap := bits f.toNat 54 3
    let ask := bits f.toNat 57 2
    let ready := 2 ≤ bits f.toNat 51 3
    let good := bits f.toNat 0 32 = 0x5F0A3C96 ∧ bits f.toNat 61 19 = 0 ∧ crcOf 2 (leBytes 6 (bits f.toNat 32 48)) = bits f.toNat 80 16
    (st = 5 → Sound s l.val b → bLink b = true → bVc b = 0 → bKind b = 2 →
      (refuse → ∃ t, exec (.parameterBarge l b) s = .next t ∧ LinksOnly s t ∧ t.on Reg.AQ_CAUSE_peer_refused l.val = true ∧
        t.rg Reg.AQ_STATUS_peer l.val = bcell b 2 ∧ LinkIs s t l.val { y with refused := true, peerOk := false } ∧
        RegsBut s t (fieldKey Reg.AQ_CAUSE_peer_refused l.val 0 :: peerKeys)) ∧
      (¬ refuse → x.oldPeer.any (fun p => decide (p ≠ bcell b 2)) = true →
        ∃ t, exec (.parameterBarge l b) s = .next t ∧ LinksOnly s t ∧ t.on Reg.AQ_CAUSE_peer_changed l.val = true ∧
          LinkIs s t l.val { y with refused := true, peerOk := false } ∧
          RegsBut s t (fieldKey Reg.AQ_CAUSE_peer_changed l.val 0 :: peerKeys)) ∧
      (¬ refuse → x.oldPeer = none → bcell b 10 ≠ 1 → y.peerEcho = false →
        ∃ t, exec (.parameterBarge l b) s = .next t ∧ LinksOnly s t ∧ t.rg Reg.AQ_STATUS_peer l.val = bcell b 2 ∧
          t.rg Reg.AQ_STATUS_peer_link l.val = bits (bcell b 3) 0 4 ∧ LinkIs s t l.val { y with refused := false, peerOk := true, peerBarge := b } ∧
          RegsBut s t peerKeys) ∧
      (¬ refuse → x.oldPeer = none → bcell b 10 = 1 → x.echoSent = false →
        ∃ t, exec (.parameterBarge l b) s = .next t ∧ LinksOnly s t ∧
          LinkIs s t l.val { y with refused := false, peerOk := true, peerEcho := true, peerBarge := b } ∧ RegsBut s t peerKeys) ∧
      (¬ refuse → x.oldPeer = none → bcell b 10 = 1 → x.echoSent = true →
        ∃ t, exec (.parameterBarge l b) s = .next t ∧ LinksOnly s t ∧ t.rg Reg.AQ_STATUS_state l.val = 6 ∧
          t.rg Reg.AQ_STATUS_train_fail l.val = 0 ∧ t.rg Reg.AQ_STATUS_round l.val = 0 ∧ t.rg Reg.AQ_STATUS_peer l.val = bcell b 2 ∧
          ((t.lnk l.val).pad2, (t.lnk l.val).pad3, (t.lnk l.val).pad1) = (bcell b 5, bcell b 6, bcell b 7) ∧
          ((t.lnk l.val).txSeq, (t.lnk l.val).expected, (t.lnk l.val).expRound) = (0, 0, 0) ∧ (t.lnk l.val).window = [] ∧
          (t.lnk l.val).txTrain = 0 ∧ (t.lnk l.val).rxTrain = 0 ∧ LinksBut s t [l.val] ∧
          RegsBut s t (peerKeys ++ [fieldKey Reg.AQ_STATUS_state l.val 0, fieldKey Reg.AQ_STATUS_train_fail l.val 0,
            fieldKey Reg.AQ_STATUS_round l.val 0]))) ∧
    (¬ good → exec (.trainingFrame l lane f) s = .next s) ∧
    (good → st = 2 → ask = 0 → ready →
      let eq := if lane.val ∈ x.equalized then x.equalized else lane.val :: x.equalized
      exec (.trainingFrame l lane f) s =
        .next (let t := s.setLnk l.val { x with tapStatus := x.tapStatus.put lane.val 0, equalized := eq }
               if eq.length = 5 then t.setRg Reg.AQ_STATUS_state l.val 3 else t)) ∧
    (good → st = 2 → ask = 3 → 4 ≤ tap → (x.equalized.filter (· ≠ lane.val)).length < 5 →
      exec (.trainingFrame l lane f) s =
        .next (s.setLnk l.val { x with tapStatus := x.tapStatus.put lane.val 3, equalized := x.equalized.filter (· ≠ lane.val) })) ∧
    (good → st = 2 → ask = 3 → tap < 4 → (x.equalized.filter (· ≠ lane.val)).length < 5 →
      exec (.trainingFrame l lane f) s =
        .next (s.setLnk l.val { x with taps := x.taps.put (4 * lane.val + tap) 0, tapStatus := x.tapStatus.put lane.val 1,
                                       equalized := x.equalized.filter (· ≠ lane.val) })) ∧
    (good → st = 3 → 4 < far → exec (.trainingFrame l lane f) s = .next s) ∧
    (good → st = 3 → far ≤ 4 → far ∉ x.aligned → x.aligned.length ≠ 4 →
      exec (.trainingFrame l lane f) s = .next (s.setLnk l.val { x with aligned := far :: x.aligned })) ∧
    (good → st = 3 → far ≤ 4 → far ∉ x.aligned → x.aligned.length = 4 →
      ∃ t, exec (.trainingFrame l lane f) s = .next t ∧ { t with links := s.links, regs := s.regs, freeCtr := s.freeCtr } = s ∧
        t.rg Reg.AQ_STATUS_state l.val = 4 ∧ RegsBut s t [fieldKey Reg.AQ_STATUS_state l.val 0] ∧
        (x.spareGen ≠ 0 → (t.lnk l.val).spareGen = x.spareGen) ∧ (t.lnk l.val).spareGen ≠ 0 ∧
        LinkIs s t l.val { x with aligned := far :: x.aligned, goodWords := 0, codeword := 0, bargeNo := 0, spoiled := 0, rxData := [],
                                  spareGen := (t.lnk l.val).spareGen }) ∧
    (st = 1 → s.mode = 0 → exec (.detectLock l) s = .next s) ∧
    (st = 1 → s.mode ≠ 0 → s.rg Reg.PWR_DOM_state (24 + l.val / 4) = 1 →
      exec (.detectLock l) s = .next ((s.setLnk l.val (trainingAnew x)).setRg Reg.AQ_STATUS_state l.val 2)) ∧
    (2 ≤ st → st ≤ 5 → x.refused = false →
      exec (.trainingTimeout l) s = .next (((s.setRg Reg.AQ_STATUS_train_fail l.val (min 63 (s.rg Reg.AQ_STATUS_train_fail l.val + 1))).setLnk
        l.val (trainingAnew x)).setRg Reg.AQ_STATUS_state l.val 1)) ∧
    (x.refused = true → exec (.trainingTimeout l) s = .next s) ∧
    (st = 7 → x.refused = false → x.retrainFails < 2 →
      exec (.trainingTimeout l) s = .next ((s.setLnk l.val (trainingAnew { x with retrainFails := x.retrainFails + 1 })).setRg
        Reg.AQ_STATUS_state l.val 7)) ∧
    (st = 7 → x.refused = false → 2 ≤ x.retrainFails → NothingUnacked s l.val → NothingWaits s l.val →
      ∃ t, exec (.trainingTimeout l) s = .next t ∧ LinksOnly s t ∧ Retired s t l.val ∧ RegsBeside s t (linkKeys l.val))

/-- A barge slot sends the first that is ready: a status barge that is due, a replay, a new barge by rank, where fifteen slots of VC0 earn
VC3, or VC1, its turn, and else an idle status barge; ten barges make a train for the lanes, whose unused spare sends PRBS31. Exchange sends
parameter barges, and ends with the echo that it still owed. Without ack progress the transmitter replays in its own round, or retrains at
the limit; a VC1 barge that waits too long for a paddle moves to VC3 of its escape link, be that down, and without a usable route is
discarded (R223, R224, R230, R231, R234 to R237, R241, R247,
R249, R254, R257). -/
def Obligations.Transmitter : Prop :=
  ∀ (s : State) (l : Fin 16),
    let x := s.lnk l.val
    let st := s.rg Reg.AQ_STATUS_state l.val
    let round := s.rg Reg.AQ_STATUS_round l.val
    let due := x.statusDue = true ∨ 63 ≤ x.sinceStatus
    let idle := ¬ due ∧ x.replaying = [] ∧ x.window.length < 512 ∧ x.draining = false
    let ready1 := x.q1 ≠ [] ∧ 0 < x.pad1
    let ready3 := x.q3 ≠ [] ∧ 0 < x.pad3
    let after := fun (vc : Nat) => ({ x with run1 := turnAfter ready1 x.run1 1 vc, run3 := turnAfter ready3 x.run3 3 vc } : Link)
    (st = 6 → x.train.length < 9 →
      (due → exec (.bargeSlot l) s = .next (s.setLnk l.val (statusSent x round))) ∧
      (¬ due → x.replaying = [] → 512 ≤ x.window.length → exec (.bargeSlot l) s = .next (s.setLnk l.val (statusSent x round))) ∧
      (∀ b ∈ x.replaying.head?, ¬ due → exec (.bargeSlot l) s = .next (s.setLnk l.val
        (withSent { x with replaying := x.replaying.tail, sinceStatus := x.sinceStatus + 1 } (sealBarge b (bcell b 0) round)))) ∧
      (idle → x.q0 = [] → x.q1 = [] → x.q2 = [] → x.q3 = [] → exec (.bargeSlot l) s = .next (s.setLnk l.val (statusSent x round))) ∧
      (∀ w ∈ x.q2.head?, idle → w.src = 16 → x.q2.length = 1 → 0 < x.pad2 →
        exec (.bargeSlot l) s = .next (s.setLnk l.val (newSent { after 2 with q2 := [], pad2 := x.pad2 - 1 } 2 round w.barge))) ∧
      (∀ w ∈ x.q0.head?, idle → x.q2 = [] → w.src = 16 → x.q0.length = 1 →
        (x.run3 < 15 ∨ ¬ ready3) → (x.run1 < 15 ∨ ¬ ready1) →
        exec (.bargeSlot l) s = .next (s.setLnk l.val (newSent { after 0 with q0 := [] } 0 round w.barge))) ∧
      (∀ w ∈ x.q3.head?, idle → x.q2 = [] → (15 ≤ x.run3 ∨ (x.q0 = [] ∧ (x.run1 < 15 ∨ ¬ ready1))) → w.src = 16 → x.q3.length = 1 → 0 < x.pad3 →
        exec (.bargeSlot l) s = .next (s.setLnk l.val (newSent { after 3 with q3 := [], pad3 := x.pad3 - 1 } 3 round w.barge))) ∧
      (∀ w ∈ x.q1.head?, idle → x.q2 = [] → (x.run3 < 15 ∨ ¬ ready3) → (15 ≤ x.run1 ∨ (x.q0 = [] ∧ ¬ ready3)) → w.src = 16 → x.q1.length = 1 → 0 < x.pad1 →
        exec (.bargeSlot l) s = .next (s.setLnk l.val (newSent { after 1 with q1 := [], pad1 := x.pad1 - 1 } 1 round w.barge)))) ∧
    (st = 6 → x.train.length = 9 → due → x.txSwap = none → ((List.range 4).map (mapLane (s.rg Reg.AQ_LANEMAP_tx_map l.val))).Nodup →
      ∃ t, exec (.bargeSlot l) s = .next t ∧ LinksOnly s t ∧ t.regs = s.regs ∧
        LinkIs s t l.val { statusSent x round with train := [], txTrain := x.txTrain + 1, lanes := (t.lnk l.val).lanes,
                                                   spareGen := (t.lnk l.val).spareGen } ∧
        (let spare := spareOf (s.rg Reg.AQ_LANEMAP_tx_map l.val)
         x.txSpareUsed = false → (t.lnk l.val).lanes.get spare [] = x.lanes.get spare [] ++ levelsOf (prbsRun 31 28 1020 x.spareGen).1) ∧
        ∀ k ∈ [0, 1, 2, 3], (t.lnk l.val).lanes.get (mapLane (s.rg Reg.AQ_LANEMAP_tx_map l.val) k) [] =
          x.lanes.get (mapLane (s.rg Reg.AQ_LANEMAP_tx_map l.val) k) [] ++
            (encodeTrain (x.train ++ [statusOf x round])).flatMap fun w => slotLevels w k) ∧
    (st = 5 → x.train.length < 9 → (x.peerOk = false ∨ x.peerEcho = false) →
      exec (.bargeSlot l) s = .next (s.setLnk l.val (withSent { x with echoSent := x.echoSent || x.peerOk } (linkBarge ((x.expected + 4095) % 4096) 2
        [s.rg Reg.AQ_DEVID_devid, l.val, 7, 16, 32, 64, 128, 512, if x.peerOk then 1 else 0] round)))) ∧
    (st = 4 → x.train.length < 9 → exec (.bargeSlot l) s = .next (s.setLnk l.val (statusSent x round))) ∧
    (st = 5 → x.peerOk = true → x.peerEcho = true →
      ∃ t, exec (.bargeSlot l) s = .next t ∧ t.rg Reg.AQ_STATUS_state l.val = 6 ∧ LinksBut s t [l.val]) ∧
    (st = 6 → x.window = [] → exec (.replayTimeout l) s = .next s) ∧
    (st = 6 → x.window ≠ [] → x.replayRuns < max 1 (s.rg Reg.AQ_THR_replay_limit l.val) → BucketSpare s l.val →
      ∃ t, exec (.replayTimeout l) s = .next t ∧ LinksOnly s t ∧
        LinkIs s t l.val { x with replaying := x.window, replayRuns := x.replayRuns + 1 } ∧ t.bucket 7 l.val = s.bucket 7 l.val + 1 ∧
        t.rg Reg.AQ_CNT_REPLAY_replays l.val = satAdd (2 ^ Reg.AQ_CNT_REPLAY_replays.width - 1) (s.rg Reg.AQ_CNT_REPLAY_replays l.val) 1 ∧
        RegsBeside s t [fieldKey Reg.AQ_CNT_REPLAY_replays l.val 0]) ∧
    (st = 6 → x.window ≠ [] → max 1 (s.rg Reg.AQ_THR_replay_limit l.val) ≤ x.replayRuns → x.retrainTimes = [] →
      ∃ t, exec (.replayTimeout l) s = .next t ∧ t = (s.setLnk l.val (t.lnk l.val)).setRg Reg.AQ_STATUS_state l.val 7 ∧
        (t.lnk l.val).sub = 3 ∧ (t.lnk l.val).window = x.window ∧ (t.lnk l.val).taps = x.taps ∧ (t.lnk l.val).retrainTimes = [s.power.time]) ∧
    (∀ w ∈ x.q1.head?, st = 6 → x.pad1 = 0 → bVc w.barge = 1 → s.route (bcell w.barge 2) = none → w.src = 16 →
      parityOk (Mem.get s.routes (2 * bcell w.barge 2)) = true → parityOk (Mem.get s.routes (2 * bcell w.barge 2 + 1)) = true →
      exec (.escapeWait l) s = .next ((s.setLnk l.val { x with q1 := x.q1.tail }).cause (.link (s.blame (bcell w.barge 2)))
        Reg.AQ_CAUSE_unreachable (s.blame (bcell w.barge 2)))) ∧
    (∀ w ∈ x.q1.head?, st = 6 → x.pad1 = 0 → s.escapeLink (bcell w.barge 2) ≠ l.val → bVc w.barge = 1 →
      (s.route (bcell w.barge 2)).isSome = true →
      ∃ t, exec (.escapeWait l) s = .next t ∧ { t with links := s.links } = s ∧ t.lnk l.val = { x with q1 := x.q1.tail } ∧
        (let e := s.escapeLink (bcell w.barge 2)
         ∀ v ∈ (t.lnk e).q3.getLast?, t.lnk e = { s.lnk e with q3 := (s.lnk e).q3 ++ [v] } ∧ v.src = w.src ∧ v.arr = w.arr ∧ bVc v.barge = 3 ∧
           bKind v.barge = bKind w.barge ∧ ∀ k ∈ [2, 3, 4, 5, 6, 7, 8, 9], bcell v.barge k = bcell w.barge k) ∧
        (t.lnk (s.escapeLink (bcell w.barge 2))).q3.length = (s.lnk (s.escapeLink (bcell w.barge 2))).q3.length + 1 ∧
        LinksBut s t [l.val, s.escapeLink (bcell w.barge 2)])

/-- Permanent lane faults ask for a swap, or retire a link that has no spare left; a planned retirement retires once it has drained, and
what waits then takes the route that is left; the Test state's checkers lock, and a margin scan ends with its count, of no more bits than it
has looked at (R253, R257, R259, R261 to R263). AQ_CTRL: enable takes a link out of Off into Detect, or into Test, and back to Off, and the
first link out of Off has its quadrant's domain switched on; retrain sends an Active link to Retrain; retire drains an Active link.
AQ_MARGIN starts a scan of a live or test lane that runs none. The route table stores cells, reads them with the active and usable fields of
the links as they are, and steps its address (R247, R252, R253, R261 to R263, R265, R520). -/
def Obligations.LanesAndLinkControl : Prop :=
  (∀ (s : State) (l : Fin 16) (lane : Fin 5) (errors : Word),
     let x := s.lnk l.val
     let st := s.rg Reg.AQ_STATUS_state l.val
     let i := 5 * l.val + lane.val
     (∀ c ∈ x.laneSym.head?, st = 6 → x.laneSym.length = 1 → c.1 = lane.val → (x.laneOver = [] ∨ x.laneOver = [(lane.val, 1)]) →
       let hot := if s.rg Reg.AQ_THR_lane_ser l.val < c.2 then [(lane.val, x.laneOver.length + 1)] else []
       exec (.laneSerWindow l) s = .next (s.setLnk l.val { x with laneSym := [], laneOver := hot })) ∧
     (∀ k ∈ [0, 1, 2, 3], CarriesSlot s l.val lane.val k → st = 6 → x.sinceStatus < 63 → NothingUnacked s l.val → NothingWaits s l.val →
       (∃ t, exec (.cdrLoss l lane) s = .next t ∧ LaneGone s t l.val k x) ∧
       (∀ c ∈ x.laneSym.head?, x.laneSym.length = 1 → c.1 = lane.val → s.rg Reg.AQ_THR_lane_ser l.val < c.2 → x.laneOver = [(lane.val, 2)] →
         ∃ t, exec (.laneSerWindow l) s = .next t ∧ LaneGone s t l.val k { x with laneSym := [], laneOver := [] })) ∧
     (st = 6 → (∀ k ∈ [0, 1, 2, 3], ¬ CarriesSlot s l.val lane.val k) → s.on Reg.AQ_STATUS_spare_used l.val = false → x.rxAsk = none →
       exec (.cdrLoss l lane) s = .next (s.setLnk l.val { x with rxSpareLost := true })) ∧
     (st ≠ 6 → exec (.cdrLoss l lane) s = .next s) ∧
     (x.draining = false → exec (.plannedRetireDrain l) s = .next s) ∧
     (x.draining = true → st ≠ 9 → (x.window = [] ∨ NothingUnacked s l.val) → NothingWaits s l.val →
       ∃ t, exec (.plannedRetireDrain l) s = .next t ∧ LinksOnly s { t with freeCtr := s.freeCtr } ∧ Retired s t l.val ∧
         RegsBeside s t (linkKeys l.val ++ checkerKeys l.val)) ∧
     (∀ w ∈ x.q1.head?, x.draining = true → st = 6 → x.window = [] → x.train.length < 9 → x.waitingAll = [w] → bVc w.barge = 1 →
       ∀ k ∈ ((s.candidates (bcell w.barge 2)).filter (· ≠ l.val)).find? s.active,
         ∃ t, exec (.plannedRetireDrain l) s = .next t ∧ LinksOnly s t ∧ t.rg Reg.AQ_STATUS_state l.val = 9 ∧ (t.lnk l.val).q1 = [] ∧
           t.lnk k = { s.lnk k with q1 := (s.lnk k).q1 ++ [w] } ∧ LinksBut s t [l.val, k]) ∧
     (s.on Reg.AQ_MARGIN_busy i = true → exec (.marginScanDone l lane errors) s =
       .next ((s.setRg Reg.AQ_MARGIN_busy i 0).setRg Reg.AQ_MARGIN_RES_errors i
         (min errors.toNat (2 ^ (s.rg Reg.AQ_MARGIN_dwell i + 20))))) ∧
     (s.on Reg.AQ_MARGIN_busy i = false → exec (.marginScanDone l lane errors) s = .next s) ∧
     (st = 8 → s.on Reg.AQ_PRBS_chk_en i = true → exec (.prbsCheckerLock l lane) s =
       .next ((s.setRg Reg.AQ_PRBS_locked i 1).setRg Reg.AQ_PRBS_ERR_errors i 0)) ∧
     (¬ (st = 8 ∧ s.on Reg.AQ_PRBS_chk_en i = true) → exec (.prbsCheckerLock l lane) s = .next s)) ∧
  (∀ (s : State) (who : Requester) (v : Word),
     let l := s.rgw Reg.AQ_SEL_link (copyOf who)
     let x := s.lnk l
     let st := s.rg Reg.AQ_STATUS_state l
     let en := bit v.toNat 0
     let old := s.power.switches
     (Writable s who 0x400008 → l < 16 → bits v.toNat 3 3 = bits (s.readFields Reg.AQ_CTRL .pf l) 3 3 →
       (en = true → st = 0 → s.mode ≠ 0 → s.on Reg.AQ_CTRL_test l = false → bits v.toNat 1 2 = 0 →
         ∃ t, exec (.aqEnable who v) s = .next t ∧ LinkControlOnly s t ∧ LinkIs s t l (trainingAnew x) ∧
           t.rg Reg.AQ_STATUS_state l = 1 ∧ t.on Reg.AQ_CTRL_enable l = true ∧ RegsBut s t (ctrlKeys l) ∧
           t.power.switches = (if AloneInQuadrant s l then old ++ [(24 + l / 4, 1)] else old)) ∧
       (en = true → st = 0 → s.mode = 2 → s.on Reg.AQ_CTRL_test l = true → bits v.toNat 1 2 = 0 →
         ∃ t, exec (.aqEnable who v) s = .next t ∧ LinkControlOnly s t ∧ LinkIs s t l (trainingAnew x) ∧
           t.rg Reg.AQ_STATUS_state l = 8 ∧ RegsBut s t (ctrlKeys l)) ∧
       (en = false → st ≠ 0 → st ≠ 9 → bits v.toNat 1 2 = 0 → (∀ w ∈ x.waitingAll, w.src = 16) →
         ∃ t, exec (.aqEnable who v) s = .next t ∧ LinkControlOnly s t ∧ t.rg Reg.AQ_STATUS_state l = 0 ∧
           (t.lnk l).window = [] ∧ (t.lnk l).sent = x.sent ∧ LinksBut s t [l] ∧
           RegsBut s t (ctrlKeys l ++ checkerKeys l) ∧
           (∀ n < 5, s.on Reg.AQ_PRBS_locked (5 * l + n) = true → t.on Reg.AQ_PRBS_locked (5 * l + n) = false) ∧
           t.power.switches = (if AloneInQuadrant s l then old ++ [(24 + l / 4, 0)] else old)) ∧
       (en = true → st = 6 → bits v.toNat 1 2 = 1 → x.retrainTimes = [] →
         ∃ t, exec (.aqRetrain who v) s = .next t ∧ LinksOnly s t ∧ t.rg Reg.AQ_STATUS_state l = 7 ∧ (t.lnk l).sub = 3 ∧
           (t.lnk l).window = x.window ∧ (t.lnk l).taps = x.taps ∧ LinksBut s t [l] ∧ RegsBut s t (ctrlKeys l)) ∧
       (en = true → st = 6 → bits v.toNat 1 2 = 2 →
         ∃ t, exec (.aqRetire who v) s = .next t ∧ LinksOnly s t ∧ t.rg Reg.AQ_STATUS_state l = 6 ∧ t.on Reg.AQ_CTRL_retire l = true ∧
           LinkIs s t l { x with draining := true } ∧ RegsBut s t (ctrlKeys l))) ∧
     (Writable s who 0x400038 → l < 16 → s.rgw Reg.AQ_SEL_lane (copyOf who) < 5 → bit v.toNat 31 = true →
       let i := 5 * l + s.rgw Reg.AQ_SEL_lane (copyOf who)
       let u := (((s.setRg Reg.AQ_MARGIN_dwell i (bits v.toNat 26 4)).setRg Reg.AQ_MARGIN_eye i (bits v.toNat 24 2)).setRg
         Reg.AQ_MARGIN_y i (bits v.toNat 10 7)).setRg Reg.AQ_MARGIN_x i (bits v.toNat 0 6)
       exec (.aqMargin who v) s = .next (if s.on Reg.AQ_MARGIN_busy i = false ∧ 4 ≤ st ∧ st ≤ 8 then u.setRg Reg.AQ_MARGIN_busy i 1
         else u)) ∧
     (let k := copyOf who
      let dest := s.rgw Reg.AQ_ROUTE_ADDR_dest k
      let cell := s.rgw Reg.AQ_ROUTE_ADDR_cell k
      let next := fun (t : State) => t.rgw Reg.AQ_ROUTE_ADDR_dest k * 2 + t.rgw Reg.AQ_ROUTE_ADDR_cell k =
        (dest * 2 + cell + (if s.rgw Reg.AQ_ROUTE_ADDR_autoinc k = 1 then 1 else 0)) % 8192
      let keys := [fieldKey Reg.AQ_ROUTE_ADDR_dest 0 k, fieldKey Reg.AQ_ROUTE_ADDR_cell 0 k, fieldKey Reg.AQ_ROUTE_DATA_par_err 0 0]
      dest < 4096 → cell < 2 →
       (Writable s who 0x400044 → s.on Reg.TST_FLIP_arm = false →
         ∃ t, exec (.aqRouteData who (some v)) s = .next t ∧ { t with regs := s.regs, routes := s.routes, routesCopy := s.routesCopy } = s ∧
           StoredAt s.routes t.routes (2 * dest + cell) (store (if cell = 1 then v.setWidth 12 &&& 0xF07#12 else v.setWidth 12)) ∧
           next t ∧ RegsBut s t keys) ∧
       (Readable s who 0x400044 → parityOk (Mem.get s.routes (2 * dest + cell)) = true → cell = 0 →
         ∃ t, exec (.aqRouteData who none) s = .next t ∧ { t with regs := s.regs, readData := s.readData } = s ∧
           t.readData.toNat = (cellOf (Mem.get s.routes (2 * dest))).toNat ∧ next t ∧ RegsBut s t keys) ∧
       (Readable s who 0x400044 → parityOk (Mem.get s.routes (2 * dest)) = true → parityOk (Mem.get s.routes (2 * dest + 1)) = true → cell = 1 →
         ∃ t, exec (.aqRouteData who none) s = .next t ∧ { t with regs := s.regs, readData := s.readData } = s ∧ next t ∧ RegsBut s t keys ∧
           (let c0 := (Mem.get s.routes (2 * dest)).toNat
            let c1 := (Mem.get s.routes (2 * dest + 1)).toNat
            let use := fun n => c1.testBit n && decide (s.rg Reg.AQ_STATUS_state (bits c0 (4 * n) 4) = 6)
            let r := t.readData.toNat
            bits r 0 3 = bits c1 0 3 ∧ bit r 3 = use 0 ∧ bit r 4 = use 2 ∧ bit r 5 = use 1 ∧ bits r 8 4 = bits c1 8 4 ∧
            bits r 6 2 = if use 0 then 0 else if use 1 then 1 else if use 2 then 2 else 3))))

/-- Arrival at a lock. A device records its children's ARRIVE, and with all of them and its own capture it sends its own to its parent; at
the root the lock commits, or rolls back on a failed capture. Before its start lock commits a device takes an ARRIVE whatever lock it
names, and sends a lock number that is not its own on towards the root, which suspends the partition with reason 4 (R433). COMMIT at the
lock it names commits there. A wait past its limit sets the
cause and raises one alarm, and goes on; where no route leads to what it waits for, the lock tree is broken and the share is suspended
(R287, R288, R290, R291, R340). -/
def Obligations.LockFlight : Prop :=
  ∀ (s : State) (t : Fin 16) (child : Cell) (lock : BitVec 24) (fail early export_ : Bool) (devices : Cell) (rootTime delay elapsed d : Nat),
    let x := s.part t.val
    let a : Sweep := ⟨child.toNat, (if fail then 1 else 0) + (if early then 2 else 0), lock.toNat, devices.toNat⟩
    let here := lock.toNat = s.lockNo t.val
    let taken := here ∨ s.rg Reg.WHF_TSTAT_mode t.val = 1
    let phase := s.rg Reg.LCK_STATUSt_phase t.val
    let arrive := exec (.arrive t child lock fail early devices) s
    (¬ taken → arrive = .next s) ∧
    (¬ here → exec (.commit t lock export_ rootTime delay elapsed) s = .next s) ∧
    (taken → s.suspended t.val = false → child.toNat ∈ s.children t.val → x.ready = false →
      arrive = .next (s.setPart t.val { x with arrived := (x.arrived.filter fun b => b.child ≠ child.toNat) ++ [a] })) ∧
    (taken → ReadyAtLock s t.val → s.children t.val = [child.toNat] → x.arrived = [] → LeafBelow s t.val d →
      ∃ u, arrive = .next u ∧ FlightFrame s u t.val ∧ u.rg Reg.LCK_STATUSt_phase t.val = 3 ∧
        MessageSent s u t.val d 0x010 (cells2 lock.toNat ++
          [(if fail then 1 else 0) + (if early ∨ s.on Reg.LCK_STATUSt_released t.val = true then 2 else 0)] ++ [(devices.toNat + 1) % 4096]) ∧
        u.part t.val = { x with arrived := [a], arriveAt := s.power.time } ∧ RegsBut s u [fieldKey Reg.LCK_STATUSt_phase t.val 0]) ∧
    (here → ReadyAtLock s t.val → s.children t.val = [child.toNat] → x.arrived = [] → s.isRoot t.val = true → (s.route child.toNat).isSome = true →
      fail = false → x.gapWaiting = none → Untroubled s t.val →
      ∃ u, arrive = .next u ∧ Committed s u t.val lock.toNat (s.exportDue t.val lock.toNat)) ∧
    (here → ReadyAtLock s t.val → s.children t.val = [child.toNat] → x.arrived = [] → s.isRoot t.val = true → (s.route child.toNat).isSome = true →
      fail = true → x.rollbacks < 4 → x.gapRunning = false →
      ∃ u, arrive = .next u ∧
        RolledBack s u t.val (s.rg Reg.LCK_CKPTt_newest t.val) ((s.rg Reg.LCK_STATUSt_epoch t.val + 1) % 4) false) ∧
    (taken → ¬ here → ReadyAtLock s t.val → s.children t.val = [child.toNat] → x.arrived = [] → s.isRoot t.val = true →
      s.loaded t.val = true → (s.route child.toNat).isSome = true → ∃ u, arrive = .next u ∧ Suspended s u t.val 4) ∧
    (here → phase = 3 → x.atLock = true → x.ready = true → (∀ c ∈ s.children t.val, (s.route c).isSome = true) →
      Untroubled s t.val →
      ∃ u, exec (.commit t lock export_ rootTime delay elapsed) s = .next u ∧ Committed s u t.val lock.toNat export_) ∧
    (phase ≠ 3 → exec (.commit t lock export_ rootTime delay elapsed) s = .next s) ∧
    (x.atLock = true → x.ready = true → (phase = 2 ∨ phase = 3) → (s.weir.alarms.get t.val []).length < 64 →
      (∀ c ∈ s.awaited t.val, (s.route c).isSome = true) →
      ∃ u, exec (.flightTimeout t) s = .next u ∧ u.on Reg.LCK_CAUSEt_flight_timeout t.val = true ∧ u.parts = s.parts ∧
        u.clusters = s.clusters ∧ u.reaches = s.reaches ∧ u.links = s.links ∧
        (u.weir.alarms.get t.val []).any (fun e => decide (e.code = 0x002 ∧ e.source = 0x4000 + t.val)) = true ∧
        RegsBeside s u [fieldKey Reg.LCK_CAUSEt_flight_timeout t.val 0]) ∧
    (x.atLock = true → x.ready = true → (phase = 2 ∨ phase = 3) → s.loaded t.val = true → (∃ c ∈ s.awaited t.val, s.route c = none) →
      ∃ u, exec (.flightTimeout t) s = .next u ∧ u.on Reg.LCK_CAUSEt_flight_timeout t.val = true ∧
        u.on Reg.LCK_CAUSEt_suspended t.val = true ∧ u.rg Reg.WHF_TSTAT_mode t.val = 7 ∧ u.rg Reg.LCK_STATUSt_phase t.val = 6 ∧
        (s.qopen t.val 2 = false → s.faults.get t.val [] = [] → u.faults.get t.val [] = [⟨1, 1, 0, 4⟩, ⟨6, 1, 0, 0⟩])) ∧
    (x.atLock = false → exec (.flightTimeout t) s = .next s)

/-- The capture at a lock: with every berth and clear returned, every write is completed and segment C of all the positions is taken; the
slot of the lock is written with state 1. A device of a partition of its own then commits at once; a leaf sends ARRIVE, with capture_fail
set after a second failed write of segment C or K, the first having gone into fresh buffers (R270, R278, R281, R283, R290). -/
def Obligations.LockCapture : Prop :=
  ∀ (s : State) (t : Fin 16) (failsC failsK d : Nat),
    let x := s.part t.val
    let slot := ({ x with ckpts := x.ckpts.filter fun k => k.committed } : Part).freeSlot
    let rc := if failsC = 1 then s.renewSegment t.val slot 0 else (true, s)
    let rk := if failsK = 1 then rc.2.renewSegment t.val slot 1 else (true, s)
    let failed := 2 ≤ failsC ∨ 2 ≤ failsK
    (s.mayCapture t.val = false → exec (.lockCapture t (failsC, failsK)) s = .next s) ∧
    (s.mayCapture t.val = true → NoHooks s t.val → x.arrived = [] → x.ready = false → x.captureFail = false → x.holdReq = none →
      s.outputsGone t.val = true → s.suspended t.val = false → s.pmode t.val ≠ 1 →
      (∀ r ∈ x.bound, (s.rch r).wb = [] ∧ (s.rch r).following = false) → (∀ c ∈ s.clustersOf t.val, (s.clu c).inflight = [] ∧ (s.clu c).reads = []) →
      s.captureBad t.val = none → s.on Reg.TST_FLIP_arm = false → rc.1 = true → rk.1 = true →
      (LeafBelow s t.val d → s.children t.val = [] →
        ∃ u, exec (.lockCapture t (failsC, failsK)) s = .next u ∧ u.rg Reg.LCK_STATUSt_phase t.val = 3 ∧ (u.part t.val).ready = true ∧
          (u.part t.val).captured = true ∧ (u.part t.val).captureFail = decide failed ∧
          (u.part t.val).ckpts = (x.ckpts.filter fun k => k.committed) ++
            [{ lock := s.lockNo t.val, committed := false, start := x.starting, exported := false, released := s.on Reg.LCK_STATUSt_released t.val,
               epoch := s.rg Reg.LCK_STATUSt_epoch t.val, segC := s.captureC t.val, segK := [],
               segU := if x.starting then [] else x.undoNow, segL := if x.starting then [] else x.logNow,
               bad := if x.starting then [] else x.badNow, slot := slot }] ∧
          (failed → u.on Reg.LCK_CAUSEt_capture_fail t.val = true) ∧
          MessageSent s u t.val d 0x010 (cells2 (s.lockNo t.val) ++
            [(if failed then 1 else 0) + (if s.on Reg.LCK_STATUSt_released t.val then 2 else 0)] ++ [0]) ∧
          PartsBut s u [t.val]) ∧
      (Alone s t.val → ¬ failed → x.gapWaiting = none → Untroubled s t.val →
        ∃ u, exec (.lockCapture t (failsC, failsK)) s = .next u ∧ u.rg Reg.LCK_CKPTt_newest t.val = s.lockNo t.val ∧
          u.rg Reg.LCK_POUNDt_pound t.val = (s.lockNo t.val + 1) % 2 ^ 24 ∧ (u.part t.val).atLock = false ∧
          (u.part t.val).ckpts.any (fun k => k.lock = s.lockNo t.val ∧ k.committed ∧ k.segC = s.captureC t.val) = true ∧
          u.on Reg.LCK_CAUSEt_committed t.val = true ∧ PartsBut s u [t.val]))

/-- Rollback. The root answers a REQ of the current epoch with a ROLLBACK to its target in the next epoch, one that comes within the gap
waits for it, the one with the older target first, a fifth without a commit suspends, and one of an older epoch is ignored. A device carries
out a ROLLBACK it receives; a suspended one only takes its epoch (the model's choice, log 70). With every RESTORED in, a device sends its
own; the root resumes, falls back to the lock before, or suspends; on RESUME the partition goes on (R301 to R308). The restore: the target's
segment C is back in the clusters, the undo lists are used up, the target is the newest lock, the next pound stands at its first design
cycle, re-execution is shown while the horizon lies ahead, and a leaf sends RESTORED; a target that is not usable is reported and not
restored (R272, R298, R302, R306). -/
def Obligations.RollbackAndRestore : Prop :=
  (∀ (s : State) (t : Fin 16) (lock target : BitVec 24) (epoch : BitVec 2) (older replay unusable early olderUnusable : Bool)
     (cause : BitVec 4) (child devices : Cell) (d : Nat),
     let x := s.part t.val
     let own := s.rg Reg.LCK_STATUSt_epoch t.val
     let phase := s.rg Reg.LCK_STATUSt_phase t.val
     let next := (own + 1) % 4
     let req := exec (.req t lock epoch older false cause) s
     let aim := rollTarget s t.val older
     let again := decide (RollsInReplay s t.val)
     let gap := (aim, again, if again then x.replayStop else none)
     let live := s.loaded t.val = true ∧ s.suspended t.val = false ∧ s.rg Reg.WHF_TSTAT_mode t.val ≠ 1
     let routed := ∀ c ∈ s.children t.val, (s.route c).isSome = true
     (s.rootHere t.val = false → req = .next s) ∧
     (s.rootHere t.val = true → live → epoch.toNat ≠ own → req = .next s) ∧
     (s.rootHere t.val = true → live → epoch.toNat = own → routed →
       (x.rollbacks < 4 → x.gapRunning = true → req = .next (if x.gapWaiting.any (fun w => !poundLt aim w.1) then s
         else s.setPart t.val { x with gapWaiting := some gap })) ∧
       (x.rollbacks < 4 → x.gapRunning = false → ∃ u, req = .next u ∧ RolledBack s u t.val aim next again ∧ (u.part t.val).gapRunning = true) ∧
       (4 ≤ x.rollbacks → ∃ u, req = .next u ∧ Suspended s u t.val 3)) ∧
     (x.gapRunning = true → x.gapWaiting = none →
       exec (.rollbackGap t) s = .next (s.setPart t.val { x with gapRunning := false, gapWaiting := none })) ∧
     (x.gapRunning = false → exec (.rollbackGap t) s = .next s) ∧
     (∀ w ∈ x.gapWaiting, x.gapRunning = true → live → x.rollbacks < 4 → routed →
       ∃ u, exec (.rollbackGap t) s = .next u ∧ RolledBack s u t.val w.1 next w.2.1) ∧
     (live → x.atLock = false → routed →
       ∃ u, exec (.rollback t target epoch replay .none) s = .next u ∧ RolledBack s u t.val target.toNat epoch.toNat replay ∧
         (u.part t.val).replayStop = none) ∧
     (s.loaded t.val = true → s.suspended t.val = true → s.children t.val = [] →
       exec (.rollback t target epoch replay .none) s = .next (s.setRg Reg.LCK_STATUSt_epoch t.val epoch.toNat)) ∧
     (live → x.atLock = true → x.ready = true → s.lockNo t.val = target.toNat → s.slotOf t.val target.toNat = none → Untroubled s t.val →
       routed →
       ∃ u, exec (.rollback t target epoch replay .none) s = .next u ∧ u.rg Reg.LCK_CKPTt_newest t.val = target.toNat ∧
         u.rg Reg.LCK_STATUSt_epoch t.val = epoch.toNat ∧ u.rg Reg.LCK_STATUSt_phase t.val = 4 ∧ (u.part t.val).target = target.toNat ∧
         PartsBut s u [t.val]) ∧
     (let restored := exec (.restored t child target epoch unusable early olderUnusable devices) s
      let flags := (if unusable then 4 else 0) + (if early then 8 else 0) + (if olderUnusable then 16 else 0)
      let last := target.toNat = x.target ∧ epoch.toNat = own ∧ phase = 5 ∧ s.children t.val = [child.toNat] ∧ x.restored = [] ∧
        x.restoreDone = true ∧ x.restoreFlags = 0 ∧ (s.route child.toNat).isSome = true ∧ x.gapWaiting = none
      (¬ (target.toNat = x.target ∧ epoch.toNat = own) → restored = .next s) ∧
      (last → LeafBelow s t.val d → ∃ u, restored = .next u ∧ u.regs = s.regs ∧ FlightFrame s u t.val ∧
        u.part t.val = { x with restored := [⟨child.toNat, flags, 0, devices.toNat⟩] } ∧
        MessageSent s u t.val d 0x014 (cells2 x.target ++ [own + flags] ++ [(devices.toNat + 1) % 4096])) ∧
      (last → s.isRoot t.val = true → s.suspended t.val = false → unusable = false → early = false → x.holdReq = none →
        (x.ports.filter fun p => p.isInput && p.flagged) = [] →
        ∃ u, restored = .next u ∧ FlightFrame s u t.val ∧ u.rg Reg.LCK_STATUSt_phase t.val = (if ReplayGoesOn s t.val then 7 else 1) ∧
          u.on Reg.LCK_CAUSEt_rollback_done t.val = true ∧ (u.part t.val).restoreDone = false ∧
          MessageSent s u t.val child.toNat 0x015 (cells2 x.target ++ [own] ++ stopCells x.replayStop)) ∧
      (last → s.isRoot t.val = true → s.suspended t.val = false → unusable = false → early = true →
        ∃ u, restored = .next u ∧ Suspended s u t.val 1) ∧
      (last → s.isRoot t.val = true → s.suspended t.val = false → unusable = true → x.rollbacks < 4 → x.gapRunning = false →
        let lower := (x.target + 2 ^ 24 - 1) % 2 ^ 24
        if (s.slotOf t.val lower).isSome = true ∧ olderUnusable = false then
          ∃ u, restored = .next u ∧ RolledBack s u t.val lower next x.replayRun ∧ u.on Reg.LCK_CAUSEt_fallback t.val = true
        else ∃ u, restored = .next u ∧ Suspended s u t.val 2)) ∧
     (¬ (target.toNat = x.target ∧ epoch.toNat = own) → exec (.resume t target epoch .none) s = .next s) ∧
     (target.toNat = x.target → epoch.toNat = own → phase = 5 → x.holdReq = none → (x.ports.filter fun p => p.isInput && p.flagged) = [] →
       routed →
       ∃ u, exec (.resume t target epoch .none) s = .next u ∧ FlightFrame s u t.val ∧
         u.rg Reg.LCK_STATUSt_phase t.val = (if ReplayGoesOn s t.val then 7 else 1) ∧ u.on Reg.LCK_CAUSEt_rollback_done t.val = true ∧
         (u.part t.val).replayStop = none ∧
         ∀ c ∈ s.children t.val, s.children t.val = [c] → MessageSent s u t.val c 0x015 (cells2 x.target ++ [own] ++ [0, 0, 0, 2048]))) ∧
  (∀ (s : State) (t : Fin 16) (d : Nat),
     let x := s.part t.val
     let own := s.rg Reg.LCK_STATUSt_epoch t.val
     (s.rg Reg.LCK_STATUSt_phase t.val ≠ 4 → exec (.restoreComplete t) s = .next s) ∧
     (s.rg Reg.LCK_STATUSt_phase t.val = 4 → x.restoreDone = false → x.hooksOpen = [] → x.restoreFlags = 0 → NoHooks s t.val →
       LeafBelow s t.val d → s.children t.val = [] → x.gapWaiting = none → x.restored = [] →
       (s.usable t.val x.target = false →
         ∃ u, exec (.restoreComplete t) s = .next u ∧ u.clusters = s.clusters ∧ u.hbm = s.hbm ∧ u.rg Reg.LCK_STATUSt_phase t.val = 5 ∧
           bit (u.part t.val).restoreFlags 2 = true ∧ MessageSent s u t.val d 0x014 (cells2 x.target ++ [own + (u.part t.val).restoreFlags] ++ [0]) ∧
           PartsBut s u [t.val]) ∧
       (s.usable t.val x.target = true → Untroubled s t.val →
         ∃ u, exec (.restoreComplete t) s = .next u ∧ u.rg Reg.LCK_STATUSt_phase t.val = 5 ∧ bit (u.part t.val).restoreFlags 2 = false ∧
           u.rg Reg.LCK_CKPTt_newest t.val = x.target ∧ u.rg Reg.LCK_POUNDt_pound t.val = (x.target + 1) % 2 ^ 24 ∧
           u.rg Reg.LCK_STATUSt_dcycle t.val = 0 ∧ (u.part t.val).undoNow = [] ∧
           u.on Reg.LCK_STATUSt_reexec t.val = (x.horizonOn && !poundLt x.horizonPound ((x.target + 1) % 2 ^ 24)) ∧
           (u.part t.val).ckpts = x.ckpts.filter (fun k => !poundLt x.target k.lock) ∧ (u.part t.val).outs = x.outs.filter (fun o => !poundLt x.target o.pound) ∧
           (∀ k ∈ s.slotOf t.val x.target, ∀ c ∈ s.clustersOf t.val, (u.clu c).pc = 0 ∧ (u.clu c).t = 0 ∧ (u.clu c).latchLoad = true ∧
             (u.clu c).vm = ((s.restoreC t.val k.segC).clu c).vm ∧
             ∀ r < 94, Mem.get (u.clu c).rf r = Mem.get ((s.restoreC t.val k.segC).clu c).rf r) ∧
           PartsBut s u [t.val])))

/-- What a device captures of a partition it restores cell for cell: segment C taken in s0 and restored in s makes s capture the same
segment C, for every content of registers and marked cells (R148, R278, R302). -/
def Obligations.CaptureRestoreRoundTrip : Prop :=
  ∀ (s0 s : State) (t : Fin 16), (s.part t.val).bound.Nodup → s0.positionsOf t.val = s.positionsOf t.val →
    (s0.part t.val).marks = (s.part t.val).marks → (∀ r ∈ (s.part t.val).bound, r < 24) → s.on Reg.TST_FLIP_arm = false →
    (s.restoreC t.val (s0.captureC t.val)).captureC t.val = s0.captureC t.val

/-- Suspension reaches a share by SUSPEND of the epoch in force, which a suspended device passes on whatever its epoch, by op 3 of LCK_CMDt,
and by a stack that stops answering under its regions, undo pages or checkpoint buffers; op 3 elsewhere than at the root also asks the root for suspension, which the
root answers (R309, R327, R576). LCK_CMDt. Ops 1 and 2 send a REQ to the root, which acts on its own; op 4 starts a replay from a committed
lock still held, unless its stop lies beyond the return point; ops 5 and 6 take a partition from Readback back to Replay, or to Run where it
has reached the return point, and give one that still replays its new stop (R300, R301, R313, R314, R430). A bridge's REJOIN sends again what no clear has answered (R292), and an export that
has found its pages is announced, its slot held or not (R311, R312). -/
def Obligations.SuspensionAndLockCommands : Prop :=
  (∀ (s : State) (t : Fin 16) (lock : BitVec 24) (epoch : BitVec 2) (reason cause : BitVec 4) (older : Bool) (who : Requester) (d : Nat)
     (stack : Fin 2),
     let x := s.part t.val
     let own := s.rg Reg.LCK_STATUSt_epoch t.val
     let live := s.loaded t.val = true ∧ s.suspended t.val = false
     let routed := ∀ c ∈ s.children t.val, (s.route c).isSome = true
     (s.loaded t.val = false → exec (.suspend t epoch reason) s = .next s) ∧
     (live → epoch.toNat ≠ own → exec (.suspend t epoch reason) s = .next s) ∧
     (s.loaded t.val = true → s.suspended t.val = true → s.children t.val = [] → exec (.suspend t epoch reason) s = .next s) ∧
     (∀ c ∈ s.children t.val, s.loaded t.val = true → s.suspended t.val = true → s.children t.val = [c] →
         ∃ u, exec (.suspend t epoch reason) s = .next u ∧ FlightFrame s u t.val ∧ u.parts = s.parts ∧
           MessageSent s u t.val c 0x016 (cells2 (s.rg Reg.LCK_CKPTt_newest t.val) ++ [epoch.toNat + reason.toNat * 4])) ∧
     (live → epoch.toNat = own → routed → ∃ u, exec (.suspend t epoch reason) s = .next u ∧ Suspended s u t.val reason.toNat) ∧
     (live → epoch.toNat = own → s.rootHere t.val = true → routed →
       ∃ u, exec (.req t lock epoch older true cause) s = .next u ∧ Suspended s u t.val 4) ∧
     (live → s.rootHere t.val = true → routed → Writable s who (0x500124 + 0x40 * t.val) →
       ∃ u, exec (.suspendShare who t) s = .next u ∧ Suspended s u t.val 4) ∧
     (live → s.rootHere t.val = false → s.route x.rootDev = some d → Writable s who (0x500124 + 0x40 * t.val) →
       ∃ u, exec (.suspendShare who t) s = .next u ∧ Suspended s u t.val 4 ∧
         MessageSent s u t.val x.rootDev 0x012 (cells2 (s.rg Reg.LCK_CKPTt_newest t.val) ++ [own + 160])) ∧
     ((∀ p < 16, s.loaded p = true → p = t.val) → live →
       ((x.regions.any fun g => decide (g.stack = stack.val)) = true ∨ (x.undoFree.any fun u => decide (u.1 = stack.val)) = true ∨
        (x.undoNow ++ x.ckpts.flatMap (·.segU)).any (fun u => decide (u.stack = stack.val)) = true ∨
        (x.slots.any fun v => (v.desc :: (v.data ++ v.lists).flatten).any fun b => decide (b / 32768 = stack.val)) = true) →
       ∃ u, exec (.hbmStackUnresponsive stack) s = .next u ∧ Suspended s u t.val 2) ∧
     ((∀ p < 16, s.loaded p = false) → exec (.hbmStackUnresponsive stack) s = .next s)) ∧
  (∀ (s : State) (t : Fin 16) (who : Requester) (d r : Nat) (tag : Cell) (epoch : BitVec 2),
     let x := s.part t.val
     let own := s.rg Reg.LCK_STATUSt_epoch t.val
     let next := (own + 1) % 4
     let newest := s.rg Reg.LCK_CKPTt_newest t.val
     let mode := s.rg Reg.WHF_TSTAT_mode t.val
     let from_ := s.rg Reg.LCK_RPL_FROMt_lock t.val
     let stop := if s.on Reg.LCK_RPL_DCt_none t.val then none
       else some (s.rg Reg.LCK_RPL_POUNDt_pound t.val, s.rg Reg.LCK_RPL_DCt_dcycle t.val, s.on Reg.LCK_RPL_DCt_every t.val)
     let routed := ∀ c ∈ s.children t.val, (s.route c).isSome = true
     let able := Writable s who (0x500124 + 0x40 * t.val) ∧ s.loaded t.val = true ∧ s.suspended t.val = false ∧ routed
     (able → s.rootHere t.val = false → s.route x.rootDev = some d →
       (∃ u, exec (.reqNewest who t) s = .next u ∧ FlightFrame s u t.val ∧ u.parts = s.parts ∧ u.regs = s.regs ∧
         MessageSent s u t.val x.rootDev 0x012 (cells2 newest ++ [own + 8 * s.reqCause t.val])) ∧
       (∃ u, exec (.reqOlder who t) s = .next u ∧ FlightFrame s u t.val ∧ u.parts = s.parts ∧ u.regs = s.regs ∧
         MessageSent s u t.val x.rootDev 0x012 (cells2 newest ++ [own + 4 + 8 * s.reqCause t.val])) ∧
       exec (.replayStart who t) s = .next s ∧ exec (.replayContinue who t) s = .next s ∧ exec (.replayToReturnPoint who t) s = .next s) ∧
     (able → s.rootHere t.val = true → mode ≠ 1 → x.rollbacks < 4 → x.gapRunning = false →
       (∃ u, exec (.reqNewest who t) s = .next u ∧ RolledBack s u t.val (rollTarget s t.val false) next (decide (RollsInReplay s t.val))) ∧
       (∃ u, exec (.reqOlder who t) s = .next u ∧ RolledBack s u t.val (rollTarget s t.val true) next (decide (RollsInReplay s t.val))) ∧
       ((mode = 2 ∨ mode = 3) → (s.slotOf t.val from_).isSome = true → s.stopOk t.val = true →
         ∃ u, exec (.replayStart who t) s = .next u ∧ RolledBack s u t.val from_ next true ∧ (u.part t.val).replayStop = stop) ∧
       ((s.slotOf t.val from_) = none ∨ s.stopOk t.val = false → exec (.replayStart who t) s = .next s)) ∧
     (let goes := fun (u : State) => if s.on Reg.LCK_STATUSt_reexec t.val then u.rg Reg.WHF_TSTAT_mode t.val = 5
        else u.rg Reg.WHF_TSTAT_mode t.val = 2 ∧
          u.rg Reg.LCK_STATUSt_phase t.val = (if s.rg Reg.LCK_STATUSt_phase t.val = 7 then 1 else s.rg Reg.LCK_STATUSt_phase t.val)
      able → s.rootHere t.val = true → mode = 6 → s.rg Reg.LCK_STATUSt_phase t.val ≠ 4 → s.rg Reg.LCK_STATUSt_phase t.val ≠ 5 →
       (s.stopOk t.val = true → ∃ u, exec (.replayContinue who t) s = .next u ∧ goes u ∧
         FlightFrame s u t.val ∧ u.part t.val = { x with replayStop := stop }) ∧
       (s.stopOk t.val = false → exec (.replayContinue who t) s = .next s) ∧
       (∃ u, exec (.replayToReturnPoint who t) s = .next u ∧ goes u ∧ FlightFrame s u t.val ∧
         u.part t.val = { x with replayStop := none })) ∧
     (able → s.rootHere t.val = true → mode = 6 → (s.rg Reg.LCK_STATUSt_phase t.val = 4 ∨ s.rg Reg.LCK_STATUSt_phase t.val = 5) →
       exec (.replayToReturnPoint who t) s = .next (s.setPart t.val { x with replayStop := none })) ∧
     (able → s.rootHere t.val = true → mode = 5 →
       (s.stopOk t.val = true → ∃ u, exec (.replayContinue who t) s = .next u ∧ FlightFrame s u t.val ∧ u.regs = s.regs ∧
         u.part t.val = { x with replayStop := stop }) ∧
       (s.stopOk t.val = false → exec (.replayContinue who t) s = .next s) ∧
       ∃ u, exec (.replayToReturnPoint who t) s = .next u ∧ FlightFrame s u t.val ∧ u.regs = s.regs ∧
         u.part t.val = { x with replayStop := none } ∧
         (∀ c ∈ s.children t.val, s.children t.val = [c] → s.rg Reg.LCK_STATUSt_phase t.val ≠ 4 → s.rg Reg.LCK_STATUSt_phase t.val ≠ 5 →
           MessageSent s u t.val c 0x015 (cells2 x.target ++ [own] ++ [0, 0, 0, 2048]))) ∧
     (s.loaded t.val = true → x.bound = [r] →
       let e := entryNat (entryCells (s.rch r).nsm (3 * tag.toNat) 3)
       let vs := x.bridge.get (4096 * r + tag.toNat) []
       (epoch.toNat ≠ own → exec (.rejoin t tag epoch) s = .next s) ∧
       (∀ l ∈ s.route (bits e 22 12), epoch.toNat = own → entryOk (entryCells (s.rch r).nsm (3 * tag.toNat) 3) = true →
         bits e 22 12 ≠ s.rg Reg.AQ_DEVID_devid → s.mode ≠ 3 →
         ∃ u, exec (.rejoin t tag epoch) s = .next u ∧ { u with links := s.links } = s ∧
           LinkIs s u l { s.lnk l with
           q0 := (s.lnk l).q0 ++ vs.map fun v =>
            Waiting.mk 16 (seqBarge 0 0 1 (bits e 22 12) (s.rg Reg.AQ_DEVID_devid)
             (s.rg Reg.AQ_SPNt_spn t.val) [bits e 0 12, tag.toNat, v.1.toNat, bits e 16 5 * 128 + (if v.2 then 64 else 0) + own * 16]) 0 })) ∧
     (x.exporting = none → exec (.exportDone t) s = .next s) ∧
     (∀ k ∈ x.exporting, x.undoPinned = [] →
       let l := s.exportStream t.val k (x.exportD.getD (s.segD t.val))
       (s.on Reg.WHF_QCFG_enable (8 * t.val + 4) = false →
         ∃ u, exec (.exportDone t) s = .next u ∧ u.on Reg.LCK_EXPORTt_busy t.val = false ∧ (u.part t.val).exporting = none ∧
           (u.part t.val).ckpts = x.ckpts ∧ u.rg Reg.LCK_EXPORTt_lock t.val = s.rg Reg.LCK_EXPORTt_lock t.val ∧
           u.on Reg.LCK_CAUSEt_export_done t.val = true ∧ PartsBut s u [t.val]) ∧
       (s.on Reg.WHF_QCFG_enable (8 * t.val + 4) = true → (s.queue (8 * t.val + 4)).bound = true → (s.fn t.val).d3hot = false →
         s.qused t.val 4 = 0 → (l.length + 4095) / 4096 < s.qlen (8 * t.val + 4) →
         ∃ u, exec (.exportDone t) s = .next u ∧ u.on Reg.LCK_EXPORTt_busy t.val = false ∧ u.rg Reg.LCK_EXPORTt_lock t.val = k.lock ∧
           u.on Reg.LCK_CAUSEt_export_done t.val = true ∧
           (u.part t.val).ckpts = (if (s.slotOf t.val k.lock).isSome then
             x.ckpts.map (fun c => if c.lock = k.lock then { c with exported := true } else c) else x.ckpts) ∧
           ((u.hostOut.filter fun w => w.page).map (·.bytes)).flatten =
             ((s.hostOut.filter fun w => w.page).map (·.bytes)).flatten ++ l ∧ PartsBut s u [t.val])))

/-- Edges. Each adds one to its source: a claimed one, a keeper's private one, a cluster's under its cause bit, a link's under bit 0; a
reserved number never pends. Doorbells, software sources, keeper timers and ALERT inputs each raise their own source (R383, R393, R395 to
R398, R400, R417). Claim and completion. A target's claim returns the winner with its count and ties, which becomes active with that
claimer; without an eligible source, and for any other reader, the read is 0. Completion by the claimer ends it, with an ALERT source
pending again while its level lasts, and any other completion is only recorded. The latch of a scanned source clears bit by bit (R404, R406,
R408, R409, R413). IRQ_SRC_CFG of a shared source takes enable, priority and a legal target; a private, static or scanned source keeps what
it must. IRQ_PTGT takes legal targets and its lock from keeper 0 in ring 0, until locked (R399 to R402, R410, R416). -/
def Obligations.InterruptController : Prop :=
  (∀ (s : State) (k : Fin 4) (n : BitVec 9) (c : BitVec 3) (who : Requester) (v : Word) (timer input : Fin 2),
     let p := 2048 + n.toNat
     let b : BitVec 8 := if n.toNat < 408 then 1#8 <<< c.toNat else 1
     let t0 := 2 * k.val + timer.val
     let low := if input.val = 0 then s.power.alert0 else s.power.alert1
     (claimedSource n.toNat → ∃ t, exec (.sourceEdge k false n c) s = .next t ∧ Raised s t (placeOf k.val n.toNat)) ∧
     (¬ claimedSource n.toNat → exec (.sourceEdge k false n c) s = .next s) ∧
     (n.toNat < 424 → exec (.sourceEdge k true n c) s =
       .next (s.setSrc p { afterEdge s p with latch := (s.src p).latch ||| b })) ∧
     (424 ≤ n.toNat → exec (.sourceEdge k true n c) s = .next s) ∧
     (Writable s who 0x8000F0 →
       (bit v.toNat 31 = true → ∃ t, exec (.irqKdoor who v) s = .next t ∧
         Raised s t (1024 + 16 * bits v.toNat 0 2 + (match s.keeperOf who with | none => 8 | some j => 4 + j))) ∧
       (bit v.toNat 31 = false → exec (.irqKdoor who v) s = .next s)) ∧
     (Writable s who 0x8000F4 → ringOf who ≤ 1 →
       (bit v.toNat 31 = true → 192 ≤ bits v.toNat 0 8 → ∃ t, exec (.irqSwset who v) s = .next t ∧ Raised s t (bits v.toNat 0 8)) ∧
       ((bit v.toNat 31 = false ∨ bits v.toNat 0 8 < 192) → exec (.irqSwset who v) s = .next s)) ∧
     (s.on Reg.KPR_TMRk_run t0 = true → ∃ t, exec (.keeperTimer k timer) s = .next t ∧
       Raised ((s.setRg Reg.KPR_TMRk_run t0 0).setRg Reg.KPR_TMRk_count t0 0) t (1024 + 16 * k.val + timer.val)) ∧
     (s.on Reg.KPR_TMRk_run t0 = false → exec (.keeperTimer k timer) s = .next s) ∧
     (low = false → s.mode ≠ 5 → ∃ t, exec (.alertInput input true) s = .next t ∧
       SrcIs s t (130 + input.val) (afterEdge s (130 + input.val)) ∧ (if input.val = 0 then t.power.alert0 else t.power.alert1) = true ∧
       bit (t.rg Reg.AON_WAKE_cause) (3 + input.val) = true ∧
       RegsBut s t [fieldKey Reg.AON_WAKE_cause 0 0, fieldKey Reg.AON_WAKE_LAST_cause 0 0] ∧ t.clusters = s.clusters ∧ t.parts = s.parts) ∧
     (exec (.alertInput input false) s =
       .next { s with power := if input.val = 0 then { s.power with alert0 := false } else { s.power with alert1 := false } })) ∧
  (∀ (s : State) (who : Requester) (k : Fin 4) (n p : Nat) (v : Word),
     let r : Fin 5 := k.castSucc
     let x := s.src p
     let m := bits v.toNat 0 8
     let q := placeOf k.val m
     let y := s.src q
     let high := (m = 130 ∧ s.power.alert0 = true) ∨ (m = 131 ∧ s.power.alert1 = true)
     let z := s.src (2048 + s.rgw Reg.IRQ_SRC_SEL_source (copyOf who))
     (Readable s who (0x800010 + 4 * k.val) →
       (s.keeperOf who = some k.val → ringOf who ≤ 1 →
         (s.candidatesFor k.val = [] → exec (.irqClaim who r) s = .next (s.answer 0)) ∧
         (Wins s k.val n p → exec (.irqClaim who r) s =
           .next ((s.setSrc p { x with pending := false, count := 0, active := true, claimer := k.val, masking := false }).answer
             (2 ^ 31 + min 15 ((s.candidatesFor k.val).filter fun b => (s.src b.2).prio = x.prio ∧ b ≠ (n, p)).length * 2 ^ 12 +
               x.count * 2 ^ 8 + n)))) ∧
       (¬ (s.keeperOf who = some k.val ∧ ringOf who ≤ 1) → exec (.irqClaim who r) s = .next (s.answer 0))) ∧
     (Readable s .pf 0x800020 →
       (s.candidatesFor 5 = [] → exec (.irqClaim .pf 4) s = .next (s.answer 0)) ∧
       (Wins s 5 n p → ∃ t, exec (.irqClaim .pf 4) s = .next t ∧
         SrcIs s t p { x with pending := false, count := 0, active := true, claimer := 5, masking := false } ∧
         bits t.readData.toNat 0 12 = (x.count * 256 + n) % 4096 ∧ { t with irq := s.irq, readData := s.readData } = s)) ∧
     (Writable s who (0x800030 + 4 * k.val) → s.keeperOf who = some k.val →
       (y.active = true → y.claimer = k.val → ¬ high → ∃ t, exec (.irqComplete who r v) s = .next t ∧
         SrcIs s t q { y with active := false } ∧ IrqOnly s t) ∧
       (y.active = true → y.claimer = k.val → high → ∃ t, exec (.irqComplete who r v) s = .next t ∧
         SrcIs s t q { y with active := false, pending := true, count := max 1 y.count } ∧ IrqOnly s t) ∧
       (¬ (y.active = true ∧ y.claimer = k.val) → exec (.irqComplete who r v) s = .next (s.setRg Reg.IRQ_STAT_bad_complete 0 1))) ∧
     (Writable s who 0x800008 → s.rgw Reg.IRQ_SRC_SEL_scanned (copyOf who) = 1 → s.rgw Reg.IRQ_SRC_SEL_source (copyOf who) < 424 →
       let l := z.latch &&& ~~~(v.setWidth 8)
       exec (.irqScause who v) s = .next (s.setSrc (2048 + s.rgw Reg.IRQ_SRC_SEL_source (copyOf who))
         (if l = 0 then { z with latch := 0, pending := false, count := 0 } else { z with latch := l })))) ∧
  (∀ (s : State) (who : Requester) (v : Word),
     let k := copyOf who
     let n := s.rgw Reg.IRQ_SRC_SEL_source k
     let scanned := decide (s.rgw Reg.IRQ_SRC_SEL_scanned k = 1)
     let p := if scanned then 2048 + n else placeOf (s.rgw Reg.IRQ_SRC_SEL_keeper k) n
     let x := s.src p
     let en := bit v.toNat 11
     let target := bits v.toNat 8 3
     (Writable s who 0x800004 → (who = .pf ∨ s.isSystem who = true) → (scanned = true → n < 424) → (scanned = false → claimedSource n) →
       ∃ t, exec (.irqSrcCfg who v) s = .next t ∧
         SrcIs s t p { x with en := en, prio := if scanned then x.prio else bits v.toNat 0 4,
                              target := if target ≤ 5 ∧ (scanned = false ∨ target ≠ 5) ∧ (scanned = true ∨ 20 ≤ n) then target else x.target,
                              masking := if en then false else x.masking || x.en } ∧
         { t with irq := s.irq, msix := s.msix, hostOut := s.hostOut, keepers := s.keepers } = s) ∧
     (Writable s who 0x8000F8 →
       (s.on Reg.IRQ_PTGT_lock = true → exec (.irqPtgt who v) s = .next s) ∧
       (s.on Reg.IRQ_PTGT_lock = false → s.isKeeper0 who = true → ringOf who = 0 →
         ∃ t, exec (.irqPtgt who v) s = .next t ∧ { t with regs := s.regs, msix := s.msix, hostOut := s.hostOut } = s ∧
           (∀ f ∈ [Reg.IRQ_PTGT_fatal, Reg.IRQ_PTGT_tamper, Reg.IRQ_PTGT_thermal, Reg.IRQ_PTGT_lock_unit],
             t.rg f = if bits v.toNat f.lo 3 ≤ 5 then bits v.toNat f.lo 3 else s.rg f) ∧
           t.rg Reg.IRQ_PTGT_lock = bits v.toNat 31 1 ∧
           RegsBut s t ([Reg.IRQ_PTGT_fatal, Reg.IRQ_PTGT_tamper, Reg.IRQ_PTGT_thermal, Reg.IRQ_PTGT_lock_unit, Reg.IRQ_PTGT_lock].map
             fun f => fieldKey f 0 0))))

/-- Fault accounting. A leak takes one from every bucket above 0, unless the interval is 0. A read of the error log returns the oldest
entry, latches its address and removes it. TST_FLIP arms one flip with its mask outside Deployed, and a flip that is armed keeps its mask. A
dredger pass counts itself and its errors, one that ends after the next was due is late, and over memories without an error it changes
nothing else; a bad route entry is written from its copy, a bad cell of a free staging or sluice buffer is zeroed. The record of an uncorrectable error has the layout of R577; the first of a record is kept until the next commit, and one that
recurs and names neither a cluster nor a page suspends the partition and posts fault type 4 with it (R323 to R326, R345, R346, R532, R577).
That the next pass starts as the last ends is the model's choice (log entry 53). -/
def Obligations.FaultAccounting : Prop :=
  ∀ (s : State) (who : Requester) (v : Word) (d : Fin 4096) (cell : Fin 2) (e : Trouble) (p unit reg num : Nat),
    let period := max 1 (s.rg Reg.TST_DREDGE_CTRL_period) * 1000000
    let seen := (s.part p).errSeen
    let record := s.recordNow p unit reg num
    (s.rg Reg.TST_BKT_CTRL_leak = 0 → exec .leak s = .next s) ∧
    (s.rg Reg.TST_BKT_CTRL_leak ≠ 0 → ∃ t, exec .leak s = .next t ∧ { t with tst := s.tst } = s ∧
      { t.tst with buckets := s.tst.buckets } = s.tst ∧ ∀ c < 16, ∀ i < 512, t.bucket c i = s.bucket c i - 1) ∧
    (Readable s who 0x600018 →
      (s.tst.elog = [] → exec (.tstElogA who) s = .next (s.answer 0)) ∧
      (∀ e ∈ s.tst.elog.head?,
        exec (.tstElogA who) s = .next ((({ s with tst := { s.tst with elog := s.tst.elog.tail } } : State).setRg Reg.TST_ELOG_STAT_entries 0
          s.tst.elog.tail.length).setRg Reg.TST_ELOG_B_address 0 e.addr |>.answer
            (2 ^ 31 + (if e.uc then 2 ^ 30 else 0) + e.source % 4 * 2 ^ 28 + e.cls % 16 * 2 ^ 24 + e.inst % 512 * 2 ^ 15)))) ∧
    (Writable s who 0x600004 →
      (s.rg Reg.SEC_LC_state = 2 → exec (.tstFlip who v) s = .next s) ∧
      (s.rg Reg.SEC_LC_state ≠ 2 → ∃ t, exec (.tstFlip who v) s = .next t ∧ { t with regs := s.regs, tst := s.tst } = s ∧
        t.rg Reg.TST_FLIP_arm = bits v.toNat 31 1 ∧
        t.rg Reg.TST_FLIP_mask = (if s.on Reg.TST_FLIP_arm then s.rg Reg.TST_FLIP_mask else bits v.toNat 0 13) ∧
        t.rg Reg.TST_FLIP_fired = (if bit v.toNat 30 then 0 else s.rg Reg.TST_FLIP_fired) ∧
        RegsBut s t [fieldKey Reg.TST_FLIP_arm 0 0, fieldKey Reg.TST_FLIP_mask 0 0, fieldKey Reg.TST_FLIP_fired 0 0])) ∧
    (s.on Reg.TST_DREDGE_CTRL_en = false → exec .dredgePass s = .next s) ∧
    (s.on Reg.TST_DREDGE_CTRL_en = true → (∀ r < 24, s.powered r = false ∨ (s.rch r).retired = true) → s.powered 32 = false →
      (∀ e ∈ s.routes, parityOk e.2 = true) → (∀ e ∈ s.buffers9, parityOk e.2 = true) → s.spnBad = [] →
      ∃ t, exec .dredgePass s = .next t ∧ { t with regs := s.regs, tst := { t.tst with passDue := s.tst.passDue } } = s ∧
        t.tst.passDue = max s.power.time s.tst.passDue + period ∧
        t.rg Reg.TST_DREDGE_STAT_passes = satAdd (2 ^ Reg.TST_DREDGE_STAT_passes.width - 1) (s.rg Reg.TST_DREDGE_STAT_passes) 1 ∧
        t.rg Reg.TST_DREDGE_STAT_errors = satAdd (2 ^ Reg.TST_DREDGE_STAT_errors.width - 1) (s.rg Reg.TST_DREDGE_STAT_errors) 0 ∧
        t.rg Reg.TST_DREDGE_STAT_late = (if s.tst.passDue < s.power.time then 1 else s.rg Reg.TST_DREDGE_STAT_late) ∧
        RegsBut s t [fieldKey Reg.TST_DREDGE_STAT_passes 0 0, fieldKey Reg.TST_DREDGE_STAT_errors 0 0,
          fieldKey Reg.TST_DREDGE_STAT_late 0 0]) ∧
    (bits record 0 10 = (s.part p).step % 2 ^ 10 ∧ bits record 10 20 = s.dcycle p % 2 ^ 20 ∧ bits record 30 3 = 0 ∧
      bits record 33 23 = unit % 2 ^ 23 ∧ bits record 56 4 = num % 16 ∧ bits record 60 4 = reg % 16) ∧
    (e.record ∉ seen →
      PartIs s (s.recur p e) p { s.part p with errSeen := seen ++ [e.record] } ∧ { s.recur p e with parts := s.parts } = s) ∧
    (e.record ∈ seen → e.page = false → e.cluster = none →
      FaultPosted (s.suspendShare p) (s.recur p e) p 4 1 e.record 0) ∧
    (∀ c ∈ e.cluster, e.record ∈ seen → e.page = false → s.spareFor (c / 17) = none → s.hasStandby (c / 17) = true →
      (c ∉ (s.part p).deferred → FaultPosted s (s.recur p e) p 5 1 e.record 0 ∧ c ∈ ((s.recur p e).part p).deferred ∧
        PartsBut s (s.recur p e) [p]) ∧
      (c ∈ (s.part p).deferred → FaultPosted (s.suspendShare p) (s.recur p e) p 4 1 e.record 0)) ∧
    (s.on Reg.TST_DREDGE_CTRL_en = true → (∀ r < 24, s.powered r = false) → s.powered 32 = false → s.spnBad = [] →
      (∀ e ∈ s.buffers9, parityOk e.2 = true) → (s.routes.filter fun e => !parityOk e.2).map (·.1) = [2 * d.val + cell.val] → s.bucket 10 0 + 1 < s.threshold 10 →
      s.on Reg.TST_FLIP_arm = false → Mem.get s.routesCopy (2 * d.val + 1 - cell.val) = cellOf (Mem.get s.routes (2 * d.val + 1 - cell.val)) →
      ∃ t, exec .dredgePass s = .next t ∧ t.bucket 10 0 = s.bucket 10 0 + 1 ∧
        StoredAt s.routes t.routes (2 * d.val + cell.val) (store (Mem.get s.routesCopy (2 * d.val + cell.val))) ∧
        t.rg Reg.TST_DREDGE_STAT_errors = satAdd (2 ^ Reg.TST_DREDGE_STAT_errors.width - 1) (s.rg Reg.TST_DREDGE_STAT_errors) 1 ∧
        t.clusters = s.clusters ∧ t.reaches = s.reaches ∧ t.parts = s.parts) ∧
    (s.on Reg.TST_DREDGE_CTRL_en = true → (∀ r < 24, s.powered r = false) → s.powered 32 = false → s.spnBad = [] →
      (∀ e ∈ s.routes, parityOk e.2 = true) → (s.buffers9.filter fun e => !parityOk e.2).map (·.1) = [unit] →
      s.bucket 9 0 + 1 < s.threshold 9 → s.on Reg.TST_FLIP_arm = false →
      ∃ t, exec .dredgePass s = .next t ∧ t.bucket 9 0 = s.bucket 9 0 + 1 ∧ StoredAt s.buffers9 t.buffers9 unit (store 0) ∧
        t.rg Reg.TST_DREDGE_STAT_errors = satAdd (2 ^ Reg.TST_DREDGE_STAT_errors.width - 1) (s.rg Reg.TST_DREDGE_STAT_errors) 1 ∧
        t.clusters = s.clusters ∧ t.reaches = s.reaches ∧ t.parts = s.parts)

/-- Keeper registers. A change of run resets the keeper; keeper 0 itself turns its ROM fetch off. A table cell is stored by the keeper from
a ring that may, by the PF while the keeper is held, and read back, with the address stepping on; another write is rejected. Hooks: an
answer's ranges wait, and with the last answer the records of them all are segment K; one out of range, too large or too late is a capture
failure or an unusable target (R376, R379, R381, R391, R392,
R514). -/
def Obligations.KeeperRegisters : Prop :=
  ∀ (s : State) (who : Requester) (v : Word) (k : Fin 4) (t : Nat),
    let j := copyOf who
    let sel := s.rgw Reg.KPR_SEL_keeper j
    let n := s.rgw Reg.KPR_TBL_ADDR_table j
    let i := s.rgw Reg.KPR_TBL_ADDR_index j
    let c := s.rgw Reg.KPR_TBL_ADDR_cell j
    let inc := s.rgw Reg.KPR_TBL_ADDR_autoinc j = 1
    let at_ := 4096 * n + 8 * i + c
    let keys := [fieldKey Reg.KPR_TBL_ADDR_cell 0 j, fieldKey Reg.KPR_TBL_ADDR_index 0 j]
    let wrap := c + 1 = (tableShape n).2
    let step := fun (u : State) => u.rgw Reg.KPR_TBL_ADDR_cell j = (if inc then (if wrap then 0 else c + 1) else c) ∧
      u.rgw Reg.KPR_TBL_ADDR_index j = (if inc ∧ wrap then (i + 1) % 2 ^ Reg.KPR_TBL_ADDR_index.width else i)
    let on := s.on Reg.KPR_HOOK_pending k.val
    let restore := s.on Reg.KPR_HOOK_restore k.val
    let x := s.part t
    let fits := fun (l : List (Nat × Nat)) =>
      ((x.hookLists ++ [(k.val, l)]).flatMap fun e => e.2.map fun r => (8 + 2 * r.2 + 7) / 8 * 8).sum ≤ 16384
    (Writable s who 0x700004 → sel < 4 → (who = .pf ∨ s.isSystem who = true) → bit v.toNat 0 ≠ s.on Reg.KPR_CTRL_run sel → s.system ≠ sel →
      (sel = 0 → s.keeperOf who = some s.system → bit v.toNat 3 = true) →
      ∃ u, exec (.kprCtrlRun who v) s = .next u ∧ KeeperReset s u sel (bit v.toNat 0) ∧
        u.rg Reg.KPR_CTRL_pred_off sel = bits v.toNat 1 1 ∧ u.rg Reg.KPR_CTRL_pred_flush_on_gate sel = bits v.toNat 2 1) ∧
    (s.keeperOf who = some s.system → ringOf who = 0 → Writable s who 0x700004 → sel = 0 → bit v.toNat 0 = s.on Reg.KPR_CTRL_run 0 →
      bit v.toNat 3 = false →
      exec (.romFetchOff who v) s = .next (((s.setRg Reg.KPR_CTRL_pred_off 0 (bits v.toNat 1 1)).setRg Reg.KPR_CTRL_pred_flush_on_gate 0
        (bits v.toNat 2 1)).setRg Reg.KPR_CTRL_rom_fetch 0 0)) ∧
    (i < (tableShape n).1 → c < (tableShape n).2 → ¬ (n = 5 ∧ i = 0) →
      (Writable s who 0x700038 → s.tblOpen who sel n i c = true → s.on Reg.TST_FLIP_arm = false →
        ∃ u, exec (.kprTblData who (some v)) s = .next u ∧ { u with regs := s.regs, keepers := s.keepers } = s ∧
          StoredAt (s.kpr sel).tbl (u.kpr sel).tbl at_
            (BitVec.ofNat 14 ((store (v.setWidth 12)).toNat + if (s.kpr sel).image then 2 ^ 13 else 0)) ∧ u.kpr sel = { s.kpr sel with tbl := (u.kpr sel).tbl, tblCopy := (u.kpr sel).tblCopy } ∧
          step u ∧ RegsBut s u keys) ∧
      (Writable s who 0x700038 → s.kprWriter who = true → s.tblOpen who sel n i c = false →
        exec (.kprTblData who (some v)) s = .next (s.setRgw Reg.KPR_TBL_ADDR_rejected j 0 1)) ∧
      (Writable s who 0x700038 → s.kprWriter who = false → ∃ u, exec (.kprTblData who (some v)) s = .next u ∧
        u.rgw Reg.KPR_TBL_ADDR_rejected j = 1 ∧ u.rgw Reg.WHF_ACCERR_valid j = 1 ∧ { u with regs := s.regs } = s ∧
        (s.rgw Reg.WHF_ACCERR_valid j = 0 → u.rgw Reg.WHF_ACCERR_reason j = 2)) ∧
      (Readable s who 0x700038 → (s.kpr sel).tblSound at_ = true →
        ∃ u, exec (.kprTblData who none) s = .next u ∧ { u with regs := s.regs, readData := s.readData } = s ∧
          u.readData.toNat = (s.tblCell sel at_).toNat ∧ step u ∧
          RegsBut s u (fieldKey Reg.KPR_TBL_DATA_par_err sel 0 :: keys))) ∧
    (on = false → exec (.hookTimeout k) s = .next s) ∧
    (s.rg Reg.KPR_HOOK_tenant k.val = t → on = true → x.hooksOpen.filter (· ≠ k.val) ≠ [] →
      (∀ p < 16, p ≠ t → (s.part p).hooksOpen = []) → (∀ q < 4, q ≠ k.val → s.on Reg.KPR_HOOK_pending q = true) →
      (restore = false → ∃ u, exec (.hookTimeout k) s = .next u ∧ u.on Reg.LCK_CAUSEt_capture_fail t = true ∧
        u.on Reg.KPR_HOOK_pending k.val = false ∧
        PartIs s u t { x with captureFail := true, hooksOpen := x.hooksOpen.filter (· ≠ k.val) } ∧ u.clusters = s.clusters) ∧
      (restore = true → ∃ u, exec (.hookTimeout k) s = .next u ∧ u.on Reg.KPR_HOOK_pending k.val = false ∧
        PartIs s u t { x with restoreFlags := Nat.lor x.restoreFlags 4, hooksOpen := x.hooksOpen.filter (· ≠ k.val) }) ∧
      (Writable s who 0x70001C → sel = k.val → bit v.toNat 31 = true →
        (restore = true → ∃ u, exec (.kprHookDone who v) s = .next u ∧ u.on Reg.KPR_HOOK_pending k.val = false ∧
          PartIs s u t { x with hooksOpen := x.hooksOpen.filter (· ≠ k.val) }) ∧
        (∀ l ∈ (s.kpr k.val).ranges 64 (bits v.toNat 0 16), restore = false → fits l →
          ∃ u, exec (.kprHookDone who v) s = .next u ∧ u.on Reg.KPR_HOOK_pending k.val = false ∧
            PartIs s u t { x with hookLists := x.hookLists ++ [(k.val, l)], hooksOpen := x.hooksOpen.filter (· ≠ k.val) }) ∧
        (((s.kpr k.val).ranges 64 (bits v.toNat 0 16) = none ∨ ∃ l ∈ (s.kpr k.val).ranges 64 (bits v.toNat 0 16), ¬ fits l) →
          restore = false →
          ∃ u, exec (.kprHookDone who v) s = .next u ∧ u.on Reg.LCK_CAUSEt_capture_fail t = true ∧
            PartIs s u t { x with captureFail := true, hooksOpen := x.hooksOpen.filter (· ≠ k.val) }))) ∧
    (s.rg Reg.KPR_HOOK_tenant k.val = t → on = true → restore = false → x.hooksOpen = [k.val] → s.rg Reg.LCK_STATUSt_phase t = 2 →
      x.captured = true → x.ready = false → x.failsK = 0 → x.arrived = [] → s.children t ≠ [] →
      (∀ d ∈ s.children t, (s.route d).isSome = true) → Writable s who 0x70001C → sel = k.val → bit v.toNat 31 = true →
      ∀ l ∈ (s.kpr k.val).ranges 64 (bits v.toNat 0 16), fits l →
        ∃ u, exec (.kprHookDone who v) s = .next u ∧ (u.part t).ready = true ∧ (u.part t).hookLists = [] ∧
          ((u.part t).ckpts.getLast?).map (fun c => (c.lock, c.segK)) = some (s.lockNo t, (List.range 4).flatMap fun q =>
            ((x.hookLists ++ [(k.val, l)]).filter fun e => e.1 = q).flatMap fun e => (s.kpr q).recordsK q e.2))

/-- Queues. WHF_QCFG sizes and enables the kind that WHF_QSEL shows; a submission entry is read in order, one at a time, its CRC and opcode
checked, and a base that cannot be read posts fault 7, detail 1; a held entry of a device queue is written once there is room; changed input counts go to the port status block; MSI-X messages
coalesce, and a pending one goes when it is unmasked (R424 to R429, R435, R443, R444, R453, R454). Doorbells. In the modes that take
commands a head takes its index; a tail raises its source, and on a disabled queue posts fault 7, detail 0; elsewhere they are discarded.
WHF_TSTAT reads its fields and clears log_skipped (R397, R440, R442, R443, R454, R505). -/
def Obligations.HostQueuesAndDoorbells : Prop :=
  (∀ (s : State) (fn : Fin 16) (v : Word) (e : BitVec 512) (kind : BitVec 3) (vector : BitVec 4),
     let f := fn.val
     let there := FnServed s f ∧ LinkUp s
     let p := replyOf s 0
     let answers := TakesCommands s ∨ s.rg Reg.PWR_MODE_mode 0 = 3
     let served := there ∧ answers
     let k := s.rg Reg.WHF_QSEL_kind f
     let q := 8 * f + k
     let n := v.toNat % 16
     let on := s.on Reg.WHF_QCFG_enable q
     let legal := k < 7 ∧ (k = 6 ∨ (4 ≤ n ∧ n ≤ 12 ∧ (on = true → n = s.rg Reg.WHF_QCFG_size_log2 q)))
     let keys := [fieldKey Reg.WHF_QCFG_enable q 0, fieldKey Reg.WHF_QCFG_size_log2 q 0]
     let sq := 8 * f
     let i := s.rg Reg.WHF_QCFG_dptr sq
     let ready := TakesCommands s ∧ s.on Reg.WHF_QCFG_enable sq = true ∧ i ≠ s.rg Reg.WHF_SQ_TAIL_index f % s.qlen sq ∧
       (s.fn f).d3hot = false ∧ s.fetched.get f [] = [] ∧ (s.part f).openCmds = []
     let y := s.queue sq
     let taken := (s.setRg Reg.WHF_QCFG_dptr sq ((i + 1) % s.qlen sq)).setQueue sq { y with ordinal := (y.ordinal + 1) % 4096 }
     let good := crcAlive y.ordinal ((leBytes 64 e.toNat).take 60) = e.toNat / 2 ^ 480
     let opcode := e.toNat % 2 ^ 16
     let id := BitVec.ofNat 16 (e.toNat / 2 ^ 16)
     let dq := 8 * f + kind.toNat
     let z := s.queue dq
     let x := s.part f
     let psb := s.on Reg.WHF_QCFG_enable (8 * f + 6) = true ∧ (s.fn f).d3hot = false
     let m := s.msix.get (16 * f + vector.toNat) {}
     (there → ¬ answers → exec (.whfQcfg fn v) s = .next p) ∧
     (served → ¬ legal → exec (.whfQcfg fn v) s = .next p) ∧
     (served → legal → bit v.toNat 15 = true → on = false → ∃ u, exec (.whfQcfg fn v) s = .next u ∧
       u.rg Reg.WHF_QCFG_size_log2 q = n ∧ u.on Reg.WHF_QCFG_enable q = true ∧ u.rg Reg.WHF_QCFG_dptr q = 0 ∧
       (∀ d ∈ doorbells[k]?, u.rg d f = 0) ∧ QueueIs s u q { s.queue q with ordinal := 0, phase := true } ∧
       RegsBut s u (fieldKey Reg.WHF_QCFG_dptr q 0 :: keys ++ (doorbells[k]?.map fun d => fieldKey d f 0).toList) ∧
       { u with regs := s.regs, queues := s.queues } = p) ∧
     (served → legal → bit v.toNat 15 = true → on = true → ∃ u, exec (.whfQcfg fn v) s = .next u ∧
       u.rg Reg.WHF_QCFG_size_log2 q = n ∧ u.on Reg.WHF_QCFG_enable q = true ∧ RegsBut s u keys ∧ { u with regs := s.regs } = p) ∧
     (served → legal → bit v.toNat 15 = false → ∃ u, exec (.whfQcfg fn v) s = .next u ∧
       u.rg Reg.WHF_QCFG_size_log2 q = n ∧ u.on Reg.WHF_QCFG_enable q = false ∧ QueueIs s u q { s.queue q with bound := false } ∧
       RegsBut s u keys ∧ { u with regs := s.regs, queues := s.queues } = p) ∧
     (¬ ready → exec (.submissionEntry fn (some e)) s = .next s ∧ exec (.submissionEntry fn none) s = .next s) ∧
     (ready → ∃ u, exec (.submissionEntry fn none) s = .next u ∧ FaultPosted s u f 7 1 0 1 ∧ u.fetched = s.fetched ∧ u.parts = s.parts ∧
       u.rg Reg.WHF_QCFG_dptr (8 * f) = s.rg Reg.WHF_QCFG_dptr (8 * f)) ∧
     (ready → good → 1 ≤ opcode → opcode ≤ 11 →
       exec (.submissionEntry fn (some e)) s = .next { taken with fetched := s.fetched.put f [e] }) ∧
     (ready → good → ¬ (1 ≤ opcode ∧ opcode ≤ 11) →
       ∃ u, exec (.submissionEntry fn (some e)) s = .next u ∧ Completes taken u f id 0x16 0) ∧
     (ready → ¬ good → ∃ u, exec (.submissionEntry fn (some e)) s = .next u ∧ FaultPosted s u f 7 1 0 2 ∧
       CompletionPosted taken u f (completionBytes taken f id.toNat 0x20 0 0 0 0) ∧ u.fetched = s.fetched ∧ u.parts = s.parts) ∧
     (kind.toNat = 0 ∨ 3 < kind.toNat ∨ s.qopen f kind.toNat = false → exec (.queueEntryWrite fn kind) s = .next s) ∧
     (kind = 1 ∨ kind = 3 → z.held = [] → exec (.queueEntryWrite fn kind) s = .next s) ∧
     (kind = 2 → s.faults.get f [] = [] → exec (.queueEntryWrite fn kind) s = .next s) ∧
     (∀ a ∈ z.held.head?, s.qopen f kind.toNat = true →
       (kind = 1 → ∃ u, exec (.queueEntryWrite fn kind) s = .next u ∧ Written (s.setQueue dq { z with held := z.held.tail }) u f 1 7 a.bytes) ∧
       (kind = 3 → x.openCmds = [] → x.atLock = false →
         ∃ u, exec (.queueEntryWrite fn kind) s = .next u ∧ Written (s.setQueue dq { z with held := z.held.tail }) u f 3 0x0B a.bytes)) ∧
     (∀ a ∈ (s.faults.get f []).head?, kind = 2 → s.qopen f 2 = true → ∃ u, exec (.queueEntryWrite fn kind) s = .next u ∧
       Written { s with faults := s.faults.put f (s.faults.get f []).tail } u f 2 0x1B (faultBytes s f a.type a.count a.record a.detail)) ∧
     (¬ psb → exec (.psbUpdate fn) s = .next s) ∧
     (psb → ∃ u, exec (.psbUpdate fn) s = .next u ∧
       u.hostOut = s.hostOut ++ (x.inputs.filter fun p => p.2.dirty).map (fun p =>
         ⟨s.qbase (8 * f + 6) + 4 * p.1, leBytes 4 p.2.consumed, false⟩) ∧
       PartIs s u f { x with inputs := x.inputs.map fun p => (p.1, { p.2 with dirty := false }) } ∧
       { u with hostOut := s.hostOut, parts := s.parts } = s) ∧
     (m.batch = false → exec (.msixCoalesce fn vector) s = .next s) ∧
     (m.batch = true → ∃ u, exec (.msixCoalesce fn vector) s = .next u ∧ u.hostOut = s.hostOut ++ messages s f vector.toNat ∧
       u.msix.get (16 * f + vector.toNat) {} = { m with batch := false, pending := m.masked || (s.fn f).d3hot } ∧
       { u with hostOut := s.hostOut, msix := s.msix } = s) ∧
     (there → ¬ (answers ∧ vector.toNat < (if f = 0 then 16 else 4)) → exec (.msixUnmask fn vector) s = .next p) ∧
     (served → vector.toNat < (if f = 0 then 16 else 4) → ∃ u, exec (.msixUnmask fn vector) s = .next u ∧
       u.hostOut = s.hostOut ++ (if m.pending = true then [⟨m.addr, leBytes 4 m.data, false⟩] else []) ∧
       u.msix.get (16 * f + vector.toNat) {} = { m with masked := false, pending := false } ∧
       { u with hostOut := s.hostOut, msix := s.msix } = p) ∧
     (¬ FnServed s f → LinkUp s → (∀ c, PageWrite fn v vector c → exec c s = .next (unsupportedBy s f)) ∧
       exec (.whfTstat fn) s = .next ((unsupportedBy s f).answer 0xFFFFFFFF)) ∧
     (¬ LinkUp s → ∃ u, exec .l1Exit s = .next u ∧ LinkUp u ∧
       (∀ c, PageWrite fn v vector c → exec c s = exec c u) ∧ exec (.whfTstat fn) s = exec (.whfTstat fn) u)) ∧
  (∀ (s : State) (fn : Fin 16) (v : Word),
     let i := v.toNat % 4096
     let f := fn.val
     let keys := [fieldKey Reg.WHF_SQ_TAIL_index f 0, fieldKey Reg.WHF_TSTAT_qerr f 0, fieldKey Reg.WHF_TSTAT_fq_merged f 0,
       fieldKey Reg.WHF_QCFG_dptr (8 * f + 2) 0]
     let there := FnServed s f ∧ LinkUp s
     let p := replyOf s 0
     (there → TakesCommands s →
       exec (.whfCqHead fn v) s = .next (p.setRg Reg.WHF_CQ_HEAD_index f i) ∧
       exec (.whfFqHead fn v) s = .next (p.setRg Reg.WHF_FQ_HEAD_index f i) ∧
       exec (.whfOqHead fn v) s = .next (p.setRg Reg.WHF_OQ_HEAD_index f i) ∧
       exec (.whfAreaHead fn v) s =
         .next ((p.setRg Reg.WHF_AREA_HEAD_export f i).setRg Reg.WHF_AREA_HEAD_log f (v.toNat / 2 ^ 16 % 4096)) ∧
       (s.on Reg.WHF_QCFG_enable (8 * f) = true →
         ∃ u, exec (.whfSqTail fn v) s = .next u ∧ Raised (p.setRg Reg.WHF_SQ_TAIL_index f i) u (96 + f)) ∧
       (s.on Reg.WHF_QCFG_enable (8 * f) = false →
         ∃ u, exec (.whfSqTail fn v) s = .next u ∧ u.rg Reg.WHF_SQ_TAIL_index f = i ∧ u.src (96 + f) = afterEdge s (96 + f) ∧
           FaultPosted (s.edge (96 + f)) u f 7 1 0 0 ∧ RegsBut s u keys ∧ SrcsBut s u [96 + f, 112 + f] ∧
           { u with regs := s.regs, queues := s.queues, hostOut := s.hostOut, msix := s.msix, irq := s.irq, faults := s.faults } = p)) ∧
     (there → ¬ TakesCommands s →
       exec (.whfCqHead fn v) s = .next p ∧ exec (.whfFqHead fn v) s = .next p ∧ exec (.whfOqHead fn v) s = .next p ∧
       exec (.whfAreaHead fn v) s = .next p ∧ exec (.whfSqTail fn v) s = .next p) ∧
     (there → (TakesCommands s ∨ s.rg Reg.PWR_MODE_mode 0 = 3) →
       exec (.whfTstat fn) s = .next ((p.setRg Reg.WHF_TSTAT_log_skipped f 0).answer
         (s.rg Reg.WHF_TSTAT_mode f * 2 ^ 28 + s.rg Reg.WHF_TSTAT_load_status f * 2 ^ 16 + s.rg Reg.WHF_TSTAT_fq_merged f * 2 ^ 9 +
           s.rg Reg.WHF_TSTAT_qerr f * 2 ^ 8 + s.rg Reg.WHF_TSTAT_log_skipped f))) ∧
     (there → ¬ (TakesCommands s ∨ s.rg Reg.PWR_MODE_mode 0 = 3) → exec (.whfTstat fn) s = .next (p.answer 0xFFFFFFFF)))

/-- A command given in a mode that does not accept it completes with status 0x10; one given while another is in execution, or in Bring-up,
Sanitize or Standby, or which is not what the entry read for the tenant says, waits, and so does one that reads host memory while its
function is in D3hot (R428 to R430, R453, R505). -/
def Obligations.CommandsRefusedByMode : Prop :=
  ∀ (s : State) (c : Instr) (k : Submitted), submitted c = some k →
    let t := k.tenant.val
    let named := EntrySays s t k.cmd k.opcode k.ops
    ((s.part t).openCmds ≠ [] → exec c s = .next s) ∧
    (¬ TakesCommands s → s.rg Reg.PWR_MODE_mode 0 ≠ 3 → exec c s = .next s) ∧
    (¬ named → exec c s = .next s) ∧
    (k.reads = true → (s.fn t).d3hot = true → exec c s = .next s) ∧
    ((s.part t).openCmds = [] → named → (k.reads = true → (s.fn t).d3hot = false) →
      (s.rg Reg.PWR_MODE_mode 0 = 3 ∨ (TakesCommands s ∧ s.rg Reg.WHF_TSTAT_mode t ∉ k.modes)) →
      ∃ u, exec c s = .next u ∧ Completes (begunCmd s t) u t k.cmd 0x10 0)

/-- HOLD, RUN, STEP and the stops: STOP and GO by id on every device of the tree, each id once; Held is entered at a step or design-cycle
boundary, left by any GO; the kind-4 notice is posted once the partition has stopped. WHF_STOP of the PF may stop every partition (R430,
R445 to R447, R449, R495, R508, R510). -/
def Obligations.HoldRunStepStop : Prop :=
  ∀ (s : State) (fn t : Fin 16) (cmd : BitVec 16) (op0 v : Word) (sender id : Cell) (boundary : Bool),
    let x := s.part t.val
    let own := 0xF00 + x.nextId % 256
    let begun := begunCmd s t.val
    let drawn := begun.setPart t.val { x with nextId := (x.nextId + 1) % 256, openCmds := [⟨cmd.toNat, 3, own⟩] }
    let released := begun.setPart t.val { x with nextId := (x.nextId + 1) % 256, openCmds := [] }
    let mode := s.rg Reg.WHF_TSTAT_mode t.val
    let go := v.toNat / 2 ^ 31 = 1
    let vb := bit v.toNat 12
    let vid := v.toNat % 4096
    let y := s.part fn.val
    let vmode := s.rg Reg.WHF_TSTAT_mode fn.val
    (Accepted s t.val cmd 3 [] [2, 4] → own ∉ x.stopIds → own ∉ x.goIds → ∃ u, exec (.hold t cmd) s = .next u ∧
      StopTaken s u t.val own true x ∧ StopForwarded s u t.val own true none ∧ (u.part t.val).nextId = (x.nextId + 1) % 256 ∧
      (AtBoundary s t.val (x.holdReq != some false) →
        (u.part t.val).openCmds = [] ∧ CompletionPosted drawn u t.val (completionBytes begun t.val cmd.toNat 0 0 own 0 0)) ∧
      (¬ AtBoundary s t.val (x.holdReq != some false) → (u.part t.val).openCmds = [⟨cmd.toNat, 3, own⟩])) ∧
    (Accepted s t.val cmd 4 [] [3, 4] → own ∉ x.goIds → ∃ u, exec (.run t cmd) s = .next u ∧ Released s u t.val ∧
      (u.part t.val).goIds = (own :: x.goIds).take 16 ∧ (u.part t.val).openCmds = [] ∧
      CompletionPosted released u t.val (completionBytes begun t.val cmd.toNat 0 0 own 0 0) ∧
      (∀ d ∈ s.neighbours t.val, s.neighbours t.val = [d] → MessageSent s u t.val d 0x021 [own])) ∧
    (Accepted s t.val cmd 5 [(0x18, 4, op0.toNat)] [3] → (op0.toNat = 0 ∨ 65535 < op0.toNat) →
      ∃ u, exec (.step t cmd op0) s = .next u ∧ Completes begun u t.val cmd 0x16 0) ∧
    (Accepted s t.val cmd 5 [(0x18, 4, op0.toNat)] [3] → 1 ≤ op0.toNat → op0.toNat ≤ 65535 → ∃ u, exec (.step t cmd op0) s = .next u ∧
      u.rg Reg.WHF_TSTAT_mode t.val = 4 ∧ u.on Reg.WHF_STOP_STAT_stopped t.val = false ∧
      PartIs s u t.val { x with stepLeft := op0.toNat, holdReq := none } ∧
      CompletionPosted begun u t.val (completionBytes begun t.val cmd.toNat 0 0 0 0 0) ∧
      u.clusters = s.clusters ∧ u.links = s.links) ∧
    (mode = 0 → exec (.stop t sender id boundary) s = .next s ∧ exec (.go t sender id) s = .next s) ∧
    (mode ≠ 0 → mode ≠ 7 → id.toNat ∉ x.stopIds → id.toNat ∉ x.goIds → ∃ u, exec (.stop t sender id boundary) s = .next u ∧
      StopTaken s u t.val id.toNat boundary x ∧ StopForwarded s u t.val id.toNat boundary (some sender.toNat)) ∧
    (mode = 7 → id.toNat ∉ x.stopIds → id.toNat ∉ x.goIds → x.holdReq = none → ∃ u, exec (.stop t sender id boundary) s = .next u ∧
      PartIs s u t.val { x with stopIds := (id.toNat :: x.stopIds).take 16 } ∧ u.regs = s.regs ∧
      StopForwarded s u t.val id.toNat boundary (some sender.toNat)) ∧
    (mode ≠ 0 → (id.toNat ∈ x.stopIds ∨ id.toNat ∈ x.goIds) → x.holdReq = none → exec (.stop t sender id boundary) s = .next s) ∧
    (mode ≠ 0 → mode ≠ 7 → id.toNat ∉ x.goIds → ∃ u, exec (.go t sender id) s = .next u ∧ Released s u t.val ∧
      (u.part t.val).goIds = (id.toNat :: x.goIds).take 16) ∧
    (mode ≠ 0 → id.toNat ∈ x.goIds → exec (.go t sender id) s = .next s) ∧
    (FnServed s fn.val → LinkUp s → (TakesCommands s ∨ s.rg Reg.PWR_MODE_mode 0 = 3) →
      (¬ go → exec (.whfStop fn v) s = .next (replyOf s 0)) ∧
      (go → (fn.val ≠ 0 ∨ bit v.toNat 16 = false) → vmode ≠ 0 → vmode ≠ 7 → vid ∉ y.stopIds → vid ∉ y.goIds →
        ∃ u, exec (.whfStop fn v) s = .next u ∧ StopTaken s u fn.val vid vb y ∧ StopForwarded s u fn.val vid vb none) ∧
      (go → fn.val = 0 → bit v.toNat 16 = true → (∀ a < 16, s.neighbours a = []) → mode ≠ 0 → mode ≠ 7 → vid ∉ x.stopIds → vid ∉ x.goIds →
        ∃ u, exec (.whfStop fn v) s = .next u ∧ (u.part t.val).stopOwed = some vid ∧ u.rg Reg.WHF_STOP_STAT_id t.val = vid ∧
          (u.part t.val).stopIds = (vid :: x.stopIds).take 16)) ∧
    (x.stopOwed = none → x.holdReq = none → exec (.stopReached t) s = .next s) ∧
    (∀ n ∈ x.stopOwed, x.holdReq = none → (mode ≠ 3 → exec (.stopReached t) s = .next s) ∧
      (mode = 3 → ∃ u, exec (.stopReached t) s = .next u ∧
        Queued (s.setPart t.val { x with stopOwed := none }) u t.val 1 7 (completionBytes s t.val 0xFFFF 0 4 n
          (s.rg Reg.LCK_POUNDt_pound t.val % 2 ^ 24 + s.rg Reg.LCK_STATUSt_dcycle t.val * 2 ^ 24 + x.step * 2 ^ 44) 0)))

/-- START and UNLOAD. START takes the start checkpoint and flies the start lock: a partition of one device commits at once and is in Run, or
Held where a stop was recorded; a leaf sends ARRIVE and stays open. UNLOAD removes the partition once every committed output has gone (R268,
R290, R430, R432, R447). -/
def Obligations.StartAndUnload : Prop :=
  ∀ (s : State) (t : Fin 16) (cmd : BitVec 16) (d : Nat),
    let x := s.part t.val
    let begun := begunCmd s t.val
    (Accepted s t.val cmd 2 [] [1] → StartClean s t.val → Alone s t.val → ∃ u, exec (.start t cmd) s = .next u ∧
      u.rg Reg.LCK_CKPTt_newest t.val = x.startLock ∧ u.rg Reg.LCK_POUNDt_pound t.val = (x.startLock + 1) % 2 ^ 24 ∧
      u.rg Reg.LCK_STATUSt_dcycle t.val = 0 ∧ u.rg Reg.LCK_STATUSt_phase t.val = 1 ∧
      (u.part t.val).ckpts.any (fun k => k.lock = x.startLock ∧ k.committed ∧ k.start ∧ k.segC = s.captureC t.val) = true ∧
      (u.part t.val).openCmds = [] ∧ (u.part t.val).starting = false ∧ u.on Reg.LCK_CAUSEt_committed t.val = true ∧
      u.rg Reg.WHF_TSTAT_mode t.val =
        (if x.holdReq = none ∨ ∃ c ∈ s.clustersOf t.val, (s.clu c).st = 5 ∨ (s.clu c).st = 6 then 2 else 3) ∧
      (s.on Reg.WHF_TCTRL_notify_lock t.val = false →
        CompletionPosted s u t.val (completionBytes begun t.val cmd.toNat 0 0 0 0 0)) ∧
      PartsBut s u [t.val]) ∧
    (Accepted s t.val cmd 2 [] [1] → StartClean s t.val → LeafBelow s t.val d → s.children t.val = [] → ∃ u, exec (.start t cmd) s = .next u ∧
      MessageSent s u t.val d 0x010 (cells2 x.startLock ++ [(if s.on Reg.LCK_STATUSt_released t.val then 2 else 0)] ++ [0]) ∧
      (u.part t.val).openCmds = [⟨cmd.toNat, 2, 0⟩] ∧ u.rg Reg.LCK_STATUSt_phase t.val = 3 ∧ u.rg Reg.WHF_TSTAT_mode t.val = 1 ∧
      PartsBut s u [t.val]) ∧
    (Accepted s t.val cmd 6 [] [1, 3, 7] → (s.queue (8 * t.val + 3)).held ≠ [] →
      exec (.unload t cmd) s = .next (begun.setPart t.val { x with openCmds := [⟨cmd.toNat, 6, 0⟩] })) ∧
    (Accepted s t.val cmd 6 [] [1, 3, 7] → (s.queue (8 * t.val + 3)).held = [] → ∃ u, exec (.unload t cmd) s = .next u ∧ Removed s u t.val ∧
      CompletionPosted s u t.val (completionBytes begun t.val cmd.toNat 0 0 0 0 0) ∧ u.faults = s.faults)

/-- INPUT, SET_AREA, ROLLBACK and REPLAY: what they accept, what they do, and their results (R300, R313, R314, R430, R434, R436). -/
def Obligations.PartitionCommands : Prop :=
  ∀ (s : State) (t : Fin 16) (cmd : BitVec 16) (op0 op1 op2 : Word) (length d : Nat) (values : List (BitVec 16)),
    let x := s.part t.val
    let begun := begunCmd s t.val
    let port := op0.toNat % 1024
    let p := s.inPort t.val port
    let able := Accepted s t.val cmd 7 [(0x18, 4, op0.toNat), (0x10, 8, length)] [1, 2, 3, 4, 5, 6] ∧ (s.fn t.val).d3hot = false
    let badInput := length = 0 ∨ 4096 < length ∨ 1023 < op0.toNat
    let named := fun (q : HostPort) => decide (q.port = port) && q.isInput
    let older := decide (op0.toNat = 1)
    let target := if older = true ∧ s.on Reg.LCK_CKPT_OLDt_valid t.val = true then s.rg Reg.LCK_CKPT_OLDt_older t.val
      else if s.rg Reg.LCK_STATUSt_phase t.val = 4 ∨ s.rg Reg.LCK_STATUSt_phase t.val = 5 then x.target
      else s.rg Reg.LCK_CKPTt_newest t.val
    let epoch := s.rg Reg.LCK_STATUSt_epoch t.val
    let q := 8 * t.val + 4 + op0.toNat
    let mode := s.rg Reg.WHF_TSTAT_mode t.val
    let root := s.multi t.val = false ∨ s.isRoot t.val = true
    let lock := op1.toNat % 2 ^ 24
    let stopPound := if op0.toNat = 4 then (lock + 1) % 2 ^ 24 else lock
    let stop := if bit op2.toNat 31 then none else some (stopPound, op2.toNat % 2 ^ 20, bit op2.toNat 30)
    let allowed := bit op2.toNat 31 = true ∨ stopAllowed s t.val stopPound (op2.toNat % 2 ^ 20) = true
    let replay := exec (.replayCommand t cmd op0 op1 op2) s
    (able → badInput →
      ∃ u, exec (.input t cmd op0 length values) s = .next u ∧ Completes begun u t.val cmd 0x16 0) ∧
    (able → ¬ badInput → x.ports.find? named = none →
      ∃ u, exec (.input t cmd op0 length values) s = .next u ∧ Completes begun u t.val cmd 0x15 0) ∧
    (∀ h ∈ x.ports.find? named, able → ¬ badInput →
      (values.length ≠ length → ∃ u, exec (.input t cmd op0 length values) s = .next u ∧ Completes begun u t.val cmd 0x12 0) ∧
      (values.length = length →
        let n := min length (if h.flagged then 16 - p.queue.length else 256 - (p.queue.length + p.taken.length))
        let taken := { p with queue := p.queue ++ (values.take n).map (BitVec.setWidth 12),
                              overflow := p.overflow || (h.flagged && decide (n < length)) }
        ∃ u, exec (.input t cmd op0 length values) s = .next u ∧
          Completes (begun.setPart t.val { x with inputs := x.inputs.put port taken }) u t.val cmd 0 n)) ∧
    (Accepted s t.val cmd 8 [(0x18, 4, op0.toNat)] [0, 1, 2, 3, 4, 5, 6] →
      (1 < op0.toNat → ∃ u, exec (.setArea t cmd op0) s = .next u ∧ Completes begun u t.val cmd 0x16 0) ∧
      (op0.toNat ≤ 1 → ∃ u, exec (.setArea t cmd op0) s = .next u ∧
        Completes (begun.setQueue q { s.queue q with bound := true }) u t.val cmd 0 0)) ∧
    (Accepted s t.val cmd 9 [(0x18, 4, op0.toNat)] [2, 3] →
      (1 < op0.toNat → ∃ u, exec (.rollbackCommand t cmd op0) s = .next u ∧ Completes begun u t.val cmd 0x16 0) ∧
      (op0.toNat ≤ 1 → Alone s t.val → x.rollbacks < 4 → x.gapRunning = false →
        ∃ u, exec (.rollbackCommand t cmd op0) s = .next u ∧ RolledBack s u t.val target ((epoch + 1) % 4) false ∧
          CompletionPosted s u t.val (completionBytes begun t.val cmd.toNat 0 0 target 0 0)) ∧
      (op0.toNat ≤ 1 → LeafBelow s t.val d → (s.route x.rootDev).isSome = true →
        ∃ u, exec (.rollbackCommand t cmd op0) s = .next u ∧
          CompletionPosted s u t.val (completionBytes begun t.val cmd.toNat 0 0 target 0 0) ∧
          MessageSent s u t.val x.rootDev 0x012 (cells2 (s.rg Reg.LCK_CKPTt_newest t.val) ++
            [epoch + (if older then 4 else 0) + s.reqCause t.val * 8]) ∧ u.parts = s.parts)) ∧
    (Accepted s t.val cmd 10 [(0x18, 4, op0.toNat), (0x1C, 4, op1.toNat), (0x20, 4, op2.toNat)] [2, 3, 5, 6] →
      (¬ root → ∃ u, replay = .next u ∧ Completes begun u t.val cmd 0x10 0) ∧
      (root → (op0.toNat < 4 ∨ 6 < op0.toNat) → ∃ u, replay = .next u ∧ Completes begun u t.val cmd 0x16 0) ∧
      (root → op0.toNat = 4 → mode ≠ 2 → mode ≠ 3 → ∃ u, replay = .next u ∧ Completes begun u t.val cmd 0x10 0) ∧
      (root → (op0.toNat = 5 ∨ op0.toNat = 6) → mode ≠ 5 → mode ≠ 6 → ∃ u, replay = .next u ∧ Completes begun u t.val cmd 0x10 0) ∧
      (root → op0.toNat = 4 → (mode = 2 ∨ mode = 3) → ((s.slotOf t.val lock).isNone = true ∨ ¬ allowed) →
        ∃ u, replay = .next u ∧ CompletionPosted s u t.val (completionBytes begun t.val cmd.toNat 0x16 0 0 0 0) ∧ u.parts = s.parts) ∧
      (root → op0.toNat = 4 → (mode = 2 ∨ mode = 3) → (s.slotOf t.val lock).isSome = true → allowed → x.rollbacks < 4 →
        x.gapRunning = false → (∀ c ∈ s.children t.val, (s.route c).isSome = true) →
        ∃ u, replay = .next u ∧ RolledBack s u t.val lock ((epoch + 1) % 4) true ∧ (u.part t.val).replayStop = stop ∧
          CompletionPosted s u t.val (completionBytes begun t.val cmd.toNat 0 0 0 0 0)) ∧
      (root → op0.toNat = 5 → (mode = 5 ∨ mode = 6) → ¬ allowed →
        ∃ u, replay = .next u ∧ CompletionPosted s u t.val (completionBytes begun t.val cmd.toNat 0x16 0 0 0 0) ∧ u.parts = s.parts) ∧
      (root → (op0.toNat = 6 ∨ (op0.toNat = 5 ∧ allowed)) → mode = 5 →
        ∃ u, replay = .next u ∧ u.rg Reg.WHF_TSTAT_mode t.val = 5 ∧
          PartIs s u t.val { x with replayStop := if op0.toNat = 5 then stop else none } ∧
          CompletionPosted s u t.val (completionBytes begun t.val cmd.toNat 0 0 0 0 0)) ∧
      (root → op0.toNat = 5 → mode = 6 → allowed → s.rg Reg.LCK_STATUSt_phase t.val ≠ 4 → s.rg Reg.LCK_STATUSt_phase t.val ≠ 5 →
        ∃ u, replay = .next u ∧ u.rg Reg.WHF_TSTAT_mode t.val = (if s.on Reg.LCK_STATUSt_reexec t.val = true then 5 else 2) ∧
          PartIs s u t.val { x with replayStop := stop } ∧
          CompletionPosted s u t.val (completionBytes begun t.val cmd.toNat 0 0 0 0 0)) ∧
      (root → op0.toNat = 6 → mode = 6 → s.rg Reg.LCK_STATUSt_phase t.val ≠ 4 → s.rg Reg.LCK_STATUSt_phase t.val ≠ 5 →
        ∃ u, replay = .next u ∧ u.rg Reg.WHF_TSTAT_mode t.val = (if s.on Reg.LCK_STATUSt_reexec t.val = true then 5 else 2) ∧
          PartIs s u t.val { x with replayStop := none } ∧
          CompletionPosted s u t.val (completionBytes begun t.val cmd.toNat 0 0 0 0 0)))

/-- Configuration requests, power states and link states. In Bring-up a configuration request is retried, and one to a function that does
not exist is unsupported; the identity reads as R542 gives it, the BARs and SR-IOV values as R418 and R419 do; VF Enable cleared resets
every VF; a function in D3hot sends nothing, and on its return to D0 its pending messages go; the link enters L1 only with no request
outstanding (R397, R418 to R421, R444, R451, R453, R476, R542; the places of the registers and of their bits are those of log entry 25). -/
def Obligations.ConfigAndPowerStates : Prop :=
  ∀ (s : State) (fn : Fin 16) (offset : BitVec 12) (v : Word) (d3hot l12 : Bool),
    let f := fn.val
    let mode := s.rg Reg.PWR_MODE_mode 0
    let x := s.fn f
    let o := offset.toNat / 4
    let p := replyOf s 0
    let state := s.power.linkState
    let open_ := mode ≠ 0 ∧ FnPresent s f ∧ LinkUp s
    let goes := fun (n : Nat) => (s.msix.get (16 * f + n) {}).pending && !(s.msix.get (16 * f + n) {}).masked
    let read := fun (s : State) => exec (.configRequest fn offset none) s
    let write := fun (s : State) => exec (.configRequest fn offset (some v)) s
    let power := fun (s : State) => exec (.powerStateWrite fn d3hot) s
    let quiet := ∀ c < 64, s.chAtHost c = false
    (mode = 0 → read s = .next (replyOf s 2) ∧ write s = .next (replyOf s 2) ∧ power s = .next (replyOf s 2)) ∧
    (mode ≠ 0 → LinkUp s → ¬ FnPresent s f →
      read s = .next ((replyOf s 1).answer 0xFFFFFFFF) ∧ write s = .next (replyOf s 1) ∧ power s = .next (replyOf s 1)) ∧
    (mode ≠ 0 → ¬ LinkUp s → ∃ u, exec .l1Exit s = .next u ∧ LinkUp u ∧ read s = read u ∧ write s = write u ∧ power s = power u) ∧
    (open_ →
      (o = 0 → read s = .next (p.answer (if f = 0 then 0x00071F7A else 0xFFFFFFFF))) ∧
      (o = 1 → read s = .next (p.answer ((if f = 0 ∧ x.memEnable = true then 2 else 0) + (if x.busMaster then 4 else 0) + 0x100000))) ∧
      (o = 2 → read s = .next (p.answer 0x120000B0)) ∧
      (o = 11 → read s = .next (p.answer 0x00071F7A)) ∧
      (f = 0 → (o = 4 → read s = .next (p.answer (x.bar0 % 2 ^ 32 + 4))) ∧ (o = 5 → read s = .next (p.answer (x.bar0 / 2 ^ 32))) ∧
        (o = 6 → read s = .next (p.answer (x.bar2 % 2 ^ 32 + 4))) ∧ (o = 7 → read s = .next (p.answer (x.bar2 / 2 ^ 32)))) ∧
      (f ≠ 0 → 4 ≤ o → o ≤ 7 → read s = .next (p.answer 0)) ∧
      (o = 22 → read s = .next (p.answer (x.devCtl + x.devSta * 2 ^ 16))) ∧
      (f = 0 → (o = 83 → read s = .next (p.answer (15 + 15 * 2 ^ 16))) ∧ (o = 85 → read s = .next (p.answer (1 + 1 * 2 ^ 16))) ∧
        (o = 84 → read s = .next (p.answer x.numVfs)) ∧
        (o = 82 → read s = .next (p.answer ((if x.vfEnable then 1 else 0) + (if x.vfMem then 8 else 0))))) ∧
      (96 ≤ o → ∃ u, read s = .next u ∧ { u with readData := s.readData, freeCtr := s.freeCtr } = p)) ∧
    (open_ →
      (o = 1 → write s = .next (p.setFn f { x with memEnable := decide (f = 0) && bit v.toNat 1, busMaster := bit v.toNat 2 })) ∧
      (f = 0 → (o = 4 → write s = .next (p.setFn 0 { x with bar0 := x.bar0 / 2 ^ 32 * 2 ^ 32 + v.toNat / 2 ^ 25 * 2 ^ 25 })) ∧
        (o = 5 → write s = .next (p.setFn 0 { x with bar0 := x.bar0 % 2 ^ 32 + v.toNat * 2 ^ 32 })) ∧
        (o = 6 → write s = .next (p.setFn 0 { x with bar2 := x.bar2 / 2 ^ 32 * 2 ^ 32 + v.toNat / 2 ^ 16 * 2 ^ 16 })) ∧
        (o = 7 → write s = .next (p.setFn 0 { x with bar2 := x.bar2 % 2 ^ 32 + v.toNat * 2 ^ 32 })) ∧
        (o = 82 → x.vfEnable = false ∨ bit v.toNat 0 = true →
          write s = .next (p.setFn 0 { x with vfEnable := bit v.toNat 0, vfMem := bit v.toNat 3 })) ∧
        (o = 82 → x.vfEnable = true → bit v.toNat 0 = false → (∀ t < 16, (s.part t).bound = [] ∨ s.loaded t = true) →
          ∃ u, write s = .next u ∧ u.fn 0 = { x with vfEnable := false, vfMem := bit v.toNat 3 } ∧
            ∀ g < 16, g ≠ 0 → FunctionReset s u g) ∧
        (o = 84 → write s = .next (if x.vfEnable = true ∨ 15 < v.toNat then p else p.setFn 0 { x with numVfs := v.toNat }))) ∧
      (o = 22 → bit v.toNat 15 = false → bits v.toNat 5 3 ≤ 2 → bits v.toNat 12 3 ≤ 5 →
        write s = .next (p.setFn f { x with devCtl := v.toNat % 2 ^ 15, devSta := x.devSta - Nat.land x.devSta (v.toNat / 2 ^ 16) })) ∧
      (o ∈ [0, 2, 11, 21, 83, 85] ∨ 96 ≤ o → write s = .next p)) ∧
    (open_ → d3hot = x.d3hot → power s = .next (p.setFn f { x with d3hot := d3hot })) ∧
    (open_ → d3hot = true → x.d3hot = false → ∃ u, power s = .next u ∧ Raised (p.setFn f { x with d3hot := true }) u (112 + f)) ∧
    (open_ → d3hot = false → x.d3hot = true → (f ≠ 0 ∨ mode ≠ 5) → s.hostRequest = true →
      ∃ u, power s = .next u ∧ u.fn f = { x with d3hot := false } ∧ SrcIs s u (112 + f) (afterEdge s (112 + f)) ∧
        u.hostOut = s.hostOut ++ (((List.range 16).filter goes).map fun n =>
          ⟨(s.msix.get (16 * f + n) {}).addr, leBytes 4 (s.msix.get (16 * f + n) {}).data, false⟩) ∧
        (∀ n < 16, (u.msix.get (16 * f + n) {}).pending =
          ((s.msix.get (16 * f + n) {}).pending && (s.msix.get (16 * f + n) {}).masked)) ∧
        { u with fns := s.fns, msix := s.msix, hostOut := s.hostOut, irq := s.irq } = p) ∧
    (state = 0 → quiet → ∃ u, exec (.aspmL1Entry l12) s = .next u ∧
      Raised { s with power := { s.power with linkState := if l12 then 2 else 1 } } u 134) ∧
    (state ≠ 0 ∨ ¬ quiet → exec (.aspmL1Entry l12) s = .next s) ∧
    (¬ LinkUp s → ∃ u, exec .l1Exit s = .next u ∧ Raised { s with power := { s.power with linkState := 0 } } u 134) ∧
    (LinkUp s → exec .l1Exit s = .next s)

/-- Channels. A start queues an idle or halted channel at SLC_CHDESC and is rejected otherwise; a stop takes a queued channel off, halts a
running one at the element boundary. An engine runs its queue in order of start. A descriptor is fetched and checked; a fault in it halts
the channel with the status of R476 (R470, R471, R472, R476, R477; the order of the checks is that of log entry 28). -/
def Obligations.SluiceChannels : Prop :=
  ∀ (s : State) (who : Requester) (v : Word) (engine : Fin 4) (ch : Fin 64) (bytes : BitVec 512) (bad : Bool),
    let c := channelOf s who
    let e := c / 16
    let x := s.chan c
    let state := s.rg Reg.SLC_CHSTAT_state c
    let busy := state = 1 ∨ state = 2
    let held := busy ∧ v.toNat % 2 ≠ s.rg Reg.SLC_CHCMD_in_ledger c
    let start := exec (.slcStart who v) s
    let stop := exec (.slcStop who v) s
    let cmdKeys := [fieldKey Reg.SLC_CHCMD_rejected c 0, fieldKey Reg.SLC_CHCMD_in_ledger c 0]
    let waitingHere := s.engineQ.get e []
    let q := s.engineQ.get engine.val []
    let running := fun (n : Nat) => s.rg Reg.SLC_CHSTAT_state (16 * engine.val + n) = 2
    let y := s.chan ch.val
    let tenant := s.rg Reg.SLC_CHCFG_tenant ch.val
    let d := if y.nextLedger then BitVec.ofNat 512 (ofLe (s.hbmGet (s.bufAddr (bits y.next 0 16) + bits y.next 16 12) 64)) else bytes
    let priv := s.on Reg.SLC_CHCFG_priv ch.val
    let spn := if priv = true ∧ s.rg Reg.WHF_TSTAT_mode tenant = 0 then 0 else s.rg Reg.AQ_SPNt_spn tenant
    let shut := (s.fn tenant).d3hot = true ∨ (s.fn tenant).busMaster = false
    let fails : Option Nat :=
      if y.stopping then some 7
      else if (if y.nextLedger then bits y.next 16 12 else y.next) % 64 ≠ 0 then some 4
      else if y.nextLedger = true ∧ s.chMay ch.val (bits y.next 0 16) = false then some 5
      else if y.nextLedger = false ∧ shut then some 9
      else if bad then some 2
      else if dfield d 0x3C 0 32 ≠ crcOf 0 (leBytes 60 d.toNat) then some 3
      else if dLegal d = false then some 4
      else if (dSrcKind d = 3 ∨ dDstKind d = 3) ∧ priv = false then some 6
      else if (dSrcKind d = 4 ∨ dDstKind d = 4) ∧ spn = 0 ∧ priv = false then some 6
      else if (dSrcKind d = 0 ∨ dDstKind d = 0) ∧ shut then some 9
      else if dFlag d 2 = true ∧ ¬ (s.rg Reg.CHK_ASSIGNu_kind (dTapUnit d) = 2 ∧ s.rg Reg.CHK_ASSIGNu_id (dTapUnit d) = ch.val) then some 10
      else none
    let fetched := (((s.setRg Reg.SLC_CHCUR_LO_addr ch.val y.next).setRg Reg.SLC_CHCUR_HI_addr ch.val (y.next / 2 ^ 32)).setRg
      Reg.SLC_CHDONE_bytes ch.val 0)
    start = stop ∧
    (Writable s who 0x900010 → held → start = .next (s.refuse who 0 0x900010)) ∧
    (Writable s who 0x900010 → ¬ held → bit v.toNat 31 = true → bit v.toNat 30 = false →
      (busy → ∃ u, start = .next u ∧ u.on Reg.SLC_CHCMD_rejected c = true ∧ RegsBut s u cmdKeys ∧ { u with regs := s.regs } = s) ∧
      (¬ busy → ∃ u, start = .next u ∧ u.rg Reg.SLC_CHSTAT_state c = 1 ∧ u.rg Reg.SLC_CHSTAT_status c = 0 ∧
        u.rg Reg.SLC_CHSTAT_detail c = 0 ∧ u.rg Reg.SLC_CHSTAT_descs c = 0 ∧ u.rg Reg.SLC_CHCMD_in_ledger c = v.toNat % 2 ∧
        u.engineQ.get e [] = waitingHere ++ [c % 16] ∧
        ChanIs s u c { atRest x with
          next := s.rg Reg.SLC_CHDESC_LO_addr c + s.rg Reg.SLC_CHDESC_HI_addr c * 2 ^ 32, nextLedger := bit v.toNat 0 } ∧
        RegsBut s u (cmdKeys ++ channelKeys c) ∧ { u with regs := s.regs, channels := s.channels, engineQ := s.engineQ } = s)) ∧
    (Writable s who 0x900010 → ¬ held → bit v.toNat 31 = false → bit v.toNat 30 = true →
      (state = 1 → ∃ u, stop = .next u ∧ u.rg Reg.SLC_CHSTAT_state c = 0 ∧ u.engineQ.get e [] = waitingHere.filter (· ≠ c % 16) ∧
        u.channels = s.channels) ∧
      (state = 2 → x.waiting = 0 → ∃ u, stop = .next u ∧ u.rg Reg.SLC_CHSTAT_state c = 3 ∧ u.rg Reg.SLC_CHSTAT_status c = 7 ∧
        ChanIs s u c (atRest x)) ∧
      (state = 2 → x.waiting ≠ 0 → ∃ u, stop = .next u ∧ u.rg Reg.SLC_CHSTAT_state c = 2 ∧ ChanIs s u c { x with stopping := true }) ∧
      (¬ busy → ∃ u, stop = .next u ∧ RegsBut s u cmdKeys ∧ { u with regs := s.regs } = s)) ∧
    (q = [] → exec (.channelBegin engine) s = .next s) ∧
    ((∃ n < 16, running n) → exec (.channelBegin engine) s = .next s) ∧
    (∀ n ∈ q.head?, (¬ ∃ n < 16, running n) → exec (.channelBegin engine) s =
      .next { s.setRg Reg.SLC_CHSTAT_state (16 * engine.val + n) 2 with engineQ := s.engineQ.put engine.val q.tail }) ∧
    (¬ (s.rg Reg.SLC_CHSTAT_state ch.val = 2 ∧ y.desc = none) → exec (.descriptor ch bytes bad) s = .next s) ∧
    (s.rg Reg.SLC_CHSTAT_state ch.val = 2 → y.desc = none →
      (∀ st ∈ fails, ∃ u, exec (.descriptor ch bytes bad) s = .next u ∧ ChHalted fetched u ch.val st 0 0) ∧
      (fails = none → ∃ u, exec (.descriptor ch bytes bad) s = .next u ∧ ChanIs s u ch.val { y with desc := some d, tries := 0 } ∧
        u.rg Reg.SLC_CHCUR_LO_addr ch.val = y.next % 2 ^ 32 ∧ u.rg Reg.SLC_CHCUR_HI_addr ch.val = y.next / 2 ^ 32 % 2 ^ 32 ∧
        u.rg Reg.SLC_CHDONE_bytes ch.val = 0 ∧ u.hbm = s.hbm ∧
        (dFlag d 2 = true → dFlag d 5 = true → (u.chk (dTapUnit d)).poly = s.rg Reg.CHK_CTRLu_poly (dTapUnit d)) ∧
        (dFlag d 2 = false ∨ dFlag d 5 = false → u.chks = s.chks)))

/-- Elements: where each lies, what it moves, its progress, the half and full causes, the tap, free_src, remote requests, and the failures
(R464, R472 to R477). -/
def Obligations.SluiceElements : Prop :=
  ∀ (s : State) (ch : Fin 64) (source : List Byte) (index : Word) (bad succeeds : Bool) (status : BitVec 3) (cells : List Cell),
    let c := ch.val
    let x := s.chan c
    let running := s.rg Reg.SLC_CHSTAT_state c = 2
    let tenant := s.rg Reg.SLC_CHCFG_tenant c
    let shut := (s.fn tenant).d3hot = true ∨ (s.fn tenant).busMaster = false
    let element := exec (.element ch source index bad) s
    let bytesDone := s.rg Reg.SLC_CHDONE_bytes c
    let engine := c / 16
    let retries := s.rg Reg.SLC_CHCFG_retries c
    let counted := s.setRg Reg.SLC_CNT_RETRY_retries engine (min (2 ^ 32 - 1) (s.rg Reg.SLC_CNT_RETRY_retries engine + 1))
    (x.desc = none → element = .next s ∧ exec (.intFull ch) s = .next s ∧ exec (.readResponse ch status cells) s = .next s ∧
      exec (.writeAck ch status) s = .next s) ∧
    (x.desc = none → running → x.nextLedger = true →
      exec (.busErrorRetry ch succeeds) s = .next s ∧ exec (.completionTimeout ch) s = .next s) ∧
    (x.desc = none → running → x.nextLedger = false →
      let named := ((s.setRg Reg.SLC_CHCUR_LO_addr c x.next).setRg Reg.SLC_CHCUR_HI_addr c (x.next / 2 ^ 32)).setRg Reg.SLC_CHDONE_bytes c 0
      (retries ≤ x.tries → ∃ u, exec (.completionTimeout ch) s = .next u ∧ ChHalted named u c 1 0 0) ∧
      (x.tries < retries → exec (.completionTimeout ch) s = .next ((named.setRg Reg.SLC_CNT_RETRY_retries engine
        (min (2 ^ 32 - 1) (s.rg Reg.SLC_CNT_RETRY_retries engine + 1))).setChan c { x with tries := x.tries + 1 })) ∧
      (x.tries < retries → succeeds = true → x.waiting = 0 → ∃ u, exec (.busErrorRetry ch succeeds) s = .next u ∧ ChanIs s u c { x with tries := 0 })) ∧
    (¬ running → element = .next s ∧ exec (.intFull ch) s = .next s ∧ exec (.readResponse ch status cells) s = .next s ∧
      exec (.writeAck ch status) s = .next s ∧ exec (.busErrorRetry ch succeeds) s = .next s ∧ exec (.completionTimeout ch) s = .next s) ∧
    (∀ d ∈ x.desc, running →
      let n := dSize d
      let go := x.waiting = 0 ∧ x.element < dCount d
      let srcAt := sideOffset x d (dSrcPat d) (dSrcStride d)
      let toHere := dDstKind d ≠ 4 ∧ (dDstKind d = 0 → ¬ shut) ∧
        (1 ≤ dDstKind d → dDstKind d ≤ 3 →
          (s.chCells c (dDstKind d) (dDst d) (sideOffset x d (dDstPat d) (dDstStride d)) n).toOption.isSome = true)
      let plain := dFlag d 2 = false ∧ (dFlag d 6 = false ∨ dSrcKind d ≠ 2 ∨ x.element + 1 ≠ dCount d)
      let part := min 19 ((n - x.got) / 2)
      let onBus := x.waiting ≠ 0 ∨ dSrcKind d = 0 ∨ dDstKind d = 0
      let again := fun (u : State) (r : Channel) =>
        (x.waiting = 1 → bits (dSrc d) 24 11 + (srcAt + x.got) / 2 < 2048 →
          Asked counted u c 0 (dSrc d) (bits (dSrc d) 24 11 + (srcAt + x.got) / 2) [] part r) ∧
        (x.waiting = 0 → r.waiting = 0 ∧ ChanIs counted u c r)
      (¬ go → element = .next s) ∧
      (go → dSrcKind d = 0 → shut → ∃ u, element = .next u ∧ ChHalted s u c 9 0 bytesDone) ∧
      (go → dSrcKind d = 0 → dSrcPat d ≠ 2 → ¬ shut → bad = true → ∃ u, element = .next u ∧ ChHalted s u c 2 0 bytesDone) ∧
      (go → dSrcKind d = 0 → dSrcPat d ≠ 2 → ¬ shut → bad = false → source.length ≠ n → element = .next s) ∧
      (go → dSrcKind d = 0 → dSrcPat d ≠ 2 → ¬ shut → bad = false → source.length = n → plain → toHere →
        ∃ u, element = .next u ∧ ElementWritten s u c d source) ∧
      (go → dSrcKind d = 0 → dSrcPat d = 2 → ¬ shut → 2 ^ 24 ≤ index.toNat → ∃ u, element = .next u ∧ ChHalted s u c 4 0 bytesDone) ∧
      (go → dSrcKind d = 0 → dSrcPat d = 2 → ¬ shut → index.toNat < 2 ^ 24 → bad = false → source.length = n → plain → toHere →
        ∃ u, element = .next u ∧ ElementWritten (s.setChan c { x with idx := some index.toNat, waiting := 0 }) u c d source) ∧
      (go → 1 ≤ dSrcKind d → dSrcKind d ≤ 3 → dSrcPat d ≠ 2 →
        (∀ l ∈ (s.chRead c (dSrcKind d) (dSrc d) srcAt n).toOption,
          (bad = true → ∃ u, element = .next u ∧ ChHalted s u c 2 0 bytesDone) ∧
          (bad = false → plain → toHere → ∃ u, element = .next u ∧ ElementWritten s u c d l) ∧
          (bad = false → dFlag d 2 = true → dFlag d 6 = false → dDstKind d = 5 → ∃ u, element = .next u ∧
            ElementEnded (s.setRg Reg.CHK_BYTESu_bytes (dTapUnit d)
              (min (2 ^ 32 - 1) (s.rg Reg.CHK_BYTESu_bytes (dTapUnit d) + l.length))) u c d ∧
            (u.chk (dTapUnit d)).crc = BitVec.ofNat 64 (l.foldl (crcFeed (s.chk (dTapUnit d)).poly) (s.chk (dTapUnit d)).crc.toNat)) ∧
          (bad = false → dFlag d 2 = false → dFlag d 6 = true → dSrcKind d = 2 → x.element + 1 = dCount d → dDstKind d = 5 →
            s.tag (bits (dSrc d) 0 16) / 2 ^ 8 = 0xC0 + c → bits (dSrc d) 0 16 < 65504 →
            ∃ u, element = .next u ∧ u.tag (bits (dSrc d) 0 16) = s.tag (bits (dSrc d) 0 16) % 16 ∧
              u.ledger.returned = s.ledger.returned ++ [bits (dSrc d) 0 16])) ∧
        ((s.chRead c (dSrcKind d) (dSrc d) srcAt n).toOption = none → dSrcKind d = 2 → s.chMay c (bits (dSrc d) 0 16) = false →
          ∃ u, element = .next u ∧ ChHalted s u c 5 0 bytesDone)) ∧
      (go → dSrcKind d = 4 → dSrcPat d ≠ 2 → bits (dSrc d) 24 11 + srcAt / 2 < 2048 → ∃ u, element = .next u ∧
        Asked s u c 0 (dSrc d) (bits (dSrc d) 24 11 + srcAt / 2) [] (min 19 (n / 2)) { x with buf := [], got := 0, waiting := 1 }) ∧
      (x.element ≠ dCount d → exec (.intFull ch) s = .next s) ∧
      (x.element = dCount d → ∃ u, exec (.intFull ch) s = .next u ∧ bit (u.rg Reg.SLC_CAUSE_full engine) (c % 16) = true ∧
        DescEnded s u c d ∧ RegsBut s u (channelKeys c) ∧ ChannelOnly s u) ∧
      (x.waiting ≠ 1 → x.waiting ≠ 3 → exec (.readResponse ch status cells) s = .next s) ∧
      (x.waiting = 1 → status ≠ 0 → ∃ u, exec (.readResponse ch status cells) s = .next u ∧
        ChHalted s u c (if status = 6 then 2 else 8) (if status = 6 then 0 else status.toNat) bytesDone) ∧
      (x.waiting = 1 → status = 0 → cells.length ≠ part → exec (.readResponse ch status cells) s = .next s) ∧
      (x.waiting = 1 → status = 0 → cells.length = part →
        let l := x.buf ++ cells.flatMap fun y => leBytes 2 y.toNat
        let o := bits (dSrc d) 24 11 + (srcAt + l.length) / 2
        (l.length = n → plain → toHere → ∃ u, exec (.readResponse ch status cells) s = .next u ∧
          ElementWritten (s.setChan c { x with buf := l, got := 0, waiting := 0, tries := 0 }) u c d l) ∧
        (l.length ≠ n → o < 2048 → ∃ u, exec (.readResponse ch status cells) s = .next u ∧
          Asked s u c 0 (dSrc d) o [] (min 19 ((n - l.length) / 2)) { x with buf := l, got := l.length, tries := 0 })) ∧
      (x.waiting ≠ 2 → exec (.writeAck ch status) s = .next s) ∧
      (x.waiting = 2 → status ≠ 0 → ∃ u, exec (.writeAck ch status) s = .next u ∧
        ChHalted s u c (if status = 6 then 2 else 8) (if status = 6 then 0 else status.toNat) bytesDone) ∧
      (x.waiting = 2 → status = 0 → x.got + 2 * part = n →
        ∃ u, exec (.writeAck ch status) s = .next u ∧ ElementEnded s u c d ∧ u.hbm = s.hbm ∧ u.links = s.links) ∧
      (¬ onBus → exec (.busErrorRetry ch succeeds) s = .next s ∧ exec (.completionTimeout ch) s = .next s) ∧
      (onBus → retries ≤ x.tries →
        (∃ u, exec (.busErrorRetry ch succeeds) s = .next u ∧ ChHalted s u c 1 0 bytesDone) ∧
        (∃ u, exec (.completionTimeout ch) s = .next u ∧ ChHalted s u c 1 0 bytesDone)) ∧
      (onBus → x.tries < retries → succeeds = false → x.tries + 1 = retries →
        ∃ u, exec (.busErrorRetry ch succeeds) s = .next u ∧ ChHalted (counted.setChan c x) u c 1 0 bytesDone) ∧
      (onBus → x.tries < retries → (∃ u, exec (.completionTimeout ch) s = .next u ∧ again u { x with tries := x.tries + 1 })) ∧
      (onBus → x.tries < retries → succeeds = true → ∃ u, exec (.busErrorRetry ch succeeds) s = .next u ∧
        again u { x with tries := if x.waiting = 0 then 0 else x.tries + 1 }))

/-- The ledger. An allocation takes the head of the free list, past buffers whose page has been retired, under its owner's quota; a free or
give is tested in the order of R459: a foreign or double one changes no buffer and is recorded and charged, an accepted free zero-fills and
goes to the tail, an accepted give keeps the generation; a grant is written by whoever may act for the buffer's owner (R455 to R460, R463).
That a retired page's buffer is passed over is the model's reading (log entry 75). -/
def Obligations.LedgerOperations : Prop :=
  ∀ (s : State) (who : Requester) (v : Word) (i : Nat),
    let k := copyOf who
    let tag := s.rgw Reg.LDG_ALLOC_TAG_tag k * 16
    let l := s.ledger
    let may := fun (t : Nat) => s.mayAct who (tagKind t) (tagId t)
    let full := fun (t : Nat) => s.rg Reg.LDG_QUOTAt_quota (tagAccount t) ≤ s.ledgerUsed (tagAccount t)
    let alloc := exec (.ldgAlloc who) s
    let first := fun (l : Ledger) => if l.fresh < 65504 then some l.fresh else l.returned.head?
    let list := s.usableList s.pagesRetired.length l
    let head := first list
    let b := v.toNat % 2 ^ 16
    let named := v.toNat / 2 ^ 16
    let own := s.tag b
    let foreign1 := 65504 ≤ b ∨ may named = false
    let double := ¬ foreign1 ∧ (tagKind own = 0 ∨ tagGen named ≠ tagGen own)
    let foreign2 := ¬ foreign1 ∧ ¬ double ∧ (tagKind named ≠ tagKind own ∨ tagId named ≠ tagId own)
    let ok := ¬ foreign1 ∧ ¬ double ∧ ¬ foreign2
    let code := if double then 1 else 2
    let actor := if foreign1 then s.defaultId who else (tagKind named, tagId named)
    let bad := actor.1 * 2 ^ 14 + actor.2 * 2 ^ 8 + named % 256
    let record := b + own * 2 ^ 16 + bad * 2 ^ 32
    let tenant := if actor.1 = 3 then s.rg Reg.SLC_CHCFG_tenant actor.2 else actor.2 % 16
    let free := exec (.ldgFree who v) s
    let give := exec (.ldgGive who v) s
    let offended := fun (u : State) (giving : Bool) =>
      u.ledger.tags = l.tags ∧ u.ledger.returned = l.returned ∧ u.ledger.fresh = l.fresh ∧ u.ledger.grants = l.grants ∧
      u.rgw Reg.LDG_RESULT_outcome k 0 = code ∧
      (l.log.length < 32 → u.ledger.log = l.log ++ [⟨giving, code, b, own, bad⟩]) ∧
      (32 ≤ l.log.length → u.ledger.log = l.log ∧ u.ledger.lost = min 255 (l.lost + 1)) ∧
      (actor.1 = 1 ∨ actor.1 = 3 → FaultPosted s u tenant (16 + code) 1 record 0) ∧
      (actor.1 = 2 ∨ actor.1 = 3 → u.on Reg.LDG_CAUSE_offence = true) ∧
      (actor.1 = 2 → u.faults = s.faults) ∧ u.parts = s.parts ∧ u.clusters = s.clusters ∧
      (s.on Reg.WEIR_CTRL_ring_en = false → u.hbm = s.hbm)
    let g := s.rgw Reg.LDG_GNT_ADDR_grant k
    let gb := v.toNat % 2 ^ 16
    let granting := may (s.tag gb) = true ∧ tagKind (s.tag gb) ≠ 0 ∧ tagGen (s.tag gb) = v.toNat / 2 ^ 16 % 16
    ((s.pagesRetired = [] ∨ ∃ h, first l = some h ∧ s.bufferGone h = false) → list = l) ∧
    (Readable s who 0xB00014 →
      (may tag = false ∨ (¬ full tag ∧ head = none) → alloc = .next (s.answer 0)) ∧
      (may tag = true → full tag → alloc = .next (s.answer (2 ^ 30))) ∧
      (∀ h ∈ head, may tag = true → ¬ full tag → ∃ u, alloc = .next u ∧
        u.readData.toNat = 2 ^ 31 + (s.tag h + 1) % 16 * 2 ^ 16 + h % 2 ^ 16 ∧ u.tag h = tag + (s.tag h + 1) % 16 ∧
        (i ≠ h → u.tag i = s.tag i) ∧
        u.ledger.fresh = (if list.fresh < 65504 then list.fresh + 1 else list.fresh) ∧
        u.ledger.returned = (if list.fresh < 65504 then list.returned else list.returned.tail) ∧
        { u with ledger := s.ledger, hbm := s.hbm, readData := s.readData } = s)) ∧
    (Writable s who 0xB00018 →
      (foreign1 ∨ double ∨ foreign2 → ∃ u, free = .next u ∧ offended u false) ∧
      (ok → ∃ u, free = .next u ∧ u.tag b = own % 16 ∧ (i ≠ b → u.tag i = s.tag i) ∧ u.ledger.returned = l.returned ++ [b] ∧
        u.ledger.fresh = l.fresh ∧ u.ledger.log = l.log ∧ u.rgw Reg.LDG_RESULT_outcome k 0 = 0 ∧
        (s.rg Reg.LDG_POOLk_base 0 < 127 → s.rg Reg.LDG_POOLk_base 1 < 127 → i < 4096 →
          Mem.get u.hbm (s.bufAddr b + i) = 0) ∧
        { u with regs := s.regs, ledger := s.ledger, hbm := s.hbm } = s ∧ RegsBut s u [fieldKey Reg.LDG_RESULT_outcome 0 k])) ∧
    (Writable s who 0xB0001C →
      (foreign1 ∨ double ∨ foreign2 → ∃ u, give = .next u ∧ offended u true) ∧
      (ok → full tag → give = .next (s.setRgw Reg.LDG_RESULT_outcome k 0 3)) ∧
      (ok → ¬ full tag → ∃ u, give = .next u ∧ u.tag b = tag + own % 16 ∧ (i ≠ b → u.tag i = s.tag i) ∧
        u.ledger.returned = l.returned ∧ u.rgw Reg.LDG_RESULT_outcome k 0 = 0 ∧
        { u with regs := s.regs, ledger := s.ledger, hbm := s.hbm } = s ∧ RegsBut s u [fieldKey Reg.LDG_RESULT_outcome 0 k])) ∧
    (Writable s who 0xB0003C →
      (granting → ∃ u, exec (.ldgGntA who v) s = .next u ∧ { u with ledger := s.ledger } = s ∧
        { u.ledger with grants := l.grants } = l ∧
        (Mem.get u.ledger.grants g).toNat = (v.toNat / 2 ^ 28 * 2 ^ 28 + v.toNat % 2 ^ 20) + (Mem.get l.grants g).toNat / 2 ^ 32 * 2 ^ 32 ∧
        (i ≠ g → Mem.get u.ledger.grants i = Mem.get l.grants i)) ∧
      (¬ granting → exec (.ldgGntA who v) s = .next (s.setRgw Reg.LDG_GNT_ADDR_rejected k 0 1))) ∧
    (Readable s who 0xB00030 →
      (l.log = [] → exec (.ldgLogA who) s = .next ({ s with ledger := { l with lost := 0 } }.answer (l.lost % 256 * 2 ^ 20))) ∧
      (∀ r ∈ l.log.head?, exec (.ldgLogA who) s = .next ((({ s with ledger := { l with log := l.log.tail, lost := 0 } }.setRg
        Reg.LDG_LOG_B_owner 0 r.owner).setRg Reg.LDG_LOG_B_offender 0 r.offender).answer
          (2 ^ 31 + (if r.give then 2 ^ 30 else 0) + r.offence % 4 * 2 ^ 28 + l.lost % 256 * 2 ^ 20 + r.buffer % 2 ^ 16))))

/-- Check units. An init loads the CRC's initial value and feeds the alive halfword when it folds; a scan of the keeper assignee's feeds the
bytes of HBM in address order, up to an uncorrectable read; a keeper's write while a channel is the assignee is discarded and recorded
as one of a requester that is not permitted (R465, R467 to R469, R543). -/
def Obligations.CheckUnits : Prop :=
  ∀ (s : State) (who : Requester) (unit : Fin 4) (v : Word) (failsAt : Option Nat),
    let u := unit.val
    let x := s.chk u
    let shut := s.rg Reg.CHK_ASSIGNu_kind u = 2 ∧ (s.keeperOf who).isSome = true
    let busy := s.on Reg.CHK_SCANu_CTRL_busy u = true
    let ctrl := exec (.chkInit who unit v) s
    let scan := exec (.chkScan who unit v) s
    let keys := [fieldKey Reg.CHK_CTRLu_fold u 0, fieldKey Reg.CHK_CTRLu_alive u 0, fieldKey Reg.CHK_CTRLu_poly u 0]
    let poly := v.toNat % 4
    let start := ([0xFFFFFFFF, 0xFFFFFFFF, 0xFFFF, 0][poly]?).getD 0
    let alive := v.toNat / 2 ^ 16 % 4096
    let mine := s.rg Reg.CHK_ASSIGNu_kind u = 1 ∧ s.keeperOf who = some (s.rg Reg.CHK_ASSIGNu_id u) ∧ ringOf who ≤ 1
    let n := (failsAt.map fun k => min k x.scanLeft).getD x.scanLeft
    let fed := fun (c : BitVec 64) (p : Nat) (l : List Byte) => BitVec.ofNat 64 (l.foldl (crcFeed p) c.toNat)
    let chkKeys := [fieldKey Reg.CHK_BYTESu_bytes u 0, fieldKey Reg.CHK_SCANu_CTRL_busy u 0, fieldKey Reg.CHK_SCANu_CTRL_done u 0,
      fieldKey Reg.CHK_SCANu_CTRL_error u 0, fieldKey Reg.CHK_SCANu_CTRL_en u 0]
    (Writable s who (0xA00004 + 32 * u) →
      (shut → ctrl = .next (s.refuse who 2 (0xA00004 + 32 * u))) ∧
      (¬ shut → (bit v.toNat 31 = false ∨ busy) → ∃ t, ctrl = .next t ∧ RegsBut s t keys ∧ { t with regs := s.regs } = s) ∧
      (¬ shut → bit v.toNat 31 = true → ¬ busy → ∃ t, ctrl = .next t ∧
        t.chk u = { x with poly := poly,
                           crc := if bit v.toNat 30 = true then fed (BitVec.ofNat 64 start) poly [BitVec.ofNat 8 alive, BitVec.ofNat 8 (alive / 256)]
                                  else BitVec.ofNat 64 start } ∧
        t.rg Reg.CHK_BYTESu_bytes u = (if bit v.toNat 30 = true then 2 else 0) ∧ t.rg Reg.CHK_CTRLu_poly u = poly ∧
        t.rg Reg.CHK_CTRLu_alive u = alive ∧ t.rg Reg.CHK_CTRLu_fold u = (if bit v.toNat 30 = true then 1 else 0) ∧
        (∀ w < 4, w ≠ u → t.chk w = s.chk w) ∧ RegsBut s t (fieldKey Reg.CHK_BYTESu_bytes u 0 :: keys) ∧
        { t with regs := s.regs, chks := s.chks } = s)) ∧
    (Writable s who (0xA0001C + 32 * u) →
      (shut → scan = .next (s.refuse who 2 (0xA0001C + 32 * u))) ∧
      (¬ shut → bit v.toNat 31 = true → ¬ busy → mine → ∃ t, scan = .next t ∧ t.on Reg.CHK_SCANu_CTRL_busy u = true ∧
        t.chk u = { x with scanLeft := s.rg Reg.CHK_SCANu_LEN_value u, scanAddr := s.rg Reg.CHK_SCANu_ADDR_value u * 8 } ∧
        RegsBut s t chkKeys ∧ t.hbm = s.hbm) ∧
      (¬ shut → (bit v.toNat 31 = false ∨ busy ∨ ¬ mine) → ∃ t, scan = .next t ∧ t.chks = s.chks ∧
        t.rg Reg.CHK_SCANu_CTRL_busy u = s.rg Reg.CHK_SCANu_CTRL_busy u ∧ RegsBut s t chkKeys ∧ t.hbm = s.hbm)) ∧
    (¬ busy → exec (.scanDone unit failsAt) s = .next s) ∧
    (busy → ∃ t, exec (.scanDone unit failsAt) s = .next t ∧ t.on Reg.CHK_SCANu_CTRL_busy u = false ∧ t.on Reg.CHK_SCANu_CTRL_done u = true ∧
      t.on Reg.CHK_SCANu_CTRL_error u = (failsAt.isSome || s.on Reg.CHK_SCANu_CTRL_error u) ∧
      t.chk u = { x with crc := fed x.crc x.poly (s.hbmGet x.scanAddr n), scanLeft := 0, scanAddr := 0 } ∧
      t.rg Reg.CHK_BYTESu_bytes u = min (2 ^ 32 - 1) (s.rg Reg.CHK_BYTESu_bytes u + n) ∧ RegsBut s t chkKeys ∧
      { t with regs := s.regs, chks := s.chks, irq := s.irq, msix := s.msix, hostOut := s.hostOut } = s)

/-- Software events. WEIR_SW raises an alarm, a log record or a trace record: an alarm coalesces, takes an entry or merges, and has a copy
in the ring; a log record spends a token and enters the ring, or is dropped and counted, as every one is at rate 0; a trace record enters
the ring behind the marker of an open gap, or is dropped, where the ring or the write queue is full, and opens one (R480 to R483, R487,
R490 to R492; the host's instance number is that of log entry 31, and when the queue may be full that of log entry 5). -/
def Obligations.WeirSoftwareEvents : Prop :=
  ∀ (s : State) (who : Requester) (v : Word),
    let owner := v.toNat / 2 ^ 11 % 32
    let code := v.toNat % 2 ^ 11
    let cls := v.toNat / 2 ^ 29 % 4
    let source := 14 * 4096 + (match s.keeperOf who with | some k => k | none => 0)
    let data := s.rg Reg.WEIR_SW_DATA_data
    let legal := bit v.toNat 31 = true ∧ owner ≤ 16 ∧ 0x100 ≤ code ∧ cls ≠ 3
    let e : Event := { cls := 0, owner := owner, source := source, code := code, count := 1, data := data % 2 ^ 36, merged := false,
                       pound := poundOf s owner, dcycle := cycleOf s owner, time := s.power.time, origin := s.rg Reg.AQ_DEVID_devid,
                       fwd := if owner < 16 ∧ s.multi owner = true ∧ s.isRoot owner = false ∧ s.on Reg.WEIR_CTRL_fwd = true then 1 else 0 }
    let record := ringRecord s.power.time cls owner false (rerunOf s owner) source code 1 data (poundOf s owner) (cycleOf s owner)
    let event := exec (.weirSw who v) s
    let ring := s.on Reg.WEIR_CTRL_ring_en
    let tokens := s.rg Reg.WEIR_BKT_tokens owner
    let rate := s.rg Reg.WEIR_BKT_rate owner
    let quiet := (List.range 16).all fun b => decide (s.weir.totals.get (16 * owner + b) 0 = 0)
    let queued := { s.weir with inQueue := s.weir.inQueue + 1 }
    let room := s.weir.inQueue < 64
    (Writable s who 0xC00024 →
      (¬ legal → event = .next s) ∧
      (legal → cls = 0 → ∃ u, event = .next u ∧ AlarmStored s u e ∧ WeirOnly s u ∧
        (RingTakes s 1 → (s.ringSlot (s.rg Reg.WEIR_RING_WR_index) + 32 ≤ s.bufAddr (s.rg Reg.WEIR_RING_CFG_list) ∨
          s.bufAddr (s.rg Reg.WEIR_RING_CFG_list) + 4096 ≤ s.ringSlot (s.rg Reg.WEIR_RING_WR_index)) → RingWritten s u record) ∧
        (RingFull s 1 → u.rg Reg.WEIR_TRC_STAT_ring_lost = min 255 (s.rg Reg.WEIR_TRC_STAT_ring_lost + 1) ∧
          u.on Reg.WEIR_CAUSE_ring_full = true ∧ u.hbm = s.hbm) ∧
        (ring = false → u.hbm = s.hbm)) ∧
      (legal → cls = 1 → ring = false → tokens ≠ 0 → rate ≠ 0 → event = .next (s.setRg Reg.WEIR_BKT_tokens owner (tokens - 1))) ∧
      (legal → cls = 1 → quiet = true → tokens ≠ 0 → rate ≠ 0 → RingTakes s 1 → ∃ u, event = .next u ∧ RingWritten s u record ∧
        u.rg Reg.WEIR_BKT_tokens owner = tokens - 1 ∧ u.weir = s.weir ∧ WeirOnly s u) ∧
      (legal → cls = 1 → (ring = true → quiet = true) → (tokens = 0 ∨ rate = 0 ∨ RingFull s 1) → ∃ u, event = .next u ∧ u.hbm = s.hbm ∧ WeirOnly s u ∧
        u.rg Reg.WEIR_DROPb_drops (16 * owner + 14) = min 65535 (s.rg Reg.WEIR_DROPb_drops (16 * owner + 14) + 1) ∧
        u.weir.totals.get (16 * owner + 14) 0 = s.weir.totals.get (16 * owner + 14) 0 + 1 ∧ u.weir.alarms = s.weir.alarms) ∧
      (legal → cls = 2 → ring = false → event = .next s) ∧
      (legal → cls = 2 → room → s.weir.gap = none → RingTakes s 1 →
        ∃ u, event = .next u ∧ RingWritten s u record ∧ u.weir = queued ∧ WeirOnly s u) ∧
      (legal → cls = 2 → ¬ room → s.weir.gap = none → RingTakes s 1 → ∃ u, event = .next u ∧ WeirOnly s { u with freeCtr := s.freeCtr } ∧
        (RingWritten s u record ∧ u.weir = s.weir ∨ u.hbm = s.hbm ∧ u.weir = { s.weir with gap := some (s.power.time, 1) } ∧
          u.rg Reg.WEIR_TRC_STAT_dropped = min 65535 (s.rg Reg.WEIR_TRC_STAT_dropped + 1))) ∧
      (legal → cls = 2 → room → s.weir.gap = none → RingFull s 1 → ∃ u, event = .next u ∧ u.weir = { queued with gap := some (s.power.time, 1) } ∧
        u.hbm = s.hbm ∧ u.on Reg.WEIR_CAUSE_trace_gap = true ∧ WeirOnly s u ∧
        u.rg Reg.WEIR_TRC_STAT_gaps = min 255 (s.rg Reg.WEIR_TRC_STAT_gaps + 1) ∧
        u.rg Reg.WEIR_TRC_STAT_dropped = min 65535 (s.rg Reg.WEIR_TRC_STAT_dropped + 1)) ∧
      (∀ g ∈ s.weir.gap, legal → cls = 2 → room →
        (RingTakes s 2 → ∃ u, event = .next u ∧ u.weir = { queued with gap := none } ∧ WeirOnly s u ∧
          u.rg Reg.WEIR_RING_WR_index = (s.rg Reg.WEIR_RING_WR_index + 2) % (128 * 2 ^ s.rg Reg.WEIR_RING_CFG_size_log2) ∧
          (s.rg Reg.WEIR_RING_WR_index % 128 < 127 → s.rg Reg.WEIR_RING_CFG_size_log2 = 0 →
            s.bufAddr (s.rg Reg.WEIR_RING_CFG_list) + 4096 ≤ s.ringSlot 0 → ∀ i < 32,
            ∀ b ∈ (ringRecord g.1 3 owner false (rerunOf s owner) 0xD000 0x301 (min 65535 g.2) 0 (poundOf s owner) (cycleOf s owner))[i]?,
            Mem.get u.hbm (s.ringSlot (s.rg Reg.WEIR_RING_WR_index) + i) = b)) ∧
        (RingFull s 2 → ∃ u, event = .next u ∧ u.weir = { queued with gap := some (g.1, g.2 + 1) } ∧ u.hbm = s.hbm ∧ WeirOnly s u ∧
          u.rg Reg.WEIR_TRC_STAT_dropped = min 65535 (s.rg Reg.WEIR_TRC_STAT_dropped + 1))))

/-- The weir's other commands. The oldest alarm of an owner becomes a fault, of type 19 or, if it was forwarded, 20; a root takes a
forwarded alarm in; one alarm at a time, the oldest that waits, is forwarded to the root from the store; a bucket gains a token, which an owed marker spends; the read index is
taken from the list buffer if it is legal; a snapshot of a partition in Readback goes into ledger buffers of its tenant (R484, R486 to R489,
R491, R500). -/
def Obligations.WeirDelivery : Prop :=
  ∀ (s : State) (owner : Fin 17) (t : Fin 16) (source : Cell) (body : BitVec 144) (who : Requester) (v : Word)
    (before after : List Event) (e : Event),
    let o := owner.val
    let alarms := s.weir.alarms.get o []
    let cell := fun (k : Nat) => body.toNat / 2 ^ (12 * (k - 7)) % 4096
    let received : Event := { cls := 0, owner := t.val, source := 0xF000 + source.toNat, code := cell 10 % 2048, count := cell 11,
                              data := cell 8 % 16 * 4096 + cell 9, merged := false, pound := cell 15 + cell 16 * 4096,
                              dcycle := cell 17 + cell 18 * 4096, time := s.power.time, origin := source.toNat }
    let root := s.rg Reg.WHF_TSTAT_mode t.val ≠ 0 ∧ s.isRoot t.val = true
    let tokens := s.rg Reg.WEIR_BKT_tokens o
    let refills := s.rg Reg.WEIR_BKT_rate o ≠ 0 ∧ tokens < max 1 (s.rg Reg.WEIR_BKT_burst o)
    let owed := (List.range 16).filter fun b => decide (s.weir.totals.get (16 * o + b) 0 ≠ 0)
    let size := 128 * 2 ^ s.rg Reg.WEIR_RING_CFG_size_log2
    let list := s.bufAddr (s.rg Reg.WEIR_RING_CFG_list)
    let index := s.hbmHalf (list + 4088) % 2 ^ 12 + s.hbmHalf (list + 4090) % 2 ^ 5 * 2 ^ 12
    let read := s.rg Reg.WEIR_RING_RD_index % size
    let polled := s.on Reg.WEIR_CTRL_ring_en = true ∧ s.on Reg.WEIR_RING_CFG_rd_src = true
    let legal := index < size ∧ (index + size - read) % size ≤ (s.rg Reg.WEIR_RING_WR_index + size - read) % size
    let tenant := v.toNat / 2 ^ 16 % 16
    let snapKeys := [fieldKey Reg.WEIR_SNAP_tenant 0 0, fieldKey Reg.WEIR_SNAP_status 0 0, fieldKey Reg.WEIR_SNAP_busy 0 0,
      fieldKey Reg.WEIR_SNAP_list 0 0, fieldKey Reg.WEIR_CAUSE_snap_done 0 0]
    let busy := s.on Reg.WEIR_SNAP_busy
    let owner' := s.weir.snapTenant
    let l := s.snapBytes owner'
    let n := (l.length + 4095) / 4096
    let first := s.ledger.fresh
    let ended := fun (u : State) (status : Nat) => u.rg Reg.WEIR_SNAP_status = status ∧ u.on Reg.WEIR_SNAP_busy = false ∧
      u.on Reg.WEIR_CAUSE_snap_done = true ∧ RegsBut s u snapKeys ∧ u.parts = s.parts ∧ u.clusters = s.clusters
    ((∀ x ∈ alarms, x.count = 0) → exec (.alarmAccept owner) s = .next s) ∧
    (alarms = before ++ e :: after → (∀ x ∈ before, x.count = 0) → e.count ≠ 0 → ∃ u, exec (.alarmAccept owner) s = .next u ∧
      u.weir.alarms.get o [] = before ++ (if e.fwd = 0 then [] else [{ e with count := 0 }]) ++ after ∧
      FaultPosted s u (if o < 16 then o else 0) (if e.source / 4096 = 15 then 20 else 19) e.count (alarmRecord e) e.origin ∧
      u.parts = s.parts) ∧
    (¬ root → exec (.alarm t source body) s = .next s) ∧
    (root → ∃ u, exec (.alarm t source body) s = .next u ∧ AlarmStored s u received ∧ WeirOnly s u) ∧
    ((∀ p < 16, ∀ x ∈ s.weir.alarms.get p [], x.fwd = 0) ∨ s.on Reg.WEIR_CTRL_fwd = false → exec .alarmForward s = .next s) ∧
    (let rest := { s.weir with alarms := s.weir.alarms.put o (before ++ (if e.count = 0 then [] else [{ e with fwd := 0 }]) ++ after) }
     o < 16 → e.owner = o → alarms = before ++ e :: after → (∀ x ∈ before, x.fwd = 0) → e.fwd ≠ 0 →
     (∀ p < 16, p ≠ o → ∀ x ∈ (s.weir.alarms.get p []).find? fun x => decide (x.fwd ≠ 0), e.time < x.time) → s.on Reg.WEIR_CTRL_fwd = true →
     (s.rg Reg.WHF_TSTAT_mode o ≠ 0 → (s.route (s.part o).rootDev).isSome = true →
      ∃ u, exec .alarmForward s = .next u ∧ u.weir = rest ∧ MessageSent s u o (s.part o).rootDev 0x030 (alarmBody e) ∧
        { u with weir := s.weir, links := s.links, aliveOwn := s.aliveOwn } = s) ∧
     (s.rg Reg.WHF_TSTAT_mode o = 0 → exec .alarmForward s = .next { s with weir := rest })) ∧
    (¬ refills → exec (.tokenRefill owner) s = .next s) ∧
    (refills → (owed = [] ∨ s.on Reg.WEIR_CTRL_ring_en = false) → exec (.tokenRefill owner) s = .next (s.setRg Reg.WEIR_BKT_tokens o (tokens + 1))) ∧
    (∀ b ∈ owed, refills → owed = [b] → RingTakes s 1 → tokens = 0 → ∃ u, exec (.tokenRefill owner) s = .next u ∧
      RingWritten s u (ringRecord s.power.time 3 o false (rerunOf s o) 0xD000 0x300 (min 65535 (s.weir.totals.get (16 * o + b) 0)) b
        (poundOf s o) (cycleOf s o)) ∧
      u.rg Reg.WEIR_BKT_tokens o = 0 ∧ u.weir.totals.get (16 * o + b) 0 = 0 ∧ WeirOnly s u) ∧
    (¬ (polled ∧ legal) → exec .ringReadPoll s = .next s) ∧
    (polled → legal → exec .ringReadPoll s = .next (s.setRg Reg.WEIR_RING_RD_index 0 index)) ∧
    (Writable s who 0xC00030 →
      (bit v.toNat 31 = false → exec (.weirSnap who v) s = .next (s.setRg Reg.WEIR_SNAP_tenant 0 tenant)) ∧
      (bit v.toNat 31 = true → busy = true →
        exec (.weirSnap who v) s = .next ((s.setRg Reg.WEIR_SNAP_tenant 0 tenant).setRg Reg.WEIR_SNAP_status 0 3)) ∧
      (bit v.toNat 31 = true → busy = false → s.rg Reg.WHF_TSTAT_mode tenant ≠ 6 →
        ∃ u, exec (.weirSnap who v) s = .next u ∧ ended u 1 ∧ u.hbm = s.hbm ∧ u.weir = s.weir) ∧
      (bit v.toNat 31 = true → busy = false → s.rg Reg.WHF_TSTAT_mode tenant = 6 → exec (.weirSnap who v) s =
        .next { (s.setRg Reg.WEIR_SNAP_tenant 0 tenant).setRg Reg.WEIR_SNAP_busy 0 1 with weir := { s.weir with snapTenant := tenant } })) ∧
    (busy = false → exec .snapDone s = .next s) ∧
    (busy = true → s.rg Reg.WHF_TSTAT_mode owner' ≠ 6 → ∃ u, exec .snapDone s = .next u ∧ ended u 1 ∧ u.hbm = s.hbm ∧ u.ledger = s.ledger) ∧
    (busy = true → s.rg Reg.WHF_TSTAT_mode owner' = 6 → 0 < n → n ≤ 2047 →
      (s.rg Reg.LDG_QUOTAt_quota owner' < s.ledgerUsed owner' + n + 1 →
        ∃ u, exec .snapDone s = .next u ∧ ended u 2 ∧ u.hbm = s.hbm ∧ u.ledger = s.ledger) ∧
      (s.ledgerUsed owner' + n + 1 ≤ s.rg Reg.LDG_QUOTAt_quota owner' → first + n + 1 ≤ 65504 → s.ledger.tags = [] →
        s.rg Reg.LDG_POOLk_base 0 < 127 → s.rg Reg.LDG_POOLk_base 1 < 127 →
        ∃ u, exec .snapDone s = .next u ∧ ended u 0 ∧ u.rg Reg.WEIR_SNAP_list = first ∧ u.ledger.fresh = first + n + 1 ∧
          (∀ i < n, u.tag (first + 1 + i) / 16 = 0x400 + owner' * 16 + owner' ∧ u.hbmHalf (s.bufAddr first + 2 * i) = first + 1 + i ∧
            u.hbmGet (s.bufAddr (first + 1 + i)) (min 4096 (l.length - 4096 * i)) = (l.drop (4096 * i)).take 4096)))

/-- Capstan. It is silent in Bring-up and Standby; elsewhere a byte is echoed and joins the line, 0x08 deletes one, a break discards the
line. A command answers ok or er as the device mode and the life-cycle state allow it, and then prompts; rd and wr are accesses of the
system keeper in ring 1; a new rate holds if a byte comes at it (R501, R502; the spelling of the answers is that of log entry 46). -/
def Obligations.CapstanMonitor : Prop :=
  ∀ (s : State) (b : Byte) (n : Nat) (link : Fin 16) (addr : BitVec 25) (v : Word),
    let mode := s.rg Reg.PWR_MODE_mode 0
    let silent := mode = 0 ∨ mode = 5
    let normal := mode = 1 ∨ mode = 2 ∨ mode = 3
    let deployed := s.rg Reg.SEC_LC_state 0 = 2
    let c := s.capstan
    let typed : Capstan := { c with oldBaud := none, out := c.out ++ [b] }
    let after : Capstan := if b = 0x08 then { typed with line := c.line.dropLast } else if b = 0x0D then typed
      else if c.line.length < 80 then { typed with line := c.line ++ [b] } else { typed with tooLong := true }
    let broken : Capstan := { c with line := [], tooLong := false }
    let fresh : State := { s with capstan := broken }
    let known := ["ver", "st", "tm", "al", "lg", "dr", "lk", "rd", "wr", "bd"].map text
    let outside := addr.toNat % 4 ≠ 0
    let sec := 0xD00080 ≤ addr.toNat ∧ addr.toNat < 0xD00090
    let read := s.busRead .capstan addr.toNat
    let linkStatus := [Reg.AQ_STATUS_state, Reg.AQ_STATUS_peer, Reg.AQ_STATUS_peer_link, Reg.AQ_STATUS_peer_bridge,
      Reg.AQ_STATUS_spare_used, Reg.AQ_STATUS_round, Reg.AQ_STATUS_train_fail]
    let rates := n = 115200 ∨ n = 921600 ∨ n = 1500000 ∨ n = 3000000
    (silent → exec (.capstanByte b) s = .next s ∧ exec .capstanBreak s = .next s ∧ exec .capstanVer s = .next s ∧
      exec .capstanSt s = .next s ∧ exec .capstanTm s = .next s ∧ exec (.capstanAl n) s = .next s ∧ exec (.capstanLg n) s = .next s ∧
      exec .capstanDr s = .next s ∧ exec (.capstanLk link) s = .next s ∧ exec (.capstanRd addr) s = .next s ∧
      exec (.capstanWr addr v) s = .next s ∧ exec (.capstanBd n) s = .next s) ∧
    (¬ silent → (∃ u, exec (.capstanByte b) s = .next u ∧ Raised { s with capstan := after } u 133) ∧
      (∃ u, exec .capstanBreak s = .next u ∧ Raised { s with capstan := broken } u 133)) ∧
    (mode = 4 → exec .capstanTm s = .next (sent s (erAnswer 4)) ∧ exec (.capstanAl n) s = .next (sent s (erAnswer 4)) ∧
      exec (.capstanLg n) s = .next (sent s (erAnswer 4)) ∧ exec .capstanDr s = .next (sent s (erAnswer 4)) ∧
      exec (.capstanLk link) s = .next (sent s (erAnswer 4)) ∧ exec (.capstanRd addr) s = .next (sent s (erAnswer 4)) ∧
      exec (.capstanWr addr v) s = .next (sent s (erAnswer 4)) ∧ exec (.capstanBd n) s = .next (sent s (erAnswer 4))) ∧
    (normal ∨ mode = 4 → exec .capstanVer s = .next (sent s (okAnswer [text "OXP-7H32-ET", hexN 2 (s.rg Reg.WHF_ID_stepping),
        hexN 2 (s.rg Reg.WHF_ROMVER_major) ++ hexN 2 (s.rg Reg.WHF_ROMVER_minor) ++ hexN 4 (s.rg Reg.WHF_ROMVER_build)] [])) ∧
      exec .capstanSt s = .next (sent s (okAnswer [hexN 1 mode] ((List.range 16).map fun t => hexN 1 t ++ 0x20#8 ::
        (hexN 1 (s.rg Reg.WHF_TSTAT_mode t) ++ 0x20#8 :: (hexN 6 (s.rg Reg.LCK_POUNDt_pound t) ++ 0x20#8 ::
          hexN 6 (s.rg Reg.LCK_CKPTt_newest t))))))) ∧
    (normal →
      exec .capstanTm s = .next (sent s (okAnswer [hexN 2 (s.rg Reg.AON_STAT_temp), hexN 2 (s.rg Reg.DMEM_HBM_STATk_temp 0),
        hexN 2 (s.rg Reg.DMEM_HBM_STATk_temp 1), hexN 3 s.power.vddCore] [])) ∧
      (40 < n → exec (.capstanAl n) s = .next (sent s (erAnswer 2)) ∧ exec (.capstanLg n) s = .next (sent s (erAnswer 2))) ∧
      (n ≤ 40 → exec (.capstanAl n) s = .next (sent s (okAnswer [] (((s.ringRecords fun k => decide (k = 0)).take n).map recordLine))) ∧
        exec (.capstanLg n) s = .next (sent s (okAnswer []
          (((s.ringRecords fun k => decide (k = 1) || decide (k = 2)).take n).map recordLine)))) ∧
      exec .capstanDr s = .next (sent s (okAnswer [hexN 4 (s.rg Reg.WEIR_TRC_STAT_gaps), hexN 4 (s.rg Reg.WEIR_TRC_STAT_ring_lost)]
        (((List.range 272).filter fun k => decide (s.rg Reg.WEIR_DROPb_drops k ≠ 0)).map fun k =>
          hexN 2 (k / 16) ++ 0x20#8 :: (hexN 1 (k % 16) ++ 0x20#8 :: hexN 8 (s.rg Reg.WEIR_DROPb_drops k))))) ∧
      exec (.capstanLk link) s = .next (sent s (okAnswer [hexN 8 (wordOf s linkStatus link.val),
        hexN 8 (s.rg Reg.AQ_CNT_FEC_corrected link.val),
        hexN 8 (s.rg Reg.AQ_CNT_REPLAY_uncorrectable link.val + s.rg Reg.AQ_CNT_REPLAY_replays link.val * 2 ^ 16)]
        ((List.range 5).map fun k => hexN 8 (s.rg Reg.AQ_LANE_SYM_symbols (5 * link.val + k))))) ∧
      (outside → exec (.capstanRd addr) s = .next (sent s (erAnswer 2))) ∧
      (¬ outside → sec → exec (.capstanRd addr) s = .next (sent s (erAnswer 5))) ∧
      (¬ outside → ¬ sec → read.pending = s.pending →
        exec (.capstanRd addr) s = .next (sent { read with readData := s.readData } (okAnswer [hexN 8 read.readData.toNat] []))) ∧
      (deployed → exec (.capstanWr addr v) s = .next (sent s (erAnswer 3))) ∧
      (¬ deployed → outside → exec (.capstanWr addr v) s = .next (sent s (erAnswer 2))) ∧
      (¬ deployed → ¬ outside → (s.busWrite .capstan addr.toNat v).pending = s.pending → exec (.capstanWr addr v) s =
        .next (sent { s.busWrite .capstan addr.toNat v with readData := s.readData } (okAnswer [] []))) ∧
      (¬ rates → exec (.capstanBd n) s = .next (sent s (erAnswer 2))) ∧
      (rates → exec (.capstanBd n) s =
        .next { s with capstan := { c with out := c.out ++ okAnswer [] [], baud := n, oldBaud := some c.baud } }) ∧
      (c.tooLong = true → exec .capstanLine s = .next (sent fresh (erAnswer 2))) ∧
      (c.tooLong = false → c.line = [] → exec .capstanLine s = .next (sent fresh (okAnswer [] []))) ∧
      (c.tooLong = false → c.line ≠ [] → 0x20 ∉ c.line → c.line ∉ known → exec .capstanLine s = .next (sent fresh (erAnswer 1))) ∧
      (c.tooLong = false → c.line = text "ver" → exec .capstanLine s = exec .capstanVer fresh) ∧
      (c.tooLong = false → c.line = text "st" → exec .capstanLine s = exec .capstanSt fresh) ∧
      (c.tooLong = false → c.line = text "tm" → exec .capstanLine s = exec .capstanTm fresh) ∧
      (c.tooLong = false → c.line = text "dr" → exec .capstanLine s = exec .capstanDr fresh) ∧
      (c.tooLong = false → n < 16 → c.line = text "al " ++ [hexDigit n] → exec .capstanLine s = exec (.capstanAl n) fresh) ∧
      (c.tooLong = false → n < 16 → c.line = text "lg " ++ [hexDigit n] → exec .capstanLine s = exec (.capstanLg n) fresh) ∧
      (c.tooLong = false → c.line = text "lk " ++ [hexDigit link.val] → exec .capstanLine s = exec (.capstanLk link) fresh)) ∧
    (silent → exec .capstanLine s = .next fresh) ∧
    (∀ r ∈ c.oldBaud, exec .baudRevert s = .next { s with capstan := { c with baud := r, oldBaud := none } }) ∧
    (c.oldBaud = none → exec .baudRevert s = .next s)

/-- The resets. Power-on leaves every register at its Reset value but what the fuses give, and system time 0. PERST#, a hot reset,
PWR_CTRL.dev_reset, the end of Sanitize and PERST# released in Standby-aux reset all outside the always-on domain; L2 removes main power
(R512, R515, R528, R529, R531, R534). What a device reset does to the bytes in HBM is the model's choice (log entry 34). -/
def Obligations.Resets : Prop :=
  ∀ (s : State) (who : Requester) (v : Word),
    let p := s.power
    let aux := s.rg Reg.PWR_MODE_mode 0 = 5 ∧ s.rg Reg.PWR_MODE_depth 0 = 1
    let on : Power := { lifeCycle := p.lifeCycle, kekOk := p.kekOk, perst := p.perst, alert0 := p.alert0, alert1 := p.alert1, pmeSent := p.pmeSent }
    let woken : Power := { p with perst := false, wakePin := false, standbyAux := false }
    let blown : Power := match p.fuseNext with
      | some f => { p with lifeCycle := f, kekOk := p.kekOk && decide (f ≠ 3) }
      | none => p
    let ctrl := Writable s who 0xD00004
    let standby := s.setRg Reg.PWR_CTRL_standby_en 0 (v.toNat % 2)
    let dev := bit v.toNat 31
    let san := bit v.toNat 30 = true ∧ s.rg Reg.PWR_MODE_mode 0 ∈ [1, 2, 3]
    (∃ u, exec .powerOnReset s = .next u ∧ RegsBut State.reset u [fieldKey Reg.SEC_LC_state 0 0, fieldKey Reg.SEC_LC_kek_ok 0 0] ∧
      u.rg Reg.SEC_LC_state 0 = p.lifeCycle ∧ u.on Reg.SEC_LC_kek_ok 0 = p.kekOk ∧
      u = { State.reset with pending := s.pending, regs := u.regs, hostOut := s.hostOut, readData := s.readData, freeCtr := s.freeCtr,
                             power := on }) ∧
    (p.perst = true → exec .perst s = .next s) ∧
    (p.perst = false → aux →
      exec .perst s = .next { s with power := { p with perst := true, wakePin := p.standbyAux, standbyAux := false } }) ∧
    (p.perst = false → ¬ aux → ∃ u, exec .perst s = .next u ∧ ResetByHost s u { p with perst := true }) ∧
    (p.perst = false → exec .perstDeassert s = .next s) ∧
    (p.perst = true → ¬ aux → exec .perstDeassert s = .next { latched s 0 with power := woken }) ∧
    (p.perst = true → aux → ∃ u, exec .perstDeassert s = .next u ∧ ResetByHost (latched s 0) u woken) ∧
    (aux → exec .hotReset s = .next s) ∧
    (¬ aux → ∃ u, exec .hotReset s = .next u ∧ ResetByHost s u p) ∧
    (ctrl → dev = true → (∃ u, exec (.devReset who v) s = .next u ∧ ResetByHost (s.setRg Reg.AON_STAT_fatal 0 0) u p) ∧
      exec (.sanitize who v) s = exec (.devReset who v) s) ∧
    (ctrl → dev = false → ¬ san → exec (.devReset who v) s = .next standby ∧ exec (.sanitize who v) s = .next standby) ∧
    (ctrl → dev = false → san →
      (∃ u, exec (.sanitize who v) s = .next u ∧ IntoSanitize s u p.fuseNext) ∧ exec (.devReset who v) s = exec (.sanitize who v) s) ∧
    (s.rg Reg.PWR_MODE_mode 0 = 4 → ∃ u, exec .wipeComplete s = .next u ∧ ResetByHost { s with hbm := [] } u blown) ∧
    (s.rg Reg.PWR_MODE_mode 0 ≠ 4 → exec .wipeComplete s = .next s) ∧
    ((s.rg Reg.PWR_MODE_mode 0 = 1 ∨ (s.rg Reg.PWR_MODE_mode 0 = 5 ∧ ¬ aux)) → s.rg Reg.PWR_MODE_depth 0 ≤ 1 →
      ∃ u, exec .l2Entry s = .next u ∧ u.rg Reg.PWR_MODE_mode 0 = 5 ∧ u.rg Reg.PWR_MODE_depth 0 = 1 ∧ u.hbm = [] ∧
        RegsReset s u [fieldKey Reg.PWR_RST_kind 0 0, fieldKey Reg.PWR_MODE_mode 0 0, fieldKey Reg.PWR_MODE_depth 0 0] ∧
        u.parts = [] ∧ u.clusters = [] ∧ u.keepers = [] ∧ u.secure = {} ∧ u.power.time = p.time ∧ u.power.linkState = 3) ∧
    (s.rg Reg.PWR_MODE_mode 0 ≠ 1 → s.rg Reg.PWR_MODE_mode 0 ≠ 5 → exec .l2Entry s = .next s) ∧
    (aux → exec .l2Entry s = .next s)

/-- Bring-up, step by step: what each step leaves, and the error that one which fails or overruns leaves in Repair. A step that is not in
progress changes nothing (R506, R514 to R516, R528; the codes of steps 1 and 8, and those of 2 and 6, are read as log entry 36 says). -/
def Obligations.BringUpSteps : Prop :=
  (∀ (s : State) (step : Fin 9) (failure : BringUpFailure) (l : List (Fin 408)) (others : List (BitVec 4 × BitVec 9 × BitVec 23)),
    let k := step.val
    let p := s.power
    let b := p.bringUp
    let opened := StepOpen s k
    let pass := exec (.bringUpStep step .passed) s
    let fatal := s.rg Reg.AON_STAT_fatal 0
    let st := fieldKey Reg.PWR_RST_stage 0 0
    let named := fun (f : Nat × Nat × Nat → Bool) => p.bistUnits.any f
    let newly := fun (r : Nat) => (List.range 17).filter fun j => l.any (fun c => decide (c.val = 17 * r + j)) && !s.on Reg.CLU_ROLE_retired (17 * r + j)
    let short := ∃ r < 24, (if (List.range 17).any (fun j => s.on Reg.CLU_ROLE_retired (17 * r + j)) = true then 0 else 1) < (newly r).length
    (¬ opened → exec (.bringUpStep step failure) s = .next s) ∧
    (opened → k = 1 → ∃ u, pass = .next u ∧ StepComplete s u 1 ∧ DomainsOn u [30] ∧ RegsBut s u (st :: domainKeys [30]) ∧ RegsAndPower s u) ∧
    (opened → k = 2 → fatal ≠ 0 → ∃ u, pass = .next u ∧ u.rg Reg.PWR_MODE_mode 0 = 3 ∧ u.rg Reg.PWR_RST_error 0 = 6 ∧
      u.rg Reg.PWR_RST_stage 0 = 2 ∧ u.rg Reg.AON_STAT_fatal 0 = fatal ∧ u.power.bringUp = b) ∧
    (opened → k = 2 → fatal = 0 → ∃ u, pass = .next u ∧ StepComplete s u 2 ∧ DomainsOn u [32] ∧
      u.rg Reg.SEC_LC_state 0 = p.lifeCycle ∧ u.on Reg.SEC_LC_kek_ok 0 = p.kekOk ∧ u.basinOwner 2048 = 1 ∧ u.on Reg.KPR_CTRL_run 0 = true ∧
      RegsBut s u ([st, fieldKey Reg.SEC_LC_state 0 0, fieldKey Reg.SEC_LC_kek_ok 0 0, fieldKey Reg.PWR_BASIN_OWN_owner 2048 0,
        fieldKey Reg.KPR_CTRL_run 0 0] ++ domainKeys [32]) ∧ { u with regs := s.regs, power := p, keepers := s.keepers } = s) ∧
    (opened → k = 3 → short → ∃ u, exec (.bringUpStep step (.units l others)) s = .next u ∧ BringUpFailed s u 3 1) ∧
    (opened → k = 3 → ¬ short → ∃ u, exec (.bringUpStep step (.units l others)) s = .next u ∧ StepComplete s u 3 ∧
      DomainsOn u [31, 33, 34] ∧ u.power.bistFailed = l.map (·.val) ∧
      u.power.bistUnits = others.map (fun x => (x.1.toNat, x.2.1.toNat, x.2.2.toNat)) ∧ RegsBut s u (st :: domainKeys [31, 33, 34]) ∧
      { u with regs := s.regs, power := p, secure := s.secure } = s) ∧
    (opened → k ≠ 3 → exec (.bringUpStep step (.units l others)) s = .next s) ∧
    (opened → k = 4 → ∃ u, pass = .next u ∧ StepComplete s u 4 ∧ DomainsOn u [28, 29] ∧ RegsBut s u (st :: domainKeys [28, 29]) ∧
      RegsAndPower s u) ∧
    (opened → k = 5 → p.bistUnits = [] → ∃ u, pass = .next u ∧ StepComplete s u 5 ∧ (∀ i < 4096, u.basinOwner i = 1) ∧
      (∀ c < 408, u.on Reg.CLU_ROLE_retired c = (s.on Reg.CLU_ROLE_retired c || p.bistFailed.contains c)) ∧
      (∀ r < 24, ∀ j < 16, u.rg Reg.CLU_ROLE_role (17 * r + j) = s.rg Reg.CLU_ROLE_role (17 * r + j)) ∧
      (∀ r < 24, ∀ j < 16, u.on Reg.CLU_ROLE_retired (17 * r + j) = true → (∀ i < j, u.on Reg.CLU_ROLE_retired (17 * r + i) = false) →
        u.on Reg.CLU_ROLE_retired (17 * r + 16) = false → u.rg Reg.CLU_ROLE_role (17 * r + 16) = j) ∧
      u.clusters = s.clusters ∧ u.reaches = s.reaches ∧ u.parts = s.parts ∧ u.links = s.links ∧ u.keepers = s.keepers) ∧
    (opened → k = 5 → (∀ x ∈ p.bistUnits, x.1 ≠ 7) → ∃ u, pass = .next u ∧ StepComplete s u 5 ∧ (∀ i < 4096, u.basinOwner i = 1) ∧
      (∀ c < 408, u.on Reg.CLU_ROLE_retired c =
        (s.on Reg.CLU_ROLE_retired c || p.bistFailed.contains c || named (fun x => decide (x.1 ≤ 2 ∧ x.2.1 = c)))) ∧
      (∀ r < 24, (u.rch r).retired = ((s.rch r).retired || named (fun x => decide ((x.1 = 3 ∨ x.1 = 4) ∧ x.2.1 = r)))) ∧
      (∀ q, u.pagesRetired.contains q =
        (s.pagesRetired.contains q || named (fun x => decide (x.1 = 6 ∧ x.2.1 < 2 ∧ x.2.1 * 2 ^ 22 + x.2.2 % 2 ^ 22 = q))))) ∧
    (opened → k = 6 → ∃ u, pass = .next u ∧ StepComplete s u 6 ∧ u.on Reg.IRQ_PTGT_lock 0 = true ∧ u.on Reg.KPR_CTRL_rom_fetch 0 = false ∧
      (∀ i < 4, u.on Reg.KPR_PGOLD_valid i = true ∧ u.rg Reg.KPR_PGOLD_base i = Config.goldBase i ∧
        u.kpr i = { s.kpr i with image := true, gold := true, prog := [], tbl := (u.kpr i).tbl } ∧
        (∀ a, Mem.get (u.kpr i).tbl a = if a < 36864 then 0 else Mem.get (s.kpr i).tbl a)) ∧
      RegsBut s u ([st, fieldKey Reg.IRQ_PTGT_lock 0 0, fieldKey Reg.KPR_CTRL_rom_fetch 0 0] ++ (List.range 4).flatMap fun i =>
        [fieldKey Reg.KPR_PGOLD_valid i 0, fieldKey Reg.KPR_PGOLD_base i 0]) ∧
      { u with regs := s.regs, power := s.power, keepers := s.keepers } = s) ∧
    (opened → k = 7 → ∃ u, pass = .next u ∧ StepComplete s u 7 ∧ (∀ i < 4096, u.basinOwner i = 0) ∧
      u.on Reg.KPR_CTRL_run 1 = true ∧ u.on Reg.KPR_CTRL_run 2 = true ∧ u.on Reg.KPR_CTRL_run 3 = true ∧
      u.on Reg.TST_DREDGE_CTRL_en 0 = true ∧ RegsAndPower s u) ∧
    (opened → k = 8 → p.tamperPending = false → ∃ u, pass = .next u ∧ StepComplete s u 8 ∧ u.rg Reg.PWR_MODE_mode 0 = 1 ∧
      u.capstan.out = s.capstan.out ++ text "ox7> " ∧ RegsBut s u [st, fieldKey Reg.PWR_MODE_mode 0 0] ∧
      { u with regs := s.regs, power := p, capstan := s.capstan } = s) ∧
    (opened → k = 8 → p.tamperPending = true → ∃ u, pass = .next u ∧ u.rg Reg.PWR_MODE_mode 0 = 4 ∧ u.power.wiping = true)) ∧
  (∀ (s : State) (step : Fin 9),
    let k := step.val
    let p := s.power
    let opened := StepOpen s k
    let late := lowestOpen p.bringUp
    let free := (Config.freeWord s.freeCtr).toNat % 256
    let failed := exec (.bringUpStep step .failed) s
    (opened → k ∈ [2, 5, 6, 7] → ∃ u, failed = .next u ∧ BringUpFailed s u k 4) ∧
    (opened → k = 3 → ∃ u, failed = .next u ∧ BringUpFailed s u 3 1) ∧
    (opened → k = 4 → ∃ u, failed = .next u ∧ BringUpFailed s u 4 2) ∧
    (opened → k = 1 ∨ k = 8 → ∃ u, failed = .next u ∧ BringUpFailed s u k free) ∧
    (opened → k = 2 → ∃ u, exec (.bringUpStep step .fuses) s = .next u ∧ BringUpFailed s u 2 5) ∧
    (opened → 3 ≤ k → k ≤ 6 → ∃ u, exec (.bringUpStep step .rom) s = .next u ∧ BringUpFailed s u k 3) ∧
    (s.rg Reg.PWR_MODE_mode 0 = 0 → p.perst = false → late ∉ [1, 3, 8] →
      ∃ u, exec .bringUpTimeout s = .next u ∧ BringUpFailed s u late 4) ∧
    (s.rg Reg.PWR_MODE_mode 0 = 0 → p.perst = false → late ∈ [1, 3, 8] →
      ∃ u, exec .bringUpTimeout s = .next u ∧ BringUpFailed s u late free) ∧
    (s.rg Reg.PWR_MODE_mode 0 ≠ 0 ∨ p.perst = true → exec .bringUpTimeout s = .next s))

/-- Link test is entered from Ready with no partition loaded, and left for Ready with every link Off; other requests are ignored (R506). A
domain switch ends: the domain is On, its SRAM zero if it was Off, or Off; the next in the queue begins, clamped (R520, R521). -/
def Obligations.ModeRequestsAndDomains : Prop :=
  ∀ (s : State) (who : Requester) (v : Word),
    let asked := exec (.readyRequest who v) s
    let mode := s.rg Reg.PWR_MODE_mode 0
    let able := Writable s who 0xD00000
    let request := v.toNat % 4
    let q := s.power.switches
    let starts := fun (u : State) => ∀ n ∈ (q.tail).head?, u.rg Reg.PWR_DOM_state n.1 = 3 ∧ u.rg Reg.PWR_DOM_clamped n.1 = 1
    let ends := fun (u : State) (d st : Nat) => (∀ n ∈ (q.tail).head?, n.1 ≠ d) →
      u.rg Reg.PWR_DOM_state d = st ∧ u.rg Reg.PWR_DOM_clamped d = (if st = 1 then 0 else 1)
    (exec (.linkTestRequest who v) s = asked) ∧
    (able → request = 1 → mode = 2 → ∃ u, asked = .next u ∧ u.rg Reg.PWR_MODE_mode 0 = 1 ∧ LinksOff s u ∧
      u.clusters = s.clusters ∧ u.reaches = s.reaches ∧ u.parts = s.parts ∧ u.hbm = s.hbm ∧ u.keepers = s.keepers ∧ u.hostOut = s.hostOut) ∧
    (able → request = 2 → mode = 1 → (∀ t < 16, s.loaded t = false) → asked = .next (s.setRg Reg.PWR_MODE_mode 0 2)) ∧
    (able → request = 2 → mode = 1 → (∃ t < 16, s.loaded t = true) → asked = .next s) ∧
    (able → (request = 1 → mode ≠ 2) → (request = 2 → mode ≠ 1) → asked = .next s) ∧
    (q = [] → exec .domainSwitch s = .next s) ∧
    (∀ e ∈ q.head?, ∃ u, exec .domainSwitch s = .next u ∧ u.power = { s.power with switches := q.tail } ∧ starts u ∧ ends u e.1 e.2 ∧
      RegsBut s u (domainKeys (e.1 :: (q.tail.head?.map Prod.fst).toList)) ∧
      (e.2 = 1 → e.1 < 24 → (∀ j < 17, u.clu (17 * e.1 + j) = {}) ∧
        RchIs s u e.1 { ({} : Reach) with
          retired := (s.rch e.1).retired, retireMark := (s.rch e.1).retireMark, waysOff := (s.rch e.1).waysOff } ∧ u.keepers = s.keepers ∧ u.secure = s.secure) ∧
      (e.2 = 1 → e.1 = 32 → u.keepers = [] ∧ u.clusters = s.clusters ∧ u.reaches = s.reaches) ∧
      (e.2 = 1 → e.1 = 33 → u.secure = {} ∧ u.clusters = s.clusters ∧ u.reaches = s.reaches) ∧
      (e.2 ≠ 1 ∨ (24 ≤ e.1 ∧ e.1 ≠ 32 ∧ e.1 ≠ 33) → RegsAndPower s u) ∧
      { u with regs := s.regs, power := s.power, clusters := s.clusters, reaches := s.reaches, keepers := s.keepers, secure := s.secure } = s)

/-- Standby-retain is entered when its conditions hold; domains go to Retain or Off, links to Off, partitions keep their state. A wake cause
is latched, and ends Standby where it may: back to Ready with a PME if the PF is in D3hot, from Standby-aux by WAKE#. The wake-time
comparator fires once. TAMPER# wipes the secure basin at once and leads to Sanitize (R506, R520, R525, R529 to R531, R535). -/
def Obligations.StandbyAndWake : Prop :=
  ∀ (s : State) (cause : Fin 7),
    let mode := s.rg Reg.PWR_MODE_mode 0
    let ready := mode = 1 ∧ s.on Reg.PWR_CTRL_standby_en 0 = true ∧ (s.fn 0).d3hot = true ∧
      (∀ f < 16, f ≠ 0 → (s.fn f).d3hot = true ∨ (s.fn 0).vfEnable = false ∨ (s.fn 0).numVfs < f) ∧ ∀ t < 16, s.rg Reg.WHF_TSTAT_mode t ∉ [2, 4, 5]
    let held := ((List.range 24).filter fun r => s.on Reg.RCH_OWNER_bound r) ++ [28, 29, 31, 32, 33, 34]
    let fires := s.on Reg.AON_CMP_wake_en 0 = true ∧ s.power.wakeTime ≤ s.power.time
    let calm := s.power.tamperPending = false
    let state := fun (u : State) (d : Nat) => u.rg Reg.PWR_DOM_state d
    (¬ ready → exec .standbyEntry s = .next s) ∧
    (ready → ∃ u, exec .standbyEntry s = .next u ∧ u.rg Reg.PWR_MODE_mode 0 = 5 ∧ u.rg Reg.PWR_MODE_depth 0 = 0 ∧ LinksOff s u ∧
      (∀ d ∈ held, state u d = 2) ∧ (∀ d < 35, d ∉ held → state u d = 0) ∧ (∀ d < 35, u.rg Reg.PWR_DOM_clamped d = 1) ∧
      { u with regs := s.regs, links := s.links } = s) ∧
    (∃ u, exec (.wake cause) s = .next u ∧ Woken s u cause.val) ∧
    (¬ fires → exec .wakeTime s = .next s) ∧
    (fires → ∃ u, exec .wakeTime s = .next u ∧ u.on Reg.AON_CMP_wake_en 0 = false ∧
      Woken ((s.setRg Reg.AON_CMP_wake_en 0 0).edge 128) u 1 ∧ (calm → u.src 128 = afterEdge s 128)) ∧
    (∃ u, exec .tamper s = .next u ∧ u.secure.basin = [] ∧ u.on Reg.AON_STAT_tamper 0 = true ∧
      bit (u.rg Reg.AON_WAKE_cause 0) 5 = true ∧ u.power.lifeCycle = s.power.lifeCycle ∧
      (mode ≠ 5 → u.rg Reg.PWR_MODE_mode 0 = 4) ∧ (mode = 5 → s.rg Reg.PWR_MODE_depth 0 = 0 → u.rg Reg.PWR_MODE_mode 0 = 4) ∧
      (mode ≠ 4 → u.rg Reg.PWR_MODE_mode 0 = 4 → u.power.wiping = true) ∧
      (mode = 5 → s.rg Reg.PWR_MODE_depth 0 = 1 → u.rg Reg.PWR_MODE_mode 0 = 5 ∧ u.power.tamperPending = true ∧
        (s.power.perst = true → u.power.wakePin = true)) ∧
      ((∀ t < 16, s.loaded t = false ∧ (s.part t).openCmds = [] ∧ s.fetched.get t [] = []) →
        PowerAlarmed s u 0x00C 0 ∧ u.src 17 = afterEdge s 17))

/-- The voltage request moves in steps of 5 mV, down while power or temperature is at its limit, up while both are clear of it, and not at
all while AVSBus is down; the comparators, the power limit and the fatal conditions act as R522, R525, R527, R528, R558 and R560 say. A
request outside vmin to vmax comes back a step at a time, which is the model's reading (log entry 37). -/
def Obligations.VoltageAndComparators : Prop :=
  ∀ (s : State) (temp : BitVec 8) (mv : BitVec 10) (ok : Bool) (power : BitVec 16) (who : Requester) (v : Word),
    let r := s.rg Reg.PWR_VCORE_request 0
    let lo := s.rg Reg.PWR_VCORE_vmin 0
    let hi := s.rg Reg.PWR_VCORE_vmax 0
    let p := s.rg Reg.PWR_LIMIT_power 0
    let limit := 10 * s.rg Reg.PWR_LIMIT_limit 0
    let warn : Int := s.rg Reg.AON_CMP_temp_warn 0
    let die := (BitVec.ofNat 8 (s.rg Reg.AON_STAT_temp 0)).toInt
    let hot := limit ≤ p ∨ warn ≤ die
    let cool := 100 * p ≤ 95 * limit ∧ die < warn - 3
    let down := s.power.avsDown = true
    let calm := s.rg Reg.PWR_MODE_mode 0 ≠ 5 ∨ s.power.tamperPending = false
    let seen := measured s temp
    let warned := warn ≤ temp.toInt ∧ s.power.warned = false
    let awake := s.rg Reg.PWR_MODE_mode 0 = 5 ∧ s.rg Reg.PWR_MODE_depth 0 = 0 ∧ bit (s.rg Reg.AON_WAKE_EN_en 0) 6 = true
    let stray := r + 30 < mv.toNat ∨ mv.toNat + 30 < r
    let at_ : State := { s with power := { s.power with vddCore := mv.toNat } }
    let reported := ({ s with power := { s.power with avsDown := false } }).setRg Reg.PWR_LIMIT_power 0 power.toNat
    let lost : State := { s with power := { s.power with avsDown := true } }
    (down → exec .vcoreAdjust s = .next s) ∧
    (¬ down → lo ≤ r → r ≤ hi →
      (hot → lo + 5 ≤ r → exec .vcoreAdjust s = .next (s.setRg Reg.PWR_VCORE_request 0 (r - 5))) ∧
      (hot → r < lo + 5 → exec .vcoreAdjust s = .next s) ∧
      (¬ hot → cool → r + 5 ≤ hi → exec .vcoreAdjust s = .next (s.setRg Reg.PWR_VCORE_request 0 (r + 5))) ∧
      (¬ hot → (¬ cool ∨ hi < r + 5) → exec .vcoreAdjust s = .next s)) ∧
    (¬ down → lo ≤ hi → hi < r → ¬ hot → exec .vcoreAdjust s = .next (s.setRg Reg.PWR_VCORE_request 0 (max hi (r - 5)))) ∧
    (¬ down → lo ≤ hi → r < lo → exec .vcoreAdjust s = .next (s.setRg Reg.PWR_VCORE_request 0 (min lo (r + 5)))) ∧
    (Writable s who 0xD0000C → exec (.pwrLimit who v) s = .next (s.setRg Reg.PWR_LIMIT_limit 0 (max 60 (min 240 (v.toNat % 256))))) ∧
    (¬ warned → exec (.thermalWarning temp) s = .next seen) ∧
    (warned → calm → ∃ u, exec (.thermalWarning temp) s = .next u ∧ u.rg Reg.AON_STAT_temp 0 = temp.toNat ∧ u.power.warned = true ∧
      u.src 18 = afterEdge s 18 ∧ PowerAlarmed s u 0x00A temp.toNat ∧ bit (u.rg Reg.AON_WAKE_cause 0) 6 = true ∧
      (awake → u.rg Reg.PWR_MODE_mode 0 = 1) ∧ (¬ awake → u.rg Reg.PWR_MODE_mode 0 = s.rg Reg.PWR_MODE_mode 0)) ∧
    (temp.toInt < 110 → exec (.thermalTrip temp) s = .next seen) ∧
    (110 ≤ temp.toInt → ∃ u, exec (.thermalTrip temp) s = .next u ∧ u.rg Reg.AON_STAT_temp 0 = temp.toNat ∧ FatalTaken seen u 1) ∧
    (s.power.perst = true → exec .supplyAbsolute s = .next s) ∧
    (s.power.perst = false → ∃ u, exec .supplyAbsolute s = .next u ∧ FatalTaken s u 2) ∧
    (¬ stray → exec (.supplyWindow mv) s = .next at_) ∧
    (stray → ∃ u, exec (.supplyWindow mv) s = .next u ∧ SupplyEvent at_ u) ∧
    (down → exec (.avsbusPoll ok power) s = .next s) ∧
    (¬ down → exec (.avsbusRetry ok power) s = .next s) ∧
    (¬ down → ok = true → exec (.avsbusPoll ok power) s = .next reported) ∧
    (down → ok = true → exec (.avsbusRetry ok power) s = .next reported) ∧
    (¬ down → ok = false → ∃ u, exec (.avsbusPoll ok power) s = .next u ∧ SupplyEvent lost u) ∧
    (down → ok = false → ∃ u, exec (.avsbusRetry ok power) s = .next u ∧ SupplyEvent lost u)

/-- System time and wake time are set by a write of HI with the LO half held; AON_WAKE returns the causes and the PF's read clears them.
SMBus commands answer outside Bring-up and Sanitize, POWER not in Standby, and each accepted in Ready raises source 132 (R522, R523, R531,
R538, R539, R566). -/
def Obligations.AlwaysOnRegistersAndSmbus : Prop :=
  ∀ (s : State) (who : Requester) (v : Word) (w : BitVec 16) (b : Byte) (pec : Bool),
    let mode := s.rg Reg.PWR_MODE_mode 0
    let off := mode = 0 ∨ mode = 4
    let causes := s.rg Reg.AON_WAKE_cause 0
    let p := s.power
    let mine := who = .pf ∧ s.on Reg.AON_TSYNC_en 0 = false
    let status := mode + s.rg Reg.SEC_LC_state 0 * 16 + s.rg Reg.AON_STAT_tamper 0 * 64
    let die := (BitVec.signExtend 16 (BitVec.ofNat 8 (s.rg Reg.AON_STAT_temp 0))).toNat
    let watts := s.rg Reg.PWR_LIMIT_power 0
    let limit := s.rg Reg.PWR_LIMIT_limit 0
    let last := s.rg Reg.AON_WAKE_LAST_cause 0
    let limited := s.setRg Reg.PWR_LIMIT_limit 0 (max 60 (min 240 w.toNat))
    (Writable s who 0xD00044 → mine →
      exec (.aonTimeHi who v) s = .next { s with power := { p with time := v.toNat * 2 ^ 32 + p.timeLo.toNat, frac := 0, slewTo := none } }) ∧
    (Writable s who 0xD00044 → who = .pf → ¬ mine → exec (.aonTimeHi who v) s = .next s) ∧
    (Writable s who 0xD00044 → who ≠ .pf → exec (.aonTimeHi who v) s = .next (s.refuse who 2 0xD00044)) ∧
    (Writable s who 0xD00050 →
      exec (.aonWakeTimeHi who v) s = .next { s with power := { p with wakeTime := v.toNat * 2 ^ 32 + p.wakeLo.toNat } }) ∧
    (Readable s who 0xD0005C → who = .pf → exec (.aonWake who) s = .next ((s.setRg Reg.AON_WAKE_cause 0 0).answer causes)) ∧
    (Readable s who 0xD0005C → who ≠ .pf → exec (.aonWake who) s = .next (s.answer causes)) ∧
    (off → exec .smbStatus s = .next s ∧ exec .smbTemp s = .next s ∧ exec .smbPower s = .next s ∧ exec .smbWakeCause s = .next s ∧
      exec (.smbPlimit none pec) s = .next s ∧ exec (.smbPlimit (some w) pec) s = .next s ∧ exec (.smbWake b pec) s = .next s) ∧
    (¬ off → mode ≠ 1 → exec .smbStatus s = .next (s.answer status) ∧ exec .smbTemp s = .next (s.answer die) ∧
      exec .smbWakeCause s = .next (s.answer last) ∧ exec (.smbPlimit none pec) s = .next (s.answer limit)) ∧
    (mode = 2 ∨ mode = 3 → exec .smbPower s = .next (s.answer watts)) ∧
    (mode = 5 → exec .smbPower s = .next s) ∧
    (mode = 1 → (∃ u, exec .smbStatus s = .next u ∧ Raised (s.answer status) u 132) ∧
      (∃ u, exec .smbTemp s = .next u ∧ Raised (s.answer die) u 132) ∧
      (∃ u, exec .smbPower s = .next u ∧ Raised (s.answer watts) u 132) ∧
      (∃ u, exec .smbWakeCause s = .next u ∧ Raised (s.answer last) u 132) ∧
      (∃ u, exec (.smbPlimit none pec) s = .next u ∧ Raised (s.answer limit) u 132)) ∧
    (¬ off → pec = false → exec (.smbPlimit (some w) pec) s = .next s) ∧
    (¬ off → pec = true → mode ≠ 1 → exec (.smbPlimit (some w) pec) s = .next limited) ∧
    (pec = true → mode = 1 → ∃ u, exec (.smbPlimit (some w) pec) s = .next u ∧ Raised limited u 132) ∧
    (pec = false ∨ b ≠ 1 → exec (.smbWake b pec) s = .next s) ∧
    (¬ off → pec = true → b = 1 → mode ≠ 1 → ∃ u, exec (.smbWake b pec) s = .next u ∧ Woken s u 2) ∧
    (pec = true → b = 1 → mode = 1 → ∃ u, exec (.smbWake b pec) s = .next u ∧ Raised (latched s 2) u 132)

/-- A basin goes to a new owner by its owner's write or keeper 0's in ring 0, outside the modes in which service owns every basin; the
secure basin goes to keeper 0 or the test controller alone (R518, R519). PWR_PLANK puts a unit behind stop planks, for the PF in Ready with
no partition loaded; else it is rejected (R328, R331, R485, R539; the naming of lanes and links is read as log entry 39 says). -/
def Obligations.BasinsAndPlanks : Prop :=
  ∀ (s : State) (who : Requester) (v : Word) (b : Nat),
    let mode := s.rg Reg.PWR_MODE_mode 0
    let owner := v.toNat % 8
    let kept_ := s.setRg Reg.PWR_BASIN_OWN_refused b (if bit v.toNat 31 = true then 0 else s.rg Reg.PWR_BASIN_OWN_refused b)
    let shut := mode = 1 ∨ mode = 2 ∨ mode = 5 ∨ 5 ≤ owner ∨ (b / 512 = 5 ∧ owner ≠ 1 ∧ owner ≠ 3)
    let mine := s.basinOwner b = s.ownerCode who ∨ (s.isKeeper0 who = true ∧ ringOf who = 0)
    let own := exec (.pwrBasinOwn who v) s
    let able := Writable s who 0xD00020
    let plank := exec (.pwrPlank who v) s
    let go := bit v.toNat 31 = true
    let cleared := if bit v.toNat 30 = true then 0 else s.rg Reg.PWR_PLANK_rejected 0
    let s1 := s.setRg Reg.PWR_PLANK_rejected 0 cleared
    let heard := who = .pf ∧ mode = 1 ∧ ∀ t < 16, s.loaded t = false
    let cls := bits v.toNat 26 4
    let i := bits v.toNat 17 9
    let unit := s.rg Reg.PWR_PLANK_UNIT_unit 0
    let page := i * 2 ^ 22 + unit % 2 ^ 22
    let lane := unit % 8
    let taken := Writable s who 0xD00024 ∧ go ∧ heard
    let same := fun (u : State) => u.rg Reg.PWR_PLANK_rejected 0 = cleared ∧ AlarmStored s u (retiredAlarm s cls i unit)
    (able → s.selBasin who = none → own = .next s) ∧
    (able → s.selBasin who = some b → shut → own = .next kept_) ∧
    (able → s.selBasin who = some b → ¬ shut → mine → own = .next (kept_.setRg Reg.PWR_BASIN_OWN_owner b owner)) ∧
    (able → s.selBasin who = some b → ¬ shut → ¬ mine → own = .next (kept_.refuse who 2 0xD00020)) ∧
    (Writable s who 0xD00024 → ¬ go → plank = .next s1) ∧
    (Writable s who 0xD00024 → go → ¬ heard → plank = .next (s1.setRg Reg.PWR_PLANK_rejected 0 1)) ∧
    (taken → (cls ≤ 2 ∧ 408 ≤ i) ∨ (3 ≤ cls ∧ cls ≤ 5 ∧ 24 ≤ i) ∨ (cls = 6 ∧ 2 ≤ i) ∨ (cls = 7 ∧ 16 ≤ i) ∨ 8 ≤ cls →
      plank = .next (s1.setRg Reg.PWR_PLANK_rejected 0 1)) ∧
    (taken → cls ≤ 2 → i < 408 → ∃ u, plank = .next u ∧ u.on Reg.CLU_ROLE_retired i = true ∧ same u ∧
      u.clusters = s.clusters ∧ u.reaches = s.reaches) ∧
    (taken → cls = 3 ∨ cls = 4 → i < 24 → ∃ u, plank = .next u ∧ RchIs s u i { s.rch i with retired := true } ∧ same u ∧
      u.clusters = s.clusters) ∧
    (taken → cls = 5 → i < 24 → ∃ u, plank = .next u ∧
      RchIs s u i { s.rch i with waysOff := (unit % 16) :: (s.rch i).waysOff.filter (· ≠ unit % 16) } ∧ same u ∧ u.clusters = s.clusters) ∧
    (taken → cls = 6 → i < 2 → ∃ u, plank = .next u ∧ page ∈ u.pagesRetired ∧ (∀ n ∈ s.pagesRetired, n ∈ u.pagesRetired) ∧
      (∀ n ∈ u.pagesRetired, n = page ∨ n ∈ s.pagesRetired) ∧ same u ∧ u.reaches = s.reaches) ∧
    (taken → cls = 7 → i < 16 → lane < 5 → s.on Reg.AQ_STATUS_spare_used i = false → ∃ u, plank = .next u ∧
      u.on Reg.AQ_STATUS_spare_used i = true ∧
      (bits (s.rg Reg.AQ_LANEMAP_tx_map i) 0 12 = s.rg Reg.AQ_LANEMAP_tx_map i → u.rg Reg.AQ_LANEMAP_tx_map i = remapped (s.rg Reg.AQ_LANEMAP_tx_map i) lane) ∧
      (bits (s.rg Reg.AQ_LANEMAP_rx_map i) 0 12 = s.rg Reg.AQ_LANEMAP_rx_map i → u.rg Reg.AQ_LANEMAP_rx_map i = remapped (s.rg Reg.AQ_LANEMAP_rx_map i) lane) ∧
      AlarmStored s u (retiredAlarm s 7 i lane) ∧ u.links = s.links) ∧
    (taken → cls = 7 → i < 16 → (5 ≤ lane ∨ s.on Reg.AQ_STATUS_spare_used i = true) → s.rg Reg.AQ_STATUS_state i ≠ 9 →
      ∃ u, plank = .next u ∧ Retired s u i ∧ u.rg Reg.PWR_PLANK_rejected 0 = cleared)

/-- A life-cycle request is accepted from the PF in Ready with no partition loaded, its confirm word right and its transition one of R533;
it enters Sanitize, which blows the fuse; any other is rejected. A key is installed in a free slot as the life cycle allows it, plain or
opened under the key-encryption key, or erased; every go wipes the staging area (R532 to R534, R536, R537). -/
def Obligations.LifeCycleAndKeys : Prop :=
  ∀ (s : State) (who : Requester) (v w : Word),
    let request := exec (.secLcReq who v) s
    let able := Writable s who 0xD00084
    let go := bit v.toNat 31 = true
    let target := v.toNat % 4
    let s1 := s.setRg Reg.SEC_LC_REQ_rejected 0 (if bit v.toNat 30 = true then 0 else s.rg Reg.SEC_LC_REQ_rejected 0)
    let legal := who = .pf ∧ s.rg Reg.PWR_MODE_mode 0 = 1 ∧ (∀ t < 16, s.loaded t = false) ∧ bits v.toNat 16 12 = 0xA5C ∧
      (s.rg Reg.SEC_LC_state 0, target) ∈ [(0, 1), (1, 2), (1, 3), (2, 3)]
    let key := exec (.keyInstall who v) s
    let open_ := Writable s who 0xD00088
    let slot := v.toNat % 128
    let tenant := bits v.toNat 16 4
    let wrapped := bit v.toNat 20
    let erase := bit v.toNat 24 = true
    let lc := s.rg Reg.SEC_LC_state 0
    let refused := lc = 0 ∨ lc = 3 ∨ (lc = 2 ∧ wrapped = false) ∨ (wrapped = true ∧ s.on Reg.SEC_LC_kek_ok 0 = false)
    let blob := s.secure.staging.flatMap fun x => leBytes 4 x.toNat
    let n := if slot < 64 then 32 else 48
    let part := fun (off k : Nat) => (List.range k).map fun i => blob.getD (off + i) 0
    let opened := Config.gcmOpen Config.kek (part 0 12) (leBytes 2 slot ++ leBytes 2 tenant) (part 12 n) (part (12 + n) 16)
    let works := open_ ∧ go ∧ slot < 80
    let held := fun (u : State) => u.secure.basin = s.secure.basin
    (able → ¬ go → request = .next s1) ∧
    (able → go → ¬ legal → request = .next (s1.setRg Reg.SEC_LC_REQ_rejected 0 1)) ∧
    (able → go → legal → ∃ u, request = .next u ∧ IntoSanitize s u (some target) ∧ u.power.lifeCycle = s.power.lifeCycle) ∧
    (exec (.keyErase who v) s = key ∧ exec (.stagingReset who v) s = key) ∧
    (open_ → ¬ go → ∃ u, key = .next u ∧ KeyDone s u v (s.rg Reg.SEC_KEY_CTRL_status 0) ∧ held u) ∧
    (open_ → go → 80 ≤ slot → ∃ u, key = .next u ∧ KeyDone s u v 2 ∧ held u) ∧
    (works → erase → ∃ u, key = .next u ∧ KeyDone s u v 0 ∧
      CellsAt s.secure.basin u.secure.basin (keyPlace slot).1 (List.replicate (keyPlace slot).2 0)) ∧
    (works → ¬ erase → refused → ∃ u, key = .next u ∧ KeyDone s u v 2 ∧ held u) ∧
    (works → ¬ erase → ¬ refused → keyValid s slot = true → ∃ u, key = .next u ∧ KeyDone s u v 3 ∧ held u) ∧
    (works → ¬ erase → ¬ refused → keyValid s slot = false → wrapped = false → ∃ u, key = .next u ∧ KeyDone s u v 0 ∧
      CellsAt s.secure.basin u.secure.basin (keyPlace slot).1 (keyCells slot tenant (part 0 n))) ∧
    (works → ¬ erase → ¬ refused → keyValid s slot = false → wrapped = true → opened = none →
      ∃ u, key = .next u ∧ KeyDone s u v 1 ∧ held u) ∧
    (∀ k ∈ opened, works → ¬ erase → ¬ refused → keyValid s slot = false → wrapped = true → ∃ u, key = .next u ∧ KeyDone s u v 0 ∧
      CellsAt s.secure.basin u.secure.basin (keyPlace slot).1 (keyCells slot tenant k)) ∧
    (Writable s who 0xD0008C → exec (.secKeyData who w) s = .next (if s.secure.staging.length < 32 then
      { s with secure := { s.secure with staging := s.secure.staging ++ [w] } } else s))

/-- The boundary-scan port. Five rising edges with TMS high, or TRST#, end in Test-Logic-Reset with IDCODE selected; the registers capture
and shift, TDO and updates change on falling edges; every other opcode acts as BYPASS, EXTEST too unless PERST# is asserted; nothing else of
the device changes (R569, R570; states and edges are those of IEEE 1149.1, log entry 40). -/
def Obligations.TapPort : Prop :=
  ∀ (s : State) (tms tdi : Bool) (pins : BitVec 15),
    let x := s.tap
    let idcode := x.ir = 0b00001#5
    let scan := x.ir = 0b00010#5 ∨ (x.ir = 0b00000#5 ∧ s.power.perst = true)
    let bypass := ¬ idcode ∧ ¬ scan
    let inBit := if tdi = true then 1 else 0
    let rise := exec (.tapClock true tms tdi pins) s
    let fall := exec (.tapClock false tms tdi pins) s
    let moved := fun (y : Tap) => ({ s with tap := tapMoved x tms y } : State)
    let at_ := fun (y : Tap) => ({ s with tap := y } : State)
    (x.st ∉ [.captureIr, .shiftIr, .captureDr, .shiftDr] → rise = .next (moved x)) ∧
    (x.st = .captureIr → rise = .next (moved { x with irShift := 0b00001#5 })) ∧
    (x.st = .shiftIr → rise = .next (moved { x with irShift := BitVec.ofNat 5 (x.irShift.toNat / 2 + 16 * inBit) })) ∧
    (x.st = .captureDr → idcode → rise = .next (moved { x with drShift := 0xB0007A35#32 })) ∧
    (x.st = .captureDr → scan → rise = .next (moved { x with boundary := pins })) ∧
    (x.st = .captureDr → bypass → rise = .next (moved { x with drShift := 0 })) ∧
    (x.st = .shiftDr → idcode → rise = .next (moved { x with drShift := BitVec.ofNat 32 (x.drShift.toNat / 2 + 2 ^ 31 * inBit) })) ∧
    (x.st = .shiftDr → scan → rise = .next (moved { x with boundary := BitVec.ofNat 15 (x.boundary.toNat / 2 + 2 ^ 14 * inBit) })) ∧
    (x.st = .shiftDr → bypass → rise = .next (moved { x with drShift := BitVec.ofNat 32 inBit })) ∧
    (x.st = .shiftIr → fall = .next (at_ { x with tdo := x.irShift.getLsbD 0 })) ∧
    (x.st = .shiftDr → scan → fall = .next (at_ { x with tdo := x.boundary.getLsbD 0 })) ∧
    (x.st = .shiftDr → ¬ scan → fall = .next (at_ { x with tdo := x.drShift.getLsbD 0 })) ∧
    (x.st = .updateIr → fall = .next (at_ { x with ir := x.irShift })) ∧
    (x.st = .updateDr → scan → fall = .next (at_ { x with update := x.boundary })) ∧
    (x.st = .updateDr → ¬ scan → fall = .next s) ∧
    (x.st ∉ [.shiftIr, .shiftDr, .updateIr, .updateDr] → fall = .next s) ∧
    exec .trstAssert s = .next (at_ { x with st := .reset, ir := 0b00001#5 }) ∧
    (∃ a, exec (.tapClock true true tdi pins) s = .next a ∧ ∃ b, exec (.tapClock true true tdi pins) a = .next b ∧
      ∃ c, exec (.tapClock true true tdi pins) b = .next c ∧ ∃ d, exec (.tapClock true true tdi pins) c = .next d ∧
      ∃ u, exec (.tapClock true true tdi pins) d = .next u ∧ u.tap.st = .reset ∧ u.tap.ir = 0b00001#5)

/-- WHF_TCTRL.preset removes the tenant's partition on this device, its commands ending with 0x21, its faults kept; an FLR does so and
returns the function's page to its Reset values; the PF's reaches every function, and DL_Down acts as one (R450 to R452, R512). -/
def Obligations.FunctionResets : Prop :=
  ∀ (s : State) (fn : Fin 16) (v : Word),
    let f := fn.val
    let there := FnServed s f ∧ LinkUp s
    let answers := TakesCommands s ∨ s.rg Reg.PWR_MODE_mode 0 = 3
    let served := there ∧ answers
    let preset := bit v.toNat 31 = true
    let done_ := exec (.preset fn v) s
    let keys := [fieldKey Reg.WHF_TCTRL_notify_lock f 0, fieldKey Reg.WHF_TCTRL_coalesce f 0, fieldKey Reg.WHF_TCTRL_psb_interval f 0]
    let set := fun (u : State) => u.on Reg.WHF_TCTRL_notify_lock f = bit v.toNat 24 ∧ u.rg Reg.WHF_TCTRL_coalesce f = bits v.toNat 16 8 ∧
      u.rg Reg.WHF_TCTRL_psb_interval f = v.toNat % 65536
    let x := s.part f
    let q := 8 * f + 3
    (there → ¬ answers → done_ = .next (replyOf s 0)) ∧
    (served → ¬ preset → ∃ u, done_ = .next u ∧ set u ∧ RegsBut s u keys ∧ { u with regs := s.regs } = replyOf s 0) ∧
    (served → preset → s.loaded f = true → ∃ u, done_ = .next u ∧ set u ∧ Removed s u f ∧ PartGone s u f ∧
      (s.multi f = false → u.faults = s.faults)) ∧
    (served → preset → s.loaded f = false → x.openCmds = [] → s.fetched.get f [] = [] → x.bound = [] → ∃ u, done_ = .next u ∧ set u ∧
      QueueIs s u q { s.queue q with held := [] } ∧ RegsBut s u keys ∧ u.faults = s.faults ∧ u.clusters = s.clusters ∧ u.reaches = s.reaches) ∧
    (∀ c ∈ x.openCmds.head?, served → preset → x.openCmds.tail = [] → s.fetched.get f [] = [] → bit v.toNat 24 = false → bits v.toNat 16 8 = 0 →
      s.on Reg.WHF_TCTRL_notify_lock f = false → s.rg Reg.WHF_TCTRL_coalesce f = 0 →
      ∃ u, done_ = .next u ∧ CompletionPosted s u f (completionBytes s f c.cmdId 0x21 0 0 0 0)) ∧
    (s.rg Reg.PWR_MODE_mode 0 = 0 → exec (.flr fn) s = .next (replyOf s 2)) ∧
    (s.rg Reg.PWR_MODE_mode 0 ≠ 0 → LinkUp s → ¬ FnPresent s f → exec (.flr fn) s = .next (replyOf s 1)) ∧
    (s.rg Reg.PWR_MODE_mode 0 ≠ 0 → LinkUp s → FnPresent s f → f ≠ 0 → x.bound = [] ∨ s.loaded f = true →
      ∃ u, exec (.flr fn) s = .next u ∧ FunctionReset s u f ∧
        PartsBut s u [f] ∧ u.keepers = s.keepers ∧ (∀ g < 16, g ≠ f → u.fn g = s.fn g ∧ u.faults.get g [] = s.faults.get g [])) ∧
    (s.rg Reg.PWR_MODE_mode 0 ≠ 0 → LinkUp s → f = 0 → (∀ t < 16, (s.part t).bound = [] ∨ s.loaded t = true) →
      ∃ u, exec (.flr fn) s = .next u ∧ (∀ g < 16, FunctionReset s u g) ∧ u.keepers = s.keepers) ∧
    ((∀ t < 16, (s.part t).bound = [] ∨ s.loaded t = true) →
      ∃ u, exec .pcieDlDown s = .next u ∧ (∀ g < 16, FunctionReset s u g) ∧ u.power = { s.power with linkState := 0 } ∧
        (u.src 134).pending = true)

/-- LOAD is turned away in a mode, tenant or length that does not allow it, and where a read of the container fails; else the checks of R145
decide: the first that fails gives the status and leaves nothing behind, and an image that passes them all stands in its reaches and the
partition is in Loading (R145 to R147, R431, R505, R535). LOAD_EXPORT restores an export that matches and ends with 0x17 one that does not
(R310, R433). -/
def Obligations.LoadingImages : Prop :=
  ∀ (s : State) (t : Fin 16) (cmd : BitVec 16) (length : Nat) (l : List Byte) (fails : Bool),
    let load := exec (.load t cmd length l fails) s
    let begun := begunCmd s t.val
    let mode := s.rg Reg.PWR_MODE_mode 0
    let free := (s.part t.val).openCmds = [] ∧ EntrySays s t.val cmd 1 [(0x10, 8, length)] ∧ (s.fn t.val).d3hot = false
    let ended := fun (status : Nat) => begun.setRg Reg.WHF_TSTAT_load_status t.val status
    let ready := free ∧ mode = 1 ∧ s.on Reg.AON_STAT_tamper 0 = false
    let noHeader := fails = true ∧ l.length < 0x40
    let whole := fails = false ∧ l.length = length
    let goes := ready ∧ s.loaded t.val = false ∧ whole ∧ length = sliceLe l 0x38 8
    let r := s.check t.val l
    let id := sliceLe l 0x10 8
    let section_ := if 9 ≤ r.status ∧ r.status ≤ 13 then r.index else 0
    let export_ := exec (.loadExport t cmd l) s
    let canExport := Accepted s t.val cmd 11 [(0x10, 8, l.length)] [1] ∧ (s.fn t.val).d3hot = false
    let lock := sliceLe l 4 3
    (¬ free → load = .next s) ∧
    (mode = 0 ∨ mode = 4 ∨ mode = 5 → load = .next s) ∧
    (free → (mode = 2 ∨ mode = 3 ∨ (mode = 1 ∧ s.on Reg.AON_STAT_tamper 0 = true)) →
      ∃ u, load = .next u ∧ Completes (ended 0x10) u t.val cmd 0x10 0) ∧
    (ready → s.loaded t.val = true → ∃ u, load = .next u ∧ Completes (ended 0x11) u t.val cmd 0x11 0) ∧
    (ready → s.loaded t.val = false → noHeader → ∃ u, load = .next u ∧ Completes (ended 0x12) u t.val cmd 0x12 0) ∧
    (ready → s.loaded t.val = false → ¬ noHeader → length ≠ sliceLe l 0x38 8 → ∃ u, load = .next u ∧ Completes (ended 0x13) u t.val cmd 0x13 0) ∧
    (ready → s.loaded t.val = false → ¬ noHeader → length = sliceLe l 0x38 8 → ¬ whole →
      ∃ u, load = .next u ∧ Completes (ended 0x12) u t.val cmd 0x12 0) ∧
    (goes → (l.length < 256 ∨ crcOf 0 (l.take 252) ≠ sliceLe l 252 4) → r.status = 1) ∧
    (goes → r.status ≠ 0 → ∃ u, load = .next u ∧ LoadUndone s u t.val r.status ∧
      CompletionPosted s u t.val (completionBytes s t.val cmd.toNat r.status 0 id section_ 0)) ∧
    (goes → r.status = 0 → sliceLe l 0x2F 1 < 4 → s.on Reg.TST_FLIP_arm = false → ∃ u, load = .next u ∧ ImageLoaded s u t.val l ∧
      CompletionPosted s u t.val (completionBytes s t.val cmd.toNat 0 0 id 0 0)) ∧
    (goes → r.status = 0 → ∃ u, load = .next u ∧
      (u.rg Reg.WHF_TSTAT_load_status t.val = 0 ∨ u.rg Reg.WHF_TSTAT_load_status t.val = 0x0E)) ∧
    (canExport → s.exportMatches t.val l = false → ∃ u, export_ = .next u ∧ Completes begun u t.val cmd 0x17 0) ∧
    (canExport → s.exportMatches t.val l = true → NoHooks s t.val → ∃ u, export_ = .next u ∧
      u.rg Reg.LCK_CKPTt_newest t.val = lock ∧ (u.part t.val).startLock = lock ∧ (u.part t.val).openCmds = [] ∧
      u.rg Reg.WHF_TSTAT_mode t.val = 1 ∧ CompletionPosted s u t.val (completionBytes s t.val cmd.toNat 0 0 lock 0 0))

/-- A memory request to a function that does not serve it is an Unsupported Request: a write is dropped, a read answers all ones. Each write
or read of a register meets the one effect that the register's own command has, whoever makes it; a write with a byte enable clear is
discarded and recorded with reason 3; an address that no register occupies reads zero and discards (R420, R421, R541, R544, R550). -/
def Obligations.BusAccess : Prop :=
  ∀ (s : State) (who : Requester) (fn : Fin 16) (bar2 : Bool) (offset : BitVec 25) (v : Word) (enables : BitVec 4),
    let write := fun (a : BitVec 25) => exec (.registerWrite who a v 0xF#4) s
    let served := FnServed s fn.val ∧ (bar2 = true ∨ fn.val = 0)
    let p := replyOf s 0
    let door := fun (a : BitVec 25) => exec (.memoryRequest fn true a (some v)) s
    let read := fun (a : BitVec 25) => exec (.memoryRequest 0 false a none) s
    let dword := offset.toNat / 4 * 4
    let hole := regAt dword = none
    (¬ served → LinkUp s → exec (.memoryRequest fn bar2 offset (some v)) s = .next (unsupportedBy s fn.val) ∧
      exec (.memoryRequest fn bar2 offset none) s = .next ((unsupportedBy s fn.val).answer 0xFFFFFFFF)) ∧
    (LinkUp s → enables ≠ 0xF#4 → s.barOpen .pf dword true = true →
      exec (.registerWrite .pf offset v enables) s = .next (s.refuse .pf 3 dword)) ∧
    (hole → who ≠ .pf → write offset = .next s) ∧
    (hole → LinkUp s → s.barOpen .pf dword true = true → exec (.memoryRequest 0 false offset (some v)) s = .next p) ∧
    (hole → LinkUp s → s.barOpen .pf dword false = true → read offset = .next (p.answer 0)) ∧
    (exec (.memoryRequest 0 false offset (some v)) s = exec (.registerWrite .pf offset v 0xF#4) p) ∧
    (Writable s who 0xD00028 → write 0xD00028#25 = .next (s.setRg Reg.PWR_PLANK_UNIT_unit 0 v.toNat)) ∧
    (write 0x10000C#25 = exec (.cluCtrlEnable who v) s ∧ write 0x100024#25 = exec (.cluResume who v) s ∧
      write 0x200008#25 = exec (.rchCtrlEnable who v) s ∧ write 0x400008#25 = exec (.aqEnable who v) s ∧
      write 0x400038#25 = exec (.aqMargin who v) s ∧ write 0x600004#25 = exec (.tstFlip who v) s) ∧
    (write 0x700004#25 = exec (.kprCtrlRun who v) s ∧ write 0x800008#25 = exec (.irqScause who v) s) ∧
    (write 0xD00000#25 = exec (.readyRequest who v) s ∧ write 0xD00004#25 = exec (.devReset who v) s ∧
      write 0xD0000C#25 = exec (.pwrLimit who v) s ∧ write 0xD00020#25 = exec (.pwrBasinOwn who v) s ∧
      write 0xD00024#25 = exec (.pwrPlank who v) s ∧ write 0xD00044#25 = exec (.aonTimeHi who v) s ∧
      write 0xD00050#25 = exec (.aonWakeTimeHi who v) s ∧ write 0xD00084#25 = exec (.secLcReq who v) s ∧
      write 0xD00088#25 = exec (.keyInstall who v) s ∧ write 0xD0008C#25 = exec (.secKeyData who v) s) ∧
    (read 0xD0005C#25 = exec (.aonWake .pf) p ∧ read 0x100040#25 = exec (.cluCntBank .pf) p ∧
      read 0x600018#25 = exec (.tstElogA .pf) p ∧ read 0x200094#25 = exec (.gauMatch .pf) p) ∧
    (door 0#25 = exec (.whfSqTail fn v) s ∧ door 4#25 = exec (.whfCqHead fn v) s ∧ door 8#25 = exec (.whfFqHead fn v) s ∧
      door 12#25 = exec (.whfOqHead fn v) s ∧ door 16#25 = exec (.whfAreaHead fn v) s ∧ door 32#25 = exec (.whfStop fn v) s ∧
      door 76#25 = exec (.whfQcfg fn v) s ∧ door 84#25 = exec (.preset fn v) s)

/-- With no command waiting, nothing of its own to deliver and no supervisor at work, a step counts one period of the clock that system time
counts, at half rate while a COMMIT's target, which runs on at full rate, is behind; the trace records that waited are in the ring; a running keeper timer counts the microseconds that it completes and stops at 0 with
its source pending; nothing else changes (R383, R523, R524). That a step without a command is such a period is the model's choice (log entry
6). -/
def Obligations.IdleStepCountsTime : Prop :=
  ∀ s : State, s.pending = [] → s.ownBarges = [] → s.supervised = false →
    let p := s.power
    let period := if s.rg Reg.PWR_DOM_state 30 = 1 then 4096 else 30517 * 640 + 370
    let now := 640 * p.time + p.frac
    let next := match p.slewTo with | none => now + period | some x => max (now + period / 2) (x + period)
    ∃ t, step s = .next t ∧
      { t with power := p, regs := s.regs, irq := s.irq, msix := s.msix, hostOut := s.hostOut, weir := s.weir } = s ∧
      t.weir = { s.weir with inQueue := 0 } ∧
      RegsBut s t ((List.range 8).flatMap fun i => [fieldKey Reg.KPR_TMRk_run i 0, fieldKey Reg.KPR_TMRk_count i 0]) ∧
      (∀ i < 8, let n := t.power.time / 1000 - p.time / 1000
        (s.on Reg.KPR_TMRk_run i = false → t.rg Reg.KPR_TMRk_run i = s.rg Reg.KPR_TMRk_run i ∧
          t.rg Reg.KPR_TMRk_count i = s.rg Reg.KPR_TMRk_count i) ∧
        (s.on Reg.KPR_TMRk_run i = true → n = 0 ∨ n < s.rg Reg.KPR_TMRk_count i →
          t.on Reg.KPR_TMRk_run i = true ∧ t.rg Reg.KPR_TMRk_count i = s.rg Reg.KPR_TMRk_count i - n) ∧
        (s.on Reg.KPR_TMRk_run i = true → 0 < n → s.rg Reg.KPR_TMRk_count i ≤ n →
          t.on Reg.KPR_TMRk_run i = false ∧ t.rg Reg.KPR_TMRk_count i = 0 ∧ (t.src (1024 + 16 * (i / 2) + i % 2)).pending = true)) ∧
      { t.power with time := p.time, frac := p.frac, slewTo := p.slewTo } = p ∧
      640 * t.power.time + t.power.frac = next % (640 * 2 ^ 64) ∧ t.power.frac < 640 ∧
      (p.slewTo = none → t.power.slewTo = none) ∧
      (∀ x ∈ p.slewTo, t.power.slewTo = if x + period < next then some (x + period) else none)

/-- Right after a power-on reset: Bring-up at system time 0, no partition, no command waiting, every domain Off and clamped, and registers
at the values of their Reset columns, those of the always-on domain among them (R10, R375, R505, R512, R515, R518, R522, R539). -/
def Obligations.ResetState : Prop :=
  let s := State.reset
  s.pending = [] ∧ s.parts = [] ∧ s.hbm = [] ∧ s.power.time = 0 ∧ s.power.bringUp = [] ∧
  s.rg Reg.PWR_MODE_mode 0 = 0 ∧ s.rg Reg.PWR_RST_kind 0 = 0 ∧ s.rg Reg.PWR_RST_error 0 = 0 ∧
  s.rg Reg.PWR_LIMIT_limit 0 = 240 ∧ s.rg Reg.PWR_VCORE_request 0 = 850 ∧ s.rg Reg.PWR_VCORE_vmax 0 = 850 ∧
  s.rg Reg.PWR_VCORE_vmin 0 = 650 ∧ s.rg Reg.AON_CMP_temp_warn 0 = 100 ∧ s.on Reg.AON_CMP_supply_en 0 = true ∧
  s.on Reg.AON_CMP_wake_en 0 = false ∧ s.rg Reg.AON_WAKE_EN_en 0 = 7 ∧
  (∀ d < 35, s.rg Reg.PWR_DOM_state d = 0 ∧ s.rg Reg.PWR_DOM_clamped d = 1) ∧
  (∀ b < 4096, s.basinOwner b = 3) ∧
  (∀ r < 24, s.on Reg.RCH_OWNER_bound r = false ∧ s.rg Reg.CLU_ROLE_role (17 * r + 16) = 0x1F ∧
    ∀ p < 16, s.rg Reg.CLU_ROLE_role (17 * r + p) = p) ∧
  (∀ k < 4, s.on Reg.KPR_CTRL_run k = false) ∧ s.on Reg.KPR_CTRL_rom_fetch 0 = true ∧
  (∀ t < 16, s.rg Reg.WHF_TSTAT_mode t = 0 ∧ s.rg Reg.WHF_TCTRL_psb_interval t = 10 ∧ ∀ k < 8,
    s.on Reg.WHF_QCFG_enable (8 * t + k) = false ∧ s.rg Reg.WHF_QCFG_size_log2 (8 * t + k) = 4) ∧
  (∀ l < 16, s.rg Reg.AQ_STATUS_state l = 0) ∧ s.memWf = true

/-- The check values of the four CRCs, and the slot of the worked example, read from its six cells and written back to them (R2, R82, R91,
R94, R465). -/
def Obligations.WorkedExamples : Prop :=
  let ascii : List Byte := [0x31, 0x32, 0x33, 0x34, 0x35, 0x36, 0x37, 0x38, 0x39]
  let slot := slotOfCells [0x600, 0x777, 0x705, 0x057, 0x577, 0x204]
  crcOf 0 ascii = 0xE3069283 ∧ crcOf 1 ascii = 0xCBF43926 ∧ crcOf 2 ascii = 0x906E ∧ crcOf 3 ascii = 0x6C40DF5F0B497347 ∧
  decodeSlot slot = some (.word .adds 0x15DC 0x15DC 0x15DD ⟨0b11011, false⟩ 0) ∧
  encodeSlot (.word .adds 0x15DC 0x15DC 0x15DD ⟨0b11011, false⟩ 0) = slot ∧
  operandOf 0x15DC = .cell 1500 ∧ operandOf 0x15DD = .cell 1501 ∧
  wordResult .adds 2030 10 0 false = (2040, false) ∧ wordResult .adds 2040 15 0 false = (2047, true) ∧
  wordResult .adds 0x7FF 0xF9C 0 false = (0x79B, false) ∧ wordResult .adds 0x79B 0x800 0 false = (0xF9B, false)

/-- Every step keeps every addressed memory of the device in its canonical form: addresses rising, and no entry equal to what an unlisted
address reads as. -/
def Obligations.EveryStepKeepsMemoryForm : Prop :=
  ∀ s t : State, s.memWf = true → step s = .next t → t.memWf = true
end

