-- ==== Sys2Proof/Laws/State.lean ====
section
/-!
SUPPORT. Sys2Proof/Laws/State.lean: each basic update of the state changes one field and leaves the others, one lemma for each
field and update.
-/
namespace Sys2Proof.Machine

/-! ### setRg -/

@[simp] theorem State.setRg_pending (s : State) (f : Field) (i v : Nat) : (s.setRg f i v).pending = s.pending := rfl
@[simp] theorem State.setRg_regs (s : State) (f : Field) (i v : Nat) : (s.setRg f i v).regs = s.regs.put (fieldKey f i 0) (v % 2 ^ f.width) := rfl
@[simp] theorem State.setRg_clusters (s : State) (f : Field) (i v : Nat) : (s.setRg f i v).clusters = s.clusters := rfl
@[simp] theorem State.setRg_reaches (s : State) (f : Field) (i v : Nat) : (s.setRg f i v).reaches = s.reaches := rfl
@[simp] theorem State.setRg_dir (s : State) (f : Field) (i v : Nat) : (s.setRg f i v).dir = s.dir := rfl
@[simp] theorem State.setRg_parts (s : State) (f : Field) (i v : Nat) : (s.setRg f i v).parts = s.parts := rfl
@[simp] theorem State.setRg_links (s : State) (f : Field) (i v : Nat) : (s.setRg f i v).links = s.links := rfl
@[simp] theorem State.setRg_routes (s : State) (f : Field) (i v : Nat) : (s.setRg f i v).routes = s.routes := rfl
@[simp] theorem State.setRg_routesCopy (s : State) (f : Field) (i v : Nat) : (s.setRg f i v).routesCopy = s.routesCopy := rfl
@[simp] theorem State.setRg_spnBad (s : State) (f : Field) (i v : Nat) : (s.setRg f i v).spnBad = s.spnBad := rfl
@[simp] theorem State.setRg_spnCopy (s : State) (f : Field) (i v : Nat) : (s.setRg f i v).spnCopy = s.spnCopy := rfl
@[simp] theorem State.setRg_aliveSeen (s : State) (f : Field) (i v : Nat) : (s.setRg f i v).aliveSeen = s.aliveSeen := rfl
@[simp] theorem State.setRg_ownBarges (s : State) (f : Field) (i v : Nat) : (s.setRg f i v).ownBarges = s.ownBarges := rfl
@[simp] theorem State.setRg_aliveOwn (s : State) (f : Field) (i v : Nat) : (s.setRg f i v).aliveOwn = s.aliveOwn := rfl
@[simp] theorem State.setRg_keepers (s : State) (f : Field) (i v : Nat) : (s.setRg f i v).keepers = s.keepers := rfl
@[simp] theorem State.setRg_sems (s : State) (f : Field) (i v : Nat) : (s.setRg f i v).sems = s.sems := rfl
@[simp] theorem State.setRg_irq (s : State) (f : Field) (i v : Nat) : (s.setRg f i v).irq = s.irq := rfl
@[simp] theorem State.setRg_queues (s : State) (f : Field) (i v : Nat) : (s.setRg f i v).queues = s.queues := rfl
@[simp] theorem State.setRg_fetched (s : State) (f : Field) (i v : Nat) : (s.setRg f i v).fetched = s.fetched := rfl
@[simp] theorem State.setRg_faults (s : State) (f : Field) (i v : Nat) : (s.setRg f i v).faults = s.faults := rfl
@[simp] theorem State.setRg_msix (s : State) (f : Field) (i v : Nat) : (s.setRg f i v).msix = s.msix := rfl
@[simp] theorem State.setRg_fns (s : State) (f : Field) (i v : Nat) : (s.setRg f i v).fns = s.fns := rfl
@[simp] theorem State.setRg_hostOut (s : State) (f : Field) (i v : Nat) : (s.setRg f i v).hostOut = s.hostOut := rfl
@[simp] theorem State.setRg_hbm (s : State) (f : Field) (i v : Nat) : (s.setRg f i v).hbm = s.hbm := rfl
@[simp] theorem State.setRg_buffers9 (s : State) (f : Field) (i v : Nat) : (s.setRg f i v).buffers9 = s.buffers9 := rfl
@[simp] theorem State.setRg_pagesUsed (s : State) (f : Field) (i v : Nat) : (s.setRg f i v).pagesUsed = s.pagesUsed := rfl
@[simp] theorem State.setRg_pagesRetired (s : State) (f : Field) (i v : Nat) : (s.setRg f i v).pagesRetired = s.pagesRetired := rfl
@[simp] theorem State.setRg_pagesBad (s : State) (f : Field) (i v : Nat) : (s.setRg f i v).pagesBad = s.pagesBad := rfl
@[simp] theorem State.setRg_pagesUc (s : State) (f : Field) (i v : Nat) : (s.setRg f i v).pagesUc = s.pagesUc := rfl
@[simp] theorem State.setRg_retiring (s : State) (f : Field) (i v : Nat) : (s.setRg f i v).retiring = s.retiring := rfl
@[simp] theorem State.setRg_retireQueue (s : State) (f : Field) (i v : Nat) : (s.setRg f i v).retireQueue = s.retireQueue := rfl
@[simp] theorem State.setRg_pageReports (s : State) (f : Field) (i v : Nat) : (s.setRg f i v).pageReports = s.pageReports := rfl
@[simp] theorem State.setRg_shortRun (s : State) (f : Field) (i v : Nat) : (s.setRg f i v).shortRun = s.shortRun := rfl
@[simp] theorem State.setRg_channels (s : State) (f : Field) (i v : Nat) : (s.setRg f i v).channels = s.channels := rfl
@[simp] theorem State.setRg_engineQ (s : State) (f : Field) (i v : Nat) : (s.setRg f i v).engineQ = s.engineQ := rfl
@[simp] theorem State.setRg_chks (s : State) (f : Field) (i v : Nat) : (s.setRg f i v).chks = s.chks := rfl
@[simp] theorem State.setRg_ledger (s : State) (f : Field) (i v : Nat) : (s.setRg f i v).ledger = s.ledger := rfl
@[simp] theorem State.setRg_weir (s : State) (f : Field) (i v : Nat) : (s.setRg f i v).weir = s.weir := rfl
@[simp] theorem State.setRg_tst (s : State) (f : Field) (i v : Nat) : (s.setRg f i v).tst = s.tst := rfl
@[simp] theorem State.setRg_power (s : State) (f : Field) (i v : Nat) : (s.setRg f i v).power = s.power := rfl
@[simp] theorem State.setRg_secure (s : State) (f : Field) (i v : Nat) : (s.setRg f i v).secure = s.secure := rfl
@[simp] theorem State.setRg_capstan (s : State) (f : Field) (i v : Nat) : (s.setRg f i v).capstan = s.capstan := rfl
@[simp] theorem State.setRg_tap (s : State) (f : Field) (i v : Nat) : (s.setRg f i v).tap = s.tap := rfl
@[simp] theorem State.setRg_readData (s : State) (f : Field) (i v : Nat) : (s.setRg f i v).readData = s.readData := rfl
@[simp] theorem State.setRg_hiLatch (s : State) (f : Field) (i v : Nat) : (s.setRg f i v).hiLatch = s.hiLatch := rfl
@[simp] theorem State.setRg_freeCtr (s : State) (f : Field) (i v : Nat) : (s.setRg f i v).freeCtr = s.freeCtr := rfl

/-! ### setRgw -/

@[simp] theorem State.setRgw_pending (s : State) (f : Field) (w i v : Nat) : (s.setRgw f w i v).pending = s.pending := rfl
@[simp] theorem State.setRgw_regs (s : State) (f : Field) (w i v : Nat) : (s.setRgw f w i v).regs = s.regs.put (fieldKey f i w) (v % 2 ^ f.width) := rfl
@[simp] theorem State.setRgw_clusters (s : State) (f : Field) (w i v : Nat) : (s.setRgw f w i v).clusters = s.clusters := rfl
@[simp] theorem State.setRgw_reaches (s : State) (f : Field) (w i v : Nat) : (s.setRgw f w i v).reaches = s.reaches := rfl
@[simp] theorem State.setRgw_dir (s : State) (f : Field) (w i v : Nat) : (s.setRgw f w i v).dir = s.dir := rfl
@[simp] theorem State.setRgw_parts (s : State) (f : Field) (w i v : Nat) : (s.setRgw f w i v).parts = s.parts := rfl
@[simp] theorem State.setRgw_links (s : State) (f : Field) (w i v : Nat) : (s.setRgw f w i v).links = s.links := rfl
@[simp] theorem State.setRgw_routes (s : State) (f : Field) (w i v : Nat) : (s.setRgw f w i v).routes = s.routes := rfl
@[simp] theorem State.setRgw_routesCopy (s : State) (f : Field) (w i v : Nat) : (s.setRgw f w i v).routesCopy = s.routesCopy := rfl
@[simp] theorem State.setRgw_spnBad (s : State) (f : Field) (w i v : Nat) : (s.setRgw f w i v).spnBad = s.spnBad := rfl
@[simp] theorem State.setRgw_spnCopy (s : State) (f : Field) (w i v : Nat) : (s.setRgw f w i v).spnCopy = s.spnCopy := rfl
@[simp] theorem State.setRgw_aliveSeen (s : State) (f : Field) (w i v : Nat) : (s.setRgw f w i v).aliveSeen = s.aliveSeen := rfl
@[simp] theorem State.setRgw_ownBarges (s : State) (f : Field) (w i v : Nat) : (s.setRgw f w i v).ownBarges = s.ownBarges := rfl
@[simp] theorem State.setRgw_aliveOwn (s : State) (f : Field) (w i v : Nat) : (s.setRgw f w i v).aliveOwn = s.aliveOwn := rfl
@[simp] theorem State.setRgw_keepers (s : State) (f : Field) (w i v : Nat) : (s.setRgw f w i v).keepers = s.keepers := rfl
@[simp] theorem State.setRgw_sems (s : State) (f : Field) (w i v : Nat) : (s.setRgw f w i v).sems = s.sems := rfl
@[simp] theorem State.setRgw_irq (s : State) (f : Field) (w i v : Nat) : (s.setRgw f w i v).irq = s.irq := rfl
@[simp] theorem State.setRgw_queues (s : State) (f : Field) (w i v : Nat) : (s.setRgw f w i v).queues = s.queues := rfl
@[simp] theorem State.setRgw_fetched (s : State) (f : Field) (w i v : Nat) : (s.setRgw f w i v).fetched = s.fetched := rfl
@[simp] theorem State.setRgw_faults (s : State) (f : Field) (w i v : Nat) : (s.setRgw f w i v).faults = s.faults := rfl
@[simp] theorem State.setRgw_msix (s : State) (f : Field) (w i v : Nat) : (s.setRgw f w i v).msix = s.msix := rfl
@[simp] theorem State.setRgw_fns (s : State) (f : Field) (w i v : Nat) : (s.setRgw f w i v).fns = s.fns := rfl
@[simp] theorem State.setRgw_hostOut (s : State) (f : Field) (w i v : Nat) : (s.setRgw f w i v).hostOut = s.hostOut := rfl
@[simp] theorem State.setRgw_hbm (s : State) (f : Field) (w i v : Nat) : (s.setRgw f w i v).hbm = s.hbm := rfl
@[simp] theorem State.setRgw_buffers9 (s : State) (f : Field) (w i v : Nat) : (s.setRgw f w i v).buffers9 = s.buffers9 := rfl
@[simp] theorem State.setRgw_pagesUsed (s : State) (f : Field) (w i v : Nat) : (s.setRgw f w i v).pagesUsed = s.pagesUsed := rfl
@[simp] theorem State.setRgw_pagesRetired (s : State) (f : Field) (w i v : Nat) : (s.setRgw f w i v).pagesRetired = s.pagesRetired := rfl
@[simp] theorem State.setRgw_pagesBad (s : State) (f : Field) (w i v : Nat) : (s.setRgw f w i v).pagesBad = s.pagesBad := rfl
@[simp] theorem State.setRgw_pagesUc (s : State) (f : Field) (w i v : Nat) : (s.setRgw f w i v).pagesUc = s.pagesUc := rfl
@[simp] theorem State.setRgw_retiring (s : State) (f : Field) (w i v : Nat) : (s.setRgw f w i v).retiring = s.retiring := rfl
@[simp] theorem State.setRgw_retireQueue (s : State) (f : Field) (w i v : Nat) : (s.setRgw f w i v).retireQueue = s.retireQueue := rfl
@[simp] theorem State.setRgw_pageReports (s : State) (f : Field) (w i v : Nat) : (s.setRgw f w i v).pageReports = s.pageReports := rfl
@[simp] theorem State.setRgw_shortRun (s : State) (f : Field) (w i v : Nat) : (s.setRgw f w i v).shortRun = s.shortRun := rfl
@[simp] theorem State.setRgw_channels (s : State) (f : Field) (w i v : Nat) : (s.setRgw f w i v).channels = s.channels := rfl
@[simp] theorem State.setRgw_engineQ (s : State) (f : Field) (w i v : Nat) : (s.setRgw f w i v).engineQ = s.engineQ := rfl
@[simp] theorem State.setRgw_chks (s : State) (f : Field) (w i v : Nat) : (s.setRgw f w i v).chks = s.chks := rfl
@[simp] theorem State.setRgw_ledger (s : State) (f : Field) (w i v : Nat) : (s.setRgw f w i v).ledger = s.ledger := rfl
@[simp] theorem State.setRgw_weir (s : State) (f : Field) (w i v : Nat) : (s.setRgw f w i v).weir = s.weir := rfl
@[simp] theorem State.setRgw_tst (s : State) (f : Field) (w i v : Nat) : (s.setRgw f w i v).tst = s.tst := rfl
@[simp] theorem State.setRgw_power (s : State) (f : Field) (w i v : Nat) : (s.setRgw f w i v).power = s.power := rfl
@[simp] theorem State.setRgw_secure (s : State) (f : Field) (w i v : Nat) : (s.setRgw f w i v).secure = s.secure := rfl
@[simp] theorem State.setRgw_capstan (s : State) (f : Field) (w i v : Nat) : (s.setRgw f w i v).capstan = s.capstan := rfl
@[simp] theorem State.setRgw_tap (s : State) (f : Field) (w i v : Nat) : (s.setRgw f w i v).tap = s.tap := rfl
@[simp] theorem State.setRgw_readData (s : State) (f : Field) (w i v : Nat) : (s.setRgw f w i v).readData = s.readData := rfl
@[simp] theorem State.setRgw_hiLatch (s : State) (f : Field) (w i v : Nat) : (s.setRgw f w i v).hiLatch = s.hiLatch := rfl
@[simp] theorem State.setRgw_freeCtr (s : State) (f : Field) (w i v : Nat) : (s.setRgw f w i v).freeCtr = s.freeCtr := rfl

/-! ### answer -/

@[simp] theorem State.answer_pending (s : State) (v : Nat) : (s.answer v).pending = s.pending := rfl
@[simp] theorem State.answer_regs (s : State) (v : Nat) : (s.answer v).regs = s.regs := rfl
@[simp] theorem State.answer_clusters (s : State) (v : Nat) : (s.answer v).clusters = s.clusters := rfl
@[simp] theorem State.answer_reaches (s : State) (v : Nat) : (s.answer v).reaches = s.reaches := rfl
@[simp] theorem State.answer_dir (s : State) (v : Nat) : (s.answer v).dir = s.dir := rfl
@[simp] theorem State.answer_parts (s : State) (v : Nat) : (s.answer v).parts = s.parts := rfl
@[simp] theorem State.answer_links (s : State) (v : Nat) : (s.answer v).links = s.links := rfl
@[simp] theorem State.answer_routes (s : State) (v : Nat) : (s.answer v).routes = s.routes := rfl
@[simp] theorem State.answer_routesCopy (s : State) (v : Nat) : (s.answer v).routesCopy = s.routesCopy := rfl
@[simp] theorem State.answer_spnBad (s : State) (v : Nat) : (s.answer v).spnBad = s.spnBad := rfl
@[simp] theorem State.answer_spnCopy (s : State) (v : Nat) : (s.answer v).spnCopy = s.spnCopy := rfl
@[simp] theorem State.answer_aliveSeen (s : State) (v : Nat) : (s.answer v).aliveSeen = s.aliveSeen := rfl
@[simp] theorem State.answer_ownBarges (s : State) (v : Nat) : (s.answer v).ownBarges = s.ownBarges := rfl
@[simp] theorem State.answer_aliveOwn (s : State) (v : Nat) : (s.answer v).aliveOwn = s.aliveOwn := rfl
@[simp] theorem State.answer_keepers (s : State) (v : Nat) : (s.answer v).keepers = s.keepers := rfl
@[simp] theorem State.answer_sems (s : State) (v : Nat) : (s.answer v).sems = s.sems := rfl
@[simp] theorem State.answer_irq (s : State) (v : Nat) : (s.answer v).irq = s.irq := rfl
@[simp] theorem State.answer_queues (s : State) (v : Nat) : (s.answer v).queues = s.queues := rfl
@[simp] theorem State.answer_fetched (s : State) (v : Nat) : (s.answer v).fetched = s.fetched := rfl
@[simp] theorem State.answer_faults (s : State) (v : Nat) : (s.answer v).faults = s.faults := rfl
@[simp] theorem State.answer_msix (s : State) (v : Nat) : (s.answer v).msix = s.msix := rfl
@[simp] theorem State.answer_fns (s : State) (v : Nat) : (s.answer v).fns = s.fns := rfl
@[simp] theorem State.answer_hostOut (s : State) (v : Nat) : (s.answer v).hostOut = s.hostOut := rfl
@[simp] theorem State.answer_hbm (s : State) (v : Nat) : (s.answer v).hbm = s.hbm := rfl
@[simp] theorem State.answer_buffers9 (s : State) (v : Nat) : (s.answer v).buffers9 = s.buffers9 := rfl
@[simp] theorem State.answer_pagesUsed (s : State) (v : Nat) : (s.answer v).pagesUsed = s.pagesUsed := rfl
@[simp] theorem State.answer_pagesRetired (s : State) (v : Nat) : (s.answer v).pagesRetired = s.pagesRetired := rfl
@[simp] theorem State.answer_pagesBad (s : State) (v : Nat) : (s.answer v).pagesBad = s.pagesBad := rfl
@[simp] theorem State.answer_pagesUc (s : State) (v : Nat) : (s.answer v).pagesUc = s.pagesUc := rfl
@[simp] theorem State.answer_retiring (s : State) (v : Nat) : (s.answer v).retiring = s.retiring := rfl
@[simp] theorem State.answer_retireQueue (s : State) (v : Nat) : (s.answer v).retireQueue = s.retireQueue := rfl
@[simp] theorem State.answer_pageReports (s : State) (v : Nat) : (s.answer v).pageReports = s.pageReports := rfl
@[simp] theorem State.answer_shortRun (s : State) (v : Nat) : (s.answer v).shortRun = s.shortRun := rfl
@[simp] theorem State.answer_channels (s : State) (v : Nat) : (s.answer v).channels = s.channels := rfl
@[simp] theorem State.answer_engineQ (s : State) (v : Nat) : (s.answer v).engineQ = s.engineQ := rfl
@[simp] theorem State.answer_chks (s : State) (v : Nat) : (s.answer v).chks = s.chks := rfl
@[simp] theorem State.answer_ledger (s : State) (v : Nat) : (s.answer v).ledger = s.ledger := rfl
@[simp] theorem State.answer_weir (s : State) (v : Nat) : (s.answer v).weir = s.weir := rfl
@[simp] theorem State.answer_tst (s : State) (v : Nat) : (s.answer v).tst = s.tst := rfl
@[simp] theorem State.answer_power (s : State) (v : Nat) : (s.answer v).power = s.power := rfl
@[simp] theorem State.answer_secure (s : State) (v : Nat) : (s.answer v).secure = s.secure := rfl
@[simp] theorem State.answer_capstan (s : State) (v : Nat) : (s.answer v).capstan = s.capstan := rfl
@[simp] theorem State.answer_tap (s : State) (v : Nat) : (s.answer v).tap = s.tap := rfl
@[simp] theorem State.answer_readData (s : State) (v : Nat) : (s.answer v).readData = BitVec.ofNat 32 v := rfl
@[simp] theorem State.answer_hiLatch (s : State) (v : Nat) : (s.answer v).hiLatch = s.hiLatch := rfl
@[simp] theorem State.answer_freeCtr (s : State) (v : Nat) : (s.answer v).freeCtr = s.freeCtr := rfl

/-! ### setClu -/

@[simp] theorem State.setClu_pending (s : State) (c : Nat) (x : Cluster) : (s.setClu c x).pending = s.pending := rfl
@[simp] theorem State.setClu_regs (s : State) (c : Nat) (x : Cluster) : (s.setClu c x).regs = s.regs := rfl
@[simp] theorem State.setClu_clusters (s : State) (c : Nat) (x : Cluster) : (s.setClu c x).clusters = s.clusters.put c x := rfl
@[simp] theorem State.setClu_reaches (s : State) (c : Nat) (x : Cluster) : (s.setClu c x).reaches = s.reaches := rfl
@[simp] theorem State.setClu_dir (s : State) (c : Nat) (x : Cluster) : (s.setClu c x).dir = s.dir := rfl
@[simp] theorem State.setClu_parts (s : State) (c : Nat) (x : Cluster) : (s.setClu c x).parts = s.parts := rfl
@[simp] theorem State.setClu_links (s : State) (c : Nat) (x : Cluster) : (s.setClu c x).links = s.links := rfl
@[simp] theorem State.setClu_routes (s : State) (c : Nat) (x : Cluster) : (s.setClu c x).routes = s.routes := rfl
@[simp] theorem State.setClu_routesCopy (s : State) (c : Nat) (x : Cluster) : (s.setClu c x).routesCopy = s.routesCopy := rfl
@[simp] theorem State.setClu_spnBad (s : State) (c : Nat) (x : Cluster) : (s.setClu c x).spnBad = s.spnBad := rfl
@[simp] theorem State.setClu_spnCopy (s : State) (c : Nat) (x : Cluster) : (s.setClu c x).spnCopy = s.spnCopy := rfl
@[simp] theorem State.setClu_aliveSeen (s : State) (c : Nat) (x : Cluster) : (s.setClu c x).aliveSeen = s.aliveSeen := rfl
@[simp] theorem State.setClu_ownBarges (s : State) (c : Nat) (x : Cluster) : (s.setClu c x).ownBarges = s.ownBarges := rfl
@[simp] theorem State.setClu_aliveOwn (s : State) (c : Nat) (x : Cluster) : (s.setClu c x).aliveOwn = s.aliveOwn := rfl
@[simp] theorem State.setClu_keepers (s : State) (c : Nat) (x : Cluster) : (s.setClu c x).keepers = s.keepers := rfl
@[simp] theorem State.setClu_sems (s : State) (c : Nat) (x : Cluster) : (s.setClu c x).sems = s.sems := rfl
@[simp] theorem State.setClu_irq (s : State) (c : Nat) (x : Cluster) : (s.setClu c x).irq = s.irq := rfl
@[simp] theorem State.setClu_queues (s : State) (c : Nat) (x : Cluster) : (s.setClu c x).queues = s.queues := rfl
@[simp] theorem State.setClu_fetched (s : State) (c : Nat) (x : Cluster) : (s.setClu c x).fetched = s.fetched := rfl
@[simp] theorem State.setClu_faults (s : State) (c : Nat) (x : Cluster) : (s.setClu c x).faults = s.faults := rfl
@[simp] theorem State.setClu_msix (s : State) (c : Nat) (x : Cluster) : (s.setClu c x).msix = s.msix := rfl
@[simp] theorem State.setClu_fns (s : State) (c : Nat) (x : Cluster) : (s.setClu c x).fns = s.fns := rfl
@[simp] theorem State.setClu_hostOut (s : State) (c : Nat) (x : Cluster) : (s.setClu c x).hostOut = s.hostOut := rfl
@[simp] theorem State.setClu_hbm (s : State) (c : Nat) (x : Cluster) : (s.setClu c x).hbm = s.hbm := rfl
@[simp] theorem State.setClu_buffers9 (s : State) (c : Nat) (x : Cluster) : (s.setClu c x).buffers9 = s.buffers9 := rfl
@[simp] theorem State.setClu_pagesUsed (s : State) (c : Nat) (x : Cluster) : (s.setClu c x).pagesUsed = s.pagesUsed := rfl
@[simp] theorem State.setClu_pagesRetired (s : State) (c : Nat) (x : Cluster) : (s.setClu c x).pagesRetired = s.pagesRetired := rfl
@[simp] theorem State.setClu_pagesBad (s : State) (c : Nat) (x : Cluster) : (s.setClu c x).pagesBad = s.pagesBad := rfl
@[simp] theorem State.setClu_pagesUc (s : State) (c : Nat) (x : Cluster) : (s.setClu c x).pagesUc = s.pagesUc := rfl
@[simp] theorem State.setClu_retiring (s : State) (c : Nat) (x : Cluster) : (s.setClu c x).retiring = s.retiring := rfl
@[simp] theorem State.setClu_retireQueue (s : State) (c : Nat) (x : Cluster) : (s.setClu c x).retireQueue = s.retireQueue := rfl
@[simp] theorem State.setClu_pageReports (s : State) (c : Nat) (x : Cluster) : (s.setClu c x).pageReports = s.pageReports := rfl
@[simp] theorem State.setClu_shortRun (s : State) (c : Nat) (x : Cluster) : (s.setClu c x).shortRun = s.shortRun := rfl
@[simp] theorem State.setClu_channels (s : State) (c : Nat) (x : Cluster) : (s.setClu c x).channels = s.channels := rfl
@[simp] theorem State.setClu_engineQ (s : State) (c : Nat) (x : Cluster) : (s.setClu c x).engineQ = s.engineQ := rfl
@[simp] theorem State.setClu_chks (s : State) (c : Nat) (x : Cluster) : (s.setClu c x).chks = s.chks := rfl
@[simp] theorem State.setClu_ledger (s : State) (c : Nat) (x : Cluster) : (s.setClu c x).ledger = s.ledger := rfl
@[simp] theorem State.setClu_weir (s : State) (c : Nat) (x : Cluster) : (s.setClu c x).weir = s.weir := rfl
@[simp] theorem State.setClu_tst (s : State) (c : Nat) (x : Cluster) : (s.setClu c x).tst = s.tst := rfl
@[simp] theorem State.setClu_power (s : State) (c : Nat) (x : Cluster) : (s.setClu c x).power = s.power := rfl
@[simp] theorem State.setClu_secure (s : State) (c : Nat) (x : Cluster) : (s.setClu c x).secure = s.secure := rfl
@[simp] theorem State.setClu_capstan (s : State) (c : Nat) (x : Cluster) : (s.setClu c x).capstan = s.capstan := rfl
@[simp] theorem State.setClu_tap (s : State) (c : Nat) (x : Cluster) : (s.setClu c x).tap = s.tap := rfl
@[simp] theorem State.setClu_readData (s : State) (c : Nat) (x : Cluster) : (s.setClu c x).readData = s.readData := rfl
@[simp] theorem State.setClu_hiLatch (s : State) (c : Nat) (x : Cluster) : (s.setClu c x).hiLatch = s.hiLatch := rfl
@[simp] theorem State.setClu_freeCtr (s : State) (c : Nat) (x : Cluster) : (s.setClu c x).freeCtr = s.freeCtr := rfl

/-! ### setRch -/

@[simp] theorem State.setRch_pending (s : State) (r : Nat) (x : Reach) : (s.setRch r x).pending = s.pending := rfl
@[simp] theorem State.setRch_regs (s : State) (r : Nat) (x : Reach) : (s.setRch r x).regs = s.regs := rfl
@[simp] theorem State.setRch_clusters (s : State) (r : Nat) (x : Reach) : (s.setRch r x).clusters = s.clusters := rfl
@[simp] theorem State.setRch_reaches (s : State) (r : Nat) (x : Reach) : (s.setRch r x).reaches = s.reaches.put r x := rfl
@[simp] theorem State.setRch_dir (s : State) (r : Nat) (x : Reach) : (s.setRch r x).dir = s.dir := rfl
@[simp] theorem State.setRch_parts (s : State) (r : Nat) (x : Reach) : (s.setRch r x).parts = s.parts := rfl
@[simp] theorem State.setRch_links (s : State) (r : Nat) (x : Reach) : (s.setRch r x).links = s.links := rfl
@[simp] theorem State.setRch_routes (s : State) (r : Nat) (x : Reach) : (s.setRch r x).routes = s.routes := rfl
@[simp] theorem State.setRch_routesCopy (s : State) (r : Nat) (x : Reach) : (s.setRch r x).routesCopy = s.routesCopy := rfl
@[simp] theorem State.setRch_spnBad (s : State) (r : Nat) (x : Reach) : (s.setRch r x).spnBad = s.spnBad := rfl
@[simp] theorem State.setRch_spnCopy (s : State) (r : Nat) (x : Reach) : (s.setRch r x).spnCopy = s.spnCopy := rfl
@[simp] theorem State.setRch_aliveSeen (s : State) (r : Nat) (x : Reach) : (s.setRch r x).aliveSeen = s.aliveSeen := rfl
@[simp] theorem State.setRch_ownBarges (s : State) (r : Nat) (x : Reach) : (s.setRch r x).ownBarges = s.ownBarges := rfl
@[simp] theorem State.setRch_aliveOwn (s : State) (r : Nat) (x : Reach) : (s.setRch r x).aliveOwn = s.aliveOwn := rfl
@[simp] theorem State.setRch_keepers (s : State) (r : Nat) (x : Reach) : (s.setRch r x).keepers = s.keepers := rfl
@[simp] theorem State.setRch_sems (s : State) (r : Nat) (x : Reach) : (s.setRch r x).sems = s.sems := rfl
@[simp] theorem State.setRch_irq (s : State) (r : Nat) (x : Reach) : (s.setRch r x).irq = s.irq := rfl
@[simp] theorem State.setRch_queues (s : State) (r : Nat) (x : Reach) : (s.setRch r x).queues = s.queues := rfl
@[simp] theorem State.setRch_fetched (s : State) (r : Nat) (x : Reach) : (s.setRch r x).fetched = s.fetched := rfl
@[simp] theorem State.setRch_faults (s : State) (r : Nat) (x : Reach) : (s.setRch r x).faults = s.faults := rfl
@[simp] theorem State.setRch_msix (s : State) (r : Nat) (x : Reach) : (s.setRch r x).msix = s.msix := rfl
@[simp] theorem State.setRch_fns (s : State) (r : Nat) (x : Reach) : (s.setRch r x).fns = s.fns := rfl
@[simp] theorem State.setRch_hostOut (s : State) (r : Nat) (x : Reach) : (s.setRch r x).hostOut = s.hostOut := rfl
@[simp] theorem State.setRch_hbm (s : State) (r : Nat) (x : Reach) : (s.setRch r x).hbm = s.hbm := rfl
@[simp] theorem State.setRch_buffers9 (s : State) (r : Nat) (x : Reach) : (s.setRch r x).buffers9 = s.buffers9 := rfl
@[simp] theorem State.setRch_pagesUsed (s : State) (r : Nat) (x : Reach) : (s.setRch r x).pagesUsed = s.pagesUsed := rfl
@[simp] theorem State.setRch_pagesRetired (s : State) (r : Nat) (x : Reach) : (s.setRch r x).pagesRetired = s.pagesRetired := rfl
@[simp] theorem State.setRch_pagesBad (s : State) (r : Nat) (x : Reach) : (s.setRch r x).pagesBad = s.pagesBad := rfl
@[simp] theorem State.setRch_pagesUc (s : State) (r : Nat) (x : Reach) : (s.setRch r x).pagesUc = s.pagesUc := rfl
@[simp] theorem State.setRch_retiring (s : State) (r : Nat) (x : Reach) : (s.setRch r x).retiring = s.retiring := rfl
@[simp] theorem State.setRch_retireQueue (s : State) (r : Nat) (x : Reach) : (s.setRch r x).retireQueue = s.retireQueue := rfl
@[simp] theorem State.setRch_pageReports (s : State) (r : Nat) (x : Reach) : (s.setRch r x).pageReports = s.pageReports := rfl
@[simp] theorem State.setRch_shortRun (s : State) (r : Nat) (x : Reach) : (s.setRch r x).shortRun = s.shortRun := rfl
@[simp] theorem State.setRch_channels (s : State) (r : Nat) (x : Reach) : (s.setRch r x).channels = s.channels := rfl
@[simp] theorem State.setRch_engineQ (s : State) (r : Nat) (x : Reach) : (s.setRch r x).engineQ = s.engineQ := rfl
@[simp] theorem State.setRch_chks (s : State) (r : Nat) (x : Reach) : (s.setRch r x).chks = s.chks := rfl
@[simp] theorem State.setRch_ledger (s : State) (r : Nat) (x : Reach) : (s.setRch r x).ledger = s.ledger := rfl
@[simp] theorem State.setRch_weir (s : State) (r : Nat) (x : Reach) : (s.setRch r x).weir = s.weir := rfl
@[simp] theorem State.setRch_tst (s : State) (r : Nat) (x : Reach) : (s.setRch r x).tst = s.tst := rfl
@[simp] theorem State.setRch_power (s : State) (r : Nat) (x : Reach) : (s.setRch r x).power = s.power := rfl
@[simp] theorem State.setRch_secure (s : State) (r : Nat) (x : Reach) : (s.setRch r x).secure = s.secure := rfl
@[simp] theorem State.setRch_capstan (s : State) (r : Nat) (x : Reach) : (s.setRch r x).capstan = s.capstan := rfl
@[simp] theorem State.setRch_tap (s : State) (r : Nat) (x : Reach) : (s.setRch r x).tap = s.tap := rfl
@[simp] theorem State.setRch_readData (s : State) (r : Nat) (x : Reach) : (s.setRch r x).readData = s.readData := rfl
@[simp] theorem State.setRch_hiLatch (s : State) (r : Nat) (x : Reach) : (s.setRch r x).hiLatch = s.hiLatch := rfl
@[simp] theorem State.setRch_freeCtr (s : State) (r : Nat) (x : Reach) : (s.setRch r x).freeCtr = s.freeCtr := rfl

/-! ### setPart -/

@[simp] theorem State.setPart_pending (s : State) (t : Nat) (x : Part) : (s.setPart t x).pending = s.pending := rfl
@[simp] theorem State.setPart_regs (s : State) (t : Nat) (x : Part) : (s.setPart t x).regs = s.regs := rfl
@[simp] theorem State.setPart_clusters (s : State) (t : Nat) (x : Part) : (s.setPart t x).clusters = s.clusters := rfl
@[simp] theorem State.setPart_reaches (s : State) (t : Nat) (x : Part) : (s.setPart t x).reaches = s.reaches := rfl
@[simp] theorem State.setPart_dir (s : State) (t : Nat) (x : Part) : (s.setPart t x).dir = s.dir := rfl
@[simp] theorem State.setPart_parts (s : State) (t : Nat) (x : Part) : (s.setPart t x).parts = s.parts.put t x := rfl
@[simp] theorem State.setPart_links (s : State) (t : Nat) (x : Part) : (s.setPart t x).links = s.links := rfl
@[simp] theorem State.setPart_routes (s : State) (t : Nat) (x : Part) : (s.setPart t x).routes = s.routes := rfl
@[simp] theorem State.setPart_routesCopy (s : State) (t : Nat) (x : Part) : (s.setPart t x).routesCopy = s.routesCopy := rfl
@[simp] theorem State.setPart_spnBad (s : State) (t : Nat) (x : Part) : (s.setPart t x).spnBad = s.spnBad := rfl
@[simp] theorem State.setPart_spnCopy (s : State) (t : Nat) (x : Part) : (s.setPart t x).spnCopy = s.spnCopy := rfl
@[simp] theorem State.setPart_aliveSeen (s : State) (t : Nat) (x : Part) : (s.setPart t x).aliveSeen = s.aliveSeen := rfl
@[simp] theorem State.setPart_ownBarges (s : State) (t : Nat) (x : Part) : (s.setPart t x).ownBarges = s.ownBarges := rfl
@[simp] theorem State.setPart_aliveOwn (s : State) (t : Nat) (x : Part) : (s.setPart t x).aliveOwn = s.aliveOwn := rfl
@[simp] theorem State.setPart_keepers (s : State) (t : Nat) (x : Part) : (s.setPart t x).keepers = s.keepers := rfl
@[simp] theorem State.setPart_sems (s : State) (t : Nat) (x : Part) : (s.setPart t x).sems = s.sems := rfl
@[simp] theorem State.setPart_irq (s : State) (t : Nat) (x : Part) : (s.setPart t x).irq = s.irq := rfl
@[simp] theorem State.setPart_queues (s : State) (t : Nat) (x : Part) : (s.setPart t x).queues = s.queues := rfl
@[simp] theorem State.setPart_fetched (s : State) (t : Nat) (x : Part) : (s.setPart t x).fetched = s.fetched := rfl
@[simp] theorem State.setPart_faults (s : State) (t : Nat) (x : Part) : (s.setPart t x).faults = s.faults := rfl
@[simp] theorem State.setPart_msix (s : State) (t : Nat) (x : Part) : (s.setPart t x).msix = s.msix := rfl
@[simp] theorem State.setPart_fns (s : State) (t : Nat) (x : Part) : (s.setPart t x).fns = s.fns := rfl
@[simp] theorem State.setPart_hostOut (s : State) (t : Nat) (x : Part) : (s.setPart t x).hostOut = s.hostOut := rfl
@[simp] theorem State.setPart_hbm (s : State) (t : Nat) (x : Part) : (s.setPart t x).hbm = s.hbm := rfl
@[simp] theorem State.setPart_buffers9 (s : State) (t : Nat) (x : Part) : (s.setPart t x).buffers9 = s.buffers9 := rfl
@[simp] theorem State.setPart_pagesUsed (s : State) (t : Nat) (x : Part) : (s.setPart t x).pagesUsed = s.pagesUsed := rfl
@[simp] theorem State.setPart_pagesRetired (s : State) (t : Nat) (x : Part) : (s.setPart t x).pagesRetired = s.pagesRetired := rfl
@[simp] theorem State.setPart_pagesBad (s : State) (t : Nat) (x : Part) : (s.setPart t x).pagesBad = s.pagesBad := rfl
@[simp] theorem State.setPart_pagesUc (s : State) (t : Nat) (x : Part) : (s.setPart t x).pagesUc = s.pagesUc := rfl
@[simp] theorem State.setPart_retiring (s : State) (t : Nat) (x : Part) : (s.setPart t x).retiring = s.retiring := rfl
@[simp] theorem State.setPart_retireQueue (s : State) (t : Nat) (x : Part) : (s.setPart t x).retireQueue = s.retireQueue := rfl
@[simp] theorem State.setPart_pageReports (s : State) (t : Nat) (x : Part) : (s.setPart t x).pageReports = s.pageReports := rfl
@[simp] theorem State.setPart_shortRun (s : State) (t : Nat) (x : Part) : (s.setPart t x).shortRun = s.shortRun := rfl
@[simp] theorem State.setPart_channels (s : State) (t : Nat) (x : Part) : (s.setPart t x).channels = s.channels := rfl
@[simp] theorem State.setPart_engineQ (s : State) (t : Nat) (x : Part) : (s.setPart t x).engineQ = s.engineQ := rfl
@[simp] theorem State.setPart_chks (s : State) (t : Nat) (x : Part) : (s.setPart t x).chks = s.chks := rfl
@[simp] theorem State.setPart_ledger (s : State) (t : Nat) (x : Part) : (s.setPart t x).ledger = s.ledger := rfl
@[simp] theorem State.setPart_weir (s : State) (t : Nat) (x : Part) : (s.setPart t x).weir = s.weir := rfl
@[simp] theorem State.setPart_tst (s : State) (t : Nat) (x : Part) : (s.setPart t x).tst = s.tst := rfl
@[simp] theorem State.setPart_power (s : State) (t : Nat) (x : Part) : (s.setPart t x).power = s.power := rfl
@[simp] theorem State.setPart_secure (s : State) (t : Nat) (x : Part) : (s.setPart t x).secure = s.secure := rfl
@[simp] theorem State.setPart_capstan (s : State) (t : Nat) (x : Part) : (s.setPart t x).capstan = s.capstan := rfl
@[simp] theorem State.setPart_tap (s : State) (t : Nat) (x : Part) : (s.setPart t x).tap = s.tap := rfl
@[simp] theorem State.setPart_readData (s : State) (t : Nat) (x : Part) : (s.setPart t x).readData = s.readData := rfl
@[simp] theorem State.setPart_hiLatch (s : State) (t : Nat) (x : Part) : (s.setPart t x).hiLatch = s.hiLatch := rfl
@[simp] theorem State.setPart_freeCtr (s : State) (t : Nat) (x : Part) : (s.setPart t x).freeCtr = s.freeCtr := rfl

/-! ### setLnk -/

@[simp] theorem State.setLnk_pending (s : State) (l : Nat) (x : Link) : (s.setLnk l x).pending = s.pending := rfl
@[simp] theorem State.setLnk_regs (s : State) (l : Nat) (x : Link) : (s.setLnk l x).regs = s.regs := rfl
@[simp] theorem State.setLnk_clusters (s : State) (l : Nat) (x : Link) : (s.setLnk l x).clusters = s.clusters := rfl
@[simp] theorem State.setLnk_reaches (s : State) (l : Nat) (x : Link) : (s.setLnk l x).reaches = s.reaches := rfl
@[simp] theorem State.setLnk_dir (s : State) (l : Nat) (x : Link) : (s.setLnk l x).dir = s.dir := rfl
@[simp] theorem State.setLnk_parts (s : State) (l : Nat) (x : Link) : (s.setLnk l x).parts = s.parts := rfl
@[simp] theorem State.setLnk_links (s : State) (l : Nat) (x : Link) : (s.setLnk l x).links = s.links.put l x := rfl
@[simp] theorem State.setLnk_routes (s : State) (l : Nat) (x : Link) : (s.setLnk l x).routes = s.routes := rfl
@[simp] theorem State.setLnk_routesCopy (s : State) (l : Nat) (x : Link) : (s.setLnk l x).routesCopy = s.routesCopy := rfl
@[simp] theorem State.setLnk_spnBad (s : State) (l : Nat) (x : Link) : (s.setLnk l x).spnBad = s.spnBad := rfl
@[simp] theorem State.setLnk_spnCopy (s : State) (l : Nat) (x : Link) : (s.setLnk l x).spnCopy = s.spnCopy := rfl
@[simp] theorem State.setLnk_aliveSeen (s : State) (l : Nat) (x : Link) : (s.setLnk l x).aliveSeen = s.aliveSeen := rfl
@[simp] theorem State.setLnk_ownBarges (s : State) (l : Nat) (x : Link) : (s.setLnk l x).ownBarges = s.ownBarges := rfl
@[simp] theorem State.setLnk_aliveOwn (s : State) (l : Nat) (x : Link) : (s.setLnk l x).aliveOwn = s.aliveOwn := rfl
@[simp] theorem State.setLnk_keepers (s : State) (l : Nat) (x : Link) : (s.setLnk l x).keepers = s.keepers := rfl
@[simp] theorem State.setLnk_sems (s : State) (l : Nat) (x : Link) : (s.setLnk l x).sems = s.sems := rfl
@[simp] theorem State.setLnk_irq (s : State) (l : Nat) (x : Link) : (s.setLnk l x).irq = s.irq := rfl
@[simp] theorem State.setLnk_queues (s : State) (l : Nat) (x : Link) : (s.setLnk l x).queues = s.queues := rfl
@[simp] theorem State.setLnk_fetched (s : State) (l : Nat) (x : Link) : (s.setLnk l x).fetched = s.fetched := rfl
@[simp] theorem State.setLnk_faults (s : State) (l : Nat) (x : Link) : (s.setLnk l x).faults = s.faults := rfl
@[simp] theorem State.setLnk_msix (s : State) (l : Nat) (x : Link) : (s.setLnk l x).msix = s.msix := rfl
@[simp] theorem State.setLnk_fns (s : State) (l : Nat) (x : Link) : (s.setLnk l x).fns = s.fns := rfl
@[simp] theorem State.setLnk_hostOut (s : State) (l : Nat) (x : Link) : (s.setLnk l x).hostOut = s.hostOut := rfl
@[simp] theorem State.setLnk_hbm (s : State) (l : Nat) (x : Link) : (s.setLnk l x).hbm = s.hbm := rfl
@[simp] theorem State.setLnk_buffers9 (s : State) (l : Nat) (x : Link) : (s.setLnk l x).buffers9 = s.buffers9 := rfl
@[simp] theorem State.setLnk_pagesUsed (s : State) (l : Nat) (x : Link) : (s.setLnk l x).pagesUsed = s.pagesUsed := rfl
@[simp] theorem State.setLnk_pagesRetired (s : State) (l : Nat) (x : Link) : (s.setLnk l x).pagesRetired = s.pagesRetired := rfl
@[simp] theorem State.setLnk_pagesBad (s : State) (l : Nat) (x : Link) : (s.setLnk l x).pagesBad = s.pagesBad := rfl
@[simp] theorem State.setLnk_pagesUc (s : State) (l : Nat) (x : Link) : (s.setLnk l x).pagesUc = s.pagesUc := rfl
@[simp] theorem State.setLnk_retiring (s : State) (l : Nat) (x : Link) : (s.setLnk l x).retiring = s.retiring := rfl
@[simp] theorem State.setLnk_retireQueue (s : State) (l : Nat) (x : Link) : (s.setLnk l x).retireQueue = s.retireQueue := rfl
@[simp] theorem State.setLnk_pageReports (s : State) (l : Nat) (x : Link) : (s.setLnk l x).pageReports = s.pageReports := rfl
@[simp] theorem State.setLnk_shortRun (s : State) (l : Nat) (x : Link) : (s.setLnk l x).shortRun = s.shortRun := rfl
@[simp] theorem State.setLnk_channels (s : State) (l : Nat) (x : Link) : (s.setLnk l x).channels = s.channels := rfl
@[simp] theorem State.setLnk_engineQ (s : State) (l : Nat) (x : Link) : (s.setLnk l x).engineQ = s.engineQ := rfl
@[simp] theorem State.setLnk_chks (s : State) (l : Nat) (x : Link) : (s.setLnk l x).chks = s.chks := rfl
@[simp] theorem State.setLnk_ledger (s : State) (l : Nat) (x : Link) : (s.setLnk l x).ledger = s.ledger := rfl
@[simp] theorem State.setLnk_weir (s : State) (l : Nat) (x : Link) : (s.setLnk l x).weir = s.weir := rfl
@[simp] theorem State.setLnk_tst (s : State) (l : Nat) (x : Link) : (s.setLnk l x).tst = s.tst := rfl
@[simp] theorem State.setLnk_power (s : State) (l : Nat) (x : Link) : (s.setLnk l x).power = s.power := rfl
@[simp] theorem State.setLnk_secure (s : State) (l : Nat) (x : Link) : (s.setLnk l x).secure = s.secure := rfl
@[simp] theorem State.setLnk_capstan (s : State) (l : Nat) (x : Link) : (s.setLnk l x).capstan = s.capstan := rfl
@[simp] theorem State.setLnk_tap (s : State) (l : Nat) (x : Link) : (s.setLnk l x).tap = s.tap := rfl
@[simp] theorem State.setLnk_readData (s : State) (l : Nat) (x : Link) : (s.setLnk l x).readData = s.readData := rfl
@[simp] theorem State.setLnk_hiLatch (s : State) (l : Nat) (x : Link) : (s.setLnk l x).hiLatch = s.hiLatch := rfl
@[simp] theorem State.setLnk_freeCtr (s : State) (l : Nat) (x : Link) : (s.setLnk l x).freeCtr = s.freeCtr := rfl

/-! ### setKpr -/

@[simp] theorem State.setKpr_pending (s : State) (k : Nat) (x : Keeper) : (s.setKpr k x).pending = s.pending := rfl
@[simp] theorem State.setKpr_regs (s : State) (k : Nat) (x : Keeper) : (s.setKpr k x).regs = s.regs := rfl
@[simp] theorem State.setKpr_clusters (s : State) (k : Nat) (x : Keeper) : (s.setKpr k x).clusters = s.clusters := rfl
@[simp] theorem State.setKpr_reaches (s : State) (k : Nat) (x : Keeper) : (s.setKpr k x).reaches = s.reaches := rfl
@[simp] theorem State.setKpr_dir (s : State) (k : Nat) (x : Keeper) : (s.setKpr k x).dir = s.dir := rfl
@[simp] theorem State.setKpr_parts (s : State) (k : Nat) (x : Keeper) : (s.setKpr k x).parts = s.parts := rfl
@[simp] theorem State.setKpr_links (s : State) (k : Nat) (x : Keeper) : (s.setKpr k x).links = s.links := rfl
@[simp] theorem State.setKpr_routes (s : State) (k : Nat) (x : Keeper) : (s.setKpr k x).routes = s.routes := rfl
@[simp] theorem State.setKpr_routesCopy (s : State) (k : Nat) (x : Keeper) : (s.setKpr k x).routesCopy = s.routesCopy := rfl
@[simp] theorem State.setKpr_spnBad (s : State) (k : Nat) (x : Keeper) : (s.setKpr k x).spnBad = s.spnBad := rfl
@[simp] theorem State.setKpr_spnCopy (s : State) (k : Nat) (x : Keeper) : (s.setKpr k x).spnCopy = s.spnCopy := rfl
@[simp] theorem State.setKpr_aliveSeen (s : State) (k : Nat) (x : Keeper) : (s.setKpr k x).aliveSeen = s.aliveSeen := rfl
@[simp] theorem State.setKpr_ownBarges (s : State) (k : Nat) (x : Keeper) : (s.setKpr k x).ownBarges = s.ownBarges := rfl
@[simp] theorem State.setKpr_aliveOwn (s : State) (k : Nat) (x : Keeper) : (s.setKpr k x).aliveOwn = s.aliveOwn := rfl
@[simp] theorem State.setKpr_keepers (s : State) (k : Nat) (x : Keeper) : (s.setKpr k x).keepers = s.keepers.put k x := rfl
@[simp] theorem State.setKpr_sems (s : State) (k : Nat) (x : Keeper) : (s.setKpr k x).sems = s.sems := rfl
@[simp] theorem State.setKpr_irq (s : State) (k : Nat) (x : Keeper) : (s.setKpr k x).irq = s.irq := rfl
@[simp] theorem State.setKpr_queues (s : State) (k : Nat) (x : Keeper) : (s.setKpr k x).queues = s.queues := rfl
@[simp] theorem State.setKpr_fetched (s : State) (k : Nat) (x : Keeper) : (s.setKpr k x).fetched = s.fetched := rfl
@[simp] theorem State.setKpr_faults (s : State) (k : Nat) (x : Keeper) : (s.setKpr k x).faults = s.faults := rfl
@[simp] theorem State.setKpr_msix (s : State) (k : Nat) (x : Keeper) : (s.setKpr k x).msix = s.msix := rfl
@[simp] theorem State.setKpr_fns (s : State) (k : Nat) (x : Keeper) : (s.setKpr k x).fns = s.fns := rfl
@[simp] theorem State.setKpr_hostOut (s : State) (k : Nat) (x : Keeper) : (s.setKpr k x).hostOut = s.hostOut := rfl
@[simp] theorem State.setKpr_hbm (s : State) (k : Nat) (x : Keeper) : (s.setKpr k x).hbm = s.hbm := rfl
@[simp] theorem State.setKpr_buffers9 (s : State) (k : Nat) (x : Keeper) : (s.setKpr k x).buffers9 = s.buffers9 := rfl
@[simp] theorem State.setKpr_pagesUsed (s : State) (k : Nat) (x : Keeper) : (s.setKpr k x).pagesUsed = s.pagesUsed := rfl
@[simp] theorem State.setKpr_pagesRetired (s : State) (k : Nat) (x : Keeper) : (s.setKpr k x).pagesRetired = s.pagesRetired := rfl
@[simp] theorem State.setKpr_pagesBad (s : State) (k : Nat) (x : Keeper) : (s.setKpr k x).pagesBad = s.pagesBad := rfl
@[simp] theorem State.setKpr_pagesUc (s : State) (k : Nat) (x : Keeper) : (s.setKpr k x).pagesUc = s.pagesUc := rfl
@[simp] theorem State.setKpr_retiring (s : State) (k : Nat) (x : Keeper) : (s.setKpr k x).retiring = s.retiring := rfl
@[simp] theorem State.setKpr_retireQueue (s : State) (k : Nat) (x : Keeper) : (s.setKpr k x).retireQueue = s.retireQueue := rfl
@[simp] theorem State.setKpr_pageReports (s : State) (k : Nat) (x : Keeper) : (s.setKpr k x).pageReports = s.pageReports := rfl
@[simp] theorem State.setKpr_shortRun (s : State) (k : Nat) (x : Keeper) : (s.setKpr k x).shortRun = s.shortRun := rfl
@[simp] theorem State.setKpr_channels (s : State) (k : Nat) (x : Keeper) : (s.setKpr k x).channels = s.channels := rfl
@[simp] theorem State.setKpr_engineQ (s : State) (k : Nat) (x : Keeper) : (s.setKpr k x).engineQ = s.engineQ := rfl
@[simp] theorem State.setKpr_chks (s : State) (k : Nat) (x : Keeper) : (s.setKpr k x).chks = s.chks := rfl
@[simp] theorem State.setKpr_ledger (s : State) (k : Nat) (x : Keeper) : (s.setKpr k x).ledger = s.ledger := rfl
@[simp] theorem State.setKpr_weir (s : State) (k : Nat) (x : Keeper) : (s.setKpr k x).weir = s.weir := rfl
@[simp] theorem State.setKpr_tst (s : State) (k : Nat) (x : Keeper) : (s.setKpr k x).tst = s.tst := rfl
@[simp] theorem State.setKpr_power (s : State) (k : Nat) (x : Keeper) : (s.setKpr k x).power = s.power := rfl
@[simp] theorem State.setKpr_secure (s : State) (k : Nat) (x : Keeper) : (s.setKpr k x).secure = s.secure := rfl
@[simp] theorem State.setKpr_capstan (s : State) (k : Nat) (x : Keeper) : (s.setKpr k x).capstan = s.capstan := rfl
@[simp] theorem State.setKpr_tap (s : State) (k : Nat) (x : Keeper) : (s.setKpr k x).tap = s.tap := rfl
@[simp] theorem State.setKpr_readData (s : State) (k : Nat) (x : Keeper) : (s.setKpr k x).readData = s.readData := rfl
@[simp] theorem State.setKpr_hiLatch (s : State) (k : Nat) (x : Keeper) : (s.setKpr k x).hiLatch = s.hiLatch := rfl
@[simp] theorem State.setKpr_freeCtr (s : State) (k : Nat) (x : Keeper) : (s.setKpr k x).freeCtr = s.freeCtr := rfl

/-! ### setSrc -/

@[simp] theorem State.setSrc_pending (s : State) (n : Nat) (x : Src) : (s.setSrc n x).pending = s.pending := rfl
@[simp] theorem State.setSrc_regs (s : State) (n : Nat) (x : Src) : (s.setSrc n x).regs = s.regs := rfl
@[simp] theorem State.setSrc_clusters (s : State) (n : Nat) (x : Src) : (s.setSrc n x).clusters = s.clusters := rfl
@[simp] theorem State.setSrc_reaches (s : State) (n : Nat) (x : Src) : (s.setSrc n x).reaches = s.reaches := rfl
@[simp] theorem State.setSrc_dir (s : State) (n : Nat) (x : Src) : (s.setSrc n x).dir = s.dir := rfl
@[simp] theorem State.setSrc_parts (s : State) (n : Nat) (x : Src) : (s.setSrc n x).parts = s.parts := rfl
@[simp] theorem State.setSrc_links (s : State) (n : Nat) (x : Src) : (s.setSrc n x).links = s.links := rfl
@[simp] theorem State.setSrc_routes (s : State) (n : Nat) (x : Src) : (s.setSrc n x).routes = s.routes := rfl
@[simp] theorem State.setSrc_routesCopy (s : State) (n : Nat) (x : Src) : (s.setSrc n x).routesCopy = s.routesCopy := rfl
@[simp] theorem State.setSrc_spnBad (s : State) (n : Nat) (x : Src) : (s.setSrc n x).spnBad = s.spnBad := rfl
@[simp] theorem State.setSrc_spnCopy (s : State) (n : Nat) (x : Src) : (s.setSrc n x).spnCopy = s.spnCopy := rfl
@[simp] theorem State.setSrc_aliveSeen (s : State) (n : Nat) (x : Src) : (s.setSrc n x).aliveSeen = s.aliveSeen := rfl
@[simp] theorem State.setSrc_ownBarges (s : State) (n : Nat) (x : Src) : (s.setSrc n x).ownBarges = s.ownBarges := rfl
@[simp] theorem State.setSrc_aliveOwn (s : State) (n : Nat) (x : Src) : (s.setSrc n x).aliveOwn = s.aliveOwn := rfl
@[simp] theorem State.setSrc_keepers (s : State) (n : Nat) (x : Src) : (s.setSrc n x).keepers = s.keepers := rfl
@[simp] theorem State.setSrc_sems (s : State) (n : Nat) (x : Src) : (s.setSrc n x).sems = s.sems := rfl
@[simp] theorem State.setSrc_irq (s : State) (n : Nat) (x : Src) : (s.setSrc n x).irq = s.irq.put n x := rfl
@[simp] theorem State.setSrc_queues (s : State) (n : Nat) (x : Src) : (s.setSrc n x).queues = s.queues := rfl
@[simp] theorem State.setSrc_fetched (s : State) (n : Nat) (x : Src) : (s.setSrc n x).fetched = s.fetched := rfl
@[simp] theorem State.setSrc_faults (s : State) (n : Nat) (x : Src) : (s.setSrc n x).faults = s.faults := rfl
@[simp] theorem State.setSrc_msix (s : State) (n : Nat) (x : Src) : (s.setSrc n x).msix = s.msix := rfl
@[simp] theorem State.setSrc_fns (s : State) (n : Nat) (x : Src) : (s.setSrc n x).fns = s.fns := rfl
@[simp] theorem State.setSrc_hostOut (s : State) (n : Nat) (x : Src) : (s.setSrc n x).hostOut = s.hostOut := rfl
@[simp] theorem State.setSrc_hbm (s : State) (n : Nat) (x : Src) : (s.setSrc n x).hbm = s.hbm := rfl
@[simp] theorem State.setSrc_buffers9 (s : State) (n : Nat) (x : Src) : (s.setSrc n x).buffers9 = s.buffers9 := rfl
@[simp] theorem State.setSrc_pagesUsed (s : State) (n : Nat) (x : Src) : (s.setSrc n x).pagesUsed = s.pagesUsed := rfl
@[simp] theorem State.setSrc_pagesRetired (s : State) (n : Nat) (x : Src) : (s.setSrc n x).pagesRetired = s.pagesRetired := rfl
@[simp] theorem State.setSrc_pagesBad (s : State) (n : Nat) (x : Src) : (s.setSrc n x).pagesBad = s.pagesBad := rfl
@[simp] theorem State.setSrc_pagesUc (s : State) (n : Nat) (x : Src) : (s.setSrc n x).pagesUc = s.pagesUc := rfl
@[simp] theorem State.setSrc_retiring (s : State) (n : Nat) (x : Src) : (s.setSrc n x).retiring = s.retiring := rfl
@[simp] theorem State.setSrc_retireQueue (s : State) (n : Nat) (x : Src) : (s.setSrc n x).retireQueue = s.retireQueue := rfl
@[simp] theorem State.setSrc_pageReports (s : State) (n : Nat) (x : Src) : (s.setSrc n x).pageReports = s.pageReports := rfl
@[simp] theorem State.setSrc_shortRun (s : State) (n : Nat) (x : Src) : (s.setSrc n x).shortRun = s.shortRun := rfl
@[simp] theorem State.setSrc_channels (s : State) (n : Nat) (x : Src) : (s.setSrc n x).channels = s.channels := rfl
@[simp] theorem State.setSrc_engineQ (s : State) (n : Nat) (x : Src) : (s.setSrc n x).engineQ = s.engineQ := rfl
@[simp] theorem State.setSrc_chks (s : State) (n : Nat) (x : Src) : (s.setSrc n x).chks = s.chks := rfl
@[simp] theorem State.setSrc_ledger (s : State) (n : Nat) (x : Src) : (s.setSrc n x).ledger = s.ledger := rfl
@[simp] theorem State.setSrc_weir (s : State) (n : Nat) (x : Src) : (s.setSrc n x).weir = s.weir := rfl
@[simp] theorem State.setSrc_tst (s : State) (n : Nat) (x : Src) : (s.setSrc n x).tst = s.tst := rfl
@[simp] theorem State.setSrc_power (s : State) (n : Nat) (x : Src) : (s.setSrc n x).power = s.power := rfl
@[simp] theorem State.setSrc_secure (s : State) (n : Nat) (x : Src) : (s.setSrc n x).secure = s.secure := rfl
@[simp] theorem State.setSrc_capstan (s : State) (n : Nat) (x : Src) : (s.setSrc n x).capstan = s.capstan := rfl
@[simp] theorem State.setSrc_tap (s : State) (n : Nat) (x : Src) : (s.setSrc n x).tap = s.tap := rfl
@[simp] theorem State.setSrc_readData (s : State) (n : Nat) (x : Src) : (s.setSrc n x).readData = s.readData := rfl
@[simp] theorem State.setSrc_hiLatch (s : State) (n : Nat) (x : Src) : (s.setSrc n x).hiLatch = s.hiLatch := rfl
@[simp] theorem State.setSrc_freeCtr (s : State) (n : Nat) (x : Src) : (s.setSrc n x).freeCtr = s.freeCtr := rfl

/-! ### setQueue -/

@[simp] theorem State.setQueue_pending (s : State) (i : Nat) (x : Queue) : (s.setQueue i x).pending = s.pending := rfl
@[simp] theorem State.setQueue_regs (s : State) (i : Nat) (x : Queue) : (s.setQueue i x).regs = s.regs := rfl
@[simp] theorem State.setQueue_clusters (s : State) (i : Nat) (x : Queue) : (s.setQueue i x).clusters = s.clusters := rfl
@[simp] theorem State.setQueue_reaches (s : State) (i : Nat) (x : Queue) : (s.setQueue i x).reaches = s.reaches := rfl
@[simp] theorem State.setQueue_dir (s : State) (i : Nat) (x : Queue) : (s.setQueue i x).dir = s.dir := rfl
@[simp] theorem State.setQueue_parts (s : State) (i : Nat) (x : Queue) : (s.setQueue i x).parts = s.parts := rfl
@[simp] theorem State.setQueue_links (s : State) (i : Nat) (x : Queue) : (s.setQueue i x).links = s.links := rfl
@[simp] theorem State.setQueue_routes (s : State) (i : Nat) (x : Queue) : (s.setQueue i x).routes = s.routes := rfl
@[simp] theorem State.setQueue_routesCopy (s : State) (i : Nat) (x : Queue) : (s.setQueue i x).routesCopy = s.routesCopy := rfl
@[simp] theorem State.setQueue_spnBad (s : State) (i : Nat) (x : Queue) : (s.setQueue i x).spnBad = s.spnBad := rfl
@[simp] theorem State.setQueue_spnCopy (s : State) (i : Nat) (x : Queue) : (s.setQueue i x).spnCopy = s.spnCopy := rfl
@[simp] theorem State.setQueue_aliveSeen (s : State) (i : Nat) (x : Queue) : (s.setQueue i x).aliveSeen = s.aliveSeen := rfl
@[simp] theorem State.setQueue_ownBarges (s : State) (i : Nat) (x : Queue) : (s.setQueue i x).ownBarges = s.ownBarges := rfl
@[simp] theorem State.setQueue_aliveOwn (s : State) (i : Nat) (x : Queue) : (s.setQueue i x).aliveOwn = s.aliveOwn := rfl
@[simp] theorem State.setQueue_keepers (s : State) (i : Nat) (x : Queue) : (s.setQueue i x).keepers = s.keepers := rfl
@[simp] theorem State.setQueue_sems (s : State) (i : Nat) (x : Queue) : (s.setQueue i x).sems = s.sems := rfl
@[simp] theorem State.setQueue_irq (s : State) (i : Nat) (x : Queue) : (s.setQueue i x).irq = s.irq := rfl
@[simp] theorem State.setQueue_queues (s : State) (i : Nat) (x : Queue) : (s.setQueue i x).queues = s.queues.put i x := rfl
@[simp] theorem State.setQueue_fetched (s : State) (i : Nat) (x : Queue) : (s.setQueue i x).fetched = s.fetched := rfl
@[simp] theorem State.setQueue_faults (s : State) (i : Nat) (x : Queue) : (s.setQueue i x).faults = s.faults := rfl
@[simp] theorem State.setQueue_msix (s : State) (i : Nat) (x : Queue) : (s.setQueue i x).msix = s.msix := rfl
@[simp] theorem State.setQueue_fns (s : State) (i : Nat) (x : Queue) : (s.setQueue i x).fns = s.fns := rfl
@[simp] theorem State.setQueue_hostOut (s : State) (i : Nat) (x : Queue) : (s.setQueue i x).hostOut = s.hostOut := rfl
@[simp] theorem State.setQueue_hbm (s : State) (i : Nat) (x : Queue) : (s.setQueue i x).hbm = s.hbm := rfl
@[simp] theorem State.setQueue_buffers9 (s : State) (i : Nat) (x : Queue) : (s.setQueue i x).buffers9 = s.buffers9 := rfl
@[simp] theorem State.setQueue_pagesUsed (s : State) (i : Nat) (x : Queue) : (s.setQueue i x).pagesUsed = s.pagesUsed := rfl
@[simp] theorem State.setQueue_pagesRetired (s : State) (i : Nat) (x : Queue) : (s.setQueue i x).pagesRetired = s.pagesRetired := rfl
@[simp] theorem State.setQueue_pagesBad (s : State) (i : Nat) (x : Queue) : (s.setQueue i x).pagesBad = s.pagesBad := rfl
@[simp] theorem State.setQueue_pagesUc (s : State) (i : Nat) (x : Queue) : (s.setQueue i x).pagesUc = s.pagesUc := rfl
@[simp] theorem State.setQueue_retiring (s : State) (i : Nat) (x : Queue) : (s.setQueue i x).retiring = s.retiring := rfl
@[simp] theorem State.setQueue_retireQueue (s : State) (i : Nat) (x : Queue) : (s.setQueue i x).retireQueue = s.retireQueue := rfl
@[simp] theorem State.setQueue_pageReports (s : State) (i : Nat) (x : Queue) : (s.setQueue i x).pageReports = s.pageReports := rfl
@[simp] theorem State.setQueue_shortRun (s : State) (i : Nat) (x : Queue) : (s.setQueue i x).shortRun = s.shortRun := rfl
@[simp] theorem State.setQueue_channels (s : State) (i : Nat) (x : Queue) : (s.setQueue i x).channels = s.channels := rfl
@[simp] theorem State.setQueue_engineQ (s : State) (i : Nat) (x : Queue) : (s.setQueue i x).engineQ = s.engineQ := rfl
@[simp] theorem State.setQueue_chks (s : State) (i : Nat) (x : Queue) : (s.setQueue i x).chks = s.chks := rfl
@[simp] theorem State.setQueue_ledger (s : State) (i : Nat) (x : Queue) : (s.setQueue i x).ledger = s.ledger := rfl
@[simp] theorem State.setQueue_weir (s : State) (i : Nat) (x : Queue) : (s.setQueue i x).weir = s.weir := rfl
@[simp] theorem State.setQueue_tst (s : State) (i : Nat) (x : Queue) : (s.setQueue i x).tst = s.tst := rfl
@[simp] theorem State.setQueue_power (s : State) (i : Nat) (x : Queue) : (s.setQueue i x).power = s.power := rfl
@[simp] theorem State.setQueue_secure (s : State) (i : Nat) (x : Queue) : (s.setQueue i x).secure = s.secure := rfl
@[simp] theorem State.setQueue_capstan (s : State) (i : Nat) (x : Queue) : (s.setQueue i x).capstan = s.capstan := rfl
@[simp] theorem State.setQueue_tap (s : State) (i : Nat) (x : Queue) : (s.setQueue i x).tap = s.tap := rfl
@[simp] theorem State.setQueue_readData (s : State) (i : Nat) (x : Queue) : (s.setQueue i x).readData = s.readData := rfl
@[simp] theorem State.setQueue_hiLatch (s : State) (i : Nat) (x : Queue) : (s.setQueue i x).hiLatch = s.hiLatch := rfl
@[simp] theorem State.setQueue_freeCtr (s : State) (i : Nat) (x : Queue) : (s.setQueue i x).freeCtr = s.freeCtr := rfl

/-! ### setFn -/

@[simp] theorem State.setFn_pending (s : State) (i : Nat) (x : Fn) : (s.setFn i x).pending = s.pending := rfl
@[simp] theorem State.setFn_regs (s : State) (i : Nat) (x : Fn) : (s.setFn i x).regs = s.regs := rfl
@[simp] theorem State.setFn_clusters (s : State) (i : Nat) (x : Fn) : (s.setFn i x).clusters = s.clusters := rfl
@[simp] theorem State.setFn_reaches (s : State) (i : Nat) (x : Fn) : (s.setFn i x).reaches = s.reaches := rfl
@[simp] theorem State.setFn_dir (s : State) (i : Nat) (x : Fn) : (s.setFn i x).dir = s.dir := rfl
@[simp] theorem State.setFn_parts (s : State) (i : Nat) (x : Fn) : (s.setFn i x).parts = s.parts := rfl
@[simp] theorem State.setFn_links (s : State) (i : Nat) (x : Fn) : (s.setFn i x).links = s.links := rfl
@[simp] theorem State.setFn_routes (s : State) (i : Nat) (x : Fn) : (s.setFn i x).routes = s.routes := rfl
@[simp] theorem State.setFn_routesCopy (s : State) (i : Nat) (x : Fn) : (s.setFn i x).routesCopy = s.routesCopy := rfl
@[simp] theorem State.setFn_spnBad (s : State) (i : Nat) (x : Fn) : (s.setFn i x).spnBad = s.spnBad := rfl
@[simp] theorem State.setFn_spnCopy (s : State) (i : Nat) (x : Fn) : (s.setFn i x).spnCopy = s.spnCopy := rfl
@[simp] theorem State.setFn_aliveSeen (s : State) (i : Nat) (x : Fn) : (s.setFn i x).aliveSeen = s.aliveSeen := rfl
@[simp] theorem State.setFn_ownBarges (s : State) (i : Nat) (x : Fn) : (s.setFn i x).ownBarges = s.ownBarges := rfl
@[simp] theorem State.setFn_aliveOwn (s : State) (i : Nat) (x : Fn) : (s.setFn i x).aliveOwn = s.aliveOwn := rfl
@[simp] theorem State.setFn_keepers (s : State) (i : Nat) (x : Fn) : (s.setFn i x).keepers = s.keepers := rfl
@[simp] theorem State.setFn_sems (s : State) (i : Nat) (x : Fn) : (s.setFn i x).sems = s.sems := rfl
@[simp] theorem State.setFn_irq (s : State) (i : Nat) (x : Fn) : (s.setFn i x).irq = s.irq := rfl
@[simp] theorem State.setFn_queues (s : State) (i : Nat) (x : Fn) : (s.setFn i x).queues = s.queues := rfl
@[simp] theorem State.setFn_fetched (s : State) (i : Nat) (x : Fn) : (s.setFn i x).fetched = s.fetched := rfl
@[simp] theorem State.setFn_faults (s : State) (i : Nat) (x : Fn) : (s.setFn i x).faults = s.faults := rfl
@[simp] theorem State.setFn_msix (s : State) (i : Nat) (x : Fn) : (s.setFn i x).msix = s.msix := rfl
@[simp] theorem State.setFn_fns (s : State) (i : Nat) (x : Fn) : (s.setFn i x).fns = s.fns.put i x := rfl
@[simp] theorem State.setFn_hostOut (s : State) (i : Nat) (x : Fn) : (s.setFn i x).hostOut = s.hostOut := rfl
@[simp] theorem State.setFn_hbm (s : State) (i : Nat) (x : Fn) : (s.setFn i x).hbm = s.hbm := rfl
@[simp] theorem State.setFn_buffers9 (s : State) (i : Nat) (x : Fn) : (s.setFn i x).buffers9 = s.buffers9 := rfl
@[simp] theorem State.setFn_pagesUsed (s : State) (i : Nat) (x : Fn) : (s.setFn i x).pagesUsed = s.pagesUsed := rfl
@[simp] theorem State.setFn_pagesRetired (s : State) (i : Nat) (x : Fn) : (s.setFn i x).pagesRetired = s.pagesRetired := rfl
@[simp] theorem State.setFn_pagesBad (s : State) (i : Nat) (x : Fn) : (s.setFn i x).pagesBad = s.pagesBad := rfl
@[simp] theorem State.setFn_pagesUc (s : State) (i : Nat) (x : Fn) : (s.setFn i x).pagesUc = s.pagesUc := rfl
@[simp] theorem State.setFn_retiring (s : State) (i : Nat) (x : Fn) : (s.setFn i x).retiring = s.retiring := rfl
@[simp] theorem State.setFn_retireQueue (s : State) (i : Nat) (x : Fn) : (s.setFn i x).retireQueue = s.retireQueue := rfl
@[simp] theorem State.setFn_pageReports (s : State) (i : Nat) (x : Fn) : (s.setFn i x).pageReports = s.pageReports := rfl
@[simp] theorem State.setFn_shortRun (s : State) (i : Nat) (x : Fn) : (s.setFn i x).shortRun = s.shortRun := rfl
@[simp] theorem State.setFn_channels (s : State) (i : Nat) (x : Fn) : (s.setFn i x).channels = s.channels := rfl
@[simp] theorem State.setFn_engineQ (s : State) (i : Nat) (x : Fn) : (s.setFn i x).engineQ = s.engineQ := rfl
@[simp] theorem State.setFn_chks (s : State) (i : Nat) (x : Fn) : (s.setFn i x).chks = s.chks := rfl
@[simp] theorem State.setFn_ledger (s : State) (i : Nat) (x : Fn) : (s.setFn i x).ledger = s.ledger := rfl
@[simp] theorem State.setFn_weir (s : State) (i : Nat) (x : Fn) : (s.setFn i x).weir = s.weir := rfl
@[simp] theorem State.setFn_tst (s : State) (i : Nat) (x : Fn) : (s.setFn i x).tst = s.tst := rfl
@[simp] theorem State.setFn_power (s : State) (i : Nat) (x : Fn) : (s.setFn i x).power = s.power := rfl
@[simp] theorem State.setFn_secure (s : State) (i : Nat) (x : Fn) : (s.setFn i x).secure = s.secure := rfl
@[simp] theorem State.setFn_capstan (s : State) (i : Nat) (x : Fn) : (s.setFn i x).capstan = s.capstan := rfl
@[simp] theorem State.setFn_tap (s : State) (i : Nat) (x : Fn) : (s.setFn i x).tap = s.tap := rfl
@[simp] theorem State.setFn_readData (s : State) (i : Nat) (x : Fn) : (s.setFn i x).readData = s.readData := rfl
@[simp] theorem State.setFn_hiLatch (s : State) (i : Nat) (x : Fn) : (s.setFn i x).hiLatch = s.hiLatch := rfl
@[simp] theorem State.setFn_freeCtr (s : State) (i : Nat) (x : Fn) : (s.setFn i x).freeCtr = s.freeCtr := rfl

/-! ### setChan -/

@[simp] theorem State.setChan_pending (s : State) (c : Nat) (x : Channel) : (s.setChan c x).pending = s.pending := rfl
@[simp] theorem State.setChan_regs (s : State) (c : Nat) (x : Channel) : (s.setChan c x).regs = s.regs := rfl
@[simp] theorem State.setChan_clusters (s : State) (c : Nat) (x : Channel) : (s.setChan c x).clusters = s.clusters := rfl
@[simp] theorem State.setChan_reaches (s : State) (c : Nat) (x : Channel) : (s.setChan c x).reaches = s.reaches := rfl
@[simp] theorem State.setChan_dir (s : State) (c : Nat) (x : Channel) : (s.setChan c x).dir = s.dir := rfl
@[simp] theorem State.setChan_parts (s : State) (c : Nat) (x : Channel) : (s.setChan c x).parts = s.parts := rfl
@[simp] theorem State.setChan_links (s : State) (c : Nat) (x : Channel) : (s.setChan c x).links = s.links := rfl
@[simp] theorem State.setChan_routes (s : State) (c : Nat) (x : Channel) : (s.setChan c x).routes = s.routes := rfl
@[simp] theorem State.setChan_routesCopy (s : State) (c : Nat) (x : Channel) : (s.setChan c x).routesCopy = s.routesCopy := rfl
@[simp] theorem State.setChan_spnBad (s : State) (c : Nat) (x : Channel) : (s.setChan c x).spnBad = s.spnBad := rfl
@[simp] theorem State.setChan_spnCopy (s : State) (c : Nat) (x : Channel) : (s.setChan c x).spnCopy = s.spnCopy := rfl
@[simp] theorem State.setChan_aliveSeen (s : State) (c : Nat) (x : Channel) : (s.setChan c x).aliveSeen = s.aliveSeen := rfl
@[simp] theorem State.setChan_ownBarges (s : State) (c : Nat) (x : Channel) : (s.setChan c x).ownBarges = s.ownBarges := rfl
@[simp] theorem State.setChan_aliveOwn (s : State) (c : Nat) (x : Channel) : (s.setChan c x).aliveOwn = s.aliveOwn := rfl
@[simp] theorem State.setChan_keepers (s : State) (c : Nat) (x : Channel) : (s.setChan c x).keepers = s.keepers := rfl
@[simp] theorem State.setChan_sems (s : State) (c : Nat) (x : Channel) : (s.setChan c x).sems = s.sems := rfl
@[simp] theorem State.setChan_irq (s : State) (c : Nat) (x : Channel) : (s.setChan c x).irq = s.irq := rfl
@[simp] theorem State.setChan_queues (s : State) (c : Nat) (x : Channel) : (s.setChan c x).queues = s.queues := rfl
@[simp] theorem State.setChan_fetched (s : State) (c : Nat) (x : Channel) : (s.setChan c x).fetched = s.fetched := rfl
@[simp] theorem State.setChan_faults (s : State) (c : Nat) (x : Channel) : (s.setChan c x).faults = s.faults := rfl
@[simp] theorem State.setChan_msix (s : State) (c : Nat) (x : Channel) : (s.setChan c x).msix = s.msix := rfl
@[simp] theorem State.setChan_fns (s : State) (c : Nat) (x : Channel) : (s.setChan c x).fns = s.fns := rfl
@[simp] theorem State.setChan_hostOut (s : State) (c : Nat) (x : Channel) : (s.setChan c x).hostOut = s.hostOut := rfl
@[simp] theorem State.setChan_hbm (s : State) (c : Nat) (x : Channel) : (s.setChan c x).hbm = s.hbm := rfl
@[simp] theorem State.setChan_buffers9 (s : State) (c : Nat) (x : Channel) : (s.setChan c x).buffers9 = s.buffers9 := rfl
@[simp] theorem State.setChan_pagesUsed (s : State) (c : Nat) (x : Channel) : (s.setChan c x).pagesUsed = s.pagesUsed := rfl
@[simp] theorem State.setChan_pagesRetired (s : State) (c : Nat) (x : Channel) : (s.setChan c x).pagesRetired = s.pagesRetired := rfl
@[simp] theorem State.setChan_pagesBad (s : State) (c : Nat) (x : Channel) : (s.setChan c x).pagesBad = s.pagesBad := rfl
@[simp] theorem State.setChan_pagesUc (s : State) (c : Nat) (x : Channel) : (s.setChan c x).pagesUc = s.pagesUc := rfl
@[simp] theorem State.setChan_retiring (s : State) (c : Nat) (x : Channel) : (s.setChan c x).retiring = s.retiring := rfl
@[simp] theorem State.setChan_retireQueue (s : State) (c : Nat) (x : Channel) : (s.setChan c x).retireQueue = s.retireQueue := rfl
@[simp] theorem State.setChan_pageReports (s : State) (c : Nat) (x : Channel) : (s.setChan c x).pageReports = s.pageReports := rfl
@[simp] theorem State.setChan_shortRun (s : State) (c : Nat) (x : Channel) : (s.setChan c x).shortRun = s.shortRun := rfl
@[simp] theorem State.setChan_channels (s : State) (c : Nat) (x : Channel) : (s.setChan c x).channels = s.channels.put c x := rfl
@[simp] theorem State.setChan_engineQ (s : State) (c : Nat) (x : Channel) : (s.setChan c x).engineQ = s.engineQ := rfl
@[simp] theorem State.setChan_chks (s : State) (c : Nat) (x : Channel) : (s.setChan c x).chks = s.chks := rfl
@[simp] theorem State.setChan_ledger (s : State) (c : Nat) (x : Channel) : (s.setChan c x).ledger = s.ledger := rfl
@[simp] theorem State.setChan_weir (s : State) (c : Nat) (x : Channel) : (s.setChan c x).weir = s.weir := rfl
@[simp] theorem State.setChan_tst (s : State) (c : Nat) (x : Channel) : (s.setChan c x).tst = s.tst := rfl
@[simp] theorem State.setChan_power (s : State) (c : Nat) (x : Channel) : (s.setChan c x).power = s.power := rfl
@[simp] theorem State.setChan_secure (s : State) (c : Nat) (x : Channel) : (s.setChan c x).secure = s.secure := rfl
@[simp] theorem State.setChan_capstan (s : State) (c : Nat) (x : Channel) : (s.setChan c x).capstan = s.capstan := rfl
@[simp] theorem State.setChan_tap (s : State) (c : Nat) (x : Channel) : (s.setChan c x).tap = s.tap := rfl
@[simp] theorem State.setChan_readData (s : State) (c : Nat) (x : Channel) : (s.setChan c x).readData = s.readData := rfl
@[simp] theorem State.setChan_hiLatch (s : State) (c : Nat) (x : Channel) : (s.setChan c x).hiLatch = s.hiLatch := rfl
@[simp] theorem State.setChan_freeCtr (s : State) (c : Nat) (x : Channel) : (s.setChan c x).freeCtr = s.freeCtr := rfl

/-! ### setChk -/

@[simp] theorem State.setChk_pending (s : State) (u : Nat) (x : Chk) : (s.setChk u x).pending = s.pending := rfl
@[simp] theorem State.setChk_regs (s : State) (u : Nat) (x : Chk) : (s.setChk u x).regs = s.regs := rfl
@[simp] theorem State.setChk_clusters (s : State) (u : Nat) (x : Chk) : (s.setChk u x).clusters = s.clusters := rfl
@[simp] theorem State.setChk_reaches (s : State) (u : Nat) (x : Chk) : (s.setChk u x).reaches = s.reaches := rfl
@[simp] theorem State.setChk_dir (s : State) (u : Nat) (x : Chk) : (s.setChk u x).dir = s.dir := rfl
@[simp] theorem State.setChk_parts (s : State) (u : Nat) (x : Chk) : (s.setChk u x).parts = s.parts := rfl
@[simp] theorem State.setChk_links (s : State) (u : Nat) (x : Chk) : (s.setChk u x).links = s.links := rfl
@[simp] theorem State.setChk_routes (s : State) (u : Nat) (x : Chk) : (s.setChk u x).routes = s.routes := rfl
@[simp] theorem State.setChk_routesCopy (s : State) (u : Nat) (x : Chk) : (s.setChk u x).routesCopy = s.routesCopy := rfl
@[simp] theorem State.setChk_spnBad (s : State) (u : Nat) (x : Chk) : (s.setChk u x).spnBad = s.spnBad := rfl
@[simp] theorem State.setChk_spnCopy (s : State) (u : Nat) (x : Chk) : (s.setChk u x).spnCopy = s.spnCopy := rfl
@[simp] theorem State.setChk_aliveSeen (s : State) (u : Nat) (x : Chk) : (s.setChk u x).aliveSeen = s.aliveSeen := rfl
@[simp] theorem State.setChk_ownBarges (s : State) (u : Nat) (x : Chk) : (s.setChk u x).ownBarges = s.ownBarges := rfl
@[simp] theorem State.setChk_aliveOwn (s : State) (u : Nat) (x : Chk) : (s.setChk u x).aliveOwn = s.aliveOwn := rfl
@[simp] theorem State.setChk_keepers (s : State) (u : Nat) (x : Chk) : (s.setChk u x).keepers = s.keepers := rfl
@[simp] theorem State.setChk_sems (s : State) (u : Nat) (x : Chk) : (s.setChk u x).sems = s.sems := rfl
@[simp] theorem State.setChk_irq (s : State) (u : Nat) (x : Chk) : (s.setChk u x).irq = s.irq := rfl
@[simp] theorem State.setChk_queues (s : State) (u : Nat) (x : Chk) : (s.setChk u x).queues = s.queues := rfl
@[simp] theorem State.setChk_fetched (s : State) (u : Nat) (x : Chk) : (s.setChk u x).fetched = s.fetched := rfl
@[simp] theorem State.setChk_faults (s : State) (u : Nat) (x : Chk) : (s.setChk u x).faults = s.faults := rfl
@[simp] theorem State.setChk_msix (s : State) (u : Nat) (x : Chk) : (s.setChk u x).msix = s.msix := rfl
@[simp] theorem State.setChk_fns (s : State) (u : Nat) (x : Chk) : (s.setChk u x).fns = s.fns := rfl
@[simp] theorem State.setChk_hostOut (s : State) (u : Nat) (x : Chk) : (s.setChk u x).hostOut = s.hostOut := rfl
@[simp] theorem State.setChk_hbm (s : State) (u : Nat) (x : Chk) : (s.setChk u x).hbm = s.hbm := rfl
@[simp] theorem State.setChk_buffers9 (s : State) (u : Nat) (x : Chk) : (s.setChk u x).buffers9 = s.buffers9 := rfl
@[simp] theorem State.setChk_pagesUsed (s : State) (u : Nat) (x : Chk) : (s.setChk u x).pagesUsed = s.pagesUsed := rfl
@[simp] theorem State.setChk_pagesRetired (s : State) (u : Nat) (x : Chk) : (s.setChk u x).pagesRetired = s.pagesRetired := rfl
@[simp] theorem State.setChk_pagesBad (s : State) (u : Nat) (x : Chk) : (s.setChk u x).pagesBad = s.pagesBad := rfl
@[simp] theorem State.setChk_pagesUc (s : State) (u : Nat) (x : Chk) : (s.setChk u x).pagesUc = s.pagesUc := rfl
@[simp] theorem State.setChk_retiring (s : State) (u : Nat) (x : Chk) : (s.setChk u x).retiring = s.retiring := rfl
@[simp] theorem State.setChk_retireQueue (s : State) (u : Nat) (x : Chk) : (s.setChk u x).retireQueue = s.retireQueue := rfl
@[simp] theorem State.setChk_pageReports (s : State) (u : Nat) (x : Chk) : (s.setChk u x).pageReports = s.pageReports := rfl
@[simp] theorem State.setChk_shortRun (s : State) (u : Nat) (x : Chk) : (s.setChk u x).shortRun = s.shortRun := rfl
@[simp] theorem State.setChk_channels (s : State) (u : Nat) (x : Chk) : (s.setChk u x).channels = s.channels := rfl
@[simp] theorem State.setChk_engineQ (s : State) (u : Nat) (x : Chk) : (s.setChk u x).engineQ = s.engineQ := rfl
@[simp] theorem State.setChk_chks (s : State) (u : Nat) (x : Chk) : (s.setChk u x).chks = s.chks.put u x := rfl
@[simp] theorem State.setChk_ledger (s : State) (u : Nat) (x : Chk) : (s.setChk u x).ledger = s.ledger := rfl
@[simp] theorem State.setChk_weir (s : State) (u : Nat) (x : Chk) : (s.setChk u x).weir = s.weir := rfl
@[simp] theorem State.setChk_tst (s : State) (u : Nat) (x : Chk) : (s.setChk u x).tst = s.tst := rfl
@[simp] theorem State.setChk_power (s : State) (u : Nat) (x : Chk) : (s.setChk u x).power = s.power := rfl
@[simp] theorem State.setChk_secure (s : State) (u : Nat) (x : Chk) : (s.setChk u x).secure = s.secure := rfl
@[simp] theorem State.setChk_capstan (s : State) (u : Nat) (x : Chk) : (s.setChk u x).capstan = s.capstan := rfl
@[simp] theorem State.setChk_tap (s : State) (u : Nat) (x : Chk) : (s.setChk u x).tap = s.tap := rfl
@[simp] theorem State.setChk_readData (s : State) (u : Nat) (x : Chk) : (s.setChk u x).readData = s.readData := rfl
@[simp] theorem State.setChk_hiLatch (s : State) (u : Nat) (x : Chk) : (s.setChk u x).hiLatch = s.hiLatch := rfl
@[simp] theorem State.setChk_freeCtr (s : State) (u : Nat) (x : Chk) : (s.setChk u x).freeCtr = s.freeCtr := rfl

end Sys2Proof.Machine
end

