-- ==== Sys2Proof/Laws/Table.lean ====
section
/-!
SUPPORT. Sys2Proof/Laws/Table.lean: the laws of tables and memories: what a read after a write gives, and that every operation
keeps the canonical form.
-/
namespace Sys2Proof.Machine

variable {α : Type}

/-! ### Read after write -/

theorem Tbl.find_del_same (t : Tbl α) (k : Nat) : (t.del k).find k = none := by
  induction t with
  | nil => rfl
  | cons e t ih =>
    obtain ⟨a, v⟩ := e
    by_cases h : a = k <;> simp [Tbl.del, Tbl.find, h, ih]

theorem Tbl.find_del_other (t : Tbl α) {k j : Nat} (h : j ≠ k) : (t.del k).find j = t.find j := by
  induction t with
  | nil => rfl
  | cons e t ih =>
    obtain ⟨a, v⟩ := e
    by_cases ha : a = k
    · subst ha
      simp [Tbl.del, Tbl.find, ih, h.symm]
    · simp [Tbl.del, Tbl.find, ha, ih]

theorem Tbl.find_ins_same (t : Tbl α) (k : Nat) (x : α) (h : t.find k = none) : (Tbl.ins t k x).find k = some x := by
  induction t with
  | nil => simp [Tbl.ins, Tbl.find]
  | cons e t ih =>
    obtain ⟨a, v⟩ := e
    by_cases ha : a = k
    · simp [Tbl.find, ha] at h
    · simp only [Tbl.find, ha, if_false] at h
      by_cases hk : k < a <;> simp [Tbl.ins, hk, Tbl.find, ha, ih h]

theorem Tbl.find_ins_other (t : Tbl α) {k j : Nat} (x : α) (h : j ≠ k) : (Tbl.ins t k x).find j = t.find j := by
  induction t with
  | nil => simp [Tbl.ins, Tbl.find, h.symm]
  | cons e t ih =>
    obtain ⟨a, v⟩ := e
    by_cases hk : k < a
    · simp [Tbl.ins, hk, Tbl.find, h.symm]
    · simp [Tbl.ins, hk, Tbl.find, ih]

@[simp] theorem Tbl.find_put_same (t : Tbl α) (k : Nat) (x : α) : (t.put k x).find k = some x :=
  Tbl.find_ins_same _ _ _ (Tbl.find_del_same t k)

theorem Tbl.find_put_other (t : Tbl α) {k j : Nat} (x : α) (h : j ≠ k) : (t.put k x).find j = t.find j := by
  rw [Tbl.put, Tbl.find_ins_other _ _ h, Tbl.find_del_other _ h]

@[simp] theorem Tbl.get_put_same (t : Tbl α) (k : Nat) (x d : α) : (t.put k x).get k d = x := by
  simp [Tbl.get]

theorem Tbl.get_put_other (t : Tbl α) {k j : Nat} (x d : α) (h : j ≠ k) : (t.put k x).get j d = t.get j d := by
  simp [Tbl.get, Tbl.find_put_other t x h]

@[simp] theorem Mem.get_put_same {n : Nat} (m : Mem n) (a : Nat) (x : BitVec n) : Mem.get (Mem.put m a x) a = x := by
  unfold Mem.put Mem.get
  split
  · next h => simp [Tbl.get, Tbl.find_del_same, h]
  · simp

theorem Mem.get_put_other {n : Nat} (m : Mem n) {a b : Nat} (x : BitVec n) (h : b ≠ a) :
    Mem.get (Mem.put m a x) b = Mem.get m b := by
  unfold Mem.put Mem.get
  split
  · simp [Tbl.get, Tbl.find_del_other _ h]
  · simp [Tbl.get, Tbl.find_put_other _ _ h]

/-! ### The canonical form -/

theorem Tbl.rising_iff (t : Tbl α) : Tbl.rising t = true ↔ (t.map Prod.fst).Pairwise (· < ·) := by
  induction t with
  | nil => simp [Tbl.rising]
  | cons e t ih =>
    cases t with
    | nil => simp [Tbl.rising]
    | cons e' t =>
      simp only [Tbl.rising, Bool.and_eq_true, decide_eq_true_eq, ih, List.map_cons, List.pairwise_cons]
      constructor
      · rintro ⟨h, h1, h2⟩
        refine ⟨?_, h1, h2⟩
        intro x hx
        rcases List.mem_cons.1 hx with rfl | hx
        · exact h
        · exact Nat.lt_trans h (h1 x hx)
      · rintro ⟨h, h1, h2⟩
        exact ⟨h _ (List.mem_cons_self ..), h1, h2⟩

theorem Tbl.del_eq_filter (t : Tbl α) (k : Nat) : t.del k = t.filter fun e => decide (e.1 ≠ k) := by
  induction t with
  | nil => rfl
  | cons e t ih =>
    obtain ⟨a, v⟩ := e
    by_cases h : a = k <;> simp [Tbl.del, h, ih]

theorem Tbl.rising_filter (t : Tbl α) (p : Nat × α → Bool) (h : Tbl.rising t = true) : Tbl.rising (t.filter p) = true :=
  (Tbl.rising_iff _).2 (List.Pairwise.sublist (List.Sublist.map _ List.filter_sublist) ((Tbl.rising_iff t).1 h))

theorem Tbl.mem_ins (t : Tbl α) (k : Nat) (x : α) (e : Nat × α) (h : e ∈ Tbl.ins t k x) : e = (k, x) ∨ e ∈ t := by
  induction t with
  | nil => simpa [Tbl.ins] using h
  | cons c t ih =>
    obtain ⟨a, v⟩ := c
    by_cases hk : k < a
    · simpa [Tbl.ins, hk] using h
    · simp only [Tbl.ins, hk, if_false, List.mem_cons] at h ⊢
      rcases h with h | h
      · exact .inr (.inl h)
      · rcases ih h with h | h
        · exact .inl h
        · exact .inr (.inr h)

theorem Tbl.rising_ins (t : Tbl α) (k : Nat) (x : α) (hn : ∀ e ∈ t, e.1 ≠ k) (h : Tbl.rising t = true) :
    Tbl.rising (Tbl.ins t k x) = true := by
  rw [Tbl.rising_iff] at h ⊢
  induction t with
  | nil => simp [Tbl.ins]
  | cons c t ih =>
    obtain ⟨a, v⟩ := c
    simp only [List.map_cons, List.pairwise_cons] at h
    have ha : a ≠ k := hn (a, v) (List.mem_cons_self ..)
    by_cases hk : k < a
    · simp only [Tbl.ins, hk, if_true, List.map_cons, List.pairwise_cons]
      refine ⟨fun y hy => ?_, h.1, h.2⟩
      rcases List.mem_cons.1 hy with rfl | hy
      · exact hk
      · exact Nat.lt_trans hk (h.1 y hy)
    · simp only [Tbl.ins, hk, if_false, List.map_cons, List.pairwise_cons]
      refine ⟨fun y hy => ?_, ih (fun e he => hn e (List.mem_cons_of_mem _ he)) h.2⟩
      obtain ⟨e, he, rfl⟩ := List.mem_map.1 hy
      rcases Tbl.mem_ins t k x e he with rfl | he
      · show a < k
        omega
      · exact h.1 _ (List.mem_map.2 ⟨e, he, rfl⟩)

theorem Tbl.rising_put (t : Tbl α) (k : Nat) (x : α) (h : Tbl.rising t = true) : Tbl.rising (t.put k x) = true := by
  unfold Tbl.put
  rw [Tbl.del_eq_filter]
  refine Tbl.rising_ins _ k x (fun e he => ?_) (Tbl.rising_filter t _ h)
  simpa using (List.mem_filter.1 he).2

theorem Memory.wf_put {n : Nat} (m : Mem n) (a : Nat) (x : BitVec n) (h : Memory.wf m = true) :
    Memory.wf (Mem.put m a x) = true := by
  unfold Memory.wf at h ⊢
  simp only [Bool.and_eq_true, List.all_eq_true, decide_eq_true_eq] at h ⊢
  unfold Mem.put
  split
  · rw [Tbl.del_eq_filter]
    exact ⟨Tbl.rising_filter m _ h.1, fun e he => h.2 e (List.mem_filter.1 he).1⟩
  · next hx =>
    refine ⟨Tbl.rising_put m a x h.1, fun e he => ?_⟩
    unfold Tbl.put at he
    rw [Tbl.del_eq_filter] at he
    rcases Tbl.mem_ins _ a x e he with rfl | he
    · exact hx
    · exact h.2 e (List.mem_filter.1 he).1

theorem Memory.wf_putRun {n : Nat} (m : Mem n) (a : Nat) (l : List (BitVec n)) (h : Memory.wf m = true) :
    Memory.wf (Mem.putRun m a l) = true := by
  induction l generalizing m a with
  | nil => exact h
  | cons x l ih => exact ih (Mem.put m a x) (a + 1) (Memory.wf_put m a x h)

theorem Memory.wf_keep {n : Nat} (m : Mem n) (f : Nat → Bool) (h : Memory.wf m = true) :
    Memory.wf (Tbl.keep m f : Mem n) = true := by
  unfold Memory.wf at h ⊢
  simp only [Bool.and_eq_true, List.all_eq_true, decide_eq_true_eq] at h ⊢
  exact ⟨Tbl.rising_filter m _ h.1, fun e he => h.2 e (List.mem_filter.1 he).1⟩

end Sys2Proof.Machine
end

