-- ==== Sys2Proof/Laws/Units.lean ====
section
/-!
SUPPORT. Sys2Proof/Laws/Units.lean: reading a unit or a register field after a basic update.
-/
namespace Sys2Proof.Machine

/-! ### Units -/

@[simp] theorem State.clu_setClu_same (s : State) (i : Nat) (x : Cluster) : (s.setClu i x).clu i = x := by
  simp [State.clu]
theorem State.clu_setClu_other (s : State) {i j : Nat} (x : Cluster) (h : j ≠ i) : (s.setClu i x).clu j = s.clu j := by
  simp [State.clu, Tbl.get_put_other _ _ _ h]
@[simp] theorem State.clu_modClu_same (s : State) (i : Nat) (f : Cluster → Cluster) : (s.modClu i f).clu i = f (s.clu i) := by
  simp [State.modClu]
@[simp] theorem State.rch_setRch_same (s : State) (i : Nat) (x : Reach) : (s.setRch i x).rch i = x := by
  simp [State.rch]
theorem State.rch_setRch_other (s : State) {i j : Nat} (x : Reach) (h : j ≠ i) : (s.setRch i x).rch j = s.rch j := by
  simp [State.rch, Tbl.get_put_other _ _ _ h]
@[simp] theorem State.rch_modRch_same (s : State) (i : Nat) (f : Reach → Reach) : (s.modRch i f).rch i = f (s.rch i) := by
  simp [State.modRch]
@[simp] theorem State.part_setPart_same (s : State) (i : Nat) (x : Part) : (s.setPart i x).part i = x := by
  simp [State.part]
theorem State.part_setPart_other (s : State) {i j : Nat} (x : Part) (h : j ≠ i) : (s.setPart i x).part j = s.part j := by
  simp [State.part, Tbl.get_put_other _ _ _ h]
@[simp] theorem State.part_modPart_same (s : State) (i : Nat) (f : Part → Part) : (s.modPart i f).part i = f (s.part i) := by
  simp [State.modPart]
@[simp] theorem State.lnk_setLnk_same (s : State) (i : Nat) (x : Link) : (s.setLnk i x).lnk i = x := by
  simp [State.lnk]
theorem State.lnk_setLnk_other (s : State) {i j : Nat} (x : Link) (h : j ≠ i) : (s.setLnk i x).lnk j = s.lnk j := by
  simp [State.lnk, Tbl.get_put_other _ _ _ h]
@[simp] theorem State.lnk_modLnk_same (s : State) (i : Nat) (f : Link → Link) : (s.modLnk i f).lnk i = f (s.lnk i) := by
  simp [State.modLnk]
@[simp] theorem State.kpr_setKpr_same (s : State) (i : Nat) (x : Keeper) : (s.setKpr i x).kpr i = x := by
  simp [State.kpr]
theorem State.kpr_setKpr_other (s : State) {i j : Nat} (x : Keeper) (h : j ≠ i) : (s.setKpr i x).kpr j = s.kpr j := by
  simp [State.kpr, Tbl.get_put_other _ _ _ h]
@[simp] theorem State.kpr_modKpr_same (s : State) (i : Nat) (f : Keeper → Keeper) : (s.modKpr i f).kpr i = f (s.kpr i) := by
  simp [State.modKpr]
@[simp] theorem State.src_setSrc_same (s : State) (i : Nat) (x : Src) : (s.setSrc i x).src i = x := by
  simp [State.src]
theorem State.src_setSrc_other (s : State) {i j : Nat} (x : Src) (h : j ≠ i) : (s.setSrc i x).src j = s.src j := by
  simp [State.src, Tbl.get_put_other _ _ _ h]
@[simp] theorem State.src_modSrc_same (s : State) (i : Nat) (f : Src → Src) : (s.modSrc i f).src i = f (s.src i) := by
  simp [State.modSrc]
@[simp] theorem State.queue_setQueue_same (s : State) (i : Nat) (x : Queue) : (s.setQueue i x).queue i = x := by
  simp [State.queue]
theorem State.queue_setQueue_other (s : State) {i j : Nat} (x : Queue) (h : j ≠ i) : (s.setQueue i x).queue j = s.queue j := by
  simp [State.queue, Tbl.get_put_other _ _ _ h]
@[simp] theorem State.fn_setFn_same (s : State) (i : Nat) (x : Fn) : (s.setFn i x).fn i = x := by
  simp [State.fn]
theorem State.fn_setFn_other (s : State) {i j : Nat} (x : Fn) (h : j ≠ i) : (s.setFn i x).fn j = s.fn j := by
  simp [State.fn, Tbl.get_put_other _ _ _ h]
@[simp] theorem State.chan_setChan_same (s : State) (i : Nat) (x : Channel) : (s.setChan i x).chan i = x := by
  simp [State.chan]
theorem State.chan_setChan_other (s : State) {i j : Nat} (x : Channel) (h : j ≠ i) : (s.setChan i x).chan j = s.chan j := by
  simp [State.chan, Tbl.get_put_other _ _ _ h]
@[simp] theorem State.chk_setChk_same (s : State) (i : Nat) (x : Chk) : (s.setChk i x).chk i = x := by
  simp [State.chk]
theorem State.chk_setChk_other (s : State) {i j : Nat} (x : Chk) (h : j ≠ i) : (s.setChk i x).chk j = s.chk j := by
  simp [State.chk, Tbl.get_put_other _ _ _ h]

/-! ### A register write leaves the units, a unit write leaves the registers -/

@[simp] theorem State.clu_setRg (s : State) (f : Field) (i v j : Nat) : (s.setRg f i v).clu j = s.clu j := rfl
@[simp] theorem State.clu_setRgw (s : State) (f : Field) (w i v j : Nat) : (s.setRgw f w i v).clu j = s.clu j := rfl
@[simp] theorem State.clu_answer (s : State) (v j : Nat) : (s.answer v).clu j = s.clu j := rfl
@[simp] theorem State.rch_setRg (s : State) (f : Field) (i v j : Nat) : (s.setRg f i v).rch j = s.rch j := rfl
@[simp] theorem State.rch_setRgw (s : State) (f : Field) (w i v j : Nat) : (s.setRgw f w i v).rch j = s.rch j := rfl
@[simp] theorem State.rch_answer (s : State) (v j : Nat) : (s.answer v).rch j = s.rch j := rfl
@[simp] theorem State.part_setRg (s : State) (f : Field) (i v j : Nat) : (s.setRg f i v).part j = s.part j := rfl
@[simp] theorem State.part_setRgw (s : State) (f : Field) (w i v j : Nat) : (s.setRgw f w i v).part j = s.part j := rfl
@[simp] theorem State.part_answer (s : State) (v j : Nat) : (s.answer v).part j = s.part j := rfl
@[simp] theorem State.lnk_setRg (s : State) (f : Field) (i v j : Nat) : (s.setRg f i v).lnk j = s.lnk j := rfl
@[simp] theorem State.lnk_setRgw (s : State) (f : Field) (w i v j : Nat) : (s.setRgw f w i v).lnk j = s.lnk j := rfl
@[simp] theorem State.lnk_answer (s : State) (v j : Nat) : (s.answer v).lnk j = s.lnk j := rfl
@[simp] theorem State.kpr_setRg (s : State) (f : Field) (i v j : Nat) : (s.setRg f i v).kpr j = s.kpr j := rfl
@[simp] theorem State.kpr_setRgw (s : State) (f : Field) (w i v j : Nat) : (s.setRgw f w i v).kpr j = s.kpr j := rfl
@[simp] theorem State.kpr_answer (s : State) (v j : Nat) : (s.answer v).kpr j = s.kpr j := rfl
@[simp] theorem State.src_setRg (s : State) (f : Field) (i v j : Nat) : (s.setRg f i v).src j = s.src j := rfl
@[simp] theorem State.src_setRgw (s : State) (f : Field) (w i v j : Nat) : (s.setRgw f w i v).src j = s.src j := rfl
@[simp] theorem State.src_answer (s : State) (v j : Nat) : (s.answer v).src j = s.src j := rfl
@[simp] theorem State.queue_setRg (s : State) (f : Field) (i v j : Nat) : (s.setRg f i v).queue j = s.queue j := rfl
@[simp] theorem State.queue_setRgw (s : State) (f : Field) (w i v j : Nat) : (s.setRgw f w i v).queue j = s.queue j := rfl
@[simp] theorem State.queue_answer (s : State) (v j : Nat) : (s.answer v).queue j = s.queue j := rfl
@[simp] theorem State.fn_setRg (s : State) (f : Field) (i v j : Nat) : (s.setRg f i v).fn j = s.fn j := rfl
@[simp] theorem State.fn_setRgw (s : State) (f : Field) (w i v j : Nat) : (s.setRgw f w i v).fn j = s.fn j := rfl
@[simp] theorem State.fn_answer (s : State) (v j : Nat) : (s.answer v).fn j = s.fn j := rfl
@[simp] theorem State.chan_setRg (s : State) (f : Field) (i v j : Nat) : (s.setRg f i v).chan j = s.chan j := rfl
@[simp] theorem State.chan_setRgw (s : State) (f : Field) (w i v j : Nat) : (s.setRgw f w i v).chan j = s.chan j := rfl
@[simp] theorem State.chan_answer (s : State) (v j : Nat) : (s.answer v).chan j = s.chan j := rfl
@[simp] theorem State.chk_setRg (s : State) (f : Field) (i v j : Nat) : (s.setRg f i v).chk j = s.chk j := rfl
@[simp] theorem State.chk_setRgw (s : State) (f : Field) (w i v j : Nat) : (s.setRgw f w i v).chk j = s.chk j := rfl
@[simp] theorem State.chk_answer (s : State) (v j : Nat) : (s.answer v).chk j = s.chk j := rfl
@[simp] theorem State.rg_setClu (s : State) (i : Nat) (x : Cluster) (f : Field) (j : Nat) : (s.setClu i x).rg f j = s.rg f j := rfl
@[simp] theorem State.rgw_setClu (s : State) (i : Nat) (x : Cluster) (f : Field) (w j : Nat) : (s.setClu i x).rgw f w j = s.rgw f w j := rfl
@[simp] theorem State.rg_setRch (s : State) (i : Nat) (x : Reach) (f : Field) (j : Nat) : (s.setRch i x).rg f j = s.rg f j := rfl
@[simp] theorem State.rgw_setRch (s : State) (i : Nat) (x : Reach) (f : Field) (w j : Nat) : (s.setRch i x).rgw f w j = s.rgw f w j := rfl
@[simp] theorem State.rg_setPart (s : State) (i : Nat) (x : Part) (f : Field) (j : Nat) : (s.setPart i x).rg f j = s.rg f j := rfl
@[simp] theorem State.rgw_setPart (s : State) (i : Nat) (x : Part) (f : Field) (w j : Nat) : (s.setPart i x).rgw f w j = s.rgw f w j := rfl
@[simp] theorem State.rg_setLnk (s : State) (i : Nat) (x : Link) (f : Field) (j : Nat) : (s.setLnk i x).rg f j = s.rg f j := rfl
@[simp] theorem State.rgw_setLnk (s : State) (i : Nat) (x : Link) (f : Field) (w j : Nat) : (s.setLnk i x).rgw f w j = s.rgw f w j := rfl
@[simp] theorem State.rg_setKpr (s : State) (i : Nat) (x : Keeper) (f : Field) (j : Nat) : (s.setKpr i x).rg f j = s.rg f j := rfl
@[simp] theorem State.rgw_setKpr (s : State) (i : Nat) (x : Keeper) (f : Field) (w j : Nat) : (s.setKpr i x).rgw f w j = s.rgw f w j := rfl
@[simp] theorem State.rg_setSrc (s : State) (i : Nat) (x : Src) (f : Field) (j : Nat) : (s.setSrc i x).rg f j = s.rg f j := rfl
@[simp] theorem State.rgw_setSrc (s : State) (i : Nat) (x : Src) (f : Field) (w j : Nat) : (s.setSrc i x).rgw f w j = s.rgw f w j := rfl
@[simp] theorem State.rg_setQueue (s : State) (i : Nat) (x : Queue) (f : Field) (j : Nat) : (s.setQueue i x).rg f j = s.rg f j := rfl
@[simp] theorem State.rgw_setQueue (s : State) (i : Nat) (x : Queue) (f : Field) (w j : Nat) : (s.setQueue i x).rgw f w j = s.rgw f w j := rfl
@[simp] theorem State.rg_setFn (s : State) (i : Nat) (x : Fn) (f : Field) (j : Nat) : (s.setFn i x).rg f j = s.rg f j := rfl
@[simp] theorem State.rgw_setFn (s : State) (i : Nat) (x : Fn) (f : Field) (w j : Nat) : (s.setFn i x).rgw f w j = s.rgw f w j := rfl
@[simp] theorem State.rg_setChan (s : State) (i : Nat) (x : Channel) (f : Field) (j : Nat) : (s.setChan i x).rg f j = s.rg f j := rfl
@[simp] theorem State.rgw_setChan (s : State) (i : Nat) (x : Channel) (f : Field) (w j : Nat) : (s.setChan i x).rgw f w j = s.rgw f w j := rfl
@[simp] theorem State.rg_setChk (s : State) (i : Nat) (x : Chk) (f : Field) (j : Nat) : (s.setChk i x).rg f j = s.rg f j := rfl
@[simp] theorem State.rgw_setChk (s : State) (i : Nat) (x : Chk) (f : Field) (w j : Nat) : (s.setChk i x).rgw f w j = s.rgw f w j := rfl
@[simp] theorem State.rg_answer (s : State) (v : Nat) (f : Field) (j : Nat) : (s.answer v).rg f j = s.rg f j := rfl
@[simp] theorem State.rgw_answer (s : State) (v : Nat) (f : Field) (w j : Nat) : (s.answer v).rgw f w j = s.rgw f w j := rfl

/-! ### Register fields -/

/-- Two fields of one key are one field, instance and copy. -/
theorem fieldKey_inj {f g : Field} {i j w v : Nat} (hf : f.lo < 32) (hg : g.lo < 32) (hi : i < 8192) (hj : j < 8192)
    (hw : w < 8) (hv : v < 8) (h : fieldKey f i w = fieldKey g j v) : f.addr = g.addr ∧ f.lo = g.lo ∧ i = j ∧ w = v := by
  simp only [fieldKey] at h
  omega

@[simp] theorem State.rg_setRg_same (s : State) (f : Field) (i v : Nat) : (s.setRg f i v).rg f i = v % 2 ^ f.width := by
  simp [State.rg]

theorem State.rg_setRg_other (s : State) (f g : Field) (i j v : Nat) (h : fieldKey g j 0 ≠ fieldKey f i 0) :
    (s.setRg f i v).rg g j = s.rg g j := by
  simp [State.rg, Tbl.find_put_other _ _ h]

@[simp] theorem State.rgw_setRgw_same (s : State) (f : Field) (w i v : Nat) : (s.setRgw f w i v).rgw f w i = v % 2 ^ f.width := by
  simp [State.rgw]

theorem State.rgw_setRgw_other (s : State) (f g : Field) (w u i j v : Nat) (h : fieldKey g j u ≠ fieldKey f i w) :
    (s.setRgw f w i v).rgw g u j = s.rgw g u j := by
  simp [State.rgw, Tbl.find_put_other _ _ h]

end Sys2Proof.Machine
end

