-- ==== Sys2Proof/Tests/Slice0.lean ====
section
/-!
SUPPORT. Sys2Proof/Tests/Slice0.lean: small tests. The theorems test_meets_X give, for each statement X that has hypotheses, states and
operands that meet them, clause by clause; the others check operand ranges and the manual's own examples.
-/
set_option Elab.async false

open Sys2Proof Sys2Proof.Machine Sys2Proof.Claims
namespace Sys2Proof.Tests
/-- A device in a mode, every domain On and every function enabled, with the listed register fields (field, instance, value). -/
def on (mode : Nat) (l : List (Field × Nat × Nat)) : State :=
  l.foldl (fun s e => s.setRg e.1 e.2.1 e.2.2)
    ((List.range 35).foldl (fun s d => s.setRg Reg.PWR_DOM_state d 1)
      { (State.reset.setRg Reg.PWR_MODE_mode 0 mode) with
        power := { State.reset.power with basinDefault := 0 }, fns := [(0, { memEnable := true, vfEnable := true, vfMem := true, numVfs := 15 })] })
/-- A device in a mode, its domains as reset leaves them, every function enabled, with the listed register fields. -/
def bare (mode : Nat) (l : List (Field × Nat × Nat)) : State :=
  l.foldl (fun s e => s.setRg e.1 e.2.1 e.2.2) { State.reset.setRg Reg.PWR_MODE_mode 0 mode with fns := [(0, { memEnable := true, vfEnable := true, vfMem := true, numVfs := 15 })] }
/-- Keeper k of Ready as it stands, its tables written as listed (table, index, cell, value), every limit of its stack set 0 at 255. -/
def kst (k : Nat) (x : Keeper) (l : List (Nat × Nat × Nat × Nat)) : State :=
  let t : Mem 14 := (((List.range 8).map fun c => ((1, 0, c, 255) : Nat × Nat × Nat × Nat)) ++ l).foldl
    (fun m e => Mem.put m (4096 * e.1 + 8 * e.2.1 + e.2.2.1) ((store (BitVec.ofNat 12 e.2.2.2)).setWidth 14)) []
  State.setKpr (on 1 [(Reg.KPR_CTRL_run, k, 1)]) k { x with tbl := t }
/-- The partition of tenant 0 in the states of `lk`. -/
def lkPart (kind : Nat) : Part :=
  { hdr := { deviceCount := if kind = 0 then 1 else 3 }, bound := [0], rootDev := if kind = 2 then 9 else 5 }
/-- A device whose tenant 0 has partition x in reach 0, in a partition mode and a lock phase, at pound 8, with checkpoints 7 and 6. It is
alone (kind 0), a leaf below device 5 (1), the root over device 6 (2) or between the two (3). -/
def lk (kind mode phase : Nat) (l : List (Field × Nat × Nat)) (x : Part) : State :=
  { bare 1 ([(Reg.RCH_OWNER_bound, 0, 1), (Reg.WHF_TSTAT_mode, 0, mode), (Reg.AQ_DEVID_devid, 0, 9), (Reg.AQ_STATUS_state, 15, 6),
      (Reg.AQ_STATUS_state, 14, 6), (Reg.LCK_POUNDt_pound, 0, 8), (Reg.LCK_CKPTt_newest, 0, 7), (Reg.LCK_CKPT_OLDt_older, 0, 6),
      (Reg.LCK_CKPT_OLDt_valid, 0, 1), (Reg.LCK_STATUSt_phase, 0, phase), (Reg.LCK_TREE_DATA_valid, 0, kind % 2),
      (Reg.LCK_TREE_DATA_device, 0, 5 * (kind % 2)), (Reg.LCK_TREE_DATA_root, 0, if kind = 2 then 1 else 0),
      (Reg.LCK_TREE_DATA_valid, 16, kind / 2), (Reg.LCK_TREE_DATA_device, 16, 6 * (kind / 2))] ++ l) with
    routes := [(10, store 15), (11, store 1), (12, store 14), (13, store 1)], parts := [(0, x)] }
/-- Clusters 1 to 16 are spares, so reach 0 has one position in use. -/
def solo : List (Field × Nat × Nat) := (List.range 16).map fun c => (Reg.CLU_ROLE_role, c + 1, 31)
/-- The bytes of a descriptor: source kind and pattern, destination kind and pattern, flags, length, the two endpoints, the size of an
element, the two strides, the next descriptor; its CRC is right. -/
def dsc (sk sp dk dp fl len src dst el ss ds nx : Nat) : BitVec 512 :=
  let l := leBytes 1 (sk + 16 * sp) ++ leBytes 1 (dk + 16 * dp) ++ leBytes 2 fl ++ leBytes 4 len ++ leBytes 8 src ++ leBytes 8 dst ++
    leBytes 2 el ++ leBytes 2 0 ++ leBytes 4 ss ++ leBytes 4 ds ++ leBytes 4 0 ++ leBytes 8 0 ++ leBytes 8 nx ++ leBytes 4 77
  BitVec.ofNat 512 (ofLe (l ++ leBytes 4 (crcOf 0 l)))
/-- What holds of the default and of every entry holds of every value of a table. -/
theorem tbl_all {α : Type} (t : Tbl α) (d : α) (p : α → Prop) (h0 : p d) (h : ∀ e ∈ t, p e.2) (q : Nat) : p (t.get q d) := by
  induction t with
  | nil => exact h0
  | cons e t ih =>
    simp only [Tbl.get, Tbl.find] at ih ⊢
    have h1 := h e (by simp)
    have h2 := ih fun x hx => h x (by simp [hx])
    split <;> first | exact h1 | exact h2
/-- A table of one entry gives the default elsewhere. -/
theorem tbl_other {α : Type} (k : Nat) (x d : α) (q : Nat) (h : q ≠ k) : Tbl.get [(k, x)] q d = d := by
  simp [Tbl.get, Tbl.find, h, Ne.symm h]

/-! ### Operands -/

theorem test_refused_lines :
    [Instr.gets 0 (2 ^ 29) 0, .getm 0 (2 ^ 29) 0, .putm 0 (2 ^ 29), .fwdGetm 0 (2 ^ 29), .retry 0 (2 ^ 29), .wakeMessage 0 (2 ^ 29),
      .wbAck 0 (2 ^ 29), .lineData 0 (2 ^ 29), .transactionEnd (2 ^ 29)].all (fun i => !i.wellFormed) = true := by decide

theorem test_refused_lengths :
    [Instr.codeword 0 [], .readResponse 0 0 [], .readResponse 0 1 [0], .commit 0 0 false (2 ^ 64) 0 0, .load 0 0 1 [] false,
      .input 0 0 0 0 [], .queueEntryWrite 0 0, .queueEntryWrite 0 4].all (fun i => !i.wellFormed) = true := by decide

theorem test_refused_operands :
    [Instr.pick 0 32, .testf 0 14, .kealaShl 0 16, .kealaShr 0 16, .kealaSar 0 16, .ldx 0 2, .stx 0 2, .rd 0 10, .wr 0 10, .scanb 0 2,
      .chkb 0 4, .semt 0 32, .semg 0 32, .winr 0 8, .winw 0 8, .ret 0 8, .illegalInstruction 0 0x2000].all
      (fun i => !i.wellFormed) = true := by decide

theorem test_refused_sources :
    [Instr.sourceEdge 0 false 9 0, .sourceEdge 0 false 135 0, .sourceEdge 0 true 424 0, .sourceEdge 0 true 408 1, .msixCoalesce 1 4,
      .msixUnmask 1 4].all (fun i => !i.wellFormed) = true := by decide

theorem test_refused_addresses :
    [Instr.configRequest 0 1 none, .memoryRequest 0 false 2 none, .memoryRequest 0 true 0x10000 none, .registerWrite .pf 1 0 15,
      .capstanAl 41, .capstanLg 41, .capstanRd 1, .capstanWr 1 0, .capstanBd 9600, .bringUpStep 3 .fuses, .bringUpStep 2 .rom,
      .bringUpStep 2 (.units [] [])].all (fun i => !i.wellFormed) = true := by decide

theorem test_taken_operands :
    [Instr.gets 0 (2 ^ 29 - 1) 0, .pick 0 31, .testf 0 13, .kealaSar 0 15, .rd 0 9, .chkb 0 3, .semg 0 31, .sourceEdge 0 false 8 0,
      .sourceEdge 0 true 407 5, .msixUnmask 0 15, .capstanAl 40, .capstanBd 115200, .bringUpStep 2 .fuses,
      .illegalInstruction 0 0x2FC0].all Instr.wellFormed = true := by decide

/-! ### The manual's own examples -/

/-- The crossbar entry of the example under R123. -/
theorem test_crossbar_entry :
    xbtCode (entryNat [0xFFF, 0xFFF, 0xFFF, 0xFF1, 0xFFF, 0xFFF, 0xFFF, 0x001]) 7 = 3 ∧
    xbtCode (entryNat [0xFFF, 0xFFF, 0xFFF, 0xFF1, 0xFFF, 0xFFF, 0xFFF, 0x001]) 6 = 31 := by decide +kernel

/-- Words of the formats of R360, written out bit by bit: a literal, the relative transfers, ops of the table of R362, a customer
instruction; an op that the table does not list, and an operand that PICK does not take. -/
theorem test_keala_words :
    kealaInstr 0 0b00_101010111100 = some (.literal 0 0xABC) ∧ kealaInstr 1 0b01_00_1000000001 = some (.jmp 1 0x201) ∧
    kealaInstr 1 0b01_01_0000000001 = some (.call 1 1) ∧ kealaInstr 2 0b01_10_1_000000101 = some (.bz 2 true 5) ∧
    kealaInstr 2 0b01_11_0_111111111 = some (.bnz 2 false 0x1FF) ∧ kealaInstr 3 0b10_000111_011111 = some (.pick 3 31) ∧
    kealaInstr 3 0b10_011110_111111 = some (.addi 3 63) ∧ kealaInstr 0 0b10_101010_001001 = some (.wr 0 9) ∧
    kealaInstr 0 0b10_111110_000000 = some (.reti 0) ∧ kealaInstr 0 0b11_000001_100000 = some (.customerInstruction 0 1 32) ∧
    kealaInstr 0 0b10_001101_000000 = none ∧ kealaInstr 0 0b10_000111_100000 = none := by decide

/-! ### States and operands that meet the statements' hypotheses -/

/-- States and operands that meet the hypotheses of CounterReads: an instance selected, none, and a locked checker. -/
theorem test_meets_CounterReads :
    (∃ x, counterOf (on 1 []) (.cluCntBank .pf) = some x ∧ x.inst = some 0 ∧ Readable (on 1 []) x.who x.addr) ∧
    (∃ x, counterOf (on 1 []) (.lckCntRollback (.keeper 3 1 0) 15) = some x ∧ x.inst = some 15 ∧ Readable (on 1 []) x.who x.addr) ∧
    (∃ x, counterOf (on 1 [(Reg.CLU_SEL_cluster, 0, 408)]) (.cluCntBank .pf) = some x ∧ x.inst = none ∧
      Readable (on 1 [(Reg.CLU_SEL_cluster, 0, 408)]) x.who x.addr) ∧
    ((on 1 [(Reg.AQ_PRBS_locked, 0, 1)]).selLane .pf = some 0 ∧ Readable (on 1 [(Reg.AQ_PRBS_locked, 0, 1)]) .pf 0x400030 ∧
      (on 1 [(Reg.AQ_PRBS_locked, 0, 1)]).on Reg.AQ_PRBS_locked 0 = true) := by
  refine ⟨⟨_, rfl, ?_, ?_⟩, ⟨_, rfl, ?_, ?_⟩, ⟨_, rfl, ?_, ?_⟩, ?_⟩ <;> decide +kernel

/-- A keeper, and one with thirty cells on its stack, that meet the hypotheses of the three groups of KealaOperations. -/
theorem test_meets_KealaOperations_groups :
    (let s : State := kst 3 { rg := 3, ds := (List.replicate 30 0xFFF#12).map store, sp := 30 } []
     let st : List Cell := List.replicate 30 0xFFF
     KReady s 3 st ∧ (∃ n f, stackOp (begun (s.kpr 3)) (.pick 3 29) = some (3, n, f) ∧ (Instr.pick 3 29).wellFormed = true ∧ n ≤ st.length) ∧
     (∃ n f, aluOp (begun (s.kpr 3)) (.kealaSar 3 15) = some (3, n, f) ∧ (Instr.kealaSar 3 15).wellFormed = true ∧ n ≤ st.length) ∧
     (∃ n f, registerOp (begun (s.kpr 3)) (.rd 3 9) = some (3, n, f) ∧ (Instr.rd 3 9).wellFormed = true ∧ n ≤ st.length)) ∧
    (let s : State := kst 0 { rg := 0, ds := [0x800#12].map store, sp := 1 } []
     let st : List Cell := [0x800]
     KReady s 0 st ∧ (∃ n f, stackOp (begun (s.kpr 0)) (.dup 0) = some (0, n, f) ∧ (Instr.dup 0).wellFormed = true ∧ n ≤ st.length) ∧
     (∃ n f, aluOp (begun (s.kpr 0)) (.not 0) = some (0, n, f) ∧ (Instr.not 0).wellFormed = true ∧ n ≤ st.length) ∧
     (∃ n f, registerOp (begun (s.kpr 0)) (.wr 0 7) = some (0, n, f) ∧ (Instr.wr 0 7).wellFormed = true ∧ n ≤ st.length)) := by
  refine ⟨⟨?_, ⟨_, _, rfl, ?_⟩, ⟨_, _, rfl, ?_⟩, ⟨_, _, rfl, ?_⟩⟩, ⟨?_, ⟨_, _, rfl, ?_⟩, ⟨_, _, rfl, ?_⟩, ⟨_, _, rfl, ?_⟩⟩⟩ <;>
    decide +kernel

/-- From reset, whose memories are in their form, a step answers a next state. -/
theorem test_meets_EveryStepKeepsMemoryForm : State.reset.memWf = true ∧ ∃ t, step State.reset = .next t := by
  exact ⟨by decide +kernel, _, rfl⟩

/-- States and operands that meet the hypotheses of StepRunsFrontCommand. -/
theorem test_meets_StepRunsFrontCommand :
    (let c : Instr := Instr.leak;
    let cs : List Instr := [Instr.dredgePass];
    let s : State := ({ State.reset with pending := [.leak, .dredgePass] });
    (s.pending = c :: cs)) := by
  dsimp only <;> decide +kernel

/-- States and operands that meet the hypotheses of KealaOperations. -/
theorem test_meets_KealaOperations :
    (let s : State := (kst 0 { rg := 3, ds := [0xFFF, 1].map store, sp := 2, rs := [0xFFF001].map sealedEntry, rp := 1 } []);
    let k : Fin 4 := 0;
    let st : List Cell := ([1] : List Cell);
    let es : List Nat := ([0xFFF001] : List Nat);
    let c := 0xFFF;
    (KReady s k.val (c :: st)) ∧ (RReady s k.val es)) ∧
    (let s : State := (kst 3 { rg := 3, ds := [0xFFF].map store, sp := 1, rs := [0xFFFFFF].map sealedEntry, rp := 1 } []);
    let k : Fin 4 := 3;
    let st : List Cell := ([0xFFF] : List Cell);
    let es : List Nat := ([] : List Nat);
    let e := 0xFFFFFF;
    (KReady s k.val st) ∧ (RReady s k.val (e :: es))) := by
  refine ⟨?_, ?_⟩ <;> (dsimp only <;> decide +kernel)

/-- States and operands that meet the hypotheses of KealaLocalMemory. -/
theorem test_meets_KealaLocalMemory :
    (let s : State := (kst 0 { rg := 3, ah := 0xF, al := 0xFFF, data := [(0xFFFF, store 0x123)] } []);
    let c : Instr := Instr.lda 0 0;
    let k : Fin 4 := 0;
    let a : Nat := 0xFFFF;
    let l : List Cell := ([] : List Cell);
    let st : List Cell := ([] : List Cell);
    let x : Keeper := begun (s.kpr 0);
    (loadOp (begun (s.kpr k.val)) st c = some (k, a, l, x)) ∧ (c.wellFormed = true) ∧ (KReady s k.val st) ∧ (localOk s k.val a = true) ∧
    (parityOk (Mem.get (s.kpr k.val).data a) = true)) ∧
    (let s : State := (kst 2 { rg := 3, ds := [0xF, 0xFFF, 7].map store, sp := 3 } []);
    let c : Instr := Instr.st 2;
    let k : Fin 4 := 2;
    let a : Nat := 0xFFFF;
    let v : Cell := 7;
    let l : List Cell := ([] : List Cell);
    let st : List Cell := ([0xF, 0xFFF, 7] : List Cell);
    let x : Keeper := begun (s.kpr 2);
    (storeOp (begun (s.kpr k.val)) st c = some (k, a, v, l, x)) ∧ (c.wellFormed = true) ∧ (KReady s k.val st) ∧
    (localOk s k.val a = true)) := by
  refine ⟨?_, ?_⟩ <;> (dsimp only <;> decide +kernel)

/-- States and operands that meet the hypotheses of KealaTransfersOfControl. -/
theorem test_meets_KealaTransfersOfControl :
    (let s : State := (kst 0 { rg := 3, pc := 32767, ds := [0].map store, sp := 1, rs := [].map sealedEntry, rp := 0 } []);
    let k : Fin 4 := 0;
    let st : List Cell := ([0] : List Cell);
    (KReady s k.val st) ∧ ((s.kpr k.val).pc < 32768) ∧
    (let es : List Nat := ([] : List Nat);
    (RReady s k.val es))) ∧
    (let s : State := (kst 0 { rg := 3, pc := 32767, ds := [0].map store, sp := 1, rs := [].map sealedEntry, rp := 0 } []);
    let k : Fin 4 := 0;
    let a : Cell := 0;
    let st : List Cell := ([] : List Cell);
    (KReady s k.val (a :: st)) ∧ ((s.kpr k.val).pc < 32768)) ∧
    (let s : State := (kst 0 { rg := 3, ds := [7, 0xFFF].map store, sp := 2, rs := [5].map sealedEntry, rp := 1 } []);
    let k : Fin 4 := 0;
    let lo : Cell := 0xFFF;
    let hi : Cell := 7;
    let st : List Cell := ([] : List Cell);
    let es : List Nat := ([5] : List Nat);
    (KReady s k.val (hi :: lo :: st)) ∧ (RReady s k.val es) ∧
    (oddOnes 17 (Mem.get (s.kpr k.val).itt (s.kpr k.val).ittIndex).toNat = false)) ∧
    (let s : State := (kst 0 { rg := 3, ds := [].map store, sp := 0, rs := [32767].map sealedEntry, rp := 1 } []);
    let k : Fin 4 := 0;
    let st : List Cell := ([] : List Cell);
    let a : Nat := 32767;
    let es : List Nat := ([] : List Nat);
    (KReady s k.val st) ∧ (a < 32768) ∧ (RReady s k.val (returnEntry 0 0 a :: es))) ∧
    (let s : State := (kst 0 { rg := 3, ds := [].map store, sp := 0, rs := [0x7F7FFF, 7, 6, 5, 4, 3, 0x002001].map sealedEntry, rp := 7 } []);
    let k : Fin 4 := 0;
    let st : List Cell := ([] : List Cell);
    let a : Nat := 32767;
    let m : BitVec 6 := 63;
    let y : Keeper := ({ v := 7, u := 6, fl := 5, jx := 4, ix := 3, ah := 2, al := 1 } : Keeper);
    let es : List Nat := ([] : List Nat);
    (KReady s k.val st) ∧ (a < 32768) ∧ (RReady s k.val (returnEntry 1 m.toNat a :: (maskedRegisters y m ++ es)))) ∧
    (let s : State := (kst 0 { rg := 3, ds := [].map store, sp := 0, rs := [].map sealedEntry, rp := 0 } [(4, 63, 1, 0x800)]);
    let k : Fin 4 := 0;
    let g : BitVec 6 := 63;
    let st : List Cell := ([] : List Cell);
    let es : List Nat := ([] : List Nat);
    let x := begun (s.kpr k.val);
    let cells := gateCells s k.val x.ring g.toNat;
    let c1 := cells[1]?.getD 0;
    (KReady s k.val st) ∧ (RReady s k.val es) ∧ (x.ring ≠ 0) ∧ (gateReads s k.val x.ring g.toNat = true) ∧ (c1.testBit 11 = true) ∧
    (c1 / 8 % 4 < x.ring) ∧ (c1 / 32 % 8 ≤ st.length) ∧ (c1 / 256 % 8 = x.set) ∧ (cells.drop 2 = [0, 0, 0, 0])) ∧
    (let s : State := (kst 0 { rg := 0, ds := [].map store, sp := 0, rs := [0x837FFF].map sealedEntry, rp := 1 } [(8, 0, 0, 255), (8, 0, 3, 255)]);
    let k : Fin 4 := 0;
    let n : BitVec 6 := 0;
    let q : Nat := 3;
    let a : Nat := 32767;
    let st : List Cell := ([] : List Cell);
    let es : List Nat := ([] : List Nat);
    let x := begun (s.kpr k.val);
    (KReady s k.val st) ∧ (n.toNat < 8) ∧ (n.toNat ≤ st.length) ∧ (x.ring ≤ q) ∧ (q < 4) ∧ (a < 32768) ∧
    (RReady s k.val (returnEntry 2 (q + x.set * 4) a :: es))) := by
  refine ⟨?_, ?_, ?_, ?_, ?_, ?_, ?_⟩ <;> (dsimp only <;> decide +kernel)

/-- States and operands that meet the hypotheses of KealaEntriesAndReturn. -/
theorem test_meets_KealaEntriesAndReturn :
    (let s : State := (kst 0 { rg := 3, pc := 5, ds := [].map store, sp := 0, rs := [].map sealedEntry, rp := 0 } [(0, 5, 0, 9)]);
    let c : Instr := Instr.brk 0;
    let k : Fin 4 := 0;
    let code : Nat := 7;
    let detail : Nat := 0;
    let a : Nat := 9;
    let after : Bool := true;
    let st : List Cell := ([] : List Cell);
    let es : List Nat := ([] : List Nat);
    (faultOf c = some (k, code, detail, after)) ∧ (c.wellFormed = true) ∧ (KReady s k.val st) ∧ (RReady s k.val es) ∧
    (let x := begun (s.kpr k.val);
    (x.dfl = false) ∧ (x.inBlock = false) ∧ (x.pc < 32768) ∧ (vectorTo s k.val (if 2 ≤ x.ring then 5 else 6) = some a))) ∧
    (let s : State := (kst 1 { rg := 3, pc := 32767, takeover := true, rs := [].map sealedEntry, rp := 0 } [(0, 2, 0, 9)]);
    let k : Fin 4 := 1;
    let v : Nat := 2;
    let a : Nat := 9;
    let es : List Nat := ([] : List Nat);
    (v = 2 ∨ v = 3 ∨ v = 4) ∧ (s.keeperOn k.val = true) ∧ (s.eventAt k.val = some v) ∧ (s.on Reg.TST_FLIP_arm = false) ∧
    (RReady s k.val es) ∧ ((s.kpr k.val).pc < 32768) ∧ (vectorTo s k.val v = some a) ∧
    ((v = 2 → ∀ t < 16, s.rg Reg.LCK_STATUSt_phase t ≠ 4 ∨ (s.part t).hooksOpen = []))) ∧
    (let s : State := (kst 0 { rg := 0, ds := [].map store, sp := 0, rs := [0xC07FFF, 0, 0, 0, 0, 0, 0, 0].map sealedEntry, rp := 8 } [(8, 0, 0, 255), (8, 0, 3, 255)]);
    let k : Fin 4 := 0;
    let y : Keeper := ({} : Keeper);
    let a : Nat := 32767;
    let st : List Cell := ([] : List Cell);
    let es : List Nat := ([] : List Nat);
    let x := begun (s.kpr k.val);
    (KReady s k.val st) ∧ (x.ring ≤ 1) ∧ (a < 32768) ∧ (y.set = x.set) ∧
    (RReady s k.val ([returnEntry 3 0 a, y.rg.toNat, y.v.toNat, y.u.toNat, y.fl.toNat, y.jx.toNat, y.ix.toNat,
        y.al.toNat + y.ah.toNat * 4096] ++ es))) := by
  refine ⟨?_, ?_, ?_⟩ <;> (dsimp only <;> decide +kernel)

/-- States and operands that meet the hypotheses of KealaBlockOperations. -/
theorem test_meets_KealaBlockOperations :
    (let s : State := (kst 0 { rg := 3, ds := [1, 0xF, 0xFFF, 0, 1].map store, sp := 5 } []);
    let k : Fin 4 := 0;
    let n : Cell := 1;
    let sl : Cell := 1;
    let sh : Cell := 0;
    let dl : Cell := 0xFFF;
    let dh : Cell := 0xF;
    let st : List Cell := ([] : List Cell);
    let x := begun (s.kpr k.val);
    let src := sl.toNat + sh.toNat * 4096;
    let dst := dl.toNat + dh.toNat * 4096;
    (n ≠ 0) ∧ (localOk s k.val dst = true) ∧ (KReady s k.val ([n, dh, dl, sh, sl] ++ st)) ∧ (localOk s k.val src = true) ∧
    (parityOk (Mem.get x.data src) = true)) ∧
    (let s : State := (kst 0 { rg := 3, ds := [0xFFF, 5, 0xF, 0xFFF].map store, sp := 4 } []);
    let k : Fin 4 := 0;
    let n : Cell := 0xFFF;
    let v : Cell := 5;
    let dl : Cell := 0xFFF;
    let dh : Cell := 0xF;
    let st : List Cell := ([] : List Cell);
    let dst := dl.toNat + dh.toNat * 4096;
    (n ≠ 0) ∧ (localOk s k.val dst = true) ∧ (KReady s k.val ([n, v, dh, dl] ++ st))) ∧
    (let s : State := (kst 0 { rg := 3, ds := [0, 5, 0xF, 0xFFF].map store, sp := 4 } []);
    let k : Fin 4 := 0;
    let n : Cell := 0;
    let v : Cell := 5;
    let sl : Cell := 0xFFF;
    let sh : Cell := 0xF;
    let st : List Cell := ([] : List Cell);
    let x := begun (s.kpr k.val);
    let src := sl.toNat + sh.toNat * 4096;
    (KReady s k.val ([n, v, sh, sl] ++ st)) ∧ (x.fl.toNat < 16) ∧ (localOk s k.val src = true) ∧ (parityOk (Mem.get x.data src) = true)) ∧
    (let s : State := (kst 0 { rg := 3, ds := [0, 1, 2, 3, 4].map store, sp := 5 } []);
    let k : Fin 4 := 0;
    let u : BitVec 6 := 3;
    let a : Cell := 1;
    let b : Cell := 2;
    let c : Cell := 3;
    let d : Cell := 4;
    let st : List Cell := ([] : List Cell);
    (u.toNat < 4) ∧ (KReady s k.val ([0, a, b, c, d] ++ st))) ∧
    (let s : State := (kst 0 { rg := 3, ds := [0, 1, 2, 3].map store, sp := 4 } []);
    let k : Fin 4 := 0;
    let u : BitVec 6 := 3;
    let a : Cell := 1;
    let b : Cell := 2;
    let c : Cell := 3;
    let st : List Cell := ([] : List Cell);
    (u.toNat < 4) ∧ (KReady s k.val ([0, a, b, c] ++ st))) ∧
    (let s : State := (kst 0 { rg := 3, ds := [0, 1, 2].map store, sp := 3 } []);
    let k : Fin 4 := 0;
    let u : BitVec 6 := 3;
    let a : Cell := 1;
    let b : Cell := 2;
    let st : List Cell := ([] : List Cell);
    (u.toNat < 4) ∧ (KReady s k.val ([0, a, b] ++ st))) ∧
    (let s : State := ((kst 2 { rg := 3, ds := [1, 0xF, 0xFFF].map store, sp := 3 } []).setRg Reg.CHK_ASSIGNu_kind 3 1 |>.setRg Reg.CHK_ASSIGNu_id 3 2);
    let k : Fin 4 := 2;
    let u : BitVec 6 := 3;
    let n : Cell := 1;
    let sl : Cell := 0xFFF;
    let sh : Cell := 0xF;
    let st : List Cell := ([] : List Cell);
    (u.toNat < 4) ∧
    (let x := begun (s.kpr k.val);
    let src := sl.toNat + sh.toNat * 4096;
    (n ≠ 0) ∧ (KReady s k.val ([n, sh, sl] ++ st)) ∧ (localOk s k.val src = true) ∧ (parityOk (Mem.get x.data src) = true) ∧
    (s.rg Reg.CHK_ASSIGNu_kind u.toNat = 1) ∧ (s.rg Reg.CHK_ASSIGNu_id u.toNat = k.val) ∧
    (s.on Reg.CHK_SCANu_CTRL_busy u.toNat = false))) := by
  refine ⟨?_, ?_, ?_, ?_, ?_, ?_, ?_⟩ <;> (dsimp only <;> decide +kernel)

/-- States and operands that meet the hypotheses of KealaSystemOperations. -/
theorem test_meets_KealaSystemOperations :
    (let s : State := ({ (kst 0 { rg := 1, ds := [].map store, sp := 0 } [(8, 0, 1, 255), (8, 0, 4, 255)]) with sems := [(0, 3)] });
    let k : Fin 4 := 0;
    let n : BitVec 6 := 0;
    let st : List Cell := ([] : List Cell);
    let x := begun (s.kpr k.val);
    (KReady s k.val st) ∧ (n.toNat < 32) ∧ ((n.toNat < 16 → x.ring ≤ 1)) ∧
    (let j := 3;
    (s.sems.find n.toNat = some j))) ∧
    (let s : State := (kst 0 { rg := 3, ds := [].map store, sp := 0 } []);
    let k : Fin 4 := 0;
    let n : BitVec 6 := 31;
    let st : List Cell := ([] : List Cell);
    let x := begun (s.kpr k.val);
    (KReady s k.val st) ∧ (n.toNat < 32) ∧ ((n.toNat < 16 → x.ring ≤ 1)) ∧ (s.sems.find n.toNat = none) ∧
    (s.rg Reg.KPR_SEM_RST_released < 2 ^ 32)) ∧
    (let s : State := ({ (kst 0 { rg := 3, ds := [].map store, sp := 0 } []) with sems := [(16, 0)] });
    let k : Fin 4 := 0;
    let n : BitVec 6 := 16;
    let st : List Cell := ([] : List Cell);
    let x := begun (s.kpr k.val);
    (KReady s k.val st) ∧ (n.toNat < 32) ∧ ((n.toNat < 16 → x.ring ≤ 1)) ∧ (s.sems.find n.toNat = some k.val)) ∧
    (let s : State := (kst 0 { rg := 1, ds := [].map store, sp := 0 } [(8, 0, 1, 255), (8, 0, 4, 255), (9, 7, 0, 0xFFF)]);
    let k : Fin 4 := 0;
    let w : BitVec 6 := 7;
    let st : List Cell := ([] : List Cell);
    let x := begun (s.kpr k.val);
    (w.toNat < 8) ∧ (x.ring ≤ 1) ∧
    (let lo := 0xFFF;
    let hi := 0;
    (s.getTbl k.val 9 w.toNat 0 = .ok lo) ∧ (s.getTbl k.val 9 w.toNat 1 = .ok hi) ∧ (KReady s k.val st))) ∧
    (let s : State := (kst 0 { rg := 1, ds := [0xFFF, 1].map store, sp := 2 } [(8, 0, 1, 255), (8, 0, 4, 255)]);
    let k : Fin 4 := 0;
    let w : BitVec 6 := 7;
    let st : List Cell := ([] : List Cell);
    let x := begun (s.kpr k.val);
    (w.toNat < 8) ∧ (x.ring ≤ 1) ∧
    (let lo : Cell := 1;
    let hi : Cell := 0xFFF;
    (KReady s k.val (hi :: lo :: st)))) ∧
    (let s : State := (kst 0 { rg := 3, ds := [].map store, sp := 0 } [(6, 63, 0, 0x8FF), (6, 63, 1, 0x180), (7, 255, 0, 0xFC5), (7, 255, 1, 2)]);
    let k : Fin 4 := 0;
    let index : BitVec 6 := 63;
    let c0 : Nat := 0x8FF;
    let c1 : Nat := 0x180;
    let lo : Nat := 0xFC5;
    let hi : Nat := 2;
    let st : List Cell := ([] : List Cell);
    let x := begun (s.kpr k.val);
    (KReady s k.val st) ∧ (s.getTbl k.val 6 index.toNat 0 = .ok c0) ∧ (s.getTbl k.val 6 index.toNat 1 = .ok c1) ∧
    (c0.testBit 11 = true) ∧ (c1.testBit (4 + x.ring) = true) ∧ ((c1.testBit 8 = true ∨ c1 % 16 = x.tenant)) ∧
    (s.getTbl k.val 7 (c0 % 256) 0 = .ok lo) ∧ (s.getTbl k.val 7 (c0 % 256) 1 = .ok hi) ∧ (lo / 64 = 0x3F) ∧ (hi.testBit 1 = true)) := by
  refine ⟨?_, ?_, ?_, ?_, ?_, ?_⟩ <;> (dsimp only <;> decide +kernel)

/-- States and operands that meet the hypotheses of MemoryAndTableWindows. -/
theorem test_meets_MemoryAndTableWindows :
    (let s : State := (on 1 [(Reg.CLU_VM_ADDR_cell, 0, 0xFFF), (Reg.CLU_PM_ADDR_word, 0, 1023), (Reg.CLU_PM_ADDR_cell, 0, 71)]);
    let who : Requester := (Requester.pf);
    let c : Nat := 0;
    (s.selCluster who = some c) ∧ (s.cluOpen who c = true) ∧ (s.on Reg.TST_FLIP_arm = false) ∧
    (let k := copyOf who;
    let x := s.clu c;
    let a := s.rgw Reg.CLU_VM_ADDR_cell k;
    let w := s.rgw Reg.CLU_PM_ADDR_word k;
    let e := s.rgw Reg.CLU_PM_ADDR_cell k;
    (a < 4096) ∧ (e < 72) ∧ (w < 1024) ∧ (Writable s who Reg.CLU_VM_DATA.addr) ∧ (parityOk (Mem.get x.vm a) = true) ∧
    (Readable s who Reg.CLU_VM_DATA.addr) ∧ (Writable s who Reg.CLU_PM_DATA.addr) ∧ (Readable s who Reg.CLU_PM_DATA.addr) ∧
    (let index := s.rgw Reg.LCK_TREE_ADDR_index k;
    (index < 17) ∧ (Readable s who 0x500004)))) ∧
    (let s : State := (on 1 [(Reg.RCH_BMAP_ADDR_cell, 0, 2), (Reg.RCH_BMAP_ADDR_berth, 0, 4095)]);
    let who : Requester := (Requester.pf);
    let r : Nat := 0;
    let v : Word := (0xFFFFFFFF : Word);
    let w : Win := (windows[2]);
    let wr : Instr := Instr.rchBmapData .pf (some 0xFFFFFFFF);
    let rd : Instr := Instr.rchBmapData .pf none;
    (w ∈ windows) ∧ (w.Access who (some v) wr) ∧ (w.Access who none rd) ∧ (s.selReach who = some r) ∧ (s.rchOpen who r = true) ∧
    (s.on Reg.TST_FLIP_arm = false) ∧
    (let k := copyOf who;
    let c := s.rgw w.cell k;
    let e := s.rgw w.entry k;
    (c < w.cells) ∧ (e < w.entries) ∧ (Writable s who w.data.addr) ∧ (Readable s who w.data.addr))) ∧
    (let s : State := ({ (on 1 [(Reg.CLU_CTRL_enable, 0, 1), (Reg.RCH_OWNER_bound, 0, 1), (Reg.WHF_TSTAT_mode, 0, 2), (Reg.CLU_CTRL_dist_mode, 0, 1)]) with clusters := [(0, { st := 1 })] });
    let who : Requester := (Requester.pf);
    let v : Word := (0 : Word);
    let c := 0;
    (s.selCluster who = some c) ∧ (s.cluOpen who c = false) ∧ (Writable s who Reg.CLU_VM_DATA.addr) ∧
    (Readable s who Reg.CLU_VM_DATA.addr) ∧ (Writable s who Reg.CLU_PM_DATA.addr) ∧ (Readable s who Reg.CLU_PM_DATA.addr) ∧
    (let r := 0;
    (s.selReach who = some r) ∧ (s.rchOpen who r = false) ∧
    (let w : Win := (windows[2]);
    let wr : Instr := (Instr.rchBmapData (Requester.pf) (some (0 : Word)));
    let rd : Instr := (Instr.rchBmapData (Requester.pf) none);
    (w ∈ windows) ∧ (w.Access who (some v) wr) ∧ (w.Access who none rd) ∧ (Writable s who w.data.addr) ∧ (Readable s who w.data.addr)))) ∧
    (let s : State := (on 1 [(Reg.LCK_TREE_ADDR_index, 0, 16)]);
    let who : Requester := (Requester.keeper 0 0 0);
    let k := copyOf who;
    let index := s.rgw Reg.LCK_TREE_ADDR_index k;
    let i := 17 * s.rgw Reg.LCK_TREE_ADDR_tenant k + index;
    (index < 17) ∧ (Writable s who 0x500004) ∧ (s.loaded (i / 17) = false)) := by
  refine ⟨?_, ?_, ?_, ?_⟩ <;>
    (dsimp only <;> and_intros <;> first
      | decide +kernel
      | exact List.getElem_mem _
      | exact .inl ⟨rfl, rfl⟩
      | exact .inr (.inl ⟨rfl, rfl⟩)
      | exact .inr (.inr ⟨rfl, rfl⟩))

/-- States and operands that meet the hypotheses of ClusterControls. -/
theorem test_meets_ClusterControls :
    (let s : State := ({ (on 1 []) with clusters := [(0, { st := 6, stopBit := some 0 })] });
    let who : Requester := (Requester.pf);
    let v : Word := (0 : Word);
    let c := 0;
    (s.selCluster who = some c) ∧ (Writable s who Reg.CLU_CTRL.addr) ∧
    (let fixed := s.on Reg.CLU_CTRL_enable c = true ∧ Reg.CLU_CTRL_dist_mode.of v ≠ s.rg Reg.CLU_CTRL_dist_mode c;
    (¬ fixed))) ∧
    (let s : State := ({ (on 1 [(Reg.CLU_CTRL_enable, 0, 1), (Reg.RCH_OWNER_bound, 0, 1), (Reg.WHF_TSTAT_mode, 0, 2), (Reg.CLU_CTRL_dist_mode, 0, 1)]) with clusters := [(0, { st := 1 })] });
    let who : Requester := (Requester.pf);
    let v : Word := (0 : Word);
    let c := 0;
    (s.selCluster who = some c) ∧ (Writable s who Reg.CLU_CTRL.addr) ∧
    (let fixed := s.on Reg.CLU_CTRL_enable c = true ∧ Reg.CLU_CTRL_dist_mode.of v ≠ s.rg Reg.CLU_CTRL_dist_mode c;
    (fixed))) ∧
    (let s : State := ({ (on 1 [(Reg.CLU_CTRL_enable, 0, 1), (Reg.RCH_OWNER_bound, 0, 1), (Reg.WHF_TSTAT_mode, 0, 2), (Reg.CLU_CTRL_dist_mode, 0, 1)]) with clusters := [(0, { st := 1 })] });
    let who : Requester := (Requester.pf);
    let v : Word := (0 : Word);
    let r := 0;
    (s.selReach who = some r) ∧ (Writable s who Reg.RCH_CTRL.addr) ∧
    (let fixed := s.on Reg.RCH_CTRL_enable r = true ∧
      (Reg.RCH_CTRL_margin.of v ≠ s.rg Reg.RCH_CTRL_margin r ∨ Reg.RCH_CTRL_steps_m1.of v ≠ s.rg Reg.RCH_CTRL_steps_m1 r);
    (¬ fixed) ∧
    (let c : Nat := 0;
    (s.selCluster who = some c) ∧ (Writable s who Reg.CLU_RESUME.addr) ∧ ((Reg.CLU_RESUME_resume.of v = 0 ∨ (s.clu c).st ≠ 6))))) ∧
    (let s : State := (on 1 [(Reg.CLU_CTRL_enable, 407, 1), (Reg.RCH_CTRL_enable, 23, 1), (Reg.CLU_SEL_cluster, 0, 407), (Reg.RCH_SEL_reach, 0, 23)]);
    let who : Requester := (Requester.pf);
    let v : Word := (0xFFFFFFFF : Word);
    let r := 23;
    (s.selReach who = some r) ∧ (Writable s who Reg.RCH_CTRL.addr) ∧
    (let fixed := s.on Reg.RCH_CTRL_enable r = true ∧
      (Reg.RCH_CTRL_margin.of v ≠ s.rg Reg.RCH_CTRL_margin r ∨ Reg.RCH_CTRL_steps_m1.of v ≠ s.rg Reg.RCH_CTRL_steps_m1 r);
    (fixed))) ∧
    (let s : State := ({ (on 1 [(Reg.CLU_SEL_cluster, 0, 407)]) with clusters := [(407, { st := 6, stopBit := some 0 })] });
    let who : Requester := (Requester.pf);
    let c : Nat := 407;
    let v : Word := (1 : Word);
    (s.selCluster who = some c) ∧ (Writable s who Reg.CLU_RESUME.addr) ∧
    (let b := 0;
    (b ∈ (s.clu c).stopBit) ∧ (Reg.CLU_RESUME_resume.of v = 1) ∧ ((s.clu c).st = 6) ∧ ((s.cluCause c).testBit b = false))) ∧
    (let s : State := ({ (on 1 [(Reg.CLU_SEL_cluster, 0, 407), (Reg.CLU_CAUSE_fetch_trap, 407, 1)]) with clusters := [(407, { st := 6, stopBit := some 0 })] });
    let who : Requester := (Requester.pf);
    let c : Nat := 407;
    (s.selCluster who = some c) ∧ (Writable s who Reg.CLU_RESUME.addr) ∧
    (let b := 0;
    (b ∈ (s.clu c).stopBit) ∧ ((s.cluCause c).testBit b = true))) := by
  refine ⟨?_, ?_, ?_, ?_, ?_, ?_⟩ <;>
    (dsimp only <;> and_intros <;> first
      | decide +kernel
      | exact List.getElem_mem _
      | exact .inl ⟨rfl, rfl⟩)

/-- States and operands that meet the hypotheses of RolesRefetchAndSubstitution. -/
theorem test_meets_RolesRefetchAndSubstitution :
    (let s : State := ({ (on 1 [(Reg.CLU_CTRL_enable, 0, 1), (Reg.RCH_OWNER_bound, 0, 1), (Reg.WHF_TSTAT_mode, 0, 2), (Reg.CLU_CTRL_dist_mode, 0, 1)]) with clusters := [(0, { st := 1 })] });
    let c : Fin 408 := 0;
    let x := s.clu c.val;
    (x.st ≠ 5) ∧ ((s.clu c.val).roleArmed = none)) ∧
    (let s : State := ({ (on 1 [(Reg.RCH_OWNER_bound, 0, 1), (Reg.WHF_TSTAT_mode, 0, 2)]) with clusters := [(0, { st := 5, pm := [(0, 1)] })], parts := [(0, { bound := [0] })] });
    let c : Fin 408 := 0;
    let x := s.clu c.val;
    let t := 0;
    (s.owner (c.val / 17) = some t) ∧
    (let bad := 0;
    (x.badCell x.pc = some bad) ∧ (x.st = 5) ∧
    (let g := s.goldWord c.val x.pc;
    let y := { x with pm := Mem.putRun x.pm (72 * x.pc) ((Mem.getRun (s.part t).goldPm (72 * g) 72).map store) };
    (y.badCell x.pc = none) ∧ (s.goldLostOf t false g = false) ∧ (s.on Reg.TST_FLIP_arm = false)))) ∧
    (let s : State := (on 1 []);
    let who : Requester := (Requester.keeper 0 0 0);
    let c : Nat := 0;
    let v : Word := (0 : Word);
    (s.selCluster who = some c) ∧ (Writable s who Reg.CLU_ROLE.addr) ∧
    (let role := Reg.CLU_ROLE_role.of v;
    let plain := Reg.CLU_ROLE_retired.of v = 0 ∨ s.on Reg.CLU_ROLE_retired c = true;
    (plain) ∧ (role = s.rg Reg.CLU_ROLE_role c))) ∧
    (let s : State := ({ (on 1 [(Reg.RCH_OWNER_bound, 0, 1), (Reg.WHF_TSTAT_mode, 0, 2)]) with parts := [(0, { bound := [0] })] });
    let who : Requester := (Requester.keeper 0 0 0);
    let c : Nat := 0;
    let v : Word := (BitVec.ofNat 32 (31 * 2 ^ Reg.CLU_ROLE_role.lo));
    (s.selCluster who = some c) ∧ (Writable s who Reg.CLU_ROLE.addr) ∧
    (let role := Reg.CLU_ROLE_role.of v;
    let plain := Reg.CLU_ROLE_retired.of v = 0 ∨ s.on Reg.CLU_ROLE_retired c = true;
    let t := 0;
    (s.owner (c / 17) = some t) ∧ (plain) ∧ (role ≠ s.rg Reg.CLU_ROLE_role c) ∧ (s.loaded t = true) ∧ (s.phase t ≠ 4))) ∧
    (let s : State := (on 1 []);
    let who : Requester := (Requester.keeper 0 0 0);
    let c : Nat := 0;
    let v : Word := (BitVec.ofNat 32 (31 * 2 ^ Reg.CLU_ROLE_role.lo));
    (s.selCluster who = some c) ∧ (Writable s who Reg.CLU_ROLE.addr) ∧
    (let role := Reg.CLU_ROLE_role.of v;
    let plain := Reg.CLU_ROLE_retired.of v = 0 ∨ s.on Reg.CLU_ROLE_retired c = true;
    (plain) ∧ (role ≠ s.rg Reg.CLU_ROLE_role c) ∧ (s.owner (c / 17) = none))) ∧
    (let s : State := ({ (on 1 [(Reg.RCH_OWNER_bound, 0, 1), (Reg.WHF_TSTAT_mode, 0, 2), (Reg.LCK_STATUSt_phase, 0, 4), (Reg.CLU_ROLE_role, 0, 31), (Reg.CLU_ROLE_role, 16, 0)]) with parts := [(0, { bound := [0] })] });
    let who : Requester := (Requester.keeper 0 0 0);
    let c : Nat := 0;
    let v : Word := (0 : Word);
    (s.selCluster who = some c) ∧ (Writable s who Reg.CLU_ROLE.addr) ∧
    (let role := Reg.CLU_ROLE_role.of v;
    let plain := Reg.CLU_ROLE_retired.of v = 0 ∨ s.on Reg.CLU_ROLE_retired c = true;
    let t := 0;
    (s.owner (c / 17) = some t) ∧
    (let old := 16;
    (s.playing (c / 17) role = some old) ∧ (plain) ∧ (role ≠ s.rg Reg.CLU_ROLE_role c) ∧ (role ≤ 16) ∧ (old ≠ c) ∧ (s.loaded t = true) ∧
    (s.phase t = 4)))) ∧
    (let s : State := (on 1 []);
    let who : Requester := (Requester.keeper 0 0 0);
    let c : Nat := 0;
    let v : Word := (BitVec.ofNat 32 (Reg.CLU_ROLE_retired.at 1));
    (s.selCluster who = some c) ∧ (Writable s who Reg.CLU_ROLE.addr) ∧
    (let role := Reg.CLU_ROLE_role.of v;
    (Reg.CLU_ROLE_retired.of v = 1) ∧ (s.on Reg.CLU_ROLE_retired c = false) ∧ (role = s.rg Reg.CLU_ROLE_role c))) ∧
    (let s : State := ({ (on 1 [(Reg.CLU_ROLE_role, 16, 31)]) with clusters := [(16, { roleArmed := some 0 })] });
    let c : Fin 408 := 16;
    let p := 0;
    (p ∈ (s.clu c.val).roleArmed) ∧
    (let old := 0;
    (s.playing (c.val / 17) p = some old) ∧ (p ≤ 16) ∧ (old ≠ c.val) ∧ (s.atStep (c.val / 17) = true) ∧
    (let x := s.clu old;
    (x.badCopy = none) ∧ (s.memWf = true) ∧ (s.on Reg.TST_FLIP_arm = false)))) ∧
    (let s : State := ({ (on 1 [(Reg.CLU_ROLE_role, 16, 31)]) with clusters := [(0, { vm := [(5, 1)] }), (16, { roleArmed := some 0 })] });
    let c : Fin 408 := 16;
    let p := 0;
    (p ∈ (s.clu c.val).roleArmed) ∧
    (let old := 0;
    (s.playing (c.val / 17) p = some old) ∧ (p ≤ 16) ∧ (old ≠ c.val) ∧ (s.atStep (c.val / 17) = true) ∧
    (let x := s.clu old;
    let b := (.inl 5);
    (b ∈ x.badCopy) ∧ (s.on Reg.CLU_ROLE_retired old = false)))) := by
  refine ⟨?_, ?_, ?_, ?_, ?_, ?_, ?_, ?_, ?_⟩ <;>
    (dsimp only <;> and_intros <;> first
      | decide +kernel
      | exact List.getElem_mem _
      | exact .inl ⟨rfl, rfl⟩)

/-- States and operands that meet the hypotheses of SlotRoundTrip. -/
theorem test_meets_SlotRoundTrip :
    (let i : SlotI := SlotI.nop;
    (i.wellFormed = true) ∧
    (let x : Slot := (encodeSlot .nop);
    (decodeSlot x = some i) ∧
    (let o : Operand := Operand.reg 63;
    (o ≠ .bad) ∧ (o ≠ .rel 0)))) ∧
    (let x : BitVec 16 := (0x15DC : BitVec 16);
    (operandOf x ≠ .bad)) ∧
    (let k : Fin 4 := 3;
    let w : BitVec 14 := (0x2000 : BitVec 14);
    let w' : BitVec 14 := (0x2000 : BitVec 14);
    let i : Instr := ((kealaInstr 3 0x2000).getD .leak);
    (kealaInstr k w = some i) ∧ (kealaInstr k w' = some i)) := by
  refine ⟨?_, ?_, ?_⟩ <;> (dsimp only <;> decide +kernel)

/-- States and operands that meet the hypotheses of WordOperationResults. -/
theorem test_meets_WordOperationResults :
    (let o : WordOp := WordOp.sar;
    let a : Cell := (0x800 : Cell);
    let b : Cell := (0 : Cell);
    let n : Nat := 15;
    let c : Bool := ((0x800000 : BitVec 24), false).2;
    let r : Cell × Bool := (BitVec.ofInt 12 (-1), true);
    (n < 16) ∧ (wordTable o a b n c = some r)) ∧
    (let m : Nat := 31;
    (m < 32)) := by
  refine ⟨?_, ?_⟩ <;> (dsimp only <;> decide +kernel)

/-- States and operands that meet the hypotheses of IssueStepRunsRegisterWord. -/
theorem test_meets_IssueStepRunsRegisterWord :
    (let s : State := ({ (on 1 [(Reg.RCH_OWNER_bound, 0, 1), (Reg.WHF_TSTAT_mode, 0, 2), (Reg.LCK_STATUSt_phase, 0, 1), (Reg.RCH_CTRL_enable, 0, 1), (Reg.CLU_CTRL_enable, 0, 1), (Reg.CLU_PROG_last_word, 0, 5), (Reg.CLU_PROG_steps_m1, 0, 1023), (Reg.CLU_ROLE_role, 1, 31), (Reg.CLU_ROLE_role, 2, 31), (Reg.CLU_ROLE_role, 3, 31), (Reg.CLU_ROLE_role, 4, 31), (Reg.CLU_ROLE_role, 5, 31), (Reg.CLU_ROLE_role, 6, 31), (Reg.CLU_ROLE_role, 7, 31), (Reg.CLU_ROLE_role, 8, 31), (Reg.CLU_ROLE_role, 9, 31), (Reg.CLU_ROLE_role, 10, 31), (Reg.CLU_ROLE_role, 11, 31), (Reg.CLU_ROLE_role, 12, 31), (Reg.CLU_ROLE_role, 13, 31), (Reg.CLU_ROLE_role, 14, 31), (Reg.CLU_ROLE_role, 15, 31), (Reg.CLU_ROLE_role, 16, 31)]) with clusters := [(0, { st := 1, issuing := true })], parts := [(0, { bound := [0], started := true, step := 1022, hdr := { stepsM1 := 1023 } })] });
    let t : Fin 16 := 0;
    let r : Nat := 0;
    let c : Nat := 0;
    let w : List SlotI := (List.replicate 12 SlotI.nop);
    (ReadyToIssue s t.val r c w)) := by
  dsimp only <;> first
      | decide +kernel
      | (constructor <;> first | decide +kernel | (refine tbl_all _ _ (fun x => parityOk x = true) ?_ ?_ <;> decide +kernel))

/-- States and operands that meet the hypotheses of HomeDirectoryAndLines. -/
theorem test_meets_HomeDirectoryAndLines :
    (let s : State := ({ (on 1 [(Reg.RCH_OWNER_bound, 0, 1), (Reg.WHF_TSTAT_mode, 0, 2)]) with reaches := [(0, { requests := [(3, (9, false, false))] })], parts := [(0, { bound := [0] })] });
    let r : Fin 24 := 0;
    let line : Nat := 3;
    let stamp : Nat := 9;
    (Requested s r.val line stamp)) ∧
    (let s : State := ({ (on 1 [(Reg.RCH_OWNER_bound, 0, 1), (Reg.WHF_TSTAT_mode, 0, 2)]) with parts := [(0, { bound := [0], regions := [⟨2, false, 0, none, 4096, 0, [100]⟩] })], reaches := [(0, { wb := [⟨24, 0, 0, 2, 0, 5, false⟩], cache := [(6400, ⟨List.replicate 32 0, true, false⟩)] })] });
    let r : Fin 24 := 0;
    let line : Nat := 6400;
    let x := s.rch r.val;
    let p := 0;
    let e := (⟨24, 0, 0, 2, 0, 5, false⟩ : WbEntry);
    let l := (⟨List.replicate 32 0, true, false⟩ : CacheLine);
    (s.owner r.val = some p) ∧ (x.wb = [e]) ∧ (((s.part p).wordAt e.region e.addr).line = line) ∧ (x.requests.find line = none) ∧
    (x.cache.find line = some l) ∧ (l.dirty = true) ∧ (x.writeback.find line = none) ∧ (s.bypasses line = false)) ∧
    (let s : State := ({ (on 1 []) with reaches := [(0, { cache := [(3, ⟨List.replicate 32 0, true, false⟩)] })] });
    let r : Fin 24 := 0;
    let line : Nat := 3;
    let d := s.dirLine line;
    let x := s.rch r.val;
    let l := (⟨List.replicate 32 0, true, false⟩ : CacheLine);
    (x.cache.find line = some l) ∧ (l.dirty = true) ∧ (x.writeback.find line = none) ∧ (s.bypasses line = false) ∧ (d.fwd = false) ∧
    (s.on Reg.TST_FLIP_arm = false) ∧ (x.wb = [])) ∧
    (let s : State := ({ (on 1 []) with reaches := [(0, { writeback := [(3, ⟨List.replicate 32 0, false, false⟩)] })] });
    let r : Fin 24 := 0;
    let line : Nat := 3;
    let x := s.rch r.val;
    let l := (⟨List.replicate 32 0, false, false⟩ : CacheLine);
    (x.writeback.find line = some l) ∧ (l.dirty = false)) ∧
    (let s : State := ({ (on 1 [(Reg.RCH_OWNER_bound, 0, 1), (Reg.WHF_TSTAT_mode, 0, 2)]) with reaches := [(0, { cache := [(3, ⟨List.replicate 32 0, true, false⟩)] })], dir := [(3, { busy := some 2, fwd := true, st := .modified })] });
    let r : Fin 24 := 0;
    let line : Nat := 3;
    let d := s.dirLine line;
    let x := s.rch r.val;
    let t := 0;
    let l := (⟨List.replicate 32 0, true, false⟩ : CacheLine);
    let q := 2;
    (s.owner r.val = some t) ∧ (d.busy = some q) ∧ (x.cache.find line = some l) ∧ (d.fwd = true) ∧ (d.owner = r.val) ∧ (l.dirty = true) ∧
    (x.wb = [])) ∧
    (let s : State := ({ (on 1 []) with reaches := [(0, { requests := [(3, (9, true, false))] })], dir := [(3, { queue := [(0, 9, true)], woken := [0] })] });
    let r : Fin 24 := 0;
    let line : Nat := 3;
    let d := s.dirLine line;
    let x := s.rch r.val;
    let stamp := 9;
    let own := true;
    (x.requests.find line = some (stamp, own, false)) ∧ (d.queue.any (fun q => decide (q.1 = r.val)) = true) ∧
    (let b := false;
    (x.requests.find line = some (stamp, own, b)) ∧ (d.woken.contains r.val = true))) ∧
    (let s : State := ({ (on 1 [(Reg.RCH_OWNER_bound, 0, 1), (Reg.WHF_TSTAT_mode, 0, 2)]) with reaches := [(0, { requests := [(3, (9, true, false))] })], dir := [(3, { busy := some 0, data := some (List.replicate 32 0) })] });
    let r : Fin 24 := 0;
    let line : Nat := 3;
    let d := s.dirLine line;
    let x := s.rch r.val;
    let t := 0;
    let l := (List.replicate 32 (0 : BitVec 16));
    let q := ((9 : Nat), true, false);
    (s.owner r.val = some t) ∧ (x.requests.find line = some q) ∧ (s.bypasses line = false) ∧ (d.data = some l) ∧ (d.busy = some r.val) ∧
    (x.wb = []) ∧ ((x.cache.filter fun e => e.1 % 256 = line % 256 ∧ e.1 ≠ line).length < 12 - x.waysOff.length) ∧
    (s.on Reg.TST_FLIP_arm = false)) ∧
    (let s : State := ({ (on 1 []) with dir := [(3, { busy := some 0 })] });
    let line : Nat := 3;
    let d := s.dirLine line;
    let q := 0;
    (d.busy = some q) ∧ (d.data = none) ∧ (d.fwd = false) ∧ (d.queue = [])) ∧
    (let s : State := ({ (on 1 []) with dir := [(3, { busy := some 0, queue := [(1, 9, true)] })] });
    let line : Nat := 3;
    let d := s.dirLine line;
    let q := 0;
    (d.busy = some q) ∧ (d.data = none) ∧ (d.fwd = false) ∧
    (let a := ((1 : Nat), (9 : Nat), true);
    let l := ([] : List (Nat × Nat × Bool));
    (d.queue = a :: l) ∧ ((∀ b ∈ d.queue, ∀ c ∈ d.queue, stampStep b.2.1 < stampStep c.2.1 + 24)) ∧ (a ∉ l))) := by
  refine ⟨?_, ?_, ?_, ?_, ?_, ?_, ?_, ?_, ?_⟩ <;>
    (dsimp only <;> and_intros <;> first
      | decide +kernel
      | exact ⟨⟨_, rfl⟩, by decide +kernel, by decide +kernel⟩)

/-- States and operands that meet the hypotheses of ReadsAndFences. -/
theorem test_meets_ReadsAndFences :
    (let s : State := ({ (on 1 [(Reg.RCH_OWNER_bound, 0, 1), (Reg.WHF_TSTAT_mode, 0, 2)]) with clusters := [(0, { reads := [(⟨11, 3, 3, .rf 0, 0, 0, store 5, true, false, true⟩ : DmemRead)] })], parts := [(0, { bound := [0] })] });
    let c : Fin 408 := 0;
    let slot : Fin 12 := 11;
    let t : Nat := 0;
    let x : DmemRead := (⟨11, 3, 3, .rf 0, 0, 0, store 5, true, false, true⟩ : DmemRead);
    (s.owner (c.val / 17) = some t) ∧ ((s.clu c.val).reads = [x]) ∧ (x.slot = slot.val) ∧ (x.arrived = false) ∧
    ((s.rch (c.val / 17)).requests.find ((s.part t).wordAt x.region x.addr).line = none) ∧
    (let y := s.rch (c.val / 17);
    let page := x.region * 8192 + x.addr / 2048;
    let fault : Bool := false;
    (parityOk x.value = true) ∧ ((fault = false ∨ y.tlb.contains page = true)))) ∧
    (let s : State := ({ (on 1 [(Reg.RCH_OWNER_bound, 0, 1), (Reg.WHF_TSTAT_mode, 0, 2)]) with clusters := [(0, { reads := [(⟨11, 3, 3, .rf 0, 0, 0, store 5, true, false, true⟩ : DmemRead)] })], parts := [(0, { bound := [0] })] });
    let c : Fin 408 := 0;
    let slot : Fin 12 := 11;
    let t : Nat := 0;
    let x : DmemRead := (⟨11, 3, 3, .rf 0, 0, 0, store 5, true, false, true⟩ : DmemRead);
    (s.owner (c.val / 17) = some t) ∧ ((s.clu c.val).reads = [x]) ∧ (x.slot = slot.val) ∧ (x.arrived = false) ∧
    ((s.rch (c.val / 17)).requests.find ((s.part t).wordAt x.region x.addr).line = none) ∧
    (let y := s.rch (c.val / 17);
    let page := x.region * 8192 + x.addr / 2048;
    (y.tlb.contains page = false))) ∧
    (let s : State := ({ (on 1 [(Reg.RCH_OWNER_bound, 0, 1), (Reg.WHF_TSTAT_mode, 0, 2)]) with parts := [(0, { bound := [0], gstep := 1 })] });
    let t : Fin 16 := 0;
    let r : Fin 24 := 0;
    let home : Fin 2 := 1;
    let step : Nat := 0;
    let x := s.part t.val;
    (r.val ∈ x.bound) ∧ (x.fenceClosed home.val = step) ∧ (step < x.gstep) ∧ ((home.val, r.val, step) ∉ x.markers) ∧
    ((∀ m ∈ x.markers, m.1 = home.val → m.2.2 = step))) ∧
    (let s : State := ({ (on 1 [(Reg.RCH_OWNER_bound, 0, 1), (Reg.WHF_TSTAT_mode, 0, 2)]) with parts := [(0, { bound := [0], fenceClosed0 := 1, regions := [⟨2, false, 0, none, 4096, 0, [100]⟩] })], reaches := [(0, { wb := [⟨23, 0, 0, 2, 0, 5, false⟩], cache := [(6400, ⟨List.replicate 32 0, true, false⟩)] })] });
    let t : Fin 16 := 0;
    let r : Fin 24 := 0;
    let home : Fin 2 := 0;
    let step : Nat := 0;
    let e : WbEntry := (⟨23, 0, 0, 2, 0, 5, false⟩ : WbEntry);
    let l : CacheLine := (⟨List.replicate 32 0, true, false⟩ : CacheLine);
    let x := s.part t.val;
    let y := s.rch r.val;
    let w := x.wordAt e.region e.addr;
    let seen := max (y.fenceSeen home.val) (step + 1);
    (x.bound = [r.val]) ∧ (step < x.fenceClosed home.val) ∧ (x.home e.region = home.val) ∧ (y.wb = [e]) ∧ (e.held = false) ∧
    (e.gstep ≤ seen + 23) ∧ (s.on Reg.TST_FLIP_arm = false) ∧ (y.cache.find w.line = some l) ∧ (l.dirty = true) ∧ (l.shared = false) ∧
    ((∀ q, q ≠ r.val → (s.rch q).cache.find w.line = none)) ∧ ((∀ q, (s.rch q).writeback.find w.line = none)) ∧
    ((s.dirLine w.line).data = none)) := by
  refine ⟨?_, ?_, ?_, ?_⟩ <;>
    (dsimp only <;> and_intros <;> first
      | decide +kernel
      | (intro q h; exact (congrArg (fun x : Reach => x.cache.find _) (tbl_other _ _ _ q h)).trans (by decide +kernel))
      | exact tbl_all _ _ (fun x : Reach => x.cache.find _ = none) (by decide) (by decide +kernel)
      | exact tbl_all _ _ (fun x : Reach => x.writeback.find _ = none) (by decide) (by decide +kernel))

/-- States and operands that meet the hypotheses of PagesAndReports. -/
theorem test_meets_PagesAndReports :
    (let s : State := ({ (on 1 [(Reg.RCH_OWNER_bound, 0, 1), (Reg.WHF_TSTAT_mode, 0, 2)]) with parts := [(0, { bound := [0], regions := [⟨2, false, 0, none, 4096, 0, [100, 101]⟩], undoFree := [(0, 200)] })], reaches := [(0, { wb := [⟨24, 0, 0, 2, 4095, 5, true⟩] })] });
    let t : Fin 16 := 0;
    let r : Nat := 0;
    let e : WbEntry := (⟨24, 0, 0, 2, 4095, 5, true⟩ : WbEntry);
    let g : Region := (⟨2, false, 0, none, 4096, 0, [100, 101]⟩ : Region);
    let phys : Nat := 101;
    let u : Nat × Nat := ((0 : Nat), (200 : Nat));
    let region : BitVec 10 := (2 : BitVec 10);
    let page : BitVec 13 := (1 : BitVec 13);
    let x := s.part t.val;
    (x.bound = [r]) ∧ (x.region region.toNat = some g) ∧ (g.pages[page.toNat]? = some phys) ∧ (x.undoFree = [u]) ∧ (u.1 = g.stack) ∧
    (u.2 ≠ phys) ∧ (s.pagesBad = []) ∧ ((s.rch r).wb = [e]) ∧ (e.held = true) ∧ (e.region = region.toNat) ∧
    (e.addr / 2048 = page.toNat) ∧ (x.exporting = none) ∧ (g.single = none) ∧ ((∀ q, (s.rch q).cache = [] ∧ (s.rch q).writeback = [])) ∧
    ((∀ line, (s.dirLine line).data = none)) ∧ (s.on Reg.TST_FLIP_arm = false)) ∧
    (let s : State := (on 1 [(Reg.DMEM_CTRL_short_log, 0, 0)]);
    let who : Requester := (Requester.keeper 0 0 0);
    (Writable s who Reg.DMEM_RETIRE.addr) ∧ (s.on Reg.DMEM_CTRL_short_log = false)) ∧
    (let s : State := ({ (on 1 [(Reg.DMEM_HBM_STATk_spares, 1, 0)]) with retiring := some (2 ^ 22 + 5) });
    let k : Nat := 1;
    let p : Nat := 5;
    (s.retiring = some (k * 2 ^ 22 + p)) ∧ (k < 2) ∧ (p < 2 ^ 22) ∧ (s.on Reg.TST_FLIP_arm = false) ∧
    (s.on Reg.WEIR_CTRL_ring_en = false) ∧ ((∀ q, (s.rch q).cache = [] ∧ (s.rch q).writeback = [])) ∧
    ((∀ line, (s.dirLine line).data = none)) ∧ (s.retireQueue = []) ∧
    (let who : Requester := (Requester.pf);
    let r : Nat := 0;
    (Writable s who Reg.DMEM_R_FLUSH.addr) ∧ (s.selReach who = some r) ∧ (s.rchOpen who r = true) ∧
    (let x := s.rch r;
    ((∀ e ∈ x.cache ++ x.writeback, e.2.dirty = false))))) ∧
    (let s : State := ({ (on 1 []) with reaches := [(0, { cache := [(77, ⟨List.replicate 32 0, true, false⟩)] })] });
    let who : Requester := (Requester.pf);
    let r : Nat := 0;
    (Writable s who Reg.DMEM_R_FLUSH.addr) ∧ (s.selReach who = some r) ∧ (s.rchOpen who r = true) ∧ (s.on Reg.TST_FLIP_arm = false) ∧
    (let x := s.rch r;
    let line := 77;
    let l := (⟨List.replicate 32 0, true, false⟩ : CacheLine);
    (x.cache = [(line, l)]) ∧ (l.dirty = true) ∧ (x.writeback = []) ∧ (x.wb = []) ∧ (s.bypasses line = false))) ∧
    (let s : State := ({ (on 1 [(Reg.RCH_OWNER_bound, 0, 1), (Reg.WHF_TSTAT_mode, 0, 2)]) with parts := [(0, { bound := [0], regions := [⟨2, false, 0, none, 4096, 0, [100, 101]⟩], undoFree := [(0, 200)] })], reaches := [(0, { wb := [⟨24, 0, 0, 2, 4095, 5, true⟩] })] });
    (s.supervised = false)) ∧
    (let s : State := ({ (on 1 [(Reg.KPR_CTRL_run, 0, 1)]) with pageReports := List.replicate 3 (2 ^ 23 - 1, 0) });
    let k : Fin 2 := 1;
    let page : BitVec 22 := (0x3FFFFF : BitVec 22);
    let p := k.val * 2 ^ 22 + page.toNat;
    let recent := s.pageReports.filter fun e => decide (s.power.time < e.2 + 1000000000);
    (s.supervised = true) ∧ (3 ≤ (recent.filter fun e => decide (e.1 = p)).length) ∧ (p ∉ s.pagesRetired) ∧ (s.retiring = none) ∧
    (s.retireQueue = []) ∧ (s.on Reg.DMEM_RETIRE_busy = false) ∧ (s.bufferOf p = none)) := by
  refine ⟨?_, ?_, ?_, ?_, ?_, ?_⟩ <;>
    (dsimp only <;> and_intros <;> first
      | decide +kernel
      | exact tbl_all _ _ (fun x : Reach => x.cache = [] ∧ x.writeback = []) (by decide) (by decide +kernel)
      | (intro line; exact tbl_all _ _ (fun x : DirLine => x.data = none) rfl (by decide +kernel) line))

/-- States and operands that meet the hypotheses of Berths. -/
theorem test_meets_Berths :
    (let s : State := (on 1 [(Reg.RCH_OWNER_bound, 0, 1), (Reg.WHF_TSTAT_mode, 0, 2)]);
    let r : Fin 24 := 0;
    let epoch : BitVec 2 := (1 : BitVec 2);
    let t : Nat := 0;
    (s.owner r.val = some t) ∧ (epoch.toNat ≠ s.epoch t)) ∧
    (let s : State := (on 1 [(Reg.RCH_OWNER_bound, 0, 1), (Reg.WHF_TSTAT_mode, 0, 2)]);
    let r : Fin 24 := 0;
    let b : Cell := (0 : Cell);
    let tag : Cell := (0xFFF : Cell);
    let parity : Bool := true;
    let epoch : BitVec 2 := (0 : BitVec 2);
    let t : Nat := 0;
    (s.owner r.val = some t) ∧
    (let m := s.berthMap r.val b.toNat;
    (epoch.toNat = s.epoch t) ∧ (m.1 ≠ 1 ∧ m.1 ≠ 2) ∧
    (let k := 2 * tag.toNat + (if parity then 1 else 0);
    (Mem.get (s.rch r.val).outstanding k = 0)))) ∧
    (let s : State := ({ (on 1 [(Reg.RCH_OWNER_bound, 0, 1), (Reg.WHF_TSTAT_mode, 0, 2)]) with reaches := [(0, { bmap := [(0, store 1), (1, store 0xFFF), (2, store 0xFFF)] })] });
    let r : Fin 24 := 0;
    let b : Cell := (0 : Cell);
    let source : Cell := (0xFFF : Cell);
    let tag : Cell := (0xFFE : Cell);
    let epoch : BitVec 2 := (0 : BitVec 2);
    let t : Nat := 0;
    (s.owner r.val = some t) ∧
    (let m := s.berthMap r.val b.toNat;
    (epoch.toNat = s.epoch t) ∧ ((m.1 = 1 ∨ m.1 = 2)) ∧ ((m.2.1 ≠ source.toNat ∨ m.2.2 ≠ tag.toNat)))) ∧
    (let s : State := ({ (on 1 [(Reg.RCH_OWNER_bound, 0, 1), (Reg.WHF_TSTAT_mode, 0, 2)]) with reaches := [(0, { bmap := [(0, store 1), (1, store 0xFFF), (2, store 0xFFF)], berths := [(1, { valid := true })] })] });
    let r : Fin 24 := 0;
    let b : Cell := (0 : Cell);
    let source : Cell := (0xFFF : Cell);
    let tag : Cell := (0xFFF : Cell);
    let parity : Bool := true;
    let epoch : BitVec 2 := (0 : BitVec 2);
    let t : Nat := 0;
    (s.owner r.val = some t) ∧
    (let p := if parity then 1 else 0;
    let m := s.berthMap r.val b.toNat;
    (epoch.toNat = s.epoch t) ∧ ((m.1 = 1 ∨ m.1 = 2)) ∧ (m.2 = (source.toNat, tag.toNat)) ∧ ((s.entry r.val b.toNat p).valid = true))) ∧
    (let s : State := ({ (on 1 [(Reg.RCH_OWNER_bound, 0, 1), (Reg.WHF_TSTAT_mode, 0, 2)]) with reaches := [(0, { bmap := [(0, store 1), (1, store 0xFFF), (2, store 0xFFF)] })] });
    let r : Fin 24 := 0;
    let b : Cell := (0 : Cell);
    let source : Cell := (0xFFF : Cell);
    let tag : Cell := (0xFFF : Cell);
    let parity : Bool := true;
    let epoch : BitVec 2 := (0 : BitVec 2);
    let t : Nat := 0;
    (s.owner r.val = some t) ∧
    (let p := if parity then 1 else 0;
    let m := s.berthMap r.val b.toNat;
    (epoch.toNat = s.epoch t) ∧ ((m.1 = 1 ∨ m.1 = 2)) ∧ (m.2 = (source.toNat, tag.toNat)) ∧ ((s.entry r.val b.toNat p).valid = false) ∧
    (s.on Reg.TST_FLIP_arm = false))) ∧
    (let s : State := ({ (on 1 [(Reg.RCH_OWNER_bound, 0, 1), (Reg.WHF_TSTAT_mode, 0, 2)]) with reaches := [(0, { outstanding := [(8191, 1)] })] });
    let r : Fin 24 := 0;
    let tag : Cell := (0xFFF : Cell);
    let parity : Bool := true;
    let epoch : BitVec 2 := (0 : BitVec 2);
    let t : Nat := 0;
    (s.owner r.val = some t) ∧
    (let k := 2 * tag.toNat + (if parity then 1 else 0);
    (epoch.toNat = s.epoch t) ∧ (Mem.get (s.rch r.val).outstanding k = 1) ∧ (s.on Reg.TST_FLIP_arm = false))) ∧
    (let s : State := ({ (on 1 [(Reg.RCH_OWNER_bound, 0, 1), (Reg.WHF_TSTAT_mode, 0, 2)]) with parts := [(0, { bound := [0], ports := [(⟨1023, true, false, 0, 0⟩ : HostPort)], inputs := [(1023, { queue := [5, 6] })] })] });
    let t : Fin 16 := 0;
    let port : BitVec 10 := (1023 : BitVec 10);
    let h : HostPort := (⟨1023, true, false, 0, 0⟩ : HostPort);
    let v : Cell := (5 : Cell);
    let l : List Cell := ([6] : List Cell);
    let x := s.part t.val;
    let q := s.inPort t.val port.toNat;
    let r := s.phys t.val h.rel;
    let p := (x.dcNumber + q.taken.length) % 2;
    (x.ports = [h]) ∧ (h.port = port.toNat) ∧ (h.isInput = true) ∧ (h.flagged = false) ∧ (q.queue = v :: l) ∧ (q.taken.length < 3) ∧
    ((s.entry r h.berth p).valid = false) ∧ (x.logNow = []) ∧ (x.atLock = false) ∧ (s.phase t.val ≠ 4) ∧
    (s.rg Reg.LCK_STATUSt_dcycle t.val + q.taken.length < s.poundLen t.val) ∧ (s.on Reg.TST_FLIP_arm = false)) ∧
    (let s : State := ({ (on 1 [(Reg.RCH_OWNER_bound, 0, 1), (Reg.WHF_TSTAT_mode, 0, 2), (Reg.RCH_BWD_CTRL_en, 0, 1)]) with reaches := [(0, { waits := [(⟨true, true, 31, 0xFFF, 0, false⟩ : Wait)] })] });
    let r : Fin 24 := 0;
    let t : Nat := 0;
    let w : Wait := (⟨true, true, 31, 0xFFF, 0, false⟩ : Wait);
    let index : Cell := (0xFFF : Cell);
    (s.owner r.val = some t) ∧ ((s.rch r.val).waits = [w]) ∧ (w.index = index.toNat) ∧ (w.expired = false) ∧
    (s.on Reg.RCH_BWD_CTRL_en r.val = true) ∧ (s.on Reg.RCH_BWD_REC_valid r.val = false) ∧ (w.position < 32) ∧
    ((s.weir.alarms.get t []).length < 64)) := by
  refine ⟨?_, ?_, ?_, ?_, ?_, ?_, ?_, ?_⟩ <;> (dsimp only <;> decide +kernel)

/-- States and operands that meet the hypotheses of BargeArrivals. -/
theorem test_meets_BargeArrivals :
    (let s : State := (on 1 [(Reg.AQ_STATUS_state, 15, 6), (Reg.AQ_DEVID_devid, 0, 9)]);
    let l : Fin 16 := 15;
    let b : Barge := (linkBarge 4095 0 [] + 1);
    (s.rg Reg.AQ_STATUS_state l.val = 6) ∧
    (let c := (Instr.statusBarge 15 (linkBarge 4095 0 [] + 1));
    (c ∈ [Instr.statusBarge l b, .laneSwap l b, .parameterBarge l b, .retireBarge l b]) ∧ (¬ Sound s l.val b))) ∧
    (let s : State := (on 1 [(Reg.AQ_STATUS_state, 15, 6), (Reg.AQ_DEVID_devid, 0, 9)]);
    let l : Fin 16 := 15;
    let b : Barge := (linkBarge 4095 15 []);
    (s.rg Reg.AQ_STATUS_state l.val = 6) ∧
    (let k := bKind b;
    let c := (Instr.statusBarge 15 (linkBarge 4095 15 []));
    (c ∈ [Instr.statusBarge l b, .laneSwap l b, .parameterBarge l b, .retireBarge l b]) ∧ (Sound s l.val b) ∧ (bLink b = true) ∧
    ((bVc b ≠ 0 ∨ 3 < k)))) ∧
    (let s : State := ({ (on 1 [(Reg.AQ_STATUS_state, 15, 6), (Reg.AQ_DEVID_devid, 0, 9)]) with links := [(15, { window := [sealBarge (seqBarge 2 0 1 5 9 77 []) 0 0] })] });
    let l : Fin 16 := 15;
    let b : Barge := (linkBarge 4095 0 [0, 1, 2, 3]);
    (s.rg Reg.AQ_STATUS_state l.val = 6) ∧
    (let k := bKind b;
    let c2 := bcell b 2;
    let round := bits c2 7 4;
    let own := s.rg Reg.AQ_STATUS_round l.val;
    (Sound s l.val b) ∧ (bLink b = true) ∧ (bVc b = 0) ∧ (k = 0) ∧ ((bit c2 11 = false ∨ round ≠ (own + 1) % 16)))) ∧
    (let s : State := ({ (on 1 [(Reg.AQ_STATUS_state, 15, 6), (Reg.AQ_DEVID_devid, 0, 9)]) with links := [(15, { window := [sealBarge (seqBarge 2 0 1 5 9 77 []) 0 0], acked := 4094 })] });
    let l : Fin 16 := 15;
    let b : Barge := (linkBarge 4094 0 [2048 + 128, 1, 2, 3]);
    (s.rg Reg.AQ_STATUS_state l.val = 6) ∧
    (let y := atNextBarge (s.lnk l.val);
    let k := bKind b;
    let c2 := bcell b 2;
    let round := bits c2 7 4;
    let own := s.rg Reg.AQ_STATUS_round l.val;
    (Sound s l.val b) ∧ (bLink b = true) ∧ (bVc b = 0) ∧ (k = 0) ∧ (bit c2 11 = true) ∧ (round = (own + 1) % 16) ∧
    ((statusTaken y b).window ≠ []) ∧ ((statusTaken y b).replayRuns < max 1 (s.rg Reg.AQ_THR_replay_limit l.val)) ∧
    (BucketSpare s l.val))) ∧
    (let s : State := (on 1 [(Reg.AQ_STATUS_state, 15, 6), (Reg.AQ_DEVID_devid, 0, 9)]);
    let l : Fin 16 := 15;
    let b : Barge := (linkBarge 4095 1 [3, 0, 0]);
    (s.rg Reg.AQ_STATUS_state l.val = 6) ∧
    (let y := atNextBarge (s.lnk l.val);
    let x := ackTaken y b;
    let k := bKind b;
    let c2 := bcell b 2;
    let slot := bits c2 0 3;
    (Sound s l.val b) ∧ (bLink b = true) ∧ (bVc b = 0) ∧ (k = 1) ∧ (slot < 4) ∧ (x.train.length < 9) ∧ (x.sinceStatus < 63) ∧
    (bits c2 9 2 = 0) ∧ (x.txSpareUsed = false) ∧ (x.txSwap = none))) ∧
    (let s : State := ({ (on 1 [(Reg.AQ_STATUS_state, 15, 6), (Reg.AQ_DEVID_devid, 0, 9)]) with links := [(15, { rxAsk := some 3 })] });
    let l : Fin 16 := 15;
    let b : Barge := (linkBarge 4095 1 [512 + 3, 20, 0]);
    (s.rg Reg.AQ_STATUS_state l.val = 6) ∧
    (let y := atNextBarge (s.lnk l.val);
    let x := ackTaken y b;
    let k := bKind b;
    let c2 := bcell b 2;
    let slot := bits c2 0 3;
    (Sound s l.val b) ∧ (bLink b = true) ∧ (bVc b = 0) ∧ (k = 1) ∧ (slot < 4) ∧ (x.train.length < 9) ∧ (x.sinceStatus < 63) ∧
    (bits c2 9 2 = 1) ∧ (bit c2 11 = false) ∧ (x.rxAsk = some slot))) ∧
    (let s : State := (on 1 [(Reg.AQ_STATUS_state, 15, 6), (Reg.AQ_DEVID_devid, 0, 9)]);
    let l : Fin 16 := 15;
    let b : Barge := (linkBarge 4095 1 [512 + 3, 20, 0]);
    (s.rg Reg.AQ_STATUS_state l.val = 6) ∧
    (let y := atNextBarge (s.lnk l.val);
    let x := ackTaken y b;
    let k := bKind b;
    let c2 := bcell b 2;
    let slot := bits c2 0 3;
    (Sound s l.val b) ∧ (bLink b = true) ∧ (bVc b = 0) ∧ (k = 1) ∧ (slot < 4) ∧ (x.train.length < 9) ∧ (x.sinceStatus < 63) ∧
    (bits c2 9 2 = 1) ∧ (bit c2 11 = false) ∧ (x.rxAsk ≠ some slot))) ∧
    (let s : State := ({ (on 1 [(Reg.AQ_STATUS_state, 15, 6), (Reg.AQ_DEVID_devid, 0, 9)]) with links := [(15, { txSwap := some (3, 4095 + 15 * 4096, false) })] });
    let l : Fin 16 := 15;
    let b : Barge := (linkBarge 4095 1 [2048 + 512 + 3, 4095, 15]);
    (s.rg Reg.AQ_STATUS_state l.val = 6) ∧
    (let y := atNextBarge (s.lnk l.val);
    let x := ackTaken y b;
    let k := bKind b;
    let c2 := bcell b 2;
    let slot := bits c2 0 3;
    let train := bcell b 3 + bits (bcell b 4) 0 4 * 4096;
    (Sound s l.val b) ∧ (bLink b = true) ∧ (bVc b = 0) ∧ (k = 1) ∧ (slot < 4) ∧ (x.train.length < 9) ∧ (x.sinceStatus < 63) ∧
    (bits c2 9 2 = 1) ∧ (bit c2 11 = true) ∧
    (let g := false;
    (x.txSwap = some (slot, train, g))))) ∧
    (let s : State := (on 1 [(Reg.AQ_STATUS_state, 15, 6), (Reg.AQ_DEVID_devid, 0, 9)]);
    let l : Fin 16 := 15;
    let b : Barge := (linkBarge 4095 3 [0x5A4]);
    (s.rg Reg.AQ_STATUS_state l.val = 6) ∧
    (let k := bKind b;
    let c2 := bcell b 2;
    (Sound s l.val b) ∧ (bLink b = true) ∧ (bVc b = 0) ∧ (k = 3) ∧ (c2 ≠ 0x5A5))) ∧
    (let s : State := (on 1 [(Reg.AQ_STATUS_state, 15, 6), (Reg.AQ_DEVID_devid, 0, 9)]);
    let l : Fin 16 := 15;
    let b : Barge := (linkBarge 4095 3 [0x5A5]);
    (s.rg Reg.AQ_STATUS_state l.val = 6) ∧
    (let k := bKind b;
    let c2 := bcell b 2;
    (Sound s l.val b) ∧ (bLink b = true) ∧ (bVc b = 0) ∧ (k = 3) ∧ (c2 = 0x5A5) ∧ (NothingUnacked s l.val) ∧ (NothingWaits s l.val))) ∧
    (let s : State := (on 1 [(Reg.AQ_STATUS_state, 15, 6), (Reg.AQ_DEVID_devid, 0, 9)]);
    let l : Fin 16 := 15;
    let b : Barge := (seqBarge 0 0 1 9 5 77 [] + 1);
    (s.rg Reg.AQ_STATUS_state l.val = 6) ∧ (bLink b = false) ∧ (¬ Sound s l.val b)) ∧
    (let s : State := (on 1 [(Reg.AQ_STATUS_state, 15, 6), (Reg.AQ_DEVID_devid, 0, 9)]);
    let l : Fin 16 := 15;
    let b : Barge := (sealBarge (seqBarge 2 0 1 9 5 77 []) 0 15);
    (s.rg Reg.AQ_STATUS_state l.val = 6) ∧ (bLink b = false) ∧
    (let x := atNextBarge (s.lnk l.val);
    (Sound s l.val b) ∧ (bEcho b ≠ x.expRound))) ∧
    (let s : State := (on 1 [(Reg.AQ_STATUS_state, 15, 6), (Reg.AQ_DEVID_devid, 0, 9)]);
    let l : Fin 16 := 15;
    let b : Barge := (sealBarge (seqBarge 2 0 1 9 5 77 []) 4095 0);
    (s.rg Reg.AQ_STATUS_state l.val = 6) ∧ (bLink b = false) ∧
    (let x := atNextBarge (s.lnk l.val);
    (Sound s l.val b) ∧ (bEcho b = x.expRound) ∧ (bcell b 0 ≠ x.expected))) ∧
    (let s : State := (on 1 [(Reg.AQ_STATUS_state, 15, 6), (Reg.AQ_DEVID_devid, 0, 9)]);
    let l : Fin 16 := 15;
    let b : Barge := (sealBarge (seqBarge 0 2 5 9 5 77 []) 0 0);
    (s.rg Reg.AQ_STATUS_state l.val = 6) ∧ (bLink b = false) ∧
    (let x := atNextBarge (s.lnk l.val);
    (Sound s l.val b) ∧ (bEcho b = x.expRound) ∧ (bcell b 0 = x.expected) ∧ (bVc b = 0) ∧
    ((1 < bKind b ∨ bCount b = 0 ∨ (if bKind b = 0 then 5 else 11) < bCount b)))) ∧
    (let s : State := (on 1 [(Reg.AQ_STATUS_state, 15, 6), (Reg.AQ_DEVID_devid, 0, 9)]);
    let l : Fin 16 := 15;
    let b : Barge := (sealBarge (seqBarge 0 1 11 9 5 77 []) 0 0);
    (s.rg Reg.AQ_STATUS_state l.val = 6) ∧ (bLink b = false) ∧
    (let x := atNextBarge (s.lnk l.val);
    let taken : Link := { x with expected := (x.expected + 1) % 4096, nak := false, episode := false };
    let here := bcell b 2 = s.rg Reg.AQ_DEVID_devid;
    (Sound s l.val b) ∧ (bEcho b = x.expRound) ∧ (bcell b 0 = x.expected) ∧ (bVc b = 0) ∧ (bKind b ≤ 1) ∧ (1 ≤ bCount b) ∧
    (bCount b ≤ (if bKind b = 0 then 5 else 11)) ∧ (taken.vc0Held + bCount b ≤ 2048) ∧ (here) ∧ (s.tenantOf (bcell b 4) = none))) ∧
    (let s : State := (on 1 [(Reg.AQ_STATUS_state, 15, 6), (Reg.AQ_DEVID_devid, 0, 9)]);
    let l : Fin 16 := 15;
    let b : Barge := (sealBarge (seqBarge 1 3 1 5 5 77 []) 0 0);
    (s.rg Reg.AQ_STATUS_state l.val = 6) ∧ (bLink b = false) ∧
    (let x := atNextBarge (s.lnk l.val);
    let here := bcell b 2 = s.rg Reg.AQ_DEVID_devid;
    (Sound s l.val b) ∧ (bEcho b = x.expRound) ∧ (bcell b 0 = x.expected) ∧ (bVc b = 1) ∧ (bKind b ≤ 3) ∧ (bCount b = 1) ∧ (¬ here) ∧
    (s.route (bcell b 2) = none) ∧ (parityOk (Mem.get s.routes (2 * bcell b 2)) = true) ∧
    (parityOk (Mem.get s.routes (2 * bcell b 2 + 1)) = true))) ∧
    (let s : State := ({ (on 1 [(Reg.AQ_STATUS_state, 15, 6), (Reg.AQ_DEVID_devid, 0, 9), (Reg.AQ_STATUS_state, 14, 6)]) with links := [(15, { expected := 1 })], routes := [(10, store 14), (11, store 1)] });
    let l : Fin 16 := 15;
    let b : Barge := (sealBarge (seqBarge 1 3 1 5 5 77 []) 1 0);
    (s.rg Reg.AQ_STATUS_state l.val = 6) ∧ (bLink b = false) ∧
    (let x := atNextBarge (s.lnk l.val);
    let here := bcell b 2 = s.rg Reg.AQ_DEVID_devid;
    (Sound s l.val b) ∧ (bEcho b = x.expRound) ∧ (bcell b 0 = x.expected) ∧
    (let out := 14;
    (s.route (bcell b 2) = some out) ∧ (bVc b = 1) ∧ (bKind b ≤ 3) ∧ (bCount b = 1) ∧ (¬ here) ∧ (out ≠ l.val)))) ∧
    (let s : State := ({ (on 1 [(Reg.AQ_STATUS_state, 15, 6), (Reg.AQ_DEVID_devid, 0, 9), (Reg.AQ_STATUS_state, 14, 6)]) with links := [(15, { expected := 1 })], routes := [(10, store 14), (11, store 1)], ledger := { grants := [(3, 7 + 2 ^ 31 + 2 ^ 30 + 2 ^ 29 + 77 * 2 ^ 32)], tags := [(7, 0x4000)] } });
    let l : Fin 16 := 15;
    let b : Barge := (sealBarge (seqBarge 1 0 1 9 5 77 [70, 3 * 2048 % 4096 + 5, 1, 2]) 1 0);
    (s.rg Reg.AQ_STATUS_state l.val = 6) ∧ (bLink b = false) ∧
    (let x := atNextBarge (s.lnk l.val);
    let here := bcell b 2 = s.rg Reg.AQ_DEVID_devid;
    (Sound s l.val b) ∧ (bEcho b = x.expRound) ∧ (bcell b 0 = x.expected) ∧
    (let out := 14;
    (s.route (bcell b 3) = some out) ∧ (bVc b = 1) ∧ (bCount b = 1) ∧ (here) ∧ (1 ≤ bcell b 8 % 32) ∧ (bcell b 8 % 32 ≤ 19) ∧
    (s.mode ≠ 3) ∧ (bcell b 3 ≠ s.rg Reg.AQ_DEVID_devid) ∧ (out ≠ l.val) ∧ (bKind b = 0)))) ∧
    (let s : State := ({ (on 1 [(Reg.AQ_STATUS_state, 15, 6), (Reg.AQ_DEVID_devid, 0, 9), (Reg.AQ_STATUS_state, 14, 6)]) with links := [(15, { expected := 1 })], routes := [(10, store 14), (11, store 1)] });
    let l : Fin 16 := 15;
    let b : Barge := (sealBarge (seqBarge 1 1 1 9 5 77 [70, 5, 1, 2, 9, 8]) 1 0);
    (s.rg Reg.AQ_STATUS_state l.val = 6) ∧ (bLink b = false) ∧
    (let x := atNextBarge (s.lnk l.val);
    let here := bcell b 2 = s.rg Reg.AQ_DEVID_devid;
    (Sound s l.val b) ∧ (bEcho b = x.expRound) ∧ (bcell b 0 = x.expected) ∧
    (let out := 14;
    (s.route (bcell b 3) = some out) ∧ (bVc b = 1) ∧ (bCount b = 1) ∧ (here) ∧ (1 ≤ bcell b 8 % 32) ∧ (bcell b 8 % 32 ≤ 19) ∧
    (s.mode ≠ 3) ∧ (bcell b 3 ≠ s.rg Reg.AQ_DEVID_devid) ∧ (out ≠ l.val) ∧
    (let n := bcell b 8 % 32;
    let addr := bcell b 6 + 4096 * bcell b 7;
    let grant := addr / 2 ^ 11 % 4096;
    let off := addr % 2 ^ 11;
    let space := bits (bcell b 8) 8 4;
    let may := s.grantStatus grant off n (bcell b 4) true;
    (bKind b = 1) ∧ ((space ≠ 0 ∨ may ≠ 0)))))) ∧
    (let s : State := ({ (on 1 [(Reg.AQ_STATUS_state, 15, 6), (Reg.AQ_DEVID_devid, 0, 9), (Reg.AQ_STATUS_state, 14, 6)]) with links := [(15, { expected := 1 })], routes := [(10, store 14), (11, store 1)], ledger := { grants := [(3, 7 + 2 ^ 31 + 2 ^ 30 + 2 ^ 29 + 77 * 2 ^ 32)], tags := [(7, 0x4000)] } });
    let l : Fin 16 := 15;
    let b : Barge := (sealBarge (seqBarge 1 1 1 9 5 77 [70, 3 * 2048 % 4096 + 5, 1, 2, 9, 8]) 1 0);
    (s.rg Reg.AQ_STATUS_state l.val = 6) ∧ (bLink b = false) ∧
    (let x := atNextBarge (s.lnk l.val);
    let here := bcell b 2 = s.rg Reg.AQ_DEVID_devid;
    (Sound s l.val b) ∧ (bEcho b = x.expRound) ∧ (bcell b 0 = x.expected) ∧
    (let out := 14;
    (s.route (bcell b 3) = some out) ∧ (bVc b = 1) ∧ (bCount b = 1) ∧ (here) ∧ (1 ≤ bcell b 8 % 32) ∧ (bcell b 8 % 32 ≤ 19) ∧
    (s.mode ≠ 3) ∧ (bcell b 3 ≠ s.rg Reg.AQ_DEVID_devid) ∧ (out ≠ l.val) ∧
    (let n := bcell b 8 % 32;
    let addr := bcell b 6 + 4096 * bcell b 7;
    let grant := addr / 2 ^ 11 % 4096;
    let off := addr % 2 ^ 11;
    let space := bits (bcell b 8) 8 4;
    let may := s.grantStatus grant off n (bcell b 4) true;
    (bKind b = 1) ∧ (space = 0) ∧ (may = 0))))) ∧
    (let s : State := ({ (on 1 [(Reg.AQ_STATUS_state, 15, 6), (Reg.AQ_DEVID_devid, 0, 9)]) with links := [(15, { expected := 1 })], aliveSeen := [(5, 7)] });
    let l : Fin 16 := 15;
    let b : Barge := (sealBarge (seqBarge 2 0 1 9 5 77 [0x010, 7]) 1 0);
    (s.rg Reg.AQ_STATUS_state l.val = 6) ∧ (bLink b = false) ∧
    (let x := atNextBarge (s.lnk l.val);
    let here := bcell b 2 = s.rg Reg.AQ_DEVID_devid;
    (Sound s l.val b) ∧ (bEcho b = x.expRound) ∧ (bcell b 0 = x.expected) ∧ (bVc b = 2) ∧ (bKind b = 0) ∧ (bCount b = 1) ∧ (here) ∧
    (s.aliveSeen.find (bcell b 3) = some (bcell b 6)))) ∧
    (let s : State := ({ (on 1 [(Reg.AQ_STATUS_state, 15, 6), (Reg.AQ_DEVID_devid, 0, 9)]) with links := [(15, { expected := 1 })], aliveSeen := [(5, 7)] });
    let l : Fin 16 := 15;
    let b : Barge := (sealBarge (seqBarge 2 0 1 9 5 77 [0x031, 8]) 1 0);
    (s.rg Reg.AQ_STATUS_state l.val = 6) ∧ (bLink b = false) ∧
    (let x := atNextBarge (s.lnk l.val);
    let here := bcell b 2 = s.rg Reg.AQ_DEVID_devid;
    (Sound s l.val b) ∧ (bEcho b = x.expRound) ∧ (bcell b 0 = x.expected) ∧ (bVc b = 2) ∧ (bKind b = 0) ∧ (bCount b = 1) ∧ (here) ∧
    (s.aliveSeen.find (bcell b 3) ≠ some (bcell b 6)) ∧
    (bcell b 5 ∉ [0x010, 0x011, 0x012, 0x013, 0x014, 0x015, 0x016, 0x017, 0x020, 0x021, 0x030]))) ∧
    (let s : State := ({ (on 1 [(Reg.AQ_STATUS_state, 15, 6), (Reg.AQ_DEVID_devid, 0, 9)]) with links := [(15, { codeword := 1 })] });
    let l : Fin 16 := 15;
    let w : List (BitVec 10) := (List.replicate 136 (0 : BitVec 10));
    (w.length = 136) ∧ ((s.lnk l.val).codeword < 2) ∧ ((s.lnk l.val).rxSwap = none) ∧
    (let x := s.lnk l.val;
    let st := s.rg Reg.AQ_STATUS_state l.val;
    let d := (List.replicate 136 (0 : Nat));
    (rsDecode (w.map (·.toNat)) = some (d, [])) ∧ ((st = 5 ∨ st = 6 ∨ (st = 4 ∧ x.goodWords < 63))))) ∧
    (let s : State := ({ (on 1 [(Reg.AQ_STATUS_state, 15, 4), (Reg.AQ_DEVID_devid, 0, 9)]) with links := [(15, { goodWords := 63 })] });
    let l : Fin 16 := 15;
    let w : List (BitVec 10) := (List.replicate 136 (0 : BitVec 10));
    (w.length = 136) ∧ ((s.lnk l.val).codeword < 2) ∧ ((s.lnk l.val).rxSwap = none) ∧
    (let x := s.lnk l.val;
    let st := s.rg Reg.AQ_STATUS_state l.val;
    let d := (List.replicate 136 (0 : Nat));
    (rsDecode (w.map (·.toNat)) = some (d, [])) ∧ (st = 4) ∧ (63 ≤ x.goodWords))) ∧
    (let s : State := (on 1 [(Reg.AQ_STATUS_state, 15, 6), (Reg.AQ_DEVID_devid, 0, 9)]);
    let l : Fin 16 := 15;
    let w : List (BitVec 10) := (1023 :: List.replicate 135 (0 : BitVec 10));
    (w.length = 136) ∧ ((s.lnk l.val).codeword < 2) ∧ ((s.lnk l.val).rxSwap = none) ∧
    (let st := s.rg Reg.AQ_STATUS_state l.val;
    let d := (List.replicate 136 (0 : Nat));
    let p := (0 : Nat);
    (rsDecode (w.map (·.toNat)) = some (d, [p])) ∧ ((st = 5 ∨ st = 6)))) ∧
    (let s : State := (on 1 [(Reg.AQ_STATUS_state, 15, 6), (Reg.AQ_DEVID_devid, 0, 9)]);
    let l : Fin 16 := 15;
    let w : List (BitVec 10) := ((List.range 136).map fun i => BitVec.ofNat 10 (i * i * 7 + 3));
    (w.length = 136) ∧ ((s.lnk l.val).codeword < 2) ∧ ((s.lnk l.val).rxSwap = none) ∧
    (let x := s.lnk l.val;
    let st := s.rg Reg.AQ_STATUS_state l.val;
    (st = 6) ∧ (rsDecode (w.map (·.toNat)) = none) ∧ (BucketSpare s l.val) ∧ (x.retrainTimes = []))) := by
  refine ⟨?_, ?_, ?_, ?_, ?_, ?_, ?_, ?_, ?_, ?_, ?_, ?_, ?_, ?_, ?_, ?_, ?_, ?_, ?_, ?_, ?_, ?_, ?_, ?_, ?_, ?_⟩ <;>
    (dsimp only <;> decide +kernel)

/-- States and operands that meet the hypotheses of LinkTraining. -/
theorem test_meets_LinkTraining :
    (let s : State := (on 1 [(Reg.AQ_STATUS_state, 15, 5), (Reg.AQ_DEVID_devid, 0, 9)]);
    let l : Fin 16 := 15;
    let b : Barge := (linkBarge 4095 2 [7, 3, 0, 15, 0, 0, 128, 0, 0]);
    let f : BitVec 96 := (0 : BitVec 96);
    let x := s.lnk l.val;
    let st := s.rg Reg.AQ_STATUS_state l.val;
    let refuse := bcell b 5 < 16 ∨ bcell b 8 < 128 ∨ bcell b 2 = s.rg Reg.AQ_DEVID_devid ∨ (bit (bcell b 3) 4 = true ∧
      s.on Reg.AQ_CTRL_bridge_ok l.val = false);
    let good := bits f.toNat 0 32 = 0x5F0A3C96 ∧ bits f.toNat 61 19 = 0 ∧ crcOf 2 (leBytes 6 (bits f.toNat 32 48)) = bits f.toNat 80 16;
    (st = 5) ∧ (Sound s l.val b) ∧ (bLink b = true) ∧ (bVc b = 0) ∧ (bKind b = 2) ∧ (refuse) ∧ (¬ good) ∧ (2 ≤ st) ∧ (st ≤ 5) ∧
    (x.refused = false)) ∧
    (let s : State := ({ (on 1 [(Reg.AQ_STATUS_state, 15, 5), (Reg.AQ_DEVID_devid, 0, 9)]) with links := [(15, { oldPeer := some 8 })] });
    let l : Fin 16 := 15;
    let b : Barge := (linkBarge 4095 2 [7, 3, 0, 16, 0, 0, 128, 0, 0]);
    let x := s.lnk l.val;
    let st := s.rg Reg.AQ_STATUS_state l.val;
    let refuse := bcell b 5 < 16 ∨ bcell b 8 < 128 ∨ bcell b 2 = s.rg Reg.AQ_DEVID_devid ∨ (bit (bcell b 3) 4 = true ∧
      s.on Reg.AQ_CTRL_bridge_ok l.val = false);
    (st = 5) ∧ (Sound s l.val b) ∧ (bLink b = true) ∧ (bVc b = 0) ∧ (bKind b = 2) ∧ (¬ refuse) ∧
    (x.oldPeer.any (fun p => decide (p ≠ bcell b 2)) = true)) ∧
    (let s : State := (on 1 [(Reg.AQ_STATUS_state, 15, 5), (Reg.AQ_DEVID_devid, 0, 9)]);
    let l : Fin 16 := 15;
    let b : Barge := (linkBarge 4095 2 [7, 3, 0, 16, 0, 0, 128, 0, 0]);
    let x := s.lnk l.val;
    let y := ackTaken (atNextBarge x) b;
    let st := s.rg Reg.AQ_STATUS_state l.val;
    let refuse := bcell b 5 < 16 ∨ bcell b 8 < 128 ∨ bcell b 2 = s.rg Reg.AQ_DEVID_devid ∨ (bit (bcell b 3) 4 = true ∧
      s.on Reg.AQ_CTRL_bridge_ok l.val = false);
    (st = 5) ∧ (Sound s l.val b) ∧ (bLink b = true) ∧ (bVc b = 0) ∧ (bKind b = 2) ∧ (¬ refuse) ∧ (x.oldPeer = none) ∧ (bcell b 10 ≠ 1) ∧
    (y.peerEcho = false)) ∧
    (let s : State := (on 1 [(Reg.AQ_STATUS_state, 15, 5), (Reg.AQ_DEVID_devid, 0, 9)]);
    let l : Fin 16 := 15;
    let b : Barge := (linkBarge 4095 2 [7, 3, 0, 16, 0, 0, 128, 0, 1]);
    let x := s.lnk l.val;
    let st := s.rg Reg.AQ_STATUS_state l.val;
    let refuse := bcell b 5 < 16 ∨ bcell b 8 < 128 ∨ bcell b 2 = s.rg Reg.AQ_DEVID_devid ∨ (bit (bcell b 3) 4 = true ∧
      s.on Reg.AQ_CTRL_bridge_ok l.val = false);
    (st = 5) ∧ (Sound s l.val b) ∧ (bLink b = true) ∧ (bVc b = 0) ∧ (bKind b = 2) ∧ (¬ refuse) ∧ (x.oldPeer = none) ∧ (bcell b 10 = 1) ∧
    (x.echoSent = false)) ∧
    (let s : State := ({ (on 1 [(Reg.AQ_STATUS_state, 15, 5), (Reg.AQ_DEVID_devid, 0, 9)]) with links := [(15, { echoSent := true })] });
    let l : Fin 16 := 15;
    let b : Barge := (linkBarge 4095 2 [7, 3, 0, 16, 0, 0, 128, 0, 1]);
    let x := s.lnk l.val;
    let st := s.rg Reg.AQ_STATUS_state l.val;
    let refuse := bcell b 5 < 16 ∨ bcell b 8 < 128 ∨ bcell b 2 = s.rg Reg.AQ_DEVID_devid ∨ (bit (bcell b 3) 4 = true ∧
      s.on Reg.AQ_CTRL_bridge_ok l.val = false);
    (st = 5) ∧ (Sound s l.val b) ∧ (bLink b = true) ∧ (bVc b = 0) ∧ (bKind b = 2) ∧ (¬ refuse) ∧ (x.oldPeer = none) ∧ (bcell b 10 = 1) ∧
    (x.echoSent = true)) ∧
    (let s : State := (on 1 [(Reg.AQ_STATUS_state, 15, 2), (Reg.AQ_DEVID_devid, 0, 9)]);
    let l : Fin 16 := 15;
    let f : BitVec 96 := (let p := 0x5F0A3C96 + 2 * 2 ^ 51 + 7 * 2 ^ 54 + 0 * 2 ^ 57;
    BitVec.ofNat 96 (p + crcOf 2 (leBytes 6 (p / 2 ^ 32)) * 2 ^ 80));
    let st := s.rg Reg.AQ_STATUS_state l.val;
    let ask := bits f.toNat 57 2;
    let ready := 2 ≤ bits f.toNat 51 3;
    let good := bits f.toNat 0 32 = 0x5F0A3C96 ∧ bits f.toNat 61 19 = 0 ∧ crcOf 2 (leBytes 6 (bits f.toNat 32 48)) = bits f.toNat 80 16;
    (good) ∧ (st = 2) ∧ (ask = 0) ∧ (ready)) ∧
    (let s : State := (on 1 [(Reg.AQ_STATUS_state, 15, 2), (Reg.AQ_DEVID_devid, 0, 9)]);
    let l : Fin 16 := 15;
    let lane : Fin 5 := 4;
    let f : BitVec 96 := (let p := 0x5F0A3C96 + 2 * 2 ^ 51 + 7 * 2 ^ 54 + 3 * 2 ^ 57;
    BitVec.ofNat 96 (p + crcOf 2 (leBytes 6 (p / 2 ^ 32)) * 2 ^ 80));
    let x := s.lnk l.val;
    let st := s.rg Reg.AQ_STATUS_state l.val;
    let tap := bits f.toNat 54 3;
    let ask := bits f.toNat 57 2;
    let good := bits f.toNat 0 32 = 0x5F0A3C96 ∧ bits f.toNat 61 19 = 0 ∧ crcOf 2 (leBytes 6 (bits f.toNat 32 48)) = bits f.toNat 80 16;
    (good) ∧ (st = 2) ∧ (ask = 3) ∧ (4 ≤ tap) ∧ ((x.equalized.filter (· ≠ lane.val)).length < 5)) ∧
    (let s : State := (on 1 [(Reg.AQ_STATUS_state, 15, 2), (Reg.AQ_DEVID_devid, 0, 9)]);
    let l : Fin 16 := 15;
    let lane : Fin 5 := 4;
    let f : BitVec 96 := (let p := 0x5F0A3C96 + 2 * 2 ^ 51 + 3 * 2 ^ 54 + 3 * 2 ^ 57;
    BitVec.ofNat 96 (p + crcOf 2 (leBytes 6 (p / 2 ^ 32)) * 2 ^ 80));
    let x := s.lnk l.val;
    let st := s.rg Reg.AQ_STATUS_state l.val;
    let tap := bits f.toNat 54 3;
    let ask := bits f.toNat 57 2;
    let good := bits f.toNat 0 32 = 0x5F0A3C96 ∧ bits f.toNat 61 19 = 0 ∧ crcOf 2 (leBytes 6 (bits f.toNat 32 48)) = bits f.toNat 80 16;
    (good) ∧ (st = 2) ∧ (ask = 3) ∧ (tap < 4) ∧ ((x.equalized.filter (· ≠ lane.val)).length < 5)) ∧
    (let s : State := (on 1 [(Reg.AQ_STATUS_state, 15, 3), (Reg.AQ_DEVID_devid, 0, 9)]);
    let l : Fin 16 := 15;
    let f : BitVec 96 := (let p := 0x5F0A3C96 + 7 * 2 ^ 48 + 2 * 2 ^ 51 + 0 * 2 ^ 54 + 0 * 2 ^ 57;
    BitVec.ofNat 96 (p + crcOf 2 (leBytes 6 (p / 2 ^ 32)) * 2 ^ 80));
    let st := s.rg Reg.AQ_STATUS_state l.val;
    let far := bits f.toNat 48 3;
    let good := bits f.toNat 0 32 = 0x5F0A3C96 ∧ bits f.toNat 61 19 = 0 ∧ crcOf 2 (leBytes 6 (bits f.toNat 32 48)) = bits f.toNat 80 16;
    (good) ∧ (st = 3) ∧ (4 < far)) ∧
    (let s : State := (on 1 [(Reg.AQ_STATUS_state, 15, 3), (Reg.AQ_DEVID_devid, 0, 9)]);
    let l : Fin 16 := 15;
    let f : BitVec 96 := (let p := 0x5F0A3C96 + 4 * 2 ^ 48 + 2 * 2 ^ 51 + 0 * 2 ^ 54 + 0 * 2 ^ 57;
    BitVec.ofNat 96 (p + crcOf 2 (leBytes 6 (p / 2 ^ 32)) * 2 ^ 80));
    let x := s.lnk l.val;
    let st := s.rg Reg.AQ_STATUS_state l.val;
    let far := bits f.toNat 48 3;
    let good := bits f.toNat 0 32 = 0x5F0A3C96 ∧ bits f.toNat 61 19 = 0 ∧ crcOf 2 (leBytes 6 (bits f.toNat 32 48)) = bits f.toNat 80 16;
    (good) ∧ (st = 3) ∧ (far ≤ 4) ∧ (far ∉ x.aligned) ∧ (x.aligned.length ≠ 4)) ∧
    (let s : State := ({ (on 1 [(Reg.AQ_STATUS_state, 15, 3), (Reg.AQ_DEVID_devid, 0, 9)]) with links := [(15, { aligned := [0, 1, 2, 3] })] });
    let l : Fin 16 := 15;
    let f : BitVec 96 := (let p := 0x5F0A3C96 + 4 * 2 ^ 48 + 2 * 2 ^ 51 + 0 * 2 ^ 54 + 0 * 2 ^ 57;
    BitVec.ofNat 96 (p + crcOf 2 (leBytes 6 (p / 2 ^ 32)) * 2 ^ 80));
    let x := s.lnk l.val;
    let st := s.rg Reg.AQ_STATUS_state l.val;
    let far := bits f.toNat 48 3;
    let good := bits f.toNat 0 32 = 0x5F0A3C96 ∧ bits f.toNat 61 19 = 0 ∧ crcOf 2 (leBytes 6 (bits f.toNat 32 48)) = bits f.toNat 80 16;
    (good) ∧ (st = 3) ∧ (far ≤ 4) ∧ (far ∉ x.aligned) ∧ (x.aligned.length = 4)) ∧
    (let s : State := (on 0 [(Reg.AQ_STATUS_state, 15, 1)]);
    let l : Fin 16 := 15;
    let st := s.rg Reg.AQ_STATUS_state l.val;
    (st = 1) ∧ (s.mode = 0)) ∧
    (let s : State := (on 1 [(Reg.AQ_STATUS_state, 15, 1), (Reg.AQ_DEVID_devid, 0, 9)]);
    let l : Fin 16 := 15;
    let st := s.rg Reg.AQ_STATUS_state l.val;
    (st = 1) ∧ (s.mode ≠ 0) ∧ (s.rg Reg.PWR_DOM_state (24 + l.val / 4) = 1)) ∧
    (let s : State := ({ (on 1 [(Reg.AQ_STATUS_state, 15, 5), (Reg.AQ_DEVID_devid, 0, 9)]) with links := [(15, { refused := true })] });
    let l : Fin 16 := 15;
    let x := s.lnk l.val;
    (x.refused = true)) ∧
    (let s : State := ({ (on 1 [(Reg.AQ_STATUS_state, 15, 7), (Reg.AQ_DEVID_devid, 0, 9)]) with links := [(15, { retrainFails := 1 })] });
    let l : Fin 16 := 15;
    let x := s.lnk l.val;
    let st := s.rg Reg.AQ_STATUS_state l.val;
    (st = 7) ∧ (x.refused = false) ∧ (x.retrainFails < 2)) ∧
    (let s : State := ({ (on 1 [(Reg.AQ_STATUS_state, 15, 7), (Reg.AQ_DEVID_devid, 0, 9)]) with links := [(15, { retrainFails := 2 })] });
    let l : Fin 16 := 15;
    let x := s.lnk l.val;
    let st := s.rg Reg.AQ_STATUS_state l.val;
    (st = 7) ∧ (x.refused = false) ∧ (2 ≤ x.retrainFails) ∧ (NothingUnacked s l.val) ∧ (NothingWaits s l.val)) := by
  refine ⟨?_, ?_, ?_, ?_, ?_, ?_, ?_, ?_, ?_, ?_, ?_, ?_, ?_, ?_, ?_, ?_⟩ <;> (dsimp only <;> decide +kernel)

/-- States and operands that meet the hypotheses of Transmitter. -/
theorem test_meets_Transmitter :
    (let s : State := ({ (on 1 [(Reg.AQ_STATUS_state, 15, 6), (Reg.AQ_DEVID_devid, 0, 9)]) with links := [(15, { sinceStatus := 63 })] });
    let l : Fin 16 := 15;
    let x := s.lnk l.val;
    let st := s.rg Reg.AQ_STATUS_state l.val;
    let due := x.statusDue = true ∨ 63 ≤ x.sinceStatus;
    (st = 6) ∧ (x.train.length < 9) ∧ (due) ∧ (x.window = [])) ∧
    (let s : State := ({ (on 1 [(Reg.AQ_STATUS_state, 15, 6), (Reg.AQ_DEVID_devid, 0, 9)]) with links := [(15, { window := List.replicate 512 0 })] });
    let l : Fin 16 := 15;
    let x := s.lnk l.val;
    let st := s.rg Reg.AQ_STATUS_state l.val;
    let due := x.statusDue = true ∨ 63 ≤ x.sinceStatus;
    (st = 6) ∧ (x.train.length < 9) ∧ (¬ due) ∧ (x.replaying = []) ∧ (512 ≤ x.window.length) ∧ (x.window ≠ []) ∧
    (x.replayRuns < max 1 (s.rg Reg.AQ_THR_replay_limit l.val)) ∧ (BucketSpare s l.val)) ∧
    (let s : State := ({ (on 1 [(Reg.AQ_STATUS_state, 15, 6), (Reg.AQ_DEVID_devid, 0, 9)]) with links := [(15, { window := [sealBarge (seqBarge 2 0 1 5 9 77 []) 0 0], replaying := [(sealBarge (seqBarge 2 0 1 5 9 77 []) 0 0)] })] });
    let l : Fin 16 := 15;
    let x := s.lnk l.val;
    let st := s.rg Reg.AQ_STATUS_state l.val;
    let due := x.statusDue = true ∨ 63 ≤ x.sinceStatus;
    (st = 6) ∧ (x.train.length < 9) ∧
    (let b := (sealBarge (seqBarge 2 0 1 5 9 77 []) 0 0);
    (b ∈ x.replaying.head?) ∧ (¬ due))) ∧
    (let s : State := ({ (on 1 [(Reg.AQ_STATUS_state, 15, 6), (Reg.AQ_DEVID_devid, 0, 9)]) with links := [(15, { window := List.replicate 511 0 })] });
    let l : Fin 16 := 15;
    let x := s.lnk l.val;
    let st := s.rg Reg.AQ_STATUS_state l.val;
    let due := x.statusDue = true ∨ 63 ≤ x.sinceStatus;
    let idle := ¬ due ∧ x.replaying = [] ∧ x.window.length < 512 ∧ x.draining = false;
    (st = 6) ∧ (x.train.length < 9) ∧ (idle) ∧ (x.q0 = []) ∧ (x.q1 = []) ∧ (x.q2 = []) ∧ (x.q3 = [])) ∧
    (let s : State := ({ (on 1 [(Reg.AQ_STATUS_state, 15, 6), (Reg.AQ_DEVID_devid, 0, 9)]) with links := [(15, { q2 := [(⟨16, seqBarge 2 0 1 5 9 77 [], 1⟩ : Waiting)], pad2 := 1 })] });
    let l : Fin 16 := 15;
    let x := s.lnk l.val;
    let st := s.rg Reg.AQ_STATUS_state l.val;
    let due := x.statusDue = true ∨ 63 ≤ x.sinceStatus;
    let idle := ¬ due ∧ x.replaying = [] ∧ x.window.length < 512 ∧ x.draining = false;
    (st = 6) ∧ (x.train.length < 9) ∧
    (let w := (⟨16, seqBarge 2 0 1 5 9 77 [], 1⟩ : Waiting);
    (w ∈ x.q2.head?) ∧ (idle) ∧ (w.src = 16) ∧ (x.q2.length = 1) ∧ (0 < x.pad2))) ∧
    (let s : State := ({ (on 1 [(Reg.AQ_STATUS_state, 15, 6), (Reg.AQ_DEVID_devid, 0, 9)]) with links := [(15, { q0 := [(⟨16, seqBarge 0 0 1 5 9 77 [], 0⟩ : Waiting)], run1 := 14 })] });
    let l : Fin 16 := 15;
    let x := s.lnk l.val;
    let st := s.rg Reg.AQ_STATUS_state l.val;
    let due := x.statusDue = true ∨ 63 ≤ x.sinceStatus;
    let idle := ¬ due ∧ x.replaying = [] ∧ x.window.length < 512 ∧ x.draining = false;
    let ready1 := x.q1 ≠ [] ∧ 0 < x.pad1;
    let ready3 := x.q3 ≠ [] ∧ 0 < x.pad3;
    (st = 6) ∧ (x.train.length < 9) ∧
    (let w := (⟨16, seqBarge 0 0 1 5 9 77 [], 0⟩ : Waiting);
    (w ∈ x.q0.head?) ∧ (idle) ∧ (x.q2 = []) ∧ (w.src = 16) ∧ (x.q0.length = 1) ∧ ((x.run3 < 15 ∨ ¬ ready3)) ∧
    ((x.run1 < 15 ∨ ¬ ready1)))) ∧
    (let s : State := ({ (on 1 [(Reg.AQ_STATUS_state, 15, 6), (Reg.AQ_DEVID_devid, 0, 9)]) with links := [(15, { q0 := [(⟨16, seqBarge 0 0 1 5 9 77 [], 0⟩ : Waiting)], run1 := 15, run3 := 15, q3 := [(⟨16, seqBarge 3 0 1 5 9 77 [], 3⟩ : Waiting)], pad3 := 1 })] });
    let l : Fin 16 := 15;
    let x := s.lnk l.val;
    let st := s.rg Reg.AQ_STATUS_state l.val;
    let due := x.statusDue = true ∨ 63 ≤ x.sinceStatus;
    let idle := ¬ due ∧ x.replaying = [] ∧ x.window.length < 512 ∧ x.draining = false;
    let ready1 := x.q1 ≠ [] ∧ 0 < x.pad1;
    (st = 6) ∧ (x.train.length < 9) ∧
    (let w := (⟨16, seqBarge 3 0 1 5 9 77 [], 3⟩ : Waiting);
    (w ∈ x.q3.head?) ∧ (idle) ∧ (x.q2 = []) ∧ ((15 ≤ x.run3 ∨ (x.q0 = [] ∧ (x.run1 < 15 ∨ ¬ ready1)))) ∧ (w.src = 16) ∧
    (x.q3.length = 1) ∧ (0 < x.pad3))) ∧
    (let s : State := ({ (on 1 [(Reg.AQ_STATUS_state, 15, 6), (Reg.AQ_DEVID_devid, 0, 9)]) with links := [(15, { q0 := [(⟨16, seqBarge 0 0 1 5 9 77 [], 0⟩ : Waiting)], run1 := 15, q1 := [(⟨16, seqBarge 1 0 1 5 9 77 [], 1⟩ : Waiting)], pad1 := 1 })] });
    let l : Fin 16 := 15;
    let x := s.lnk l.val;
    let st := s.rg Reg.AQ_STATUS_state l.val;
    let due := x.statusDue = true ∨ 63 ≤ x.sinceStatus;
    let idle := ¬ due ∧ x.replaying = [] ∧ x.window.length < 512 ∧ x.draining = false;
    let ready3 := x.q3 ≠ [] ∧ 0 < x.pad3;
    (st = 6) ∧ (x.train.length < 9) ∧
    (let w := (⟨16, seqBarge 1 0 1 5 9 77 [], 1⟩ : Waiting);
    (w ∈ x.q1.head?) ∧ (idle) ∧ (x.q2 = []) ∧ ((x.run3 < 15 ∨ ¬ ready3)) ∧ ((15 ≤ x.run1 ∨ (x.q0 = [] ∧ ¬ ready3))) ∧ (w.src = 16) ∧
    (x.q1.length = 1) ∧ (0 < x.pad1))) ∧
    (let s : State := ({ (on 1 [(Reg.AQ_STATUS_state, 15, 6), (Reg.AQ_DEVID_devid, 0, 9)]) with links := [(15, { statusDue := true, train := List.replicate 9 0 })] });
    let l : Fin 16 := 15;
    let x := s.lnk l.val;
    let st := s.rg Reg.AQ_STATUS_state l.val;
    let due := x.statusDue = true ∨ 63 ≤ x.sinceStatus;
    (st = 6) ∧ (x.train.length = 9) ∧ (due) ∧ (x.txSwap = none) ∧
    (((List.range 4).map (mapLane (s.rg Reg.AQ_LANEMAP_tx_map l.val))).Nodup)) ∧
    (let s : State := (on 1 [(Reg.AQ_STATUS_state, 15, 5), (Reg.AQ_DEVID_devid, 0, 9)]);
    let l : Fin 16 := 15;
    let x := s.lnk l.val;
    let st := s.rg Reg.AQ_STATUS_state l.val;
    (st = 5) ∧ (x.train.length < 9) ∧ ((x.peerOk = false ∨ x.peerEcho = false))) ∧
    (let s : State := (on 1 [(Reg.AQ_STATUS_state, 15, 4)]);
    let l : Fin 16 := 15;
    let x := s.lnk l.val;
    let st := s.rg Reg.AQ_STATUS_state l.val;
    (st = 4) ∧ (x.train.length < 9)) ∧
    (let s : State := ({ (on 1 [(Reg.AQ_STATUS_state, 15, 5), (Reg.AQ_DEVID_devid, 0, 9)]) with links := [(15, { peerOk := true, peerEcho := true })] });
    let l : Fin 16 := 15;
    let x := s.lnk l.val;
    let st := s.rg Reg.AQ_STATUS_state l.val;
    (st = 5) ∧ (x.peerOk = true) ∧ (x.peerEcho = true)) ∧
    (let s : State := ({ (on 1 [(Reg.AQ_STATUS_state, 15, 6), (Reg.AQ_DEVID_devid, 0, 9)]) with links := [(15, { window := [sealBarge (seqBarge 2 0 1 5 9 77 []) 0 0], replayRuns := 255 })] });
    let l : Fin 16 := 15;
    let x := s.lnk l.val;
    let st := s.rg Reg.AQ_STATUS_state l.val;
    (st = 6) ∧ (x.window ≠ []) ∧ (max 1 (s.rg Reg.AQ_THR_replay_limit l.val) ≤ x.replayRuns) ∧ (x.retrainTimes = [])) ∧
    (let s : State := ({ (on 1 [(Reg.AQ_STATUS_state, 15, 6), (Reg.AQ_DEVID_devid, 0, 9)]) with links := [(15, { q1 := [(⟨16, seqBarge 1 0 1 5 9 77 [], 1⟩ : Waiting)] })], routes := [(11, store 0x301)] });
    let l : Fin 16 := 15;
    let x := s.lnk l.val;
    let st := s.rg Reg.AQ_STATUS_state l.val;
    let w := (⟨16, seqBarge 1 0 1 5 9 77 [], 1⟩ : Waiting);
    (w ∈ x.q1.head?) ∧ (st = 6) ∧ (x.pad1 = 0) ∧ (bVc w.barge = 1) ∧ (s.route (bcell w.barge 2) = none) ∧ (w.src = 16) ∧
    (parityOk (Mem.get s.routes (2 * bcell w.barge 2)) = true) ∧ (parityOk (Mem.get s.routes (2 * bcell w.barge 2 + 1)) = true)) ∧
    (let s : State := ({ (on 1 [(Reg.AQ_STATUS_state, 15, 6), (Reg.AQ_STATUS_state, 14, 6), (Reg.AQ_DEVID_devid, 0, 9)]) with links := [(15, { q1 := [(⟨16, seqBarge 1 0 1 5 9 77 [], 1⟩ : Waiting)] })], routes := [(10, store 14), (11, store 0x301)] });
    let l : Fin 16 := 15;
    let x := s.lnk l.val;
    let st := s.rg Reg.AQ_STATUS_state l.val;
    let w := (⟨16, seqBarge 1 0 1 5 9 77 [], 1⟩ : Waiting);
    (w ∈ x.q1.head?) ∧ (st = 6) ∧ (x.pad1 = 0) ∧ (s.escapeLink (bcell w.barge 2) ≠ l.val) ∧ (bVc w.barge = 1) ∧
    ((s.route (bcell w.barge 2)).isSome = true)) := by
  refine ⟨?_, ?_, ?_, ?_, ?_, ?_, ?_, ?_, ?_, ?_, ?_, ?_, ?_, ?_, ?_⟩ <;> (dsimp only <;> decide +kernel)

/-- States and operands that meet the hypotheses of LanesAndLinkControl. -/
theorem test_meets_LanesAndLinkControl :
    (let s : State := ({ (on 1 [(Reg.AQ_STATUS_state, 15, 6), (Reg.AQ_DEVID_devid, 0, 9)]) with links := [(15, { laneSym := [(4, 5)], laneOver := [(4, 1)] })] });
    let l : Fin 16 := 15;
    let lane : Fin 5 := 4;
    let x := s.lnk l.val;
    let st := s.rg Reg.AQ_STATUS_state l.val;
    let i := 5 * l.val + lane.val;
    let c := ((4, 5) : Nat × Nat);
    (c ∈ x.laneSym.head?) ∧ (st = 6) ∧ (x.laneSym.length = 1) ∧ (c.1 = lane.val) ∧ ((x.laneOver = [] ∨ x.laneOver = [(lane.val, 1)])) ∧
    ((∀ k ∈ [0, 1, 2, 3], ¬ CarriesSlot s l.val lane.val k)) ∧ (s.on Reg.AQ_STATUS_spare_used l.val = false) ∧ (x.rxAsk = none) ∧
    (x.draining = false) ∧ (s.on Reg.AQ_MARGIN_busy i = false) ∧ (¬ (st = 8 ∧ s.on Reg.AQ_PRBS_chk_en i = true))) ∧
    (let s : State := ({ (on 1 [(Reg.AQ_STATUS_state, 15, 6), (Reg.AQ_DEVID_devid, 0, 9), (Reg.AQ_LANEMAP_rx_map, 15, 4 + 8 + 128)]) with links := [(15, { laneSym := [(4, 4294967295)], laneOver := [(4, 2)] })] });
    let l : Fin 16 := 15;
    let lane : Fin 5 := 4;
    let x := s.lnk l.val;
    let st := s.rg Reg.AQ_STATUS_state l.val;
    let k := (0 : Nat);
    (k ∈ [0, 1, 2, 3]) ∧ (CarriesSlot s l.val lane.val k) ∧ (st = 6) ∧ (x.sinceStatus < 63) ∧ (NothingUnacked s l.val) ∧
    (NothingWaits s l.val) ∧
    (let c := ((4, 4294967295) : Nat × Nat);
    (c ∈ x.laneSym.head?) ∧ (x.laneSym.length = 1) ∧ (c.1 = lane.val) ∧ (s.rg Reg.AQ_THR_lane_ser l.val < c.2) ∧
    (x.laneOver = [(lane.val, 2)]))) ∧
    (let s : State := (on 1 [(Reg.AQ_STATUS_state, 15, 5), (Reg.AQ_DEVID_devid, 0, 9)]);
    let l : Fin 16 := 15;
    let st := s.rg Reg.AQ_STATUS_state l.val;
    (st ≠ 6)) ∧
    (let s : State := ({ (on 1 [(Reg.AQ_STATUS_state, 15, 6), (Reg.AQ_DEVID_devid, 0, 9)]) with links := [(15, { draining := true })] });
    let l : Fin 16 := 15;
    let x := s.lnk l.val;
    let st := s.rg Reg.AQ_STATUS_state l.val;
    (x.draining = true) ∧ (st ≠ 9) ∧ ((x.window = [] ∨ NothingUnacked s l.val)) ∧ (NothingWaits s l.val)) ∧
    (let s : State := ({ (on 1 [(Reg.AQ_STATUS_state, 15, 6), (Reg.AQ_DEVID_devid, 0, 9), (Reg.AQ_STATUS_state, 14, 6)]) with links := [(15, { draining := true, q1 := [(⟨16, seqBarge 1 0 1 5 9 77 [], 1⟩ : Waiting)] })], routes := [(10, store 14), (11, store 1)] });
    let l : Fin 16 := 15;
    let x := s.lnk l.val;
    let st := s.rg Reg.AQ_STATUS_state l.val;
    let w := (⟨16, seqBarge 1 0 1 5 9 77 [], 1⟩ : Waiting);
    (w ∈ x.q1.head?) ∧ (x.draining = true) ∧ (st = 6) ∧ (x.window = []) ∧ (x.train.length < 9) ∧ (x.waitingAll = [w]) ∧
    (bVc w.barge = 1) ∧
    (let k := 14;
    (k ∈ ((s.candidates (bcell w.barge 2)).filter (· ≠ l.val)).find? s.active))) ∧
    (let s : State := (on 1 [(Reg.AQ_STATUS_state, 15, 8), (Reg.AQ_DEVID_devid, 0, 9), (Reg.AQ_MARGIN_busy, 79, 1), (Reg.AQ_PRBS_chk_en, 79, 1)]);
    let l : Fin 16 := 15;
    let lane : Fin 5 := 4;
    let st := s.rg Reg.AQ_STATUS_state l.val;
    let i := 5 * l.val + lane.val;
    (s.on Reg.AQ_MARGIN_busy i = true) ∧ (st = 8) ∧ (s.on Reg.AQ_PRBS_chk_en i = true)) ∧
    (let s : State := (on 1 [(Reg.AQ_SEL_link, 0, 15), (Reg.AQ_SEL_lane, 0, 4), (Reg.AQ_STATUS_state, 15, 0)]);
    let who : Requester := (Requester.pf);
    let v : Word := (1 : Word);
    let l := s.rgw Reg.AQ_SEL_link (copyOf who);
    let st := s.rg Reg.AQ_STATUS_state l;
    let en := bit v.toNat 0;
    (Writable s who 0x400008) ∧ (l < 16) ∧ (bits v.toNat 3 3 = bits (s.readFields Reg.AQ_CTRL .pf l) 3 3) ∧ (en = true) ∧ (st = 0) ∧
    (s.mode ≠ 0) ∧ (s.on Reg.AQ_CTRL_test l = false) ∧ (bits v.toNat 1 2 = 0) ∧
    (let k := copyOf who;
    let dest := s.rgw Reg.AQ_ROUTE_ADDR_dest k;
    let cell := s.rgw Reg.AQ_ROUTE_ADDR_cell k;
    (dest < 4096) ∧ (cell < 2) ∧ (Readable s who 0x400044) ∧ (parityOk (Mem.get s.routes (2 * dest + cell)) = true) ∧ (cell = 0))) ∧
    (let s : State := (on 2 [(Reg.AQ_SEL_link, 0, 15), (Reg.AQ_SEL_lane, 0, 4), (Reg.AQ_STATUS_state, 15, 0), (Reg.AQ_CTRL_test, 15, 1)]);
    let who : Requester := (Requester.pf);
    let v : Word := (9 : Word);
    let l := s.rgw Reg.AQ_SEL_link (copyOf who);
    let st := s.rg Reg.AQ_STATUS_state l;
    let en := bit v.toNat 0;
    (Writable s who 0x400008) ∧ (l < 16) ∧ (bits v.toNat 3 3 = bits (s.readFields Reg.AQ_CTRL .pf l) 3 3) ∧ (en = true) ∧ (st = 0) ∧
    (s.mode = 2) ∧ (s.on Reg.AQ_CTRL_test l = true) ∧ (bits v.toNat 1 2 = 0)) ∧
    (let s : State := (on 1 [(Reg.AQ_SEL_link, 0, 15), (Reg.AQ_SEL_lane, 0, 4), (Reg.AQ_STATUS_state, 15, 6)]);
    let who : Requester := (Requester.pf);
    let v : Word := (0 : Word);
    let l := s.rgw Reg.AQ_SEL_link (copyOf who);
    let x := s.lnk l;
    let st := s.rg Reg.AQ_STATUS_state l;
    let en := bit v.toNat 0;
    (Writable s who 0x400008) ∧ (l < 16) ∧ (bits v.toNat 3 3 = bits (s.readFields Reg.AQ_CTRL .pf l) 3 3) ∧ (en = false) ∧ (st ≠ 0) ∧
    (st ≠ 9) ∧ (bits v.toNat 1 2 = 0) ∧ ((∀ w ∈ x.waitingAll, w.src = 16))) ∧
    (let s : State := (on 1 [(Reg.AQ_SEL_link, 0, 15), (Reg.AQ_SEL_lane, 0, 4), (Reg.AQ_STATUS_state, 15, 6)]);
    let who : Requester := (Requester.pf);
    let v : Word := (3 : Word);
    let l := s.rgw Reg.AQ_SEL_link (copyOf who);
    let x := s.lnk l;
    let st := s.rg Reg.AQ_STATUS_state l;
    let en := bit v.toNat 0;
    (Writable s who 0x400008) ∧ (l < 16) ∧ (bits v.toNat 3 3 = bits (s.readFields Reg.AQ_CTRL .pf l) 3 3) ∧ (en = true) ∧ (st = 6) ∧
    (bits v.toNat 1 2 = 1) ∧ (x.retrainTimes = [])) ∧
    (let s : State := (on 1 [(Reg.AQ_SEL_link, 0, 15), (Reg.AQ_SEL_lane, 0, 4), (Reg.AQ_STATUS_state, 15, 6)]);
    let who : Requester := (Requester.pf);
    let v : Word := (5 : Word);
    let l := s.rgw Reg.AQ_SEL_link (copyOf who);
    let st := s.rg Reg.AQ_STATUS_state l;
    let en := bit v.toNat 0;
    (Writable s who 0x400008) ∧ (l < 16) ∧ (bits v.toNat 3 3 = bits (s.readFields Reg.AQ_CTRL .pf l) 3 3) ∧ (en = true) ∧ (st = 6) ∧
    (bits v.toNat 1 2 = 2)) ∧
    (let s : State := (on 1 [(Reg.AQ_SEL_link, 0, 15), (Reg.AQ_SEL_lane, 0, 4), (Reg.AQ_STATUS_state, 15, 6)]);
    let who : Requester := (Requester.pf);
    let v : Word := (0x80000000 : Word);
    let l := s.rgw Reg.AQ_SEL_link (copyOf who);
    (Writable s who 0x400038) ∧ (l < 16) ∧ (s.rgw Reg.AQ_SEL_lane (copyOf who) < 5) ∧ (bit v.toNat 31 = true)) ∧
    (let s : State := (on 1 [(Reg.AQ_SEL_link, 0, 15), (Reg.AQ_SEL_lane, 0, 4), (Reg.AQ_STATUS_state, 15, 6), (Reg.AQ_ROUTE_ADDR_dest, 0, 4095),
        (Reg.AQ_ROUTE_ADDR_cell, 0, 1)]);
    let who : Requester := (Requester.keeper 0 0 0);
    let k := copyOf who;
    let dest := s.rgw Reg.AQ_ROUTE_ADDR_dest k;
    let cell := s.rgw Reg.AQ_ROUTE_ADDR_cell k;
    (dest < 4096) ∧ (cell < 2) ∧ (Writable s who 0x400044) ∧ (s.on Reg.TST_FLIP_arm = false)) ∧
    (let s : State := (on 1 [(Reg.AQ_SEL_link, 0, 15), (Reg.AQ_SEL_lane, 0, 4), (Reg.AQ_STATUS_state, 15, 6), (Reg.AQ_ROUTE_ADDR_dest, 0, 4095),
        (Reg.AQ_ROUTE_ADDR_cell, 0, 1)]);
    let who : Requester := (Requester.pf);
    let k := copyOf who;
    let dest := s.rgw Reg.AQ_ROUTE_ADDR_dest k;
    let cell := s.rgw Reg.AQ_ROUTE_ADDR_cell k;
    (dest < 4096) ∧ (cell < 2) ∧ (Readable s who 0x400044) ∧ (parityOk (Mem.get s.routes (2 * dest)) = true) ∧
    (parityOk (Mem.get s.routes (2 * dest + 1)) = true) ∧ (cell = 1)) := by
  refine ⟨?_, ?_, ?_, ?_, ?_, ?_, ?_, ?_, ?_, ?_, ?_, ?_, ?_, ?_⟩ <;> (dsimp only <;> decide +kernel)

/-- States and operands that meet the hypotheses of LockFlight. -/
theorem test_meets_LockFlight :
    (let s : State := (lk 3 2 2 [] { lkPart 3 with atLock := true, ready := true });
    let t : Fin 16 := 0;
    let lock : BitVec 24 := (9 : BitVec 24);
    let x := s.part t.val;
    let here := lock.toNat = s.lockNo t.val;
    let taken := here ∨ s.rg Reg.WHF_TSTAT_mode t.val = 1;
    let phase := s.rg Reg.LCK_STATUSt_phase t.val;
    (¬ taken) ∧ (¬ here) ∧ (phase ≠ 3) ∧ (x.atLock = true) ∧ (x.ready = true) ∧ ((phase = 2 ∨ phase = 3)) ∧
    ((s.weir.alarms.get t.val []).length < 64) ∧ ((∀ c ∈ s.awaited t.val, (s.route c).isSome = true))) ∧
    (let s : State := (lk 3 2 2 [] { lkPart 3 with atLock := true });
    let t : Fin 16 := 0;
    let child : Cell := (6 : Cell);
    let lock : BitVec 24 := (8 : BitVec 24);
    let x := s.part t.val;
    let here := lock.toNat = s.lockNo t.val;
    let taken := here ∨ s.rg Reg.WHF_TSTAT_mode t.val = 1;
    (taken) ∧ (s.suspended t.val = false) ∧ (child.toNat ∈ s.children t.val) ∧ (x.ready = false)) ∧
    (let s : State := (lk 3 2 2 [] { lkPart 3 with atLock := true, ready := true });
    let t : Fin 16 := 0;
    let child : Cell := (6 : Cell);
    let lock : BitVec 24 := (8 : BitVec 24);
    let d : Nat := 5;
    let x := s.part t.val;
    let here := lock.toNat = s.lockNo t.val;
    let taken := here ∨ s.rg Reg.WHF_TSTAT_mode t.val = 1;
    (taken) ∧ (ReadyAtLock s t.val) ∧ (s.children t.val = [child.toNat]) ∧ (x.arrived = []) ∧ (LeafBelow s t.val d)) ∧
    (let s : State := (lk 2 2 2 [] { lkPart 2 with atLock := true, ready := true });
    let t : Fin 16 := 0;
    let child : Cell := (6 : Cell);
    let lock : BitVec 24 := (8 : BitVec 24);
    let fail : Bool := false;
    let x := s.part t.val;
    let here := lock.toNat = s.lockNo t.val;
    (here) ∧ (ReadyAtLock s t.val) ∧ (s.children t.val = [child.toNat]) ∧ (x.arrived = []) ∧ (s.isRoot t.val = true) ∧
    ((s.route child.toNat).isSome = true) ∧ (fail = false) ∧ (x.gapWaiting = none) ∧ (Untroubled s t.val)) ∧
    (let s : State := (lk 2 2 2 [] { lkPart 2 with atLock := true, ready := true, rollbacks := 3 });
    let t : Fin 16 := 0;
    let child : Cell := (6 : Cell);
    let lock : BitVec 24 := (8 : BitVec 24);
    let fail : Bool := true;
    let x := s.part t.val;
    let here := lock.toNat = s.lockNo t.val;
    (here) ∧ (ReadyAtLock s t.val) ∧ (s.children t.val = [child.toNat]) ∧ (x.arrived = []) ∧ (s.isRoot t.val = true) ∧
    ((s.route child.toNat).isSome = true) ∧ (fail = true) ∧ (x.rollbacks < 4) ∧ (x.gapRunning = false)) ∧
    (let s : State := (lk 2 1 2 [] { lkPart 2 with atLock := true, ready := true });
    let t : Fin 16 := 0;
    let child : Cell := (6 : Cell);
    let lock : BitVec 24 := (9 : BitVec 24);
    let x := s.part t.val;
    let here := lock.toNat = s.lockNo t.val;
    let taken := here ∨ s.rg Reg.WHF_TSTAT_mode t.val = 1;
    (taken) ∧ (¬ here) ∧ (ReadyAtLock s t.val) ∧ (s.children t.val = [child.toNat]) ∧ (x.arrived = []) ∧ (s.isRoot t.val = true) ∧
    (s.loaded t.val = true) ∧ ((s.route child.toNat).isSome = true)) ∧
    (let s : State := (lk 3 2 3 [] { lkPart 3 with atLock := true, ready := true });
    let t : Fin 16 := 0;
    let lock : BitVec 24 := (8 : BitVec 24);
    let x := s.part t.val;
    let here := lock.toNat = s.lockNo t.val;
    let phase := s.rg Reg.LCK_STATUSt_phase t.val;
    (here) ∧ (phase = 3) ∧ (x.atLock = true) ∧ (x.ready = true) ∧ ((∀ c ∈ s.children t.val, (s.route c).isSome = true)) ∧
    (Untroubled s t.val)) ∧
    (let s : State := ({ (lk 2 2 2 [] { lkPart 2 with atLock := true, ready := true }) with routes := [] });
    let t : Fin 16 := 0;
    let x := s.part t.val;
    let phase := s.rg Reg.LCK_STATUSt_phase t.val;
    (x.atLock = true) ∧ (x.ready = true) ∧ ((phase = 2 ∨ phase = 3)) ∧ (s.loaded t.val = true) ∧
    ((∃ c ∈ s.awaited t.val, s.route c = none))) ∧
    (let s : State := (lk 3 2 2 [] (lkPart 3));
    let t : Fin 16 := 0;
    let x := s.part t.val;
    (x.atLock = false)) := by
  refine ⟨?_, ?_, ?_, ?_, ?_, ?_, ?_, ?_, ?_⟩ <;>
    (dsimp only <;> and_intros <;> first
      | decide +kernel
      | (constructor <;> decide +kernel))

/-- States and operands that meet the hypotheses of LockCapture. -/
theorem test_meets_LockCapture :
    (let s : State := (lk 1 2 2 solo { lkPart 1 with atLock := true, ready := true });
    let t : Fin 16 := 0;
    (s.mayCapture t.val = false)) ∧
    (let s : State := (lk 1 2 1 solo { lkPart 1 with atLock := true });
    let t : Fin 16 := 0;
    let failsC : Nat := 2;
    let failsK : Nat := 1;
    let d : Nat := 5;
    let x := s.part t.val;
    let slot := ({ x with ckpts := x.ckpts.filter fun k => k.committed } : Part).freeSlot;
    let rc := if failsC = 1 then s.renewSegment t.val slot 0 else (true, s);
    let rk := if failsK = 1 then rc.2.renewSegment t.val slot 1 else (true, s);
    (s.mayCapture t.val = true) ∧ (NoHooks s t.val) ∧ (x.arrived = []) ∧ (x.ready = false) ∧ (x.captureFail = false) ∧
    (x.holdReq = none) ∧ (s.outputsGone t.val = true) ∧ (s.suspended t.val = false) ∧ (s.pmode t.val ≠ 1) ∧
    ((∀ r ∈ x.bound, (s.rch r).wb = [] ∧ (s.rch r).following = false)) ∧ ((∀ c ∈ s.clustersOf t.val, (s.clu c).inflight = [] ∧
    (s.clu c).reads = [])) ∧ (s.captureBad t.val = none) ∧ (s.on Reg.TST_FLIP_arm = false) ∧
    (rc.1 = true) ∧ (rk.1 = true) ∧ (LeafBelow s t.val d) ∧ (s.children t.val = [])) ∧
    (let s : State := (lk 0 2 1 solo { lkPart 0 with atLock := true });
    let t : Fin 16 := 0;
    let failsC : Nat := 1;
    let failsK : Nat := 1;
    let x := s.part t.val;
    let slot := ({ x with ckpts := x.ckpts.filter fun k => k.committed } : Part).freeSlot;
    let rc := if failsC = 1 then s.renewSegment t.val slot 0 else (true, s);
    let rk := if failsK = 1 then rc.2.renewSegment t.val slot 1 else (true, s);
    (s.mayCapture t.val = true) ∧ (NoHooks s t.val) ∧ (x.arrived = []) ∧ (x.ready = false) ∧ (x.captureFail = false) ∧
    (x.holdReq = none) ∧ (s.outputsGone t.val = true) ∧ (s.suspended t.val = false) ∧ (s.pmode t.val ≠ 1) ∧
    ((∀ r ∈ x.bound, (s.rch r).wb = [] ∧ (s.rch r).following = false)) ∧ ((∀ c ∈ s.clustersOf t.val, (s.clu c).inflight = [] ∧
    (s.clu c).reads = [])) ∧ (s.captureBad t.val = none) ∧ (s.on Reg.TST_FLIP_arm = false) ∧
    (rc.1 = true) ∧ (rk.1 = true) ∧ (Alone s t.val) ∧ (¬ (2 ≤ failsC ∨ 2 ≤ failsK)) ∧ (x.gapWaiting = none) ∧
    (Untroubled s t.val)) := by
  refine ⟨?_, ?_, ?_⟩ <;> (dsimp only <;> and_intros <;> first | decide +kernel | (constructor <;> decide +kernel))

/-- States and operands that meet the hypotheses of RollbackAndRestore. -/
theorem test_meets_RollbackAndRestore :
    (let s : State := (lk 1 2 2 [] (lkPart 1));
    let t : Fin 16 := 0;
    let target : BitVec 24 := (7 : BitVec 24);
    let epoch : BitVec 2 := (0 : BitVec 2);
    let x := s.part t.val;
    let own := s.rg Reg.LCK_STATUSt_epoch t.val;
    let live := s.loaded t.val = true ∧ s.suspended t.val = false ∧ s.rg Reg.WHF_TSTAT_mode t.val ≠ 1;
    let routed := ∀ c ∈ s.children t.val, (s.route c).isSome = true;
    (s.rootHere t.val = false) ∧ (x.gapRunning = false) ∧ (live) ∧ (x.atLock = false) ∧ (routed) ∧ (¬ (target.toNat = x.target ∧
    epoch.toNat = own)) ∧ (s.rg Reg.LCK_STATUSt_phase t.val ≠ 4)) ∧
    (let s : State := (lk 2 2 2 [] (lkPart 2));
    let t : Fin 16 := 0;
    let epoch : BitVec 2 := (3 : BitVec 2);
    let own := s.rg Reg.LCK_STATUSt_epoch t.val;
    let live := s.loaded t.val = true ∧ s.suspended t.val = false ∧ s.rg Reg.WHF_TSTAT_mode t.val ≠ 1;
    (s.rootHere t.val = true) ∧ (live) ∧ (epoch.toNat ≠ own)) ∧
    (let s : State := (lk 2 2 2 [] { lkPart 2 with rollbacks := 3, gapRunning := true });
    let t : Fin 16 := 0;
    let epoch : BitVec 2 := (0 : BitVec 2);
    let x := s.part t.val;
    let own := s.rg Reg.LCK_STATUSt_epoch t.val;
    let live := s.loaded t.val = true ∧ s.suspended t.val = false ∧ s.rg Reg.WHF_TSTAT_mode t.val ≠ 1;
    let routed := ∀ c ∈ s.children t.val, (s.route c).isSome = true;
    (s.rootHere t.val = true) ∧ (live) ∧ (epoch.toNat = own) ∧ (routed) ∧ (x.rollbacks < 4) ∧ (x.gapRunning = true) ∧
    (x.gapWaiting = none)) ∧
    (let s : State := (lk 2 2 2 [] { lkPart 2 with rollbacks := 3 });
    let t : Fin 16 := 0;
    let epoch : BitVec 2 := (0 : BitVec 2);
    let x := s.part t.val;
    let own := s.rg Reg.LCK_STATUSt_epoch t.val;
    let live := s.loaded t.val = true ∧ s.suspended t.val = false ∧ s.rg Reg.WHF_TSTAT_mode t.val ≠ 1;
    let routed := ∀ c ∈ s.children t.val, (s.route c).isSome = true;
    (s.rootHere t.val = true) ∧ (live) ∧ (epoch.toNat = own) ∧ (routed) ∧ (x.rollbacks < 4) ∧ (x.gapRunning = false)) ∧
    (let s : State := (lk 2 2 2 [] { lkPart 2 with rollbacks := 4 });
    let t : Fin 16 := 0;
    let epoch : BitVec 2 := (0 : BitVec 2);
    let x := s.part t.val;
    let own := s.rg Reg.LCK_STATUSt_epoch t.val;
    let live := s.loaded t.val = true ∧ s.suspended t.val = false ∧ s.rg Reg.WHF_TSTAT_mode t.val ≠ 1;
    let routed := ∀ c ∈ s.children t.val, (s.route c).isSome = true;
    (s.rootHere t.val = true) ∧ (live) ∧ (epoch.toNat = own) ∧ (routed) ∧ (4 ≤ x.rollbacks)) ∧
    (let s : State := (lk 2 2 2 [] { lkPart 2 with rollbacks := 3, gapRunning := true, gapWaiting := some (6, true, none) });
    let t : Fin 16 := 0;
    let x := s.part t.val;
    let live := s.loaded t.val = true ∧ s.suspended t.val = false ∧ s.rg Reg.WHF_TSTAT_mode t.val ≠ 1;
    let routed := ∀ c ∈ s.children t.val, (s.route c).isSome = true;
    let w := ((6 : Nat), true, (none : Option (Nat × Nat × Bool)));
    (w ∈ x.gapWaiting) ∧ (x.gapRunning = true) ∧ (live) ∧ (x.rollbacks < 4) ∧ (routed)) ∧
    (let s : State := (lk 1 7 2 [] (lkPart 1));
    let t : Fin 16 := 0;
    (s.loaded t.val = true) ∧ (s.suspended t.val = true) ∧ (s.children t.val = [])) ∧
    (let s : State := (lk 3 2 2 [] { lkPart 3 with atLock := true, ready := true });
    let t : Fin 16 := 0;
    let target : BitVec 24 := (8 : BitVec 24);
    let x := s.part t.val;
    let live := s.loaded t.val = true ∧ s.suspended t.val = false ∧ s.rg Reg.WHF_TSTAT_mode t.val ≠ 1;
    let routed := ∀ c ∈ s.children t.val, (s.route c).isSome = true;
    (live) ∧ (x.atLock = true) ∧ (x.ready = true) ∧ (s.lockNo t.val = target.toNat) ∧ (s.slotOf t.val target.toNat = none) ∧
    (Untroubled s t.val) ∧ (routed)) ∧
    (let s : State := (lk 3 2 5 [] { lkPart 3 with restoreDone := true, target := 7 });
    let t : Fin 16 := 0;
    let target : BitVec 24 := (7 : BitVec 24);
    let epoch : BitVec 2 := (0 : BitVec 2);
    let child : Cell := (6 : Cell);
    let d : Nat := 5;
    let x := s.part t.val;
    let own := s.rg Reg.LCK_STATUSt_epoch t.val;
    let phase := s.rg Reg.LCK_STATUSt_phase t.val;
    let routed := ∀ c ∈ s.children t.val, (s.route c).isSome = true;
    let last := target.toNat = x.target ∧ epoch.toNat = own ∧ phase = 5 ∧ s.children t.val = [child.toNat] ∧ x.restored = [] ∧
      x.restoreDone = true ∧ x.restoreFlags = 0 ∧ (s.route child.toNat).isSome = true ∧ x.gapWaiting = none;
    (last) ∧ (LeafBelow s t.val d) ∧ (target.toNat = x.target) ∧ (epoch.toNat = own) ∧ (phase = 5) ∧ (x.holdReq = none) ∧
    ((x.ports.filter fun p => p.isInput && p.flagged) = []) ∧ (routed)) ∧
    (let s : State := (lk 2 2 5 [] { lkPart 2 with restoreDone := true, target := 7 });
    let t : Fin 16 := 0;
    let target : BitVec 24 := (7 : BitVec 24);
    let epoch : BitVec 2 := (0 : BitVec 2);
    let unusable : Bool := false;
    let early : Bool := false;
    let child : Cell := (6 : Cell);
    let x := s.part t.val;
    let own := s.rg Reg.LCK_STATUSt_epoch t.val;
    let phase := s.rg Reg.LCK_STATUSt_phase t.val;
    let last := target.toNat = x.target ∧ epoch.toNat = own ∧ phase = 5 ∧ s.children t.val = [child.toNat] ∧ x.restored = [] ∧
      x.restoreDone = true ∧ x.restoreFlags = 0 ∧ (s.route child.toNat).isSome = true ∧ x.gapWaiting = none;
    (last) ∧ (s.isRoot t.val = true) ∧ (s.suspended t.val = false) ∧ (unusable = false) ∧ (early = false) ∧ (x.holdReq = none) ∧
    ((x.ports.filter fun p => p.isInput && p.flagged) = [])) ∧
    (let s : State := (lk 2 2 5 [] { lkPart 2 with restoreDone := true, target := 7 });
    let t : Fin 16 := 0;
    let target : BitVec 24 := (7 : BitVec 24);
    let epoch : BitVec 2 := (0 : BitVec 2);
    let unusable : Bool := false;
    let early : Bool := true;
    let child : Cell := (6 : Cell);
    let x := s.part t.val;
    let own := s.rg Reg.LCK_STATUSt_epoch t.val;
    let phase := s.rg Reg.LCK_STATUSt_phase t.val;
    let last := target.toNat = x.target ∧ epoch.toNat = own ∧ phase = 5 ∧ s.children t.val = [child.toNat] ∧ x.restored = [] ∧
      x.restoreDone = true ∧ x.restoreFlags = 0 ∧ (s.route child.toNat).isSome = true ∧ x.gapWaiting = none;
    (last) ∧ (s.isRoot t.val = true) ∧ (s.suspended t.val = false) ∧ (unusable = false) ∧ (early = true)) ∧
    (let s : State := (lk 2 2 5 [] { lkPart 2 with restoreDone := true, target := 7, rollbacks := 3, ckpts := [⟨6, true, false, false, false, 0, [], [], [], [], [], 0⟩] });
    let t : Fin 16 := 0;
    let target : BitVec 24 := (7 : BitVec 24);
    let epoch : BitVec 2 := (0 : BitVec 2);
    let unusable : Bool := true;
    let olderUnusable : Bool := false;
    let child : Cell := (6 : Cell);
    let x := s.part t.val;
    let own := s.rg Reg.LCK_STATUSt_epoch t.val;
    let phase := s.rg Reg.LCK_STATUSt_phase t.val;
    let last := target.toNat = x.target ∧ epoch.toNat = own ∧ phase = 5 ∧ s.children t.val = [child.toNat] ∧ x.restored = [] ∧
      x.restoreDone = true ∧ x.restoreFlags = 0 ∧ (s.route child.toNat).isSome = true ∧ x.gapWaiting = none;
    (last) ∧ (s.isRoot t.val = true) ∧ (s.suspended t.val = false) ∧ (unusable = true) ∧ (x.rollbacks < 4) ∧ (x.gapRunning = false) ∧
    (let lower := (x.target + 2 ^ 24 - 1) % 2 ^ 24;
    ((s.slotOf t.val lower).isSome = true ∧ olderUnusable = false))) ∧
    (let s : State := (lk 2 2 5 [] { lkPart 2 with restoreDone := true, target := 7, rollbacks := 3 });
    let t : Fin 16 := 0;
    let target : BitVec 24 := (7 : BitVec 24);
    let epoch : BitVec 2 := (0 : BitVec 2);
    let unusable : Bool := true;
    let olderUnusable : Bool := true;
    let child : Cell := (6 : Cell);
    let x := s.part t.val;
    let own := s.rg Reg.LCK_STATUSt_epoch t.val;
    let phase := s.rg Reg.LCK_STATUSt_phase t.val;
    let last := target.toNat = x.target ∧ epoch.toNat = own ∧ phase = 5 ∧ s.children t.val = [child.toNat] ∧ x.restored = [] ∧
      x.restoreDone = true ∧ x.restoreFlags = 0 ∧ (s.route child.toNat).isSome = true ∧ x.gapWaiting = none;
    (last) ∧ (s.isRoot t.val = true) ∧ (s.suspended t.val = false) ∧ (unusable = true) ∧ (x.rollbacks < 4) ∧ (x.gapRunning = false) ∧
    (let lower := (x.target + 2 ^ 24 - 1) % 2 ^ 24;
    (¬ ((s.slotOf t.val lower).isSome = true ∧ olderUnusable = false)))) ∧
    (let s : State := (lk 1 2 4 [] { lkPart 1 with target := 7 });
    let t : Fin 16 := 0;
    let d : Nat := 5;
    let x := s.part t.val;
    (s.rg Reg.LCK_STATUSt_phase t.val = 4) ∧ (x.restoreDone = false) ∧ (x.hooksOpen = []) ∧ (x.restoreFlags = 0) ∧ (NoHooks s t.val) ∧
    (LeafBelow s t.val d) ∧ (s.children t.val = []) ∧ (x.gapWaiting = none) ∧ (x.restored = []) ∧ (s.usable t.val x.target = false)) ∧
    (let s : State := (lk 1 2 4 [] { lkPart 1 with target := 7, ckpts := [⟨7, true, false, false, false, 0, [], [], [], [], [], 0⟩] });
    let t : Fin 16 := 0;
    let d : Nat := 5;
    let x := s.part t.val;
    (s.rg Reg.LCK_STATUSt_phase t.val = 4) ∧ (x.restoreDone = false) ∧ (x.hooksOpen = []) ∧ (x.restoreFlags = 0) ∧ (NoHooks s t.val) ∧
    (LeafBelow s t.val d) ∧ (s.children t.val = []) ∧ (x.gapWaiting = none) ∧ (x.restored = []) ∧ (s.usable t.val x.target = true) ∧
    (Untroubled s t.val)) := by
  refine ⟨?_, ?_, ?_, ?_, ?_, ?_, ?_, ?_, ?_, ?_, ?_, ?_, ?_, ?_, ?_⟩ <;>
    (dsimp only <;> and_intros <;> first
      | decide +kernel
      | (constructor <;> decide +kernel))

/-- States and operands that meet the hypotheses of CaptureRestoreRoundTrip. -/
theorem test_meets_CaptureRestoreRoundTrip :
    (let s0 : State := ({ (lk 0 2 2 [] { lkPart 0 with marks := [(0, 1)] }) with clusters := [(0, { vm := [(0, store 7)], rf := [(93, store 5)] })] });
    let s : State := (lk 0 2 2 [] { lkPart 0 with marks := [(0, 1)] });
    let t : Fin 16 := 0;
    ((s.part t.val).bound.Nodup) ∧ (s0.positionsOf t.val = s.positionsOf t.val) ∧ ((s0.part t.val).marks = (s.part t.val).marks) ∧
    ((∀ r ∈ (s.part t.val).bound, r < 24)) ∧ (s.on Reg.TST_FLIP_arm = false)) := by
  dsimp only <;> decide +kernel

/-- States and operands that meet the hypotheses of SuspensionAndLockCommands. -/
theorem test_meets_SuspensionAndLockCommands :
    (let s : State := (on 1 []);
    let t : Fin 16 := 0;
    (s.loaded t.val = false) ∧ ((∀ p < 16, s.loaded p = false))) ∧
    (let s : State := (lk 3 2 2 [] (lkPart 3));
    let t : Fin 16 := 0;
    let epoch : BitVec 2 := (3 : BitVec 2);
    let x := s.part t.val;
    let own := s.rg Reg.LCK_STATUSt_epoch t.val;
    let live := s.loaded t.val = true ∧ s.suspended t.val = false;
    (live) ∧ (epoch.toNat ≠ own) ∧
    (let r : Nat := 0;
    (s.loaded t.val = true) ∧ (x.bound = [r]) ∧ (x.exporting = none))) ∧
    (let s : State := (lk 0 7 2 [] (lkPart 0));
    let t : Fin 16 := 0;
    (s.loaded t.val = true) ∧ (s.suspended t.val = true) ∧ (s.children t.val = [])) ∧
    (let s : State := (lk 2 7 2 [] (lkPart 2));
    let t : Fin 16 := 0;
    let c := 6;
    (c ∈ s.children t.val) ∧ (s.loaded t.val = true) ∧ (s.suspended t.val = true) ∧ (s.children t.val = [c])) ∧
    (let s : State := (lk 3 2 2 [] (lkPart 3));
    let t : Fin 16 := 0;
    let epoch : BitVec 2 := (0 : BitVec 2);
    let own := s.rg Reg.LCK_STATUSt_epoch t.val;
    let live := s.loaded t.val = true ∧ s.suspended t.val = false;
    let routed := ∀ c ∈ s.children t.val, (s.route c).isSome = true;
    (live) ∧ (epoch.toNat = own) ∧ (routed)) ∧
    (let s : State := (lk 2 2 2 [] (lkPart 2));
    let t : Fin 16 := 0;
    let epoch : BitVec 2 := (0 : BitVec 2);
    let own := s.rg Reg.LCK_STATUSt_epoch t.val;
    let live := s.loaded t.val = true ∧ s.suspended t.val = false;
    let routed := ∀ c ∈ s.children t.val, (s.route c).isSome = true;
    (live) ∧ (epoch.toNat = own) ∧ (s.rootHere t.val = true) ∧ (routed)) ∧
    (let s : State := (lk 2 2 2 [] (lkPart 2));
    let t : Fin 16 := 0;
    let who : Requester := (Requester.keeper 0 0 0);
    let x := s.part t.val;
    let live := s.loaded t.val = true ∧ s.suspended t.val = false;
    let routed := ∀ c ∈ s.children t.val, (s.route c).isSome = true;
    (live) ∧ (s.rootHere t.val = true) ∧ (routed) ∧ (Writable s who (0x500124 + 0x40 * t.val)) ∧
    (let mode := s.rg Reg.WHF_TSTAT_mode t.val;
    let from_ := s.rg Reg.LCK_RPL_FROMt_lock t.val;
    let able := Writable s who (0x500124 + 0x40 * t.val) ∧ s.loaded t.val = true ∧ s.suspended t.val = false ∧ routed;
    (able) ∧ (mode ≠ 1) ∧ (x.rollbacks < 4) ∧ (x.gapRunning = false) ∧ ((s.slotOf t.val from_) = none ∨ s.stopOk t.val = false))) ∧
    (let s : State := (lk 3 2 2 [] (lkPart 3));
    let t : Fin 16 := 0;
    let who : Requester := (Requester.keeper 0 0 0);
    let d : Nat := 15;
    let x := s.part t.val;
    let live := s.loaded t.val = true ∧ s.suspended t.val = false;
    let routed := ∀ c ∈ s.children t.val, (s.route c).isSome = true;
    (live) ∧ (s.rootHere t.val = false) ∧ (s.route x.rootDev = some d) ∧ (Writable s who (0x500124 + 0x40 * t.val)) ∧
    (let able := Writable s who (0x500124 + 0x40 * t.val) ∧ s.loaded t.val = true ∧ s.suspended t.val = false ∧ routed;
    (able))) ∧
    (let s : State := (lk 0 2 2 [] { lkPart 0 with undoFree := [(1, 5)] });
    let t : Fin 16 := 0;
    let stack : Fin 2 := 1;
    let x := s.part t.val;
    let live := s.loaded t.val = true ∧ s.suspended t.val = false;
    ((∀ p < 16, s.loaded p = true → p = t.val)) ∧ (live) ∧
    (((x.regions.any fun g => decide (g.stack = stack.val)) = true ∨ (x.undoFree.any fun u => decide (u.1 = stack.val)) = true ∨ (x.undoNow ++ x.ckpts.flatMap (·.segU)).any (fun u => decide (u.stack = stack.val)) = true ∨ (x.slots.any fun v => (v.desc :: (v.data ++ v.lists).flatten).any fun b => decide (b / 32768 = stack.val)) = true))) ∧
    (let s : State := (lk 2 2 2 [(Reg.LCK_RPL_FROMt_lock, 0, 7),
        (Reg.LCK_RPL_POUNDt_pound, 0, 8)] { lkPart 2 with rollbacks := 3, ckpts := [⟨7, true, false, false, false, 0, [], [], [], [], [], 0⟩] });
    let t : Fin 16 := 0;
    let who : Requester := (Requester.keeper 0 0 0);
    let x := s.part t.val;
    let mode := s.rg Reg.WHF_TSTAT_mode t.val;
    let from_ := s.rg Reg.LCK_RPL_FROMt_lock t.val;
    let routed := ∀ c ∈ s.children t.val, (s.route c).isSome = true;
    let able := Writable s who (0x500124 + 0x40 * t.val) ∧ s.loaded t.val = true ∧ s.suspended t.val = false ∧ routed;
    (able) ∧ (s.rootHere t.val = true) ∧ (mode ≠ 1) ∧ (x.rollbacks < 4) ∧ (x.gapRunning = false) ∧ ((mode = 2 ∨ mode = 3)) ∧
    ((s.slotOf t.val from_).isSome = true) ∧ (s.stopOk t.val = true)) ∧
    (let s : State := (lk 2 6 2 [(Reg.LCK_RPL_POUNDt_pound, 0, 8)] (lkPart 2));
    let t : Fin 16 := 0;
    let who : Requester := (Requester.keeper 0 0 0);
    let mode := s.rg Reg.WHF_TSTAT_mode t.val;
    let routed := ∀ c ∈ s.children t.val, (s.route c).isSome = true;
    let able := Writable s who (0x500124 + 0x40 * t.val) ∧ s.loaded t.val = true ∧ s.suspended t.val = false ∧ routed;
    (able) ∧ (s.rootHere t.val = true) ∧ (mode = 6) ∧ (s.rg Reg.LCK_STATUSt_phase t.val ≠ 4) ∧ (s.rg Reg.LCK_STATUSt_phase t.val ≠ 5) ∧
    (s.stopOk t.val = true)) ∧
    (let s : State := (lk 2 6 2 [(Reg.LCK_RPL_POUNDt_pound, 0, 9), (Reg.LCK_RPL_DCt_none, 0, 0)] (lkPart 2));
    let t : Fin 16 := 0;
    let who : Requester := (Requester.keeper 0 0 0);
    let mode := s.rg Reg.WHF_TSTAT_mode t.val;
    let routed := ∀ c ∈ s.children t.val, (s.route c).isSome = true;
    let able := Writable s who (0x500124 + 0x40 * t.val) ∧ s.loaded t.val = true ∧ s.suspended t.val = false ∧ routed;
    (able) ∧ (s.rootHere t.val = true) ∧ (mode = 6) ∧ (s.rg Reg.LCK_STATUSt_phase t.val ≠ 4) ∧ (s.rg Reg.LCK_STATUSt_phase t.val ≠ 5) ∧
    (s.stopOk t.val = false)) ∧
    (let s : State := (lk 2 6 4 [(Reg.LCK_RPL_POUNDt_pound, 0, 8)] (lkPart 2));
    let t : Fin 16 := 0;
    let who : Requester := (Requester.keeper 0 0 0);
    let mode := s.rg Reg.WHF_TSTAT_mode t.val;
    let routed := ∀ c ∈ s.children t.val, (s.route c).isSome = true;
    let able := Writable s who (0x500124 + 0x40 * t.val) ∧ s.loaded t.val = true ∧ s.suspended t.val = false ∧ routed;
    (able) ∧ (s.rootHere t.val = true) ∧ (mode = 6) ∧ ((s.rg Reg.LCK_STATUSt_phase t.val = 4 ∨ s.rg Reg.LCK_STATUSt_phase t.val = 5))) ∧
    (let s : State := (lk 2 5 2 [(Reg.LCK_RPL_POUNDt_pound, 0, 8)] (lkPart 2));
    let t : Fin 16 := 0;
    let who : Requester := (Requester.keeper 0 0 0);
    let mode := s.rg Reg.WHF_TSTAT_mode t.val;
    let routed := ∀ c ∈ s.children t.val, (s.route c).isSome = true;
    let able := Writable s who (0x500124 + 0x40 * t.val) ∧ s.loaded t.val = true ∧ s.suspended t.val = false ∧ routed;
    (able) ∧ (s.rootHere t.val = true) ∧ (mode = 5) ∧ (s.stopOk t.val = true)) ∧
    (let s : State := (lk 2 5 2 [(Reg.LCK_RPL_POUNDt_pound, 0, 9), (Reg.LCK_RPL_DCt_none, 0, 0)] (lkPart 2));
    let t : Fin 16 := 0;
    let who : Requester := (Requester.keeper 0 0 0);
    let mode := s.rg Reg.WHF_TSTAT_mode t.val;
    let routed := ∀ c ∈ s.children t.val, (s.route c).isSome = true;
    let able := Writable s who (0x500124 + 0x40 * t.val) ∧ s.loaded t.val = true ∧ s.suspended t.val = false ∧ routed;
    (able) ∧ (s.rootHere t.val = true) ∧ (mode = 5) ∧ (s.stopOk t.val = false)) ∧
    (let s : State := ({ (lk 1 2 2 [] { lkPart 1 with bridge := [(4095, [(5, true)])] }) with reaches := [(0, { nsm := [(12286, store 0x400), (12287, store 1)] })] });
    let t : Fin 16 := 0;
    let r : Nat := 0;
    let tag : Cell := (0xFFF : Cell);
    let epoch : BitVec 2 := (0 : BitVec 2);
    let x := s.part t.val;
    let own := s.rg Reg.LCK_STATUSt_epoch t.val;
    (s.loaded t.val = true) ∧ (x.bound = [r]) ∧
    (let e := entryNat (entryCells (s.rch r).nsm (3 * tag.toNat) 3);
    let l := 15;
    (l ∈ s.route (bits e 22 12)) ∧ (epoch.toNat = own) ∧ (entryOk (entryCells (s.rch r).nsm (3 * tag.toNat) 3) = true) ∧
    (bits e 22 12 ≠ s.rg Reg.AQ_DEVID_devid) ∧ (s.mode ≠ 3))) ∧
    (let s : State := (lk 0 2 2 [] { lkPart 0 with exporting := some ⟨7, true, false, false, false, 0, [], [], [], [], [], 0⟩, ckpts := [⟨7, true, false, false, false, 0, [], [], [], [], [], 0⟩] });
    let t : Fin 16 := 0;
    let x := s.part t.val;
    let k := (⟨7, true, false, false, false, 0, [], [], [], [], [], 0⟩ : Ckpt);
    (k ∈ x.exporting) ∧ (x.undoPinned = []) ∧ (s.on Reg.WHF_QCFG_enable (8 * t.val + 4) = false)) ∧
    (let s : State := ({ (lk 0 2 2 [(Reg.WHF_QCFG_enable, 4, 1), (Reg.WHF_QCFG_size_log2, 4, 4)] { lkPart 0 with exporting := some ⟨7, true, false, false, false, 0, [], [], [], [], [], 0⟩, ckpts := [⟨7, true, false, false, false, 0, [], [], [], [], [], 0⟩] }) with queues := [(4, { bound := true })] });
    let t : Fin 16 := 0;
    let x := s.part t.val;
    let k := (⟨7, true, false, false, false, 0, [], [], [], [], [], 0⟩ : Ckpt);
    (k ∈ x.exporting) ∧ (x.undoPinned = []) ∧
    (let l := s.exportStream t.val k (x.exportD.getD (s.segD t.val));
    (s.on Reg.WHF_QCFG_enable (8 * t.val + 4) = true) ∧ ((s.queue (8 * t.val + 4)).bound = true) ∧ ((s.fn t.val).d3hot = false) ∧
    (s.qused t.val 4 = 0) ∧ ((l.length + 4095) / 4096 < s.qlen (8 * t.val + 4)))) := by
  refine ⟨?_, ?_, ?_, ?_, ?_, ?_, ?_, ?_, ?_, ?_, ?_, ?_, ?_, ?_, ?_, ?_, ?_, ?_⟩ <;>
    (dsimp only <;> and_intros <;> first
      | decide +kernel
      | (constructor <;> decide +kernel))

/-- States and operands that meet the hypotheses of InterruptController. -/
theorem test_meets_InterruptController :
    (let s : State := (on 1 [(Reg.KPR_TMRk_run, 7, 1)]);
    let k : Fin 4 := 3;
    let n : BitVec 9 := (255 : BitVec 9);
    let who : Requester := (Requester.pf);
    let v : Word := (0x800000FF : Word);
    let timer : Fin 2 := 1;
    let input : Fin 2 := 1;
    let t0 := 2 * k.val + timer.val;
    let low := if input.val = 0 then s.power.alert0 else s.power.alert1;
    (claimedSource n.toNat) ∧ (n.toNat < 424) ∧ (Writable s who 0x8000F0) ∧ (bit v.toNat 31 = true) ∧ (Writable s who 0x8000F4) ∧
    (ringOf who ≤ 1) ∧ (192 ≤ bits v.toNat 0 8) ∧ (s.on Reg.KPR_TMRk_run t0 = true) ∧ (low = false) ∧ (s.mode ≠ 5)) ∧
    (let s : State := (on 1 []);
    let k : Fin 4 := 3;
    let n : BitVec 9 := (135 : BitVec 9);
    let who : Requester := (Requester.pf);
    let v : Word := (0x800000BF : Word);
    let timer : Fin 2 := 1;
    let t0 := 2 * k.val + timer.val;
    (¬ claimedSource n.toNat) ∧ (Writable s who 0x8000F4) ∧ (ringOf who ≤ 1) ∧ ((bit v.toNat 31 = false ∨ bits v.toNat 0 8 < 192)) ∧
    (s.on Reg.KPR_TMRk_run t0 = false)) ∧
    (let n : BitVec 9 := (424 : BitVec 9);
    (424 ≤ n.toNat)) ∧
    (let s : State := (on 1 []);
    let who : Requester := (Requester.pf);
    let v : Word := (0x7FFFFFFF : Word);
    (Writable s who 0x8000F0) ∧ (bit v.toNat 31 = false)) ∧
    (let s : State := (on 1 []);
    let who : Requester := (Requester.keeper 3 1 0);
    let k : Fin 4 := 3;
    let v : Word := (255 : Word);
    let m := bits v.toNat 0 8;
    let q := placeOf k.val m;
    let y := s.src q;
    (Readable s who (0x800010 + 4 * k.val)) ∧ (s.keeperOf who = some k.val) ∧ (ringOf who ≤ 1) ∧ (s.candidatesFor k.val = []) ∧
    (Writable s who (0x800030 + 4 * k.val)) ∧ (¬ (y.active = true ∧ y.claimer = k.val))) ∧
    (let s : State := ({ (on 1 []) with irq := [(255, { en := true, pending := true, count := 15, prio := 15, target := 3 })] });
    let who : Requester := (Requester.keeper 3 1 0);
    let k : Fin 4 := 3;
    let n : Nat := 255;
    let p : Nat := 255;
    (Readable s who (0x800010 + 4 * k.val)) ∧ (s.keeperOf who = some k.val) ∧ (ringOf who ≤ 1) ∧ (Wins s k.val n p)) ∧
    (let s : State := (on 1 [(Reg.KPR_TMRk_run, 7, 1)]);
    let who : Requester := (Requester.pf);
    let k : Fin 4 := 3;
    (Readable s who (0x800010 + 4 * k.val)) ∧ (¬ (s.keeperOf who = some k.val ∧ ringOf who ≤ 1)) ∧ (Readable s .pf 0x800020) ∧
    (s.candidatesFor 5 = [])) ∧
    (let s : State := ({ (on 1 []) with irq := [(255, { en := true, pending := true, count := 15, prio := 15, target := 5 })] });
    let n : Nat := 255;
    let p : Nat := 255;
    (Readable s .pf 0x800020) ∧ (Wins s 5 n p)) ∧
    (let s : State := ({ (on 1 []) with irq := [(255, { active := true, claimer := 3 })] });
    let who : Requester := (Requester.keeper 3 1 0);
    let k : Fin 4 := 3;
    let v : Word := (255 : Word);
    let m := bits v.toNat 0 8;
    let q := placeOf k.val m;
    let y := s.src q;
    let high := (m = 130 ∧ s.power.alert0 = true) ∨ (m = 131 ∧ s.power.alert1 = true);
    (Writable s who (0x800030 + 4 * k.val)) ∧ (s.keeperOf who = some k.val) ∧ (y.active = true) ∧ (y.claimer = k.val) ∧ (¬ high)) ∧
    (let s : State := ({ ({ (on 1 []) with irq := [(131, { active := true, claimer := 3 })] }) with power := { State.reset.power with alert1 := true } });
    let who : Requester := (Requester.keeper 3 1 0);
    let k : Fin 4 := 3;
    let v : Word := (131 : Word);
    let m := bits v.toNat 0 8;
    let q := placeOf k.val m;
    let y := s.src q;
    let high := (m = 130 ∧ s.power.alert0 = true) ∨ (m = 131 ∧ s.power.alert1 = true);
    (Writable s who (0x800030 + 4 * k.val)) ∧ (s.keeperOf who = some k.val) ∧ (y.active = true) ∧ (y.claimer = k.val) ∧ (high)) ∧
    (let s : State := ({ (on 1 [(Reg.IRQ_SRC_SEL_scanned, 0, 1), (Reg.IRQ_SRC_SEL_source, 0, 423)]) with irq := [(2471, { latch := 1, pending := true, count := 1 })] });
    let who : Requester := (Requester.pf);
    (Writable s who 0x800008) ∧ (s.rgw Reg.IRQ_SRC_SEL_scanned (copyOf who) = 1) ∧ (s.rgw Reg.IRQ_SRC_SEL_source (copyOf who) < 424)) ∧
    (let s : State := (on 1 [(Reg.KPR_TMRk_run, 7, 1)]);
    let who : Requester := (Requester.pf);
    let k := copyOf who;
    let n := s.rgw Reg.IRQ_SRC_SEL_source k;
    let scanned := decide (s.rgw Reg.IRQ_SRC_SEL_scanned k = 1);
    (Writable s who 0x800004) ∧ ((who = .pf ∨ s.isSystem who = true)) ∧ ((scanned = true → n < 424)) ∧
    ((scanned = false → claimedSource n))) ∧
    (let s : State := (on 1 [(Reg.IRQ_PTGT_lock, 0, 1)]);
    let who : Requester := (Requester.keeper 0 0 0);
    (Writable s who 0x8000F8) ∧ (s.on Reg.IRQ_PTGT_lock = true)) ∧
    (let s : State := (on 1 []);
    let who : Requester := (Requester.keeper 0 0 0);
    (Writable s who 0x8000F8) ∧ (s.on Reg.IRQ_PTGT_lock = false) ∧ (s.isKeeper0 who = true) ∧ (ringOf who = 0)) := by
  refine ⟨?_, ?_, ?_, ?_, ?_, ?_, ?_, ?_, ?_, ?_, ?_, ?_, ?_, ?_⟩ <;> (dsimp only <;> decide +kernel)

/-- States and operands that meet the hypotheses of FaultAccounting. -/
theorem test_meets_FaultAccounting :
    (let s : State := (on 1 [(Reg.TST_BKT_CTRL_leak, 0, 0)]);
    let who : Requester := (Requester.pf);
    let e : Trouble := (⟨5, none, false⟩ : Trouble);
    let p : Nat := 15;
    let seen := (s.part p).errSeen;
    (s.rg Reg.TST_BKT_CTRL_leak = 0) ∧ (Readable s who 0x600018) ∧ (s.tst.elog = []) ∧ (Writable s who 0x600004) ∧
    (s.rg Reg.SEC_LC_state ≠ 2) ∧ (e.record ∉ seen)) ∧
    (let s : State := (on 1 [(Reg.TST_BKT_CTRL_leak, 0, 1)]);
    (s.rg Reg.TST_BKT_CTRL_leak ≠ 0)) ∧
    (let s : State := ({ (on 1 []) with tst := { elog := [⟨true, 2, 9, 407, 5⟩] } });
    let who : Requester := (Requester.pf);
    (Readable s who 0x600018) ∧
    (let e := (⟨true, 2, 9, 407, 5⟩ : ElogEntry);
    (e ∈ s.tst.elog.head?))) ∧
    (let s : State := (on 1 [(Reg.SEC_LC_state, 0, 2)]);
    let who : Requester := (Requester.pf);
    (Writable s who 0x600004) ∧ (s.rg Reg.SEC_LC_state = 2)) ∧
    (let s : State := (on 1 [(Reg.TST_DREDGE_CTRL_en, 0, 0)]);
    (s.on Reg.TST_DREDGE_CTRL_en = false)) ∧
    (let s : State := (State.setRg (on 1 ((List.range 35).map fun d => (Reg.PWR_DOM_state, d, 0))) Reg.TST_DREDGE_CTRL_en 0 1);
    let e : Trouble := (⟨5, none, false⟩ : Trouble);
    (s.on Reg.TST_DREDGE_CTRL_en = true) ∧ ((∀ r < 24, s.powered r = false ∨ (s.rch r).retired = true)) ∧ (s.powered 32 = false) ∧
    ((∀ e ∈ s.routes, parityOk e.2 = true)) ∧ ((∀ e ∈ s.buffers9, parityOk e.2 = true)) ∧ (s.spnBad = [])) ∧
    (let s : State := ({ (on 1 []) with parts := [(15, { errSeen := [5] })] });
    let e : Trouble := (⟨5, none, false⟩ : Trouble);
    let p : Nat := 15;
    let seen := (s.part p).errSeen;
    (e.record ∈ seen) ∧ (e.page = false) ∧ (e.cluster = none)) ∧
    (let s : State := ({ (on 1 [(Reg.CLU_ROLE_role, 33, 31)]) with parts := [(15, { errSeen := [5] })], tst := { buckets := [(33, 255)] } });
    let e : Trouble := (⟨5, some 17, false⟩ : Trouble);
    let p : Nat := 15;
    let seen := (s.part p).errSeen;
    let c := 17;
    (c ∈ e.cluster) ∧ (e.record ∈ seen) ∧ (e.page = false) ∧ (s.spareFor (c / 17) = none) ∧ (s.hasStandby (c / 17) = true) ∧
    (c ∉ (s.part p).deferred)) ∧
    (let s : State := ({ (on 1 [(Reg.CLU_ROLE_role, 33, 31)]) with parts := [(15, { errSeen := [5], deferred := [17] })], tst := { buckets := [(33, 255)] } });
    let e : Trouble := (⟨5, some 17, false⟩ : Trouble);
    let p : Nat := 15;
    let seen := (s.part p).errSeen;
    let c := 17;
    (c ∈ e.cluster) ∧ (e.record ∈ seen) ∧ (e.page = false) ∧ (s.spareFor (c / 17) = none) ∧ (s.hasStandby (c / 17) = true) ∧
    (c ∈ (s.part p).deferred)) ∧
    (let s : State := ({ (State.setRg (on 1 ((List.range 35).map fun d => (Reg.PWR_DOM_state, d, 0))) Reg.TST_DREDGE_CTRL_en 0 1) with routes := [(8191, 1)] });
    let d : Fin 4096 := 4095;
    let cell : Fin 2 := 1;
    let e : Trouble := (⟨5, none, false⟩ : Trouble);
    (s.on Reg.TST_DREDGE_CTRL_en = true) ∧ ((∀ r < 24, s.powered r = false)) ∧ (s.powered 32 = false) ∧ (s.spnBad = []) ∧
    ((∀ e ∈ s.buffers9, parityOk e.2 = true)) ∧ ((s.routes.filter fun e => !parityOk e.2).map (·.1) = [2 * d.val + cell.val]) ∧
    (s.bucket 10 0 + 1 < s.threshold 10) ∧ (s.on Reg.TST_FLIP_arm = false) ∧
    (Mem.get s.routesCopy (2 * d.val + 1 - cell.val) = cellOf (Mem.get s.routes (2 * d.val + 1 - cell.val)))) ∧
    (let s : State := ({ (State.setRg (on 1 ((List.range 35).map fun d => (Reg.PWR_DOM_state, d, 0))) Reg.TST_DREDGE_CTRL_en 0 1) with buffers9 := [(407, 1)] });
    let e : Trouble := (⟨5, none, false⟩ : Trouble);
    let unit : Nat := 407;
    (s.on Reg.TST_DREDGE_CTRL_en = true) ∧ ((∀ r < 24, s.powered r = false)) ∧ (s.powered 32 = false) ∧ (s.spnBad = []) ∧
    ((∀ e ∈ s.routes, parityOk e.2 = true)) ∧ ((s.buffers9.filter fun e => !parityOk e.2).map (·.1) = [unit]) ∧
    (s.bucket 9 0 + 1 < s.threshold 9) ∧ (s.on Reg.TST_FLIP_arm = false)) := by
  refine ⟨?_, ?_, ?_, ?_, ?_, ?_, ?_, ?_, ?_, ?_, ?_⟩ <;> (dsimp only <;> decide +kernel)

/-- States and operands that meet the hypotheses of KeeperRegisters. -/
theorem test_meets_KeeperRegisters :
    (let s : State := (on 1 [(Reg.KPR_SEL_keeper, 0, 3)]);
    let who : Requester := (Requester.pf);
    let v : Word := (1 : Word);
    let k : Fin 4 := 3;
    let j := copyOf who;
    let sel := s.rgw Reg.KPR_SEL_keeper j;
    let n := s.rgw Reg.KPR_TBL_ADDR_table j;
    let i := s.rgw Reg.KPR_TBL_ADDR_index j;
    let c := s.rgw Reg.KPR_TBL_ADDR_cell j;
    let at_ := 4096 * n + 8 * i + c;
    let on := s.on Reg.KPR_HOOK_pending k.val;
    (Writable s who 0x700004) ∧ (sel < 4) ∧ ((who = .pf ∨ s.isSystem who = true)) ∧ (bit v.toNat 0 ≠ s.on Reg.KPR_CTRL_run sel) ∧
    (s.system ≠ sel) ∧ ((sel = 0 → s.keeperOf who = some s.system → bit v.toNat 3 = true)) ∧ (i < (tableShape n).1) ∧
    (c < (tableShape n).2) ∧ (¬ (n = 5 ∧ i = 0)) ∧ (Writable s who 0x700038) ∧ (s.tblOpen who sel n i c = true) ∧
    (s.on Reg.TST_FLIP_arm = false) ∧ (Readable s who 0x700038) ∧ ((s.kpr sel).tblSound at_ = true) ∧ (on = false)) ∧
    (let s : State := (on 1 [(Reg.KPR_CTRL_run, 0, 1)]);
    let who : Requester := (Requester.keeper 0 0 0);
    let v : Word := (1 : Word);
    let j := copyOf who;
    let sel := s.rgw Reg.KPR_SEL_keeper j;
    (s.keeperOf who = some s.system) ∧ (ringOf who = 0) ∧ (Writable s who 0x700004) ∧ (sel = 0) ∧
    (bit v.toNat 0 = s.on Reg.KPR_CTRL_run 0) ∧ (bit v.toNat 3 = false)) ∧
    (let s : State := (on 1 [(Reg.KPR_TBL_ADDR_table, 0, 9), (Reg.KPR_TBL_ADDR_index, 0, 7), (Reg.KPR_TBL_ADDR_cell, 0, 1)]);
    let who : Requester := (Requester.pf);
    let j := copyOf who;
    let sel := s.rgw Reg.KPR_SEL_keeper j;
    let n := s.rgw Reg.KPR_TBL_ADDR_table j;
    let i := s.rgw Reg.KPR_TBL_ADDR_index j;
    let c := s.rgw Reg.KPR_TBL_ADDR_cell j;
    (i < (tableShape n).1) ∧ (c < (tableShape n).2) ∧ (¬ (n = 5 ∧ i = 0)) ∧ (Writable s who 0x700038) ∧ (s.kprWriter who = true) ∧
    (s.tblOpen who sel n i c = false)) ∧
    (let s : State := (on 1 [(Reg.KPR_TBL_ADDR_table, 0, 9), (Reg.KPR_TBL_ADDR_index, 0, 7), (Reg.KPR_TBL_ADDR_cell, 0, 1)]);
    let who : Requester := (Requester.keeper 2 2 0);
    let j := copyOf who;
    let n := s.rgw Reg.KPR_TBL_ADDR_table j;
    let i := s.rgw Reg.KPR_TBL_ADDR_index j;
    let c := s.rgw Reg.KPR_TBL_ADDR_cell j;
    (i < (tableShape n).1) ∧ (c < (tableShape n).2) ∧ (¬ (n = 5 ∧ i = 0)) ∧ (Writable s who 0x700038) ∧ (s.kprWriter who = false)) ∧
    (let s : State := ({ (on 1 [(Reg.KPR_HOOK_pending, 3, 1), (Reg.KPR_HOOK_tenant, 3, 15), (Reg.KPR_HOOK_pending, 0, 1), (Reg.KPR_HOOK_pending, 1, 1), (Reg.KPR_HOOK_pending, 2, 1), (Reg.KPR_SEL_keeper, 0, 3), (Reg.KPR_CTRL_run, 3, 1)]) with parts := [(15, { hooksOpen := [0, 3] })] });
    let who : Requester := (Requester.pf);
    let v : Word := (0x80000000 : Word);
    let k : Fin 4 := 3;
    let t : Nat := 15;
    let j := copyOf who;
    let sel := s.rgw Reg.KPR_SEL_keeper j;
    let on := s.on Reg.KPR_HOOK_pending k.val;
    let restore := s.on Reg.KPR_HOOK_restore k.val;
    let x := s.part t;
    let fits := fun (l : List (Nat × Nat)) => ((x.hookLists ++ [(k.val, l)]).flatMap fun e => e.2.map fun r => (8 + 2 * r.2 + 7) / 8 * 8).sum ≤ 16384;
    (s.rg Reg.KPR_HOOK_tenant k.val = t) ∧ (on = true) ∧ (x.hooksOpen.filter (· ≠ k.val) ≠ []) ∧
    ((∀ p < 16, p ≠ t → (s.part p).hooksOpen = [])) ∧ ((∀ q < 4, q ≠ k.val → s.on Reg.KPR_HOOK_pending q = true)) ∧ (restore = false) ∧
    (Writable s who 0x70001C) ∧ (sel = k.val) ∧ (bit v.toNat 31 = true) ∧
    (let l := ([] : List (Nat × Nat));
    (l ∈ (s.kpr k.val).ranges 64 (bits v.toNat 0 16)) ∧ (fits l))) ∧
    (let s : State := ({ (on 1 [(Reg.KPR_HOOK_pending, 3, 1), (Reg.KPR_HOOK_tenant, 3, 15), (Reg.KPR_HOOK_pending, 0, 1), (Reg.KPR_HOOK_pending, 1, 1), (Reg.KPR_HOOK_pending, 2, 1), (Reg.KPR_SEL_keeper, 0, 3), (Reg.KPR_CTRL_run, 3, 1), (Reg.KPR_HOOK_restore, 3, 1)]) with parts := [(15, { hooksOpen := [0, 3] })] });
    let who : Requester := (Requester.pf);
    let v : Word := (0x80000000 : Word);
    let k : Fin 4 := 3;
    let t : Nat := 15;
    let j := copyOf who;
    let sel := s.rgw Reg.KPR_SEL_keeper j;
    let on := s.on Reg.KPR_HOOK_pending k.val;
    let restore := s.on Reg.KPR_HOOK_restore k.val;
    let x := s.part t;
    (s.rg Reg.KPR_HOOK_tenant k.val = t) ∧ (on = true) ∧ (x.hooksOpen.filter (· ≠ k.val) ≠ []) ∧
    ((∀ p < 16, p ≠ t → (s.part p).hooksOpen = [])) ∧ ((∀ q < 4, q ≠ k.val → s.on Reg.KPR_HOOK_pending q = true)) ∧ (restore = true) ∧
    (Writable s who 0x70001C) ∧ (sel = k.val) ∧ (bit v.toNat 31 = true)) ∧
    (let s : State := ({ (on 1 [(Reg.KPR_HOOK_pending, 3, 1), (Reg.KPR_HOOK_tenant, 3, 15), (Reg.KPR_HOOK_pending, 0, 1), (Reg.KPR_HOOK_pending, 1, 1), (Reg.KPR_HOOK_pending, 2, 1), (Reg.KPR_SEL_keeper, 0, 3), (Reg.KPR_CTRL_run, 3, 1)]) with parts := [(15, { hooksOpen := [0, 3] })], keepers := [(3, { data := [(1, store 16), (2, store 1)] })] });
    let who : Requester := (Requester.pf);
    let v : Word := (0x80000000 : Word);
    let k : Fin 4 := 3;
    let t : Nat := 15;
    let j := copyOf who;
    let sel := s.rgw Reg.KPR_SEL_keeper j;
    let on := s.on Reg.KPR_HOOK_pending k.val;
    let restore := s.on Reg.KPR_HOOK_restore k.val;
    let x := s.part t;
    let fits := fun (l : List (Nat × Nat)) => ((x.hookLists ++ [(k.val, l)]).flatMap fun e => e.2.map fun r => (8 + 2 * r.2 + 7) / 8 * 8).sum ≤ 16384;
    (s.rg Reg.KPR_HOOK_tenant k.val = t) ∧ (on = true) ∧ (x.hooksOpen.filter (· ≠ k.val) ≠ []) ∧
    ((∀ p < 16, p ≠ t → (s.part p).hooksOpen = [])) ∧ ((∀ q < 4, q ≠ k.val → s.on Reg.KPR_HOOK_pending q = true)) ∧
    (Writable s who 0x70001C) ∧ (sel = k.val) ∧ (bit v.toNat 31 = true) ∧
    (((s.kpr k.val).ranges 64 (bits v.toNat 0 16) = none ∨ ∃ l ∈ (s.kpr k.val).ranges 64 (bits v.toNat 0 16), ¬ fits l)) ∧
    (restore = false)) ∧
    (let s : State := (lk 2 2 2 ((List.range 35).map (fun d => (Reg.PWR_DOM_state, d, 1)) ++ [(Reg.KPR_HOOK_pending, 3, 1),
        (Reg.KPR_HOOK_tenant, 3, 0), (Reg.KPR_SEL_keeper, 0, 3), (Reg.KPR_CTRL_run, 3, 1)]) { lkPart 2 with atLock := true, captured := true, hooksOpen := [3] });
    let who : Requester := (Requester.pf);
    let v : Word := (0x80000000 : Word);
    let k : Fin 4 := 3;
    let t : Nat := 0;
    let j := copyOf who;
    let sel := s.rgw Reg.KPR_SEL_keeper j;
    let on := s.on Reg.KPR_HOOK_pending k.val;
    let restore := s.on Reg.KPR_HOOK_restore k.val;
    let x := s.part t;
    let fits := fun (l : List (Nat × Nat)) => ((x.hookLists ++ [(k.val, l)]).flatMap fun e => e.2.map fun r => (8 + 2 * r.2 + 7) / 8 * 8).sum ≤ 16384;
    (s.rg Reg.KPR_HOOK_tenant k.val = t) ∧ (on = true) ∧ (restore = false) ∧ (x.hooksOpen = [k.val]) ∧
    (s.rg Reg.LCK_STATUSt_phase t = 2) ∧ (x.captured = true) ∧ (x.ready = false) ∧ (x.failsK = 0) ∧ (x.arrived = []) ∧
    (s.children t ≠ []) ∧ ((∀ d ∈ s.children t, (s.route d).isSome = true)) ∧ (Writable s who 0x70001C) ∧ (sel = k.val) ∧
    (bit v.toNat 31 = true) ∧
    (let l := ([] : List (Nat × Nat));
    (l ∈ (s.kpr k.val).ranges 64 (bits v.toNat 0 16)) ∧ (fits l))) := by
  refine ⟨?_, ?_, ?_, ?_, ?_, ?_, ?_, ?_⟩ <;> (dsimp only <;> decide +kernel)

/-- States and operands that meet the hypotheses of HostQueuesAndDoorbells. -/
theorem test_meets_HostQueuesAndDoorbells :
    (let s : State := (on 4 []);
    let fn : Fin 16 := 15;
    let f := fn.val;
    let there := FnServed s f ∧ LinkUp s;
    let answers := TakesCommands s ∨ s.rg Reg.PWR_MODE_mode 0 = 3;
    (there) ∧ (¬ answers)) ∧
    (let s : State := (on 1 [(Reg.WHF_QSEL_kind, 15, 7)]);
    let fn : Fin 16 := 15;
    let v : Word := (0x0000800C : Word);
    let vector : BitVec 4 := (3 : BitVec 4);
    let f := fn.val;
    let there := FnServed s f ∧ LinkUp s;
    let answers := TakesCommands s ∨ s.rg Reg.PWR_MODE_mode 0 = 3;
    let served := there ∧ answers;
    let k := s.rg Reg.WHF_QSEL_kind f;
    let q := 8 * f + k;
    let n := v.toNat % 16;
    let on := s.on Reg.WHF_QCFG_enable q;
    let legal := k < 7 ∧ (k = 6 ∨ (4 ≤ n ∧ n ≤ 12 ∧ (on = true → n = s.rg Reg.WHF_QCFG_size_log2 q)));
    (served) ∧ (¬ legal) ∧ (vector.toNat < (if f = 0 then 16 else 4))) ∧
    (let s : State := (on 1 [(Reg.WHF_QSEL_kind, 15, 3)]);
    let fn : Fin 16 := 15;
    let v : Word := (0x0000800C : Word);
    let f := fn.val;
    let there := FnServed s f ∧ LinkUp s;
    let answers := TakesCommands s ∨ s.rg Reg.PWR_MODE_mode 0 = 3;
    let served := there ∧ answers;
    let k := s.rg Reg.WHF_QSEL_kind f;
    let q := 8 * f + k;
    let n := v.toNat % 16;
    let on := s.on Reg.WHF_QCFG_enable q;
    let legal := k < 7 ∧ (k = 6 ∨ (4 ≤ n ∧ n ≤ 12 ∧ (on = true → n = s.rg Reg.WHF_QCFG_size_log2 q)));
    (served) ∧ (legal) ∧ (bit v.toNat 15 = true) ∧ (on = false)) ∧
    (let s : State := (on 1 [(Reg.WHF_QSEL_kind, 15, 3), (Reg.WHF_QCFG_enable, 123, 1), (Reg.WHF_QCFG_size_log2, 123, 12)]);
    let fn : Fin 16 := 15;
    let v : Word := (0x0000800C : Word);
    let f := fn.val;
    let there := FnServed s f ∧ LinkUp s;
    let answers := TakesCommands s ∨ s.rg Reg.PWR_MODE_mode 0 = 3;
    let served := there ∧ answers;
    let k := s.rg Reg.WHF_QSEL_kind f;
    let q := 8 * f + k;
    let n := v.toNat % 16;
    let on := s.on Reg.WHF_QCFG_enable q;
    let legal := k < 7 ∧ (k = 6 ∨ (4 ≤ n ∧ n ≤ 12 ∧ (on = true → n = s.rg Reg.WHF_QCFG_size_log2 q)));
    (served) ∧ (legal) ∧ (bit v.toNat 15 = true) ∧ (on = true)) ∧
    (let s : State := (on 1 [(Reg.WHF_QSEL_kind, 15, 6)]);
    let fn : Fin 16 := 15;
    let v : Word := (15 : Word);
    let f := fn.val;
    let there := FnServed s f ∧ LinkUp s;
    let answers := TakesCommands s ∨ s.rg Reg.PWR_MODE_mode 0 = 3;
    let served := there ∧ answers;
    let k := s.rg Reg.WHF_QSEL_kind f;
    let q := 8 * f + k;
    let n := v.toNat % 16;
    let on := s.on Reg.WHF_QCFG_enable q;
    let legal := k < 7 ∧ (k = 6 ∨ (4 ≤ n ∧ n ≤ 12 ∧ (on = true → n = s.rg Reg.WHF_QCFG_size_log2 q)));
    (served) ∧ (legal) ∧ (bit v.toNat 15 = false)) ∧
    (let s : State := (on 0 []);
    let fn : Fin 16 := 15;
    let kind : BitVec 3 := (1 : BitVec 3);
    let vector : BitVec 4 := (3 : BitVec 4);
    let f := fn.val;
    let sq := 8 * f;
    let i := s.rg Reg.WHF_QCFG_dptr sq;
    let ready := TakesCommands s ∧ s.on Reg.WHF_QCFG_enable sq = true ∧ i ≠ s.rg Reg.WHF_SQ_TAIL_index f % s.qlen sq ∧
      (s.fn f).d3hot = false ∧ s.fetched.get f [] = [] ∧ (s.part f).openCmds = [];
    let dq := 8 * f + kind.toNat;
    let z := s.queue dq;
    let psb := s.on Reg.WHF_QCFG_enable (8 * f + 6) = true ∧ (s.fn f).d3hot = false;
    let m := s.msix.get (16 * f + vector.toNat) {};
    (¬ ready) ∧ (kind.toNat = 0 ∨ 3 < kind.toNat ∨ s.qopen f kind.toNat = false) ∧ (kind = 1 ∨ kind = 3) ∧ (z.held = []) ∧ (¬ psb) ∧
    (m.batch = false) ∧ (¬ FnServed s f) ∧ (LinkUp s)) ∧
    (let s : State := ({ (on 1 [(Reg.WHF_QCFG_enable, 120, 1), (Reg.WHF_QCFG_size_log2, 120, 4), (Reg.WHF_SQ_TAIL_index, 15, 1)]) with queues := [(120, { ordinal := 4095 })] });
    let fn : Fin 16 := 15;
    let e : BitVec 512 := (BitVec.ofNat 512 (let p := 11 + 65535 * 2 ^ 16;
    p + (crcAlive 4095 (leBytes 60 p)) * 2 ^ 480));
    let f := fn.val;
    let sq := 8 * f;
    let i := s.rg Reg.WHF_QCFG_dptr sq;
    let ready := TakesCommands s ∧ s.on Reg.WHF_QCFG_enable sq = true ∧ i ≠ s.rg Reg.WHF_SQ_TAIL_index f % s.qlen sq ∧
      (s.fn f).d3hot = false ∧ s.fetched.get f [] = [] ∧ (s.part f).openCmds = [];
    let y := s.queue sq;
    let good := crcAlive y.ordinal ((leBytes 64 e.toNat).take 60) = e.toNat / 2 ^ 480;
    let opcode := e.toNat % 2 ^ 16;
    (ready) ∧ (good) ∧ (1 ≤ opcode) ∧ (opcode ≤ 11)) ∧
    (let s : State := ({ (on 1 [(Reg.WHF_QCFG_enable, 120, 1), (Reg.WHF_QCFG_size_log2, 120, 4), (Reg.WHF_SQ_TAIL_index, 15, 1)]) with queues := [(120, { ordinal := 4095 })] });
    let fn : Fin 16 := 15;
    let e : BitVec 512 := (BitVec.ofNat 512 (let p := 0 + 65535 * 2 ^ 16;
    p + (crcAlive 4095 (leBytes 60 p)) * 2 ^ 480));
    let f := fn.val;
    let sq := 8 * f;
    let i := s.rg Reg.WHF_QCFG_dptr sq;
    let ready := TakesCommands s ∧ s.on Reg.WHF_QCFG_enable sq = true ∧ i ≠ s.rg Reg.WHF_SQ_TAIL_index f % s.qlen sq ∧
      (s.fn f).d3hot = false ∧ s.fetched.get f [] = [] ∧ (s.part f).openCmds = [];
    let y := s.queue sq;
    let good := crcAlive y.ordinal ((leBytes 64 e.toNat).take 60) = e.toNat / 2 ^ 480;
    let opcode := e.toNat % 2 ^ 16;
    (ready) ∧ (good) ∧ (¬ (1 ≤ opcode ∧ opcode ≤ 11))) ∧
    (let s : State := ({ (on 1 [(Reg.WHF_QCFG_enable, 120, 1), (Reg.WHF_QCFG_size_log2, 120, 4), (Reg.WHF_SQ_TAIL_index, 15, 1)]) with queues := [(120, { ordinal := 4095 })] });
    let fn : Fin 16 := 15;
    let e : BitVec 512 := (BitVec.ofNat 512 (let p := 1 + 65535 * 2 ^ 16;
    p + (crcAlive 4095 (leBytes 60 p) + 1) * 2 ^ 480));
    let f := fn.val;
    let sq := 8 * f;
    let i := s.rg Reg.WHF_QCFG_dptr sq;
    let ready := TakesCommands s ∧ s.on Reg.WHF_QCFG_enable sq = true ∧ i ≠ s.rg Reg.WHF_SQ_TAIL_index f % s.qlen sq ∧
      (s.fn f).d3hot = false ∧ s.fetched.get f [] = [] ∧ (s.part f).openCmds = [];
    let y := s.queue sq;
    let good := crcAlive y.ordinal ((leBytes 64 e.toNat).take 60) = e.toNat / 2 ^ 480;
    (ready) ∧ (¬ good)) ∧
    (let s : State := (on 1 []);
    let fn : Fin 16 := 15;
    let kind : BitVec 3 := (2 : BitVec 3);
    let f := fn.val;
    (kind = 2) ∧ (s.faults.get f [] = [])) ∧
    (let s : State := ({ (on 1 [(Reg.WHF_QCFG_enable, 121, 1), (Reg.WHF_QCFG_size_log2, 121, 4)]) with queues := [(121, { held := [⟨[3]⟩] })] });
    let fn : Fin 16 := 15;
    let kind : BitVec 3 := (1 : BitVec 3);
    let f := fn.val;
    let dq := 8 * f + kind.toNat;
    let z := s.queue dq;
    let a := (⟨[3]⟩ : Entry);
    (a ∈ z.held.head?) ∧ (s.qopen f kind.toNat = true) ∧ (kind = 1)) ∧
    (let s : State := ({ (on 1 [(Reg.WHF_QCFG_enable, 123, 1), (Reg.WHF_QCFG_size_log2, 123, 4)]) with queues := [(123, { held := [⟨[3]⟩] })] });
    let fn : Fin 16 := 15;
    let kind : BitVec 3 := (3 : BitVec 3);
    let f := fn.val;
    let dq := 8 * f + kind.toNat;
    let z := s.queue dq;
    let x := s.part f;
    let a := (⟨[3]⟩ : Entry);
    (a ∈ z.held.head?) ∧ (s.qopen f kind.toNat = true) ∧ (kind = 3) ∧ (x.openCmds = []) ∧ (x.atLock = false)) ∧
    (let s : State := ({ (on 1 [(Reg.WHF_QCFG_enable, 122, 1), (Reg.WHF_QCFG_size_log2, 122, 4)]) with faults := [(15, [⟨31, 255, 7, 65535⟩])] });
    let fn : Fin 16 := 15;
    let kind : BitVec 3 := (2 : BitVec 3);
    let f := fn.val;
    let a := (⟨31, 255, 7, 65535⟩ : FaultRec);
    (a ∈ (s.faults.get f []).head?) ∧ (kind = 2) ∧ (s.qopen f 2 = true)) ∧
    (let s : State := ({ (on 1 [(Reg.WHF_QCFG_enable, 126, 1)]) with parts := [(15, { inputs := [(1023, { consumed := 4294967295, dirty := true })] })] });
    let fn : Fin 16 := 15;
    let f := fn.val;
    let psb := s.on Reg.WHF_QCFG_enable (8 * f + 6) = true ∧ (s.fn f).d3hot = false;
    (psb)) ∧
    (let s : State := ({ (on 1 []) with msix := [(243, { batch := true, pending := true })] });
    let fn : Fin 16 := 15;
    let vector : BitVec 4 := (3 : BitVec 4);
    let f := fn.val;
    let m := s.msix.get (16 * f + vector.toNat) {};
    (m.batch = true)) ∧
    (let s : State := (on 1 []);
    let fn : Fin 16 := 15;
    let vector : BitVec 4 := (4 : BitVec 4);
    let f := fn.val;
    let there := FnServed s f ∧ LinkUp s;
    let answers := TakesCommands s ∨ s.rg Reg.PWR_MODE_mode 0 = 3;
    (there) ∧ (¬ (answers ∧ vector.toNat < (if f = 0 then 16 else 4)))) ∧
    (let s : State := ({ (on 1 []) with fns := [] });
    let fn : Fin 16 := 15;
    let v : Word := (0xFFFFFFFF : Word);
    let vector : BitVec 4 := (3 : BitVec 4);
    let f := fn.val;
    (¬ FnServed s f) ∧ (LinkUp s) ∧
    (let c := Instr.whfSqTail 15 0xFFFFFFFF;
    (PageWrite fn v vector c))) ∧
    (let s : State := ({ (on 1 []) with power := { State.reset.power with linkState := 1 } });
    (¬ LinkUp s)) ∧
    (let s : State := (on 1 [(Reg.WHF_QSEL_kind, 15, 7)]);
    let fn : Fin 16 := 15;
    let f := fn.val;
    let there := FnServed s f ∧ LinkUp s;
    (there) ∧ (TakesCommands s) ∧ (s.on Reg.WHF_QCFG_enable (8 * f) = false) ∧ ((TakesCommands s ∨ s.rg Reg.PWR_MODE_mode 0 = 3))) ∧
    (let s : State := ({ (on 1 [(Reg.WHF_QCFG_enable, 120, 1), (Reg.WHF_QCFG_size_log2, 120, 4), (Reg.WHF_SQ_TAIL_index, 15, 1)]) with queues := [(120, { ordinal := 4095 })] });
    let fn : Fin 16 := 15;
    let f := fn.val;
    let there := FnServed s f ∧ LinkUp s;
    (there) ∧ (TakesCommands s) ∧ (s.on Reg.WHF_QCFG_enable (8 * f) = true)) ∧
    (let s : State := (on 3 []);
    let fn : Fin 16 := 15;
    let f := fn.val;
    let there := FnServed s f ∧ LinkUp s;
    (there) ∧ (¬ TakesCommands s)) ∧
    (let s : State := (on 4 []);
    let fn : Fin 16 := 15;
    let f := fn.val;
    let there := FnServed s f ∧ LinkUp s;
    (there) ∧ (¬ (TakesCommands s ∨ s.rg Reg.PWR_MODE_mode 0 = 3))) := by
  refine ⟨?_, ?_, ?_, ?_, ?_, ?_, ?_, ?_, ?_, ?_, ?_, ?_, ?_, ?_, ?_, ?_, ?_, ?_, ?_, ?_, ?_, ?_⟩ <;>
    (dsimp only <;> decide +kernel)

/-- States and operands that meet the hypotheses of CommandsRefusedByMode. -/
theorem test_meets_CommandsRefusedByMode :
    (let s : State := ({ (on 1 []) with parts := [(15, { openCmds := [⟨1, 2, 3⟩] })] });
    let c : Instr := Instr.start 15 65535;
    let k : Submitted := (⟨15, 65535, 2, [], [1], false⟩ : Submitted);
    (submitted c = some k) ∧
    (let t := k.tenant.val;
    ((s.part t).openCmds ≠ []))) ∧
    (let s : State := (on 0 []);
    let c : Instr := Instr.start 15 65535;
    let k : Submitted := (⟨15, 65535, 2, [], [1], false⟩ : Submitted);
    (submitted c = some k) ∧ (¬ TakesCommands s) ∧ (s.rg Reg.PWR_MODE_mode 0 ≠ 3)) ∧
    (let s : State := ({ (on 1 []) with fetched := [(15, [3#512])] });
    let c : Instr := Instr.start 15 65535;
    let k : Submitted := (⟨15, 65535, 2, [], [1], false⟩ : Submitted);
    (submitted c = some k) ∧
    (let t := k.tenant.val;
    let named := EntrySays s t k.cmd k.opcode k.ops;
    (¬ named))) ∧
    (let s : State := ({ (on 1 []) with fns := [(15, { d3hot := true })] });
    let c : Instr := Instr.input 15 65535 1023 1 [0];
    let k : Submitted := (⟨15, 65535, 7, [(0x18, 4, 1023), (0x10, 8, 1)], [1, 2, 3, 4, 5, 6], true⟩ : Submitted);
    (submitted c = some k) ∧
    (let t := k.tenant.val;
    (k.reads = true) ∧ ((s.fn t).d3hot = true))) ∧
    (let s : State := (on 3 []);
    let c : Instr := Instr.start 15 65535;
    let k : Submitted := (⟨15, 65535, 2, [], [1], false⟩ : Submitted);
    (submitted c = some k) ∧
    (let t := k.tenant.val;
    let named := EntrySays s t k.cmd k.opcode k.ops;
    ((s.part t).openCmds = []) ∧ (named) ∧ ((k.reads = true → (s.fn t).d3hot = false)) ∧
    ((s.rg Reg.PWR_MODE_mode 0 = 3 ∨ (TakesCommands s ∧ s.rg Reg.WHF_TSTAT_mode t ∉ k.modes))))) := by
  refine ⟨?_, ?_, ?_, ?_, ?_⟩ <;> (dsimp only <;> and_intros <;> first | rfl | decide +kernel)

/-- States and operands that meet the hypotheses of HoldRunStepStop. -/
theorem test_meets_HoldRunStepStop :
    (let s : State := (on 1 [(Reg.WHF_TSTAT_mode, 15, 2)]);
    let fn : Fin 16 := 15;
    let t : Fin 16 := 15;
    let cmd : BitVec 16 := (65535 : BitVec 16);
    let v : Word := (0x80000FFF : Word);
    let id : Cell := (4095 : Cell);
    let x := s.part t.val;
    let own := 0xF00 + x.nextId % 256;
    let mode := s.rg Reg.WHF_TSTAT_mode t.val;
    let go := v.toNat / 2 ^ 31 = 1;
    let vid := v.toNat % 4096;
    let y := s.part fn.val;
    let vmode := s.rg Reg.WHF_TSTAT_mode fn.val;
    (Accepted s t.val cmd 3 [] [2, 4]) ∧ (own ∉ x.stopIds) ∧ (own ∉ x.goIds) ∧ (mode ≠ 0) ∧ (mode ≠ 7) ∧ (id.toNat ∉ x.stopIds) ∧
    (id.toNat ∉ x.goIds) ∧ (FnServed s fn.val) ∧ (LinkUp s) ∧ ((TakesCommands s ∨ s.rg Reg.PWR_MODE_mode 0 = 3)) ∧ (go) ∧
    ((fn.val ≠ 0 ∨ bit v.toNat 16 = false)) ∧ (vmode ≠ 0) ∧ (vmode ≠ 7) ∧ (vid ∉ y.stopIds) ∧ (vid ∉ y.goIds) ∧ (x.stopOwed = none) ∧
    (x.holdReq = none)) ∧
    (let s : State := (on 1 [(Reg.WHF_TSTAT_mode, 15, 3)]);
    let t : Fin 16 := 15;
    let cmd : BitVec 16 := (65535 : BitVec 16);
    let op0 : Word := (65535 : Word);
    let x := s.part t.val;
    let own := 0xF00 + x.nextId % 256;
    (Accepted s t.val cmd 4 [] [3, 4]) ∧ (own ∉ x.goIds) ∧ (Accepted s t.val cmd 5 [(0x18, 4, op0.toNat)] [3]) ∧ (1 ≤ op0.toNat) ∧
    (op0.toNat ≤ 65535)) ∧
    (let s : State := (on 1 [(Reg.WHF_TSTAT_mode, 15, 3)]);
    let t : Fin 16 := 15;
    let cmd : BitVec 16 := (65535 : BitVec 16);
    let op0 : Word := (0 : Word);
    (Accepted s t.val cmd 5 [(0x18, 4, op0.toNat)] [3]) ∧ ((op0.toNat = 0 ∨ 65535 < op0.toNat))) ∧
    (let s : State := (on 1 [(Reg.WHF_TSTAT_mode, 15, 0)]);
    let t : Fin 16 := 15;
    let mode := s.rg Reg.WHF_TSTAT_mode t.val;
    (mode = 0)) ∧
    (let s : State := (on 1 [(Reg.WHF_TSTAT_mode, 15, 7)]);
    let t : Fin 16 := 15;
    let id : Cell := (4095 : Cell);
    let x := s.part t.val;
    let mode := s.rg Reg.WHF_TSTAT_mode t.val;
    (mode = 7) ∧ (id.toNat ∉ x.stopIds) ∧ (id.toNat ∉ x.goIds) ∧ (x.holdReq = none)) ∧
    (let s : State := ({ (on 1 [(Reg.WHF_TSTAT_mode, 15, 2)]) with parts := [(15, { stopIds := [4095] })] });
    let t : Fin 16 := 15;
    let id : Cell := (4095 : Cell);
    let x := s.part t.val;
    let mode := s.rg Reg.WHF_TSTAT_mode t.val;
    (mode ≠ 0) ∧ ((id.toNat ∈ x.stopIds ∨ id.toNat ∈ x.goIds)) ∧ (x.holdReq = none)) ∧
    (let s : State := ({ (on 1 [(Reg.WHF_TSTAT_mode, 15, 2)]) with parts := [(15, { goIds := [4095] })] });
    let t : Fin 16 := 15;
    let id : Cell := (4095 : Cell);
    let x := s.part t.val;
    let mode := s.rg Reg.WHF_TSTAT_mode t.val;
    (mode ≠ 0) ∧ (id.toNat ∈ x.goIds)) ∧
    (let s : State := (on 1 [(Reg.WHF_TSTAT_mode, 15, 3)]);
    let fn : Fin 16 := 15;
    let v : Word := (0x7FFFFFFF : Word);
    let go := v.toNat / 2 ^ 31 = 1;
    (FnServed s fn.val) ∧ (LinkUp s) ∧ ((TakesCommands s ∨ s.rg Reg.PWR_MODE_mode 0 = 3)) ∧ (¬ go)) ∧
    (let s : State := (on 1 [(Reg.WHF_TSTAT_mode, 15, 2)]);
    let fn : Fin 16 := 0;
    let t : Fin 16 := 15;
    let v : Word := (0x80010FFF : Word);
    let x := s.part t.val;
    let mode := s.rg Reg.WHF_TSTAT_mode t.val;
    let go := v.toNat / 2 ^ 31 = 1;
    let vid := v.toNat % 4096;
    (FnServed s fn.val) ∧ (LinkUp s) ∧ ((TakesCommands s ∨ s.rg Reg.PWR_MODE_mode 0 = 3)) ∧ (go) ∧ (fn.val = 0) ∧
    (bit v.toNat 16 = true) ∧ ((∀ a < 16, s.neighbours a = [])) ∧ (mode ≠ 0) ∧ (mode ≠ 7) ∧ (vid ∉ x.stopIds) ∧ (vid ∉ x.goIds)) ∧
    (let s : State := ({ (on 1 [(Reg.WHF_TSTAT_mode, 15, 2)]) with parts := [(15, { stopOwed := some 4095 })] });
    let t : Fin 16 := 15;
    let x := s.part t.val;
    let mode := s.rg Reg.WHF_TSTAT_mode t.val;
    let n := 4095;
    (n ∈ x.stopOwed) ∧ (x.holdReq = none) ∧ (mode ≠ 3)) ∧
    (let s : State := ({ (on 1 [(Reg.WHF_TSTAT_mode, 15, 3)]) with parts := [(15, { stopOwed := some 4095 })] });
    let t : Fin 16 := 15;
    let x := s.part t.val;
    let mode := s.rg Reg.WHF_TSTAT_mode t.val;
    let n := 4095;
    (n ∈ x.stopOwed) ∧ (x.holdReq = none) ∧ (mode = 3)) := by
  refine ⟨?_, ?_, ?_, ?_, ?_, ?_, ?_, ?_, ?_, ?_, ?_⟩ <;> (dsimp only <;> decide +kernel)

/-- States and operands that meet the hypotheses of StartAndUnload. -/
theorem test_meets_StartAndUnload :
    (let s : State := (lk 0 1 2 solo (lkPart 0));
    let t : Fin 16 := 0;
    let cmd : BitVec 16 := (65535 : BitVec 16);
    (Accepted s t.val cmd 2 [] [1]) ∧ (StartClean s t.val) ∧ (Alone s t.val) ∧ (Accepted s t.val cmd 6 [] [1, 3, 7]) ∧
    ((s.queue (8 * t.val + 3)).held = [])) ∧
    (let s : State := (lk 1 1 2 solo (lkPart 1));
    let t : Fin 16 := 0;
    let cmd : BitVec 16 := (65535 : BitVec 16);
    let d : Nat := 5;
    (Accepted s t.val cmd 2 [] [1]) ∧ (StartClean s t.val) ∧ (LeafBelow s t.val d) ∧ (s.children t.val = [])) ∧
    (let s : State := ({ (lk 0 7 2 [] (lkPart 0)) with queues := [(3, { held := [⟨[3]⟩] })] });
    let t : Fin 16 := 0;
    let cmd : BitVec 16 := (65535 : BitVec 16);
    (Accepted s t.val cmd 6 [] [1, 3, 7]) ∧ ((s.queue (8 * t.val + 3)).held ≠ [])) := by
  refine ⟨?_, ?_, ?_⟩ <;> (dsimp only <;> and_intros <;> first | decide +kernel | (constructor <;> decide +kernel))

/-- States and operands that meet the hypotheses of PartitionCommands. -/
theorem test_meets_PartitionCommands :
    (let s : State := (lk 0 6 2 [] (lkPart 0));
    let t : Fin 16 := 0;
    let cmd : BitVec 16 := (65535 : BitVec 16);
    let op0 : Word := (1023 : Word);
    let op1 : Word := (7 : Word);
    let op2 : Word := (0x80000000 : Word);
    let length : Nat := 4097;
    let able := Accepted s t.val cmd 7 [(0x18, 4, op0.toNat), (0x10, 8, length)] [1, 2, 3, 4, 5, 6] ∧ (s.fn t.val).d3hot = false;
    let badInput := length = 0 ∨ 4096 < length ∨ 1023 < op0.toNat;
    let root := s.multi t.val = false ∨ s.isRoot t.val = true;
    (able) ∧ (badInput) ∧ (Accepted s t.val cmd 8 [(0x18, 4, op0.toNat)] [0, 1, 2, 3, 4, 5, 6]) ∧ (1 < op0.toNat) ∧
    (Accepted s t.val cmd 10 [(0x18, 4, op0.toNat), (0x1C, 4, op1.toNat), (0x20, 4, op2.toNat)] [2, 3, 5, 6]) ∧ (root) ∧
    ((op0.toNat < 4 ∨ 6 < op0.toNat))) ∧
    (let s : State := (lk 0 6 2 [] (lkPart 0));
    let t : Fin 16 := 0;
    let cmd : BitVec 16 := (65535 : BitVec 16);
    let op0 : Word := (1023 : Word);
    let length : Nat := 4096;
    let x := s.part t.val;
    let port := op0.toNat % 1024;
    let able := Accepted s t.val cmd 7 [(0x18, 4, op0.toNat), (0x10, 8, length)] [1, 2, 3, 4, 5, 6] ∧ (s.fn t.val).d3hot = false;
    let badInput := length = 0 ∨ 4096 < length ∨ 1023 < op0.toNat;
    let named := fun (q : HostPort) => decide (q.port = port) && q.isInput;
    (able) ∧ (¬ badInput) ∧ (x.ports.find? named = none)) ∧
    (let s : State := (lk 0 6 2 [] { lkPart 0 with ports := [⟨1023, true, true, 15, 127⟩] });
    let t : Fin 16 := 0;
    let cmd : BitVec 16 := (65535 : BitVec 16);
    let op0 : Word := (1023 : Word);
    let length : Nat := 4096;
    let values : List (BitVec 16) := [];
    let x := s.part t.val;
    let port := op0.toNat % 1024;
    let able := Accepted s t.val cmd 7 [(0x18, 4, op0.toNat), (0x10, 8, length)] [1, 2, 3, 4, 5, 6] ∧ (s.fn t.val).d3hot = false;
    let badInput := length = 0 ∨ 4096 < length ∨ 1023 < op0.toNat;
    let named := fun (q : HostPort) => decide (q.port = port) && q.isInput;
    let h := (⟨1023, true, true, 15, 127⟩ : HostPort);
    (h ∈ x.ports.find? named) ∧ (able) ∧ (¬ badInput) ∧ (values.length ≠ length)) ∧
    (let s : State := (lk 0 6 2 [] { lkPart 0 with ports := [⟨1023, true, true, 15, 127⟩] });
    let t : Fin 16 := 0;
    let cmd : BitVec 16 := (65535 : BitVec 16);
    let op0 : Word := (1023 : Word);
    let length : Nat := 1;
    let values : List (BitVec 16) := [4095];
    let x := s.part t.val;
    let port := op0.toNat % 1024;
    let able := Accepted s t.val cmd 7 [(0x18, 4, op0.toNat), (0x10, 8, length)] [1, 2, 3, 4, 5, 6] ∧ (s.fn t.val).d3hot = false;
    let badInput := length = 0 ∨ 4096 < length ∨ 1023 < op0.toNat;
    let named := fun (q : HostPort) => decide (q.port = port) && q.isInput;
    let h := (⟨1023, true, true, 15, 127⟩ : HostPort);
    (h ∈ x.ports.find? named) ∧ (able) ∧ (¬ badInput) ∧ (values.length = length)) ∧
    (let s : State := (lk 0 3 2 [] { lkPart 0 with rollbacks := 3 });
    let t : Fin 16 := 0;
    let cmd : BitVec 16 := (65535 : BitVec 16);
    let op0 : Word := (1 : Word);
    let x := s.part t.val;
    (Accepted s t.val cmd 8 [(0x18, 4, op0.toNat)] [0, 1, 2, 3, 4, 5, 6]) ∧ (op0.toNat ≤ 1) ∧
    (Accepted s t.val cmd 9 [(0x18, 4, op0.toNat)] [2, 3]) ∧ (Alone s t.val) ∧ (x.rollbacks < 4) ∧ (x.gapRunning = false)) ∧
    (let s : State := (lk 0 3 2 [] (lkPart 0));
    let t : Fin 16 := 0;
    let cmd : BitVec 16 := (65535 : BitVec 16);
    let op0 : Word := (2 : Word);
    (Accepted s t.val cmd 9 [(0x18, 4, op0.toNat)] [2, 3]) ∧ (1 < op0.toNat)) ∧
    (let s : State := (lk 1 3 2 [] (lkPart 1));
    let t : Fin 16 := 0;
    let cmd : BitVec 16 := (65535 : BitVec 16);
    let op0 : Word := (1 : Word);
    let op1 : Word := (7 : Word);
    let op2 : Word := (0x80000000 : Word);
    let d : Nat := 5;
    let x := s.part t.val;
    let root := s.multi t.val = false ∨ s.isRoot t.val = true;
    (Accepted s t.val cmd 9 [(0x18, 4, op0.toNat)] [2, 3]) ∧ (op0.toNat ≤ 1) ∧ (LeafBelow s t.val d) ∧
    ((s.route x.rootDev).isSome = true) ∧
    (Accepted s t.val cmd 10 [(0x18, 4, op0.toNat), (0x1C, 4, op1.toNat), (0x20, 4, op2.toNat)] [2, 3, 5, 6]) ∧ (¬ root)) ∧
    (let s : State := (lk 0 6 2 [] (lkPart 0));
    let t : Fin 16 := 0;
    let cmd : BitVec 16 := (65535 : BitVec 16);
    let op0 : Word := (4 : Word);
    let op1 : Word := (7 : Word);
    let op2 : Word := (0x80000000 : Word);
    let mode := s.rg Reg.WHF_TSTAT_mode t.val;
    let root := s.multi t.val = false ∨ s.isRoot t.val = true;
    (Accepted s t.val cmd 10 [(0x18, 4, op0.toNat), (0x1C, 4, op1.toNat), (0x20, 4, op2.toNat)] [2, 3, 5, 6]) ∧ (root) ∧
    (op0.toNat = 4) ∧ (mode ≠ 2) ∧ (mode ≠ 3)) ∧
    (let s : State := (lk 0 3 2 [] (lkPart 0));
    let t : Fin 16 := 0;
    let cmd : BitVec 16 := (65535 : BitVec 16);
    let op0 : Word := (5 : Word);
    let op1 : Word := (9 : Word);
    let op2 : Word := (0 : Word);
    let mode := s.rg Reg.WHF_TSTAT_mode t.val;
    let root := s.multi t.val = false ∨ s.isRoot t.val = true;
    (Accepted s t.val cmd 10 [(0x18, 4, op0.toNat), (0x1C, 4, op1.toNat), (0x20, 4, op2.toNat)] [2, 3, 5, 6]) ∧ (root) ∧
    ((op0.toNat = 5 ∨ op0.toNat = 6)) ∧ (mode ≠ 5) ∧ (mode ≠ 6)) ∧
    (let s : State := (lk 0 3 2 [] (lkPart 0));
    let t : Fin 16 := 0;
    let cmd : BitVec 16 := (65535 : BitVec 16);
    let op0 : Word := (4 : Word);
    let op1 : Word := (7 : Word);
    let op2 : Word := (0x80000000 : Word);
    let mode := s.rg Reg.WHF_TSTAT_mode t.val;
    let root := s.multi t.val = false ∨ s.isRoot t.val = true;
    let lock := op1.toNat % 2 ^ 24;
    let stopPound := if op0.toNat = 4 then (lock + 1) % 2 ^ 24 else lock;
    let allowed := bit op2.toNat 31 = true ∨ stopAllowed s t.val stopPound (op2.toNat % 2 ^ 20) = true;
    (Accepted s t.val cmd 10 [(0x18, 4, op0.toNat), (0x1C, 4, op1.toNat), (0x20, 4, op2.toNat)] [2, 3, 5, 6]) ∧ (root) ∧
    (op0.toNat = 4) ∧ ((mode = 2 ∨ mode = 3)) ∧ (((s.slotOf t.val lock).isNone = true ∨ ¬ allowed))) ∧
    (let s : State := (lk 2 3 2 [] { lkPart 2 with rollbacks := 3, ckpts := [⟨7, true, false, false, false, 0, [], [], [], [], [], 0⟩] });
    let t : Fin 16 := 0;
    let cmd : BitVec 16 := (65535 : BitVec 16);
    let op0 : Word := (4 : Word);
    let op1 : Word := (7 : Word);
    let op2 : Word := (0 : Word);
    let x := s.part t.val;
    let mode := s.rg Reg.WHF_TSTAT_mode t.val;
    let root := s.multi t.val = false ∨ s.isRoot t.val = true;
    let lock := op1.toNat % 2 ^ 24;
    let stopPound := if op0.toNat = 4 then (lock + 1) % 2 ^ 24 else lock;
    let allowed := bit op2.toNat 31 = true ∨ stopAllowed s t.val stopPound (op2.toNat % 2 ^ 20) = true;
    (Accepted s t.val cmd 10 [(0x18, 4, op0.toNat), (0x1C, 4, op1.toNat), (0x20, 4, op2.toNat)] [2, 3, 5, 6]) ∧ (root) ∧
    (op0.toNat = 4) ∧ ((mode = 2 ∨ mode = 3)) ∧ ((s.slotOf t.val lock).isSome = true) ∧ (allowed) ∧ (x.rollbacks < 4) ∧
    (x.gapRunning = false) ∧ ((∀ c ∈ s.children t.val, (s.route c).isSome = true))) ∧
    (let s : State := (lk 0 6 2 [] (lkPart 0));
    let t : Fin 16 := 0;
    let cmd : BitVec 16 := (65535 : BitVec 16);
    let op0 : Word := (5 : Word);
    let op1 : Word := (9 : Word);
    let op2 : Word := (0 : Word);
    let mode := s.rg Reg.WHF_TSTAT_mode t.val;
    let root := s.multi t.val = false ∨ s.isRoot t.val = true;
    let lock := op1.toNat % 2 ^ 24;
    let stopPound := if op0.toNat = 4 then (lock + 1) % 2 ^ 24 else lock;
    let allowed := bit op2.toNat 31 = true ∨ stopAllowed s t.val stopPound (op2.toNat % 2 ^ 20) = true;
    (Accepted s t.val cmd 10 [(0x18, 4, op0.toNat), (0x1C, 4, op1.toNat), (0x20, 4, op2.toNat)] [2, 3, 5, 6]) ∧ (root) ∧
    (op0.toNat = 5) ∧ ((mode = 5 ∨ mode = 6)) ∧ (¬ allowed)) ∧
    (let s : State := (lk 0 5 2 [] (lkPart 0));
    let t : Fin 16 := 0;
    let cmd : BitVec 16 := (65535 : BitVec 16);
    let op0 : Word := (6 : Word);
    let op1 : Word := (7 : Word);
    let op2 : Word := (0x80000000 : Word);
    let mode := s.rg Reg.WHF_TSTAT_mode t.val;
    let root := s.multi t.val = false ∨ s.isRoot t.val = true;
    let lock := op1.toNat % 2 ^ 24;
    let stopPound := if op0.toNat = 4 then (lock + 1) % 2 ^ 24 else lock;
    let allowed := bit op2.toNat 31 = true ∨ stopAllowed s t.val stopPound (op2.toNat % 2 ^ 20) = true;
    (Accepted s t.val cmd 10 [(0x18, 4, op0.toNat), (0x1C, 4, op1.toNat), (0x20, 4, op2.toNat)] [2, 3, 5, 6]) ∧ (root) ∧
    ((op0.toNat = 6 ∨ (op0.toNat = 5 ∧ allowed))) ∧ (mode = 5)) ∧
    (let s : State := (lk 0 6 2 [] (lkPart 0));
    let t : Fin 16 := 0;
    let cmd : BitVec 16 := (65535 : BitVec 16);
    let op0 : Word := (5 : Word);
    let op1 : Word := (7 : Word);
    let op2 : Word := (0x80000000 : Word);
    let mode := s.rg Reg.WHF_TSTAT_mode t.val;
    let root := s.multi t.val = false ∨ s.isRoot t.val = true;
    let lock := op1.toNat % 2 ^ 24;
    let stopPound := if op0.toNat = 4 then (lock + 1) % 2 ^ 24 else lock;
    let allowed := bit op2.toNat 31 = true ∨ stopAllowed s t.val stopPound (op2.toNat % 2 ^ 20) = true;
    (Accepted s t.val cmd 10 [(0x18, 4, op0.toNat), (0x1C, 4, op1.toNat), (0x20, 4, op2.toNat)] [2, 3, 5, 6]) ∧ (root) ∧
    (op0.toNat = 5) ∧ (mode = 6) ∧ (allowed) ∧ (s.rg Reg.LCK_STATUSt_phase t.val ≠ 4) ∧ (s.rg Reg.LCK_STATUSt_phase t.val ≠ 5)) ∧
    (let s : State := (lk 0 6 2 [] (lkPart 0));
    let t : Fin 16 := 0;
    let cmd : BitVec 16 := (65535 : BitVec 16);
    let op0 : Word := (6 : Word);
    let op1 : Word := (7 : Word);
    let op2 : Word := (0x80000000 : Word);
    let mode := s.rg Reg.WHF_TSTAT_mode t.val;
    let root := s.multi t.val = false ∨ s.isRoot t.val = true;
    (Accepted s t.val cmd 10 [(0x18, 4, op0.toNat), (0x1C, 4, op1.toNat), (0x20, 4, op2.toNat)] [2, 3, 5, 6]) ∧ (root) ∧
    (op0.toNat = 6) ∧ (mode = 6) ∧ (s.rg Reg.LCK_STATUSt_phase t.val ≠ 4) ∧ (s.rg Reg.LCK_STATUSt_phase t.val ≠ 5)) := by
  refine ⟨?_, ?_, ?_, ?_, ?_, ?_, ?_, ?_, ?_, ?_, ?_, ?_, ?_, ?_, ?_⟩ <;>
    (dsimp only <;> and_intros <;> first
      | decide +kernel
      | (constructor <;> decide +kernel))

/-- States and operands that meet the hypotheses of ConfigAndPowerStates. -/
theorem test_meets_ConfigAndPowerStates :
    (let s : State := (on 0 []);
    let mode := s.rg Reg.PWR_MODE_mode 0;
    let state := s.power.linkState;
    let quiet := ∀ c < 64, s.chAtHost c = false;
    (mode = 0) ∧ (state = 0) ∧ (quiet) ∧ (LinkUp s)) ∧
    (let s : State := ({ (on 5 []) with fns := [(15, { d3hot := true })], msix := [(255, { masked := false, pending := true }), (254, { pending := true })] });
    let fn : Fin 16 := 15;
    let f := fn.val;
    let mode := s.rg Reg.PWR_MODE_mode 0;
    (mode ≠ 0) ∧ (LinkUp s) ∧ (¬ FnPresent s f)) ∧
    (let s : State := ({ on 1 [] with power := { State.reset.power with linkState := 1 } });
    let mode := s.rg Reg.PWR_MODE_mode 0;
    let state := s.power.linkState;
    let quiet := ∀ c < 64, s.chAtHost c = false;
    (mode ≠ 0) ∧ (¬ LinkUp s) ∧ (state ≠ 0 ∨ ¬ quiet)) ∧
    (let s : State := (on 5 []);
    let fn : Fin 16 := 15;
    let offset : BitVec 12 := (3 : BitVec 12);
    let d3hot : Bool := true;
    let f := fn.val;
    let mode := s.rg Reg.PWR_MODE_mode 0;
    let x := s.fn f;
    let o := offset.toNat / 4;
    let open_ := mode ≠ 0 ∧ FnPresent s f ∧ LinkUp s;
    (open_) ∧ (o = 0) ∧ (o ∈ [0, 2, 11, 21, 83, 85] ∨ 96 ≤ o) ∧ (d3hot = true) ∧ (x.d3hot = false)) ∧
    (let s : State := (on 5 []);
    let fn : Fin 16 := 15;
    let offset : BitVec 12 := (4 : BitVec 12);
    let f := fn.val;
    let mode := s.rg Reg.PWR_MODE_mode 0;
    let o := offset.toNat / 4;
    let open_ := mode ≠ 0 ∧ FnPresent s f ∧ LinkUp s;
    (open_) ∧ (o = 1)) ∧
    (let s : State := (on 5 []);
    let fn : Fin 16 := 15;
    let offset : BitVec 12 := (11 : BitVec 12);
    let f := fn.val;
    let mode := s.rg Reg.PWR_MODE_mode 0;
    let o := offset.toNat / 4;
    let open_ := mode ≠ 0 ∧ FnPresent s f ∧ LinkUp s;
    (open_) ∧ (o = 2)) ∧
    (let s : State := (on 5 []);
    let fn : Fin 16 := 15;
    let offset : BitVec 12 := (47 : BitVec 12);
    let f := fn.val;
    let mode := s.rg Reg.PWR_MODE_mode 0;
    let o := offset.toNat / 4;
    let open_ := mode ≠ 0 ∧ FnPresent s f ∧ LinkUp s;
    (open_) ∧ (o = 11)) ∧
    (let s : State := (on 1 []);
    let fn : Fin 16 := 0;
    let offset : BitVec 12 := (16 : BitVec 12);
    let f := fn.val;
    let mode := s.rg Reg.PWR_MODE_mode 0;
    let o := offset.toNat / 4;
    let open_ := mode ≠ 0 ∧ FnPresent s f ∧ LinkUp s;
    (open_) ∧ (f = 0) ∧ (o = 4)) ∧
    (let s : State := (on 1 []);
    let fn : Fin 16 := 0;
    let offset : BitVec 12 := (20 : BitVec 12);
    let f := fn.val;
    let mode := s.rg Reg.PWR_MODE_mode 0;
    let o := offset.toNat / 4;
    let open_ := mode ≠ 0 ∧ FnPresent s f ∧ LinkUp s;
    (open_) ∧ (f = 0) ∧ (o = 5)) ∧
    (let s : State := (on 1 []);
    let fn : Fin 16 := 0;
    let offset : BitVec 12 := (24 : BitVec 12);
    let f := fn.val;
    let mode := s.rg Reg.PWR_MODE_mode 0;
    let o := offset.toNat / 4;
    let open_ := mode ≠ 0 ∧ FnPresent s f ∧ LinkUp s;
    (open_) ∧ (f = 0) ∧ (o = 6)) ∧
    (let s : State := (on 1 []);
    let fn : Fin 16 := 0;
    let offset : BitVec 12 := (28 : BitVec 12);
    let f := fn.val;
    let mode := s.rg Reg.PWR_MODE_mode 0;
    let o := offset.toNat / 4;
    let open_ := mode ≠ 0 ∧ FnPresent s f ∧ LinkUp s;
    (open_) ∧ (f = 0) ∧ (o = 7)) ∧
    (let s : State := (on 1 []);
    let fn : Fin 16 := 15;
    let offset : BitVec 12 := (28 : BitVec 12);
    let f := fn.val;
    let mode := s.rg Reg.PWR_MODE_mode 0;
    let o := offset.toNat / 4;
    let open_ := mode ≠ 0 ∧ FnPresent s f ∧ LinkUp s;
    (open_) ∧ (f ≠ 0) ∧ (4 ≤ o) ∧ (o ≤ 7)) ∧
    (let s : State := (on 1 []);
    let fn : Fin 16 := 15;
    let offset : BitVec 12 := (88 : BitVec 12);
    let v : Word := (0x5054 : Word);
    let f := fn.val;
    let mode := s.rg Reg.PWR_MODE_mode 0;
    let o := offset.toNat / 4;
    let open_ := mode ≠ 0 ∧ FnPresent s f ∧ LinkUp s;
    (open_) ∧ (o = 22) ∧ (bit v.toNat 15 = false) ∧ (bits v.toNat 5 3 ≤ 2) ∧ (bits v.toNat 12 3 ≤ 5)) ∧
    (let s : State := (on 1 []);
    let fn : Fin 16 := 0;
    let offset : BitVec 12 := (332 : BitVec 12);
    let f := fn.val;
    let mode := s.rg Reg.PWR_MODE_mode 0;
    let o := offset.toNat / 4;
    let open_ := mode ≠ 0 ∧ FnPresent s f ∧ LinkUp s;
    (open_) ∧ (f = 0) ∧ (o = 83)) ∧
    (let s : State := (on 1 []);
    let fn : Fin 16 := 0;
    let offset : BitVec 12 := (340 : BitVec 12);
    let f := fn.val;
    let mode := s.rg Reg.PWR_MODE_mode 0;
    let o := offset.toNat / 4;
    let open_ := mode ≠ 0 ∧ FnPresent s f ∧ LinkUp s;
    (open_) ∧ (f = 0) ∧ (o = 85)) ∧
    (let s : State := (on 1 []);
    let fn : Fin 16 := 0;
    let offset : BitVec 12 := (336 : BitVec 12);
    let f := fn.val;
    let mode := s.rg Reg.PWR_MODE_mode 0;
    let o := offset.toNat / 4;
    let open_ := mode ≠ 0 ∧ FnPresent s f ∧ LinkUp s;
    (open_) ∧ (f = 0) ∧ (o = 84)) ∧
    (let s : State := (on 1 []);
    let fn : Fin 16 := 0;
    let offset : BitVec 12 := (328 : BitVec 12);
    let v : Word := (0xFFFF7FFF : Word);
    let f := fn.val;
    let mode := s.rg Reg.PWR_MODE_mode 0;
    let x := s.fn f;
    let o := offset.toNat / 4;
    let open_ := mode ≠ 0 ∧ FnPresent s f ∧ LinkUp s;
    (open_) ∧ (f = 0) ∧ (o = 82) ∧ (x.vfEnable = false ∨ bit v.toNat 0 = true)) ∧
    (let s : State := (on 5 []);
    let fn : Fin 16 := 15;
    let offset : BitVec 12 := (4095 : BitVec 12);
    let f := fn.val;
    let mode := s.rg Reg.PWR_MODE_mode 0;
    let o := offset.toNat / 4;
    let open_ := mode ≠ 0 ∧ FnPresent s f ∧ LinkUp s;
    (open_) ∧ (96 ≤ o)) ∧
    (let s : State := (on 1 []);
    let fn : Fin 16 := 0;
    let offset : BitVec 12 := (328 : BitVec 12);
    let v : Word := (0 : Word);
    let f := fn.val;
    let mode := s.rg Reg.PWR_MODE_mode 0;
    let x := s.fn f;
    let o := offset.toNat / 4;
    let open_ := mode ≠ 0 ∧ FnPresent s f ∧ LinkUp s;
    (open_) ∧ (f = 0) ∧ (o = 82) ∧ (x.vfEnable = true) ∧ (bit v.toNat 0 = false) ∧
    ((∀ t < 16, (s.part t).bound = [] ∨ s.loaded t = true))) ∧
    (let s : State := (on 5 []);
    let fn : Fin 16 := 15;
    let d3hot : Bool := false;
    let f := fn.val;
    let mode := s.rg Reg.PWR_MODE_mode 0;
    let x := s.fn f;
    let open_ := mode ≠ 0 ∧ FnPresent s f ∧ LinkUp s;
    (open_) ∧ (d3hot = x.d3hot)) ∧
    (let s : State := ({ (on 1 []) with fns := [(0, { vfEnable := true, numVfs := 15 }), (15, { d3hot := true })], msix := [(255, { masked := false, pending := true }), (254, { pending := true })], irq := [(130, { pending := true, en := true, target := 5 })] });
    let fn : Fin 16 := 15;
    let d3hot : Bool := false;
    let f := fn.val;
    let mode := s.rg Reg.PWR_MODE_mode 0;
    let x := s.fn f;
    let open_ := mode ≠ 0 ∧ FnPresent s f ∧ LinkUp s;
    (open_) ∧ (d3hot = false) ∧ (x.d3hot = true) ∧ ((f ≠ 0 ∨ mode ≠ 5)) ∧ (s.hostRequest = true)) := by
  refine ⟨?_, ?_, ?_, ?_, ?_, ?_, ?_, ?_, ?_, ?_, ?_, ?_, ?_, ?_, ?_, ?_, ?_, ?_, ?_, ?_, ?_⟩ <;> (dsimp only <;> decide +kernel)

/-- States and operands that meet the hypotheses of SluiceChannels. -/
theorem test_meets_SluiceChannels :
    (let s : State := (on 1 [(Reg.SLC_SEL_engine, 0, 3), (Reg.SLC_SEL_channel, 0, 15), (Reg.SLC_CHSTAT_state, 63, 2),
        (Reg.SLC_CHCFG_tenant, 63, 15)]);
    let who : Requester := (Requester.pf);
    let v : Word := (0x80000001 : Word);
    let engine : Fin 4 := 3;
    let c := channelOf s who;
    let state := s.rg Reg.SLC_CHSTAT_state c;
    let busy := state = 1 ∨ state = 2;
    let held := busy ∧ v.toNat % 2 ≠ s.rg Reg.SLC_CHCMD_in_ledger c;
    let q := s.engineQ.get engine.val [];
    let running := fun (n : Nat) => s.rg Reg.SLC_CHSTAT_state (16 * engine.val + n) = 2;
    (Writable s who 0x900010) ∧ (held) ∧ (q = []) ∧ ((∃ n < 16, running n))) ∧
    (let s : State := (on 1 [(Reg.SLC_SEL_engine, 0, 3), (Reg.SLC_SEL_channel, 0, 15), (Reg.SLC_CHSTAT_state, 63, 2),
        (Reg.SLC_CHCFG_tenant, 63, 15), (Reg.SLC_CHCMD_in_ledger, 63, 1)]);
    let who : Requester := (Requester.pf);
    let v : Word := (0x80000001 : Word);
    let c := channelOf s who;
    let state := s.rg Reg.SLC_CHSTAT_state c;
    let busy := state = 1 ∨ state = 2;
    let held := busy ∧ v.toNat % 2 ≠ s.rg Reg.SLC_CHCMD_in_ledger c;
    (Writable s who 0x900010) ∧ (¬ held) ∧ (bit v.toNat 31 = true) ∧ (bit v.toNat 30 = false) ∧ (busy)) ∧
    (let s : State := (on 1 [(Reg.SLC_SEL_engine, 0, 3), (Reg.SLC_SEL_channel, 0, 15), (Reg.SLC_CHSTAT_state, 63, 3),
        (Reg.SLC_CHCFG_tenant, 63, 15), (Reg.SLC_CHCMD_in_ledger, 63, 1)]);
    let who : Requester := (Requester.pf);
    let v : Word := (0x80000001 : Word);
    let ch : Fin 64 := 63;
    let c := channelOf s who;
    let state := s.rg Reg.SLC_CHSTAT_state c;
    let busy := state = 1 ∨ state = 2;
    let held := busy ∧ v.toNat % 2 ≠ s.rg Reg.SLC_CHCMD_in_ledger c;
    let y := s.chan ch.val;
    (Writable s who 0x900010) ∧ (¬ held) ∧ (bit v.toNat 31 = true) ∧ (bit v.toNat 30 = false) ∧ (¬ busy) ∧
    (¬ (s.rg Reg.SLC_CHSTAT_state ch.val = 2 ∧ y.desc = none))) ∧
    (let s : State := (on 1 [(Reg.SLC_SEL_engine, 0, 3), (Reg.SLC_SEL_channel, 0, 15), (Reg.SLC_CHSTAT_state, 63, 1),
        (Reg.SLC_CHCFG_tenant, 63, 15)]);
    let who : Requester := (Requester.pf);
    let v : Word := (0x40000000 : Word);
    let c := channelOf s who;
    let state := s.rg Reg.SLC_CHSTAT_state c;
    let busy := state = 1 ∨ state = 2;
    let held := busy ∧ v.toNat % 2 ≠ s.rg Reg.SLC_CHCMD_in_ledger c;
    (Writable s who 0x900010) ∧ (¬ held) ∧ (bit v.toNat 31 = false) ∧ (bit v.toNat 30 = true) ∧ (state = 1)) ∧
    (let s : State := (on 1 [(Reg.SLC_SEL_engine, 0, 3), (Reg.SLC_SEL_channel, 0, 15), (Reg.SLC_CHSTAT_state, 63, 2),
        (Reg.SLC_CHCFG_tenant, 63, 15)]);
    let who : Requester := (Requester.pf);
    let v : Word := (0x40000000 : Word);
    let c := channelOf s who;
    let x := s.chan c;
    let state := s.rg Reg.SLC_CHSTAT_state c;
    let busy := state = 1 ∨ state = 2;
    let held := busy ∧ v.toNat % 2 ≠ s.rg Reg.SLC_CHCMD_in_ledger c;
    (Writable s who 0x900010) ∧ (¬ held) ∧ (bit v.toNat 31 = false) ∧ (bit v.toNat 30 = true) ∧ (state = 2) ∧ (x.waiting = 0)) ∧
    (let s : State := ({ (on 1 [(Reg.SLC_SEL_engine, 0, 3), (Reg.SLC_SEL_channel, 0, 15), (Reg.SLC_CHSTAT_state, 63, 2), (Reg.SLC_CHCFG_tenant, 63, 15)]) with channels := [(63, { waiting := 1 })] });
    let who : Requester := (Requester.pf);
    let v : Word := (0x40000000 : Word);
    let c := channelOf s who;
    let x := s.chan c;
    let state := s.rg Reg.SLC_CHSTAT_state c;
    let busy := state = 1 ∨ state = 2;
    let held := busy ∧ v.toNat % 2 ≠ s.rg Reg.SLC_CHCMD_in_ledger c;
    (Writable s who 0x900010) ∧ (¬ held) ∧ (bit v.toNat 31 = false) ∧ (bit v.toNat 30 = true) ∧ (state = 2) ∧ (x.waiting ≠ 0)) ∧
    (let s : State := (on 1 [(Reg.SLC_SEL_engine, 0, 3), (Reg.SLC_SEL_channel, 0, 15), (Reg.SLC_CHSTAT_state, 63, 0),
        (Reg.SLC_CHCFG_tenant, 63, 15)]);
    let who : Requester := (Requester.pf);
    let v : Word := (0x40000000 : Word);
    let c := channelOf s who;
    let state := s.rg Reg.SLC_CHSTAT_state c;
    let busy := state = 1 ∨ state = 2;
    let held := busy ∧ v.toNat % 2 ≠ s.rg Reg.SLC_CHCMD_in_ledger c;
    (Writable s who 0x900010) ∧ (¬ held) ∧ (bit v.toNat 31 = false) ∧ (bit v.toNat 30 = true) ∧ (¬ busy)) ∧
    (let s : State := ({ (on 1 [(Reg.SLC_SEL_engine, 0, 3), (Reg.SLC_SEL_channel, 0, 15), (Reg.SLC_CHSTAT_state, 63, 1), (Reg.SLC_CHCFG_tenant, 63, 15)]) with engineQ := [(3, [15])] });
    let engine : Fin 4 := 3;
    let q := s.engineQ.get engine.val [];
    let running := fun (n : Nat) => s.rg Reg.SLC_CHSTAT_state (16 * engine.val + n) = 2;
    let n := 15;
    (n ∈ q.head?) ∧ ((¬ ∃ n < 16, running n))) ∧
    (let s : State := ({ (on 1 [(Reg.SLC_SEL_engine, 0, 3), (Reg.SLC_SEL_channel, 0, 15), (Reg.SLC_CHSTAT_state, 63, 2), (Reg.SLC_CHCFG_tenant, 63, 15)]) with fns := [(15, { busMaster := true })] });
    let ch : Fin 64 := 63;
    let bytes : BitVec 512 := (dsc 0 0 5 0 0 2 0 0 0 0 0 0);
    let bad : Bool := true;
    let y := s.chan ch.val;
    let tenant := s.rg Reg.SLC_CHCFG_tenant ch.val;
    let d := if y.nextLedger then BitVec.ofNat 512 (ofLe (s.hbmGet (s.bufAddr (bits y.next 0 16) + bits y.next 16 12) 64)) else bytes;
    let priv := s.on Reg.SLC_CHCFG_priv ch.val;
    let spn := if priv = true ∧ s.rg Reg.WHF_TSTAT_mode tenant = 0 then 0 else s.rg Reg.AQ_SPNt_spn tenant;
    let shut := (s.fn tenant).d3hot = true ∨ (s.fn tenant).busMaster = false;
    let fails : Option Nat := if y.stopping then some 7 else if (if y.nextLedger then bits y.next 16 12 else y.next) % 64 ≠ 0 then some 4 else if y.nextLedger = true ∧
      s.chMay ch.val (bits y.next 0 16) = false then some 5 else if y.nextLedger = false ∧
      shut then some 9 else if bad then some 2 else if dfield d 0x3C 0 32 ≠ crcOf 0 (leBytes 60 d.toNat) then some 3 else if dLegal d = false then some 4 else if (dSrcKind d = 3 ∨ dDstKind d = 3) ∧
      priv = false then some 6 else if (dSrcKind d = 4 ∨ dDstKind d = 4) ∧ spn = 0 ∧
      priv = false then some 6 else if (dSrcKind d = 0 ∨ dDstKind d = 0) ∧ shut then some 9 else if dFlag d 2 = true ∧
      ¬ (s.rg Reg.CHK_ASSIGNu_kind (dTapUnit d) = 2 ∧ s.rg Reg.CHK_ASSIGNu_id (dTapUnit d) = ch.val) then some 10 else none;
    (s.rg Reg.SLC_CHSTAT_state ch.val = 2) ∧ (y.desc = none) ∧
    (let st := 2;
    (st ∈ fails))) ∧
    (let s : State := ({ (on 1 [(Reg.SLC_SEL_engine, 0, 3), (Reg.SLC_SEL_channel, 0, 15), (Reg.SLC_CHSTAT_state, 63, 2), (Reg.SLC_CHCFG_tenant, 63, 15)]) with fns := [(15, { busMaster := true })] });
    let ch : Fin 64 := 63;
    let bytes : BitVec 512 := (dsc 0 0 5 0 0 2 0 0 0 0 0 0);
    let bad : Bool := false;
    let y := s.chan ch.val;
    let tenant := s.rg Reg.SLC_CHCFG_tenant ch.val;
    let d := if y.nextLedger then BitVec.ofNat 512 (ofLe (s.hbmGet (s.bufAddr (bits y.next 0 16) + bits y.next 16 12) 64)) else bytes;
    let priv := s.on Reg.SLC_CHCFG_priv ch.val;
    let spn := if priv = true ∧ s.rg Reg.WHF_TSTAT_mode tenant = 0 then 0 else s.rg Reg.AQ_SPNt_spn tenant;
    let shut := (s.fn tenant).d3hot = true ∨ (s.fn tenant).busMaster = false;
    let fails : Option Nat := if y.stopping then some 7 else if (if y.nextLedger then bits y.next 16 12 else y.next) % 64 ≠ 0 then some 4 else if y.nextLedger = true ∧
      s.chMay ch.val (bits y.next 0 16) = false then some 5 else if y.nextLedger = false ∧
      shut then some 9 else if bad then some 2 else if dfield d 0x3C 0 32 ≠ crcOf 0 (leBytes 60 d.toNat) then some 3 else if dLegal d = false then some 4 else if (dSrcKind d = 3 ∨ dDstKind d = 3) ∧
      priv = false then some 6 else if (dSrcKind d = 4 ∨ dDstKind d = 4) ∧ spn = 0 ∧
      priv = false then some 6 else if (dSrcKind d = 0 ∨ dDstKind d = 0) ∧ shut then some 9 else if dFlag d 2 = true ∧
      ¬ (s.rg Reg.CHK_ASSIGNu_kind (dTapUnit d) = 2 ∧ s.rg Reg.CHK_ASSIGNu_id (dTapUnit d) = ch.val) then some 10 else none;
    (s.rg Reg.SLC_CHSTAT_state ch.val = 2) ∧ (y.desc = none) ∧ (fails = none)) := by
  refine ⟨?_, ?_, ?_, ?_, ?_, ?_, ?_, ?_, ?_, ?_⟩ <;> (dsimp only <;> decide +kernel)

/-- States and operands that meet the hypotheses of SluiceElements. -/
theorem test_meets_SluiceElements :
    (let s : State := (on 1 [(Reg.SLC_SEL_engine, 0, 3), (Reg.SLC_SEL_channel, 0, 15), (Reg.SLC_CHSTAT_state, 63, 2),
        (Reg.SLC_CHCFG_tenant, 63, 15)]);
    let ch : Fin 64 := 63;
    let succeeds : Bool := true;
    let c := ch.val;
    let x := s.chan c;
    let running := s.rg Reg.SLC_CHSTAT_state c = 2;
    let retries := s.rg Reg.SLC_CHCFG_retries c;
    (x.desc = none) ∧ (running) ∧ (x.nextLedger = false) ∧ (x.tries < retries) ∧ (succeeds = true) ∧ (x.waiting = 0)) ∧
    (let s : State := ({ (on 1 [(Reg.SLC_SEL_engine, 0, 3), (Reg.SLC_SEL_channel, 0, 15), (Reg.SLC_CHSTAT_state, 63, 2), (Reg.SLC_CHCFG_tenant, 63, 15)]) with channels := [(63, { nextLedger := true })] });
    let ch : Fin 64 := 63;
    let c := ch.val;
    let x := s.chan c;
    let running := s.rg Reg.SLC_CHSTAT_state c = 2;
    (x.desc = none) ∧ (running) ∧ (x.nextLedger = true)) ∧
    (let s : State := ({ (on 1 [(Reg.SLC_SEL_engine, 0, 3), (Reg.SLC_SEL_channel, 0, 15), (Reg.SLC_CHSTAT_state, 63, 2), (Reg.SLC_CHCFG_tenant, 63, 15)]) with channels := [(63, { nextLedger := false, tries := 255 })] });
    let ch : Fin 64 := 63;
    let c := ch.val;
    let x := s.chan c;
    let running := s.rg Reg.SLC_CHSTAT_state c = 2;
    let retries := s.rg Reg.SLC_CHCFG_retries c;
    (x.desc = none) ∧ (running) ∧ (x.nextLedger = false) ∧ (retries ≤ x.tries)) ∧
    (let s : State := ({ (on 1 [(Reg.SLC_SEL_engine, 0, 3), (Reg.SLC_SEL_channel, 0, 15), (Reg.SLC_CHSTAT_state, 63, 0), (Reg.SLC_CHCFG_tenant, 63, 15)]) with channels := [(63, { desc := some (dsc 0 0 5 0 0 2 0x40 0 0 0 0 0) })] });
    let ch : Fin 64 := 63;
    let c := ch.val;
    let running := s.rg Reg.SLC_CHSTAT_state c = 2;
    (¬ running)) ∧
    (let s : State := ({ (on 1 [(Reg.SLC_SEL_engine, 0, 3), (Reg.SLC_SEL_channel, 0, 15), (Reg.SLC_CHSTAT_state, 63, 2), (Reg.SLC_CHCFG_tenant, 63, 15)]) with channels := [(63, { desc := some (dsc 0 0 5 0 0 2 0x40 0 0 0 0 0), element := 1 })] });
    let ch : Fin 64 := 63;
    let succeeds : Bool := true;
    let c := ch.val;
    let x := s.chan c;
    let running := s.rg Reg.SLC_CHSTAT_state c = 2;
    let retries := s.rg Reg.SLC_CHCFG_retries c;
    let d := (dsc 0 0 5 0 0 2 0x40 0 0 0 0 0);
    (d ∈ x.desc) ∧ (running) ∧
    (let go := x.waiting = 0 ∧ x.element < dCount d;
    let onBus := x.waiting ≠ 0 ∨ dSrcKind d = 0 ∨ dDstKind d = 0;
    (¬ go) ∧ (x.element = dCount d) ∧ (x.waiting ≠ 1) ∧ (x.waiting ≠ 3) ∧ (x.waiting ≠ 2) ∧ (onBus) ∧ (x.tries < retries) ∧
    (succeeds = true))) ∧
    (let s : State := ({ (on 1 [(Reg.SLC_SEL_engine, 0, 3), (Reg.SLC_SEL_channel, 0, 15), (Reg.SLC_CHSTAT_state, 63, 2), (Reg.SLC_CHCFG_tenant, 63, 15)]) with channels := [(63, { desc := some (dsc 0 0 5 0 0 2 0x40 0 0 0 0 0) })] });
    let ch : Fin 64 := 63;
    let c := ch.val;
    let x := s.chan c;
    let running := s.rg Reg.SLC_CHSTAT_state c = 2;
    let tenant := s.rg Reg.SLC_CHCFG_tenant c;
    let shut := (s.fn tenant).d3hot = true ∨ (s.fn tenant).busMaster = false;
    let d := (dsc 0 0 5 0 0 2 0x40 0 0 0 0 0);
    (d ∈ x.desc) ∧ (running) ∧
    (let go := x.waiting = 0 ∧ x.element < dCount d;
    (go) ∧ (dSrcKind d = 0) ∧ (shut) ∧ (x.element ≠ dCount d))) ∧
    (let s : State := ({ (on 1 [(Reg.SLC_SEL_engine, 0, 3), (Reg.SLC_SEL_channel, 0, 15), (Reg.SLC_CHSTAT_state, 63, 2), (Reg.SLC_CHCFG_tenant, 63, 15)]) with channels := [(63, { desc := some (dsc 0 0 5 0 0 2 0x40 0 0 0 0 0) })], fns := [(15, { busMaster := true })] });
    let ch : Fin 64 := 63;
    let bad : Bool := true;
    let c := ch.val;
    let x := s.chan c;
    let running := s.rg Reg.SLC_CHSTAT_state c = 2;
    let tenant := s.rg Reg.SLC_CHCFG_tenant c;
    let shut := (s.fn tenant).d3hot = true ∨ (s.fn tenant).busMaster = false;
    let d := (dsc 0 0 5 0 0 2 0x40 0 0 0 0 0);
    (d ∈ x.desc) ∧ (running) ∧
    (let go := x.waiting = 0 ∧ x.element < dCount d;
    (go) ∧ (dSrcKind d = 0) ∧ (dSrcPat d ≠ 2) ∧ (¬ shut) ∧ (bad = true))) ∧
    (let s : State := ({ (on 1 [(Reg.SLC_SEL_engine, 0, 3), (Reg.SLC_SEL_channel, 0, 15), (Reg.SLC_CHSTAT_state, 63, 2), (Reg.SLC_CHCFG_tenant, 63, 15)]) with channels := [(63, { desc := some (dsc 0 0 5 0 0 2 0x40 0 0 0 0 0) })], fns := [(15, { busMaster := true })] });
    let ch : Fin 64 := 63;
    let source : List Byte := ([] : List Byte);
    let bad : Bool := false;
    let c := ch.val;
    let x := s.chan c;
    let running := s.rg Reg.SLC_CHSTAT_state c = 2;
    let tenant := s.rg Reg.SLC_CHCFG_tenant c;
    let shut := (s.fn tenant).d3hot = true ∨ (s.fn tenant).busMaster = false;
    let d := (dsc 0 0 5 0 0 2 0x40 0 0 0 0 0);
    (d ∈ x.desc) ∧ (running) ∧
    (let n := dSize d;
    let go := x.waiting = 0 ∧ x.element < dCount d;
    (go) ∧ (dSrcKind d = 0) ∧ (dSrcPat d ≠ 2) ∧ (¬ shut) ∧ (bad = false) ∧ (source.length ≠ n))) ∧
    (let s : State := ({ (on 1 [(Reg.SLC_SEL_engine, 0, 3), (Reg.SLC_SEL_channel, 0, 15), (Reg.SLC_CHSTAT_state, 63, 2), (Reg.SLC_CHCFG_tenant, 63, 15)]) with channels := [(63, { desc := some (dsc 0 0 5 0 0 2 0x40 0 0 0 0 0) })], fns := [(15, { busMaster := true })] });
    let ch : Fin 64 := 63;
    let source : List Byte := ([1, 2] : List Byte);
    let bad : Bool := false;
    let c := ch.val;
    let x := s.chan c;
    let running := s.rg Reg.SLC_CHSTAT_state c = 2;
    let tenant := s.rg Reg.SLC_CHCFG_tenant c;
    let shut := (s.fn tenant).d3hot = true ∨ (s.fn tenant).busMaster = false;
    let d := (dsc 0 0 5 0 0 2 0x40 0 0 0 0 0);
    (d ∈ x.desc) ∧ (running) ∧
    (let n := dSize d;
    let go := x.waiting = 0 ∧ x.element < dCount d;
    let toHere := dDstKind d ≠ 4 ∧ (dDstKind d = 0 → ¬ shut) ∧
      (1 ≤ dDstKind d → dDstKind d ≤ 3 → (s.chCells c (dDstKind d) (dDst d) (sideOffset x d (dDstPat d) (dDstStride d)) n).toOption.isSome = true);
    let plain := dFlag d 2 = false ∧ (dFlag d 6 = false ∨ dSrcKind d ≠ 2 ∨ x.element + 1 ≠ dCount d);
    (go) ∧ (dSrcKind d = 0) ∧ (dSrcPat d ≠ 2) ∧ (¬ shut) ∧ (bad = false) ∧ (source.length = n) ∧ (plain) ∧ (toHere))) ∧
    (let s : State := ({ (on 1 [(Reg.SLC_SEL_engine, 0, 3), (Reg.SLC_SEL_channel, 0, 15), (Reg.SLC_CHSTAT_state, 63, 2), (Reg.SLC_CHCFG_tenant, 63, 15)]) with channels := [(63, { desc := some (dsc 0 2 5 0 0 4 0x40 0 2 0 0 0) })], fns := [(15, { busMaster := true })] });
    let ch : Fin 64 := 63;
    let index : Word := (0x1000000 : Word);
    let c := ch.val;
    let x := s.chan c;
    let running := s.rg Reg.SLC_CHSTAT_state c = 2;
    let tenant := s.rg Reg.SLC_CHCFG_tenant c;
    let shut := (s.fn tenant).d3hot = true ∨ (s.fn tenant).busMaster = false;
    let d := (dsc 0 2 5 0 0 4 0x40 0 2 0 0 0);
    (d ∈ x.desc) ∧ (running) ∧
    (let go := x.waiting = 0 ∧ x.element < dCount d;
    (go) ∧ (dSrcKind d = 0) ∧ (dSrcPat d = 2) ∧ (¬ shut) ∧ (2 ^ 24 ≤ index.toNat))) ∧
    (let s : State := ({ (on 1 [(Reg.SLC_SEL_engine, 0, 3), (Reg.SLC_SEL_channel, 0, 15), (Reg.SLC_CHSTAT_state, 63, 2), (Reg.SLC_CHCFG_tenant, 63, 15)]) with channels := [(63, { desc := some (dsc 0 2 5 0 0 4 0x40 0 2 0 0 0) })], fns := [(15, { busMaster := true })] });
    let ch : Fin 64 := 63;
    let source : List Byte := ([1, 2] : List Byte);
    let index : Word := (0xFFFFFF : Word);
    let bad : Bool := false;
    let c := ch.val;
    let x := s.chan c;
    let running := s.rg Reg.SLC_CHSTAT_state c = 2;
    let tenant := s.rg Reg.SLC_CHCFG_tenant c;
    let shut := (s.fn tenant).d3hot = true ∨ (s.fn tenant).busMaster = false;
    let d := (dsc 0 2 5 0 0 4 0x40 0 2 0 0 0);
    (d ∈ x.desc) ∧ (running) ∧
    (let n := dSize d;
    let go := x.waiting = 0 ∧ x.element < dCount d;
    let toHere := dDstKind d ≠ 4 ∧ (dDstKind d = 0 → ¬ shut) ∧
      (1 ≤ dDstKind d → dDstKind d ≤ 3 → (s.chCells c (dDstKind d) (dDst d) (sideOffset x d (dDstPat d) (dDstStride d)) n).toOption.isSome = true);
    let plain := dFlag d 2 = false ∧ (dFlag d 6 = false ∨ dSrcKind d ≠ 2 ∨ x.element + 1 ≠ dCount d);
    (go) ∧ (dSrcKind d = 0) ∧ (dSrcPat d = 2) ∧ (¬ shut) ∧ (index.toNat < 2 ^ 24) ∧ (bad = false) ∧ (source.length = n) ∧ (plain) ∧
    (toHere))) ∧
    (let s : State := ({ (on 1 [(Reg.SLC_SEL_engine, 0, 3), (Reg.SLC_SEL_channel, 0, 15), (Reg.SLC_CHSTAT_state, 63, 2), (Reg.SLC_CHCFG_tenant, 63, 15)]) with channels := [(63, { desc := some (dsc 3 0 5 0 0 2 0x40 0 0 0 0 0) })] });
    let ch : Fin 64 := 63;
    let bad : Bool := true;
    let c := ch.val;
    let x := s.chan c;
    let running := s.rg Reg.SLC_CHSTAT_state c = 2;
    let d := (dsc 3 0 5 0 0 2 0x40 0 0 0 0 0);
    (d ∈ x.desc) ∧ (running) ∧
    (let n := dSize d;
    let go := x.waiting = 0 ∧ x.element < dCount d;
    let srcAt := sideOffset x d (dSrcPat d) (dSrcStride d);
    let onBus := x.waiting ≠ 0 ∨ dSrcKind d = 0 ∨ dDstKind d = 0;
    (go) ∧ (1 ≤ dSrcKind d) ∧ (dSrcKind d ≤ 3) ∧ (dSrcPat d ≠ 2) ∧
    (let l := ([0, 0] : List Byte);
    (l ∈ (s.chRead c (dSrcKind d) (dSrc d) srcAt n).toOption) ∧ (bad = true) ∧ (¬ onBus)))) ∧
    (let s : State := ({ (on 1 [(Reg.SLC_SEL_engine, 0, 3), (Reg.SLC_SEL_channel, 0, 15), (Reg.SLC_CHSTAT_state, 63, 2), (Reg.SLC_CHCFG_tenant, 63, 15)]) with channels := [(63, { desc := some (dsc 3 0 5 0 0 2 0x40 0 0 0 0 0) })] });
    let ch : Fin 64 := 63;
    let bad : Bool := false;
    let c := ch.val;
    let x := s.chan c;
    let running := s.rg Reg.SLC_CHSTAT_state c = 2;
    let tenant := s.rg Reg.SLC_CHCFG_tenant c;
    let shut := (s.fn tenant).d3hot = true ∨ (s.fn tenant).busMaster = false;
    let d := (dsc 3 0 5 0 0 2 0x40 0 0 0 0 0);
    (d ∈ x.desc) ∧ (running) ∧
    (let n := dSize d;
    let go := x.waiting = 0 ∧ x.element < dCount d;
    let srcAt := sideOffset x d (dSrcPat d) (dSrcStride d);
    let toHere := dDstKind d ≠ 4 ∧ (dDstKind d = 0 → ¬ shut) ∧
      (1 ≤ dDstKind d → dDstKind d ≤ 3 → (s.chCells c (dDstKind d) (dDst d) (sideOffset x d (dDstPat d) (dDstStride d)) n).toOption.isSome = true);
    let plain := dFlag d 2 = false ∧ (dFlag d 6 = false ∨ dSrcKind d ≠ 2 ∨ x.element + 1 ≠ dCount d);
    (go) ∧ (1 ≤ dSrcKind d) ∧ (dSrcKind d ≤ 3) ∧ (dSrcPat d ≠ 2) ∧
    (let l := ([0, 0] : List Byte);
    (l ∈ (s.chRead c (dSrcKind d) (dSrc d) srcAt n).toOption) ∧ (bad = false) ∧ (plain) ∧ (toHere)))) ∧
    (let s : State := ({ (on 1 [(Reg.SLC_SEL_engine, 0, 3), (Reg.SLC_SEL_channel, 0, 15), (Reg.SLC_CHSTAT_state, 63, 2), (Reg.SLC_CHCFG_tenant, 63, 15)]) with channels := [(63, { desc := some (dsc 3 0 5 0 4 2 0x40 0 0 0 0 0) })] });
    let ch : Fin 64 := 63;
    let bad : Bool := false;
    let c := ch.val;
    let x := s.chan c;
    let running := s.rg Reg.SLC_CHSTAT_state c = 2;
    let d := (dsc 3 0 5 0 4 2 0x40 0 0 0 0 0);
    (d ∈ x.desc) ∧ (running) ∧
    (let n := dSize d;
    let go := x.waiting = 0 ∧ x.element < dCount d;
    let srcAt := sideOffset x d (dSrcPat d) (dSrcStride d);
    (go) ∧ (1 ≤ dSrcKind d) ∧ (dSrcKind d ≤ 3) ∧ (dSrcPat d ≠ 2) ∧
    (let l := ([0, 0] : List Byte);
    (l ∈ (s.chRead c (dSrcKind d) (dSrc d) srcAt n).toOption) ∧ (bad = false) ∧ (dFlag d 2 = true) ∧ (dFlag d 6 = false) ∧
    (dDstKind d = 5)))) ∧
    (let s : State := ({ (on 1 [(Reg.SLC_SEL_engine, 0, 3), (Reg.SLC_SEL_channel, 0, 15), (Reg.SLC_CHSTAT_state, 63, 2), (Reg.SLC_CHCFG_tenant, 63, 15)]) with channels := [(63, { desc := some (dsc 2 0 5 0 64 2 65503 0 0 0 0 0) })], ledger := { tags := [(65503, BitVec.ofNat 16 0xFFF7)] } });
    let ch : Fin 64 := 63;
    let bad : Bool := false;
    let c := ch.val;
    let x := s.chan c;
    let running := s.rg Reg.SLC_CHSTAT_state c = 2;
    let d := (dsc 2 0 5 0 64 2 65503 0 0 0 0 0);
    (d ∈ x.desc) ∧ (running) ∧
    (let n := dSize d;
    let go := x.waiting = 0 ∧ x.element < dCount d;
    let srcAt := sideOffset x d (dSrcPat d) (dSrcStride d);
    (go) ∧ (1 ≤ dSrcKind d) ∧ (dSrcKind d ≤ 3) ∧ (dSrcPat d ≠ 2) ∧
    (let l := ([0, 0] : List Byte);
    (l ∈ (s.chRead c (dSrcKind d) (dSrc d) srcAt n).toOption) ∧ (bad = false) ∧ (dFlag d 2 = false) ∧ (dFlag d 6 = true) ∧
    (dSrcKind d = 2) ∧ (x.element + 1 = dCount d) ∧ (dDstKind d = 5) ∧ (s.tag (bits (dSrc d) 0 16) / 2 ^ 8 = 0xC0 + c) ∧
    (bits (dSrc d) 0 16 < 65504)))) ∧
    (let s : State := ({ (on 1 [(Reg.SLC_SEL_engine, 0, 3), (Reg.SLC_SEL_channel, 0, 15), (Reg.SLC_CHSTAT_state, 63, 2), (Reg.SLC_CHCFG_tenant, 63, 15)]) with channels := [(63, { desc := some (dsc 2 0 5 0 64 2 65503 0 0 0 0 0) })] });
    let ch : Fin 64 := 63;
    let c := ch.val;
    let x := s.chan c;
    let running := s.rg Reg.SLC_CHSTAT_state c = 2;
    let d := (dsc 2 0 5 0 64 2 65503 0 0 0 0 0);
    (d ∈ x.desc) ∧ (running) ∧
    (let n := dSize d;
    let go := x.waiting = 0 ∧ x.element < dCount d;
    let srcAt := sideOffset x d (dSrcPat d) (dSrcStride d);
    (go) ∧ (1 ≤ dSrcKind d) ∧ (dSrcKind d ≤ 3) ∧ (dSrcPat d ≠ 2) ∧ ((s.chRead c (dSrcKind d) (dSrc d) srcAt n).toOption = none) ∧
    (dSrcKind d = 2) ∧ (s.chMay c (bits (dSrc d) 0 16) = false))) ∧
    (let s : State := ({ (on 1 [(Reg.SLC_SEL_engine, 0, 3), (Reg.SLC_SEL_channel, 0, 15), (Reg.SLC_CHSTAT_state, 63, 2), (Reg.SLC_CHCFG_tenant, 63, 15)]) with channels := [(63, { desc := some (dsc 4 0 5 0 0 2 0x7FF000005 0 0 0 0 0) })] });
    let ch : Fin 64 := 63;
    let c := ch.val;
    let x := s.chan c;
    let running := s.rg Reg.SLC_CHSTAT_state c = 2;
    let d := (dsc 4 0 5 0 0 2 0x7FF000005 0 0 0 0 0);
    (d ∈ x.desc) ∧ (running) ∧
    (let go := x.waiting = 0 ∧ x.element < dCount d;
    let srcAt := sideOffset x d (dSrcPat d) (dSrcStride d);
    (go) ∧ (dSrcKind d = 4) ∧ (dSrcPat d ≠ 2) ∧ (bits (dSrc d) 24 11 + srcAt / 2 < 2048))) ∧
    (let s : State := ({ (on 1 [(Reg.SLC_SEL_engine, 0, 3), (Reg.SLC_SEL_channel, 0, 15), (Reg.SLC_CHSTAT_state, 63, 2), (Reg.SLC_CHCFG_tenant, 63, 15)]) with channels := [(63, { desc := some (dsc 4 0 5 0 0 2 0x7FF000005 0 0 0 0 0), waiting := 1 })] });
    let ch : Fin 64 := 63;
    let status : BitVec 3 := (7 : BitVec 3);
    let c := ch.val;
    let x := s.chan c;
    let running := s.rg Reg.SLC_CHSTAT_state c = 2;
    let d := (dsc 4 0 5 0 0 2 0x7FF000005 0 0 0 0 0);
    (d ∈ x.desc) ∧ (running) ∧ (x.waiting = 1) ∧ (status ≠ 0)) ∧
    (let s : State := ({ (on 1 [(Reg.SLC_SEL_engine, 0, 3), (Reg.SLC_SEL_channel, 0, 15), (Reg.SLC_CHSTAT_state, 63, 2), (Reg.SLC_CHCFG_tenant, 63, 15)]) with channels := [(63, { desc := some (dsc 4 0 5 0 0 2 0x7FF000005 0 0 0 0 0), waiting := 1 })] });
    let ch : Fin 64 := 63;
    let status : BitVec 3 := (0 : BitVec 3);
    let cells : List Cell := ([] : List Cell);
    let c := ch.val;
    let x := s.chan c;
    let running := s.rg Reg.SLC_CHSTAT_state c = 2;
    let d := (dsc 4 0 5 0 0 2 0x7FF000005 0 0 0 0 0);
    (d ∈ x.desc) ∧ (running) ∧
    (let n := dSize d;
    let part := min 19 ((n - x.got) / 2);
    (x.waiting = 1) ∧ (status = 0) ∧ (cells.length ≠ part))) ∧
    (let s : State := ({ (on 1 [(Reg.SLC_SEL_engine, 0, 3), (Reg.SLC_SEL_channel, 0, 15), (Reg.SLC_CHSTAT_state, 63, 2), (Reg.SLC_CHCFG_tenant, 63, 15)]) with channels := [(63, { desc := some (dsc 4 0 5 0 0 2 0x7FF000005 0 0 0 0 0), waiting := 1 })] });
    let ch : Fin 64 := 63;
    let status : BitVec 3 := (0 : BitVec 3);
    let cells : List Cell := [4095];
    let c := ch.val;
    let x := s.chan c;
    let running := s.rg Reg.SLC_CHSTAT_state c = 2;
    let tenant := s.rg Reg.SLC_CHCFG_tenant c;
    let shut := (s.fn tenant).d3hot = true ∨ (s.fn tenant).busMaster = false;
    let d := (dsc 4 0 5 0 0 2 0x7FF000005 0 0 0 0 0);
    (d ∈ x.desc) ∧ (running) ∧
    (let n := dSize d;
    let toHere := dDstKind d ≠ 4 ∧ (dDstKind d = 0 → ¬ shut) ∧
      (1 ≤ dDstKind d → dDstKind d ≤ 3 → (s.chCells c (dDstKind d) (dDst d) (sideOffset x d (dDstPat d) (dDstStride d)) n).toOption.isSome = true);
    let plain := dFlag d 2 = false ∧ (dFlag d 6 = false ∨ dSrcKind d ≠ 2 ∨ x.element + 1 ≠ dCount d);
    let part := min 19 ((n - x.got) / 2);
    (x.waiting = 1) ∧ (status = 0) ∧ (cells.length = part) ∧
    (let l := x.buf ++ cells.flatMap fun y => leBytes 2 y.toNat;
    (l.length = n) ∧ (plain) ∧ (toHere)))) ∧
    (let s : State := ({ (on 1 [(Reg.SLC_SEL_engine, 0, 3), (Reg.SLC_SEL_channel, 0, 15), (Reg.SLC_CHSTAT_state, 63, 2), (Reg.SLC_CHCFG_tenant, 63, 15)]) with channels := [(63, { desc := some (dsc 4 1 5 0 0 40 0 0 40 2 0 0), waiting := 1 })] });
    let ch : Fin 64 := 63;
    let status : BitVec 3 := (0 : BitVec 3);
    let cells : List Cell := (List.replicate 19 4095);
    let c := ch.val;
    let x := s.chan c;
    let running := s.rg Reg.SLC_CHSTAT_state c = 2;
    let d := (dsc 4 1 5 0 0 40 0 0 40 2 0 0);
    (d ∈ x.desc) ∧ (running) ∧
    (let n := dSize d;
    let srcAt := sideOffset x d (dSrcPat d) (dSrcStride d);
    let part := min 19 ((n - x.got) / 2);
    (x.waiting = 1) ∧ (status = 0) ∧ (cells.length = part) ∧
    (let l := x.buf ++ cells.flatMap fun y => leBytes 2 y.toNat;
    let o := bits (dSrc d) 24 11 + (srcAt + l.length) / 2;
    (l.length ≠ n) ∧ (o < 2048)))) ∧
    (let s : State := ({ (on 1 [(Reg.SLC_SEL_engine, 0, 3), (Reg.SLC_SEL_channel, 0, 15), (Reg.SLC_CHSTAT_state, 63, 2), (Reg.SLC_CHCFG_tenant, 63, 15)]) with channels := [(63, { desc := some (dsc 3 0 4 0 0 2 0 0 0 0 0 0), waiting := 2 })] });
    let ch : Fin 64 := 63;
    let status : BitVec 3 := (6 : BitVec 3);
    let c := ch.val;
    let x := s.chan c;
    let running := s.rg Reg.SLC_CHSTAT_state c = 2;
    let d := (dsc 3 0 4 0 0 2 0 0 0 0 0 0);
    (d ∈ x.desc) ∧ (running) ∧ (x.waiting = 2) ∧ (status ≠ 0)) ∧
    (let s : State := ({ (on 1 [(Reg.SLC_SEL_engine, 0, 3), (Reg.SLC_SEL_channel, 0, 15), (Reg.SLC_CHSTAT_state, 63, 2), (Reg.SLC_CHCFG_tenant, 63, 15)]) with channels := [(63, { desc := some (dsc 3 0 4 0 0 2 0 0 0 0 0 0), waiting := 2 })] });
    let ch : Fin 64 := 63;
    let status : BitVec 3 := (0 : BitVec 3);
    let c := ch.val;
    let x := s.chan c;
    let running := s.rg Reg.SLC_CHSTAT_state c = 2;
    let d := (dsc 3 0 4 0 0 2 0 0 0 0 0 0);
    (d ∈ x.desc) ∧ (running) ∧
    (let n := dSize d;
    let part := min 19 ((n - x.got) / 2);
    (x.waiting = 2) ∧ (status = 0) ∧ (x.got + 2 * part = n))) ∧
    (let s : State := ({ (on 1 [(Reg.SLC_SEL_engine, 0, 3), (Reg.SLC_SEL_channel, 0, 15), (Reg.SLC_CHSTAT_state, 63, 2), (Reg.SLC_CHCFG_tenant, 63, 15), (Reg.SLC_CHCFG_retries, 63, 7)]) with channels := [(63, { desc := some (dsc 0 0 5 0 0 2 0x40 0 0 0 0 0), tries := 7 })] });
    let ch : Fin 64 := 63;
    let c := ch.val;
    let x := s.chan c;
    let running := s.rg Reg.SLC_CHSTAT_state c = 2;
    let retries := s.rg Reg.SLC_CHCFG_retries c;
    let d := (dsc 0 0 5 0 0 2 0x40 0 0 0 0 0);
    (d ∈ x.desc) ∧ (running) ∧
    (let onBus := x.waiting ≠ 0 ∨ dSrcKind d = 0 ∨ dDstKind d = 0;
    (onBus) ∧ (retries ≤ x.tries))) ∧
    (let s : State := ({ (on 1 [(Reg.SLC_SEL_engine, 0, 3), (Reg.SLC_SEL_channel, 0, 15), (Reg.SLC_CHSTAT_state, 63, 2), (Reg.SLC_CHCFG_tenant, 63, 15), (Reg.SLC_CHCFG_retries, 63, 7)]) with channels := [(63, { desc := some (dsc 0 0 5 0 0 2 0x40 0 0 0 0 0), tries := 6 })] });
    let ch : Fin 64 := 63;
    let succeeds : Bool := false;
    let c := ch.val;
    let x := s.chan c;
    let running := s.rg Reg.SLC_CHSTAT_state c = 2;
    let retries := s.rg Reg.SLC_CHCFG_retries c;
    let d := (dsc 0 0 5 0 0 2 0x40 0 0 0 0 0);
    (d ∈ x.desc) ∧ (running) ∧
    (let onBus := x.waiting ≠ 0 ∨ dSrcKind d = 0 ∨ dDstKind d = 0;
    (onBus) ∧ (x.tries < retries) ∧ (succeeds = false) ∧ (x.tries + 1 = retries))) := by
  refine ⟨?_, ?_, ?_, ?_, ?_, ?_, ?_, ?_, ?_, ?_, ?_, ?_, ?_, ?_, ?_, ?_, ?_, ?_, ?_, ?_, ?_, ?_, ?_, ?_, ?_⟩ <;>
    (dsimp only <;> decide +kernel)

/-- States and operands that meet the hypotheses of LedgerOperations. -/
theorem test_meets_LedgerOperations :
    (let s : State := (on 1 []);
    let who : Requester := (Requester.pf);
    let v : Word := (0x7ADFFFDF : Word);
    let k := copyOf who;
    let tag := s.rgw Reg.LDG_ALLOC_TAG_tag k * 16;
    let l := s.ledger;
    let may := fun (t : Nat) => s.mayAct who (tagKind t) (tagId t);
    let full := fun (t : Nat) => s.rg Reg.LDG_QUOTAt_quota (tagAccount t) ≤ s.ledgerUsed (tagAccount t);
    let first := fun (l : Ledger) => if l.fresh < 65504 then some l.fresh else l.returned.head?;
    let list := s.usableList s.pagesRetired.length l;
    let head := first list;
    let b := v.toNat % 2 ^ 16;
    let named := v.toNat / 2 ^ 16;
    let own := s.tag b;
    let foreign1 := 65504 ≤ b ∨ may named = false;
    let double := ¬ foreign1 ∧ (tagKind own = 0 ∨ tagGen named ≠ tagGen own);
    let foreign2 := ¬ foreign1 ∧ ¬ double ∧ (tagKind named ≠ tagKind own ∨ tagId named ≠ tagId own);
    let gb := v.toNat % 2 ^ 16;
    let granting := may (s.tag gb) = true ∧ tagKind (s.tag gb) ≠ 0 ∧ tagGen (s.tag gb) = v.toNat / 2 ^ 16 % 16;
    ((s.pagesRetired = [] ∨ ∃ h, first l = some h ∧ s.bufferGone h = false)) ∧ (Readable s who 0xB00014) ∧
    (let h := 0;
    (h ∈ head) ∧ (may tag = true) ∧ (¬ full tag) ∧ (Writable s who 0xB00018) ∧ (foreign1 ∨ double ∨ foreign2) ∧
    (Writable s who 0xB0001C) ∧ (Writable s who 0xB0003C) ∧ (¬ granting) ∧ (Readable s who 0xB00030) ∧ (l.log = []))) ∧
    (let s : State := (on 1 [(Reg.LDG_ALLOC_TAG_tag, 4, 0x800)]);
    let who : Requester := (Requester.keeper 3 0 0);
    let k := copyOf who;
    let tag := s.rgw Reg.LDG_ALLOC_TAG_tag k * 16;
    let l := s.ledger;
    let may := fun (t : Nat) => s.mayAct who (tagKind t) (tagId t);
    let full := fun (t : Nat) => s.rg Reg.LDG_QUOTAt_quota (tagAccount t) ≤ s.ledgerUsed (tagAccount t);
    let first := fun (l : Ledger) => if l.fresh < 65504 then some l.fresh else l.returned.head?;
    let list := s.usableList s.pagesRetired.length l;
    let head := first list;
    (Readable s who 0xB00014) ∧ (may tag = false ∨ (¬ full tag ∧ head = none))) ∧
    (let s : State := (on 1 [(Reg.LDG_ALLOC_TAG_tag, 0, 0x7AD), (Reg.LDG_QUOTAt_quota, 13, 0)]);
    let who : Requester := (Requester.pf);
    let k := copyOf who;
    let tag := s.rgw Reg.LDG_ALLOC_TAG_tag k * 16;
    let may := fun (t : Nat) => s.mayAct who (tagKind t) (tagId t);
    let full := fun (t : Nat) => s.rg Reg.LDG_QUOTAt_quota (tagAccount t) ≤ s.ledgerUsed (tagAccount t);
    (Readable s who 0xB00014) ∧ (may tag = true) ∧ (full tag)) ∧
    (let s : State := ({ (on 1 []) with ledger := { tags := [(65503, BitVec.ofNat 16 0x7ADF)] } });
    let who : Requester := (Requester.pf);
    let v : Word := (0x7ADFFFDF : Word);
    let k := copyOf who;
    let tag := s.rgw Reg.LDG_ALLOC_TAG_tag k * 16;
    let may := fun (t : Nat) => s.mayAct who (tagKind t) (tagId t);
    let full := fun (t : Nat) => s.rg Reg.LDG_QUOTAt_quota (tagAccount t) ≤ s.ledgerUsed (tagAccount t);
    let b := v.toNat % 2 ^ 16;
    let named := v.toNat / 2 ^ 16;
    let own := s.tag b;
    let foreign1 := 65504 ≤ b ∨ may named = false;
    let double := ¬ foreign1 ∧ (tagKind own = 0 ∨ tagGen named ≠ tagGen own);
    let foreign2 := ¬ foreign1 ∧ ¬ double ∧ (tagKind named ≠ tagKind own ∨ tagId named ≠ tagId own);
    let ok := ¬ foreign1 ∧ ¬ double ∧ ¬ foreign2;
    let gb := v.toNat % 2 ^ 16;
    let granting := may (s.tag gb) = true ∧ tagKind (s.tag gb) ≠ 0 ∧ tagGen (s.tag gb) = v.toNat / 2 ^ 16 % 16;
    (Writable s who 0xB00018) ∧ (ok) ∧ (Writable s who 0xB0001C) ∧ (¬ full tag) ∧ (Writable s who 0xB0003C) ∧ (granting)) ∧
    (let s : State := ({ (on 1 [(Reg.LDG_ALLOC_TAG_tag, 0, 0x7AD), (Reg.LDG_QUOTAt_quota, 13, 1)]) with ledger := { tags := [(65503, BitVec.ofNat 16 0x7ADF)] } });
    let who : Requester := (Requester.pf);
    let v : Word := (0x7ADFFFDF : Word);
    let k := copyOf who;
    let tag := s.rgw Reg.LDG_ALLOC_TAG_tag k * 16;
    let may := fun (t : Nat) => s.mayAct who (tagKind t) (tagId t);
    let full := fun (t : Nat) => s.rg Reg.LDG_QUOTAt_quota (tagAccount t) ≤ s.ledgerUsed (tagAccount t);
    let b := v.toNat % 2 ^ 16;
    let named := v.toNat / 2 ^ 16;
    let own := s.tag b;
    let foreign1 := 65504 ≤ b ∨ may named = false;
    let double := ¬ foreign1 ∧ (tagKind own = 0 ∨ tagGen named ≠ tagGen own);
    let foreign2 := ¬ foreign1 ∧ ¬ double ∧ (tagKind named ≠ tagKind own ∨ tagId named ≠ tagId own);
    let ok := ¬ foreign1 ∧ ¬ double ∧ ¬ foreign2;
    (Writable s who 0xB0001C) ∧ (ok) ∧ (full tag)) ∧
    (let s : State := ({ (on 1 []) with ledger := { lost := 255, log := [⟨true, 2, 65503, 65535, 65535⟩] } });
    let who : Requester := (Requester.pf);
    let l := s.ledger;
    (Readable s who 0xB00030) ∧
    (let r := (⟨true, 2, 65503, 65535, 65535⟩ : Offence);
    (r ∈ l.log.head?))) := by
  refine ⟨?_, ?_, ?_, ?_, ?_, ?_⟩ <;> (dsimp only <;> and_intros <;> first | decide +kernel | exact .inl rfl)

/-- States and operands that meet the hypotheses of CheckUnits. -/
theorem test_meets_CheckUnits :
    (let s : State := (on 1 [(Reg.CHK_ASSIGNu_kind, 3, 2)]);
    let who : Requester := (Requester.keeper 3 1 0);
    let unit : Fin 4 := 3;
    let u := unit.val;
    let shut := s.rg Reg.CHK_ASSIGNu_kind u = 2 ∧ (s.keeperOf who).isSome = true;
    let busy := s.on Reg.CHK_SCANu_CTRL_busy u = true;
    (Writable s who (0xA00004 + 32 * u)) ∧ (shut) ∧ (Writable s who (0xA0001C + 32 * u)) ∧ (¬ busy)) ∧
    (let s : State := (on 1 [(Reg.CHK_ASSIGNu_kind, 3, 1), (Reg.CHK_ASSIGNu_id, 3, 3), (Reg.CHK_SCANu_CTRL_busy, 3, 1)]);
    let who : Requester := (Requester.keeper 3 1 0);
    let unit : Fin 4 := 3;
    let v : Word := (0xC0FFFFFF : Word);
    let u := unit.val;
    let shut := s.rg Reg.CHK_ASSIGNu_kind u = 2 ∧ (s.keeperOf who).isSome = true;
    let busy := s.on Reg.CHK_SCANu_CTRL_busy u = true;
    let mine := s.rg Reg.CHK_ASSIGNu_kind u = 1 ∧ s.keeperOf who = some (s.rg Reg.CHK_ASSIGNu_id u) ∧ ringOf who ≤ 1;
    (Writable s who (0xA00004 + 32 * u)) ∧ (¬ shut) ∧ ((bit v.toNat 31 = false ∨ busy)) ∧ (Writable s who (0xA0001C + 32 * u)) ∧
    ((bit v.toNat 31 = false ∨ busy ∨ ¬ mine)) ∧ (busy)) ∧
    (let s : State := (on 1 [(Reg.CHK_ASSIGNu_kind, 3, 1), (Reg.CHK_ASSIGNu_id, 3, 3)]);
    let who : Requester := (Requester.keeper 3 1 0);
    let unit : Fin 4 := 3;
    let v : Word := (0xC0FFFFFF : Word);
    let u := unit.val;
    let shut := s.rg Reg.CHK_ASSIGNu_kind u = 2 ∧ (s.keeperOf who).isSome = true;
    let busy := s.on Reg.CHK_SCANu_CTRL_busy u = true;
    let mine := s.rg Reg.CHK_ASSIGNu_kind u = 1 ∧ s.keeperOf who = some (s.rg Reg.CHK_ASSIGNu_id u) ∧ ringOf who ≤ 1;
    (Writable s who (0xA00004 + 32 * u)) ∧ (¬ shut) ∧ (bit v.toNat 31 = true) ∧ (¬ busy) ∧ (Writable s who (0xA0001C + 32 * u)) ∧ (mine)) := by
  refine ⟨?_, ?_, ?_⟩ <;> (dsimp only <;> decide +kernel)

/-- States and operands that meet the hypotheses of WeirSoftwareEvents. -/
theorem test_meets_WeirSoftwareEvents :
    (let s : State := (on 1 []);
    let who : Requester := (Requester.pf);
    let v : Word := (BitVec.ofNat 32 (2 ^ 31 + 3 * 2 ^ 29 + 16 * 2 ^ 11 + 2047));
    let owner := v.toNat / 2 ^ 11 % 32;
    let code := v.toNat % 2 ^ 11;
    let cls := v.toNat / 2 ^ 29 % 4;
    let legal := bit v.toNat 31 = true ∧ owner ≤ 16 ∧ 0x100 ≤ code ∧ cls ≠ 3;
    (Writable s who 0xC00024) ∧ (¬ legal)) ∧
    (let s : State := (on 1 []);
    let who : Requester := (Requester.pf);
    let v : Word := (BitVec.ofNat 32 (2 ^ 31 + 0 * 2 ^ 29 + 16 * 2 ^ 11 + 2047));
    let owner := v.toNat / 2 ^ 11 % 32;
    let code := v.toNat % 2 ^ 11;
    let cls := v.toNat / 2 ^ 29 % 4;
    let legal := bit v.toNat 31 = true ∧ owner ≤ 16 ∧ 0x100 ≤ code ∧ cls ≠ 3;
    (Writable s who 0xC00024) ∧ (legal) ∧ (cls = 0)) ∧
    (let s : State := (on 1 []);
    let who : Requester := (Requester.pf);
    let v : Word := (BitVec.ofNat 32 (2 ^ 31 + 1 * 2 ^ 29 + 16 * 2 ^ 11 + 2047));
    let owner := v.toNat / 2 ^ 11 % 32;
    let code := v.toNat % 2 ^ 11;
    let cls := v.toNat / 2 ^ 29 % 4;
    let legal := bit v.toNat 31 = true ∧ owner ≤ 16 ∧ 0x100 ≤ code ∧ cls ≠ 3;
    let ring := s.on Reg.WEIR_CTRL_ring_en;
    let tokens := s.rg Reg.WEIR_BKT_tokens owner;
    let rate := s.rg Reg.WEIR_BKT_rate owner;
    (Writable s who 0xC00024) ∧ (legal) ∧ (cls = 1) ∧ (ring = false) ∧ (tokens ≠ 0) ∧ (rate ≠ 0)) ∧
    (let s : State := (on 1 [(Reg.WEIR_CTRL_ring_en, 0, 1), (Reg.WEIR_BKT_tokens, 16, 1)]);
    let who : Requester := (Requester.pf);
    let v : Word := (BitVec.ofNat 32 (2 ^ 31 + 1 * 2 ^ 29 + 16 * 2 ^ 11 + 2047));
    let owner := v.toNat / 2 ^ 11 % 32;
    let code := v.toNat % 2 ^ 11;
    let cls := v.toNat / 2 ^ 29 % 4;
    let legal := bit v.toNat 31 = true ∧ owner ≤ 16 ∧ 0x100 ≤ code ∧ cls ≠ 3;
    let tokens := s.rg Reg.WEIR_BKT_tokens owner;
    let rate := s.rg Reg.WEIR_BKT_rate owner;
    let quiet := (List.range 16).all fun b => decide (s.weir.totals.get (16 * owner + b) 0 = 0);
    (Writable s who 0xC00024) ∧ (legal) ∧ (cls = 1) ∧ (quiet = true) ∧ (tokens ≠ 0) ∧ (rate ≠ 0) ∧ (RingTakes s 1)) ∧
    (let s : State := (on 1 [(Reg.WEIR_CTRL_ring_en, 0, 1), (Reg.WEIR_RING_WR_index, 0, 127), (Reg.WEIR_BKT_tokens, 16, 1)]);
    let who : Requester := (Requester.pf);
    let v : Word := (BitVec.ofNat 32 (2 ^ 31 + 1 * 2 ^ 29 + 16 * 2 ^ 11 + 2047));
    let owner := v.toNat / 2 ^ 11 % 32;
    let code := v.toNat % 2 ^ 11;
    let cls := v.toNat / 2 ^ 29 % 4;
    let legal := bit v.toNat 31 = true ∧ owner ≤ 16 ∧ 0x100 ≤ code ∧ cls ≠ 3;
    let ring := s.on Reg.WEIR_CTRL_ring_en;
    let tokens := s.rg Reg.WEIR_BKT_tokens owner;
    let rate := s.rg Reg.WEIR_BKT_rate owner;
    let quiet := (List.range 16).all fun b => decide (s.weir.totals.get (16 * owner + b) 0 = 0);
    (Writable s who 0xC00024) ∧ (legal) ∧ (cls = 1) ∧ ((ring = true → quiet = true)) ∧ ((tokens = 0 ∨ rate = 0 ∨ RingFull s 1))) ∧
    (let s : State := (on 1 []);
    let who : Requester := (Requester.pf);
    let v : Word := (BitVec.ofNat 32 (2 ^ 31 + 2 * 2 ^ 29 + 16 * 2 ^ 11 + 2047));
    let owner := v.toNat / 2 ^ 11 % 32;
    let code := v.toNat % 2 ^ 11;
    let cls := v.toNat / 2 ^ 29 % 4;
    let legal := bit v.toNat 31 = true ∧ owner ≤ 16 ∧ 0x100 ≤ code ∧ cls ≠ 3;
    let ring := s.on Reg.WEIR_CTRL_ring_en;
    (Writable s who 0xC00024) ∧ (legal) ∧ (cls = 2) ∧ (ring = false)) ∧
    (let s : State := (on 1 [(Reg.WEIR_CTRL_ring_en, 0, 1)]);
    let who : Requester := (Requester.pf);
    let v : Word := (BitVec.ofNat 32 (2 ^ 31 + 2 * 2 ^ 29 + 0 * 2 ^ 11 + 256));
    let owner := v.toNat / 2 ^ 11 % 32;
    let code := v.toNat % 2 ^ 11;
    let cls := v.toNat / 2 ^ 29 % 4;
    let legal := bit v.toNat 31 = true ∧ owner ≤ 16 ∧ 0x100 ≤ code ∧ cls ≠ 3;
    let room := s.weir.inQueue < 64;
    (Writable s who 0xC00024) ∧ (legal) ∧ (cls = 2) ∧ (room) ∧ (s.weir.gap = none) ∧ (RingTakes s 1)) ∧
    (let s : State := ({ (on 1 [(Reg.WEIR_CTRL_ring_en, 0, 1)]) with weir := { inQueue := 64 } });
    let who : Requester := (Requester.pf);
    let v : Word := (BitVec.ofNat 32 (2 ^ 31 + 2 * 2 ^ 29 + 16 * 2 ^ 11 + 2047));
    let owner := v.toNat / 2 ^ 11 % 32;
    let code := v.toNat % 2 ^ 11;
    let cls := v.toNat / 2 ^ 29 % 4;
    let legal := bit v.toNat 31 = true ∧ owner ≤ 16 ∧ 0x100 ≤ code ∧ cls ≠ 3;
    let room := s.weir.inQueue < 64;
    (Writable s who 0xC00024) ∧ (legal) ∧ (cls = 2) ∧ (¬ room) ∧ (s.weir.gap = none) ∧ (RingTakes s 1)) ∧
    (let s : State := (on 1 [(Reg.WEIR_CTRL_ring_en, 0, 1), (Reg.WEIR_RING_WR_index, 0, 127)]);
    let who : Requester := (Requester.pf);
    let v : Word := (BitVec.ofNat 32 (2 ^ 31 + 2 * 2 ^ 29 + 16 * 2 ^ 11 + 2047));
    let owner := v.toNat / 2 ^ 11 % 32;
    let code := v.toNat % 2 ^ 11;
    let cls := v.toNat / 2 ^ 29 % 4;
    let legal := bit v.toNat 31 = true ∧ owner ≤ 16 ∧ 0x100 ≤ code ∧ cls ≠ 3;
    let room := s.weir.inQueue < 64;
    (Writable s who 0xC00024) ∧ (legal) ∧ (cls = 2) ∧ (room) ∧ (s.weir.gap = none) ∧ (RingFull s 1)) ∧
    (let s : State := ({ (on 1 [(Reg.WEIR_CTRL_ring_en, 0, 1)]) with weir := { gap := some (5, 65535) } });
    let who : Requester := (Requester.pf);
    let v : Word := (BitVec.ofNat 32 (2 ^ 31 + 2 * 2 ^ 29 + 16 * 2 ^ 11 + 2047));
    let owner := v.toNat / 2 ^ 11 % 32;
    let code := v.toNat % 2 ^ 11;
    let cls := v.toNat / 2 ^ 29 % 4;
    let legal := bit v.toNat 31 = true ∧ owner ≤ 16 ∧ 0x100 ≤ code ∧ cls ≠ 3;
    let room := s.weir.inQueue < 64;
    (Writable s who 0xC00024) ∧
    (let g := ((5, 65535) : Nat × Nat);
    (g ∈ s.weir.gap) ∧ (legal) ∧ (cls = 2) ∧ (room) ∧ (RingTakes s 2))) ∧
    (let s : State := ({ (on 1 [(Reg.WEIR_CTRL_ring_en, 0, 1), (Reg.WEIR_RING_WR_index, 0, 127)]) with weir := { gap := some (5, 65535) } });
    let who : Requester := (Requester.pf);
    let v : Word := (BitVec.ofNat 32 (2 ^ 31 + 2 * 2 ^ 29 + 16 * 2 ^ 11 + 2047));
    let owner := v.toNat / 2 ^ 11 % 32;
    let code := v.toNat % 2 ^ 11;
    let cls := v.toNat / 2 ^ 29 % 4;
    let legal := bit v.toNat 31 = true ∧ owner ≤ 16 ∧ 0x100 ≤ code ∧ cls ≠ 3;
    let room := s.weir.inQueue < 64;
    (Writable s who 0xC00024) ∧
    (let g := ((5, 65535) : Nat × Nat);
    (g ∈ s.weir.gap) ∧ (legal) ∧ (cls = 2) ∧ (room) ∧ (RingFull s 2))) := by
  refine ⟨?_, ?_, ?_, ?_, ?_, ?_, ?_, ?_, ?_, ?_, ?_⟩ <;> (dsimp only <;> decide +kernel)

/-- States and operands that meet the hypotheses of WeirDelivery. -/
theorem test_meets_WeirDelivery :
    (let s : State := (on 1 []);
    let owner : Fin 17 := 16;
    let t : Fin 16 := 0;
    let who : Requester := (Requester.pf);
    let v : Word := (0x80000000 : Word);
    let o := owner.val;
    let alarms := s.weir.alarms.get o [];
    let root := s.rg Reg.WHF_TSTAT_mode t.val ≠ 0 ∧ s.isRoot t.val = true;
    let tokens := s.rg Reg.WEIR_BKT_tokens o;
    let refills := s.rg Reg.WEIR_BKT_rate o ≠ 0 ∧ tokens < max 1 (s.rg Reg.WEIR_BKT_burst o);
    let size := 128 * 2 ^ s.rg Reg.WEIR_RING_CFG_size_log2;
    let list := s.bufAddr (s.rg Reg.WEIR_RING_CFG_list);
    let index := s.hbmHalf (list + 4088) % 2 ^ 12 + s.hbmHalf (list + 4090) % 2 ^ 5 * 2 ^ 12;
    let read := s.rg Reg.WEIR_RING_RD_index % size;
    let polled := s.on Reg.WEIR_CTRL_ring_en = true ∧ s.on Reg.WEIR_RING_CFG_rd_src = true;
    let legal := index < size ∧ (index + size - read) % size ≤ (s.rg Reg.WEIR_RING_WR_index + size - read) % size;
    let tenant := v.toNat / 2 ^ 16 % 16;
    let busy := s.on Reg.WEIR_SNAP_busy;
    ((∀ x ∈ alarms, x.count = 0)) ∧ (¬ root) ∧ ((∀ p < 16, ∀ x ∈ s.weir.alarms.get p [], x.fwd = 0) ∨ s.on Reg.WEIR_CTRL_fwd = false) ∧
    (¬ refills) ∧ (¬ (polled ∧ legal)) ∧ (Writable s who 0xC00030) ∧ (bit v.toNat 31 = true) ∧ (busy = false) ∧
    (s.rg Reg.WHF_TSTAT_mode tenant ≠ 6)) ∧
    (let s : State := ({ (on 1 []) with weir := { alarms := [(0, [(⟨0, 0, 61440, 2047, 0, 68719476735, true, 16777215, 1048575, 9, 5, 1⟩ : Event), (⟨0, 0, 61440, 2047, 65535, 68719476735, true, 16777215, 1048575, 9, 5, 1⟩ : Event)])] } });
    let owner : Fin 17 := 0;
    let before : List Event := [(⟨0, 0, 61440, 2047, 0, 68719476735, true, 16777215, 1048575, 9, 5, 1⟩ : Event)];
    let after : List Event := [];
    let e : Event := (⟨0, 0, 61440, 2047, 65535, 68719476735, true, 16777215, 1048575, 9, 5, 1⟩ : Event);
    let o := owner.val;
    let alarms := s.weir.alarms.get o [];
    (alarms = before ++ e :: after) ∧ ((∀ x ∈ before, x.count = 0)) ∧ (e.count ≠ 0)) ∧
    (let s : State := ({ (on 1 [(Reg.WEIR_CTRL_fwd, 0, 1), (Reg.AQ_STATUS_state, 15, 6), (Reg.WHF_TSTAT_mode, 0, 2)]) with weir := { alarms := [(0, [(⟨0, 0, 61440, 2047, 65535, 68719476735, true, 16777215, 1048575, 9, 5, 0⟩ : Event), (⟨0, 0, 61440, 2047, 65535, 68719476735, true, 16777215, 1048575, 9, 5, 1⟩ : Event)])] }, routes := [(10, store 15), (11, store 1)], parts := [(0, { hdr := { deviceCount := 3 }, bound := [0], rootDev := 5 })] });
    let owner : Fin 17 := 0;
    let before : List Event := [(⟨0, 0, 61440, 2047, 65535, 68719476735, true, 16777215, 1048575, 9, 5, 0⟩ : Event)];
    let after : List Event := [];
    let e : Event := (⟨0, 0, 61440, 2047, 65535, 68719476735, true, 16777215, 1048575, 9, 5, 1⟩ : Event);
    let o := owner.val;
    let alarms := s.weir.alarms.get o [];
    (o < 16) ∧ (e.owner = o) ∧ (alarms = before ++ e :: after) ∧ ((∀ x ∈ before, x.fwd = 0)) ∧ (e.fwd ≠ 0) ∧
    ((∀ p < 16, p ≠ o → ∀ x ∈ (s.weir.alarms.get p []).find? fun x => decide (x.fwd ≠ 0), e.time < x.time)) ∧
    (s.on Reg.WEIR_CTRL_fwd = true) ∧ (s.rg Reg.WHF_TSTAT_mode o ≠ 0) ∧ ((s.route (s.part o).rootDev).isSome = true)) ∧
    (let s : State := ({ (on 1 [(Reg.WEIR_CTRL_fwd, 0, 1), (Reg.AQ_STATUS_state, 15, 6), (Reg.WHF_TSTAT_mode, 0, 0)]) with weir := { alarms := [(0, [(⟨0, 0, 61440, 2047, 65535, 68719476735, true, 16777215, 1048575, 9, 5, 0⟩ : Event), (⟨0, 0, 61440, 2047, 65535, 68719476735, true, 16777215, 1048575, 9, 5, 1⟩ : Event)])] }, routes := [(10, store 15), (11, store 1)], parts := [(0, { hdr := { deviceCount := 3 }, bound := [0], rootDev := 5 })] });
    let owner : Fin 17 := 0;
    let before : List Event := [(⟨0, 0, 61440, 2047, 65535, 68719476735, true, 16777215, 1048575, 9, 5, 0⟩ : Event)];
    let after : List Event := [];
    let e : Event := (⟨0, 0, 61440, 2047, 65535, 68719476735, true, 16777215, 1048575, 9, 5, 1⟩ : Event);
    let o := owner.val;
    let alarms := s.weir.alarms.get o [];
    (o < 16) ∧ (e.owner = o) ∧ (alarms = before ++ e :: after) ∧ ((∀ x ∈ before, x.fwd = 0)) ∧ (e.fwd ≠ 0) ∧
    ((∀ p < 16, p ≠ o → ∀ x ∈ (s.weir.alarms.get p []).find? fun x => decide (x.fwd ≠ 0), e.time < x.time)) ∧
    (s.on Reg.WEIR_CTRL_fwd = true) ∧ (s.rg Reg.WHF_TSTAT_mode o = 0)) ∧
    (let s : State := ({ (on 1 [(Reg.WHF_TSTAT_mode, 0, 7), (Reg.AQ_DEVID_devid, 0, 5), (Reg.LCK_TREE_DATA_root, 0, 1)]) with parts := [(0, { hdr := { deviceCount := 3 }, bound := [0], rootDev := 5 })] });
    let t : Fin 16 := 0;
    let root := s.rg Reg.WHF_TSTAT_mode t.val ≠ 0 ∧ s.isRoot t.val = true;
    (root)) ∧
    (let s : State := (on 1 [(Reg.WEIR_BKT_rate, 16, 65535), (Reg.WEIR_BKT_burst, 16, 0), (Reg.WEIR_BKT_tokens, 16, 0)]);
    let owner : Fin 17 := 16;
    let o := owner.val;
    let tokens := s.rg Reg.WEIR_BKT_tokens o;
    let refills := s.rg Reg.WEIR_BKT_rate o ≠ 0 ∧ tokens < max 1 (s.rg Reg.WEIR_BKT_burst o);
    let owed := (List.range 16).filter fun b => decide (s.weir.totals.get (16 * o + b) 0 ≠ 0);
    (refills) ∧ ((owed = [] ∨ s.on Reg.WEIR_CTRL_ring_en = false))) ∧
    (let s : State := ({ (on 1 [(Reg.WEIR_BKT_rate, 16, 65535), (Reg.WEIR_BKT_burst, 16, 0), (Reg.WEIR_BKT_tokens, 16, 0), (Reg.WEIR_CTRL_ring_en, 0, 1)]) with weir := { totals := [(271, 65536)] } });
    let owner : Fin 17 := 16;
    let o := owner.val;
    let tokens := s.rg Reg.WEIR_BKT_tokens o;
    let refills := s.rg Reg.WEIR_BKT_rate o ≠ 0 ∧ tokens < max 1 (s.rg Reg.WEIR_BKT_burst o);
    let owed := (List.range 16).filter fun b => decide (s.weir.totals.get (16 * o + b) 0 ≠ 0);
    let b := 15;
    (b ∈ owed) ∧ (refills) ∧ (owed = [b]) ∧ (RingTakes s 1) ∧ (tokens = 0)) ∧
    (let s : State := (on 1 [(Reg.WEIR_CTRL_ring_en, 0, 1), (Reg.WEIR_RING_CFG_rd_src, 0, 1)]);
    let size := 128 * 2 ^ s.rg Reg.WEIR_RING_CFG_size_log2;
    let list := s.bufAddr (s.rg Reg.WEIR_RING_CFG_list);
    let index := s.hbmHalf (list + 4088) % 2 ^ 12 + s.hbmHalf (list + 4090) % 2 ^ 5 * 2 ^ 12;
    let read := s.rg Reg.WEIR_RING_RD_index % size;
    let polled := s.on Reg.WEIR_CTRL_ring_en = true ∧ s.on Reg.WEIR_RING_CFG_rd_src = true;
    let legal := index < size ∧ (index + size - read) % size ≤ (s.rg Reg.WEIR_RING_WR_index + size - read) % size;
    (polled) ∧ (legal)) ∧
    (let s : State := (on 1 []);
    let who : Requester := (Requester.pf);
    let v : Word := (0x7FFFFFFF : Word);
    (Writable s who 0xC00030) ∧ (bit v.toNat 31 = false)) ∧
    (let s : State := (on 1 [(Reg.WEIR_SNAP_busy, 0, 1)]);
    let who : Requester := (Requester.pf);
    let v : Word := (0x80000000 : Word);
    let busy := s.on Reg.WEIR_SNAP_busy;
    let owner' := s.weir.snapTenant;
    (Writable s who 0xC00030) ∧ (bit v.toNat 31 = true) ∧ (busy = true) ∧ (s.rg Reg.WHF_TSTAT_mode owner' ≠ 6)) ∧
    (let s : State := (on 1 [(Reg.WHF_TSTAT_mode, 0, 6)]);
    let who : Requester := (Requester.pf);
    let v : Word := (0x80000000 : Word);
    let tenant := v.toNat / 2 ^ 16 % 16;
    let busy := s.on Reg.WEIR_SNAP_busy;
    (Writable s who 0xC00030) ∧ (bit v.toNat 31 = true) ∧ (busy = false) ∧ (s.rg Reg.WHF_TSTAT_mode tenant = 6)) ∧
    (let s : State := ({ (on 1 ([(Reg.WEIR_SNAP_busy, 0, 1), (Reg.WHF_TSTAT_mode, 0, 6), (Reg.LDG_QUOTAt_quota, 0, 1), (Reg.RCH_OWNER_bound, 0, 1), (Reg.CLU_ROLE_role, 0, 0)] ++ solo)) with parts := [(0, { hdr := { deviceCount := 3 }, bound := [0], rootDev := 5 })] });
    let busy := s.on Reg.WEIR_SNAP_busy;
    let owner' := s.weir.snapTenant;
    let l := s.snapBytes owner';
    let n := (l.length + 4095) / 4096;
    (busy = true) ∧ (s.rg Reg.WHF_TSTAT_mode owner' = 6) ∧ (0 < n) ∧ (n ≤ 2047) ∧
    (s.rg Reg.LDG_QUOTAt_quota owner' < s.ledgerUsed owner' + n + 1)) ∧
    (let s : State := ({ (on 1 ([(Reg.WEIR_SNAP_busy, 0, 1), (Reg.WHF_TSTAT_mode, 0, 6), (Reg.RCH_OWNER_bound, 0, 1), (Reg.CLU_ROLE_role, 0, 0)] ++ solo)) with parts := [(0, { hdr := { deviceCount := 3 }, bound := [0], rootDev := 5 })] });
    let busy := s.on Reg.WEIR_SNAP_busy;
    let owner' := s.weir.snapTenant;
    let l := s.snapBytes owner';
    let n := (l.length + 4095) / 4096;
    let first := s.ledger.fresh;
    (busy = true) ∧ (s.rg Reg.WHF_TSTAT_mode owner' = 6) ∧ (0 < n) ∧ (n ≤ 2047) ∧
    (s.ledgerUsed owner' + n + 1 ≤ s.rg Reg.LDG_QUOTAt_quota owner') ∧ (first + n + 1 ≤ 65504) ∧ (s.ledger.tags = []) ∧
    (s.rg Reg.LDG_POOLk_base 0 < 127) ∧ (s.rg Reg.LDG_POOLk_base 1 < 127)) := by
  refine ⟨?_, ?_, ?_, ?_, ?_, ?_, ?_, ?_, ?_, ?_, ?_, ?_, ?_⟩ <;> (dsimp only <;> decide +kernel)

/-- States and operands that meet the hypotheses of CapstanMonitor. -/
theorem test_meets_CapstanMonitor :
    (let s : State := (on 5 []);
    let mode := s.rg Reg.PWR_MODE_mode 0;
    let silent := mode = 0 ∨ mode = 5;
    let c := s.capstan;
    (silent) ∧ (c.oldBaud = none)) ∧
    (let s : State := (on 4 []);
    let mode := s.rg Reg.PWR_MODE_mode 0;
    let silent := mode = 0 ∨ mode = 5;
    let normal := mode = 1 ∨ mode = 2 ∨ mode = 3;
    (¬ silent) ∧ (mode = 4) ∧ (normal ∨ mode = 4)) ∧
    (let s : State := (on 3 []);
    let n : Nat := 40;
    let addr : BitVec 25 := (0x600000 : BitVec 25);
    let v : Word := (0xFFFFFFFF : Word);
    let mode := s.rg Reg.PWR_MODE_mode 0;
    let normal := mode = 1 ∨ mode = 2 ∨ mode = 3;
    let deployed := s.rg Reg.SEC_LC_state 0 = 2;
    let c := s.capstan;
    let outside := addr.toNat % 4 ≠ 0;
    let sec := 0xD00080 ≤ addr.toNat ∧ addr.toNat < 0xD00090;
    let read := s.busRead .capstan addr.toNat;
    let rates := n = 115200 ∨ n = 921600 ∨ n = 1500000 ∨ n = 3000000;
    (normal) ∧ (n ≤ 40) ∧ (¬ outside) ∧ (¬ sec) ∧ (read.pending = s.pending) ∧ (¬ deployed) ∧
    ((s.busWrite .capstan addr.toNat v).pending = s.pending) ∧ (¬ rates) ∧ (c.tooLong = false) ∧ (c.line = [])) ∧
    (let s : State := (on 3 []);
    let n : Nat := 41;
    let mode := s.rg Reg.PWR_MODE_mode 0;
    let normal := mode = 1 ∨ mode = 2 ∨ mode = 3;
    (normal) ∧ (40 < n)) ∧
    (let s : State := (on 3 []);
    let addr : BitVec 25 := (0x1FFFFFF : BitVec 25);
    let mode := s.rg Reg.PWR_MODE_mode 0;
    let normal := mode = 1 ∨ mode = 2 ∨ mode = 3;
    let deployed := s.rg Reg.SEC_LC_state 0 = 2;
    let outside := addr.toNat % 4 ≠ 0;
    (normal) ∧ (outside) ∧ (¬ deployed)) ∧
    (let s : State := (on 3 []);
    let addr : BitVec 25 := (0xD0008C : BitVec 25);
    let mode := s.rg Reg.PWR_MODE_mode 0;
    let normal := mode = 1 ∨ mode = 2 ∨ mode = 3;
    let outside := addr.toNat % 4 ≠ 0;
    let sec := 0xD00080 ≤ addr.toNat ∧ addr.toNat < 0xD00090;
    (normal) ∧ (¬ outside) ∧ (sec)) ∧
    (let s : State := (on 3 [(Reg.SEC_LC_state, 0, 2)]);
    let mode := s.rg Reg.PWR_MODE_mode 0;
    let normal := mode = 1 ∨ mode = 2 ∨ mode = 3;
    let deployed := s.rg Reg.SEC_LC_state 0 = 2;
    (normal) ∧ (deployed)) ∧
    (let s : State := (on 3 []);
    let n : Nat := 3000000;
    let mode := s.rg Reg.PWR_MODE_mode 0;
    let normal := mode = 1 ∨ mode = 2 ∨ mode = 3;
    let rates := n = 115200 ∨ n = 921600 ∨ n = 1500000 ∨ n = 3000000;
    (normal) ∧ (rates)) ∧
    (let s : State := ({ (on 3 []) with capstan := { tooLong := true, line := List.replicate 80 0x41 } });
    let mode := s.rg Reg.PWR_MODE_mode 0;
    let normal := mode = 1 ∨ mode = 2 ∨ mode = 3;
    let c := s.capstan;
    (normal) ∧ (c.tooLong = true)) ∧
    (let s : State := ({ (on 3 []) with capstan := { line := text "xy" } });
    let mode := s.rg Reg.PWR_MODE_mode 0;
    let normal := mode = 1 ∨ mode = 2 ∨ mode = 3;
    let c := s.capstan;
    let known := ["ver", "st", "tm", "al", "lg", "dr", "lk", "rd", "wr", "bd"].map text;
    (normal) ∧ (c.tooLong = false) ∧ (c.line ≠ []) ∧ (0x20 ∉ c.line) ∧ (c.line ∉ known)) ∧
    (let s : State := ({ (on 3 []) with capstan := { line := text "ver" } });
    let mode := s.rg Reg.PWR_MODE_mode 0;
    let normal := mode = 1 ∨ mode = 2 ∨ mode = 3;
    let c := s.capstan;
    (normal) ∧ (c.tooLong = false) ∧ (c.line = text "ver")) ∧
    (let s : State := ({ (on 3 []) with capstan := { line := text "st" } });
    let mode := s.rg Reg.PWR_MODE_mode 0;
    let normal := mode = 1 ∨ mode = 2 ∨ mode = 3;
    let c := s.capstan;
    (normal) ∧ (c.tooLong = false) ∧ (c.line = text "st")) ∧
    (let s : State := ({ (on 3 []) with capstan := { line := text "tm" } });
    let mode := s.rg Reg.PWR_MODE_mode 0;
    let normal := mode = 1 ∨ mode = 2 ∨ mode = 3;
    let c := s.capstan;
    (normal) ∧ (c.tooLong = false) ∧ (c.line = text "tm")) ∧
    (let s : State := ({ (on 3 []) with capstan := { line := text "dr" } });
    let mode := s.rg Reg.PWR_MODE_mode 0;
    let normal := mode = 1 ∨ mode = 2 ∨ mode = 3;
    let c := s.capstan;
    (normal) ∧ (c.tooLong = false) ∧ (c.line = text "dr")) ∧
    (let s : State := ({ (on 3 []) with capstan := { line := text "al f" } });
    let n : Nat := 15;
    let mode := s.rg Reg.PWR_MODE_mode 0;
    let normal := mode = 1 ∨ mode = 2 ∨ mode = 3;
    let c := s.capstan;
    (normal) ∧ (c.tooLong = false) ∧ (n < 16) ∧ (c.line = text "al " ++ [hexDigit n])) ∧
    (let s : State := ({ (on 3 []) with capstan := { line := text "lg f" } });
    let n : Nat := 15;
    let mode := s.rg Reg.PWR_MODE_mode 0;
    let normal := mode = 1 ∨ mode = 2 ∨ mode = 3;
    let c := s.capstan;
    (normal) ∧ (c.tooLong = false) ∧ (n < 16) ∧ (c.line = text "lg " ++ [hexDigit n])) ∧
    (let s : State := ({ (on 3 []) with capstan := { line := text "lk f" } });
    let link : Fin 16 := 15;
    let mode := s.rg Reg.PWR_MODE_mode 0;
    let normal := mode = 1 ∨ mode = 2 ∨ mode = 3;
    let c := s.capstan;
    (normal) ∧ (c.tooLong = false) ∧ (c.line = text "lk " ++ [hexDigit link.val])) ∧
    (let s : State := ({ (on 3 []) with capstan := { oldBaud := some 1500000 } });
    let c := s.capstan;
    let r := 1500000;
    (r ∈ c.oldBaud)) := by
  refine ⟨?_, ?_, ?_, ?_, ?_, ?_, ?_, ?_, ?_, ?_, ?_, ?_, ?_, ?_, ?_, ?_, ?_, ?_⟩ <;> (dsimp only <;> decide +kernel)

/-- States and operands that meet the hypotheses of Resets. -/
theorem test_meets_Resets :
    (let s : State := ({ on 1 [] with power := { State.reset.power with basinDefault := 0, perst := true } });
    let who : Requester := (Requester.pf);
    let v : Word := (0x80000001 : Word);
    let p := s.power;
    let aux := s.rg Reg.PWR_MODE_mode 0 = 5 ∧ s.rg Reg.PWR_MODE_depth 0 = 1;
    let ctrl := Writable s who 0xD00004;
    let dev := bit v.toNat 31;
    (p.perst = true) ∧ (¬ aux) ∧ (ctrl) ∧ (dev = true) ∧ (s.rg Reg.PWR_MODE_mode 0 ≠ 4) ∧
    ((s.rg Reg.PWR_MODE_mode 0 = 1 ∨ (s.rg Reg.PWR_MODE_mode 0 = 5 ∧ ¬ aux))) ∧ (s.rg Reg.PWR_MODE_depth 0 ≤ 1)) ∧
    (let s : State := ({ on 5 [(Reg.PWR_MODE_depth, 0, 1)] with power := { State.reset.power with basinDefault := 0, standbyAux := true } });
    let p := s.power;
    let aux := s.rg Reg.PWR_MODE_mode 0 = 5 ∧ s.rg Reg.PWR_MODE_depth 0 = 1;
    (p.perst = false) ∧ (aux)) ∧
    (let s : State := ({ on 1 [] with power := { State.reset.power with basinDefault := 0 } });
    let p := s.power;
    let aux := s.rg Reg.PWR_MODE_mode 0 = 5 ∧ s.rg Reg.PWR_MODE_depth 0 = 1;
    (p.perst = false) ∧ (¬ aux)) ∧
    (let s : State := ({ on 5 [(Reg.PWR_MODE_depth, 0, 1)] with power := { State.reset.power with basinDefault := 0, perst := true } });
    let p := s.power;
    let aux := s.rg Reg.PWR_MODE_mode 0 = 5 ∧ s.rg Reg.PWR_MODE_depth 0 = 1;
    (p.perst = true) ∧ (aux)) ∧
    (let s : State := ({ on 5 [] with power := { State.reset.power with basinDefault := 0 } });
    let who : Requester := (Requester.pf);
    let v : Word := (0x7FFFFFFF : Word);
    let ctrl := Writable s who 0xD00004;
    let dev := bit v.toNat 31;
    let san := bit v.toNat 30 = true ∧ s.rg Reg.PWR_MODE_mode 0 ∈ [1, 2, 3];
    (ctrl) ∧ (dev = false) ∧ (¬ san)) ∧
    (let s : State := ({ on 3 [] with power := { State.reset.power with basinDefault := 0 } });
    let who : Requester := (Requester.pf);
    let v : Word := (0x40000001 : Word);
    let ctrl := Writable s who 0xD00004;
    let dev := bit v.toNat 31;
    let san := bit v.toNat 30 = true ∧ s.rg Reg.PWR_MODE_mode 0 ∈ [1, 2, 3];
    (ctrl) ∧ (dev = false) ∧ (san) ∧ (s.rg Reg.PWR_MODE_mode 0 ≠ 1) ∧ (s.rg Reg.PWR_MODE_mode 0 ≠ 5)) ∧
    (let s : State := ({ on 4 [] with power := { State.reset.power with basinDefault := 0 } });
    (s.rg Reg.PWR_MODE_mode 0 = 4)) := by
  refine ⟨?_, ?_, ?_, ?_, ?_, ?_, ?_⟩ <;> (dsimp only <;> decide +kernel)

/-- States and operands that meet the hypotheses of BringUpSteps. -/
theorem test_meets_BringUpSteps :
    (let s : State := ({ on 0 [] with power := { State.reset.power with basinDefault := 0, bringUp := [] } });
    let step : Fin 9 := 0;
    let k := step.val;
    let p := s.power;
    let opened := StepOpen s k;
    (¬ opened) ∧
    (let late := lowestOpen p.bringUp;
    (s.rg Reg.PWR_MODE_mode 0 = 0) ∧ (p.perst = false) ∧ (late ∈ [1, 3, 8]))) ∧
    (let s : State := ({ on 0 [] with power := { State.reset.power with basinDefault := 0, bringUp := [] } });
    let step : Fin 9 := 1;
    let k := step.val;
    let opened := StepOpen s k;
    (opened) ∧ (k = 1) ∧ (k ≠ 3) ∧ (k = 1 ∨ k = 8)) ∧
    (let s : State := ({ on 0 [(Reg.AON_STAT_fatal, 0, 2)] with power := { State.reset.power with basinDefault := 0, bringUp := [1] } });
    let step : Fin 9 := 2;
    let k := step.val;
    let p := s.power;
    let opened := StepOpen s k;
    let fatal := s.rg Reg.AON_STAT_fatal 0;
    (opened) ∧ (k = 2) ∧ (fatal ≠ 0) ∧
    (let late := lowestOpen p.bringUp;
    (k ∈ [2, 5, 6, 7]) ∧ (s.rg Reg.PWR_MODE_mode 0 = 0) ∧ (p.perst = false) ∧ (late ∉ [1, 3, 8]))) ∧
    (let s : State := ({ on 0 [] with power := { State.reset.power with basinDefault := 0, bringUp := [1] } });
    let step : Fin 9 := 2;
    let k := step.val;
    let opened := StepOpen s k;
    let fatal := s.rg Reg.AON_STAT_fatal 0;
    (opened) ∧ (k = 2) ∧ (fatal = 0)) ∧
    (let s : State := ({ on 0 [] with power := { State.reset.power with basinDefault := 0, bringUp := [1, 2] } });
    let step : Fin 9 := 3;
    let l : List (Fin 408) := [407, 406];
    let k := step.val;
    let opened := StepOpen s k;
    let newly := fun (r : Nat) => (List.range 17).filter fun j => l.any (fun c => decide (c.val = 17 * r + j)) && !s.on Reg.CLU_ROLE_retired (17 * r + j);
    let short := ∃ r < 24, (if (List.range 17).any (fun j => s.on Reg.CLU_ROLE_retired (17 * r + j)) = true then 0 else 1) < (newly r).length;
    (opened) ∧ (k = 3) ∧ (short) ∧ (3 ≤ k) ∧ (k ≤ 6)) ∧
    (let s : State := ({ on 0 [] with power := { State.reset.power with basinDefault := 0, bringUp := [1, 2] } });
    let step : Fin 9 := 3;
    let l : List (Fin 408) := [407];
    let k := step.val;
    let opened := StepOpen s k;
    let newly := fun (r : Nat) => (List.range 17).filter fun j => l.any (fun c => decide (c.val = 17 * r + j)) && !s.on Reg.CLU_ROLE_retired (17 * r + j);
    let short := ∃ r < 24, (if (List.range 17).any (fun j => s.on Reg.CLU_ROLE_retired (17 * r + j)) = true then 0 else 1) < (newly r).length;
    (opened) ∧ (k = 3) ∧ (¬ short)) ∧
    (let s : State := ({ on 0 [] with power := { State.reset.power with basinDefault := 0, bringUp := [1, 2, 3] } });
    let step : Fin 9 := 4;
    let k := step.val;
    let opened := StepOpen s k;
    (opened) ∧ (k = 4)) ∧
    (let s : State := ({ on 0 [] with power := { State.reset.power with basinDefault := 0, bringUp := [1, 2, 4, 3] } });
    let step : Fin 9 := 5;
    let k := step.val;
    let p := s.power;
    let opened := StepOpen s k;
    (opened) ∧ (k = 5) ∧ (p.bistUnits = []) ∧ ((∀ x ∈ p.bistUnits, x.1 ≠ 7))) ∧
    (let s : State := ({ on 0 [] with power := { State.reset.power with basinDefault := 0, bringUp := [1, 2, 3, 4, 5] } });
    let step : Fin 9 := 6;
    let k := step.val;
    let opened := StepOpen s k;
    (opened) ∧ (k = 6)) ∧
    (let s : State := ({ on 0 [] with power := { State.reset.power with basinDefault := 0, bringUp := [1, 2, 3, 4, 5, 6] } });
    let step : Fin 9 := 7;
    let k := step.val;
    let opened := StepOpen s k;
    (opened) ∧ (k = 7)) ∧
    (let s : State := ({ on 0 [] with power := { State.reset.power with basinDefault := 0, bringUp := [1, 2, 3, 4, 5, 6, 7] } });
    let step : Fin 9 := 8;
    let k := step.val;
    let p := s.power;
    let opened := StepOpen s k;
    (opened) ∧ (k = 8) ∧ (p.tamperPending = false)) ∧
    (let s : State := ({ on 0 [] with power := { State.reset.power with basinDefault := 0, bringUp := [1, 2, 3, 4, 5, 6, 7], tamperPending := true } });
    let step : Fin 9 := 8;
    let k := step.val;
    let p := s.power;
    let opened := StepOpen s k;
    (opened) ∧ (k = 8) ∧ (p.tamperPending = true)) ∧
    (let s : State := ({ on 1 [] with power := { State.reset.power with basinDefault := 0 } });
    let p := s.power;
    (s.rg Reg.PWR_MODE_mode 0 ≠ 0 ∨ p.perst = true)) := by
  refine ⟨?_, ?_, ?_, ?_, ?_, ?_, ?_, ?_, ?_, ?_, ?_, ?_, ?_⟩ <;> (dsimp only <;> decide +kernel)

/-- States and operands that meet the hypotheses of ModeRequestsAndDomains. -/
theorem test_meets_ModeRequestsAndDomains :
    (let s : State := (on 2 []);
    let who : Requester := (Requester.pf);
    let v : Word := (0x80000001 : Word);
    let mode := s.rg Reg.PWR_MODE_mode 0;
    let able := Writable s who 0xD00000;
    let request := v.toNat % 4;
    let q := s.power.switches;
    (able) ∧ (request = 1) ∧ (mode = 2) ∧ (q = [])) ∧
    (let s : State := (on 1 []);
    let who : Requester := (Requester.pf);
    let v : Word := (2 : Word);
    let mode := s.rg Reg.PWR_MODE_mode 0;
    let able := Writable s who 0xD00000;
    let request := v.toNat % 4;
    (able) ∧ (request = 2) ∧ (mode = 1) ∧ ((∀ t < 16, s.loaded t = false))) ∧
    (let s : State := (on 1 [(Reg.WHF_TSTAT_mode, 15, 1)]);
    let who : Requester := (Requester.pf);
    let v : Word := (2 : Word);
    let mode := s.rg Reg.PWR_MODE_mode 0;
    let able := Writable s who 0xD00000;
    let request := v.toNat % 4;
    (able) ∧ (request = 2) ∧ (mode = 1) ∧ ((∃ t < 16, s.loaded t = true))) ∧
    (let s : State := (on 3 []);
    let who : Requester := (Requester.pf);
    let v : Word := (0x80000001 : Word);
    let mode := s.rg Reg.PWR_MODE_mode 0;
    let able := Writable s who 0xD00000;
    let request := v.toNat % 4;
    (able) ∧ ((request = 1 → mode ≠ 2)) ∧ ((request = 2 → mode ≠ 1))) ∧
    (let s : State := ({ on 1 [] with power := { State.reset.power with basinDefault := 0, switches := [(23, 1), (34, 0)] } });
    let q := s.power.switches;
    let e := ((23, 1) : Nat × Nat);
    (e ∈ q.head?)) := by
  refine ⟨?_, ?_, ?_, ?_, ?_⟩ <;> (dsimp only <;> decide +kernel)

/-- States and operands that meet the hypotheses of StandbyAndWake. -/
theorem test_meets_StandbyAndWake :
    (let s : State := (on 1 []);
    let mode := s.rg Reg.PWR_MODE_mode 0;
    let ready := mode = 1 ∧ s.on Reg.PWR_CTRL_standby_en 0 = true ∧ (s.fn 0).d3hot = true ∧
      (∀ f < 16, f ≠ 0 → (s.fn f).d3hot = true ∨ (s.fn 0).vfEnable = false ∨ (s.fn 0).numVfs < f) ∧
      ∀ t < 16, s.rg Reg.WHF_TSTAT_mode t ∉ [2, 4, 5];
    let fires := s.on Reg.AON_CMP_wake_en 0 = true ∧ s.power.wakeTime ≤ s.power.time;
    (¬ ready) ∧ (¬ fires)) ∧
    (let s : State := ({ (on 1 [(Reg.PWR_CTRL_standby_en, 0, 1)]) with fns := [(0, { d3hot := true })] });
    let mode := s.rg Reg.PWR_MODE_mode 0;
    let ready := mode = 1 ∧ s.on Reg.PWR_CTRL_standby_en 0 = true ∧ (s.fn 0).d3hot = true ∧
      (∀ f < 16, f ≠ 0 → (s.fn f).d3hot = true ∨ (s.fn 0).vfEnable = false ∨ (s.fn 0).numVfs < f) ∧
      ∀ t < 16, s.rg Reg.WHF_TSTAT_mode t ∉ [2, 4, 5];
    (ready)) ∧
    (let s : State := ({ on 1 [(Reg.AON_CMP_wake_en, 0, 1)] with power := { State.reset.power with basinDefault := 0, time := 5, wakeTime := 5 } });
    let fires := s.on Reg.AON_CMP_wake_en 0 = true ∧ s.power.wakeTime ≤ s.power.time;
    (fires)) := by
  refine ⟨?_, ?_, ?_⟩ <;> (dsimp only <;> decide +kernel)

/-- States and operands that meet the hypotheses of VoltageAndComparators. -/
theorem test_meets_VoltageAndComparators :
    (let s : State := ({ on 1 [(Reg.PWR_VCORE_request, 0, 850), (Reg.PWR_VCORE_vmin, 0, 700), (Reg.PWR_VCORE_vmax, 0, 900), (Reg.PWR_LIMIT_power, 0, 0), (Reg.PWR_LIMIT_limit, 0, 240), (Reg.AON_CMP_temp_warn, 0, 100)] with power := { State.reset.power with basinDefault := 0, avsDown := true } });
    let temp : BitVec 8 := (109 : BitVec 8);
    let mv : BitVec 10 := (880 : BitVec 10);
    let ok : Bool := true;
    let who : Requester := (Requester.pf);
    let r := s.rg Reg.PWR_VCORE_request 0;
    let warn : Int := s.rg Reg.AON_CMP_temp_warn 0;
    let down := s.power.avsDown = true;
    let calm := s.rg Reg.PWR_MODE_mode 0 ≠ 5 ∨ s.power.tamperPending = false;
    let warned := warn ≤ temp.toInt ∧ s.power.warned = false;
    let stray := r + 30 < mv.toNat ∨ mv.toNat + 30 < r;
    (down) ∧ (Writable s who 0xD0000C) ∧ (warned) ∧ (calm) ∧ (temp.toInt < 110) ∧ (s.power.perst = false) ∧ (¬ stray) ∧ (ok = true)) ∧
    (let s : State := ({ on 1 [(Reg.PWR_VCORE_request, 0, 705), (Reg.PWR_VCORE_vmin, 0, 700), (Reg.PWR_VCORE_vmax, 0, 900), (Reg.PWR_LIMIT_power, 0, 2400), (Reg.PWR_LIMIT_limit, 0, 240), (Reg.AON_CMP_temp_warn, 0, 100)] with power := { State.reset.power with basinDefault := 0 } });
    let mv : BitVec 10 := (880 : BitVec 10);
    let ok : Bool := true;
    let r := s.rg Reg.PWR_VCORE_request 0;
    let lo := s.rg Reg.PWR_VCORE_vmin 0;
    let hi := s.rg Reg.PWR_VCORE_vmax 0;
    let p := s.rg Reg.PWR_LIMIT_power 0;
    let limit := 10 * s.rg Reg.PWR_LIMIT_limit 0;
    let warn : Int := s.rg Reg.AON_CMP_temp_warn 0;
    let die := (BitVec.ofNat 8 (s.rg Reg.AON_STAT_temp 0)).toInt;
    let hot := limit ≤ p ∨ warn ≤ die;
    let down := s.power.avsDown = true;
    let stray := r + 30 < mv.toNat ∨ mv.toNat + 30 < r;
    (¬ down) ∧ (lo ≤ r) ∧ (r ≤ hi) ∧ (hot) ∧ (lo + 5 ≤ r) ∧ (stray) ∧ (ok = true)) ∧
    (let s : State := ({ on 1 [(Reg.PWR_VCORE_request, 0, 704), (Reg.PWR_VCORE_vmin, 0, 700), (Reg.PWR_VCORE_vmax, 0, 900), (Reg.PWR_LIMIT_power, 0, 2400), (Reg.PWR_LIMIT_limit, 0, 240), (Reg.AON_CMP_temp_warn, 0, 100)] with power := { State.reset.power with basinDefault := 0 } });
    let r := s.rg Reg.PWR_VCORE_request 0;
    let lo := s.rg Reg.PWR_VCORE_vmin 0;
    let hi := s.rg Reg.PWR_VCORE_vmax 0;
    let p := s.rg Reg.PWR_LIMIT_power 0;
    let limit := 10 * s.rg Reg.PWR_LIMIT_limit 0;
    let warn : Int := s.rg Reg.AON_CMP_temp_warn 0;
    let die := (BitVec.ofNat 8 (s.rg Reg.AON_STAT_temp 0)).toInt;
    let hot := limit ≤ p ∨ warn ≤ die;
    let down := s.power.avsDown = true;
    (¬ down) ∧ (lo ≤ r) ∧ (r ≤ hi) ∧ (hot) ∧ (r < lo + 5)) ∧
    (let s : State := ({ on 1 [(Reg.PWR_VCORE_request, 0, 895), (Reg.PWR_VCORE_vmin, 0, 700), (Reg.PWR_VCORE_vmax, 0, 900), (Reg.PWR_LIMIT_power, 0, 2280), (Reg.PWR_LIMIT_limit, 0, 240), (Reg.AON_CMP_temp_warn, 0, 100)] with power := { State.reset.power with basinDefault := 0 } });
    let r := s.rg Reg.PWR_VCORE_request 0;
    let lo := s.rg Reg.PWR_VCORE_vmin 0;
    let hi := s.rg Reg.PWR_VCORE_vmax 0;
    let p := s.rg Reg.PWR_LIMIT_power 0;
    let limit := 10 * s.rg Reg.PWR_LIMIT_limit 0;
    let warn : Int := s.rg Reg.AON_CMP_temp_warn 0;
    let die := (BitVec.ofNat 8 (s.rg Reg.AON_STAT_temp 0)).toInt;
    let hot := limit ≤ p ∨ warn ≤ die;
    let cool := 100 * p ≤ 95 * limit ∧ die < warn - 3;
    let down := s.power.avsDown = true;
    (¬ down) ∧ (lo ≤ r) ∧ (r ≤ hi) ∧ (¬ hot) ∧ (cool) ∧ (r + 5 ≤ hi)) ∧
    (let s : State := ({ on 1 [(Reg.PWR_VCORE_request, 0, 896), (Reg.PWR_VCORE_vmin, 0, 700), (Reg.PWR_VCORE_vmax, 0, 900), (Reg.PWR_LIMIT_power, 0, 0), (Reg.PWR_LIMIT_limit, 0, 240), (Reg.AON_CMP_temp_warn, 0, 100)] with power := { State.reset.power with basinDefault := 0 } });
    let r := s.rg Reg.PWR_VCORE_request 0;
    let lo := s.rg Reg.PWR_VCORE_vmin 0;
    let hi := s.rg Reg.PWR_VCORE_vmax 0;
    let p := s.rg Reg.PWR_LIMIT_power 0;
    let limit := 10 * s.rg Reg.PWR_LIMIT_limit 0;
    let warn : Int := s.rg Reg.AON_CMP_temp_warn 0;
    let die := (BitVec.ofNat 8 (s.rg Reg.AON_STAT_temp 0)).toInt;
    let hot := limit ≤ p ∨ warn ≤ die;
    let cool := 100 * p ≤ 95 * limit ∧ die < warn - 3;
    let down := s.power.avsDown = true;
    (¬ down) ∧ (lo ≤ r) ∧ (r ≤ hi) ∧ (¬ hot) ∧ ((¬ cool ∨ hi < r + 5))) ∧
    (let s : State := ({ on 1 [(Reg.PWR_VCORE_request, 0, 901), (Reg.PWR_VCORE_vmin, 0, 700), (Reg.PWR_VCORE_vmax, 0, 900), (Reg.PWR_LIMIT_power, 0, 0), (Reg.PWR_LIMIT_limit, 0, 240), (Reg.AON_CMP_temp_warn, 0, 100)] with power := { State.reset.power with basinDefault := 0 } });
    let r := s.rg Reg.PWR_VCORE_request 0;
    let lo := s.rg Reg.PWR_VCORE_vmin 0;
    let hi := s.rg Reg.PWR_VCORE_vmax 0;
    let p := s.rg Reg.PWR_LIMIT_power 0;
    let limit := 10 * s.rg Reg.PWR_LIMIT_limit 0;
    let warn : Int := s.rg Reg.AON_CMP_temp_warn 0;
    let die := (BitVec.ofNat 8 (s.rg Reg.AON_STAT_temp 0)).toInt;
    let hot := limit ≤ p ∨ warn ≤ die;
    let down := s.power.avsDown = true;
    (¬ down) ∧ (lo ≤ hi) ∧ (hi < r) ∧ (¬ hot)) ∧
    (let s : State := ({ on 1 [(Reg.PWR_VCORE_request, 0, 699), (Reg.PWR_VCORE_vmin, 0, 700), (Reg.PWR_VCORE_vmax, 0, 900), (Reg.PWR_LIMIT_power, 0, 0), (Reg.PWR_LIMIT_limit, 0, 240), (Reg.AON_CMP_temp_warn, 0, 100)] with power := { State.reset.power with basinDefault := 0 } });
    let r := s.rg Reg.PWR_VCORE_request 0;
    let lo := s.rg Reg.PWR_VCORE_vmin 0;
    let hi := s.rg Reg.PWR_VCORE_vmax 0;
    let down := s.power.avsDown = true;
    (¬ down) ∧ (lo ≤ hi) ∧ (r < lo)) ∧
    (let s : State := ({ on 1 [(Reg.PWR_VCORE_request, 0, 850), (Reg.PWR_VCORE_vmin, 0, 700), (Reg.PWR_VCORE_vmax, 0, 900), (Reg.PWR_LIMIT_power, 0, 0), (Reg.PWR_LIMIT_limit, 0, 240), (Reg.AON_CMP_temp_warn, 0, 100)] with power := { State.reset.power with basinDefault := 0 } });
    let temp : BitVec 8 := (99 : BitVec 8);
    let warn : Int := s.rg Reg.AON_CMP_temp_warn 0;
    let warned := warn ≤ temp.toInt ∧ s.power.warned = false;
    (¬ warned)) ∧
    (let temp : BitVec 8 := (110 : BitVec 8);
    (110 ≤ temp.toInt)) ∧
    (let s : State := ({ on 1 [(Reg.PWR_VCORE_request, 0, 850), (Reg.PWR_VCORE_vmin, 0, 700), (Reg.PWR_VCORE_vmax, 0, 900), (Reg.PWR_LIMIT_power, 0, 0), (Reg.PWR_LIMIT_limit, 0, 240), (Reg.AON_CMP_temp_warn, 0, 100)] with power := { State.reset.power with basinDefault := 0, perst := true } });
    (s.power.perst = true)) ∧
    (let s : State := ({ on 1 [(Reg.PWR_VCORE_request, 0, 850), (Reg.PWR_VCORE_vmin, 0, 700), (Reg.PWR_VCORE_vmax, 0, 900), (Reg.PWR_LIMIT_power, 0, 0), (Reg.PWR_LIMIT_limit, 0, 240), (Reg.AON_CMP_temp_warn, 0, 100)] with power := { State.reset.power with basinDefault := 0 } });
    let ok : Bool := false;
    let down := s.power.avsDown = true;
    (¬ down) ∧ (ok = false)) ∧
    (let s : State := ({ on 1 [(Reg.PWR_VCORE_request, 0, 850), (Reg.PWR_VCORE_vmin, 0, 700), (Reg.PWR_VCORE_vmax, 0, 900), (Reg.PWR_LIMIT_power, 0, 0), (Reg.PWR_LIMIT_limit, 0, 240), (Reg.AON_CMP_temp_warn, 0, 100)] with power := { State.reset.power with basinDefault := 0, avsDown := true } });
    let ok : Bool := false;
    let down := s.power.avsDown = true;
    (down) ∧ (ok = false)) := by
  refine ⟨?_, ?_, ?_, ?_, ?_, ?_, ?_, ?_, ?_, ?_, ?_, ?_⟩ <;> (dsimp only <;> decide +kernel)

/-- States and operands that meet the hypotheses of AlwaysOnRegistersAndSmbus. -/
theorem test_meets_AlwaysOnRegistersAndSmbus :
    (let s : State := (on 1 []);
    let who : Requester := (Requester.pf);
    let b : Byte := (1 : Byte);
    let pec : Bool := true;
    let mode := s.rg Reg.PWR_MODE_mode 0;
    let mine := who = .pf ∧ s.on Reg.AON_TSYNC_en 0 = false;
    (Writable s who 0xD00044) ∧ (mine) ∧ (Writable s who 0xD00050) ∧ (Readable s who 0xD0005C) ∧ (who = .pf) ∧ (mode = 1) ∧
    (pec = true) ∧ (b = 1)) ∧
    (let s : State := (on 1 [(Reg.AON_TSYNC_en, 0, 1)]);
    let who : Requester := (Requester.pf);
    let mine := who = .pf ∧ s.on Reg.AON_TSYNC_en 0 = false;
    (Writable s who 0xD00044) ∧ (who = .pf) ∧ (¬ mine)) ∧
    (let s : State := (on 1 []);
    let who : Requester := (Requester.keeper 0 0 0);
    (Writable s who 0xD00044) ∧ (who ≠ .pf)) ∧
    (let s : State := (on 1 []);
    let who : Requester := (Requester.keeper 3 0 0);
    (Readable s who 0xD0005C) ∧ (who ≠ .pf)) ∧
    (let s : State := (on 4 []);
    let mode := s.rg Reg.PWR_MODE_mode 0;
    let off := mode = 0 ∨ mode = 4;
    (off)) ∧
    (let s : State := (on 5 []);
    let b : Byte := (1 : Byte);
    let pec : Bool := true;
    let mode := s.rg Reg.PWR_MODE_mode 0;
    let off := mode = 0 ∨ mode = 4;
    (¬ off) ∧ (mode ≠ 1) ∧ (mode = 5) ∧ (pec = true) ∧ (b = 1)) ∧
    (let s : State := (on 3 []);
    let mode := s.rg Reg.PWR_MODE_mode 0;
    (mode = 2 ∨ mode = 3)) ∧
    (let s : State := (on 5 []);
    let b : Byte := (1 : Byte);
    let pec : Bool := false;
    let mode := s.rg Reg.PWR_MODE_mode 0;
    let off := mode = 0 ∨ mode = 4;
    (¬ off) ∧ (pec = false) ∧ (pec = false ∨ b ≠ 1)) := by
  refine ⟨?_, ?_, ?_, ?_, ?_, ?_, ?_, ?_⟩ <;> (dsimp only <;> decide +kernel)

/-- States and operands that meet the hypotheses of BasinsAndPlanks. -/
theorem test_meets_BasinsAndPlanks :
    (let s : State := (on 1 [(Reg.PWR_BASIN_SEL_kind, 0, 0), (Reg.PWR_BASIN_SEL_instance, 0, 511)]);
    let who : Requester := (Requester.pf);
    let v : Word := (0x84 : Word);
    let able := Writable s who 0xD00020;
    let go := bit v.toNat 31 = true;
    (able) ∧ (s.selBasin who = none) ∧ (Writable s who 0xD00024) ∧ (¬ go)) ∧
    (let s : State := (on 1 [(Reg.PWR_BASIN_SEL_kind, 0, 0), (Reg.PWR_BASIN_SEL_instance, 0, 407)]);
    let who : Requester := (Requester.pf);
    let v : Word := (0x84 : Word);
    let b : Nat := 407;
    let mode := s.rg Reg.PWR_MODE_mode 0;
    let owner := v.toNat % 8;
    let shut := mode = 1 ∨ mode = 2 ∨ mode = 5 ∨ 5 ≤ owner ∨ (b / 512 = 5 ∧ owner ≠ 1 ∧ owner ≠ 3);
    let able := Writable s who 0xD00020;
    (able) ∧ (s.selBasin who = some b) ∧ (shut)) ∧
    (let s : State := (on 3 [(Reg.PWR_BASIN_SEL_kind, 0, 0), (Reg.PWR_BASIN_SEL_instance, 0, 407), (Reg.PWR_BASIN_OWN_owner, 407, 4)]);
    let who : Requester := (Requester.pf);
    let v : Word := (0x84 : Word);
    let b : Nat := 407;
    let mode := s.rg Reg.PWR_MODE_mode 0;
    let owner := v.toNat % 8;
    let shut := mode = 1 ∨ mode = 2 ∨ mode = 5 ∨ 5 ≤ owner ∨ (b / 512 = 5 ∧ owner ≠ 1 ∧ owner ≠ 3);
    let mine := s.basinOwner b = s.ownerCode who ∨ (s.isKeeper0 who = true ∧ ringOf who = 0);
    let able := Writable s who 0xD00020;
    (able) ∧ (s.selBasin who = some b) ∧ (¬ shut) ∧ (mine)) ∧
    (let s : State := (on 3 [(Reg.PWR_BASIN_SEL_kind, 0, 0), (Reg.PWR_BASIN_SEL_instance, 0, 407), (Reg.PWR_BASIN_OWN_owner, 407, 0)]);
    let who : Requester := (Requester.pf);
    let v : Word := (0x84 : Word);
    let b : Nat := 407;
    let mode := s.rg Reg.PWR_MODE_mode 0;
    let owner := v.toNat % 8;
    let shut := mode = 1 ∨ mode = 2 ∨ mode = 5 ∨ 5 ≤ owner ∨ (b / 512 = 5 ∧ owner ≠ 1 ∧ owner ≠ 3);
    let mine := s.basinOwner b = s.ownerCode who ∨ (s.isKeeper0 who = true ∧ ringOf who = 0);
    let able := Writable s who 0xD00020;
    (able) ∧ (s.selBasin who = some b) ∧ (¬ shut) ∧ (¬ mine)) ∧
    (let s : State := (on 2 []);
    let who : Requester := (Requester.pf);
    let v : Word := (BitVec.ofNat 32 (2 ^ 31 + 2 ^ 30 + 7 * 2 ^ 26 + 15 * 2 ^ 17));
    let mode := s.rg Reg.PWR_MODE_mode 0;
    let go := bit v.toNat 31 = true;
    let heard := who = .pf ∧ mode = 1 ∧ ∀ t < 16, s.loaded t = false;
    (Writable s who 0xD00024) ∧ (go) ∧ (¬ heard)) ∧
    (let s : State := (on 1 []);
    let who : Requester := (Requester.pf);
    let v : Word := (BitVec.ofNat 32 (2 ^ 31 + 2 ^ 30 + 0 * 2 ^ 26 + 408 * 2 ^ 17));
    let mode := s.rg Reg.PWR_MODE_mode 0;
    let go := bit v.toNat 31 = true;
    let heard := who = .pf ∧ mode = 1 ∧ ∀ t < 16, s.loaded t = false;
    let cls := bits v.toNat 26 4;
    let i := bits v.toNat 17 9;
    let taken := Writable s who 0xD00024 ∧ go ∧ heard;
    (taken) ∧ ((cls ≤ 2 ∧ 408 ≤ i) ∨ (3 ≤ cls ∧ cls ≤ 5 ∧ 24 ≤ i) ∨ (cls = 6 ∧ 2 ≤ i) ∨ (cls = 7 ∧ 16 ≤ i) ∨ 8 ≤ cls)) ∧
    (let s : State := (on 1 []);
    let who : Requester := (Requester.pf);
    let v : Word := (BitVec.ofNat 32 (2 ^ 31 + 2 ^ 30 + 2 * 2 ^ 26 + 407 * 2 ^ 17));
    let mode := s.rg Reg.PWR_MODE_mode 0;
    let go := bit v.toNat 31 = true;
    let heard := who = .pf ∧ mode = 1 ∧ ∀ t < 16, s.loaded t = false;
    let cls := bits v.toNat 26 4;
    let i := bits v.toNat 17 9;
    let taken := Writable s who 0xD00024 ∧ go ∧ heard;
    (taken) ∧ (cls ≤ 2) ∧ (i < 408)) ∧
    (let s : State := (on 1 []);
    let who : Requester := (Requester.pf);
    let v : Word := (BitVec.ofNat 32 (2 ^ 31 + 2 ^ 30 + 4 * 2 ^ 26 + 23 * 2 ^ 17));
    let mode := s.rg Reg.PWR_MODE_mode 0;
    let go := bit v.toNat 31 = true;
    let heard := who = .pf ∧ mode = 1 ∧ ∀ t < 16, s.loaded t = false;
    let cls := bits v.toNat 26 4;
    let i := bits v.toNat 17 9;
    let taken := Writable s who 0xD00024 ∧ go ∧ heard;
    (taken) ∧ (cls = 3 ∨ cls = 4) ∧ (i < 24)) ∧
    (let s : State := (on 1 []);
    let who : Requester := (Requester.pf);
    let v : Word := (BitVec.ofNat 32 (2 ^ 31 + 2 ^ 30 + 5 * 2 ^ 26 + 23 * 2 ^ 17));
    let mode := s.rg Reg.PWR_MODE_mode 0;
    let go := bit v.toNat 31 = true;
    let heard := who = .pf ∧ mode = 1 ∧ ∀ t < 16, s.loaded t = false;
    let cls := bits v.toNat 26 4;
    let i := bits v.toNat 17 9;
    let taken := Writable s who 0xD00024 ∧ go ∧ heard;
    (taken) ∧ (cls = 5) ∧ (i < 24)) ∧
    (let s : State := (on 1 []);
    let who : Requester := (Requester.pf);
    let v : Word := (BitVec.ofNat 32 (2 ^ 31 + 2 ^ 30 + 6 * 2 ^ 26 + 1 * 2 ^ 17));
    let mode := s.rg Reg.PWR_MODE_mode 0;
    let go := bit v.toNat 31 = true;
    let heard := who = .pf ∧ mode = 1 ∧ ∀ t < 16, s.loaded t = false;
    let cls := bits v.toNat 26 4;
    let i := bits v.toNat 17 9;
    let taken := Writable s who 0xD00024 ∧ go ∧ heard;
    (taken) ∧ (cls = 6) ∧ (i < 2)) ∧
    (let s : State := (on 1 []);
    let who : Requester := (Requester.pf);
    let v : Word := (BitVec.ofNat 32 (2 ^ 31 + 2 ^ 30 + 7 * 2 ^ 26 + 15 * 2 ^ 17));
    let mode := s.rg Reg.PWR_MODE_mode 0;
    let go := bit v.toNat 31 = true;
    let heard := who = .pf ∧ mode = 1 ∧ ∀ t < 16, s.loaded t = false;
    let cls := bits v.toNat 26 4;
    let i := bits v.toNat 17 9;
    let unit := s.rg Reg.PWR_PLANK_UNIT_unit 0;
    let lane := unit % 8;
    let taken := Writable s who 0xD00024 ∧ go ∧ heard;
    (taken) ∧ (cls = 7) ∧ (i < 16) ∧ (lane < 5) ∧ (s.on Reg.AQ_STATUS_spare_used i = false)) ∧
    (let s : State := (on 1 [(Reg.PWR_PLANK_UNIT_unit, 0, 5)]);
    let who : Requester := (Requester.pf);
    let v : Word := (BitVec.ofNat 32 (2 ^ 31 + 2 ^ 30 + 7 * 2 ^ 26 + 15 * 2 ^ 17));
    let mode := s.rg Reg.PWR_MODE_mode 0;
    let go := bit v.toNat 31 = true;
    let heard := who = .pf ∧ mode = 1 ∧ ∀ t < 16, s.loaded t = false;
    let cls := bits v.toNat 26 4;
    let i := bits v.toNat 17 9;
    let unit := s.rg Reg.PWR_PLANK_UNIT_unit 0;
    let lane := unit % 8;
    let taken := Writable s who 0xD00024 ∧ go ∧ heard;
    (taken) ∧ (cls = 7) ∧ (i < 16) ∧ ((5 ≤ lane ∨ s.on Reg.AQ_STATUS_spare_used i = true)) ∧ (s.rg Reg.AQ_STATUS_state i ≠ 9)) := by
  refine ⟨?_, ?_, ?_, ?_, ?_, ?_, ?_, ?_, ?_, ?_, ?_, ?_⟩ <;> (dsimp only <;> decide +kernel)

/-- A wrapped key opens or does not. -/
theorem opt_or {α : Type} (o : Option α) : o = none ∨ ∃ k, k ∈ o := by cases o <;> simp
/-- States and operands that meet the hypotheses of LifeCycleAndKeys. -/
theorem test_meets_LifeCycleAndKeys :
    (let s : State := (on 1 []);
    let who : Requester := (Requester.pf);
    let v : Word := (0x7FFFFFFF : Word);
    let able := Writable s who 0xD00084;
    let go := bit v.toNat 31 = true;
    let open_ := Writable s who 0xD00088;
    (able) ∧ (¬ go) ∧ (open_) ∧ (Writable s who 0xD0008C)) ∧
    (let s : State := (on 1 []);
    let who : Requester := (Requester.pf);
    let v : Word := (0x8A5B0003 : Word);
    let able := Writable s who 0xD00084;
    let go := bit v.toNat 31 = true;
    let target := v.toNat % 4;
    let legal := who = .pf ∧ s.rg Reg.PWR_MODE_mode 0 = 1 ∧ (∀ t < 16, s.loaded t = false) ∧ bits v.toNat 16 12 = 0xA5C ∧
      (s.rg Reg.SEC_LC_state 0, target) ∈ [(0, 1), (1, 2), (1, 3), (2, 3)];
    let open_ := Writable s who 0xD00088;
    let slot := v.toNat % 128;
    let tenant := bits v.toNat 16 4;
    let wrapped := bit v.toNat 20;
    let erase := bit v.toNat 24 = true;
    let lc := s.rg Reg.SEC_LC_state 0;
    let refused := lc = 0 ∨ lc = 3 ∨ (lc = 2 ∧ wrapped = false) ∨ (wrapped = true ∧ s.on Reg.SEC_LC_kek_ok 0 = false);
    let blob := s.secure.staging.flatMap fun x => leBytes 4 x.toNat;
    let n := if slot < 64 then 32 else 48;
    let part := fun (off k : Nat) => (List.range k).map fun i => blob.getD (off + i) 0;
    let opened := Config.gcmOpen Config.kek (part 0 12) (leBytes 2 slot ++ leBytes 2 tenant) (part 12 n) (part (12 + n) 16);
    let works := open_ ∧ go ∧ slot < 80;
    (able) ∧ (go) ∧ (¬ legal) ∧ (works) ∧ (¬ erase) ∧ (¬ refused) ∧ (keyValid s slot = false) ∧ (wrapped = true) ∧ (opened = none ∨ ∃ k, k ∈ opened)) ∧
    (let s : State := (on 1 [(Reg.SEC_LC_state, 0, 2)]);
    let who : Requester := (Requester.pf);
    let v : Word := (0x8A5C0003 : Word);
    let able := Writable s who 0xD00084;
    let go := bit v.toNat 31 = true;
    let target := v.toNat % 4;
    let legal := who = .pf ∧ s.rg Reg.PWR_MODE_mode 0 = 1 ∧ (∀ t < 16, s.loaded t = false) ∧ bits v.toNat 16 12 = 0xA5C ∧
      (s.rg Reg.SEC_LC_state 0, target) ∈ [(0, 1), (1, 2), (1, 3), (2, 3)];
    (able) ∧ (go) ∧ (legal)) ∧
    (let s : State := (on 1 []);
    let who : Requester := (Requester.pf);
    let v : Word := (0x80000050 : Word);
    let go := bit v.toNat 31 = true;
    let open_ := Writable s who 0xD00088;
    let slot := v.toNat % 128;
    (open_) ∧ (go) ∧ (80 ≤ slot)) ∧
    (let s : State := (on 1 []);
    let who : Requester := (Requester.pf);
    let v : Word := (0x8100004F : Word);
    let go := bit v.toNat 31 = true;
    let open_ := Writable s who 0xD00088;
    let slot := v.toNat % 128;
    let erase := bit v.toNat 24 = true;
    let works := open_ ∧ go ∧ slot < 80;
    (works) ∧ (erase)) ∧
    (let s : State := (on 1 [(Reg.SEC_LC_state, 0, 3)]);
    let who : Requester := (Requester.pf);
    let v : Word := (0x8000004F : Word);
    let go := bit v.toNat 31 = true;
    let open_ := Writable s who 0xD00088;
    let slot := v.toNat % 128;
    let wrapped := bit v.toNat 20;
    let erase := bit v.toNat 24 = true;
    let lc := s.rg Reg.SEC_LC_state 0;
    let refused := lc = 0 ∨ lc = 3 ∨ (lc = 2 ∧ wrapped = false) ∨ (wrapped = true ∧ s.on Reg.SEC_LC_kek_ok 0 = false);
    let works := open_ ∧ go ∧ slot < 80;
    (works) ∧ (¬ erase) ∧ (refused)) ∧
    (let s : State := ({ (on 1 [(Reg.SEC_LC_state, 0, 1)]) with secure := { basin := [(24 * 63 + 22, store 2048)] } });
    let who : Requester := (Requester.pf);
    let v : Word := (0x8000003F : Word);
    let go := bit v.toNat 31 = true;
    let open_ := Writable s who 0xD00088;
    let slot := v.toNat % 128;
    let wrapped := bit v.toNat 20;
    let erase := bit v.toNat 24 = true;
    let lc := s.rg Reg.SEC_LC_state 0;
    let refused := lc = 0 ∨ lc = 3 ∨ (lc = 2 ∧ wrapped = false) ∨ (wrapped = true ∧ s.on Reg.SEC_LC_kek_ok 0 = false);
    let works := open_ ∧ go ∧ slot < 80;
    (works) ∧ (¬ erase) ∧ (¬ refused) ∧ (keyValid s slot = true)) ∧
    (let s : State := (on 1 [(Reg.SEC_LC_state, 0, 1)]);
    let who : Requester := (Requester.pf);
    let v : Word := (0x8000003F : Word);
    let go := bit v.toNat 31 = true;
    let open_ := Writable s who 0xD00088;
    let slot := v.toNat % 128;
    let wrapped := bit v.toNat 20;
    let erase := bit v.toNat 24 = true;
    let lc := s.rg Reg.SEC_LC_state 0;
    let refused := lc = 0 ∨ lc = 3 ∨ (lc = 2 ∧ wrapped = false) ∨ (wrapped = true ∧ s.on Reg.SEC_LC_kek_ok 0 = false);
    let works := open_ ∧ go ∧ slot < 80;
    (works) ∧ (¬ erase) ∧ (¬ refused) ∧ (keyValid s slot = false) ∧ (wrapped = false)) := by
  refine ⟨?_, ?_, ?_, ?_, ?_, ?_, ?_, ?_⟩ <;> (dsimp only <;> and_intros <;> first | decide +kernel | exact opt_or _)

/-- States and operands that meet the hypotheses of TapPort. -/
theorem test_meets_TapPort :
    (let s : State := ({ State.reset with tap := { st := TapState.reset, ir := 0b00000#5 } });
    let x := s.tap;
    (x.st ∉ [.captureIr, .shiftIr, .captureDr, .shiftDr]) ∧ (x.st ∉ [.shiftIr, .shiftDr, .updateIr, .updateDr])) ∧
    (let s : State := ({ State.reset with tap := { st := TapState.captureIr, ir := 0b00000#5 } });
    let x := s.tap;
    (x.st = .captureIr)) ∧
    (let s : State := ({ State.reset with tap := { st := TapState.shiftIr, ir := 0b00000#5 } });
    let x := s.tap;
    (x.st = .shiftIr)) ∧
    (let s : State := ({ State.reset with tap := { st := TapState.captureDr, ir := 0b00001#5 } });
    let x := s.tap;
    let idcode := x.ir = 0b00001#5;
    (x.st = .captureDr) ∧ (idcode)) ∧
    (let s : State := ({ State.reset with tap := { st := TapState.captureDr, ir := 0b00010#5 } });
    let x := s.tap;
    let scan := x.ir = 0b00010#5 ∨ (x.ir = 0b00000#5 ∧ s.power.perst = true);
    (x.st = .captureDr) ∧ (scan)) ∧
    (let s : State := ({ State.reset with tap := { st := TapState.captureDr, ir := 0b11111#5 } });
    let x := s.tap;
    let idcode := x.ir = 0b00001#5;
    let scan := x.ir = 0b00010#5 ∨ (x.ir = 0b00000#5 ∧ s.power.perst = true);
    let bypass := ¬ idcode ∧ ¬ scan;
    (x.st = .captureDr) ∧ (bypass)) ∧
    (let s : State := ({ State.reset with tap := { st := TapState.shiftDr, ir := 0b00001#5 } });
    let x := s.tap;
    let idcode := x.ir = 0b00001#5;
    let scan := x.ir = 0b00010#5 ∨ (x.ir = 0b00000#5 ∧ s.power.perst = true);
    (x.st = .shiftDr) ∧ (idcode) ∧ (¬ scan)) ∧
    (let s : State := ({ State.reset with tap := { st := TapState.shiftDr, ir := 0b00010#5 } });
    let x := s.tap;
    let scan := x.ir = 0b00010#5 ∨ (x.ir = 0b00000#5 ∧ s.power.perst = true);
    (x.st = .shiftDr) ∧ (scan)) ∧
    (let s : State := ({ State.reset with tap := { st := TapState.shiftDr, ir := 0b00000#5 } });
    let x := s.tap;
    let idcode := x.ir = 0b00001#5;
    let scan := x.ir = 0b00010#5 ∨ (x.ir = 0b00000#5 ∧ s.power.perst = true);
    let bypass := ¬ idcode ∧ ¬ scan;
    (x.st = .shiftDr) ∧ (bypass)) ∧
    (let s : State := ({ State.reset with tap := { st := TapState.updateIr, ir := 0b00000#5 } });
    let x := s.tap;
    (x.st = .updateIr)) ∧
    (let s : State := ({ State.reset with tap := { st := TapState.updateDr, ir := 0b00010#5 } });
    let x := s.tap;
    let scan := x.ir = 0b00010#5 ∨ (x.ir = 0b00000#5 ∧ s.power.perst = true);
    (x.st = .updateDr) ∧ (scan)) ∧
    (let s : State := ({ State.reset with tap := { st := TapState.updateDr, ir := 0b00011#5 } });
    let x := s.tap;
    let scan := x.ir = 0b00010#5 ∨ (x.ir = 0b00000#5 ∧ s.power.perst = true);
    (x.st = .updateDr) ∧ (¬ scan)) := by
  refine ⟨?_, ?_, ?_, ?_, ?_, ?_, ?_, ?_, ?_, ?_, ?_, ?_⟩ <;> (dsimp only <;> decide +kernel)

/-- States and operands that meet the hypotheses of FunctionResets. -/
theorem test_meets_FunctionResets :
    (let s : State := (on 4 []);
    let fn : Fin 16 := 15;
    let f := fn.val;
    let there := FnServed s f ∧ LinkUp s;
    let answers := TakesCommands s ∨ s.rg Reg.PWR_MODE_mode 0 = 3;
    (there) ∧ (¬ answers)) ∧
    (let s : State := (on 1 []);
    let fn : Fin 16 := 15;
    let v : Word := (0x7FFFFFFF : Word);
    let f := fn.val;
    let there := FnServed s f ∧ LinkUp s;
    let answers := TakesCommands s ∨ s.rg Reg.PWR_MODE_mode 0 = 3;
    let served := there ∧ answers;
    let preset := bit v.toNat 31 = true;
    let x := s.part f;
    (served) ∧ (¬ preset) ∧ (s.rg Reg.PWR_MODE_mode 0 ≠ 0) ∧ (LinkUp s) ∧ (FnPresent s f) ∧ (f ≠ 0) ∧ (x.bound = [] ∨ s.loaded f = true)) ∧
    (let s : State := (on 3 [(Reg.WHF_TSTAT_mode, 15, 7)]);
    let fn : Fin 16 := 15;
    let v : Word := (0x80000000 : Word);
    let f := fn.val;
    let there := FnServed s f ∧ LinkUp s;
    let answers := TakesCommands s ∨ s.rg Reg.PWR_MODE_mode 0 = 3;
    let served := there ∧ answers;
    let preset := bit v.toNat 31 = true;
    (served) ∧ (preset) ∧ (s.loaded f = true)) ∧
    (let s : State := (on 1 []);
    let fn : Fin 16 := 15;
    let v : Word := (0x80000000 : Word);
    let f := fn.val;
    let there := FnServed s f ∧ LinkUp s;
    let answers := TakesCommands s ∨ s.rg Reg.PWR_MODE_mode 0 = 3;
    let served := there ∧ answers;
    let preset := bit v.toNat 31 = true;
    let x := s.part f;
    (served) ∧ (preset) ∧ (s.loaded f = false) ∧ (x.openCmds = []) ∧ (s.fetched.get f [] = []) ∧ (x.bound = [])) ∧
    (let s : State := ({ (on 1 []) with parts := [(15, { openCmds := [⟨65535, 2, 0⟩] })] });
    let fn : Fin 16 := 15;
    let v : Word := (0x80000000 : Word);
    let f := fn.val;
    let there := FnServed s f ∧ LinkUp s;
    let answers := TakesCommands s ∨ s.rg Reg.PWR_MODE_mode 0 = 3;
    let served := there ∧ answers;
    let preset := bit v.toNat 31 = true;
    let x := s.part f;
    let c := (⟨65535, 2, 0⟩ : OpenCmd);
    (c ∈ x.openCmds.head?) ∧ (served) ∧ (preset) ∧ (x.openCmds.tail = []) ∧ (s.fetched.get f [] = []) ∧ (bit v.toNat 24 = false) ∧
    (bits v.toNat 16 8 = 0) ∧ (s.on Reg.WHF_TCTRL_notify_lock f = false) ∧ (s.rg Reg.WHF_TCTRL_coalesce f = 0)) ∧
    (let s : State := (on 0 []);
    (s.rg Reg.PWR_MODE_mode 0 = 0) ∧ ((∀ t < 16, (s.part t).bound = [] ∨ s.loaded t = true))) ∧
    (let s : State := ({ (on 1 []) with fns := [(0, { memEnable := true })] });
    let fn : Fin 16 := 15;
    let f := fn.val;
    (s.rg Reg.PWR_MODE_mode 0 ≠ 0) ∧ (LinkUp s) ∧ (¬ FnPresent s f)) ∧
    (let s : State := (on 1 []);
    let fn : Fin 16 := 0;
    let f := fn.val;
    (s.rg Reg.PWR_MODE_mode 0 ≠ 0) ∧ (LinkUp s) ∧ (f = 0) ∧ ((∀ t < 16, (s.part t).bound = [] ∨ s.loaded t = true))) := by
  refine ⟨?_, ?_, ?_, ?_, ?_, ?_, ?_, ?_⟩ <;> (dsimp only <;> decide +kernel)

/-- CRC-32C over bytes, its value computed at each byte. -/
def crcGo : List Byte → Nat → Nat
  | [], c => c
  | b :: l, 0 => crcGo l (crcFeed 0 0 b)
  | b :: l, c + 1 => crcGo l (crcFeed 0 (c + 1) b)
theorem crcGo_eq (l : List Byte) (c : Nat) : l.foldl (crcFeed 0) c = crcGo l c := by
  induction l generalizing c with
  | nil => rfl
  | cons b l ih => cases c <;> simp [crcGo, ih]
/-- A container of 4096 bytes with no segment. -/
def bareExport : List Byte := leBytes 4 0x4C434B50 ++ [255, 255, 255] ++ List.replicate 4085 0 ++ [181, 8, 254, 188]
theorem test_export_crc : crcOf 0 (bareExport.take 0xFFC) = sliceLe bareExport 0xFFC 4 := by
  rw [crcOf, crcGo_eq]; decide +kernel
theorem test_export_matches : (on 1 [(Reg.WHF_TSTAT_mode, 15, 1)]).exportMatches 15 bareExport = true := by
  unfold State.exportMatches
  simp only [test_export_crc]
  decide +kernel
/-- States and operands that meet the hypotheses of LoadingImages. -/
theorem test_meets_LoadingImages :
    (let s : State := ({ (on 1 []) with parts := [(15, { openCmds := [⟨65535, 2, 0⟩] })] });
    let t : Fin 16 := 15;
    let cmd : BitVec 16 := (65535 : BitVec 16);
    let length : Nat := 256;
    let free := (s.part t.val).openCmds = [] ∧ EntrySays s t.val cmd 1 [(0x10, 8, length)] ∧ (s.fn t.val).d3hot = false;
    (¬ free)) ∧
    (let s : State := (on 5 []);
    let mode := s.rg Reg.PWR_MODE_mode 0;
    (mode = 0 ∨ mode = 4 ∨ mode = 5)) ∧
    (let s : State := (on 1 [(Reg.AON_STAT_tamper, 0, 1)]);
    let t : Fin 16 := 15;
    let cmd : BitVec 16 := (65535 : BitVec 16);
    let length : Nat := 256;
    let mode := s.rg Reg.PWR_MODE_mode 0;
    let free := (s.part t.val).openCmds = [] ∧ EntrySays s t.val cmd 1 [(0x10, 8, length)] ∧ (s.fn t.val).d3hot = false;
    (free) ∧ ((mode = 2 ∨ mode = 3 ∨ (mode = 1 ∧ s.on Reg.AON_STAT_tamper 0 = true)))) ∧
    (let s : State := (on 1 [(Reg.WHF_TSTAT_mode, 15, 7)]);
    let t : Fin 16 := 15;
    let cmd : BitVec 16 := (65535 : BitVec 16);
    let length : Nat := 256;
    let mode := s.rg Reg.PWR_MODE_mode 0;
    let free := (s.part t.val).openCmds = [] ∧ EntrySays s t.val cmd 1 [(0x10, 8, length)] ∧ (s.fn t.val).d3hot = false;
    let ready := free ∧ mode = 1 ∧ s.on Reg.AON_STAT_tamper 0 = false;
    (ready) ∧ (s.loaded t.val = true)) ∧
    (let s : State := (on 1 []);
    let t : Fin 16 := 15;
    let cmd : BitVec 16 := (65535 : BitVec 16);
    let length : Nat := 64;
    let l : List Byte := (List.replicate 63 (0 : Byte));
    let fails : Bool := true;
    let mode := s.rg Reg.PWR_MODE_mode 0;
    let free := (s.part t.val).openCmds = [] ∧ EntrySays s t.val cmd 1 [(0x10, 8, length)] ∧ (s.fn t.val).d3hot = false;
    let ready := free ∧ mode = 1 ∧ s.on Reg.AON_STAT_tamper 0 = false;
    let noHeader := fails = true ∧ l.length < 0x40;
    (ready) ∧ (s.loaded t.val = false) ∧ (noHeader)) ∧
    (let s : State := (on 1 []);
    let t : Fin 16 := 15;
    let cmd : BitVec 16 := (65535 : BitVec 16);
    let length : Nat := 57;
    let l : List Byte := (List.replicate 56 0 ++ [58]);
    let fails : Bool := false;
    let mode := s.rg Reg.PWR_MODE_mode 0;
    let free := (s.part t.val).openCmds = [] ∧ EntrySays s t.val cmd 1 [(0x10, 8, length)] ∧ (s.fn t.val).d3hot = false;
    let ready := free ∧ mode = 1 ∧ s.on Reg.AON_STAT_tamper 0 = false;
    let noHeader := fails = true ∧ l.length < 0x40;
    (ready) ∧ (s.loaded t.val = false) ∧ (¬ noHeader) ∧ (length ≠ sliceLe l 0x38 8)) ∧
    (let s : State := (on 1 []);
    let t : Fin 16 := 15;
    let cmd : BitVec 16 := (65535 : BitVec 16);
    let length : Nat := 256;
    let l : List Byte := (List.replicate 56 0 ++ [0, 1] ++ List.replicate 198 0);
    let fails : Bool := true;
    let mode := s.rg Reg.PWR_MODE_mode 0;
    let free := (s.part t.val).openCmds = [] ∧ EntrySays s t.val cmd 1 [(0x10, 8, length)] ∧ (s.fn t.val).d3hot = false;
    let ready := free ∧ mode = 1 ∧ s.on Reg.AON_STAT_tamper 0 = false;
    let noHeader := fails = true ∧ l.length < 0x40;
    let whole := fails = false ∧ l.length = length;
    (ready) ∧ (s.loaded t.val = false) ∧ (¬ noHeader) ∧ (length = sliceLe l 0x38 8) ∧ (¬ whole)) ∧
    (let s : State := (on 1 []);
    let t : Fin 16 := 15;
    let cmd : BitVec 16 := (65535 : BitVec 16);
    let length : Nat := 256;
    let l : List Byte := (List.replicate 56 0 ++ [0, 1] ++ List.replicate 198 0);
    let fails : Bool := false;
    let mode := s.rg Reg.PWR_MODE_mode 0;
    let free := (s.part t.val).openCmds = [] ∧ EntrySays s t.val cmd 1 [(0x10, 8, length)] ∧ (s.fn t.val).d3hot = false;
    let ready := free ∧ mode = 1 ∧ s.on Reg.AON_STAT_tamper 0 = false;
    let whole := fails = false ∧ l.length = length;
    let goes := ready ∧ s.loaded t.val = false ∧ whole ∧ length = sliceLe l 0x38 8;
    let r := s.check t.val l;
    (goes) ∧ ((l.length < 256 ∨ crcOf 0 (l.take 252) ≠ sliceLe l 252 4)) ∧ (r.status ≠ 0)) ∧
    (let s : State := (on 1 [(Reg.WHF_TSTAT_mode, 15, 1)]);
    let t : Fin 16 := 15;
    let cmd : BitVec 16 := (65535 : BitVec 16);
    let l : List Byte := (List.replicate 56 0 ++ [0, 1] ++ List.replicate 198 0);
    let canExport := Accepted s t.val cmd 11 [(0x10, 8, l.length)] [1] ∧ (s.fn t.val).d3hot = false;
    (canExport) ∧ (s.exportMatches t.val l = false)) ∧
    (let s : State := (on 1 [(Reg.WHF_TSTAT_mode, 15, 1)]);
    let t : Fin 16 := 15;
    let cmd : BitVec 16 := (65535 : BitVec 16);
    let l : List Byte := bareExport;
    let canExport := Accepted s t.val cmd 11 [(0x10, 8, l.length)] [1] ∧ (s.fn t.val).d3hot = false;
    (canExport) ∧ (s.exportMatches t.val l = true) ∧ (NoHooks s t.val)) := by
  refine ⟨?_, ?_, ?_, ?_, ?_, ?_, ?_, ?_, ?_, ?_⟩
  case refine_10 => exact ⟨by decide +kernel, test_export_matches, by decide +kernel⟩
  all_goals dsimp only <;> decide +kernel

/-- States and operands that meet the hypotheses of BusAccess. -/
theorem test_meets_BusAccess :
    (let s : State := (on 0 []);
    let fn : Fin 16 := 0;
    let bar2 : Bool := true;
    let served := FnServed s fn.val ∧ (bar2 = true ∨ fn.val = 0);
    (¬ served) ∧ (LinkUp s)) ∧
    (let s : State := ({ (on 1 []) with fns := [(0, { memEnable := true })] });
    let who : Requester := (Requester.pf);
    let offset : BitVec 25 := (0x1FFFFFF : BitVec 25);
    let enables : BitVec 4 := (0b1110 : BitVec 4);
    let dword := offset.toNat / 4 * 4;
    let hole := regAt dword = none;
    (LinkUp s) ∧ (enables ≠ 0xF#4) ∧ (s.barOpen .pf dword true = true) ∧ (hole) ∧ (s.barOpen .pf dword false = true) ∧
    (Writable s who 0xD00028)) ∧
    (let who : Requester := (Requester.keeper 0 0 0);
    let offset : BitVec 25 := (0x1FFFFFF : BitVec 25);
    let dword := offset.toNat / 4 * 4;
    let hole := regAt dword = none;
    (hole) ∧ (who ≠ .pf)) := by
  refine ⟨?_, ?_, ?_⟩ <;> (dsimp only <;> decide +kernel)

/-- States and operands that meet the hypotheses of IdleStepCountsTime. -/
theorem test_meets_IdleStepCountsTime :
    (let s : State := (on 1 []);
    (s.pending = []) ∧ (s.ownBarges = []) ∧ (s.supervised = false)) := by
  dsimp only <;> decide +kernel

end Sys2Proof.Tests
end

section
/-!
PROOFS. The state at reset and the worked values (the statements ResetState and WorkedExamples).
-/
namespace Sys2Proof.Machine

/-! ### Registers at reset (R10) -/

/-- No register field is stored at reset, so each reads its own reset value. -/
theorem State.rg_reset (f : Field) (i : Nat) : State.reset.rg f i = f.resetAt i := rfl

/-- Only CLU_ROLE.role and KPR_CTRL.rom_fetch have a Reset column that depends on the unit. -/
theorem State.rg_reset_eq_column {f : Field} (i : Nat) (h : f ≠ Reg.CLU_ROLE_role ∧ f ≠ Reg.KPR_CTRL_rom_fetch) :
    State.reset.rg f i = f.reset := by
  rw [State.rg_reset, Field.resetAt, if_neg h.1, if_neg h.2]

theorem State.on_reset_eq_false {f : Field} (i : Nat)
    (h : (f ≠ Reg.CLU_ROLE_role ∧ f ≠ Reg.KPR_CTRL_rom_fetch) ∧ f.reset ≠ 1) : State.reset.on f i = false := by
  rw [State.on, State.rg_reset_eq_column i h.1, decide_eq_false h.2]

/-- Before any repair, positions 0 to 15 of a reach hold their own role, and the spare position 16 holds none (code 0x1F). -/
theorem State.role_reset {r p : Nat} (hp : p < 17) :
    State.reset.rg Reg.CLU_ROLE_role (17 * r + p) = if p = 16 then 0x1F else p := by
  have hmod : (17 * r + p) % 17 = p := by omega
  rw [State.rg_reset, Field.resetAt, if_pos rfl, hmod]

/-- The boot ROM is fetched from by keeper 0 alone. -/
theorem State.rom_fetch_reset (k : Nat) : State.reset.on Reg.KPR_CTRL_rom_fetch k = decide (k = 0) := by
  have hcode : Reg.KPR_CTRL_rom_fetch ≠ Reg.CLU_ROLE_role := by decide
  rw [State.on, State.rg_reset, Field.resetAt, if_neg hcode, if_pos rfl]
  by_cases h : k = 0 <;> simp [h]

/-- A basin whose owner no one has written has the owner code that power-on gives all basins (R518). -/
theorem State.basinOwner_reset (b : Nat) : State.reset.basinOwner b = 3 := rfl

end Sys2Proof.Machine

namespace Sys2Proof.Proofs
open Sys2Proof.Machine

/-- Settles O58: nothing is stored at reset, so every field reads its Reset column and every memory reads zero. That HBM is among these
memories is the model's choice (log entry 15). -/
theorem resetState : Obligations.ResetState := by
  unfold Obligations.ResetState
  have column {f : Field} := State.rg_reset_eq_column (f := f)
  have off {f : Field} := State.on_reset_eq_false (f := f)
  refine ⟨rfl, rfl, rfl, rfl, rfl, column 0 (by decide), column 0 (by decide), column 0 (by decide), column 0 (by decide),
    column 0 (by decide), column 0 (by decide), column 0 (by decide), column 0 (by decide), ?supplyEnable, off 0 (by decide),
    column 0 (by decide), ?domains, fun b _ => State.basinOwner_reset b, ?reaches, fun k _ => off k (by decide),
    State.rom_fetch_reset 0, ?tenants, fun l _ => column l (by decide), ?memories⟩
  case supplyEnable =>
    have hone : State.reset.rg Reg.AON_CMP_supply_en 0 = 1 := column 0 (by decide)
    exact decide_eq_true hone
  case domains => exact fun d _ => ⟨column d (by decide), column d (by decide)⟩
  case reaches =>
    intro r _
    refine ⟨off r (by decide), State.role_reset (by decide), fun p hp => ?_⟩
    rw [State.role_reset (Nat.lt_succ_of_lt hp), if_neg hp.ne]
  case tenants =>
    exact fun t _ => ⟨column t (by decide), column t (by decide), fun k _ => ⟨off _ (by decide), column _ (by decide)⟩⟩
  case memories => rfl

/-! ### Check values and the worked slot -/

/-- The nine ASCII digits 1 to 9, whose CRC is a code's check value (R465). -/
def digits : List Byte := [0x31, 0x32, 0x33, 0x34, 0x35, 0x36, 0x37, 0x38, 0x39]

theorem crc32c_digits : crcOf 0 digits = 0xE3069283 := by decide +kernel
theorem crc32_digits : crcOf 1 digits = 0xCBF43926 := by decide +kernel
theorem crc16_digits : crcOf 2 digits = 0x906E := by decide +kernel
theorem crc64_digits : crcOf 3 digits = 0x6C40DF5F0B497347 := by decide +kernel

/-- ADDS to cell 1500 of cells 1500 and 1501, always predicated: the slot of the worked example of chapter 3. -/
def workedSlot : SlotI := .word .adds 0x15DC 0x15DC 0x15DD ⟨0b11011, false⟩ 0

theorem encodeSlot_workedSlot : encodeSlot workedSlot = slotOfCells [0x600, 0x777, 0x705, 0x057, 0x577, 0x204] := by decide +kernel

theorem decodeSlot_encodeSlot_workedSlot : decodeSlot (encodeSlot workedSlot) = some workedSlot := by decide +kernel

/-- ADDS within the signed range gives the sum, above it 2047 with the flag (R94, R97). -/
theorem adds_worked :
    wordResult .adds 2030 10 0 false = (2040, false) ∧ wordResult .adds 2040 15 0 false = (2047, true) ∧
      wordResult .adds 0x7FF 0xF9C 0 false = (0x79B, false) ∧ wordResult .adds 0x79B 0x800 0 false = (0xF9B, false) := by
  decide

/-- Settles O59: the check values by evaluation; the six cells are the encoding of the worked slot, which decodes to itself. -/
theorem workedExamples : Obligations.WorkedExamples := by
  unfold Obligations.WorkedExamples
  have hdecode := decodeSlot_encodeSlot_workedSlot
  rw [encodeSlot_workedSlot] at hdecode
  exact ⟨crc32c_digits, crc32_digits, crc16_digits, crc64_digits, hdecode, encodeSlot_workedSlot, rfl, rfl, adds_worked⟩

end Sys2Proof.Proofs
end

section
/-!
PROOFS. What a register read carries out, and reads of read-and-clear counters (the statement CounterReads).
-/
namespace Sys2Proof.Machine
open Sys2Proof.Claims

/-! ### A register read that is answered (R453, R519, R541) -/

/-- Where the link need not leave L1 first, an access finds the state as it is. -/
theorem State.reached_of_linkAwake {s : State} {who : Requester} (h : LinkAwake s who) : s.reached who = s := by
  by_cases hpf : who = .pf
  · obtain ⟨h1, h2⟩ := h hpf
    simp [State.reached, State.leaveL1, hpf, h1, h2]
  · simp [State.reached, hpf]

/-- A read that its requester may make, of a unit that answers, does what the register does. -/
theorem State.asReader_of_readable {s : State} {who : Requester} {addr : Nat} (h : Readable s who addr) (f : State → State) :
    s.asReader who addr f = f s := by
  obtain ⟨hlink, hbar, hlit, hbasin⟩ := h
  simp [State.asReader, State.reached_of_linkAwake hlink, hbar, hlit, hbasin]

/-- A command that is a register read answers what the register does, the queue of waiting commands left as it was. -/
theorem done_asReader {s t : State} {who : Requester} {addr : Nat} {f : State → State} (h : Readable s who addr) (hf : f s = t)
    (ht : t.pending = s.pending) : done s (s.asReader who addr f) = .next t := by
  rw [State.asReader_of_readable h, hf, done, ← ht]

/-! ### Read and clear (R8) -/

/-- A register of which every requester reads the one copy, with no At-lock field and no field that reads as zero. -/
def RegDef.plain (d : RegDef) : Bool := decide (d.inst ≠ .who) && d.fields.all fun f => decide (f.cls ≠ .atLock) && decide (f.acc ≠ .wo)

theorem State.readFields_of_plain {d : RegDef} (hd : d.plain = true) (s : State) (who : Requester) (i : Nat) :
    s.readFields d who i = wordOf s d.fields i := by
  simp only [RegDef.plain, Bool.and_eq_true, decide_eq_true_eq, List.all_eq_true] at hd
  obtain ⟨hinst, hfields⟩ := hd
  unfold State.readFields wordOf
  congr 1
  refine List.map_congr_left fun f hf => ?_
  obtain ⟨hcls, hacc⟩ := hfields f hf
  simp [RegDef.copy, hinst, hcls, hacc, State.rg, State.rgw]

/-- The fields that a read of a register clears: its RC fields, and those that the same read clears with them. -/
def RegDef.clearedWith (d : RegDef) (also : List Field) : List Field := d.fields.filter fun f => decide (f.acc = .rc ∨ f ∈ also)

/-- The listed fields of unit i at zero. -/
def State.clearFields (s : State) (fields : List Field) (i : Nat) : State := fields.foldl (fun u f => u.setRg f i 0) s

@[simp] theorem State.clearFields_pending (s : State) (fields : List Field) (i : Nat) : (s.clearFields fields i).pending = s.pending := by
  induction fields generalizing s with
  | nil => rfl
  | cons f fields ih => exact ih (s.setRg f i 0)

theorem State.readClear_of_plain {d : RegDef} (hd : d.plain = true) (s : State) (who : Requester) (i : Nat) (also : List Field) :
    s.readClear d who i also = (s.clearFields (d.clearedWith also) i).answer (wordOf s d.fields i) := by
  simp [State.readClear, State.readFields_of_plain hd, State.clearFields, RegDef.clearedWith, List.foldl_filter]

/-! ### The counter that a command reads -/

/-- What a read of a counter leaves: the counter cleared and returned, or zero returned where no unit is selected (R541). -/
def State.readCounter (s : State) (x : Counter) : State :=
  match x.inst with
  | some i => (s.clearFields x.clears i).answer (wordOf s x.fields i)
  | none => s.answer 0

@[simp] theorem State.readCounter_pending (s : State) (x : Counter) : (s.readCounter x).pending = s.pending := by
  unfold State.readCounter
  split
  · exact State.clearFields_pending ..
  · rfl

/-- A read of register d in the unit `inst`, by `who` at an address, that clears the fields of `also` too. -/
def RegDef.counter (d : RegDef) (who : Requester) (addr : Nat) (inst : Option Nat) (also : List Field := []) : Counter :=
  ⟨who, addr, inst, d.fields, d.clearedWith also⟩

section
variable {d : RegDef} (hd : d.plain = true) (s : State) (who : Requester) (addr : Nat) (also : List Field)
include hd

theorem State.readClear_eq_readCounter (i : Nat) :
    s.readClear d who i also = s.readCounter (d.counter who addr (some i) also) :=
  State.readClear_of_plain hd s who i also

theorem State.rCluCnt_eq_readCounter : s.rCluCnt who d also = s.readCounter (d.counter who addr (s.selCluster who) also) := by
  unfold State.rCluCnt State.ofCluster
  cases hsel : s.selCluster who with
  | none => rfl
  | some c => exact State.readClear_eq_readCounter hd s who addr also c

theorem State.rRchCnt_eq_readCounter : s.rRchCnt who d = s.readCounter (d.counter who addr (s.selReach who)) := by
  unfold State.rRchCnt State.ofReach
  cases hsel : s.selReach who with
  | none => rfl
  | some r => exact State.readClear_eq_readCounter hd s who addr [] r

theorem State.rLane_eq_readCounter : s.rLane who d = s.readCounter (d.counter who addr (s.selLane who)) := by
  unfold State.rLane
  cases hsel : s.selLane who with
  | none => rfl
  | some n => exact State.readClear_eq_readCounter hd s who addr [] n

end

theorem State.rDrop_eq_readCounter (s : State) (who : Requester) (addr b : Nat) :
    s.rDrop who b = s.readCounter (Reg.WEIR_DROPb.counter who addr ((s.selOwner who).map fun o => 16 * o + b)) := by
  unfold State.rDrop
  cases hsel : s.selOwner who with
  | none => rfl
  | some o => exact State.readClear_eq_readCounter (by decide) s who addr [] (16 * o + b)

theorem State.rGauMatch_eq_readCounter (s : State) (who : Requester) (addr : Nat) :
    s.rGauMatch who = s.readCounter (Reg.GAU_MATCH.counter who addr (s.selReach who) [Reg.GAU_MATCH_step]) := by
  unfold State.rGauMatch
  cases hsel : s.selReach who with
  | none => rfl
  | some r => exact State.readClear_eq_readCounter (by decide) s who addr _ r

/-- Where the selected lane's checker is not locked, no errors come in before the read. -/
theorem State.rPrbsErr_eq_readCounter (s : State) (who : Requester) (addr : Nat)
    (h : ∀ n, s.selLane who = some n → s.on Reg.AQ_PRBS_locked n = false) :
    s.rPrbsErr who = s.readCounter (Reg.AQ_PRBS_ERR.counter who addr (s.selLane who)) := by
  unfold State.rPrbsErr
  cases hsel : s.selLane who with
  | none => rfl
  | some n =>
    have hcount : s.countBits n = s := by simp [State.countBits, h n hsel]
    simp only [hcount]
    exact State.readClear_eq_readCounter (by decide) s who addr [] n

/-- Every read-and-clear command that may read its counter reads and clears it; the PRBS error counter of a locked checker is apart, as
it counts up to the read. -/
theorem exec_of_counterOf {s : State} {c : Instr} {x : Counter} (hx : counterOf s c = some x) (hr : Readable s x.who x.addr)
    (hlock : ∀ i, x.inst = some i → x.addr = 0x400030 → s.on Reg.AQ_PRBS_locked i = false) :
    exec c s = .next (s.readCounter x) := by
  have reads {f : State → State} (hf : f s = s.readCounter x) : done s (s.asReader x.who x.addr f) = .next (s.readCounter x) :=
    done_asReader hr hf (s.readCounter_pending x)
  cases c <;> cases hx
  case cluCntBank who | cluCntWait who | cluCntRefetch who | cluBankPeak who =>
    exact reads (State.rCluCnt_eq_readCounter (by decide) s who _ _)
  case rchCntSend who | rchCntClrwait who | dmemRMiss who | dmemRRetry who =>
    exact reads (State.rRchCnt_eq_readCounter (by decide) s who _)
  case dmemShort who _ | lckCntRollback who _ | aqCntFec who | aqCntReplay who | tstElogStat who | tstDredgeStat who |
      kprCntMisp who | slcCntRetry who | weirTrcStat who =>
    exact reads (State.readClear_eq_readCounter (by decide) s who _ _ _)
  case aqLaneSym who => exact reads (State.rLane_eq_readCounter (by decide) s who _)
  case aqPrbsErr who => exact reads (State.rPrbsErr_eq_readCounter s who _ fun n hn => hlock n hn rfl)
  case weirDrop who _ => exact reads (State.rDrop_eq_readCounter s who _ _)
  case gauMatch who => exact reads (State.rGauMatch_eq_readCounter s who _)

/-! ### The errors of a locked checker (R262; log entry 74) -/

theorem State.countBits_of_locked {s : State} {n : Nat} (h : s.on Reg.AQ_PRBS_locked n = true) :
    s.countBits n = { s.setRg Reg.AQ_PRBS_ERR_errors n (Config.freeWord s.freeCtr).toNat with freeCtr := s.freeCtr + 1 } := by
  rw [State.countBits, if_pos h]

/-- The read of a locked checker's count returns the free word that it has counted and leaves the count at zero. -/
theorem State.rPrbsErr_of_locked {s : State} {who : Requester} {n : Nat} (hsel : s.selLane who = some n)
    (hlock : s.on Reg.AQ_PRBS_locked n = true) :
    s.rPrbsErr who = { ((s.setRg Reg.AQ_PRBS_ERR_errors n (Config.freeWord s.freeCtr).toNat).setRg Reg.AQ_PRBS_ERR_errors n 0) with
      freeCtr := s.freeCtr + 1, readData := Config.freeWord s.freeCtr } := by
  have hplain : Reg.AQ_PRBS_ERR.plain = true := by decide
  have hclears : Reg.AQ_PRBS_ERR.clearedWith [] = [Reg.AQ_PRBS_ERR_errors] := by decide
  have hword : wordOf (s.countBits n) Reg.AQ_PRBS_ERR.fields n = (Config.freeWord s.freeCtr).toNat := by
    have hfit : (Config.freeWord s.freeCtr).toNat < 4294967296 := (Config.freeWord s.freeCtr).isLt
    rw [State.countBits_of_locked hlock]
    simp [wordOf, Reg.AQ_PRBS_ERR, Reg.AQ_PRBS_ERR_errors, Field.at, State.rg, Nat.mod_eq_of_lt hfit]
  simp only [State.rPrbsErr, hsel]
  rw [State.readClear_of_plain hplain, hclears, hword, State.countBits_of_locked hlock]
  simp [State.answer, State.clearFields]

end Sys2Proof.Machine

namespace Sys2Proof.Proofs
open Sys2Proof.Machine Sys2Proof.Claims

/-- Settles O3: each counter command is a read of its counter; a locked checker counts a free word just before the read clears it. -/
theorem counterReads : Obligations.CounterReads := by
  unfold Obligations.CounterReads
  refine ⟨fun s c x i hx hi hr hlock => ?_, fun s c x hx hi hr => ?_, fun s who n hsel hr hlock => ?_⟩
  · have hexec := exec_of_counterOf hx hr fun j hj ha => by
      cases hi.symm.trans hj
      exact hlock ha
    rw [hexec, State.readCounter, hi]
    rfl
  · have hexec := exec_of_counterOf hx hr fun j hj => by cases hi.symm.trans hj
    rw [hexec, State.readCounter, hi]
  · refine ⟨_, done_asReader hr (State.rPrbsErr_of_locked hsel hlock) rfl, rfl, ?_, fun key hkey => ?_, rfl⟩
    · exact State.rg_setRg_same (s.setRg Reg.AQ_PRBS_ERR_errors n (Config.freeWord s.freeCtr).toNat) Reg.AQ_PRBS_ERR_errors n 0
    · have hother : key ≠ fieldKey Reg.AQ_PRBS_ERR_errors n 0 := by simpa using hkey
      simp only [State.setRg_regs]
      rw [Tbl.find_put_other _ _ hother, Tbl.find_put_other _ _ hother]

end Sys2Proof.Proofs
end

section
/-!
PROOFS. A step waits while a cluster role is armed (the statement IssueStepRunsRegisterWord, which it refutes).
-/
namespace Sys2Proof.Machine

/-! ### Steps that do not issue -/

theorem State.settleHold_of_noRequest {s : State} {t : Nat} (h : (s.part t).holdReq = none) : s.settleHold t = s := by
  rw [State.settleHold, h]

theorem State.mayIssue_of_roleDue {s : State} {t : Nat} (hmem : (s.part t).memTaken = false) (hdue : s.roleDue t = true) :
    s.mayIssue t = false := by
  simp [State.mayIssue, hmem, hdue]

/-- A partition in which a role waits to take effect pauses at its step boundary: its issue step changes nothing (R81, R335). -/
theorem exec_issueStep_of_roleDue {s : State} {t : Fin 16} (hhold : (s.part t).holdReq = none) (hmem : (s.part t).memTaken = false)
    (hdue : s.roleDue t = true) : exec (.issueStep t) s = .next s := by
  change done s (if (s.settleHold t).mayIssue t then (s.settleHold t).issue t else s.settleHold t) = .next s
  rw [State.settleHold_of_noRequest hhold, State.mayIssue_of_roleDue hmem hdue, if_neg Bool.false_ne_true, done]

end Sys2Proof.Machine

namespace Sys2Proof.Proofs
open Sys2Proof.Machine Sys2Proof.Claims

/-! ### A substitution that waits -/

/-- Tenant 0 in Run at step 1 of a design cycle, with cluster 0 of reach 0 alone in issue and a program of NOPs, while the spare, cluster
16, is armed to take over position 0 (R335). -/
def substitutionWaits : State :=
  let fields := [(Reg.PWR_MODE_mode, 0, 1), (Reg.RCH_OWNER_bound, 0, 1), (Reg.WHF_TSTAT_mode, 0, 2), (Reg.LCK_STATUSt_phase, 0, 1),
    (Reg.RCH_CTRL_enable, 0, 1), (Reg.CLU_CTRL_enable, 0, 1), (Reg.CLU_PROG_last_word, 0, 5), (Reg.CLU_PROG_steps_m1, 0, 5)]
  let spares := (List.range 16).map fun i => (Reg.CLU_ROLE_role, i + 1, 0x1F)
  { (fields ++ spares).foldl (fun s e => s.setRg e.1 e.2.1 e.2.2) State.reset with
    clusters := [(0, { st := 1, issuing := true, pc := 1, t := 1, gstep := 1, latchLoad := false }), (16, { roleArmed := some 0 })]
    parts := [(0, { bound := [0], hdr := { stepsM1 := 5 }, started := true, step := 1, gstep := 1 })] }

/-- What ReadyToIssue asks holds there: it speaks of no armed role. -/
theorem substitutionWaits_ready : ReadyToIssue substitutionWaits 0 0 0 (List.replicate 12 .nop) where
  mode := by decide +kernel
  runs := by decide +kernel
  part := by decide +kernel
  enabled := by decide +kernel
  cluster := by decide +kernel
  reach := by decide +kernel
  fetched := by decide +kernel
  slots := by decide +kernel
  parity := fun n => by
    have hrf : (substitutionWaits.clu 0).rf = [] := by decide +kernel
    have hzero : Mem.get ([] : Mem 13) n = 0 := rfl
    rw [hrf, hzero]
    decide

theorem substitutionWaits_roleDue : substitutionWaits.roleDue 0 = true := by decide +kernel

/-- Refutes O15: with a role armed, which ReadyToIssue leaves open, the partition pauses at the step boundary, so no word issues and the PC
stays. -/
theorem not_issueStepRunsRegisterWord : ¬ Obligations.IssueStepRunsRegisterWord := by
  unfold Obligations.IssueStepRunsRegisterWord
  intro h
  obtain ⟨u, hstep, ⟨hclu, -⟩, -⟩ := h substitutionWaits 0 0 0 _ substitutionWaits_ready
  rw [exec_issueStep_of_roleDue (t := 0) rfl rfl substitutionWaits_roleDue] at hstep
  cases hstep
  have hpc : (substitutionWaits.clu 0).pc = (substitutionWaits.clu 0).pc + 1 := congrArg Cluster.pc hclu
  exact Nat.succ_ne_self _ hpc.symm

end Sys2Proof.Proofs
end

section
/-!
PROOFS. What a register write carries out; the controls of clusters and reaches (the statement ClusterControls).
-/
namespace Sys2Proof.Machine
open Sys2Proof.Claims

/-! ### A register write that is carried out (R453, R519, R541) -/

/-- A write that its requester may make, to a unit that answers, does what the register does. -/
theorem State.asWriter_of_writable {s : State} {who : Requester} {addr : Nat} (h : Writable s who addr) (f : State → State) :
    s.asWriter who addr f = f s := by
  obtain ⟨hlink, hbar, hlit, hwriter, hbasin⟩ := h
  simp [State.asWriter, State.reached_of_linkAwake hlink, hbar, hlit, hwriter, hbasin]

/-- A command that is a register write answers what the register does, the queue of waiting commands left as it was. -/
theorem done_asWriter {s t : State} {who : Requester} {addr : Nat} {f : State → State} (h : Writable s who addr) (hf : f s = t)
    (ht : t.pending = s.pending) : done s (s.asWriter who addr f) = .next t := by
  rw [State.asWriter_of_writable h, hf, done, ← ht]

theorem State.onCluster_of_sel {s : State} {who : Requester} {c : Nat} (h : s.selCluster who = some c) (f : Nat → State → State) :
    s.onCluster who f = f c s := by
  rw [State.onCluster, h]

theorem State.onReach_of_sel {s : State} {who : Requester} {r : Nat} (h : s.selReach who = some r) (f : Nat → State → State) :
    s.onReach who f = f r s := by
  rw [State.onReach, h]

@[simp] theorem State.refuse_pending (s : State) (who : Requester) (reason addr : Nat) :
    (s.refuse who reason addr).pending = s.pending := by
  unfold State.refuse
  split <;> rfl

/-! ### Registers that store what is written (R8, R550) -/

@[simp] theorem Field.of_mod (f : Field) (v : Word) : f.of v % 2 ^ f.width = f.of v := Nat.mod_mod ..

/-- The listed fields of unit i, each with its bits of v. -/
def State.storeFields (s : State) (fields : List Field) (i : Nat) (v : Word) : State := fields.foldl (fun s f => s.setRg f i (f.of v)) s

/-- Where a field begins, in bits, the registers counted by their addresses. -/
def Field.place (f : Field) : Nat := f.addr * 32 + f.lo

/-- A register that every requester shares, with RW fields alone, none of them At-lock, each in its own place. -/
def RegDef.stores (d : RegDef) : Bool :=
  decide (d.inst ≠ .who) && (d.fields.all fun f => decide (f.acc = .rw) && decide (f.cls ≠ .atLock)) &&
    decide (d.fields.map Field.place).Nodup

theorem State.storeFields_frame (s : State) (fields : List Field) (i : Nat) (v : Word) :
    { s.storeFields fields i v with regs := s.regs } = s := by
  induction fields generalizing s with
  | nil => rfl
  | cons f fields ih => exact congrArg (fun t : State => { t with regs := s.regs }) (ih (s.setRg f i (f.of v)))

@[simp] theorem State.storeFields_pending (s : State) (fields : List Field) (i : Nat) (v : Word) :
    (s.storeFields fields i v).pending = s.pending := by
  have h := congrArg State.pending (s.storeFields_frame fields i v)
  exact h

/-- Fields that are not listed keep their value. -/
theorem State.find_storeFields_other (s : State) (fields : List Field) (i : Nat) (v : Word) {key : Nat}
    (h : key ∉ fields.map (fieldKey · i 0)) : (s.storeFields fields i v).regs.find key = s.regs.find key := by
  induction fields generalizing s with
  | nil => rfl
  | cons f fields ih =>
    rw [List.map_cons, List.mem_cons, not_or] at h
    obtain ⟨hkey, hrest⟩ := h
    exact (ih (s.setRg f i (f.of v)) hrest).trans (Tbl.find_put_other _ _ hkey)

theorem fieldKey_same_unit {f g : Field} {i : Nat} : fieldKey f i 0 = fieldKey g i 0 ↔ f.place = g.place := by
  simp only [fieldKey, Field.place]
  omega

/-- A listed field holds its bits of the value. -/
theorem State.rg_storeFields (s : State) {fields : List Field} (hplaces : (fields.map Field.place).Nodup) (i : Nat)
    (v : Word) {f : Field} (hf : f ∈ fields) : (s.storeFields fields i v).rg f i = f.of v := by
  induction fields generalizing s with
  | nil => cases hf
  | cons g fields ih =>
    rw [List.map_cons, List.nodup_cons] at hplaces
    obtain ⟨hplace, hplaces⟩ := hplaces
    rcases List.mem_cons.1 hf with rfl | hf
    · have hkey : fieldKey f i 0 ∉ fields.map (fieldKey · i 0) := by
        simp only [List.mem_map, fieldKey_same_unit] at hplace ⊢
        exact hplace
      rw [State.rg, State.storeFields, List.foldl_cons]
      change ((State.storeFields (s.setRg f i (f.of v)) fields i v).regs.find _).getD _ = _
      rw [State.find_storeFields_other _ _ _ _ hkey]
      simp
    · exact ih (s.setRg g i (g.of v)) hplaces hf

theorem State.writeFields_of_stores {d : RegDef} (hd : d.stores = true) {i : Nat} (hblk : blkOf d i = none) (s : State) (who : Requester)
    (v : Word) : s.writeFields d who i v = s.storeFields d.fields i v := by
  simp only [RegDef.stores, Bool.and_eq_true, decide_eq_true_eq, List.all_eq_true] at hd
  obtain ⟨⟨hinst, hfields⟩, -⟩ := hd
  rw [State.writeFields, State.sensed, hblk, RegDef.copy, if_neg hinst]
  refine List.foldl_ext _ _ _ fun u f hf => ?_
  obtain ⟨hacc, hcls⟩ := hfields f hf
  simp [State.writeField, hacc, hcls, State.setRg, State.setRgw]

section
variable {s : State} {d : RegDef} {i : Nat} {v : Word} (who : Requester) (addr : Nat)

theorem State.classWrite_of_fixedHit (h : s.fixedHit d i v = true) : s.classWrite d who i addr v = s.refuse who 0 addr := by
  rw [State.classWrite, if_pos h]

theorem State.classWrite_of_stores (hd : d.stores = true) (hblk : blkOf d i = none) (hfixed : s.fixedHit d i v = false)
    (hvalue : badValue d v = false) : s.classWrite d who i addr v = s.storeFields d.fields i v := by
  rw [State.classWrite, hfixed, hvalue, if_neg Bool.false_ne_true, if_neg Bool.false_ne_true, State.writeFields_of_stores hd hblk]

end

/-! ### CLU_CTRL, RCH_CTRL (R81, R152) -/

/-- dist_mode alone is Fixed in CLU_CTRL, and it is in use while the cluster is enabled. -/
theorem State.fixedHit_cluCtrl (s : State) (c : Nat) (v : Word) : s.fixedHit Reg.CLU_CTRL c v = true ↔
    s.on Reg.CLU_CTRL_enable c = true ∧ Reg.CLU_CTRL_dist_mode.of v ≠ s.rg Reg.CLU_CTRL_dist_mode c := by
  have huse : s.inUse Reg.CLU_CTRL c = s.on Reg.CLU_CTRL_enable c := rfl
  have hfields : Reg.CLU_CTRL.fields = [Reg.CLU_CTRL_dist_mode, Reg.CLU_CTRL_enable] := rfl
  have hmode : Reg.CLU_CTRL_dist_mode.cls = .fixed := rfl
  have henable : Reg.CLU_CTRL_enable.cls ≠ .fixed := by decide
  simp [State.fixedHit, huse, hfields, hmode, henable]

/-- margin and steps_m1 are Fixed in RCH_CTRL, and they are in use while the reach is enabled. -/
theorem State.fixedHit_rchCtrl (s : State) (r : Nat) (v : Word) : s.fixedHit Reg.RCH_CTRL r v = true ↔
    s.on Reg.RCH_CTRL_enable r = true ∧
      (Reg.RCH_CTRL_margin.of v ≠ s.rg Reg.RCH_CTRL_margin r ∨ Reg.RCH_CTRL_steps_m1.of v ≠ s.rg Reg.RCH_CTRL_steps_m1 r) := by
  have huse : s.inUse Reg.RCH_CTRL r = s.on Reg.RCH_CTRL_enable r := rfl
  have hfields : Reg.RCH_CTRL.fields = [Reg.RCH_CTRL_steps_m1, Reg.RCH_CTRL_margin, Reg.RCH_CTRL_enable] := rfl
  have hsteps : Reg.RCH_CTRL_steps_m1.cls = .fixed := rfl
  have hmargin : Reg.RCH_CTRL_margin.cls = .fixed := rfl
  have henable : Reg.RCH_CTRL_enable.cls ≠ .fixed := by decide
  simp [State.fixedHit, huse, hfields, hsteps, hmargin, henable, or_comm]

section
variable {s : State} {who : Requester} {v : Word}

theorem exec_cluCtrlEnable {c : Nat} (hsel : s.selCluster who = some c) (hw : Writable s who Reg.CLU_CTRL.addr) :
    exec (.cluCtrlEnable who v) s = .next (if s.fixedHit Reg.CLU_CTRL c v then s.refuse who 0 Reg.CLU_CTRL.addr
      else s.storeFields Reg.CLU_CTRL.fields c v) := by
  refine done_asWriter hw ?_ (by split <;> simp)
  rw [State.wCluCtrl, State.onCluster_of_sel hsel]
  split
  · next hfixed => exact State.classWrite_of_fixedHit _ _ hfixed
  · next hfixed => exact State.classWrite_of_stores _ _ (by decide) rfl (Bool.eq_false_of_not_eq_true hfixed) rfl

theorem exec_rchCtrlEnable {r : Nat} (hsel : s.selReach who = some r) (hw : Writable s who Reg.RCH_CTRL.addr) :
    exec (.rchCtrlEnable who v) s = .next (if s.fixedHit Reg.RCH_CTRL r v then s.refuse who 0 Reg.RCH_CTRL.addr
      else s.storeFields Reg.RCH_CTRL.fields r v) := by
  refine done_asWriter hw ?_ (by split <;> simp)
  rw [State.wRchCtrl, State.onReach_of_sel hsel]
  split
  · next hfixed => exact State.classWrite_of_fixedHit _ _ hfixed
  · next hfixed => exact State.classWrite_of_stores _ _ (by decide) rfl (Bool.eq_false_of_not_eq_true hfixed) rfl

end

/-! ### CLU_RESUME (R70 to R72) -/

section
variable {s : State} {c : Nat}

/-- A cluster stopped by a cause that has been cleared goes on. -/
theorem State.resume_of_cleared {b : Nat} (hstop : (s.clu c).stopBit = some b) (hst : (s.clu c).st = 6)
    (hclear : (s.cluCause c).testBit b = false) :
    s.resume c = s.setClu c { s.clu c with st := 1, stopBit := none, bpPass := decide (b = 1) } := by
  simp [State.resume, hstop, hst, bit, hclear]

theorem State.resume_of_cause {b : Nat} (hstop : (s.clu c).stopBit = some b) (hcause : (s.cluCause c).testBit b = true) :
    s.resume c = s := by
  simp [State.resume, hstop, bit, hcause]

theorem State.resume_of_not_stopped (hst : (s.clu c).st ≠ 6) : s.resume c = s := by
  cases hstop : (s.clu c).stopBit <;> simp [State.resume, hstop, hst]

end

/-- A write of CLU_RESUME is a resume where it writes a 1, and nothing otherwise. -/
theorem exec_cluResume {s t : State} {who : Requester} {c : Nat} {v : Word} (hsel : s.selCluster who = some c)
    (hw : Writable s who Reg.CLU_RESUME.addr) (ht : (if Reg.CLU_RESUME_resume.of v = 1 then s.resume c else s) = t)
    (hp : t.pending = s.pending) : exec (.cluResume who v) s = .next t :=
  done_asWriter hw ((State.onCluster_of_sel hsel _).trans ht) hp

end Sys2Proof.Machine

namespace Sys2Proof.Proofs
open Sys2Proof.Machine Sys2Proof.Claims

/-- Settles O11: CLU_CTRL and RCH_CTRL store their fields or are refused for a Fixed one; a resume acts where the cause that stopped the
cluster is cleared. The statement lists the keys of a register from bit 0 up, the model its fields from the top down. -/
theorem clusterControls : Obligations.ClusterControls := by
  unfold Obligations.ClusterControls
  refine ⟨fun s who v => ⟨fun c hsel hw => ⟨?clusterStored, ?clusterRefused⟩, fun r hsel hw => ⟨?reachStored, ?reachRefused⟩⟩,
    fun s who c v hsel hw => ⟨?released, ?kept, ?ignored⟩⟩
  case clusterStored =>
    intro hfixed
    rw [exec_cluCtrlEnable hsel hw, if_neg (mt (s.fixedHit_cluCtrl c v).1 hfixed)]
    have hstored {f : Field} (hf : f ∈ Reg.CLU_CTRL.fields) := s.rg_storeFields (fields := Reg.CLU_CTRL.fields) (by decide) c v hf
    exact ⟨_, rfl, s.storeFields_frame _ c v, hstored (by decide), hstored (by decide),
      fun key hkey => s.find_storeFields_other _ c v fun hmem => hkey (List.reverse_perm _ |>.mem_iff.1 hmem)⟩
  case clusterRefused => exact fun hfixed => by rw [exec_cluCtrlEnable hsel hw, if_pos ((s.fixedHit_cluCtrl c v).2 hfixed)]
  case reachStored =>
    intro hfixed
    rw [exec_rchCtrlEnable hsel hw, if_neg (mt (s.fixedHit_rchCtrl r v).1 hfixed)]
    have hstored {f : Field} (hf : f ∈ Reg.RCH_CTRL.fields) := s.rg_storeFields (fields := Reg.RCH_CTRL.fields) (by decide) r v hf
    exact ⟨_, rfl, s.storeFields_frame _ r v, hstored (by decide), hstored (by decide), hstored (by decide),
      fun key hkey => s.find_storeFields_other _ r v fun hmem => hkey (List.reverse_perm _ |>.mem_iff.1 hmem)⟩
  case reachRefused => exact fun hfixed => by rw [exec_rchCtrlEnable hsel hw, if_pos ((s.fixedHit_rchCtrl r v).2 hfixed)]
  case released =>
    intro b hb hone hst hclear
    exact ⟨_, exec_cluResume hsel hw ((if_pos hone).trans (State.resume_of_cleared hb hst hclear)) rfl, rfl,
      State.clu_setClu_same .., fun d hd => State.clu_setClu_other _ _ hd⟩
  case kept => exact fun b hb hcause => exec_cluResume hsel hw (by rw [State.resume_of_cause hb hcause, ite_self]) rfl
  case ignored =>
    intro hnone
    refine exec_cluResume hsel hw ?_ rfl
    rcases hnone with hzero | hst
    · rw [if_neg (by omega)]
    · rw [State.resume_of_not_stopped hst, ite_self]

end Sys2Proof.Proofs
end

section
/-!
PROOFS. The window of a cluster in Readback shows writes in flight as complete (the statement MemoryAndTableWindows, which it refutes).
-/
namespace Sys2Proof.Machine
open Sys2Proof.Claims

/-! ### A read of value memory through the window (R77, R499) -/

@[simp] theorem State.vmNext_readData (s : State) (who : Requester) : (s.vmNext who).readData = s.readData := by
  simp only [State.vmNext]
  split <;> rfl

@[simp] theorem State.vmNext_pending (s : State) (who : Requester) : (s.vmNext who).pending = s.pending := by
  simp only [State.vmNext]
  split <;> rfl

/-- A data register returns the stored cell with its parity verdict. -/
theorem State.answerCell_readData (s : State) (par : Field) (i : Nat) (x : SCell) :
    (s.answerCell par i x).readData = BitVec.ofNat 32 (cellWord x) := by
  cases h : parityOk x <;> simp [State.answerCell, State.answer, cellWord, h, b2n]

/-- An open window answers with the addressed cell of the cluster as `shown`, which in Readback has taken every write in flight
(R499; log entry 91). -/
theorem exec_cluVmDataRead {s : State} {who : Requester} {c : Nat} (hsel : s.selCluster who = some c) (hopen : s.cluOpen who c = true)
    (hr : Readable s who Reg.CLU_VM_DATA.addr) : ∃ t, exec (.cluVmDataRead who) s = .next t ∧
      t.readData = BitVec.ofNat 32 (cellWord (Mem.get (s.shown c).vm (s.rgw Reg.CLU_VM_ADDR_cell (copyOf who)))) := by
  have hread : s.rVmData who = ((s.answerCell Reg.CLU_VM_DATA_par_err c
      (Mem.get (s.shown c).vm (s.rgw Reg.CLU_VM_ADDR_cell (copyOf who))))).vmNext who := by
    simp only [State.rVmData, State.ofCluster, hsel, hopen, if_true]
  refine ⟨_, done_asReader hr hread (State.vmNext_pending ..), ?_⟩
  rw [State.vmNext_readData, State.answerCell_readData]

end Sys2Proof.Machine

namespace Sys2Proof.Proofs
open Sys2Proof.Machine Sys2Proof.Claims

/-! ### A partition in Readback -/

/-- Tenant 0 in Readback after design cycle 0 of 64 steps: the implied result of step 63 in cluster 0, bit 0 of cell 63, is in flight for
one more step (R45, R51), and keeper 0 addresses cell 63. -/
def readbackInFlight : State :=
  let fields := [(Reg.PWR_MODE_mode, 0, 1), (Reg.PWR_DOM_state, 0, 1), (Reg.RCH_OWNER_bound, 0, 1), (Reg.WHF_TSTAT_mode, 0, 6),
    (Reg.LCK_STATUSt_dcycle, 0, 1)]
  let s := fields.foldl (fun s e => s.setRg e.1 e.2.1 e.2.2) State.reset
  { s.setRgw Reg.CLU_VM_ADDR_cell (copyOf (.keeper 0 0 0)) 0 63 with
    clusters := [(0, { st := 1, issuing := true, gstep := 64, latchLoad := false,
                       inflight := [{ dest := .vm 63, value := 1, mask := 1, issued := 63, due := 65, slot := 12, implied := true }] })]
    parts := [(0, { bound := [0], hdr := { stepsM1 := 63 }, dcNumber := 1, gstep := 64 })] }

theorem readbackInFlight_readable : Readable readbackInFlight (.keeper 0 0 0) Reg.CLU_VM_DATA.addr := by
  refine ⟨?_, ?_, ?_, ?_⟩ <;> decide +kernel

/-- The write in flight is not in value memory yet, but the window shows it. -/
theorem readbackInFlight_vm : (readbackInFlight.clu 0).vm = [] ∧ (readbackInFlight.shown 0).vm = [(63, store 1)] := by
  decide +kernel

/-- Refutes O10: in Readback, where the window is open, a read of a cell that a write in flight addresses returns the cell as that write
leaves it, as R499 asks (log entry 91), and not the cell that value memory holds. -/
theorem not_memoryAndTableWindows : ¬ Obligations.MemoryAndTableWindows := by
  unfold Obligations.MemoryAndTableWindows
  intro h
  obtain ⟨hclu, -⟩ := h
  have hsel : readbackInFlight.selCluster (.keeper 0 0 0) = some 0 := by decide +kernel
  have hopen : readbackInFlight.cluOpen (.keeper 0 0 0) 0 = true := by decide +kernel
  have hflip : readbackInFlight.on Reg.TST_FLIP_arm = false := by decide +kernel
  have haddr : readbackInFlight.rgw Reg.CLU_VM_ADDR_cell (copyOf (.keeper 0 0 0)) = 63 := by decide +kernel
  obtain ⟨-, hread, -⟩ := hclu readbackInFlight (.keeper 0 0 0) 0 0 hsel hopen hflip (by decide +kernel) (by decide +kernel)
    (by decide +kernel)
  obtain ⟨t, hstep, -, -, -, hdata, -⟩ := hread readbackInFlight_readable
  obtain ⟨u, hstep', hdata'⟩ := exec_cluVmDataRead hsel hopen readbackInFlight_readable
  cases hstep.symm.trans hstep'
  obtain ⟨hvm, hshown⟩ := readbackInFlight_vm
  rw [hdata', haddr, hvm, hshown] at hdata
  revert hdata
  decide

end Sys2Proof.Proofs
end

section
/-!
PROOFS. What the report of an event leaves unchanged: interrupt edges, alarms, log records and fault accounting (R324, R345, R393 to R397,
R480 to R491).
-/
namespace Sys2Proof.Machine

/-- The keys of the register blocks that no report writes: all below the test and error registers (R540). -/
def reportKeys : Nat := 0x600000 * 32 * 8192 * 8

/-- State t with all that the report of an event may change as state s has it: interrupt sources, messages to the host, the weir and its
ring, the error log with its buckets, and registers. -/
def State.unreported (t s : State) : State :=
  { t with regs := s.regs, irq := s.irq, hostOut := s.hostOut, msix := s.msix, hbm := s.hbm, weir := s.weir, tst := s.tst }

/-- Between s and t only a report lies: nothing else has changed, nor has a register below the test and error block. -/
structure Reports (s t : State) : Prop where
  frame : t.unreported s = s
  regs : ∀ key, key < reportKeys → t.regs.find key = s.regs.find key

/-! ### What stays -/

section
variable {s t : State} (h : Reports s t)
include h

theorem Reports.pending : t.pending = s.pending := by
  have hframe := congrArg State.pending h.frame
  exact hframe

theorem Reports.clusters : t.clusters = s.clusters := by
  have hframe := congrArg State.clusters h.frame
  exact hframe

theorem Reports.parts : t.parts = s.parts := by
  have hframe := congrArg State.parts h.frame
  exact hframe

theorem Reports.clu (c : Nat) : t.clu c = s.clu c := by rw [State.clu, h.clusters, State.clu]

theorem Reports.rg {f : Field} {i : Nat} (hkey : fieldKey f i 0 < reportKeys) : t.rg f i = s.rg f i := by
  rw [State.rg, h.regs _ hkey, State.rg]

theorem Reports.on {f : Field} {i : Nat} (hkey : fieldKey f i 0 < reportKeys) : t.on f i = s.on f i := by
  rw [State.on, h.rg hkey, State.on]

theorem Reports.trans {u : State} (h' : Reports t u) : Reports s u where
  frame := by
    have hframe := congrArg (State.unreported · s) h'.frame
    exact hframe.trans h.frame
  regs key hkey := (h'.regs key hkey).trans (h.regs key hkey)

end

theorem Reports.refl (s : State) : Reports s s := ⟨rfl, fun _ _ => rfl⟩

theorem Reports.ite {s t u : State} {p : Prop} [Decidable p] (ht : Reports s t) (hu : Reports s u) : Reports s (if p then t else u) := by
  split
  · exact ht
  · exact hu

theorem Reports.each {f : Nat → State → State} (hf : ∀ i s, Reports s (f i s)) (l : List Nat) (s : State) :
    Reports s (each l f s) := by
  induction l generalizing s with
  | nil => exact .refl s
  | cons i l ih => exact (hf i s).trans (ih (f i s))

/-! ### Parts of a report -/

theorem reportKeys_le_fieldKey {f : Field} (hf : 0x600000 ≤ f.addr) (i : Nat) : reportKeys ≤ fieldKey f i 0 := by
  simp only [reportKeys, fieldKey]
  omega

/-- A register of the test and error block or above is a report's to write. -/
theorem Reports.setRg (s : State) {f : Field} (i v : Nat) (hf : 0x600000 ≤ f.addr) : Reports s (s.setRg f i v) where
  frame := rfl
  regs _ hkey := Tbl.find_put_other _ _ (Nat.ne_of_lt (Nat.lt_of_lt_of_le hkey (reportKeys_le_fieldKey hf i)))

theorem Reports.count (s : State) {f : Field} (i n : Nat) (hf : 0x600000 ≤ f.addr) : Reports s (s.count f i n) := .setRg s i _ hf
theorem Reports.modSrc (s : State) (n : Nat) (f : Src → Src) : Reports s (s.modSrc n f) := ⟨rfl, fun _ _ => rfl⟩
theorem Reports.hbmPut (s : State) (a : Nat) (l : List Byte) : Reports s (s.hbmPut a l) := ⟨rfl, fun _ _ => rfl⟩
theorem Reports.setWeir (s : State) (w : Weir) : Reports s { s with weir := w } := ⟨rfl, fun _ _ => rfl⟩
theorem Reports.setTst (s : State) (x : Tst) : Reports s { s with tst := x } := ⟨rfl, fun _ _ => rfl⟩

/-! ### Interrupt edges (R393 to R397, R444) -/

theorem Reports.msixSend (s : State) (fn v : Nat) : Reports s (s.msixSend fn v) := by
  simp only [State.msixSend]
  split <;> exact ⟨rfl, fun _ _ => rfl⟩

theorem Reports.hostNotice (s0 s : State) : Reports s (State.hostNotice s0 s) :=
  .ite (.msixSend s 0 8) (.refl s)

theorem Reports.edge (s : State) (n : Nat) : Reports s (s.edge n) := (Reports.modSrc s n _).trans (.hostNotice s _)

theorem Reports.scanEdge (s : State) (n b : Nat) : Reports s (s.scanEdge n b) := .modSrc s _ _

theorem Reports.sense (b : Blk) (s0 s : State) : Reports s (State.sense b s0 s) := by
  cases b
  case cluster c => exact .each (fun k s => .scanEdge s c k) _ s
  case link l => exact .ite (.scanEdge s _ 0) (.refl s)
  all_goals exact .ite (.edge s _) (.refl s)

/-- A cause latches in its own bit; what else it does is a report. -/
theorem Reports.cause (s : State) (b : Blk) (f : Field) (i v : Nat) : Reports (s.setRg f i (Nat.lor (s.rg f i) v)) (s.cause b f i v) :=
  .sense b s _

theorem Reports.weirCause (s : State) {f : Field} (hf : 0x600000 ≤ f.addr) : Reports s (s.cause .weir f) :=
  (Reports.setRg s 0 _ hf).trans (.cause s .weir f 0 1)

/-! ### The weir (R480 to R491) -/

theorem Reports.ringPoll (s : State) : Reports s s.ringPoll :=
  .ite (.ite (.setRg s 0 _ (by decide)) (.refl s)) (.refl s)

theorem Reports.ringTry (s : State) (n : Nat) : Reports s (s.ringTry n).2 := by
  simp only [State.ringTry]
  split
  · exact .refl s
  · split
    · exact .ringPoll s
    · exact (Reports.ringPoll s).trans (.weirCause _ (by decide))

theorem Reports.ringWrite (s : State) (e : Event) : Reports s (s.ringWrite e) := by
  have hwrite := (Reports.hbmPut s (s.ringSlot (s.rg Reg.WEIR_RING_WR_index)) (s.recordBytes e)).trans
    (.setRg (f := Reg.WEIR_RING_WR_index) _ 0 ((s.rg Reg.WEIR_RING_WR_index + 1) % s.ringSize) (by decide))
  exact .ite (hwrite.trans (.weirCause _ (by decide))) hwrite

/-- An offer of records to the ring, whatever its answer. -/
theorem Reports.of_ringTry {s u : State} {n : Nat} {b : Bool} (h : s.ringTry n = (b, u)) : Reports s u := by
  have htry := Reports.ringTry s n
  rwa [h] at htry

theorem Reports.ringAlarm (s : State) (e : Event) : Reports s (s.ringAlarm e) := by
  rw [State.ringAlarm]
  split
  · split
    · next htry => exact (Reports.of_ringTry htry).trans (.ringWrite _ e)
    · next htry => exact (Reports.of_ringTry htry).trans (.count _ 0 1 (by decide))
  · exact .refl s

theorem Reports.enterAlarm (s : State) (e : Event) : Reports s (s.enterAlarm e) :=
  .ite (((Reports.setWeir s _).trans (.setRg _ _ 1 (by decide))).trans (.weirCause _ (by decide))) (.setWeir s _)

theorem Reports.alarm (s : State) (owner source code data : Nat) : Reports s (s.alarm owner source code data) :=
  (Reports.enterAlarm s _).trans (.ringAlarm _ _)

theorem Reports.marker (owner b : Nat) (s : State) : Reports s (State.marker owner b s) := by
  simp only [State.marker]
  split
  · exact .refl s
  · split
    · next htry =>
      exact (((Reports.of_ringTry htry).trans (.setRg _ owner _ (by decide))).trans (.ringWrite _ _)).trans (.setWeir _ _)
    · next htry => exact .of_ringTry htry

theorem Reports.markers (s : State) (owner : Nat) : Reports s (s.markers owner) := .each (.marker owner) _ s

theorem Reports.dropLog (s : State) (b : Nat) : Reports s (s.dropLog b) := (Reports.count s b 1 (by decide)).trans (.setWeir _ _)

theorem Reports.log (s : State) (owner source code data : Nat) : Reports s (s.log owner source code data) := by
  have hmarkers := Reports.markers s owner
  simp only [State.log]
  split
  · exact hmarkers.trans (.dropLog _ _)
  · have htokens := hmarkers.trans (.setRg (f := Reg.WEIR_BKT_tokens) (s.markers owner) owner
      ((s.markers owner).rg Reg.WEIR_BKT_tokens owner - 1) (by decide))
    split
    · exact htokens
    · split
      · next htry => exact (htokens.trans (.of_ringTry htry)).trans (.ringWrite _ _)
      · next htry => exact (htokens.trans (.of_ringTry htry)).trans (.dropLog _ _)

/-! ### Fault accounting (R324, R331, R345) -/

theorem Reports.unitRetired (s : State) (cls inst unit : Nat) : Reports s (s.unitRetired cls inst unit) := .alarm s ..

theorem Reports.elog (s : State) (e : ElogEntry) : Reports s (s.elog e) :=
  .ite ((((Reports.setTst s _).trans (.setRg _ 0 _ (by decide))).trans (.log _ ..)).trans (.edge _ 57)) (.count s 0 1 (by decide))

theorem Reports.tally (s : State) (uc : Bool) (source cls inst addr : Nat) : Reports s (s.tally uc source cls inst addr) := by
  unfold State.tally
  extract_lets mine _ s1 old new s2 _ s3 room s4
  have hmine : Reports s s1 := .ite (.setTst s _) (.refl s)
  have hbucket : Reports s s3 := (hmine.trans (.elog s1 _)).trans (.setTst s2 _)
  have hfull : Reports s s4 := hbucket.trans (.elog s3 _)
  exact .ite (.ite hfull (hfull.trans (.edge s4 57))) hbucket

end Sys2Proof.Machine
end

section
/-!
PROOFS. Tables and memories written twice at one place, and copied whole.
-/
namespace Sys2Proof.Machine

/-! ### One key written twice -/

theorem Tbl.del_ins_same {α : Type} (t : Tbl α) (k : Nat) (x : α) : (Tbl.ins t k x).del k = t.del k := by
  induction t with
  | nil => simp [Tbl.ins, Tbl.del]
  | cons e t ih =>
    obtain ⟨a, v⟩ := e
    by_cases hk : k < a
    · simp [Tbl.ins, hk, Tbl.del]
    · by_cases ha : a = k <;> simp [Tbl.ins, hk, Tbl.del, ha, ih]

theorem Tbl.del_of_lost {α : Type} {t : Tbl α} {k : Nat} (h : ∀ e ∈ t, e.1 ≠ k) : t.del k = t := by
  rw [Tbl.del_eq_filter, List.filter_eq_self]
  simpa using h

theorem Tbl.put_put_same {α : Type} (t : Tbl α) (k : Nat) (x y : α) : (t.put k x).put k y = t.put k y := by
  have hdel : (t.del k).del k = t.del k := Tbl.del_of_lost fun e he => by
    rw [Tbl.del_eq_filter] at he
    simpa using (List.mem_filter.1 he).2
  rw [Tbl.put, Tbl.put, Tbl.del_ins_same, hdel, ← Tbl.put]

/-! ### The copy of a memory -/

theorem Tbl.mem_of_find {α : Type} {t : Tbl α} {k : Nat} {x : α} (h : t.find k = some x) : (k, x) ∈ t := by
  induction t with
  | nil => cases h
  | cons e t ih =>
    obtain ⟨a, v⟩ := e
    by_cases ha : a = k
    · simp [Tbl.find, ha] at h
      simp [ha, h]
    · simp only [Tbl.find, ha, if_false] at h
      exact List.mem_cons_of_mem _ (ih h)

theorem Tbl.ins_of_last {α : Type} {t : Tbl α} {k : Nat} {x : α} (h : ∀ e ∈ t, e.1 < k) : Tbl.ins t k x = t ++ [(k, x)] := by
  induction t with
  | nil => rfl
  | cons e t ih =>
    have hlt : e.1 < k := h e (List.mem_cons_self ..)
    rw [Tbl.ins, if_neg (Nat.lt_asymm hlt), ih fun e he => h e (List.mem_cons_of_mem _ he), List.cons_append]

/-- A nonzero unit beyond every listed address goes to the end. -/
theorem Mem.put_of_last {n : Nat} {m : Mem n} {a : Nat} {x : BitVec n} (h : ∀ e ∈ m, e.1 < a) (hx : x ≠ 0) :
    Mem.put m a x = m ++ [(a, x)] := by
  rw [Mem.put, if_neg hx, Tbl.put, Tbl.del_of_lost fun e he => (h e he).ne, Tbl.ins_of_last h]

/-- The units of a memory stored one after another into another memory. -/
def Mem.putAll {n : Nat} (m l : Mem n) : Mem n := l.foldl (fun m e => Mem.put m e.1 e.2) m

/-- Units that continue a canonical memory at higher addresses are appended to it. -/
theorem Mem.putAll_of_wf {n : Nat} {m l : Mem n} (h : Memory.wf (m ++ l) = true) : Mem.putAll m l = m ++ l := by
  induction l generalizing m with
  | nil => simp [Mem.putAll]
  | cons e l ih =>
    have hwf := h
    simp only [Memory.wf, Bool.and_eq_true, Tbl.rising_iff, List.all_eq_true, decide_eq_true_eq, List.map_append, List.map_cons,
      List.pairwise_append] at h
    obtain ⟨⟨-, -, hcross⟩, hzero⟩ := h
    have hput : Mem.put m e.1 e.2 = m ++ [e] := Mem.put_of_last
      (fun d hd => hcross _ (List.mem_map_of_mem hd) _ (List.mem_cons_self ..)) (hzero e (by simp))
    rw [List.append_cons] at hwf ⊢
    rw [← ih hwf, Mem.putAll, List.foldl_cons, hput, Mem.putAll]

/-- A canonical memory copied into an empty one, address 0 first, is that memory. -/
theorem Mem.putAll_from_zero {n : Nat} {m : Mem n} (h : Memory.wf m = true) :
    Mem.putAll (Mem.put [] 0 (Mem.get m 0)) (m.filter fun e => e.1 ≠ 0) = m := by
  have hparts := h
  simp only [Memory.wf, Bool.and_eq_true, Tbl.rising_iff, List.all_eq_true, decide_eq_true_eq] at hparts
  obtain ⟨hrising, hzero⟩ := hparts
  cases m with
  | nil => rfl
  | cons e m =>
    obtain ⟨a, v⟩ := e
    rw [List.map_cons, List.pairwise_cons] at hrising
    obtain ⟨hfirst, -⟩ := hrising
    have hrest : ∀ e ∈ m, e.1 ≠ 0 := fun e he => by
      have := hfirst _ (List.mem_map_of_mem he)
      omega
    have hfilter : (m.filter fun e => e.1 ≠ 0) = m := List.filter_eq_self.2 (by simpa using hrest)
    by_cases ha : a = 0
    · subst ha
      have hput : Mem.put [] 0 (Mem.get ((0, v) :: m) 0) = [(0, v)] :=
        Mem.put_of_last (by simp) (hzero _ (List.mem_cons_self ..))
      rw [hput, List.filter_cons_of_neg (by simp), hfilter]
      exact Mem.putAll_of_wf h
    · have hnone : Tbl.find ((a, v) :: m) 0 = none := by
        cases hfind : Tbl.find ((a, v) :: m) 0 with
        | none => rfl
        | some x =>
          rcases List.mem_cons.1 (Tbl.mem_of_find hfind) with heq | hmem
          · cases heq; exact absurd rfl ha
          · exact absurd rfl (hrest _ hmem)
      have hput : Mem.put [] 0 (Mem.get ((a, v) :: m) 0) = [] := by
        rw [Mem.get, Tbl.get, hnone]
        rfl
      rw [hput, List.filter_cons_of_pos (by simpa using ha), hfilter]
      exact Mem.putAll_of_wf h

end Sys2Proof.Machine
end

section
/-!
PROOFS. Writes to a cluster, its causes and role, memories without an armed flip, and refetch (R67 to R69, R81, R395), on which the
statement RolesRefetchAndSubstitution rests.
-/
namespace Sys2Proof.Machine
open Sys2Proof.Claims

/-! ### Registers of clusters among the others -/

/-- The registers of a cluster, a reach, a link or the lock unit are no report's to write. -/
theorem fieldKey_lt_reportKeys {f : Field} {i : Nat} (hf : f.addr < 0x600000 ∧ f.lo < 32) (hi : i < 8192) :
    fieldKey f i 0 < reportKeys := by
  simp only [reportKeys, fieldKey]
  omega

theorem fieldKey_ne_of_place {f g : Field} {i j : Nat} (h : f.place ≠ g.place) (hi : i < 8192) (hj : j < 8192) :
    fieldKey f i 0 ≠ fieldKey g j 0 := by
  simp only [fieldKey, Field.place] at h ⊢
  omega

theorem fieldKey_ne_of_unit {f : Field} {i j : Nat} (h : i ≠ j) : fieldKey f i 0 ≠ fieldKey f j 0 := by
  simp only [fieldKey]
  omega

theorem State.selCluster_lt {s : State} {who : Requester} {c : Nat} (h : s.selCluster who = some c) : c < 408 := by
  simp only [State.selCluster] at h
  split at h
  · next hc => cases h; exact hc
  · cases h

/-- What plays a position of a cluster's reach is a cluster of that reach. -/
theorem State.lt_of_playing {s : State} {c p d : Nat} (hc : c < 408) (h : s.playing (c / 17) p = some d) : d < 408 := by
  obtain ⟨n, hn, rfl⟩ := List.mem_map.1 (List.mem_of_find?_eq_some h)
  have hposition := List.mem_range.1 hn
  omega

/-! ### Writing a cluster twice -/

@[simp] theorem State.setClu_setClu_same (s : State) (c : Nat) (x y : Cluster) : (s.setClu c x).setClu c y = s.setClu c y := by
  simp [State.setClu, Tbl.put_put_same]

theorem State.clu_modClu_other (s : State) {c d : Nat} (f : Cluster → Cluster) (h : d ≠ c) : (s.modClu c f).clu d = s.clu d :=
  State.clu_setClu_other s _ h

@[simp] theorem State.rg_modClu (s : State) (c : Nat) (f : Cluster → Cluster) (g : Field) (i : Nat) :
    (s.modClu c f).rg g i = s.rg g i := rfl
@[simp] theorem State.on_modClu (s : State) (c : Nat) (f : Cluster → Cluster) (g : Field) (i : Nat) :
    (s.modClu c f).on g i = s.on g i := rfl
@[simp] theorem State.parts_modClu (s : State) (c : Nat) (f : Cluster → Cluster) : (s.modClu c f).parts = s.parts := rfl
@[simp] theorem State.pending_modClu (s : State) (c : Nat) (f : Cluster → Cluster) : (s.modClu c f).pending = s.pending := rfl

/-- A command whose meaning leaves the waiting commands answers its state. -/
theorem done_of_pending {s t : State} (h : t.pending = s.pending) : done s t = .next t := by
  rw [done, ← h]

/-! ### Causes (R8, R395) -/

theorem lor_one_mod_two (n : Nat) : Nat.lor n 1 % 2 ^ 1 = 1 := by
  have hbit : (n ||| 1).testBit 0 = true := by simp
  exact of_decide_eq_true (Nat.testBit_zero _ ▸ hbit)

section
variable (s : State) (b : Blk) {f : Field} {i : Nat}

@[simp] theorem State.cause_pending (f : Field) (i v : Nat) : (s.cause b f i v).pending = s.pending := (Reports.cause s b f i v).pending

@[simp] theorem State.clu_cause (f : Field) (i v c : Nat) : (s.cause b f i v).clu c = s.clu c := (Reports.cause s b f i v).clu c

/-- A cause of one bit is latched. -/
theorem State.on_cause (hwidth : f.width = 1) (hkey : fieldKey f i 0 < reportKeys) : (s.cause b f i).on f i = true := by
  rw [State.on, (Reports.cause s b f i 1).rg hkey, State.rg_setRg_same, hwidth, lor_one_mod_two]
  rfl

theorem State.rg_cause_other {g : Field} {j : Nat} (v : Nat) (hkey : fieldKey g j 0 < reportKeys)
    (hne : fieldKey g j 0 ≠ fieldKey f i 0) :
    (s.cause b f i v).rg g j = s.rg g j := by
  rw [(Reports.cause s b f i v).rg hkey, State.rg_setRg_other _ _ _ _ _ _ hne]

end

/-! ### The flip is not armed (R346) -/

section
variable {s : State} (h : s.on Reg.TST_FLIP_arm = false)
include h

theorem State.flip_of_unarmed (cls inst addr w x : Nat) : s.flip cls inst addr w x = (x, s) := by
  simp [State.flip, State.flipArmed, h]

theorem State.flipCell_of_unarmed (cls inst addr : Nat) (c : Cell) : s.flipCell cls inst addr c = (store c, s) := by
  simp [State.flipCell, State.flip_of_unarmed h]

theorem State.putWordPm_of_unarmed (c w : Nat) {l : List Cell} (hl : l ≠ []) :
    s.putWordPm c w l = s.modClu c fun x => { x with pm := Mem.putRun x.pm (72 * w) (l.map store) } := by
  cases l with
  | nil => exact absurd rfl hl
  | cons x l => simp [State.putWordPm, State.flipCell_of_unarmed h]

theorem State.storeVm_of_unarmed (c n : Nat) (v : SCell) : s.storeVm c n v = s.modClu c fun x => { x with vm := Mem.put x.vm n v } := by
  simp [State.storeVm, State.flip_of_unarmed h]

/-- A mask register passes through its 8 bits and its parity, and keeps the four bits between them. -/
theorem State.storeRf_of_unarmed (c r : Nat) (v : SCell) : s.storeRf c r v = s.modClu c fun x => { x with rf := Mem.put x.rf r v } := by
  have hv := v.isLt
  have hmask : (v.toNat % 256 + v.toNat / 4096 * 256) % 256 + v.toNat / 256 % 16 * 256 +
      (v.toNat % 256 + v.toNat / 4096 * 256) / 256 % 2 * 4096 = v.toNat := by omega
  simp only [State.storeRf, State.flip_of_unarmed h, hmask, BitVec.ofNat_toNat, BitVec.setWidth_eq, ite_self]

end

/-! ### Refetch (R67 to R69) -/

section
variable {s : State} {c t bad : Nat} (howner : s.owner (c / 17) = some t) (hbad : (s.clu c).badCell (s.clu c).pc = some bad)
include howner hbad

theorem State.refetch_of_lost (hlost : s.goldLostOf t false (s.goldWord c (s.clu c).pc) = true) :
    s.refetch c = s.fetchTrap c (s.clu c).pc bad := by
  simp only [State.refetch, howner, hbad, hlost, if_true]

/-- The cluster with a word of program memory brought from golden copy g of a partition (R67). -/
def Cluster.withWord (x : Cluster) (p : Part) (g : Nat) : Cluster :=
  { x with pm := Mem.putRun x.pm (72 * x.pc) ((Mem.getRun p.goldPm (72 * g) 72).map store) }

theorem State.refetch_of_good (hgold : s.goldLostOf t false (s.goldWord c (s.clu c).pc) = false) (hflip : s.on Reg.TST_FLIP_arm = false)
    (hgood : ((s.clu c).withWord (s.part t) (s.goldWord c (s.clu c).pc)).badCell (s.clu c).pc = none) :
    s.refetch c = (((s.setClu c ((s.clu c).withWord (s.part t) (s.goldWord c (s.clu c).pc))).tally false 0 0 c
      (bad * 1024 + (s.clu c).pc)).count Reg.CLU_CNT_REFETCH_count c 1).modClu c fun z => { z with st := 1 } := by
  have hput := State.putWordPm_of_unarmed hflip c (s.clu c).pc (l := Mem.getRun (s.part t).goldPm (72 * s.goldWord c (s.clu c).pc) 72)
    (by simp [Mem.getRun])
  have hword : s.putWordPm c (s.clu c).pc (Mem.getRun (s.part t).goldPm (72 * s.goldWord c (s.clu c).pc) 72) =
      s.setClu c ((s.clu c).withWord (s.part t) (s.goldWord c (s.clu c).pc)) := hput
  simp only [State.refetch, howner, hbad, hgold, hword, Bool.false_eq_true, if_false, State.clu_setClu_same, hgood]

end

/-- The state with the record of an uncorrectable cell in CLU_FETCH_ERR, counted (R69). -/
def State.fetchRecord (s : State) (c w cell : Nat) : State :=
  (((s.tally true 0 0 c (cell * 1024 + w)).setRg Reg.CLU_FETCH_ERR_valid c 1).setRg Reg.CLU_FETCH_ERR_cell c cell).setRg
    Reg.CLU_FETCH_ERR_word c w

theorem State.fetchTrap_eq (s : State) (c w cell : Nat) : s.fetchTrap c w cell =
    ((s.fetchRecord c w cell).cause (.cluster c) Reg.CLU_CAUSE_fetch_trap c).modClu c fun x => { x with st := 6, stopBit := some 0 } := rfl

theorem State.fetchTrap_pending (s : State) (c w cell : Nat) : (s.fetchTrap c w cell).pending = s.pending := by
  rw [State.fetchTrap_eq, State.pending_modClu, State.cause_pending, State.fetchRecord]
  simp [(Reports.tally s true 0 0 c (cell * 1024 + w)).pending]

/-- A fetch trap stops the cluster; program memory stays (R69). -/
theorem State.clu_fetchTrap (s : State) (c w cell : Nat) :
    (s.fetchTrap c w cell).clu c = { s.clu c with st := 6, stopBit := some 0 } := by
  rw [State.fetchTrap_eq, State.clu_modClu_same, State.clu_cause]
  simp [State.fetchRecord, (Reports.tally s true 0 0 c (cell * 1024 + w)).clu c]

/-- A fetch trap latches its cause and fills its record (R69). -/
theorem State.regs_fetchTrap (s : State) {c : Nat} (hc : c < 408) (w cell : Nat) :
    (s.fetchTrap c w cell).on Reg.CLU_CAUSE_fetch_trap c = true ∧ (s.fetchTrap c w cell).on Reg.CLU_FETCH_ERR_valid c = true ∧
      (s.fetchTrap c w cell).rg Reg.CLU_FETCH_ERR_cell c = cell % 128 ∧
      (s.fetchTrap c w cell).rg Reg.CLU_FETCH_ERR_word c = w % 1024 := by
  have hkey {f : Field} (hf : f.addr < 0x600000 ∧ f.lo < 32) : fieldKey f c 0 < reportKeys := fieldKey_lt_reportKeys hf (by omega)
  have hne {f g : Field} (h : f.place ≠ g.place) : fieldKey f c 0 ≠ fieldKey g c 0 :=
    fieldKey_ne_of_place h (by omega) (by omega)
  have hrecord {f : Field} (hf : f.addr < 0x600000 ∧ f.lo < 32)
      (hplace : f.place ≠ Reg.CLU_CAUSE_fetch_trap.place) :
      (s.fetchTrap c w cell).rg f c = (s.fetchRecord c w cell).rg f c := by
    rw [State.fetchTrap_eq, State.rg_modClu, State.rg_cause_other _ _ _ (hkey hf) (hne hplace)]
  refine ⟨?_, ?_, ?_, ?_⟩
  · rw [State.fetchTrap_eq, State.on_modClu, State.on_cause _ _ rfl (hkey (by decide))]
  · rw [State.on, hrecord (by decide) (by decide), State.fetchRecord, State.rg_setRg_other _ _ _ _ _ _ (hne (by decide)),
      State.rg_setRg_other _ _ _ _ _ _ (hne (by decide)), State.rg_setRg_same]
    rfl
  · rw [hrecord (by decide) (by decide), State.fetchRecord, State.rg_setRg_other _ _ _ _ _ _ (hne (by decide)), State.rg_setRg_same]
    rfl
  · rw [hrecord (by decide) (by decide), State.fetchRecord, State.rg_setRg_same]
    rfl

theorem Cluster.badCell_lt {x : Cluster} {w n : Nat} (h : x.badCell w = some n) : n < 72 :=
  List.mem_range.1 (List.mem_of_find?_eq_some h)

theorem exec_refetch_of_stopped {s : State} {c : Fin 408} (h : (s.clu c.val).st ≠ 5) : exec (.refetch c) s = .next s := by
  change done s (if (s.clu c.val).st = 5 then s.refetch c.val else s) = .next s
  rw [if_neg h, done]

section
variable {s : State} {c : Fin 408} {t bad : Nat} (hst : (s.clu c.val).st = 5) (howner : s.owner (c.val / 17) = some t)
  (hbad : (s.clu c.val).badCell (s.clu c.val).pc = some bad)
include hst howner hbad

theorem exec_refetch_of_lost (hlost : s.goldLostOf t false (s.goldWord c.val (s.clu c.val).pc) = true) :
    exec (.refetch c) s = .next (s.fetchTrap c.val (s.clu c.val).pc bad) := by
  change done s (if (s.clu c.val).st = 5 then s.refetch c.val else s) = _
  rw [if_pos hst, State.refetch_of_lost howner hbad hlost, done_of_pending (s.fetchTrap_pending ..)]

theorem exec_refetch_of_good (hgold : s.goldLostOf t false (s.goldWord c.val (s.clu c.val).pc) = false)
    (hflip : s.on Reg.TST_FLIP_arm = false)
    (hgood : ((s.clu c.val).withWord (s.part t) (s.goldWord c.val (s.clu c.val).pc)).badCell (s.clu c.val).pc = none) :
    exec (.refetch c) s = .next ((((s.setClu c.val ((s.clu c.val).withWord (s.part t) (s.goldWord c.val (s.clu c.val).pc))).tally
      false 0 0 c.val (bad * 1024 + (s.clu c.val).pc)).count Reg.CLU_CNT_REFETCH_count c.val 1).modClu c.val fun z =>
        { z with st := 1 }) := by
  change done s (if (s.clu c.val).st = 5 then s.refetch c.val else s) = _
  rw [if_pos hst, State.refetch_of_good howner hbad hgold hflip hgood]
  refine done_of_pending ?_
  rw [State.pending_modClu, State.count, State.setRg_pending, (Reports.tally ..).pending, State.setClu_pending]

end

end Sys2Proof.Machine
end

section
/-!
PROOFS. Roles and live substitution (R328, R335 to R338), and the statement RolesRefetchAndSubstitution.
-/
namespace Sys2Proof.Machine
open Sys2Proof.Claims

/-! ### A role takes effect (R81) -/

section
variable (s : State) {c : Nat}

theorem State.applyRole_pending (c role : Nat) : (s.applyRole c role).pending = s.pending := by simp [State.applyRole]

theorem State.clu_applyRole_same (c role : Nat) : (s.applyRole c role).clu c = { s.clu c with roleArmed := none } := by
  simp [State.applyRole]

theorem State.clu_applyRole_other {d : Nat} (role : Nat) (h : d ≠ c) : (s.applyRole c role).clu d = s.clu d := by
  simp [State.applyRole, State.clu_modClu_other _ _ h]

theorem role_key_lt (hc : c < 408) : fieldKey Reg.CLU_ROLE_role c 0 < reportKeys := fieldKey_lt_reportKeys (by decide) (by omega)

theorem State.rg_role_applyRole_same (hc : c < 408) {role : Nat} (hrole : role < 32) :
    (s.applyRole c role).rg Reg.CLU_ROLE_role c = role := by
  have hcause : fieldKey Reg.CLU_ROLE_role c 0 ≠ fieldKey Reg.CLU_CAUSE_role_applied c 0 :=
    fieldKey_ne_of_place (by decide) (by omega) (by omega)
  rw [State.applyRole, State.rg_cause_other _ _ _ (role_key_lt hc) hcause, State.rg_modClu, State.rg_setRg_same]
  exact Nat.mod_eq_of_lt hrole

theorem State.rg_role_applyRole_other (hc : c < 408) {d : Nat} (hd : d < 408) (role : Nat) (h : d ≠ c) :
    (s.applyRole c role).rg Reg.CLU_ROLE_role d = s.rg Reg.CLU_ROLE_role d := by
  have hcause : fieldKey Reg.CLU_ROLE_role d 0 ≠ fieldKey Reg.CLU_CAUSE_role_applied c 0 :=
    fieldKey_ne_of_place (by decide) (by omega) (by omega)
  rw [State.applyRole, State.rg_cause_other _ _ _ (role_key_lt hd) hcause, State.rg_modClu,
    State.rg_setRg_other _ _ _ _ _ _ (fieldKey_ne_of_unit h)]

theorem State.on_applied_applyRole (hc : c < 408) (role : Nat) : (s.applyRole c role).on Reg.CLU_CAUSE_role_applied c = true :=
  State.on_cause _ _ rfl (fieldKey_lt_reportKeys (by decide) (by omega))

end

/-! ### A spare takes over a position (R335, R337, R338) -/

theorem Reports.substituted (s : State) (old spare p : Nat) : Reports s (s.substituted old spare p) := by
  rw [State.substituted]
  split
  · exact .alarm s ..
  · exact .refl s

/-- Cluster `old` gives up position p, left as f leaves it, and the spare plays it from now on. -/
def State.cedePosition (s : State) (old spare p : Nat) (f : Cluster → Cluster) : State :=
  (((s.setRg Reg.CLU_ROLE_role old 0x1F).modClu old f).applyRole spare p).substituted old spare p

/-- What a substitution leaves in a cluster that gives up its position while its partition restores. -/
def Cluster.relieved (x : Cluster) : Cluster := { x with issuing := false, st := 0, stopBit := none }

/-- What a live substitution leaves in the cluster that it replaces: nothing of it is on its way any more. -/
def Cluster.replaced (x : Cluster) : Cluster :=
  { x with issuing := false, st := 0, stopBit := none, reads := [], inflight := [], stepWrites := [], stepReads := [] }

theorem State.substituteRestoring_eq_cedePosition {s : State} {spare p old : Nat} (h : s.playing (spare / 17) p = some old) :
    s.substituteRestoring spare p = s.cedePosition old spare p Cluster.relieved := by
  rw [State.substituteRestoring, h]
  rfl

theorem State.substitute_eq_cedePosition {s : State} {spare p old : Nat} (h : s.playing (spare / 17) p = some old)
    (hcopy : (s.clu old).badCopy = none) : s.substitute spare p = (s.copyCluster old spare).cedePosition old spare p Cluster.replaced := by
  rw [State.substitute, h]
  simp only [hcopy]
  rfl

section
variable (s : State) {old spare p : Nat} (f : Cluster → Cluster)

theorem State.cedePosition_pending (old spare p : Nat) : (s.cedePosition old spare p f).pending = s.pending := by
  rw [State.cedePosition, (Reports.substituted _ _ _ _).pending, State.applyRole_pending, State.pending_modClu, State.setRg_pending]

theorem State.clu_cedePosition_spare (p : Nat) (h : old ≠ spare) :
    (s.cedePosition old spare p f).clu spare = { s.clu spare with roleArmed := none } := by
  rw [State.cedePosition, (Reports.substituted _ _ _ _).clu, State.clu_applyRole_same, State.clu_modClu_other _ _ h.symm, State.clu_setRg]

theorem State.clu_cedePosition_old (p : Nat) (h : old ≠ spare) : (s.cedePosition old spare p f).clu old = f (s.clu old) := by
  rw [State.cedePosition, (Reports.substituted _ _ _ _).clu, State.clu_applyRole_other _ _ h, State.clu_modClu_same, State.clu_setRg]

theorem State.clu_cedePosition_other (p : Nat) {d : Nat} (hd : d ∉ [spare, old]) : (s.cedePosition old spare p f).clu d = s.clu d := by
  obtain ⟨hspare, hold⟩ : d ≠ spare ∧ d ≠ old := by simpa using hd
  rw [State.cedePosition, (Reports.substituted _ _ _ _).clu, State.clu_applyRole_other _ _ hspare,
    State.clu_modClu_other _ _ hold, State.clu_setRg]

section
variable (hspare : spare < 408) (hold : old < 408)
include hspare

theorem State.rg_role_cedePosition_spare (hp : p < 32) : (s.cedePosition old spare p f).rg Reg.CLU_ROLE_role spare = p := by
  rw [State.cedePosition, (Reports.substituted _ _ _ _).rg (role_key_lt hspare), State.rg_role_applyRole_same _ hspare hp]

theorem State.on_applied_cedePosition : (s.cedePosition old spare p f).on Reg.CLU_CAUSE_role_applied spare = true := by
  rw [State.cedePosition, (Reports.substituted _ _ _ _).on (fieldKey_lt_reportKeys (by decide) (by omega)),
    State.on_applied_applyRole _ hspare]

include hold

theorem State.rg_role_cedePosition_old (h : old ≠ spare) : (s.cedePosition old spare p f).rg Reg.CLU_ROLE_role old = 0x1F := by
  rw [State.cedePosition, (Reports.substituted _ _ _ _).rg (role_key_lt hold), State.rg_role_applyRole_other _ hspare hold _ h,
    State.rg_modClu, State.rg_setRg_same]
  rfl

end

end

/-! ### The copy of a cluster (R335) -/

theorem State.memWf_clu {s : State} (h : s.memWf = true) (c : Nat) : (s.clu c).memWf = true := by
  simp only [State.memWf, Bool.and_eq_true, List.all_eq_true] at h
  obtain ⟨⟨⟨-, hclusters⟩, -⟩, -⟩ := h
  rw [State.clu, Tbl.get]
  cases hfind : s.clusters.find c with
  | none => rfl
  | some x => exact hclusters _ (Tbl.mem_of_find hfind)

section
variable {s : State} (h : s.on Reg.TST_FLIP_arm = false) (c : Nat) (x : Cluster)
include h

theorem State.storeVm_setClu (n : Nat) (v : SCell) : (s.setClu c x).storeVm c n v = s.setClu c { x with vm := Mem.put x.vm n v } := by
  have hflip : (s.setClu c x).on Reg.TST_FLIP_arm = false := h
  rw [State.storeVm_of_unarmed hflip, State.modClu, State.setClu_setClu_same, State.clu_setClu_same]

theorem State.storeRf_setClu (r : Nat) (v : SCell) : (s.setClu c x).storeRf c r v = s.setClu c { x with rf := Mem.put x.rf r v } := by
  have hflip : (s.setClu c x).on Reg.TST_FLIP_arm = false := h
  rw [State.storeRf_of_unarmed hflip, State.modClu, State.setClu_setClu_same, State.clu_setClu_same]

theorem State.storeVm_all (l : Mem 13) :
    l.foldl (fun s e => s.storeVm c e.1 e.2) (s.setClu c x) = s.setClu c { x with vm := Mem.putAll x.vm l } := by
  induction l generalizing x with
  | nil => rfl
  | cons e l ih => rw [List.foldl_cons, State.storeVm_setClu h, ih, Mem.putAll, Mem.putAll, List.foldl_cons]

theorem State.storeRf_all (l : Mem 13) :
    l.foldl (fun s e => s.storeRf c e.1 e.2) (s.setClu c x) = s.setClu c { x with rf := Mem.putAll x.rf l } := by
  induction l generalizing x with
  | nil => rfl
  | cons e l ih => rw [List.foldl_cons, State.storeRf_setClu h, ih, Mem.putAll, Mem.putAll, List.foldl_cons]

/-- The spare with all that it takes over of the cluster that it replaces (R335). -/
def Cluster.tookOver (new old : Cluster) : Cluster := { old.moved new with vm := old.vm, rf := old.rf }

/-- With canonical memories and no flip armed, the staging engine copies value memory and registers exactly. -/
theorem State.copyCluster_of_unarmed (hwf : s.memWf = true) (old spare : Nat) : s.copyCluster old spare =
    s.setClu spare ((s.clu spare).tookOver (s.clu old)) := by
  have hold := State.memWf_clu hwf old
  simp only [Cluster.memWf, Bool.and_eq_true] at hold
  obtain ⟨⟨-, hvm⟩, hrf⟩ := hold
  simp only [State.copyCluster, State.storeVm_setClu h, State.storeVm_all h, State.storeRf_setClu h, State.storeRf_all h,
    Mem.putAll_from_zero hvm, Mem.putAll_from_zero hrf, Cluster.tookOver]

end

/-! ### A substitution abandoned (R336) -/

section
variable (s : State) {old spare : Nat} {f : Field}

/-- An abandoned substitution stops the outgoing cluster, disarms the spare, and beyond these two only plans the relief. -/
theorem State.abandon_keeps (old spare : Nat) (f : Field) :
    (s.abandon old spare f).clusters = ((s.cluStop old f).modClu spare fun x => { x with roleArmed := none }).clusters ∧
      (s.abandon old spare f).regs = (s.cluStop old f).regs ∧ (s.abandon old spare f).pending = (s.cluStop old f).pending := by
  rw [State.abandon]
  split <;> exact ⟨rfl, rfl, rfl⟩

theorem State.clu_abandon (old spare : Nat) (f : Field) (c : Nat) : (s.abandon old spare f).clu c =
    ((s.cluStop old f).modClu spare fun x => { x with roleArmed := none }).clu c := by
  rw [State.clu, (s.abandon_keeps old spare f).1, State.clu]

theorem State.rg_abandon (old spare : Nat) (f g : Field) (i : Nat) : (s.abandon old spare f).rg g i = (s.cluStop old f).rg g i := by
  rw [State.rg, (s.abandon_keeps old spare f).2.1, State.rg]

theorem State.clu_abandon_spare (old spare : Nat) (f : Field) : ((s.abandon old spare f).clu spare).roleArmed = none := by
  rw [State.clu_abandon, State.clu_modClu_same]

variable (hret : s.on Reg.CLU_ROLE_retired old = false)
include hret

theorem State.cluStop_of_working (f : Field) :
    s.cluStop old f = (s.cause (.cluster old) f old).modClu old fun x => { x with st := 8 } := by
  rw [State.cluStop, hret, if_neg Bool.false_ne_true]

theorem State.abandon_pending (spare : Nat) (f : Field) : (s.abandon old spare f).pending = s.pending := by
  rw [(s.abandon_keeps old spare f).2.2, State.cluStop_of_working s hret, State.pending_modClu, State.cause_pending]

theorem State.clu_abandon_old (hne : old ≠ spare) (f : Field) : ((s.abandon old spare f).clu old).st = 8 := by
  rw [State.clu_abandon, State.clu_modClu_other _ _ hne, State.cluStop_of_working s hret, State.clu_modClu_same]

theorem State.rg_role_abandon (hold : old < 408) (hplace : Reg.CLU_ROLE_role.place ≠ f.place) {c : Nat}
    (hc : c < 408) (spare : Nat) : (s.abandon old spare f).rg Reg.CLU_ROLE_role c = s.rg Reg.CLU_ROLE_role c := by
  have hne : fieldKey Reg.CLU_ROLE_role c 0 ≠ fieldKey f old 0 := fieldKey_ne_of_place hplace (by omega) (by omega)
  rw [State.rg_abandon, State.cluStop_of_working s hret, State.rg_modClu, State.rg_cause_other _ _ _ (role_key_lt hc) hne]

theorem State.on_abandon (hold : old < 408) (hwidth : f.width = 1) (hf : f.addr < 0x600000 ∧ f.lo < 32) (spare : Nat) :
    (s.abandon old spare f).on f old = true := by
  rw [State.on, State.rg_abandon, State.cluStop_of_working s hret, ← State.on, State.on_modClu,
    State.on_cause _ _ hwidth (fieldKey_lt_reportKeys hf (by omega))]

end

/-- Class and address of a unit of a cluster that fails parity, as the error log has it (R336). -/
def badClass : Nat ⊕ Nat → Nat × Nat
  | .inl n => (1, n)
  | .inr n => (2, n)

/-- The cause that a unit of a cluster that fails parity latches (R336). -/
def badCause : Nat ⊕ Nat → Field
  | .inl _ => Reg.CLU_CAUSE_vm_parity
  | .inr _ => Reg.CLU_CAUSE_reg_parity

/-- Either cause is one bit of a cluster's register, apart from its role. -/
theorem badCause_field (b : Nat ⊕ Nat) : (badCause b).width = 1 ∧ ((badCause b).addr < 0x600000 ∧ (badCause b).lo < 32) ∧
    Reg.CLU_ROLE_role.place ≠ (badCause b).place := by
  cases b <;> simp only [badCause] <;> decide

theorem State.substitute_of_bad {s : State} {spare p old : Nat} {b : Nat ⊕ Nat} (h : s.playing (spare / 17) p = some old)
    (hbad : (s.clu old).badCopy = some b) :
    s.substitute spare p = (s.tally true 0 (badClass b).1 old (badClass b).2).abandon old spare (badCause b) := by
  rw [State.substitute, h]
  cases b <;> simp only [hbad] <;> rfl

/-! ### LIVE_SUBSTITUTION (R335) -/

theorem exec_liveSubstitution_of_unarmed {s : State} {c : Fin 408} (h : (s.clu c.val).roleArmed = none) :
    exec (.liveSubstitution c) s = .next s := by
  change done s (match (s.clu c.val).roleArmed with | some p => _ | none => s) = .next s
  rw [h, done]

section
variable {s : State} {c : Fin 408} {p old : Nat} (harmed : (s.clu c.val).roleArmed = some p) (hstep : s.atStep (c.val / 17) = true)
  (hp : p ≤ 16) (hplay : s.playing (c.val / 17) p = some old)
include harmed hstep hp

theorem exec_liveSubstitution : exec (.liveSubstitution c) s = done s (s.substitute c.val p) := by
  change execLiveSubstitution c s = _
  simp only [execLiveSubstitution, harmed, hstep, hp, Bool.true_eq_false, if_false, if_true]

include hplay

theorem exec_liveSubstitution_of_good (hgood : (s.clu old).badCopy = none) (hwf : s.memWf = true)
    (hflip : s.on Reg.TST_FLIP_arm = false) : exec (.liveSubstitution c) s =
      .next ((s.setClu c.val ((s.clu c.val).tookOver (s.clu old))).cedePosition old c.val p Cluster.replaced) := by
  rw [exec_liveSubstitution harmed hstep hp, State.substitute_eq_cedePosition hplay hgood, State.copyCluster_of_unarmed hflip hwf,
    done_of_pending ((State.cedePosition_pending _ _ old c.val p).trans (State.setClu_pending ..))]

theorem exec_liveSubstitution_of_bad {b : Nat ⊕ Nat} (hbad : (s.clu old).badCopy = some b)
    (hret : (s.tally true 0 (badClass b).1 old (badClass b).2).on Reg.CLU_ROLE_retired old = false) : exec (.liveSubstitution c) s =
      .next ((s.tally true 0 (badClass b).1 old (badClass b).2).abandon old c.val (badCause b)) := by
  rw [exec_liveSubstitution harmed hstep hp, State.substitute_of_bad hplay hbad,
    done_of_pending ((State.abandon_pending _ hret _ _).trans (Reports.tally ..).pending)]

end

/-! ### CLU_ROLE (R81, R328, R337) -/

/-- A stop plank of a cluster is set, and it issues no more (R328). -/
def State.plankCluster (s : State) (c : Nat) : State :=
  (State.sense (.cluster c) s ((s.setRg Reg.CLU_ROLE_retired c 1).modClu c fun x => { x with issuing := false, st := 0 })).unitRetired 0 c 0

/-- A role written to a cluster: as before, armed, or in effect at once (R81, R337). -/
def State.takeRole (s : State) (c role : Nat) : State :=
  if role = s.rg Reg.CLU_ROLE_role c then s.modClu c fun x => { x with roleArmed := none }
  else match s.owner (c / 17) with
    | some t => if s.loaded t ∧ s.phase t ≠ 4 then s.modClu c fun x => { x with roleArmed := some role }
                else if s.loaded t ∧ role ≤ 16 then s.substituteRestoring c role
                else s.applyRole c role
    | none => s.applyRole c role

section
variable {s : State} {c role : Nat}

theorem State.takeRole_of_same (h : role = s.rg Reg.CLU_ROLE_role c) :
    s.takeRole c role = s.modClu c fun x => { x with roleArmed := none } := by
  rw [State.takeRole, if_pos h]

theorem State.takeRole_of_unowned (h : role ≠ s.rg Reg.CLU_ROLE_role c) (howner : s.owner (c / 17) = none) :
    s.takeRole c role = s.applyRole c role := by
  simp only [State.takeRole, h, howner, if_false]

theorem State.takeRole_of_loaded {t : Nat} (h : role ≠ s.rg Reg.CLU_ROLE_role c) (howner : s.owner (c / 17) = some t)
    (hloaded : s.loaded t = true) (hphase : s.phase t ≠ 4) :
    s.takeRole c role = s.modClu c fun x => { x with roleArmed := some role } := by
  simp only [State.takeRole, h, howner, hloaded, hphase, if_false, ne_eq, not_false_eq_true, and_self, if_true]

theorem State.takeRole_of_restoring {t : Nat} (h : role ≠ s.rg Reg.CLU_ROLE_role c) (howner : s.owner (c / 17) = some t)
    (hloaded : s.loaded t = true) (hphase : s.phase t = 4) (hrole : role ≤ 16) : s.takeRole c role = s.substituteRestoring c role := by
  simp only [State.takeRole, h, howner, hloaded, hphase, hrole, if_false, ne_eq, not_true_eq_false, and_false, and_self, if_true]

end

section
variable {s t : State} {who : Requester} {c : Nat} {v : Word} (hsel : s.selCluster who = some c) (hw : Writable s who Reg.CLU_ROLE.addr)
include hsel

theorem State.wCluRole_eq : s.wCluRole who v =
    (if Reg.CLU_ROLE_retired.of v = 1 ∧ s.on Reg.CLU_ROLE_retired c = false then s.plankCluster c else s).takeRole c
      (Reg.CLU_ROLE_role.of v) := by
  rw [State.wCluRole, State.onCluster_of_sel hsel]
  rfl

include hw

/-- A write of CLU_ROLE that sets no stop plank. -/
theorem exec_cluRole_of_plain (hplain : Reg.CLU_ROLE_retired.of v = 0 ∨ s.on Reg.CLU_ROLE_retired c = true)
    (ht : s.takeRole c (Reg.CLU_ROLE_role.of v) = t) (hp : t.pending = s.pending) : exec (.cluRole who v) s = .next t := by
  have hkept : ¬(Reg.CLU_ROLE_retired.of v = 1 ∧ s.on Reg.CLU_ROLE_retired c = false) := by
    rintro ⟨hone, hoff⟩
    rcases hplain with hzero | hset
    · omega
    · simp [hset] at hoff
  exact done_asWriter hw (by rw [State.wCluRole_eq hsel, if_neg hkept, ht]) hp

/-- A write of CLU_ROLE that sets the stop plank. -/
theorem exec_cluRole_of_plank (hone : Reg.CLU_ROLE_retired.of v = 1) (hoff : s.on Reg.CLU_ROLE_retired c = false)
    (ht : (s.plankCluster c).takeRole c (Reg.CLU_ROLE_role.of v) = t) (hp : t.pending = s.pending) :
    exec (.cluRole who v) s = .next t :=
  done_asWriter hw (by rw [State.wCluRole_eq hsel, if_pos ⟨hone, hoff⟩, ht]) hp

end

theorem Reports.plankCluster (s : State) (c : Nat) :
    Reports ((s.setRg Reg.CLU_ROLE_retired c 1).modClu c fun x => { x with issuing := false, st := 0 }) (s.plankCluster c) :=
  (Reports.sense ..).trans (.unitRetired ..)

section
variable (s : State) {c : Nat}

theorem State.plankCluster_pending (c : Nat) : (s.plankCluster c).pending = s.pending := by
  rw [(Reports.plankCluster s c).pending, State.pending_modClu, State.setRg_pending]

theorem State.plankCluster_parts (c : Nat) : (s.plankCluster c).parts = s.parts := by
  rw [(Reports.plankCluster s c).parts, State.parts_modClu, State.setRg_parts]

theorem State.clu_plankCluster_same (c : Nat) : (s.plankCluster c).clu c = { s.clu c with issuing := false, st := 0 } := by
  rw [(Reports.plankCluster s c).clu, State.clu_modClu_same, State.clu_setRg]

theorem State.clu_plankCluster_other {d : Nat} (h : d ≠ c) : (s.plankCluster c).clu d = s.clu d := by
  rw [(Reports.plankCluster s c).clu, State.clu_modClu_other _ _ h, State.clu_setRg]

theorem State.rg_role_plankCluster (hc : c < 408) : (s.plankCluster c).rg Reg.CLU_ROLE_role c = s.rg Reg.CLU_ROLE_role c := by
  have hplace : fieldKey Reg.CLU_ROLE_role c 0 ≠ fieldKey Reg.CLU_ROLE_retired c 0 :=
    fieldKey_ne_of_place (by decide) (by omega) (by omega)
  rw [(Reports.plankCluster s c).rg (role_key_lt hc), State.rg_modClu, State.rg_setRg_other _ _ _ _ _ _ hplace]

theorem State.on_retired_plankCluster (hc : c < 408) : (s.plankCluster c).on Reg.CLU_ROLE_retired c = true := by
  rw [(Reports.plankCluster s c).on (fieldKey_lt_reportKeys (by decide) (by omega)), State.on_modClu, State.on, State.rg_setRg_same]
  rfl

end

end Sys2Proof.Machine

namespace Sys2Proof.Proofs
open Sys2Proof.Machine Sys2Proof.Claims

/-- Settles O12: a refetch, a write of CLU_ROLE and a live substitution, each by the state that its command ends in. -/
theorem rolesRefetchAndSubstitution : Obligations.RolesRefetchAndSubstitution := by
  unfold Obligations.RolesRefetchAndSubstitution
  refine ⟨fun s c => ⟨exec_refetch_of_stopped, fun t howner bad hbad hst => ⟨?good, ?trap⟩⟩,
    fun s who c v hsel hw => ⟨?same, ?armed, ?unowned, ?restoring, ?plank⟩,
    fun s c => ⟨exec_liveSubstitution_of_unarmed, fun p harmed old hplay hp hne hstep => ⟨?taken, ?abandoned⟩⟩⟩
  case good => exact fun hgood hgold hflip => exec_refetch_of_good hst howner hbad hgold hflip hgood
  case trap =>
    cases hlost : s.goldLostOf t false (s.goldWord c.val (s.clu c.val).pc) with
    | false => exact ⟨_, rfl, nofun⟩
    | true =>
      refine ⟨_, exec_refetch_of_lost hst howner hbad hlost, fun _ => ?_⟩
      obtain ⟨hcause, hvalid, hcell, hword⟩ := s.regs_fetchTrap c.isLt (s.clu c.val).pc bad
      rw [Nat.mod_eq_of_lt (Nat.lt_trans (Cluster.badCell_lt hbad) (by decide))] at hcell
      rw [s.clu_fetchTrap c.val (s.clu c.val).pc bad]
      exact ⟨rfl, rfl, hcause, hvalid, hcell, hword, rfl⟩
  case same => exact fun hplain hrole => exec_cluRole_of_plain hsel hw hplain (State.takeRole_of_same hrole) rfl
  case armed =>
    exact fun t howner hplain hrole hloaded hphase =>
      exec_cluRole_of_plain hsel hw hplain (State.takeRole_of_loaded hrole howner hloaded hphase) rfl
  case unowned =>
    exact fun hplain hrole howner =>
      exec_cluRole_of_plain hsel hw hplain (State.takeRole_of_unowned hrole howner) (s.applyRole_pending c _)
  case restoring =>
    intro t howner old hplay hplain hrole hp hne hloaded hphase
    have hc := State.selCluster_lt hsel
    have hold := State.lt_of_playing hc hplay
    have hcede := (State.takeRole_of_restoring hrole howner hloaded hphase hp).trans (State.substituteRestoring_eq_cedePosition hplay)
    exact ⟨_, exec_cluRole_of_plain hsel hw hplain hcede (s.cedePosition_pending _ old c _),
      s.rg_role_cedePosition_spare _ hc (by omega), s.rg_role_cedePosition_old _ hc hold hne, s.on_applied_cedePosition _ hc,
      s.clu_cedePosition_spare _ _ hne, s.clu_cedePosition_old _ _ hne, fun d hd => s.clu_cedePosition_other _ _ hd⟩
  case plank =>
    intro hone hoff hrole
    have hc := State.selCluster_lt hsel
    have hrole' := s.rg_role_plankCluster hc
    refine ⟨_, exec_cluRole_of_plank hsel hw hone hoff (State.takeRole_of_same (hrole.trans hrole'.symm)) ?_, ?_, ?_,
      ⟨?_, fun d hd => ?_⟩, ?_⟩
    · rw [State.pending_modClu, State.plankCluster_pending]
    · rw [State.on_modClu, State.on_retired_plankCluster _ hc]
    · rw [State.rg_modClu, hrole', hrole]
    · rw [State.clu_modClu_same, State.clu_plankCluster_same]
    · rw [State.clu_modClu_other _ _ hd, State.clu_plankCluster_other _ hd]
    · rw [State.parts_modClu, State.plankCluster_parts]
  case taken =>
    intro hgood hwf hflip
    have hold := State.lt_of_playing c.isLt hplay
    have hspare (u : State) (h : (u.clu c.val).roleArmed = none) :
        (u.cedePosition old c.val p Cluster.replaced).clu c.val = u.clu c.val := by
      rw [State.clu_cedePosition_spare _ _ _ hne, ← h]
    refine ⟨_, exec_liveSubstitution_of_good harmed hstep hp hplay hgood hwf hflip, ?_⟩
    rw [hspare _ (by rw [State.clu_setClu_same]; rfl), State.clu_setClu_same]
    refine ⟨rfl, rfl, rfl, rfl, rfl, rfl, rfl, rfl, rfl, rfl, rfl, rfl, rfl, ?_, fun d hd => ?_,
      State.rg_role_cedePosition_spare _ _ c.isLt (by omega), State.rg_role_cedePosition_old _ _ c.isLt hold hne,
      State.on_applied_cedePosition _ _ c.isLt⟩
    · rw [State.clu_cedePosition_old _ _ _ hne]
      rfl
    · obtain ⟨hd', -⟩ : d ≠ c.val ∧ d ≠ old := by simpa using hd
      rw [State.clu_cedePosition_other _ _ _ hd, State.clu_setClu_other _ _ hd']
  case abandoned =>
    intro b hb hret
    have hold := State.lt_of_playing c.isLt hplay
    have htally := Reports.tally s true 0 (badClass b).1 old (badClass b).2
    have hret' := (htally.on (fieldKey_lt_reportKeys (f := Reg.CLU_ROLE_retired) (i := old) (by decide) (by omega))).trans hret
    obtain ⟨hwidth, hlow, hplace⟩ := badCause_field b
    refine ⟨_, exec_liveSubstitution_of_bad harmed hstep hp hplay hb hret', State.clu_abandon_spare ..,
      State.clu_abandon_old _ hret' hne _, (State.rg_role_abandon _ hret' hold hplace hold _).trans (htally.rg (role_key_lt hold)),
      (State.rg_role_abandon _ hret' hold hplace c.isLt _).trans (htally.rg (role_key_lt c.isLt)), ?_⟩
    have hon := State.on_abandon _ hret' hold hwidth hlow c.val
    cases b <;> exact hon

end Sys2Proof.Proofs
end

section
/-!
PROOFS. The codecs of slots, operand descriptors and a keeper's words (R82 to R112, R360 to R362), and the statement SlotRoundTrip.
-/
namespace Sys2Proof.Machine

/-! ### A number made of fields -/

/-- A field of a slot: a number of a width, a word or a flag. -/
inductive SlotField where
  | num (width value : Nat)
  | word {w : Nat} (x : BitVec w)
  | flag (b : Bool)

/-- The bits that a field takes. -/
@[simp] def SlotField.width : SlotField → Nat
  | .num w _ => w
  | .word (w := w) _ => w
  | .flag _ => 1

/-- The number that a field holds. -/
@[simp] def SlotField.value : SlotField → Nat
  | .num _ n => n
  | .word x => x.toNat
  | .flag b => b2n b

/-- The value fits the width. -/
@[simp] def SlotField.Fits : SlotField → Prop
  | .num w n => n < 2 ^ w
  | _ => True

/-- What the decoder finds of a field in v from bit lo up. -/
@[simp] def SlotField.In (v lo : Nat) : SlotField → Prop
  | .num w n => v / 2 ^ lo % 2 ^ w = n
  | .word (w := w) x => fld w v lo = x
  | .flag b => flg v lo = b

theorem SlotField.in_iff (v lo : Nat) (f : SlotField) : f.In v lo ↔ v / 2 ^ lo % 2 ^ f.width = f.value := by
  cases f with
  | num w n => rfl
  | word x => rw [In, BitVec.toNat_eq, fld, BitVec.toNat_ofNat, width, value]
  | flag b => cases b <;> simp [flg, b2n]

theorem SlotField.value_lt {f : SlotField} (h : f.Fits) : f.value < 2 ^ f.width := by
  cases f with
  | num w n => exact h
  | word x => exact x.isLt
  | flag b => cases b <;> decide

/-- The bits that fields take, the highest first. -/
@[simp] def fieldsWidth : List SlotField → Nat
  | [] => 0
  | f :: fs => f.width + fieldsWidth fs

/-- The number that fields make. -/
@[simp] def packFields : List SlotField → Nat
  | [] => 0
  | f :: fs => f.value * 2 ^ fieldsWidth fs + packFields fs

/-- The decoder finds every field in its place in v. -/
@[simp] def HoldsFields (v : Nat) : List SlotField → Prop
  | [] => True
  | f :: fs => f.In v (fieldsWidth fs) ∧ HoldsFields v fs

theorem packFields_lt {fs : List SlotField} (h : ∀ f ∈ fs, f.Fits) : packFields fs < 2 ^ fieldsWidth fs := by
  induction fs with
  | nil => exact Nat.one_pos
  | cons f fs ih =>
    obtain ⟨hf, hfs⟩ := List.forall_mem_cons.mp h
    calc f.value * 2 ^ fieldsWidth fs + packFields fs
      _ < f.value * 2 ^ fieldsWidth fs + 2 ^ fieldsWidth fs := Nat.add_lt_add_left (ih hfs) _
      _ = (f.value + 1) * 2 ^ fieldsWidth fs := (Nat.succ_mul ..).symm
      _ ≤ 2 ^ f.width * 2 ^ fieldsWidth fs := Nat.mul_le_mul_right _ (f.value_lt hf)
      _ = 2 ^ fieldsWidth (f :: fs) := (pow_add ..).symm

/-- The low bits of a number are what fields make exactly if every field is in its place: the top field is the quotient and
the others are the remainder. -/
theorem holdsFields_iff {fs : List SlotField} (h : ∀ f ∈ fs, f.Fits) (v : Nat) :
    HoldsFields v fs ↔ v % 2 ^ fieldsWidth fs = packFields fs := by
  induction fs with
  | nil => simp [Nat.mod_one]
  | cons f fs ih =>
    obtain ⟨-, hfs⟩ := List.forall_mem_cons.mp h
    have hpos : 0 < 2 ^ fieldsWidth fs := Nat.two_pow_pos _
    have hcut : v % 2 ^ fieldsWidth (f :: fs) =
        v % 2 ^ fieldsWidth fs + 2 ^ fieldsWidth fs * (v / 2 ^ fieldsWidth fs % 2 ^ f.width) := by
      rw [fieldsWidth, Nat.add_comm, pow_add, Nat.mod_mul]
    rw [HoldsFields, ih hfs, SlotField.in_iff, hcut, packFields, Nat.add_comm (_ * _), Nat.mul_comm f.value]
    refine ⟨fun ⟨htop, hlow⟩ => by rw [htop, hlow], fun heq => ?_⟩
    have hlow := congrArg (· % 2 ^ fieldsWidth fs) heq
    have htop := congrArg (· / 2 ^ fieldsWidth fs) heq
    simp only [Nat.add_mul_mod_self_left, Nat.add_mul_div_left _ _ hpos, Nat.mod_mod, Nat.mod_eq_of_lt (packFields_lt hfs),
      Nat.div_eq_of_lt (packFields_lt hfs), Nat.div_eq_of_lt (Nat.mod_lt _ hpos), Nat.zero_add] at hlow htop
    exact ⟨htop, hlow⟩

/-! ### Opcodes and their codes (R94, R103, R106, R112) -/

theorem WordOp.ofCode_eq_some_iff {n : Nat} {o : WordOp} : WordOp.ofCode n = some o ↔ n = o.code := by
  constructor
  · intro h
    unfold WordOp.ofCode at h
    split at h <;> cases h <;> rfl
  · rintro rfl
    cases o <;> rfl

theorem MoveOp.ofCode_eq_some_iff {n : Nat} {o : MoveOp} : MoveOp.ofCode n = some o ↔ n = o.code := by
  constructor
  · intro h
    unfold MoveOp.ofCode at h
    split at h <;> cases h <;> rfl
  · rintro rfl
    cases o <;> rfl

theorem MemOp.ofCode_eq_some_iff {n : Nat} {o : MemOp} : MemOp.ofCode n = some o ↔ n = o.code := by
  constructor
  · intro h
    unfold MemOp.ofCode at h
    split at h <;> cases h <;> rfl
  · rintro rfl
    cases o <;> rfl

/-- A vector opcode that R112 lists: of the lane opcodes, those that act on lanes. -/
def VecOp.listed : VecOp → Bool
  | .lane o => o.onLanes
  | _ => true

theorem SlotI.wellFormed_vec (o : VecOp) (f : VecFields) (p : Pred) : (SlotI.vec o f p).wellFormed = o.listed := by
  cases o <;> rfl

theorem VecOp.ofCode_eq_some_iff {n : Nat} {o : VecOp} : VecOp.ofCode n = some o ↔ n = o.code ∧ o.listed = true := by
  constructor
  · intro h
    unfold VecOp.ofCode at h
    split at h
    case h_16 =>
      split at h
      next w hw =>
        split at h
        next hl => cases h; exact ⟨WordOp.ofCode_eq_some_iff.mp hw, hl⟩
        next => cases h
      next => cases h
    all_goals cases h; exact ⟨rfl, rfl⟩
  · rintro ⟨rfl, h⟩
    cases o with
    | lane w => cases w <;> cases h <;> rfl
    | _ => rfl

theorem WordOp.code_lt (o : WordOp) : o.code < 64 := by cases o <;> decide
theorem MoveOp.code_lt (o : MoveOp) : o.code < 16 := by cases o <;> decide
theorem MemOp.code_lt (o : MemOp) : o.code < 16 := by cases o <;> decide

theorem VecOp.code_lt (o : VecOp) : o.code < 64 := by
  cases o with
  | lane w => exact w.code_lt
  | _ => decide

/-! ### The layout of a slot -/

/-- The fields of a slot from bit 71 down (R82, R84, R86, R93, R103, R106, R109). -/
@[simp] def SlotI.layout : SlotI → List SlotField
  | .nop => [.num 72 0]
  | .rep n e => [.num 8 1, .word n, .word e, .num 44 0]
  | .bit am tt a b c n => [.num 1 1, .word am, .word tt, .word a, .word b, .word c, .word n]
  | .move o d s num cons p =>
    [.num 4 1, .num 4 o.code, .word d, .word s, .word num, .flag cons, .word p.pn, .flag p.pinv, .num 13 0]
  | .word o d a b p aux => [.num 4 2, .num 6 o.code, .word d, .word a, .word b, .word p.pn, .flag p.pinv, .word aux]
  | .mem o d s x r p => [.num 4 5, .num 4 o.code, .word d, .word s, .word x, .word r, .word p.pn, .flag p.pinv]
  | .vec o f p =>
    [.num 4 4, .num 2 0, .num 6 o.code, .word f.vd, .word f.va, .word f.vb, .flag f.um, .word f.ms, .flag f.fw, .word f.fm,
      .flag f.bs, .word f.sb, .word f.aux, .word p.pn, .flag p.pinv, .num 10 0]
  | .cont part => [.num 4 4, .word part, .num 66 0]

theorem SlotI.fieldsWidth_layout (i : SlotI) : fieldsWidth i.layout = 72 := by
  cases i <;> simp

theorem SlotI.layout_fits (i : SlotI) : ∀ f ∈ i.layout, f.Fits := by
  cases i <;> simp [MoveOp.code_lt, WordOp.code_lt, MemOp.code_lt, VecOp.code_lt]

theorem encodeSlotNat_eq_packFields (i : SlotI) : encodeSlotNat i = packFields i.layout := by
  cases i <;> simp [encodeSlotNat, Nat.add_assoc]

theorem encodeSlotNat_lt (i : SlotI) : encodeSlotNat i < 2 ^ 72 := by
  rw [encodeSlotNat_eq_packFields, ← i.fieldsWidth_layout]
  exact packFields_lt i.layout_fits

theorem holdsFields_layout_iff (x : Slot) (i : SlotI) : HoldsFields x.toNat i.layout ↔ encodeSlot i = x := by
  rw [holdsFields_iff i.layout_fits, i.fieldsWidth_layout, Nat.mod_eq_of_lt x.isLt, ← encodeSlotNat_eq_packFields,
    BitVec.toNat_eq, encodeSlot, BitVec.toNat_ofNat, Nat.mod_eq_of_lt (encodeSlotNat_lt i), eq_comm]


/-- A word that decodes holds the fields of its slot, and the slot is well formed: the decoder's branches. -/
theorem holdsFields_of_decodeSlot {x : Slot} {i : SlotI} (h : decodeSlot x = some i) :
    HoldsFields x.toNat i.layout ∧ i.wellFormed = true := by
  unfold decodeSlot at h
  dsimp only at h
  split at h
  next hbit => cases h; exact ⟨by simp; omega, rfl⟩
  next =>
    split at h
    next hclass =>
      split at h
      next hnop => cases h; exact ⟨by simp [hnop], rfl⟩
      next =>
        split at h
        next hrep => cases h; exact ⟨by simp; omega, rfl⟩
        next => cases h
    next hmove =>
      split at h
      next o ho =>
        have hcode := MoveOp.ofCode_eq_some_iff.mp ho
        split at h
        next hz => cases h; exact ⟨by simp; omega, rfl⟩
        next => cases h
      next => cases h
    next hword =>
      split at h
      next o ho =>
        have hcode := WordOp.ofCode_eq_some_iff.mp ho
        cases h
        exact ⟨by simp; omega, rfl⟩
      next => cases h
    next hvec =>
      split at h
      next hlead =>
        split at h
        next o ho =>
          obtain ⟨hcode, hlisted⟩ := VecOp.ofCode_eq_some_iff.mp ho
          split at h
          next hz => cases h; exact ⟨by simp; omega, (SlotI.wellFormed_vec ..).trans hlisted⟩
          next => cases h
        next => cases h
      next hcont =>
        split at h
        next hz => cases h; exact ⟨by simp; omega, by simpa [SlotI.wellFormed, BitVec.toNat_eq, fld] using hcont⟩
        next => cases h
    next hmem =>
      split at h
      next o ho =>
        have hcode := MemOp.ofCode_eq_some_iff.mp ho
        cases h
        exact ⟨by simp; omega, rfl⟩
      next => cases h
    next => cases h

/-- A word that holds the fields of a well-formed slot decodes to it: the top field names the class. -/
theorem decodeSlot_of_holdsFields {x : Slot} {i : SlotI} (h : HoldsFields x.toNat i.layout) (hwf : i.wellFormed = true) :
    decodeSlot x = some i := by
  have class_eq {k : Nat} (hk : x.toNat / 2 ^ 68 % 2 ^ 4 = k) : x.toNat / 2 ^ 68 = k := by have := x.isLt; omega
  have not_bit {k : Nat} (hk : x.toNat / 2 ^ 68 = k) (hlt : k < 8) : x.toNat / 2 ^ 71 ≠ 1 := by omega
  unfold decodeSlot
  dsimp only
  cases i <;> simp [-Nat.reducePow] at h
  case nop =>
    have hx : x.toNat = 0 := by have := x.isLt; omega
    simp [hx]
  case rep n e =>
    obtain ⟨hrep, rfl, rfl, hz⟩ := h
    have hrep : x.toNat / 2 ^ 64 = 1 := by have := x.isLt; omega
    have hclass : x.toNat / 2 ^ 68 = 0 := by omega
    have hne : x.toNat ≠ 0 := by omega
    simp only [not_bit hclass (by decide), hclass, hne, hrep, hz, and_self, if_true, if_false]
  case bit =>
    obtain ⟨hbit, rfl, rfl, rfl, rfl, rfl, rfl⟩ := h
    have hbit : x.toNat / 2 ^ 71 = 1 := by have := x.isLt; omega
    simp only [hbit, if_true]
  case move o d s num cons p =>
    obtain ⟨pn, pinv⟩ := p
    obtain ⟨hclass, ho, rfl, rfl, rfl, rfl, rfl, rfl, hz⟩ := h
    have hcode : MoveOp.ofCode (x.toNat / 2 ^ 64 % 16) = some o := MoveOp.ofCode_eq_some_iff.mpr ho
    simp only [not_bit (class_eq hclass) (by decide), class_eq hclass, hcode, hz, if_true, if_false]
  case word o d a b p aux =>
    obtain ⟨pn, pinv⟩ := p
    obtain ⟨hclass, ho, rfl, rfl, rfl, rfl, rfl, rfl⟩ := h
    have hcode : WordOp.ofCode (x.toNat / 2 ^ 62 % 64) = some o := WordOp.ofCode_eq_some_iff.mpr ho
    simp only [not_bit (class_eq hclass) (by decide), class_eq hclass, hcode, if_false]
  case mem o d s x r p =>
    obtain ⟨pn, pinv⟩ := p
    obtain ⟨hclass, ho, rfl, rfl, rfl, rfl, rfl, rfl⟩ := h
    have hcode : MemOp.ofCode (_ / 2 ^ 64 % 16) = some o := MemOp.ofCode_eq_some_iff.mpr ho
    simp only [not_bit (class_eq hclass) (by decide), class_eq hclass, hcode, if_false]
  case vec o f p =>
    obtain ⟨vd, va, vb, um, ms, fw, fm, bs, sb, aux⟩ := f
    obtain ⟨pn, pinv⟩ := p
    obtain ⟨hclass, hpart, ho, rfl, rfl, rfl, rfl, rfl, rfl, rfl, rfl, rfl, rfl, rfl, rfl, hz⟩ := h
    have hlead : x.toNat / 2 ^ 66 % 4 = 0 := hpart
    have hcode : VecOp.ofCode (x.toNat / 2 ^ 60 % 64) = some o :=
      VecOp.ofCode_eq_some_iff.mpr ⟨ho, (SlotI.wellFormed_vec ..).symm.trans hwf⟩
    simp only [not_bit (class_eq hclass) (by decide), class_eq hclass, hlead, hcode, hz, if_true, if_false]
  case cont part =>
    obtain ⟨hclass, rfl, hz⟩ := h
    have hcont : x.toNat / 2 ^ 66 % 4 ≠ 0 := by simpa [SlotI.wellFormed, BitVec.toNat_eq, fld] using hwf
    simp only [not_bit (class_eq hclass) (by decide), class_eq hclass, hcont, hz, if_true, if_false]

/-- The decoder and the encoder are inverse to each other on well-formed slots. -/
theorem decodeSlot_eq_some_iff {x : Slot} {i : SlotI} : decodeSlot x = some i ↔ encodeSlot i = x ∧ i.wellFormed = true := by
  rw [← holdsFields_layout_iff]
  exact ⟨holdsFields_of_decodeSlot, fun ⟨h, hwf⟩ => decodeSlot_of_holdsFields h hwf⟩

/-! ### Operand descriptors: a kind in bits 15 to 12 and a payload (R91) -/

theorem descriptor_kind {k p : Nat} (hk : k < 16) (hp : p < 4096) : (BitVec.ofNat 16 (k * 4096 + p)).toNat / 4096 = k := by
  rw [BitVec.toNat_ofNat]
  omega

theorem descriptor_payload (k : Nat) {p : Nat} (hp : p < 4096) : (BitVec.ofNat 16 (k * 4096 + p)).toNat % 4096 = p := by
  rw [BitVec.toNat_ofNat]
  omega

theorem descriptor_of_kind_payload {x : BitVec 16} {k p : Nat} (hk : x.toNat / 4096 = k) (hp : x.toNat % 4096 = p) :
    BitVec.ofNat 16 (k * 4096 + p) = x := by
  rw [BitVec.toNat_eq, BitVec.toNat_ofNat]
  omega

theorem operandOf_descriptorOf {o : Operand} (hbad : o ≠ .bad) (hrel : o ≠ .rel 0) : operandOf (descriptorOf o) = o := by
  have base_kind (k : Nat) (hk : k < 16) (b : BitVec 12) := descriptor_kind hk b.isLt
  have base_payload (k : Nat) (b : BitVec 12) :
      BitVec.ofNat 12 ((BitVec.ofNat 16 (k * 4096 + b.toNat)).toNat % 4096) = b := by
    rw [descriptor_payload k b.isLt, BitVec.ofNat_toNat, BitVec.setWidth_eq]
  cases o with
  | reg r =>
    have hlt : r.toNat < 64 := r.isLt
    have hr : descriptorOf (.reg r) = BitVec.ofNat 16 (0 * 4096 + r.toNat) := by simp [descriptorOf]
    simp only [hr, operandOf, descriptor_kind (k := 0) (p := r.toNat) (by decide) (by omega),
      descriptor_payload 0 (p := r.toNat) (by omega), hlt, if_true, BitVec.ofNat_toNat, BitVec.setWidth_eq]
  | rel d =>
    have hlt : d.toNat < 1024 := d.isLt
    have hpos : 1 ≤ d.toNat := Nat.pos_of_ne_zero fun h => hrel (congrArg Operand.rel (BitVec.eq_of_toNat_eq h))
    simp only [operandOf, descriptorOf, descriptor_kind (k := 2) (p := d.toNat) (by decide) (by omega),
      descriptor_payload 2 (p := d.toNat) (by omega), hpos, hlt, and_self, if_true, BitVec.ofNat_toNat, BitVec.setWidth_eq]
  | cell c => simp only [operandOf, descriptorOf, base_kind 1 (by decide) c, base_payload 1]
  | imm v => simp only [operandOf, descriptorOf, base_kind 7 (by decide) v, base_payload 7]
  | ix one b =>
    cases one with
    | false => simp only [operandOf, descriptorOf, Bool.false_eq_true, if_false, base_kind 3 (by decide) b, base_payload 3]
    | true => simp only [operandOf, descriptorOf, if_true, base_kind 4 (by decide) b, base_payload 4]
  | li one b =>
    cases one with
    | false => simp only [operandOf, descriptorOf, Bool.false_eq_true, if_false, base_kind 5 (by decide) b, base_payload 5]
    | true => simp only [operandOf, descriptorOf, if_true, base_kind 6 (by decide) b, base_payload 6]
  | mask m => revert m; decide
  | ixReg one => cases one <;> rfl
  | liReg one => cases one <;> rfl
  | acc high => cases high <;> rfl
  | bad => exact absurd rfl hbad
  | _ => rfl

theorem descriptorOf_of_operandOf {x : BitVec 16} {o : Operand} (h : operandOf x = o) (hbad : o ≠ .bad) : descriptorOf o = x := by
  have payload {w : Nat} (hw : x.toNat % 4096 < 2 ^ w) : x.toNat % 4096 = (BitVec.ofNat w (x.toNat % 4096)).toNat := by
    rw [BitVec.toNat_ofNat, Nat.mod_eq_of_lt hw]
  have base := payload (w := 12) (Nat.mod_lt _ (by decide))
  unfold operandOf at h
  dsimp only at h
  split at h
  next hk =>
    split at h
    next hp =>
      rw [← h, descriptorOf, ← payload (w := 6) hp, ← Nat.zero_add (_ % _), ← Nat.zero_mul 4096]
      exact descriptor_of_kind_payload hk rfl
    next => exact absurd h.symm hbad
  next hk => subst h; exact descriptor_of_kind_payload hk base
  next hk =>
    split at h
    next hp => subst h; exact descriptor_of_kind_payload hk (payload hp.2)
    next => exact absurd h.symm hbad
  next hk => subst h; exact descriptor_of_kind_payload hk base
  next hk => subst h; exact descriptor_of_kind_payload hk base
  next hk => subst h; exact descriptor_of_kind_payload hk base
  next hk => subst h; exact descriptor_of_kind_payload hk base
  next hk => subst h; exact descriptor_of_kind_payload hk base
  next hk =>
    split at h
    next hp => subst h; exact descriptor_of_kind_payload hk hp
    next => exact absurd h.symm hbad
  next hk =>
    split at h
    case h_10 => exact absurd h.symm hbad
    all_goals next hp => subst h; exact descriptor_of_kind_payload hk hp
  next hk =>
    split at h
    next hp => subst h; exact descriptor_of_kind_payload hk hp
    next =>
      split at h
      next hp => subst h; exact descriptor_of_kind_payload hk hp
      next => exact absurd h.symm hbad
  next hk =>
    split at h
    next hp => subst h; exact descriptor_of_kind_payload hk hp
    next => exact absurd h.symm hbad
  next => exact absurd h.symm hbad

end Sys2Proof.Machine

namespace Sys2Proof

/-! ### A keeper's words (R360 to R362) -/

/-- The word of format 10 with an op and an operand (R362). -/
def operateWord (op : Nat) (o : BitVec 6) : BitVec 14 := BitVec.ofNat 14 (0x2000 + 64 * op + o.toNat)

/-- The word that spells a keeper's instruction (R360 to R362). -/
def Instr.kealaWord : Instr → BitVec 14
  | .literal _ v => BitVec.ofNat 14 v.toNat
  | .jmp _ a => BitVec.ofNat 14 (0x1000 + a.toNat)
  | .call _ a => BitVec.ofNat 14 (0x1400 + a.toNat)
  | .bz _ p a => BitVec.ofNat 14 (0x1800 + 512 * p.toNat + a.toNat)
  | .bnz _ p a => BitVec.ofNat 14 (0x1C00 + 512 * p.toNat + a.toNat)
  | .customerInstruction _ a o => BitVec.ofNat 14 (0x3000 + 64 * a.toNat + o.toNat)
  | .kealaNop _ => operateWord 0x00 0 | .dup _ => operateWord 0x01 0 | .drop _ => operateWord 0x02 0
  | .swap _ => operateWord 0x03 0 | .over _ => operateWord 0x04 0 | .rot _ => operateWord 0x05 0 | .nip _ => operateWord 0x06 0
  | .pick _ o => operateWord 0x07 o | .tor _ => operateWord 0x08 0 | .fromr _ => operateWord 0x09 0
  | .rfetch _ => operateWord 0x0A 0 | .testf _ o => operateWord 0x0B o | .depth _ => operateWord 0x0C 0
  | .kealaAdd _ => operateWord 0x10 0 | .kealaSub _ => operateWord 0x11 0 | .adc _ => operateWord 0x12 0
  | .sbb _ => operateWord 0x13 0 | .kealaAnd _ => operateWord 0x14 0 | .kealaOr _ => operateWord 0x15 0
  | .kealaXor _ => operateWord 0x16 0 | .not _ => operateWord 0x17 0 | .kealaShl _ o => operateWord 0x18 o
  | .kealaShr _ o => operateWord 0x19 o | .kealaSar _ o => operateWord 0x1A o | .kealaMulu _ => operateWord 0x1B 0
  | .muls _ => operateWord 0x1C 0 | .cmp _ => operateWord 0x1D 0 | .addi _ o => operateWord 0x1E o
  | .cmpi _ o => operateWord 0x1F o | .lda _ o => operateWord 0x20 o | .sta _ o => operateWord 0x21 o
  | .ldx _ o => operateWord 0x22 o | .stx _ o => operateWord 0x23 o | .ld _ => operateWord 0x24 0 | .st _ => operateWord 0x25 0
  | .seta _ => operateWord 0x26 0 | .geta _ => operateWord 0x27 0 | .adda _ => operateWord 0x28 0 | .rd _ o => operateWord 0x29 o
  | .wr _ o => operateWord 0x2A o | .pflush _ => operateWord 0x2C 0 | .wait _ => operateWord 0x2D 0
  | .brk _ => operateWord 0x2E 0 | .moveb _ => operateWord 0x30 0 | .fillb _ => operateWord 0x31 0
  | .scanb _ o => operateWord 0x32 o | .chkb _ o => operateWord 0x33 o | .semt _ o => operateWord 0x34 o
  | .semg _ o => operateWord 0x35 o | .winr _ o => operateWord 0x36 o | .winw _ o => operateWord 0x37 o
  | .ret _ o => operateWord 0x38 o | .mcall _ o => operateWord 0x39 o | .mret _ o => operateWord 0x3A o
  | .calla _ => operateWord 0x3B 0 | .jmpa _ => operateWord 0x3C 0 | .gate _ o => operateWord 0x3D o
  | .reti _ => operateWord 0x3E 0
  | _ => 0

/-- An op takes as many operand values as its instruction allows; one that takes a single value, or all, sets no bound. -/
theorem wellFormed_eq_of_kealaOp {op n : Nat} {f : Fin 4 → BitVec 6 → Instr} (h : kealaOp op = some (n, f)) (k : Fin 4)
    (o : BitVec 6) : (f k o).wellFormed = (n == 1 || n == 64 || decide (o.toNat < n)) := by
  unfold kealaOp at h
  split at h <;> cases h <;> rfl

/-- An op that takes a single operand value takes 0. -/
theorem kealaWord_eq_of_kealaOp {op n : Nat} {f : Fin 4 → BitVec 6 → Instr} (h : kealaOp op = some (n, f)) (k : Fin 4)
    (o : BitVec 6) : (f k o).kealaWord = operateWord op (if n = 1 then 0 else o) := by
  unfold kealaOp at h
  split at h <;> cases h <;> rfl

theorem toNat_extractLsb'_eq_div_mod {n : Nat} (w : BitVec n) (lo len : Nat) :
    (w.extractLsb' lo len).toNat = w.toNat / 2 ^ lo % 2 ^ len := by
  rw [BitVec.extractLsb'_toNat, Nat.shiftRight_eq_div_pow]

theorem toNat_getLsbD_eq_div_mod {n : Nat} (w : BitVec n) (j : Nat) : (w.getLsbD j).toNat = w.toNat / 2 ^ j % 2 := by
  rw [← BitVec.testBit_toNat, Nat.toNat_testBit]

theorem mod_four_eq_three {m : Nat} (h0 : m % 2 ^ 2 ≠ 0) (h1 : m % 2 ^ 2 ≠ 1) (h2 : m % 2 ^ 2 ≠ 2) : m % 2 ^ 2 = 3 := by omega

theorem operateWord_of_format {w : BitVec 14} (h : w.toNat / 2 ^ 12 % 2 ^ 2 = 2) :
    operateWord (w.extractLsb' 6 6).toNat (w.extractLsb' 0 6) = w := by
  rw [BitVec.toNat_eq, operateWord, BitVec.toNat_ofNat]
  simp only [toNat_extractLsb'_eq_div_mod]
  omega

/-- What a word of a keeper's program spells is well formed, and that word alone spells it. -/
theorem wellFormed_and_kealaWord_of_kealaInstr {k : Fin 4} {w : BitVec 14} {i : Instr} (h : kealaInstr k w = some i) :
    i.wellFormed = true ∧ i.kealaWord = w := by
  unfold kealaInstr at h
  simp only [toNat_extractLsb'_eq_div_mod w 12, toNat_extractLsb'_eq_div_mod w 10] at h
  have spelled {n : Nat} (hn : n % 2 ^ 14 = w.toNat) : BitVec.ofNat 14 n = w :=
    BitVec.eq_of_toNat_eq ((BitVec.toNat_ofNat ..).trans hn)
  split at h
  next literal => cases h; exact ⟨rfl, spelled (by rw [BitVec.toNat_setWidth]; omega)⟩
  next control =>
    split at h
    next => cases h; exact ⟨rfl, spelled (by rw [BitVec.toNat_setWidth]; omega)⟩
    next => cases h; exact ⟨rfl, spelled (by rw [BitVec.toNat_setWidth]; omega)⟩
    next => cases h; exact ⟨rfl, spelled (by rw [BitVec.toNat_setWidth, toNat_getLsbD_eq_div_mod]; omega)⟩
    next h0 h1 h2 =>
      have bnz := mod_four_eq_three h0 h1 h2
      cases h
      exact ⟨rfl, spelled (by rw [BitVec.toNat_setWidth, toNat_getLsbD_eq_div_mod]; omega)⟩
  next operate =>
    split at h
    next n f hop =>
      split at h
      next ho =>
        cases h
        rw [wellFormed_eq_of_kealaOp hop, kealaWord_eq_of_kealaOp hop, decide_eq_true ho, Bool.or_true]
        refine ⟨rfl, ?_⟩
        split
        next hn =>
          have hzero : w.extractLsb' 0 6 = 0 := BitVec.eq_of_toNat_eq (Nat.lt_one_iff.mp (hn ▸ ho))
          rw [← hzero, operateWord_of_format operate]
        next => exact operateWord_of_format operate
      next => cases h
    next => cases h
  next h0 h1 h2 =>
    have customer := mod_four_eq_three h0 h1 h2
    cases h
    exact ⟨rfl, spelled (by rw [toNat_extractLsb'_eq_div_mod, toNat_extractLsb'_eq_div_mod]; omega)⟩

end Sys2Proof

namespace Sys2Proof.Proofs
open Sys2Proof.Machine

/-- Settles O13: a slot's word holds the fields of its layout exactly if it is the slot's encoding; a descriptor is its kind and
its payload; the word of a keeper's instruction is a function of the instruction. -/
theorem slotRoundTrip : Obligations.SlotRoundTrip := by
  unfold Obligations.SlotRoundTrip
  refine ⟨fun i hwf => decodeSlot_eq_some_iff.mpr ⟨rfl, hwf⟩, fun x i => decodeSlot_eq_some_iff.mp,
    fun o => operandOf_descriptorOf, fun x => descriptorOf_of_operandOf rfl, fun k w w' i h => ?_⟩
  obtain ⟨hwf, hword⟩ := wellFormed_and_kealaWord_of_kealaInstr h
  exact ⟨hwf, fun h' => (wellFormed_and_kealaWord_of_kealaInstr h').2.symm.trans hword⟩

end Sys2Proof.Proofs
end

section
/-!
PROOFS. Results and flags of the word operations, the multiplies and the accumulator operations (R94 to R99), and the statement
WordOperationResults.
-/
namespace Sys2Proof.Machine
open Sys2Proof.Claims

/-! ### Saturation (R97) -/

theorem clamp_eq_max_min {lo hi : Int} (h : lo ≤ hi) (v : Int) :
    clamp lo hi v = (max lo (min hi v), decide (v < lo) || decide (hi < v)) := by
  unfold clamp
  split_ifs with hlo hhi
  · exact Prod.ext (by dsimp only; omega) (by simp [hlo])
  · exact Prod.ext (by dsimp only; omega) (by simp [hhi])
  · exact Prod.ext (by dsimp only; omega) (by simp [hlo, hhi])

theorem satS_eq_clamped (v : Int) : satS v = clamped (-2048) 2047 v := by
  rw [satS, clamp_eq_max_min (by decide)]
  rfl

theorem satU_eq_clamped (v : Int) : satU v = clamped 0 4095 v := by
  rw [satU, clamp_eq_max_min (by decide)]
  rfl

/-! ### Rounding (R98) -/

/-- Of the quotient and the next integer the nearer one, told by twice the remainder, and the even one where it is the divisor. -/
theorem nearestEven_halfEven (x : Int) (n : Nat) : NearestEven x n (halfEven x n) := by
  have hpos : (0 : Int) < 2 ^ n := by positivity
  have hsplit := Int.mul_ediv_add_emod x (2 ^ n)
  have hlow := Int.emod_nonneg x hpos.ne'
  have hhigh := Int.emod_lt_of_pos x hpos
  unfold NearestEven halfEven
  dsimp only
  generalize (2 ^ n : Int) = p at *
  generalize x / p = q at *
  generalize x % p = r at *
  subst hsplit
  have down : 2 * (q * p - (p * q + r)) = -2 * r := by ring
  have up : 2 * ((q + 1) * p - (p * q + r)) = 2 * p - 2 * r := by ring
  split_ifs
  · rw [down]; omega
  · rw [up]; omega
  · rw [down]; omega
  · rw [up]; omega

/-! ### Bits that a right shift loses -/

theorem dvd_toInt_sub_toNat (a : Cell) : (4096 : Int) ∣ a.toInt - a.toNat := by
  rw [BitVec.toInt_eq_toNat_cond]
  split <;> omega

/-- A power of two divides the signed value exactly if it divides the unsigned one: they differ by 0 or 2 ^ 12, and a power of
at least 2 ^ 12 divides neither but in 0. -/
theorem two_pow_dvd_toInt_iff (a : Cell) (n : Nat) : (2 ^ n : Int) ∣ a.toInt ↔ 2 ^ n ∣ a.toNat := by
  have short {k : Nat} (hk : k ≤ 12) : (2 ^ k : Int) ∣ a.toInt ↔ 2 ^ k ∣ a.toNat := by
    rw [dvd_iff_dvd_of_dvd_sub ((pow_dvd_pow 2 hk).trans (dvd_toInt_sub_toNat a))]
    exact_mod_cast Int.natCast_dvd_natCast
  rcases Nat.le_total n 12 with hn | hn
  · exact short hn
  · have zero (h : 2 ^ 12 ∣ a.toNat) : a = 0 := BitVec.eq_of_toNat_eq (Nat.eq_zero_of_dvd_of_lt h a.isLt)
    constructor
    · intro h
      rw [zero ((short le_rfl).mp ((pow_dvd_pow 2 hn).trans h))]
      exact dvd_zero _
    · intro h
      rw [zero ((pow_dvd_pow 2 hn).trans h)]
      exact dvd_zero _

theorem lost_iff (a : Cell) (n : Nat) : sgn a % 2 ^ n ≠ 0 ↔ a.toNat % 2 ^ n ≠ 0 := by
  rw [sgn, ne_eq, ← Int.dvd_iff_emod_eq_zero, two_pow_dvd_toInt_iff, Nat.dvd_iff_mod_eq_zero]

/-! ### Word operations (R94, R96, R99) -/

theorem add_eq_ofInt (a b : Cell) : a + b = BitVec.ofInt 12 (a.toNat + b.toNat) := BitVec.eq_of_toNat_eq rfl

theorem sub_eq_ofInt (a b : Cell) : a - b = BitVec.ofInt 12 (a.toNat - b.toNat) := by
  apply BitVec.eq_of_toNat_eq
  rw [BitVec.toNat_sub, BitVec.toNat_ofInt]
  omega

theorem shiftLeft_eq_ofNat (a : Cell) (n : Nat) : a <<< n = BitVec.ofNat 12 (a.toNat * 2 ^ n) := by
  rw [BitVec.toNat_eq, BitVec.toNat_shiftLeft, BitVec.toNat_ofNat, Nat.shiftLeft_eq]

theorem ushiftRight_eq_ofNat (a : Cell) (n : Nat) : a >>> n = BitVec.ofNat 12 (a.toNat / 2 ^ n) := by
  rw [BitVec.toNat_eq, BitVec.toNat_ushiftRight, BitVec.toNat_ofNat, Nat.shiftRight_eq_div_pow,
    Nat.mod_eq_of_lt ((Nat.div_le_self ..).trans_lt a.isLt)]

/-- The bits that a rotation moves past the top come in at the bottom, where the shift has left zeros. -/
theorem rotateLeft_eq_rotated (a : Cell) (n : Nat) : a.rotateLeft (n % 12) = rotated a n := by
  obtain ⟨k, hk⟩ : ∃ k, 12 = n % 12 + k := ⟨12 - n % 12, by omega⟩
  rw [rotated, BitVec.rotateLeft_def, Nat.mod_mod]
  generalize n % 12 = r at *
  have hr : 12 - r = k := by omega
  have hfull : 4096 = 2 ^ r * 2 ^ k := by rw [← pow_add, ← hk]; rfl
  have hhigh : a.toNat * 2 ^ r % 4096 = 2 ^ r * (a.toNat % 2 ^ k) := by
    rw [hfull, Nat.mul_comm, Nat.mul_mod_mul_left]
  have hlow : a.toNat * 2 ^ r / 4096 = a.toNat / 2 ^ k := by
    rw [hfull, Nat.mul_comm, Nat.mul_div_mul_left _ _ (by positivity)]
  have hfit : a.toNat / 2 ^ k < 2 ^ r := by
    rw [Nat.div_lt_iff_lt_mul (by positivity), ← hfull]
    exact a.isLt
  have hsum : 2 ^ r * (a.toNat % 2 ^ k) + a.toNat / 2 ^ k < 4096 := by
    have := Nat.mod_lt a.toNat (show 0 < 2 ^ k by positivity)
    calc _ < 2 ^ r * (a.toNat % 2 ^ k) + 2 ^ r := by omega
      _ = 2 ^ r * (a.toNat % 2 ^ k + 1) := by ring
      _ ≤ 2 ^ r * 2 ^ k := Nat.mul_le_mul_left _ this
      _ = 4096 := hfull.symm
  rw [BitVec.toNat_eq, BitVec.toNat_or, BitVec.toNat_shiftLeft, BitVec.toNat_ushiftRight, Nat.shiftLeft_eq,
    Nat.shiftRight_eq_div_pow, BitVec.toNat_ofNat, hr, show 2 ^ 12 = 4096 from rfl, hlow,
    ← Nat.mod_add_mod, hhigh, ← Nat.two_pow_add_eq_or_of_lt hfit, Nat.mod_eq_of_lt hsum]

theorem ones_eq_sum (a : Cell) : ones a = ((List.range 12).map fun m => if a.toNat.testBit m then 1 else 0).sum := by
  rw [ones, List.sum_map_ite]
  simp

theorem choose_eq {p q : Prop} [Decidable p] [Decidable q] (h : p ↔ q) (a b : Cell) :
    (if p then (b, true) else (a, false)) = (if q then b else a, decide q) := by
  by_cases hq : q <;> simp [h, hq]

theorem ite_neg_eq_max (i : Int) : (if i < 0 then -i else i) = max i (-i) := by
  split <;> omega

theorem b2n_cast (c : Bool) : (b2n c : Int) = if c then 1 else 0 := by cases c <;> rfl

/-- Each word operation of the table gives the table's result and flag; the closed forms above carry the arithmetic. -/
theorem wordResult_of_wordTable {o : WordOp} {a b : Cell} {n : Nat} {c : Bool} {r : Cell × Bool}
    (h : wordTable o a b n c = some r) : wordResult o a b n c = r := by
  refine Option.some.inj (Eq.trans ?_ h)
  cases o with
  | add => exact congrArg some (Prod.ext (add_eq_ofInt a b) (decide_eq_decide.mpr (by omega)))
  | sub => exact congrArg some (Prod.ext (sub_eq_ofInt a b) (decide_eq_decide.mpr (by omega)))
  | addc =>
    refine congrArg some (Prod.ext ?_ (decide_eq_decide.mpr ?_))
    · rw [← b2n_cast]; exact (BitVec.ofInt_natCast 12 _).symm
    · rw [← b2n_cast]; omega
  | subc =>
    refine congrArg some (Prod.ext ?_ (decide_eq_decide.mpr ?_))
    · rw [← b2n_cast]; rfl
    · rw [← b2n_cast]; omega
  | adds => exact congrArg some (satS_eq_clamped _)
  | addu => exact congrArg some (satU_eq_clamped _)
  | subs => exact congrArg some (satS_eq_clamped _)
  | subu => exact congrArg some (satU_eq_clamped _)
  | neg => exact congrArg some (satS_eq_clamped _)
  | abs => exact congrArg some ((satS_eq_clamped _).trans (congrArg _ (ite_neg_eq_max _)))
  | shl => exact congrArg some (Prod.ext (shiftLeft_eq_ofNat a n) (decide_eq_decide.mpr (by omega)))
  | shr => exact congrArg some (Prod.ext (ushiftRight_eq_ofNat a n) rfl)
  | rshr => exact congrArg some (Prod.ext rfl (decide_eq_decide.mpr (lost_iff a n)))
  | rol => exact congrArg some (Prod.ext (rotateLeft_eq_rotated a n) rfl)
  | min => exact congrArg some (choose_eq Iff.rfl a b)
  | max => exact congrArg some (choose_eq Iff.rfl a b)
  | minu => exact congrArg some (choose_eq Int.ofNat_lt.symm a b)
  | maxu => exact congrArg some (choose_eq Int.ofNat_lt.symm a b)
  | cltu => exact congrArg (some ∘ truth) (decide_eq_decide.mpr Int.ofNat_lt.symm)
  | cleu => exact congrArg (some ∘ truth) (decide_eq_decide.mpr Int.ofNat_le.symm)
  | popc => exact congrArg some (by rw [wordResult, ones_eq_sum])
  | mul | mulu | mulsu | mac | macs | macu | acld | acrh | acre | vsetl | rshe => cases h
  | _ => rfl

/-- A signed cell rounded to a nearest quotient by a power of two stays a signed cell. -/
theorem nearestEven_bounds {a q : Int} {n : Nat} (h : NearestEven a n q) (hlo : -2048 ≤ a) (hhi : a < 2048) :
    -2048 ≤ q ∧ q < 2048 := by
  obtain ⟨hge, hle, -⟩ := h
  have hp : (1 : Int) ≤ 2 ^ n := one_le_pow₀ (by decide)
  constructor <;> by_contra hq <;> nlinarith

theorem wordResult_rshe (a b : Cell) (n : Nat) (c : Bool) :
    NearestEven a.toInt n (wordResult .rshe a b n c).1.toInt ∧ ((wordResult .rshe a b n c).2 = true ↔ a.toNat % 2 ^ n ≠ 0) := by
  have hnear := nearestEven_halfEven a.toInt n
  obtain ⟨hlo, hhi⟩ := nearestEven_bounds hnear a.le_toInt a.toInt_lt
  have hexact : (wordResult .rshe a b n c).1.toInt = halfEven a.toInt n := BitVec.toInt_ofInt_eq_self (by decide) hlo hhi
  exact ⟨hexact ▸ hnear, decide_eq_true_iff.trans (lost_iff a n)⟩

/-! ### Multiplies and accumulators (R94, R95, R97, R98) -/

theorem outside_eq (lo hi v : Int) : (decide (v < lo) || decide (hi < v)) = !decide (lo ≤ v ∧ v ≤ hi) := by
  rw [← Bool.decide_or, ← decide_not]
  exact decide_eq_decide.mpr (by omega)

theorem mulResult_mul (a b : Cell) : mulResult .mul a b =
    (BitVec.ofInt 24 (a.toInt * b.toInt), !decide (-2048 ≤ a.toInt * b.toInt ∧ a.toInt * b.toInt ≤ 2047)) :=
  congrArg _ (outside_eq ..)

theorem mulResult_mulsu (a b : Cell) : mulResult .mulsu a b =
    (BitVec.ofInt 24 (a.toInt * b.toNat), !decide (-2048 ≤ a.toInt * b.toNat ∧ a.toInt * b.toNat ≤ 2047)) :=
  congrArg _ (outside_eq ..)

theorem mulResult_mulu (a b : Cell) : mulResult .mulu a b =
    (BitVec.ofNat 24 (a.toNat * b.toNat), decide (4095 < a.toNat * b.toNat)) :=
  Prod.ext (BitVec.ofInt_natCast ..) (decide_eq_decide.mpr Int.ofNat_lt)

theorem macResult_mac (c : BitVec 24) (a b : Cell) (wide : Bool) : macResult .mac c a b wide =
    (BitVec.ofInt 24 (c.toInt + a.toInt * b.toInt),
      !decide (-8388608 ≤ c.toInt + a.toInt * b.toInt ∧ c.toInt + a.toInt * b.toInt ≤ 8388607)) :=
  congrArg _ (outside_eq ..)

theorem macResult_macs (c : BitVec 24) (a b : Cell) (wide : Bool) : macResult .macs c a b wide =
    (BitVec.ofInt 24 (max (-8388608) (min 8388607 (c.toInt + a.toInt * b.toInt))),
      !decide (-8388608 ≤ c.toInt + a.toInt * b.toInt ∧ c.toInt + a.toInt * b.toInt ≤ 8388607)) := by
  rw [← outside_eq, macResult, clamp_eq_max_min (by decide)]
  rfl

theorem macResult_macu (c : BitVec 24) (a b : Cell) (wide : Bool) : macResult .macu c a b wide =
    (BitVec.ofNat 24 (c.toNat + a.toNat * b.toNat), decide (16777215 < c.toNat + a.toNat * b.toNat)) := rfl

theorem macResult_acld (c : BitVec 24) (a b : Cell) (wide : Bool) : macResult .acld c a b wide =
    (if wide then BitVec.ofNat 24 (b.toNat * 4096 + a.toNat) else a.signExtend 24, false) := rfl

end Sys2Proof.Machine

namespace Sys2Proof.Proofs
open Sys2Proof.Machine Sys2Proof.Claims

/-- Settles O14: saturation is clamping to the range, ties go to even by the remainder of the division, and a shift loses the same
bits of the signed and of the unsigned value. -/
theorem wordOperationResults : Obligations.WordOperationResults := by
  unfold Obligations.WordOperationResults
  refine ⟨fun _ _ _ _ _ _ _ => wordResult_of_wordTable, fun a b n c _ => wordResult_rshe a b n c,
    fun a b => ⟨mulResult_mul a b, mulResult_mulu a b, mulResult_mulsu a b⟩,
    fun c a b wide => ⟨macResult_mac c a b wide, macResult_macs c a b wide, macResult_macu c a b wide, macResult_acld c a b wide⟩,
    fun c m _ => ⟨satS_eq_clamped _, halfEven c.toInt m, nearestEven_halfEven _ _, satS_eq_clamped _⟩⟩

end Sys2Proof.Proofs
end

section
/-!
PROOFS. A reach whose number is not its place in the partition, and the statement CaptureRestoreRoundTrip (R152, R278, R302).
-/
namespace Sys2Proof.Proofs
open Sys2Proof.Machine

/-! ### A reach numbered anew -/

/-- Tenant 0 in Run on reach 1 alone, the only reach of its partition and so of relative number 0. Cluster 17 plays position 0 there; the
other clusters of the reach are spares. Keeper 0 runs and has selected the reach, which is not enabled. -/
def numberedZero : State :=
  let fields := [(Reg.PWR_MODE_mode, 0, 1), (Reg.PWR_DOM_state, 1, 1), (Reg.RCH_OWNER_bound, 1, 1), (Reg.RCH_OWNER_tenant, 1, 0),
    (Reg.RCH_OWNER_rel_reach, 1, 0), (Reg.WHF_TSTAT_mode, 0, 2), (Reg.KPR_CTRL_run, 0, 1)]
  let spares := (List.range 16).map fun i => (Reg.CLU_ROLE_role, 18 + i, 0x1F)
  let s := (fields ++ spares).foldl (fun s e => s.setRg e.1 e.2.1 e.2.2) State.reset
  { s.setRgw Reg.RCH_SEL_reach (copyOf (.keeper 0 0 0)) 0 1 with parts := [(0, { bound := [1] })] }

/-- The same partition, whose reach keeper 0 has numbered 1 in RCH_OWNER. -/
def numberedOne : State := numberedZero.setRg Reg.RCH_OWNER_rel_reach 1 1

/-- RCH_OWNER takes the number, since its fields are in use only while RCH_CTRL.enable is 1 (R152, R550). -/
theorem exec_registerWrite_numberedZero :
    exec (.registerWrite (.keeper 0 0 0) 0x200004 0x80000100 0xF) numberedZero = .next numberedOne := by
  have hwrite : { numberedZero.hostWrite (.keeper 0 0 0) 0x200004 0x80000100 0xF with pending := numberedZero.pending } =
    numberedOne := by decide +kernel
  exact congrArg Host.Outcome.next hwrite

/-- The partition at the capture, with 1 in register 0 of cluster 17. -/
def numberedOneUsed : State := numberedOne.setClu 17 { rf := [(0, store 1)] }

/-- The segment is one record, whose byte 8 is the low byte of register 0. -/
theorem captureC_numberedOneUsed_register : (numberedOneUsed.captureC 0)[8]? = some 1 := by decide +kernel

/-- The record names relative reach 1, which the partition does not have, so its restore goes to reach 0 and leaves cluster 17 clear. -/
theorem captureC_restoreC_numberedOne_register :
    ((numberedOne.restoreC 0 (numberedOneUsed.captureC 0)).captureC 0)[8]? = some 0 := by decide +kernel

/-- Refutes O27: a capture numbers a reach as RCH_OWNER does and a restore seeks it by its place in the partition; where the two differ,
which the statement leaves open, the captured register is not restored. -/
theorem not_captureRestoreRoundTrip : ¬ Obligations.CaptureRestoreRoundTrip := by
  unfold Obligations.CaptureRestoreRoundTrip
  intro h
  have hsame : (numberedOne.restoreC 0 (numberedOneUsed.captureC 0)).captureC 0 = numberedOneUsed.captureC 0 :=
    h numberedOneUsed numberedOne 0 (by decide +kernel) (by decide +kernel) (by decide +kernel) (by decide +kernel) (by decide +kernel)
  have hbyte := captureC_restoreC_numberedOne_register
  rw [hsame] at hbyte
  cases captureC_numberedOneUsed_register.symm.trans hbyte

end Sys2Proof.Proofs
end

section
/-!
PROOFS. The place of the next entry of a device queue after a posting, and the statement LoadingImages (R424, R426, R431).
-/
namespace Sys2Proof.Machine
open Sys2Proof.Claims

/-! ### A posting moves the queue's pointer (R426) -/

@[simp] theorem State.msixSend_regs (s : State) (fn v : Nat) : (s.msixSend fn v).regs = s.regs := by
  rw [State.msixSend]
  split <;> rfl

@[simp] theorem State.batch_regs (s : State) (fn v : Nat) : (s.batch fn v).regs = s.regs := by
  rw [State.batch]
  split
  · exact State.msixSend_regs s fn v
  · rfl

/-- The pointer goes to the next entry, as far as the twelve bits of WHF_QCFG.dptr hold it. -/
theorem State.dptr_qwrite (s : State) (fn kind : Nat) (e : Entry) :
    (s.qwrite fn kind e).rg Reg.WHF_QCFG_dptr (qid fn kind) =
      (s.rg Reg.WHF_QCFG_dptr (qid fn kind) + 1) % s.qlen (qid fn kind) % 2 ^ 12 := by
  have hregs : (s.qwrite fn kind e).regs = (s.setRg Reg.WHF_QCFG_dptr (qid fn kind)
      ((s.rg Reg.WHF_QCFG_dptr (qid fn kind) + 1) % s.qlen (qid fn kind))).regs := by
    rw [State.qwrite]
    split
    · rw [State.msixSend_regs, State.batch_regs]
      rfl
    · rw [State.batch_regs]
      rfl
  rw [State.rg, hregs]
  exact State.rg_setRg_same s ..

/-- A completion that its queue takes at once moves the completion queue's pointer. -/
theorem State.dptr_finish {s : State} {t : Nat} (cmd : BitVec 16) (status r0 r1 : Nat) (hopen : s.qopen t 1 = true)
    (hheld : (s.queue (qid t 1)).held = []) :
    (s.finish t cmd status r0 r1).rg Reg.WHF_QCFG_dptr (qid t 1) =
      (s.rg Reg.WHF_QCFG_dptr (qid t 1) + 1) % s.qlen (qid t 1) % 2 ^ 12 := by
  rw [State.finish, State.complete, State.post, if_pos ⟨hopen, hheld⟩, State.dptr_qwrite]

/-- Completes asks that the pointer reach the next place of the queue, so that place must fit the field. -/
theorem place_lt_of_completes {s u : State} {t : Nat} {cmd : BitVec 16} {status r0 : Nat} (h : Completes s u t cmd status r0)
    (hu : u.regs = (s.finish t cmd status r0).regs) (hopen : s.qopen t 1 = true) (hheld : (s.queue (qid t 1)).held = []) :
    (s.rg Reg.WHF_QCFG_dptr (qid t 1) + 1) % s.qlen (qid t 1) < 2 ^ 12 := by
  have hplace : u.rg Reg.WHF_QCFG_dptr (qid t 1) = (s.rg Reg.WHF_QCFG_dptr (qid t 1) + 1) % s.qlen (qid t 1) :=
    (h.now hopen hheld).dptr
  have hfield := State.dptr_finish cmd status r0 0 hopen hheld
  rw [State.rg, ← hu, ← State.rg, hplace] at hfield
  rw [hfield]
  exact Nat.mod_lt _ (by decide)

/-! ### LOAD in a mode that does not take it (R431, R505) -/

/-- The state in which the statement has the completion of a refused LOAD posted: the entry taken, the status kept. -/
def State.loadRefused (s : State) (t : Nat) : State := (begunCmd s t).setRg Reg.WHF_TSTAT_load_status t 0x10

/-- LOAD in Link test, with nothing fetched and none of the tenant's commands in execution, ends with status 0x10. -/
theorem exec_load_of_linkTest {s : State} {t : Fin 16} (cmd : BitVec 16) (length : Nat) (l : List Byte) (fails : Bool)
    (hmode : s.mode = 2) (hopen : (s.part t.val).openCmds = []) (hawake : (s.fn t.val).d3hot = false)
    (hfetched : s.fetched.get t.val [] = []) :
    exec (.load t cmd length l fails) s = done s ((s.loadRefused t.val).finish t.val cmd 0x10) := by
  have hagrees : s.agrees t.val cmd 1 (fun e => decide (e.length = length)) = true := by simp [State.agrees, hfetched]
  change execLoad t cmd length l fails s = _
  have hmode' : (begunCmd s t.val).mode ≠ 1 := by
    change s.mode ≠ 1
    omega
  rw [execLoad, if_neg (by simp [hopen, hmode, hawake, hagrees]), if_pos (Or.inl hmode')]
  rfl

/-- What the statement says of that LOAD bounds the next place of the completion queue by the field. -/
theorem place_lt_of_refused_load {s u : State} {t : Fin 16} {cmd : BitVec 16} {length : Nat} {l : List Byte} {fails : Bool}
    (hmode : s.mode = 2) (hopen : (s.part t.val).openCmds = []) (hawake : (s.fn t.val).d3hot = false)
    (hfetched : s.fetched.get t.val [] = []) (hstep : exec (.load t cmd length l fails) s = .next u)
    (hposted : Completes (s.loadRefused t.val) u t.val cmd 0x10 0) (hqueue : (s.loadRefused t.val).qopen t.val 1 = true)
    (hheld : ((s.loadRefused t.val).queue (qid t.val 1)).held = []) :
    ((s.loadRefused t.val).rg Reg.WHF_QCFG_dptr (qid t.val 1) + 1) % (s.loadRefused t.val).qlen (qid t.val 1) < 2 ^ 12 := by
  rw [exec_load_of_linkTest cmd length l fails hmode hopen hawake hfetched] at hstep
  cases hstep
  exact place_lt_of_completes hposted rfl hqueue hheld

end Sys2Proof.Machine

namespace Sys2Proof.Proofs
open Sys2Proof.Machine Sys2Proof.Claims

/-! ### A completion queue of 8,192 entries -/

/-- Link test. The completion queue of tenant 0 has 2^13 entries, a size that R424 rules out but that the field WHF_QCFG.size_log2 holds;
the next entry goes to place 4,095, and the host has consumed none. -/
def longQueue : State :=
  let fields := [(Reg.PWR_MODE_mode, 0, 2), (Reg.WHF_QCFG_enable, 1, 1), (Reg.WHF_QCFG_size_log2, 1, 13), (Reg.WHF_QCFG_dptr, 1, 4095)]
  fields.foldl (fun s e => s.setRg e.1 e.2.1 e.2.2) State.reset

theorem longQueue_mode : longQueue.mode = 2 := by decide +kernel
theorem longQueue_refused_open : (longQueue.loadRefused 0).qopen 0 1 = true := by decide +kernel
theorem longQueue_refused_held : ((longQueue.loadRefused 0).queue (qid 0 1)).held = [] := by decide +kernel
theorem longQueue_refused_next :
    ((longQueue.loadRefused 0).rg Reg.WHF_QCFG_dptr (qid 0 1) + 1) % (longQueue.loadRefused 0).qlen (qid 0 1) = 4096 := by
  decide +kernel

/-- Refutes O55: the statement leaves the size of the completion queue open, and where it is 2^13 the place after 4,095 does not fit the
twelve bits of WHF_QCFG.dptr: the completion 0x10 of a LOAD in Link test leaves 0 there, not 4,096. -/
theorem not_loadingImages : ¬ Obligations.LoadingImages := by
  unfold Obligations.LoadingImages
  intro h
  obtain ⟨-, -, hrefused, -⟩ := h longQueue 0 0 0 [] false
  have hopen : (longQueue.part (0 : Fin 16).val).openCmds = [] := by decide +kernel
  have hfetched : longQueue.fetched.get (0 : Fin 16).val [] = [] := by decide +kernel
  have hsays : EntrySays longQueue (0 : Fin 16).val 0 1 [(0x10, 8, 0)] := by decide +kernel
  have hawake : (longQueue.fn (0 : Fin 16).val).d3hot = false := by decide +kernel
  obtain ⟨u, hstep, hposted⟩ := hrefused ⟨hopen, hsays, hawake⟩ (Or.inl longQueue_mode)
  have hfits := place_lt_of_refused_load longQueue_mode hopen hawake hfetched hstep hposted longQueue_refused_open longQueue_refused_held
  exact absurd (longQueue_refused_next.symm.trans_lt hfits) (by decide)

end Sys2Proof.Proofs
end

section
/-!
PROOFS. Reaches, lines of the home directories and lines of HBM: what the shared operations of design memory change, and what they leave
(R154, R169, R170).
-/
namespace Sys2Proof.Machine
open Sys2Proof.Claims

/-! ### Units and directory lines -/

theorem State.rch_modRch_other (s : State) {r q : Nat} (f : Reach → Reach) (h : q ≠ r) : (s.modRch r f).rch q = s.rch q :=
  State.rch_setRch_other s _ h

@[simp] theorem State.setRch_setRch_same (s : State) (r : Nat) (x y : Reach) : (s.setRch r x).setRch r y = s.setRch r y := by
  simp [State.setRch, Tbl.put_put_same]


@[simp] theorem State.dirLine_setDir_same (s : State) (line : Nat) (d : DirLine) : (s.setDir line d).dirLine line = d :=
  Tbl.get_put_same ..

@[simp] theorem State.rch_hbmPut (s : State) (a : Nat) (l : List Byte) (r : Nat) : (s.hbmPut a l).rch r = s.rch r := rfl

theorem rchIs_setRch (s : State) (r : Nat) (x : Reach) : RchIs s (s.setRch r x) r x :=
  ⟨State.rch_setRch_same .., fun _ h => State.rch_setRch_other _ _ h⟩

theorem partIs_setPart (s : State) (t : Nat) (x : Part) : PartIs s (s.setPart t x) t x :=
  ⟨State.part_setPart_same .., fun _ h => State.part_setPart_other _ _ h⟩

theorem cluIs_setClu (s : State) (c : Nat) (x : Cluster) : CluIs s (s.setClu c x) c x :=
  ⟨State.clu_setClu_same .., fun _ h => State.clu_setClu_other _ _ h⟩

theorem dirIs_setDir (s : State) (line : Nat) (d : DirLine) : DirIs s (s.setDir line d) line d :=
  ⟨State.dirLine_setDir_same .., fun _ h => Tbl.get_put_other _ _ _ h⟩

theorem Tbl.del_del_same {α : Type} (t : Tbl α) (k : Nat) : (t.del k).del k = t.del k :=
  Tbl.del_of_lost fun e he => by
    rw [Tbl.del_eq_filter] at he
    simpa using (List.mem_filter.1 he).2

/-- What holds before a run over units and survives each unit's turn holds after it. -/
theorem each_induction {σ : Type} {P : σ → Prop} {f : Nat → σ → σ} {l : List Nat} {s : σ} (h : P s)
    (hf : ∀ i ∈ l, ∀ s, P s → P (f i s)) : P (each l f s) := by
  induction l generalizing s with
  | nil => exact h
  | cons i l ih => exact ih (hf i (by simp) s h) fun j hj => hf j (by simp [hj])

/-! ### Lines of HBM -/

theorem leBytes_halfword (h : BitVec 16) : leBytes 2 h.toNat = [h.setWidth 8, (h >>> 8).setWidth 8] := by
  have hlow : BitVec.ofNat 8 h.toNat = h.setWidth 8 := BitVec.eq_of_toNat_eq (by simp)
  have hhigh : BitVec.ofNat 8 (h.toNat / 256) = (h >>> 8).setWidth 8 :=
    BitVec.eq_of_toNat_eq (by simp [Nat.shiftRight_eq_div_pow])
  simp only [leBytes, hlow, hhigh]

theorem State.flipLine_of_unarmed {s : State} (h : s.on Reg.TST_FLIP_arm = false) (cls inst addr : Nat) (l : List (BitVec 16)) :
    s.flipLine cls inst addr l = (l, s) := by
  cases l <;> simp [State.flipLine, State.flip_of_unarmed h]

/-- With no flip armed, a line goes to HBM as it is. -/
theorem State.putLine_of_unarmed {s : State} (h : s.on Reg.TST_FLIP_arm = false) (line : Nat) (l : List (BitVec 16)) :
    s.putLine line l = s.hbmPut (line * 64) (lineBytes l) := by
  simp only [State.putLine, State.flipLine_of_unarmed h, leBytes_halfword, lineBytes]

theorem Reports.flip (s : State) (cls inst addr w x : Nat) : Reports s (s.flip cls inst addr w x).2 := by
  rw [State.flip]
  split
  · exact ((Reports.setRg s 0 0 (by decide)).trans (.setRg _ 0 1 (by decide))).trans (.setTst _ _)
  · exact .refl s

theorem Reports.putLine (s : State) (line : Nat) (l : List (BitVec 16)) : Reports s (s.putLine line l) := by
  cases l with
  | nil => exact .hbmPut s ..
  | cons h l => exact (Reports.flip s ..).trans (.hbmPut _ ..)

section
variable {s t : State} (h : Reports s t)
include h

theorem Reports.reaches : t.reaches = s.reaches := by
  have hframe := congrArg State.reaches h.frame
  exact hframe

theorem Reports.rch (r : Nat) : t.rch r = s.rch r := by rw [State.rch, h.reaches, State.rch]

theorem Reports.part (t' : Nat) : t.part t' = s.part t' := by rw [State.part, h.parts, State.part]

theorem Reports.owner {r : Nat} (hr : r < 24) : t.owner r = s.owner r := by
  have hbound : t.on Reg.RCH_OWNER_bound r = s.on Reg.RCH_OWNER_bound r := h.on (fieldKey_lt_reportKeys (by decide) (by omega))
  have htenant : t.rg Reg.RCH_OWNER_tenant r = s.rg Reg.RCH_OWNER_tenant r := h.rg (fieldKey_lt_reportKeys (by decide) (by omega))
  rw [State.owner, hbound, htenant, State.owner]

theorem Reports.rel {r : Nat} (hr : r < 24) : t.rel r = s.rel r := h.rg (fieldKey_lt_reportKeys (by decide) (by omega))

end

/-! ### Requests for lines -/

/-- A request for a line that no request stands for enters with its stamp. -/
theorem State.rch_miss_of_new {s : State} {r line : Nat} (h : (s.rch r).requests.find line = none) (stamp : Nat) (own : Bool) :
    (s.miss r line stamp own).rch r = { s.rch r with requests := (s.rch r).requests.put line (stamp, own, false) } := by
  simp only [State.miss, h]
  split
  · exact State.rch_setRch_same ..
  · exact State.rch_setRch_same s ..

/-- The one write that a reach buffers asks again for its line. -/
theorem State.rerequestLine_of_buffered {s : State} {r line t : Nat} {e : WbEntry} (howner : s.owner r = some t)
    (hwb : (s.rch r).wb = [e]) (hline : ((s.part t).wordAt e.region e.addr).line = line) :
    s.rerequestLine r line = s.miss r line (e.stamp (s.rel r)) true := by
  simp [State.rerequestLine, howner, State.rerequest, hwb, hline]

section
variable {s : State} {r : Nat} (h : (s.rch r).wb = [])
include h

/-- A reach that buffers no write asks for no line again. -/
theorem State.rerequest_of_drained (t line : Nat) : s.rerequest t r line = s := by
  simp [State.rerequest, h]

theorem State.rerequestLine_of_drained (line : Nat) : s.rerequestLine r line = s := by
  rw [State.rerequestLine]
  split
  · exact State.rerequest_of_drained h _ line
  · rfl

theorem State.drainSeen_of_drained (t : Nat) : s.drainSeen t r = s.setRch r (s.rch r) := by
  have hreach : { s.rch r with wb := [] } = s.rch r := by rw [← h]
  simp only [State.drainSeen, h, State.modRch, List.foldl_nil, hreach]

end

end Sys2Proof.Machine
end

section
/-!
PROOFS. The home directory and the messages of its protocol (R170, R171, R173), and the statement HomeDirectoryAndLines.
-/
namespace Sys2Proof.Machine
open Sys2Proof.Claims

/-! ### Clean copies that a home invalidates -/

theorem State.each_dropCopy_frame (s : State) (line : Nat) (l : List Nat) :
    { each l (State.dropCopy line) s with reaches := s.reaches } = s :=
  each_induction (P := fun t : State => { t with reaches := s.reaches } = s) rfl fun _ _ _ h => h

theorem State.rch_each_dropCopy (s : State) (line : Nat) (l : List Nat) (q : Nat) : (each l (State.dropCopy line) s).rch q =
    if q ∈ l then { s.rch q with cache := (s.rch q).cache.del line } else s.rch q := by
  induction l generalizing s with
  | nil => rfl
  | cons r l ih =>
    rw [each, List.foldl_cons, ← each, ih]
    by_cases hq : q = r
    · subst hq
      simp [State.dropCopy, Tbl.del_del_same]
    · simp [State.dropCopy, State.rch_modRch_other _ _ hq, hq]

/-! ### GetS and GetM (R170, R171) -/

/-- The sharers that a request of reach r invalidates. -/
def DirLine.invalidated (d : DirLine) (r : Nat) (own : Bool) : List Nat :=
  if own = true ∧ d.st ≠ .invalid then d.sharers.filter (· ≠ r) else []

theorem DirLine.mem_invalidated {d : DirLine} {r q : Nat} {own : Bool} :
    q ∈ d.invalidated r own ↔ own = true ∧ d.st ≠ .invalid ∧ q ≠ r ∧ q ∈ d.sharers := by
  rw [DirLine.invalidated]
  split
  · next h => simp [h, and_comm]
  · next h => simpa using fun hown hst => absurd ⟨hown, hst⟩ h

section
variable {s : State} {r line stamp : Nat} (h : Requested s r line stamp) (own : Bool)
include h

theorem State.homeRequest_of_waiting (hbusy : (s.dirLine line).busy.isSome ∨ s.lineHeld line = true) :
    s.homeRequest r line stamp own = s.setDir line ((s.dirLine line).enqueue r stamp own) := by
  obtain ⟨⟨own', hrequest⟩, hshared, hfence⟩ := h
  simp [State.homeRequest, hrequest, hshared, hfence, hbusy]

/-- The home's answer, by the state of the line. -/
theorem State.homeRequest_of_free (hfree : ¬((s.dirLine line).busy.isSome ∨ s.lineHeld line = true)) :
    s.homeRequest r line stamp own = (each ((s.dirLine line).invalidated r own) (State.dropCopy line) s).setDir line
      (homeAnswer (s.hbmLine line) (s.coherentLine line) (s.dirLine line) r (s.holdsDirty r line) own) := by
  obtain ⟨⟨own', hrequest⟩, hshared, hfence⟩ := h
  simp only [State.homeRequest, hrequest, hshared, hfence, hfree, homeAnswer, DirLine.invalidated]
  cases hst : (s.dirLine line).st <;> cases own
  case owned.true | modified.true =>
    by_cases howner : (s.dirLine line).owner = r ∧ s.holdsDirty r line = true <;> simp [howner]
  all_goals simp [each]

end

theorem exec_homeRequest (s : State) (r : Fin 24) (line stamp : Nat) (own : Bool) :
    exec (if own then .getm r line stamp else .gets r line stamp) s = done s (s.homeRequest r.val line stamp own) := by
  cases own <;> rfl

/-! ### PutM and WB-Ack (R170, R173) -/

/-- A reach that sends a dirty line home: the line leaves the cache and awaits WB-Ack. -/
def Reach.sendHome (x : Reach) (line : Nat) (l : CacheLine) : Reach :=
  { x with cache := x.cache.del line, writeback := x.writeback.put line { l with dirty := false } }

/-- The state once reach r has sent a dirty line home and asked for it again where it still buffers a write for it. -/
def State.sentHome (s : State) (r line : Nat) (l : CacheLine) : State :=
  ((s.setRch r ((s.rch r).sendHome line l)).putLine line l.cells).rerequestLine r line

/-- The home completes a writeback: it answers a forward with the line, and else leaves the line to those that share it, or to the reach
that it has been granted to again. -/
def State.homePutm (s : State) (r line : Nat) (l : CacheLine) (d : DirLine) : State :=
  if d.fwd then s.setDir line (d.grant l.cells true)
  else if d.owner = r ∧ d.st = .modified ∧ (s.holdsDirty r line ∨ (d.busy = some r ∧ d.data ≠ none)) then s
  else s.setDir line { d with st := if d.sharers = [] then .invalid else .shared }

theorem State.homePutm_frame (s : State) (r line : Nat) (l : CacheLine) (d : DirLine) :
    { s.homePutm r line l d with dir := s.dir } = s := by
  rw [State.homePutm]
  split
  · rfl
  · split <;> rfl

theorem State.rch_homePutm (s : State) (r line : Nat) (l : CacheLine) (d : DirLine) (q : Nat) :
    (s.homePutm r line l d).rch q = s.rch q := by
  have hreaches := congrArg State.reaches (s.homePutm_frame r line l d)
  exact congrArg (fun t : Tbl Reach => t.get q {}) hreaches

section
variable {s : State} {r line : Nat} {l : CacheLine}

/-- A line that has gone home stays granted only to a reach that it has been granted to again. -/
theorem State.homePutm_of_gone {d : DirLine} (hfwd : d.fwd = false) (hgone : s.holdsDirty r line = false) :
    s.homePutm r line l d = if d.owner = r ∧ d.st = .modified ∧ d.busy = some r ∧ d.data ≠ none then s
      else s.setDir line { d with st := if d.sharers = [] then .invalid else .shared } := by
  simp [State.homePutm, hfwd, hgone]

theorem State.putm_of_cached (hcache : (s.rch r).cache.find line = some l) (hdirty : l.dirty = true)
    (hback : (s.rch r).writeback.find line = none) (hshared : s.bypasses line = false) :
    s.putm r line = (s.sentHome r line l).homePutm r line l (s.dirLine line) := by
  simp only [State.putm, hcache, hdirty, hback, hshared]
  rfl

/-- A write that still waits for the line asks for it again. -/
theorem State.rch_sentHome_of_buffered {p : Nat} {e : WbEntry} (hr : r < 24) (howner : s.owner r = some p) (hwb : (s.rch r).wb = [e])
    (hline : ((s.part p).wordAt e.region e.addr).line = line) (hnew : (s.rch r).requests.find line = none) :
    ((s.sentHome r line l).rch r).requests.find line = some (e.stamp (s.rel r), true, false) ∧
      ((s.sentHome r line l).rch r).wb = (s.rch r).wb := by
  have hput := Reports.putLine (s.setRch r ((s.rch r).sendHome line l)) line l.cells
  have hrch : ((s.setRch r ((s.rch r).sendHome line l)).putLine line l.cells).rch r = (s.rch r).sendHome line l :=
    (hput.rch r).trans (State.rch_setRch_same ..)
  have hrequest : s.sentHome r line l =
      ((s.setRch r ((s.rch r).sendHome line l)).putLine line l.cells).miss r line (e.stamp (s.rel r)) true := by
    have hrel : ((s.setRch r ((s.rch r).sendHome line l)).putLine line l.cells).rel r = s.rel r := hput.rel hr
    rw [← hrel]
    exact State.rerequestLine_of_buffered ((hput.owner hr).trans howner) (by rw [hrch]; exact hwb) (by rw [hput.part]; exact hline)
  rw [hrequest, State.rch_miss_of_new (by rw [hrch]; exact hnew), hrch]
  exact ⟨Tbl.find_put_same .., rfl⟩

section
variable (hwb : (s.rch r).wb = []) (hflip : s.on Reg.TST_FLIP_arm = false)
include hwb hflip

/-- With no write buffered and no flip armed, the reach and HBM alone change. -/
theorem State.sentHome_of_drained :
    s.sentHome r line l = (s.setRch r ((s.rch r).sendHome line l)).hbmPut (line * 64) (lineBytes l.cells) := by
  have hput := State.putLine_of_unarmed (s := s.setRch r ((s.rch r).sendHome line l)) hflip line l.cells
  rw [State.sentHome, hput]
  refine State.rerequestLine_of_drained ?_ line
  rw [State.rch_hbmPut, State.rch_setRch_same]
  exact hwb

theorem State.holdsDirty_sentHome : (s.sentHome r line l).holdsDirty r line = false := by
  simp [State.holdsDirty, State.sentHome_of_drained hwb hflip, Reach.sendHome, Tbl.find_del_same]

end

/-- WB-Ack frees the writeback entry. -/
theorem exec_wbAck {r : Fin 24} (hback : (s.rch r.val).writeback.find line = some l) (hclean : l.dirty = false) :
    exec (.wbAck r line) s = .next (s.setRch r.val { s.rch r.val with writeback := (s.rch r.val).writeback.del line }) := by
  change execWbAck r line s = _
  simp only [execWbAck, hback, hclean]
  exact done_of_pending rfl

end

/-! ### Forwards and line data (R167, R170) -/

section
variable {s : State} {r line t : Nat} (howner : s.owner r = some t) (hwb : (s.rch r).wb = [])
include howner hwb

/-- An owner with no write buffered answers a forward at once. -/
theorem State.forwarded_of_drained {l : CacheLine} {q : Nat} (hbusy : (s.dirLine line).busy = some q)
    (hcache : (s.rch r).cache.find line = some l) (hfwd : (s.dirLine line).fwd = true) (hown : (s.dirLine line).owner = r)
    (hdirty : l.dirty = true) :
    s.forwarded r line = (s.setRch r (if (s.dirLine line).forOwn then { s.rch r with cache := (s.rch r).cache.del line }
      else { s.rch r with cache := (s.rch r).cache.put line { l with shared := true } })).setDir line
        ((s.dirLine line).grant l.cells false) := by
  obtain ⟨cells, dirty, shared⟩ := l
  cases hdirty
  have hkept {u : State} {d : DirLine} (hu : (u.rch r).wb = []) : (u.setDir line d).rerequest t r line = u.setDir line d :=
    State.rerequest_of_drained (s := u.setDir line d) hu t line
  cases hfor : (s.dirLine line).forOwn
  · simp [State.forwarded, howner, hbusy, hcache, hfwd, hown, hwb, hfor, hkept, State.modRch]
  · simp [State.forwarded, howner, hbusy, hcache, hfwd, hown, hwb, hfor, hkept, State.dropCopy, State.modRch]

/-- The reach with a line that it asked for. -/
def Reach.takeLine (x : Reach) (line : Nat) (cells : List (BitVec 16)) (own : Bool) : Reach :=
  { x with cache := x.cache.put line { cells := cells, dirty := own }, requests := x.requests.del line }

omit howner in
/-- A set with a way free takes the line in, and where no write waits nothing else happens. -/
theorem State.fill_of_drained (cells : List (BitVec 16)) (own : Bool)
    (hroom : ((s.rch r).cache.filter fun e => e.1 % 256 = line % 256 ∧ e.1 ≠ line).length < 12 - (s.rch r).waysOff.length)
    (hflip : s.on Reg.TST_FLIP_arm = false) : s.fill t r line cells own = s.setRch r ((s.rch r).takeLine line cells own) := by
  have hevict : s.evictFor r line = s := by simp only [State.evictFor, hroom, if_true]
  have hdrain : (s.setRch r ((s.rch r).takeLine line cells own)).drainSeen t r =
      s.setRch r ((s.rch r).takeLine line cells own) := by
    rw [State.drainSeen_of_drained (by rw [State.rch_setRch_same]; exact hwb), State.setRch_setRch_same, State.rch_setRch_same]
  have hask : (s.setRch r ((s.rch r).takeLine line cells own)).rerequest t r line =
      s.setRch r ((s.rch r).takeLine line cells own) :=
    State.rerequest_of_drained (by rw [State.rch_setRch_same]; exact hwb) t line
  have hfill : s.fill t r line cells own = if own then (s.setRch r ((s.rch r).takeLine line cells own)).drainSeen t r
      else ((s.setRch r ((s.rch r).takeLine line cells own)).drainSeen t r).rerequest t r line := by
    rw [State.fill, hevict, State.flipLine_of_unarmed hflip]
    rfl
  rw [hfill, hdrain, hask, ite_self]

theorem State.lineData_of_drained {q : Nat × Bool × Bool} {l : List (BitVec 16)} (hrequest : (s.rch r).requests.find line = some q)
    (hshared : s.bypasses line = false) (hdata : (s.dirLine line).data = some l) (hbusy : (s.dirLine line).busy = some r)
    (hroom : ((s.rch r).cache.filter fun e => e.1 % 256 = line % 256 ∧ e.1 ≠ line).length < 12 - (s.rch r).waysOff.length)
    (hflip : s.on Reg.TST_FLIP_arm = false) :
    s.lineData r line = (s.setDir line { s.dirLine line with data := none }).setRch r
      ((s.rch r).takeLine line l (s.dirLine line).forOwn) := by
  have hfill : s.lineData r line =
      (s.setDir line { s.dirLine line with data := none }).fill t r line l (s.dirLine line).forOwn := by
    simp only [State.lineData, howner, hrequest, hshared, hdata, hbusy, if_true, Bool.false_eq_true, if_false]
  rw [hfill]
  exact State.fill_of_drained (s := s.setDir line { s.dirLine line with data := none }) hwb _ _ hroom hflip

end

/-! ### Retry, Wake, and the end of a transaction (R171, R172) -/

theorem exec_retry {s : State} {r : Fin 24} {line stamp : Nat} {own : Bool}
    (hrequest : (s.rch r.val).requests.find line = some (stamp, own, false))
    (hqueue : (s.dirLine line).queue.any (fun q => decide (q.1 = r.val)) = true) :
    exec (.retry r line) s = .next ((s.setRch r.val { s.rch r.val with
      requests := (s.rch r.val).requests.put line (stamp, own, true) }).count Reg.DMEM_R_RETRY_retries r.val 1) := by
  change execRetry r line s = _
  simp only [execRetry, hrequest, hqueue, and_self, if_true]
  exact done_of_pending rfl

theorem exec_wakeMessage {s : State} {r : Fin 24} {line stamp : Nat} {own b : Bool}
    (hrequest : (s.rch r.val).requests.find line = some (stamp, own, b)) (hwoken : (s.dirLine line).woken.contains r.val = true) :
    exec (.wakeMessage r line) s = .next ((s.setDir line { s.dirLine line with
      woken := (s.dirLine line).woken.filter (· ≠ r.val) }).setRch r.val { s.rch r.val with
        requests := (s.rch r.val).requests.put line (stamp, own, false) }) := by
  change execWakeMessage r line s = _
  simp only [execWakeMessage, hrequest, hwoken]
  exact done_of_pending rfl

theorem exec_transactionEnd {s : State} {line q : Nat} (hbusy : (s.dirLine line).busy = some q) (hdata : (s.dirLine line).data = none)
    (hfwd : (s.dirLine line).fwd = false) : exec (.transactionEnd line) s =
      .next (s.setDir line ({ s.dirLine line with busy := none, forOwn := false } : DirLine).wakeNext) := by
  change execTransactionEnd line s = _
  simp only [execTransactionEnd, hbusy, hdata, hfwd, Option.isSome_some, and_self, if_true]
  exact done_of_pending rfl

/-- Where no waiter is 24 steps older than another, the first is served first. -/
theorem nextWaiter_of_close {q : List (Nat × Nat × Bool)} (h : ∀ b ∈ q, ∀ c ∈ q, stampStep b.2.1 < stampStep c.2.1 + 24) :
    nextWaiter q = q.head? := by
  have hnone : (q.find? fun a => q.any fun b => stampStep a.2.1 + 24 ≤ stampStep b.2.1) = none := by
    refine List.find?_eq_none.2 fun a ha hany => ?_
    obtain ⟨b, hb, hfar⟩ := List.any_eq_true.1 hany
    exact absurd (of_decide_eq_true hfar) (Nat.not_le.2 (h b hb a ha))
  rw [nextWaiter, hnone]

theorem DirLine.wakeNext_of_close {d : DirLine} {a : Nat × Nat × Bool} {l : List (Nat × Nat × Bool)} (hqueue : d.queue = a :: l)
    (h : ∀ b ∈ d.queue, ∀ c ∈ d.queue, stampStep b.2.1 < stampStep c.2.1 + 24) (ha : a ∉ l) :
    d.wakeNext = { d with queue := l, woken := d.woken ++ [a.1] } := by
  have hrest : (a :: l).filter (· ≠ a) = l := by
    rw [List.filter_cons_of_neg (by simp), List.filter_eq_self]
    exact fun b hb => decide_eq_true fun heq => ha (heq ▸ hb)
  rw [DirLine.wakeNext, nextWaiter_of_close h, hqueue]
  simp only [List.head?_cons, hrest]

theorem DirLine.wakeNext_of_empty {d : DirLine} (hqueue : d.queue = []) : d.wakeNext = d := by
  rw [DirLine.wakeNext, hqueue]
  rfl

end Sys2Proof.Machine

namespace Sys2Proof.Proofs
open Sys2Proof.Machine Sys2Proof.Claims

/-- Settles O16: each message by the state that its command ends in, the home's answers by the state of the line. -/
theorem homeDirectoryAndLines : Obligations.HomeDirectoryAndLines := by
  unfold Obligations.HomeDirectoryAndLines
  refine ⟨fun s r line stamp own hreq => ?request, fun s r line => ⟨?again, ?putm, fun l => exec_wbAck, ?forward,
    fun stamp own => exec_retry, fun stamp own b => exec_wakeMessage, ?data, fun q hbusy hdata hfwd => ⟨?alone, ?woken⟩⟩⟩
  case request =>
    rw [exec_homeRequest]
    by_cases hwait : (s.dirLine line).busy.isSome ∨ s.lineHeld line = true
    · simp only [hwait, if_true, State.homeRequest_of_waiting hreq own hwait]
      exact ⟨_, rfl, rfl, rfl, dirIs_setDir ..⟩
    · simp only [hwait, if_false, State.homeRequest_of_free hreq own hwait]
      have hframe := s.each_dropCopy_frame line ((s.dirLine line).invalidated r.val own)
      have hdir := congrArg State.dir hframe
      refine ⟨_, rfl, congrArg (fun t : State => { t with pending := s.pending, dir := s.dir }) hframe,
        ⟨State.dirLine_setDir_same .., fun k hk => ?_⟩, fun q => ?_⟩
      · refine (Tbl.get_put_other _ _ _ hk).trans ?_
        exact congrArg (fun t : Tbl DirLine => t.get k {}) hdir
      · refine (s.rch_each_dropCopy line _ q).trans ?_
        simp only [DirLine.mem_invalidated]
  case again =>
    intro p e l howner hwb hline hnew hcache hdirty hback hshared
    have hputm := State.putm_of_cached hcache hdirty hback hshared
    have hrch : (s.putm r.val line).rch r.val = (s.sentHome r.val line l).rch r.val := by rw [hputm, State.rch_homePutm]
    obtain ⟨hrequest, hkept⟩ := State.rch_sentHome_of_buffered (l := l) r.isLt howner hwb hline hnew
    refine ⟨_, rfl, ?_, ?_⟩
    · exact (congrArg (fun x : Reach => x.requests.find line) hrch).trans hrequest
    · exact (congrArg Reach.wb hrch).trans hkept
  case putm =>
    intro l hcache hdirty hback hshared hfwd hflip hwb
    have hputm := (State.putm_of_cached hcache hdirty hback hshared).trans
      (State.homePutm_of_gone hfwd (State.holdsDirty_sentHome hwb hflip))
    rw [State.sentHome_of_drained hwb hflip] at hputm
    change ∃ t, done s (s.putm r.val line) = .next t ∧ _
    rw [hputm]
    split
    · exact ⟨_, rfl, rfl, rfl, rchIs_setRch .., rfl, fun _ _ => rfl⟩
    · exact ⟨_, rfl, rfl, rfl, rchIs_setRch .., dirIs_setDir ..⟩
  case forward =>
    intro t l q howner hbusy hcache hfwd hown hdirty hwb
    change ∃ u, done s (s.forwarded r.val line) = .next u ∧ _
    rw [State.forwarded_of_drained howner hwb hbusy hcache hfwd hown hdirty]
    refine ⟨_, rfl, rfl, rfl, ⟨(State.dirLine_setDir_same ..).trans ?_, fun k hk => Tbl.get_put_other _ _ _ hk⟩, rchIs_setRch ..⟩
    simp only [DirLine.grant, hbusy, Bool.false_eq_true, if_false]
  case data =>
    intro t l q howner hrequest hshared hdata hbusy hwb hroom hflip
    change ∃ u, done s (s.lineData r.val line) = .next u ∧ _
    rw [State.lineData_of_drained howner hwb hrequest hshared hdata hbusy hroom hflip]
    exact ⟨_, rfl, rfl, rfl, dirIs_setDir .., rchIs_setRch ..⟩
  case alone => exact fun hqueue => by rw [exec_transactionEnd hbusy hdata hfwd, DirLine.wakeNext_of_empty (by exact hqueue)]
  case woken =>
    exact fun a l hqueue hclose ha => by
      rw [exec_transactionEnd hbusy hdata hfwd, DirLine.wakeNext_of_close (by exact hqueue) (by exact hclose) ha]

end Sys2Proof.Proofs
end

section
/-!
PROOFS. Arrival of design-memory reads, step markers and the closes of fences (R159, R160, R165 to R167), and the statement
ReadsAndFences.
-/
namespace Sys2Proof.Machine
open Sys2Proof.Claims

/-! ### A read arrives (R159, R160) -/

/-- The reach with a page in its translation buffer. -/
def Reach.holdPage (x : Reach) (page : Nat) : Reach :=
  { x with tlb := if x.tlb.contains page then x.tlb else (page :: x.tlb).take 256 }

theorem State.translated_eq_setRch (s : State) (r id addr : Nat) :
    s.translated r id addr = s.setRch r ((s.rch r).holdPage (id * 8192 + addr / 2048)) := rfl

section
variable {s : State} {c slot t : Nat} {x : DmemRead} (howner : s.owner (c / 17) = some t) (hreads : (s.clu c).reads = [x])
  (hslot : x.slot = slot) (hnew : x.arrived = false)
  (hhere : (s.rch (c / 17)).requests.find ((s.part t).wordAt x.region x.addr).line = none)
include howner hreads hslot hnew hhere

/-- Sound data whose translation can be had arrives in the unit of its reach. -/
theorem State.readReturn_of_sound {fault : Bool} (hparity : parityOk x.value = true)
    (hpage : fault = false ∨ (s.rch (c / 17)).tlb.contains (x.region * 8192 + x.addr / 2048) = true) :
    s.readReturn c slot fault = (s.setRch (c / 17) ((s.rch (c / 17)).holdPage (x.region * 8192 + x.addr / 2048))).setClu c
      { s.clu c with reads := [{ x with arrived := true }] } := by
  have hfault : ¬(fault = true ∧ (!(s.rch (c / 17)).tlb.contains (x.region * 8192 + x.addr / 2048)) = true) := by
    rcases hpage with hpage | hpage
    · exact fun h => Bool.noConfusion (hpage.symm.trans h.1)
    · exact fun h => absurd h.2 (by rw [hpage]; decide)
  have hfind : (s.clu c).reads.find? (fun x => decide (x.slot = slot ∧ x.arrived = false)) = some x := by
    simp [hreads, hslot, hnew]
  have hreturn : s.readReturn c slot fault = (s.translated (c / 17) x.region x.addr).readArrives c x := by
    simp only [State.readReturn, howner, hfind, hhere, hfault, hparity, Option.isSome_none, Bool.false_eq_true, if_false, if_true]
  have hmap : (s.clu c).reads.map (fun z => if z = x then { z with arrived := true } else z) = [{ x with arrived := true }] := by
    simp [hreads]
  rw [hreturn, ← hmap]
  rfl

/-- A translation entry that cannot be read stops the partition of the reach. -/
theorem State.readReturn_of_unreadable (hpage : (s.rch (c / 17)).tlb.contains (x.region * 8192 + x.addr / 2048) = false) :
    ∃ u, Reports s u ∧ s.readReturn c slot true =
      (u.cause (.reach (c / 17)) Reg.DMEM_R_CAUSE_xlate_fault (c / 17)).modPart t fun y => { y with stopped := true } := by
  have hfind : (s.clu c).reads.find? (fun x => decide (x.slot = slot ∧ x.arrived = false)) = some x := by
    simp [hreads, hslot, hnew]
  refine ⟨_, Reports.tally s true 0 6 (((s.part t).wordAt x.region x.addr).byte / 2 ^ 34)
    (((s.part t).wordAt x.region x.addr).byte % 2 ^ 34 / 4096), ?_⟩
  simp only [State.readReturn, howner, hfind, hhere, hpage, Option.isSome_none, Bool.false_eq_true, if_false, Bool.not_false,
    and_self, if_true]

end

/-! ### Step markers (R167) -/

/-- A home that has closed the fence of a step and needs its markers no more. -/
def Part.closeStep (x : Part) (home step : Nat) : Part :=
  { x with fenceClosed0 := if home = 0 then step + 1 else x.fenceClosed0,
           fenceClosed1 := if home = 0 then x.fenceClosed1 else step + 1,
           markers := x.markers.filter fun m => decide (m.1 ≠ home) }

theorem Part.closeFences_of_waiting {x : Part} {home : Nat}
    (h : (x.bound.all fun q => x.markers.contains (home, q, x.fenceClosed home)) = false) (n : Nat) : Part.closeFences n home x = x := by
  cases n with
  | zero => rfl
  | succ n => simp only [Part.closeFences, h, Bool.false_eq_true, and_false, if_false]

theorem Part.closeFences_of_complete {x : Part} {home : Nat} (hbound : x.bound ≠ []) (hstep : x.fenceClosed home < x.gstep)
    (h : (x.bound.all fun q => x.markers.contains (home, q, x.fenceClosed home)) = true) (n : Nat) :
    Part.closeFences (n + 1) home x = Part.closeFences n home (x.setClosed home (x.fenceClosed home + 1)) := by
  simp only [Part.closeFences, hbound, hstep, h, ne_eq, not_false_eq_true, and_self, if_true]

/-- Where a home holds markers of one step alone, closing its fence takes them all. -/
theorem Part.setClosed_of_single {x : Part} {home step : Nat} (h : ∀ m ∈ x.markers, m.1 = home → m.2.2 = step) :
    x.setClosed home (step + 1) = x.closeStep home step := by
  have hmarkers : x.markers.filter (fun m => !(decide (m.1 = home) && decide (m.2.2 < step + 1))) =
      x.markers.filter fun m => decide (m.1 ≠ home) := by
    refine List.filter_congr fun m hm => ?_
    by_cases hhome : m.1 = home
    · simp [hhome, h m hm hhome]
    · simp [hhome]
  by_cases hhome : home = 0
  · subst hhome
    exact congrArg (fun m => { x with fenceClosed0 := step + 1, markers := m }) hmarkers
  · simp only [Part.setClosed, Part.closeStep, hhome, if_false, hmarkers]

/-- The marker of the step in turn closes the fence at its home if every reach's has come, and waits else. -/
theorem Part.closeFences_of_marker {x : Part} {home r : Nat} (hbound : r ∈ x.bound) (hstep : x.fenceClosed home < x.gstep)
    (h : ∀ m ∈ x.markers, m.1 = home → m.2.2 = x.fenceClosed home) (n : Nat) :
    Part.closeFences (n + 1) home { x with markers := (home, r, x.fenceClosed home) :: x.markers } =
      if x.bound.all (fun q => decide (q = r) || x.markers.contains (home, q, x.fenceClosed home)) then
        x.closeStep home (x.fenceClosed home)
      else { x with markers := (home, r, x.fenceClosed home) :: x.markers } := by
  have hall : (x.bound.all fun q => ((home, r, x.fenceClosed home) :: x.markers).contains (home, q, x.fenceClosed home)) =
      x.bound.all fun q => decide (q = r) || x.markers.contains (home, q, x.fenceClosed home) := by
    refine congrArg x.bound.all (funext fun q => ?_)
    rw [List.contains_cons]
    congr 1
    exact Bool.eq_iff_iff.2 (by simp)
  split
  · next hcomplete =>
    have hsingle : ∀ m ∈ (home, r, x.fenceClosed home) :: x.markers, m.1 = home → m.2.2 = x.fenceClosed home :=
      List.forall_mem_cons.2 ⟨fun _ => rfl, h⟩
    have hclosed : ({ x with markers := (home, r, x.fenceClosed home) :: x.markers } : Part).setClosed home
        (x.fenceClosed home + 1) = x.closeStep home (x.fenceClosed home) := by
      refine (Part.setClosed_of_single hsingle).trans ?_
      simp [Part.closeStep]
    have hnone : ((x.closeStep home (x.fenceClosed home)).bound.all fun q => (x.closeStep home (x.fenceClosed home)).markers.contains
        (home, q, (x.closeStep home (x.fenceClosed home)).fenceClosed home)) = false := by
      refine List.all_eq_false.2 ⟨r, hbound, ?_⟩
      simp [Part.closeStep]
    have hcloses := Part.closeFences_of_complete (x := { x with markers := (home, r, x.fenceClosed home) :: x.markers })
      (List.ne_nil_of_mem hbound) hstep (hall.trans hcomplete) n
    exact (hcloses.trans (congrArg (Part.closeFences n home) hclosed)).trans (Part.closeFences_of_waiting hnone n)
  · next hmissing => exact Part.closeFences_of_waiting (hall.trans (Bool.eq_false_of_not_eq_true hmissing)) (n + 1)

theorem exec_stepDoneMarker {s : State} {t : Fin 16} {r : Fin 24} {home : Fin 2} {step : Nat} (hbound : r.val ∈ (s.part t.val).bound)
    (hclosed : (s.part t.val).fenceClosed home.val = step) (hstep : step < (s.part t.val).gstep)
    (hnew : (home.val, r.val, step) ∉ (s.part t.val).markers) (h : ∀ m ∈ (s.part t.val).markers, m.1 = home.val → m.2.2 = step) :
    exec (.stepDoneMarker t r (home, step)) s = .next (s.setPart t.val
      (if (s.part t.val).bound.all (fun q => decide (q = r.val) || (s.part t.val).markers.contains (home.val, q, step)) then
        (s.part t.val).closeStep home.val step
      else { s.part t.val with markers := (home.val, r.val, step) :: (s.part t.val).markers })) := by
  subst hclosed
  rw [← Part.closeFences_of_marker hbound hstep h (s.part t.val).markers.length]
  have hcomes : (s.part t.val).bound.contains r.val = true ∧ _ < (s.part t.val).gstep ∧ _ ≤ (s.part t.val).fenceClosed home.val ∧
      (!(s.part t.val).markers.contains (home.val, r.val, (s.part t.val).fenceClosed home.val)) = true :=
    ⟨List.contains_iff_mem.2 hbound, hstep, Nat.le_refl _, by simpa using hnew⟩
  exact congrArg (fun x => Host.Outcome.next (s.setPart t.val x)) (if_pos hcomes)

/-! ### A word that its owner alone holds (R169, R170) -/

theorem each_of_fixed {σ : Type} {f : Nat → σ → σ} {l : List Nat} {s : σ} (h : ∀ i ∈ l, f i s = s) : each l f s = s :=
  each_induction (P := fun t => t = s) rfl fun i hi t ht => by rw [ht, h i hi]

/-- A run over units in which one unit alone has something to do. -/
theorem each_of_single {σ : Type} {f : Nat → σ → σ} {l : List Nat} {i : Nat} {s : σ} (hl : l.Nodup) (hi : i ∈ l)
    (hbefore : ∀ j, j ≠ i → f j s = s) (hafter : ∀ j, j ≠ i → f j (f i s) = f i s) : each l f s = f i s := by
  induction l with
  | nil => cases hi
  | cons j l ih =>
    obtain ⟨hj, hl⟩ := List.nodup_cons.1 hl
    by_cases heq : j = i
    · subst heq
      exact each_of_fixed (s := f j s) fun k hk => hafter k fun hkj => hj (hkj ▸ hk)
    · have hrest := ih hl ((List.mem_cons.1 hi).resolve_left (Ne.symm heq))
      rw [each, List.foldl_cons, hbefore j heq]
      exact hrest

/-- Reach r alone holds a line, dirty and unshared, and nothing of it is on its way. -/
structure State.Sole (s : State) (r line : Nat) (l : CacheLine) : Prop where
  cached : (s.rch r).cache.find line = some l
  dirty : l.dirty = true
  unshared : l.shared = false
  alone : ∀ q, q ≠ r → (s.rch q).cache.find line = none
  settled : ∀ q, (s.rch q).writeback.find line = none
  still : (s.dirLine line).data = none

/-- The reach with a halfword stored in a line of its cache. -/
def Reach.storeHalf (x : Reach) (w : WordAt) (l : CacheLine) (h : BitVec 16) : Reach :=
  { x with cache := x.cache.put w.line (l.set w.idx h) }

section
variable {s : State} {r line : Nat} {l : CacheLine}

theorem State.Sole.setRch (h : s.Sole r line l) {x : Reach} (hcache : x.cache = (s.rch r).cache)
    (hback : x.writeback = (s.rch r).writeback) : (s.setRch r x).Sole r line l where
  cached := by rw [State.rch_setRch_same, hcache, h.cached]
  dirty := h.dirty
  unshared := h.unshared
  alone q hq := by rw [State.rch_setRch_other _ _ hq, h.alone q hq]
  settled q := by
    by_cases hq : q = r
    · rw [hq, State.rch_setRch_same, hback, h.settled]
    · rw [State.rch_setRch_other _ _ hq, h.settled]
  still := h.still

theorem State.Sole.lineOwner (h : s.Sole r line l) (hr : r < 24) : s.lineOwner line = some r := by
  rw [State.lineOwner, List.find?_range_eq_some]
  refine ⟨by rw [h.cached]; exact h.dirty, List.mem_range.2 hr, fun j hj => ?_⟩
  rw [h.alone j hj.ne]
  rfl

theorem State.Sole.evicted (h : s.Sole r line l) : s.evicted line = none := by
  simp [State.evicted, h.settled]

/-- A word that its owner alone holds is written in its cache, and nowhere else. -/
theorem State.Sole.putWord {w : WordAt} (h : s.Sole r w.line l) (hr : r < 24) (hflip : s.on Reg.TST_FLIP_arm = false) (c : Cell) :
    s.putWord w c = s.setRch r ((s.rch r).storeHalf w l ((store c).setWidth 16)) := by
  have hdata : (s.dir.get w.line {}).data = none := h.still
  simp only [State.putWord, h.lineOwner hr, State.flipCell_of_unarmed hflip, hdata, h.evicted, Option.isSome_some, Bool.true_or,
    if_true]
  refine (each_of_single (i := r) List.nodup_range (List.mem_range.2 hr) (fun q hq => ?_) fun q hq => ?_).trans ?_
  · rw [h.alone q hq]
  · rw [h.cached, State.rch_modRch_other _ _ hq, h.alone q hq]
  · rw [h.cached]
    rfl

theorem State.Sole.canApply {t : Nat} {e : WbEntry} (h : s.Sole r ((s.part t).wordAt e.region e.addr).line l) (hr : r < 24) :
    s.canApply t r e = true := by
  simp [State.canApply, h.lineOwner hr, h.cached, h.unshared]

/-- The reach that remembers the value a write has replaced, for accesses that may still conflict with it at partition step g (R166). -/
def Reach.noteApplied (x : Reach) (e : WbEntry) (old : Cell) (g : Nat) : Reach :=
  { x with recent := (x.recent.filter fun y => g < y.gstep + 24) ++ [{ e with value := old }] }

/-- In a partition of one reach no write of another can conflict, so a buffered write takes effect in its owner's line. -/
theorem State.applyWrite_of_sole {t : Nat} {e : WbEntry} (hbound : (s.part t).bound = [r])
    (h : s.Sole r ((s.part t).wordAt e.region e.addr).line l) (hr : r < 24) (hflip : s.on Reg.TST_FLIP_arm = false) :
    ∃ old, s.applyWrite t r e = s.setRch r ((((s.rch r).holdPage (e.region * 8192 + e.addr / 2048)).noteApplied e old
      (s.part t).gstep).storeHalf ((s.part t).wordAt e.region e.addr) l ((store e.value).setWidth 16)) := by
  have hrivals : (s.part t).bound.filter (· ≠ r) = [] := by simp [hbound]
  let x := (s.rch r).holdPage (e.region * 8192 + e.addr / 2048)
  let old := cellOf ((s.setRch r x).wordNow ((s.part t).wordAt e.region e.addr))
  have happly : s.applyWrite t r e = (s.setRch r (x.noteApplied e old (s.part t).gstep)).putWord
      ((s.part t).wordAt e.region e.addr) e.value := by
    rw [← State.setRch_setRch_same s r x]
    simp only [State.applyWrite, hrivals, List.any_nil, Bool.false_eq_true, if_false, if_true, State.translated_eq_setRch,
      State.modRch, State.rch_setRch_same]
    rfl
  refine ⟨old, ?_⟩
  have hsole : (s.setRch r (x.noteApplied e old (s.part t).gstep)).Sole r ((s.part t).wordAt e.region e.addr).line l :=
    h.setRch rfl rfl
  rw [happly, hsole.putWord hr hflip, State.rch_setRch_same, State.setRch_setRch_same]

end

/-! ### The close of a fence (R166, R167) -/

theorem State.olderElsewhere_of_single {s : State} {t r : Nat} (hbound : (s.part t).bound = [r]) (e : WbEntry) :
    s.olderElsewhere t r e = false := by
  simp [State.olderElsewhere, hbound]

/-- The state with the write buffer of a reach taken out. -/
def State.unbuffered (s : State) (r : Nat) : State := s.setRch r { s.rch r with wb := [] }

/-- The one write that a reach buffers takes effect or stays in the buffer. -/
theorem State.drainSeen_of_single {s : State} {r : Nat} {e : WbEntry} (hwb : (s.rch r).wb = [e]) (t : Nat) :
    s.drainSeen t r = if (s.unbuffered r).closeSeen t r e ∧ e.held = false ∧ (s.unbuffered r).olderElsewhere t r e = false ∧
      (s.unbuffered r).canApply t r e then (s.unbuffered r).applyWrite t r e else s.setRch r (s.rch r) := by
  have hrch : (s.unbuffered r).rch r = { s.rch r with wb := [] } := State.rch_setRch_same ..
  have hback : (s.unbuffered r).modRch r (fun x => { x with wb := x.wb ++ [e] }) = s.setRch r (s.rch r) := by
    rw [State.modRch, hrch, State.unbuffered, State.setRch_setRch_same]
    simp [← hwb]
  have hdrain : s.drainSeen t r = if (s.unbuffered r).closeSeen t r e ∧ e.held = false ∧
      (!((s.unbuffered r).rch r).wb.any fun x => decide (x.region = e.region ∧ x.addr = e.addr)) = true ∧
      (!(s.unbuffered r).olderElsewhere t r e) = true ∧ (s.unbuffered r).canApply t r e then (s.unbuffered r).applyWrite t r e
      else (s.unbuffered r).modRch r fun x => { x with wb := x.wb ++ [e] } := by
    rw [State.drainSeen, hwb]
    rfl
  rw [hdrain, hback, hrch]
  simp only [List.any_nil, Bool.not_false, true_and, Bool.not_eq_true']

/-- The one write that a reach of a partition by itself buffers takes effect once the close of its home lets it. -/
theorem State.drainSeen_of_sole {s : State} {t r : Nat} {e : WbEntry} {l : CacheLine} (hbound : (s.part t).bound = [r])
    (hwb : (s.rch r).wb = [e]) (hseen : s.closeSeen t r e = true) (hheld : e.held = false)
    (h : s.Sole r ((s.part t).wordAt e.region e.addr).line l) (hr : r < 24) (hflip : s.on Reg.TST_FLIP_arm = false) :
    ∃ old, s.drainSeen t r = s.setRch r ((((({ s.rch r with wb := [] } : Reach).holdPage (e.region * 8192 + e.addr / 2048)).noteApplied
      e old (s.part t).gstep).storeHalf ((s.part t).wordAt e.region e.addr) l ((store e.value).setWidth 16))) := by
  have hrch : (s.unbuffered r).rch r = { s.rch r with wb := [] } := State.rch_setRch_same ..
  have hseen' : (s.unbuffered r).closeSeen t r e = true := by
    rw [← hseen]
    simp only [State.closeSeen, hrch]
    rfl
  have hsole : (s.unbuffered r).Sole r ((s.part t).wordAt e.region e.addr).line l := h.setRch rfl rfl
  obtain ⟨old, hold⟩ := State.applyWrite_of_sole (s := s.unbuffered r) hbound hsole hr hflip
  refine ⟨old, ?_⟩
  rw [State.drainSeen_of_single hwb, if_pos ⟨hseen', hheld, State.olderElsewhere_of_single (s := s.unbuffered r) hbound e,
    State.Sole.canApply (s := s.unbuffered r) hsole hr⟩, hold, hrch, State.unbuffered, State.setRch_setRch_same]
  rfl

theorem Reach.fenceSeen_setSeen (x : Reach) (home n : Nat) : (x.setSeen home n).fenceSeen home = n := by
  by_cases h : home = 0 <;> simp [Reach.setSeen, Reach.fenceSeen, h]

theorem Reach.setSeen_eq (x : Reach) (home n : Nat) : x.setSeen home n =
    { x with fenceSeen0 := if home = 0 then n else x.fenceSeen0, fenceSeen1 := if home = 0 then x.fenceSeen1 else n } := by
  by_cases h : home = 0 <;> simp [Reach.setSeen, h]

theorem Reach.setSeen_keeps (x : Reach) (home n : Nat) : (x.setSeen home n).cache = x.cache ∧
    (x.setSeen home n).writeback = x.writeback ∧ (x.setSeen home n).wb = x.wb := by
  rw [Reach.setSeen_eq]
  exact ⟨rfl, rfl, rfl⟩

/-- A home's close of a fence, and what its reach then applies. -/
theorem exec_fenceClose_of_sole {s : State} {t : Fin 16} {r : Fin 24} {home : Fin 2} {step : Nat} {e : WbEntry} {l : CacheLine}
    (hbound : (s.part t.val).bound = [r.val]) (hclosed : step < (s.part t.val).fenceClosed home.val)
    (hhome : (s.part t.val).home e.region = home.val) (hwb : (s.rch r.val).wb = [e]) (hheld : e.held = false)
    (hgstep : e.gstep ≤ max ((s.rch r.val).fenceSeen home.val) (step + 1) + 23) (hflip : s.on Reg.TST_FLIP_arm = false)
    (h : s.Sole r.val ((s.part t.val).wordAt e.region e.addr).line l) : ∃ old, exec (.fenceClose t r (home, step)) s =
      .next (s.setRch r.val (((({ (s.rch r.val).setSeen home.val (max ((s.rch r.val).fenceSeen home.val) (step + 1)) with
        wb := [] } : Reach).holdPage (e.region * 8192 + e.addr / 2048)).noteApplied e old (s.part t.val).gstep).storeHalf
          ((s.part t.val).wordAt e.region e.addr) l ((store e.value).setWidth 16))) := by
  let x := (s.rch r.val).setSeen home.val (max ((s.rch r.val).fenceSeen home.val) (step + 1))
  let u := s.setRch r.val x
  obtain ⟨hcache, hback, hkept⟩ := (s.rch r.val).setSeen_keeps home.val (max ((s.rch r.val).fenceSeen home.val) (step + 1))
  have hrch : u.rch r.val = x := State.rch_setRch_same ..
  have hseen : u.closeSeen t.val r.val e = true := by
    have hhome' : (u.part t.val).home e.region = home.val := hhome
    rw [State.closeSeen, hrch, hhome', Reach.fenceSeen_setSeen]
    exact decide_eq_true hgstep
  obtain ⟨old, hdrain⟩ := State.drainSeen_of_sole (s := u) hbound ((congrArg Reach.wb hrch).trans (hkept.trans hwb)) hseen hheld
    (h.setRch hcache hback) r.isLt hflip
  have hcond : (s.part t.val).bound.contains r.val = true ∧ step < (s.part t.val).fenceClosed home.val := by
    simp [hbound, hclosed]
  have hexec : exec (.fenceClose t r (home, step)) s = done s (u.drainSeen t.val r.val) := congrArg (done s) (if_pos hcond)
  refine ⟨old, ?_⟩
  rw [hexec, hdrain, hrch, State.setRch_setRch_same]
  rfl

end Sys2Proof.Machine

namespace Sys2Proof.Proofs
open Sys2Proof.Machine Sys2Proof.Claims

/-- Settles O17: what a read's arrival, a step marker and a fence's close end in, each by the lemma of its operation. -/
theorem readsAndFences : Obligations.ReadsAndFences := by
  unfold Obligations.ReadsAndFences
  refine ⟨fun s c slot t x howner hreads hslot hnew hhere => ⟨fun fault hparity hpage => ?arrives, fun hpage => ?stops⟩,
    fun s t r home step hbound hclosed hstep hnew hmarkers => ?marker,
    fun s t r home step e l hbound hclosed hhome hwb hheld hgstep hflip hcache hdirty hshared halone hback hdata => ?close⟩
  case arrives =>
    have hreturn := State.readReturn_of_sound howner hreads hslot hnew hhere hparity hpage
    change ∃ u, done s (s.readReturn c.val slot.val fault) = .next u ∧ _
    rw [hreturn]
    exact ⟨_, rfl, rfl, cluIs_setClu .., rchIs_setRch ..⟩
  case stops =>
    obtain ⟨u, hu, hreturn⟩ := State.readReturn_of_unreadable howner hreads hslot hnew hhere hpage
    have hcause := Reports.cause u (.reach (c.val / 17)) Reg.DMEM_R_CAUSE_xlate_fault (c.val / 17) 1
    change ∃ u, done s (s.readReturn c.val slot.val true) = .next u ∧ _
    rw [hreturn]
    refine ⟨_, done_of_pending (hcause.pending.trans hu.pending), ?_, hcause.clusters.trans hu.clusters, ?_⟩
    · rw [State.part_modPart_same]
    · exact State.on_cause u _ rfl (fieldKey_lt_reportKeys (by decide) (by omega))
  case marker =>
    refine ⟨_, exec_stepDoneMarker hbound hclosed hstep hnew hmarkers, rfl, ?_, fun p hp => State.part_setPart_other _ _ hp⟩
    rw [State.part_setPart_same]
    have hclose : (s.part t.val).closeStep home.val step = { s.part t.val with
        fenceClosed0 := if home = 0 then step + 1 else (s.part t.val).fenceClosed0,
        fenceClosed1 := if home = 0 then (s.part t.val).fenceClosed1 else step + 1,
        markers := (s.part t.val).markers.filter fun m => decide (m.1 ≠ home.val) } := by
      match home with
      | 0 => rfl
      | 1 => rfl
    rw [hclose]
  case close =>
    obtain ⟨old, hexec⟩ := exec_fenceClose_of_sole hbound hclosed hhome hwb hheld hgstep hflip
      ⟨hcache, hdirty, hshared, halone, hback, hdata⟩
    refine ⟨_, hexec, rfl, ?_, fun q hq => State.rch_setRch_other _ _ hq⟩
    have hzero : (home = 0) = (home.val = 0) := propext Fin.ext_iff
    rw [State.rch_setRch_same, Reach.setSeen_eq]
    simp only [hzero]
    rfl

end Sys2Proof.Proofs
end

section
/-!
PROOFS. Pages of design memory: copies of lines in HBM, the pre-image of a page, the start of a retirement, and a flush (R170, R175, R178,
R188).
-/
namespace Sys2Proof.Machine
open Sys2Proof.Claims

/-! ### Lines copied in HBM -/

theorem Mem.get_putRun {n : Nat} (m : Mem n) (a : Nat) (l : List (BitVec n)) (b : Nat) :
    Mem.get (Mem.putRun m a l) b = if a ≤ b then (l[b - a]?).getD (Mem.get m b) else Mem.get m b := by
  induction l generalizing m a with
  | nil => simp [Mem.putRun]
  | cons x l ih =>
    rw [Mem.putRun, ih]
    rcases Nat.lt_trichotomy b a with hlt | rfl | hgt
    · rw [if_neg (by omega), if_neg (by omega), Mem.get_put_other _ _ hlt.ne]
    · simp
    · have hnext : b - a = b - (a + 1) + 1 := by omega
      rw [if_pos (by omega), if_pos (by omega), hnext, List.getElem?_cons_succ, Mem.get_put_other _ _ hgt.ne']

/-- HBM with a line copied from line a to line d. -/
def Mem.copyLine (m : Mem 8) (a d : Nat) : Mem 8 := Mem.putRun m (d * 64) (Mem.getRun m (a * 64) 64)

theorem Mem.get_copyLine (m : Mem 8) (a d b : Nat) : Mem.get (m.copyLine a d) b =
    if d * 64 ≤ b ∧ b < d * 64 + 64 then Mem.get m (a * 64 + (b - d * 64)) else Mem.get m b := by
  rw [Mem.copyLine, Mem.get_putRun]
  by_cases hle : d * 64 ≤ b
  · by_cases hlt : b < d * 64 + 64
    · have hin : b - d * 64 < 64 := by omega
      simp [Mem.getRun, hle, hlt, hin]
    · have hout : ¬b - d * 64 < 64 := by omega
      simp [Mem.getRun, hlt, hout]
  · simp [hle]

/-- HBM with the listed lines from line a on copied to those from line d on. -/
def Mem.copyLines (m : Mem 8) (a d : Nat) (l : List Nat) : Mem 8 := each l (fun i m => Mem.copyLine m (a + i) (d + i)) m

/-- Lines copied to themselves, or to a place apart, are at their new place what they were. -/
theorem Mem.get_copyLines (m : Mem 8) {a d n : Nat} (h : a = d ∨ a + n ≤ d ∨ d + n ≤ a) (b : Nat) :
    Mem.get (m.copyLines a d (List.range n)) b =
      if d * 64 ≤ b ∧ b < (d + n) * 64 then Mem.get m (a * 64 + (b - d * 64)) else Mem.get m b := by
  induction n generalizing b with
  | zero => rw [if_neg (by omega)]; rfl
  | succ n ih =>
    have hlast : m.copyLines a d (List.range (n + 1)) = (m.copyLines a d (List.range n)).copyLine (a + n) (d + n) := by
      simp [Mem.copyLines, each, List.range_succ]
    rw [hlast, Mem.get_copyLine, ih (by omega), ih (by omega)]
    by_cases hin : (d + n) * 64 ≤ b ∧ b < (d + n) * 64 + 64
    · rw [if_pos hin, if_neg (by omega), if_pos (by omega)]
      congr 1
      omega
    · rw [if_neg hin]
      by_cases hold : d * 64 ≤ b ∧ b < (d + n) * 64
      · rw [if_pos hold, if_pos (by omega)]
      · rw [if_neg hold, if_neg (by omega)]

/-! ### Nothing of design memory is in a cache or on its way -/

/-- Every reach cache and writeback entry is empty, and no line is on its way to a reach. -/
structure State.Uncached (s : State) : Prop where
  empty : ∀ q, (s.rch q).cache = [] ∧ (s.rch q).writeback = []
  still : ∀ line, (s.dirLine line).data = none

theorem flatMap_pairs {α : Type} (f : Nat → α) (n : Nat) :
    (List.range n).flatMap (fun i => [f (2 * i), f (2 * i + 1)]) = (List.range (2 * n)).map f := by
  induction n with
  | zero => rfl
  | succ n ih => simp [List.range_succ, Nat.mul_add, ih]

theorem halfword_bytes (x y : Byte) : (BitVec.ofNat 16 (x.toNat + 256 * y.toNat)).setWidth 8 = x ∧
    (BitVec.ofNat 16 (x.toNat + 256 * y.toNat) >>> 8).setWidth 8 = y := by
  have hx := x.isLt
  have hy := y.isLt
  constructor <;> refine BitVec.eq_of_toNat_eq ?_ <;> simp [Nat.shiftRight_eq_div_pow] <;> omega

theorem lineBytes_hbmLine (s : State) (line : Nat) : lineBytes (s.hbmLine line) = Mem.getRun s.hbm (line * 64) 64 := by
  have hpairs := flatMap_pairs (fun i => Mem.get s.hbm (line * 64 + i)) 32
  rw [lineBytes, State.hbmLine, List.flatMap_map, Mem.getRun]
  refine Eq.trans (List.flatMap_congr fun i _ => ?_) hpairs
  obtain ⟨hlow, hhigh⟩ := halfword_bytes (Mem.get s.hbm (line * 64 + 2 * i)) (Mem.get s.hbm (line * 64 + 2 * i + 1))
  rw [State.hbmHalf, hlow, hhigh]
  rfl

/-- The state with the 64 lines of a page copied from line a on to line d on. -/
def State.withPage (s : State) (a d : Nat) : State := { s with hbm := Mem.copyLines s.hbm a d (List.range 64) }

/-- The pages with an uncorrectable report once page src has been copied to page dst: the copy is no better than what it was made of. -/
def State.badCopied (s : State) (src dst : Nat) : List Nat :=
  if s.pagesBad.contains src then dst :: s.pagesBad.filter (· ≠ dst) else s.pagesBad.filter (· ≠ dst)

section
variable {s : State} (h : s.Uncached)
include h

theorem State.Uncached.lineOwner (line : Nat) : s.lineOwner line = none := by
  simp [State.lineOwner, (h.empty _).1, Tbl.find]

theorem State.Uncached.coherentLine (line : Nat) : s.coherentLine line = s.hbmLine line := by
  have hevicted : s.evicted line = none := by simp [State.evicted, (h.empty _).2, Tbl.find]
  have htransit : s.inTransit line = none := by
    have hdata : (s.dir.get line {}).data = none := h.still line
    simp [State.inTransit, hdata]
  rw [State.coherentLine, h.lineOwner line]
  simp only [hevicted, htransit, Option.getD_none]

theorem State.Uncached.hbm (m : Mem 8) : ({ s with hbm := m } : State).Uncached := ⟨h.empty, h.still⟩

theorem State.Uncached.setRch {r : Nat} {x : Reach} (hx : x.cache = [] ∧ x.writeback = []) : (s.setRch r x).Uncached where
  empty q := by
    by_cases hq : q = r
    · rw [hq, State.rch_setRch_same]
      exact hx
    · rw [State.rch_setRch_other _ _ hq]
      exact h.empty q
  still := h.still

variable (hflip : s.on Reg.TST_FLIP_arm = false)
include hflip

theorem State.Uncached.putLine (a d : Nat) : s.putLine d (s.coherentLine a) = { s with hbm := Mem.copyLine s.hbm a d } := by
  rw [h.coherentLine, State.putLine_of_unarmed hflip, lineBytes_hbmLine]
  rfl

theorem State.Uncached.putLines (a d : Nat) (l : List Nat) : each l (fun i s => s.putLine (d + i) (s.coherentLine (a + i))) s =
    { s with hbm := Mem.copyLines s.hbm a d l } := by
  induction l generalizing s with
  | nil => rfl
  | cons i l ih =>
    rw [each, List.foldl_cons, h.putLine hflip]
    exact ih (h.hbm _) hflip

theorem State.Uncached.copyPage (stack src dst : Nat) : s.copyPage stack src dst =
    ({ s with pagesBad := s.badCopied (stack * 2 ^ 22 + src) (stack * 2 ^ 22 + dst) } : State).withPage
      (stack * 2 ^ 28 + src * 64) (stack * 2 ^ 28 + dst * 64) :=
  State.Uncached.putLines (s := { s with pagesBad := s.badCopied (stack * 2 ^ 22 + src) (stack * 2 ^ 22 + dst) })
    ⟨h.empty, h.still⟩ hflip _ _ _

end

/-! ### The pre-image of a page (R175) -/

/-- A buffered write whose reach does not own the line stays in the buffer. -/
theorem State.Uncached.drainSeen {s : State} (h : s.Uncached) {r : Nat} {e : WbEntry} (hwb : (s.rch r).wb = [e]) (t : Nat) :
    s.drainSeen t r = s.setRch r (s.rch r) := by
  have hunowned : (s.unbuffered r).canApply t r e = false := by
    simp [State.canApply, (h.setRch (x := { s.rch r with wb := [] }) (h.empty r)).lineOwner, State.unbuffered]
  rw [State.drainSeen_of_single hwb, hunowned, if_neg (by simp)]

/-- The partition once the pre-image of a page stands in an undo page. -/
def Part.preimaged (x : Part) (region page stack phys : Nat) : Part :=
  { x with undoFree := [], copied := (region * 8192 + page) :: x.copied,
           undoNow := x.undoNow ++ [{ region := region, page := page, stack := stack, phys := phys }] }

/-- The write unit once the writes held for a page may go on. -/
def Reach.released (y : Reach) (region page : Nat) : Reach :=
  { y with wb := y.wb.map fun e => if e.region = region ∧ e.addr / 2048 = page then { e with held := false } else e }

theorem Reach.released_of_single {y : Reach} {e : WbEntry} (hwb : y.wb = [e]) :
    y.released e.region (e.addr / 2048) = { y with wb := [{ e with held := false }] } := by
  simp [Reach.released, hwb]

/-- The one held write of a partition of one reach has its page copied to the one undo page, and goes on. -/
theorem State.pageCopied_of_single {s : State} {t r region page phys : Nat} {e : WbEntry} {g : Region} {u : Nat × Nat}
    (hbound : (s.part t).bound = [r]) (hregion : (s.part t).region region = some g)
    (hphys : g.pages[page]? = some phys) (hfree : (s.part t).undoFree = [u]) (hstack : u.1 = g.stack) (hbad : s.pagesBad = [])
    (hwb : (s.rch r).wb = [e]) (hheld : e.held = true) (hid : e.region = region) (hpage : e.addr / 2048 = page)
    (hexport : (s.part t).exporting = none) :
    s.pageCopied t region page = (((s.copyPage g.stack phys u.2).setPart t ((s.part t).preimaged region page g.stack u.2)).modRch r
      fun y => y.released region page).drainSeen t r := by
  have hundo : (s.part t).undoFree.find? (fun u => decide (u.1 = g.stack ∧ (!s.pagesBad.contains (u.1 * 2 ^ 22 + u.2)) = true)) =
      some u := by
    simp [hfree, hstack, hbad]
  have hwaits : ((s.part t).bound.any fun r => (s.rch r).wb.any fun e =>
      decide (e.held = true ∧ e.region = region ∧ e.addr / 2048 = page)) = true := by
    simp [hbound, hwb, hheld, hid, hpage]
  have herase : (s.part t).undoFree.erase u = [] := by simp [hfree]
  have heach (f : Nat → State → State) (σ : State) : each (s.part t).bound f σ = f r σ := by rw [hbound]; rfl
  have hpinned : ((s.part t).exporting.isSome && !((s.part t).undoPinned.any fun u => decide (u.region = region ∧ u.page = page))) =
      false := by simp [hexport]
  simp only [State.pageCopied, hregion, hundo, hphys, hwaits, if_true, herase, hpinned, Bool.false_eq_true, if_false, heach]
  rfl

theorem State.Uncached.pageCopied {s : State} (h : s.Uncached) (hflip : s.on Reg.TST_FLIP_arm = false) {t r region page phys : Nat}
    {e : WbEntry} {g : Region} {u : Nat × Nat} (hbound : (s.part t).bound = [r]) (hregion : (s.part t).region region = some g)
    (hphys : g.pages[page]? = some phys) (hfree : (s.part t).undoFree = [u]) (hstack : u.1 = g.stack) (hbad : s.pagesBad = [])
    (hwb : (s.rch r).wb = [e]) (hheld : e.held = true) (hid : e.region = region) (hpage : e.addr / 2048 = page)
    (hexport : (s.part t).exporting = none) :
    s.pageCopied t region page = ((s.withPage (g.stack * 2 ^ 28 + phys * 64) (g.stack * 2 ^ 28 + u.2 * 64)).setPart t
      ((s.part t).preimaged region page g.stack u.2)).setRch r { s.rch r with wb := [{ e with held := false }] } := by
  have hcopy : s.copyPage g.stack phys u.2 = s.withPage (g.stack * 2 ^ 28 + phys * 64) (g.stack * 2 ^ 28 + u.2 * 64) := by
    have hkept : s.badCopied (g.stack * 2 ^ 22 + phys) (g.stack * 2 ^ 22 + u.2) = s.pagesBad := by simp [State.badCopied, hbad]
    rw [h.copyPage hflip, hkept]
  rw [State.pageCopied_of_single hbound hregion hphys hfree hstack hbad hwb hheld hid hpage hexport, hcopy, State.withPage]
  generalize Mem.copyLines s.hbm _ _ _ = m
  let v := ({ s with hbm := m } : State).setPart t ((s.part t).preimaged region page g.stack u.2)
  have hreleased : (v.modRch r fun y => y.released region page) = v.setRch r { s.rch r with wb := [{ e with held := false }] } := by
    rw [← Reach.released_of_single hwb, hid, hpage]
    rfl
  have huncached : (v.setRch r { s.rch r with wb := [{ e with held := false }] }).Uncached :=
    State.Uncached.setRch (s := v) ⟨h.empty, h.still⟩ (h.empty r)
  rw [hreleased, huncached.drainSeen (e := { e with held := false }) (by rw [State.rch_setRch_same]),
    State.rch_setRch_same, State.setRch_setRch_same]

/-! ### The start of a retirement (R178, R187) -/

theorem go_iff_msb (v : Word) : Reg.DMEM_RETIRE_go.of v = 1 ↔ v.msb = true := by
  have hv := v.isLt
  simp only [Field.of, bits, Reg.DMEM_RETIRE_go, BitVec.msb_eq_decide, decide_eq_true_eq]
  omega

/-- DMEM_RETIRE with stack and page stored. -/
def State.namePage (s : State) (v : Word) : State :=
  (s.setRg Reg.DMEM_RETIRE_stack 0 (Reg.DMEM_RETIRE_stack.of v)).setRg Reg.DMEM_RETIRE_page 0 (Reg.DMEM_RETIRE_page.of v)

theorem State.on_busy_namePage (s : State) (v : Word) : (s.namePage v).on Reg.DMEM_RETIRE_busy = s.on Reg.DMEM_RETIRE_busy := by
  rw [State.on, State.namePage, State.rg_setRg_other _ _ _ _ _ _ (by decide), State.rg_setRg_other _ _ _ _ _ _ (by decide), State.on]

theorem State.wRetire_eq (s : State) (v : Word) : s.wRetire v = if v.msb = true ∧ s.on Reg.DMEM_RETIRE_busy = false then
    { (s.namePage v).setRg Reg.DMEM_RETIRE_busy 0 1 with
      retiring := some (Reg.DMEM_RETIRE_stack.of v * 2 ^ 22 + Reg.DMEM_RETIRE_page.of v) } else s.namePage v := by
  have hwrite : s.wRetire v = if Reg.DMEM_RETIRE_go.of v = 1 then
    (s.namePage v).retireBegin (Reg.DMEM_RETIRE_stack.of v) (Reg.DMEM_RETIRE_page.of v) else s.namePage v := rfl
  rw [hwrite, State.retireBegin, State.on_busy_namePage]
  by_cases hgo : v.msb = true
  · rw [if_pos ((go_iff_msb v).2 hgo)]
    cases s.on Reg.DMEM_RETIRE_busy <;> simp [hgo]
  · rw [if_neg (mt (go_iff_msb v).1 hgo), if_neg fun h => hgo h.1]

/-! ### Flush (R188) -/

theorem Tbl.find_map {α β : Type} (t : Tbl α) (f : α → β) (k : Nat) :
    Tbl.find (t.map fun e => (e.1, f e.2)) k = (t.find k).map f := by
  induction t with
  | nil => rfl
  | cons e t ih =>
    obtain ⟨a, v⟩ := e
    by_cases ha : a = k <;> simp [Tbl.find, ha, ih]

theorem State.writeBack_of_clean {s : State} {r : Nat} (h : ∀ e ∈ (s.rch r).cache ++ (s.rch r).writeback, e.2.dirty = false) :
    s.writeBack r = s := by
  have hnone : ((s.rch r).cache ++ (s.rch r).writeback).filter (fun e => e.2.dirty) = [] :=
    List.filter_eq_nil_iff.2 fun e he => by rw [h e he]; exact Bool.false_ne_true
  rw [State.writeBack, hnone]
  rfl

theorem State.writeBack_of_single {s : State} {r line : Nat} {l : CacheLine} (hcache : (s.rch r).cache = [(line, l)])
    (hback : (s.rch r).writeback = []) (hdirty : l.dirty = true) (hshared : s.bypasses line = false) :
    s.writeBack r = s.putm r line := by
  simp [State.writeBack, hcache, hback, hdirty, hshared]

/-- The reach with its cache and its translation buffer empty. -/
def Reach.emptied (x : Reach) : Reach := { x with cache := [], tlb := [] }

theorem State.flush_eq (s : State) (r : Nat) : s.flush r = { (s.writeBack r).modRch r Reach.emptied with
    dir := (s.writeBack r).dir.map fun e => (e.1, e.2.without r) } := rfl

theorem State.rch_flush_same (s : State) (r : Nat) : (s.flush r).rch r = ((s.writeBack r).rch r).emptied := by
  have hflush : (s.flush r).rch r = ((s.writeBack r).modRch r Reach.emptied).rch r := rfl
  rw [hflush, State.rch_modRch_same]

theorem State.rch_flush_other (s : State) {r q : Nat} (h : q ≠ r) : (s.flush r).rch q = (s.writeBack r).rch q :=
  State.rch_modRch_other (s.writeBack r) Reach.emptied h

theorem DirLine.not_mem_sharers_without {d : DirLine} {r : Nat} (h : d.busy ≠ some r ∨ d.data = none) : r ∉ (d.without r).sharers := by
  have hkept : ¬(d.busy = some r ∧ d.data ≠ none) := fun hgranted => h.elim (fun hb => hb hgranted.1) hgranted.2
  rw [DirLine.without, if_neg hkept]
  simp

/-- No line of the directory names a flushed reach as a sharer, but for one on its way to it. -/
theorem State.not_mem_sharers_flush (s : State) {r line : Nat}
    (h : ((s.writeBack r).dirLine line).busy ≠ some r ∨ ((s.writeBack r).dirLine line).data = none) :
    r ∉ ((s.flush r).dirLine line).sharers := by
  have hfind : (s.flush r).dirLine line = (((s.writeBack r).dir.find line).map fun d => d.without r).getD {} :=
    congrArg (fun d : Option DirLine => d.getD {}) (Tbl.find_map (s.writeBack r).dir (fun d => d.without r) line)
  rw [hfind]
  have hline : (s.writeBack r).dirLine line = ((s.writeBack r).dir.find line).getD {} := rfl
  rw [hline] at h
  cases hd : (s.writeBack r).dir.find line with
  | none => exact List.not_mem_nil
  | some d =>
    rw [hd] at h
    exact DirLine.not_mem_sharers_without h

theorem exec_dmemRFlush {s t : State} {who : Requester} {r : Nat} (hw : Writable s who Reg.DMEM_R_FLUSH.addr)
    (hsel : s.selReach who = some r) (hopen : s.rchOpen who r = true) (hf : s.flush r = t) (hp : t.pending = s.pending) :
    exec (.dmemRFlush who 1) s = .next t := by
  have hone : Reg.DMEM_R_FLUSH_flush.of 1 ≠ 0 := by decide
  refine done_asWriter hw ?_ hp
  simp only [State.wFlush, State.onReach_of_sel hsel, hone, hopen, if_true, if_false, hf]

/-- A flush that finds one dirty line sends it home. -/
theorem State.flush_of_single {s : State} {r line : Nat} {l : CacheLine} (hcache : (s.rch r).cache = [(line, l)])
    (hback : (s.rch r).writeback = []) (hdirty : l.dirty = true) (hshared : s.bypasses line = false) (hwb : (s.rch r).wb = [])
    (hflip : s.on Reg.TST_FLIP_arm = false) :
    { s.flush r with dir := s.dir, reaches := s.reaches, hbm := s.hbm } = s ∧
      (s.flush r).hbm = Mem.putRun s.hbm (line * 64) (lineBytes l.cells) ∧
      RchIs s (s.flush r) r { s.rch r with cache := [], tlb := [], writeback := [(line, { l with dirty := false })] } := by
  have hfind : (s.rch r).cache.find line = some l := by simp [hcache, Tbl.find]
  have hputm := (State.writeBack_of_single hcache hback hdirty hshared).trans
    (State.putm_of_cached hfind hdirty (by rw [hback]; rfl) hshared)
  have hframe := (s.sentHome r line l).homePutm_frame r line l (s.dirLine line)
  rw [← hputm, State.sentHome_of_drained hwb hflip] at hframe
  have hrch (q : Nat) : (s.writeBack r).rch q = (s.sentHome r line l).rch q := by rw [hputm, State.rch_homePutm]
  rw [State.sentHome_of_drained hwb hflip] at hrch
  refine ⟨?_, ?_, ?_, fun q hq => ?_⟩
  · exact congrArg (fun t : State => { t with dir := s.dir, reaches := s.reaches, hbm := s.hbm }) hframe
  · exact congrArg State.hbm hframe
  · rw [State.rch_flush_same, hrch, State.rch_hbmPut, State.rch_setRch_same]
    simp [Reach.emptied, Reach.sendHome, hback, Tbl.put, Tbl.del, Tbl.ins]
  · rw [State.rch_flush_other s hq, hrch, State.rch_hbmPut, State.rch_setRch_other _ _ hq]

end Sys2Proof.Machine
end

section
/-!
PROOFS. The retirement of a page, and what events leave unchanged on its way (R177, R178, R393 to R397).
-/
namespace Sys2Proof.Machine
open Sys2Proof.Claims

/-! ### Interrupt sources and messages apart, an event changes nothing (R393 to R397) -/

/-- Interrupt sources and messages to the host apart, nothing has changed. -/
structure Notified (s t : State) : Prop where
  frame : { t with irq := s.irq, hostOut := s.hostOut, msix := s.msix } = s

theorem Notified.refl (s : State) : Notified s s := ⟨rfl⟩

theorem Notified.trans {s t u : State} (h : Notified s t) (h' : Notified t u) : Notified s u := by
  have hframe := congrArg (fun v : State => { v with irq := s.irq, hostOut := s.hostOut, msix := s.msix }) h'.frame
  exact ⟨hframe.trans h.frame⟩

theorem Notified.ite {s t u : State} {p : Prop} [Decidable p] (ht : Notified s t) (hu : Notified s u) :
    Notified s (if p then t else u) := by
  split
  · exact ht
  · exact hu

theorem Notified.msixSend (s : State) (fn v : Nat) : Notified s (s.msixSend fn v) := by
  rw [State.msixSend]
  split <;> exact ⟨rfl⟩

theorem Notified.modSrc (s : State) (n : Nat) (f : Src → Src) : Notified s (s.modSrc n f) := ⟨rfl⟩

theorem Notified.edge (s : State) (n : Nat) : Notified s (s.edge n) :=
  (Notified.modSrc s n _).trans (.ite (.msixSend _ 0 8) (.refl _))

theorem Notified.sense (b : Blk) (s0 s : State) : Notified s (State.sense b s0 s) := by
  cases b
  case cluster c => exact each_induction (P := Notified s) (.refl s) fun k _ t ht => ht.trans (.modSrc t _ _)
  case link l => exact .ite (.modSrc s _ _) (.refl s)
  all_goals exact .ite (.edge s _) (.refl s)

section
variable {s t : State} (h : Notified s t)
include h

theorem Notified.regs : t.regs = s.regs := by
  have hframe := congrArg State.regs h.frame
  exact hframe

theorem Notified.hbm : t.hbm = s.hbm := by
  have hframe := congrArg State.hbm h.frame
  exact hframe

end

theorem State.cause_notified (s : State) (b : Blk) (f : Field) (i v : Nat) :
    Notified (s.setRg f i (Nat.lor (s.rg f i) v)) (s.cause b f i v) := .sense b s _

theorem State.cause_regs (s : State) (b : Blk) (f : Field) (i v : Nat) :
    (s.cause b f i v).regs = (s.setRg f i (Nat.lor (s.rg f i) v)).regs := (s.cause_notified b f i v).regs

theorem State.cause_hbm (s : State) (b : Blk) (f : Field) (i v : Nat) : (s.cause b f i v).hbm = s.hbm := (s.cause_notified b f i v).hbm

theorem State.rg_of_regs {s t : State} (h : t.regs = s.regs) (f : Field) (i : Nat) : t.rg f i = s.rg f i := by
  rw [State.rg, h, State.rg]

/-! ### An alarm with the ring off (R483) -/

section
variable {s : State} (hring : s.on Reg.WEIR_CTRL_ring_en = false)
include hring

theorem State.enterAlarm_of_ringOff {e : Event} (howner : e.owner < 8192) :
    (s.enterAlarm e).hbm = s.hbm ∧ (s.enterAlarm e).on Reg.WEIR_CTRL_ring_en = false := by
  simp only [State.enterAlarm]
  split
  · refine ⟨State.cause_hbm .., ?_⟩
    have hmerged : fieldKey Reg.WEIR_CTRL_ring_en 0 0 ≠ fieldKey Reg.WEIR_ALM_STAT_merged e.owner 0 :=
      fieldKey_ne_of_place (by decide) (by decide) howner
    rw [State.on, State.rg_of_regs (State.cause_regs ..), State.rg_setRg_other _ _ _ _ _ _ (by decide),
      State.rg_setRg_other _ _ _ _ _ _ hmerged]
    exact hring
  · exact ⟨rfl, hring⟩

theorem State.ringAlarm_of_ringOff (e : Event) : s.ringAlarm e = s := by
  rw [State.ringAlarm, hring, if_neg Bool.false_ne_true]

theorem State.alarm_hbm_of_ringOff {owner : Nat} (howner : owner < 8192) (source code data : Nat) :
    (s.alarm owner source code data).hbm = s.hbm := by
  have henter {e : Event} (he : e.owner = owner) : ((s.enterAlarm e).ringAlarm e).hbm = s.hbm := by
    obtain ⟨hhbm, hoff⟩ := State.enterAlarm_of_ringOff hring (he ▸ howner)
    rw [State.ringAlarm_of_ringOff hoff, hhbm]
  exact henter rfl

end

/-! ### A retirement that fails (R177, R178) -/

/-- The commands that wait, the retirement in progress and those that wait for it. -/
def State.waiting (s : State) : List Instr × Option Nat × List Nat := (s.pending, s.retiring, s.retireQueue)

/-- Registers, directory, interrupt sources and the list of uncorrectable reports apart, nothing has changed. -/
structure Unmoved (s t : State) : Prop where
  frame : { t with regs := s.regs, dir := s.dir, pagesUc := s.pagesUc, irq := s.irq, hostOut := s.hostOut, msix := s.msix } = s

theorem Unmoved.trans {s t u : State} (h : Unmoved s t) (h' : Unmoved t u) : Unmoved s u := by
  have hframe := congrArg (fun v : State =>
    { v with regs := s.regs, dir := s.dir, pagesUc := s.pagesUc, irq := s.irq, hostOut := s.hostOut, msix := s.msix }) h'.frame
  exact ⟨hframe.trans h.frame⟩

theorem Unmoved.cause (s : State) (b : Blk) (f : Field) (i v : Nat) : Unmoved s (s.cause b f i v) := by
  have hframe := congrArg (fun v : State => { v with regs := s.regs, dir := s.dir, pagesUc := s.pagesUc })
    (s.cause_notified b f i v).frame
  exact ⟨hframe⟩

theorem Unmoved.wakePage (s : State) (p : Nat) : Unmoved s (s.wakePage p) := ⟨rfl⟩
theorem Unmoved.noteUc (s : State) (p : Nat) : Unmoved s (s.noteUc p) := ⟨rfl⟩

section
variable {s t : State} (h : Unmoved s t)
include h

theorem Unmoved.parts : t.parts = s.parts := by
  have hframe := congrArg State.parts h.frame
  exact hframe

theorem Unmoved.hbm : t.hbm = s.hbm := by
  have hframe := congrArg State.hbm h.frame
  exact hframe

theorem Unmoved.pagesRetired : t.pagesRetired = s.pagesRetired := by
  have hframe := congrArg State.pagesRetired h.frame
  exact hframe

theorem Unmoved.waiting : t.waiting = s.waiting := by
  have hframe := congrArg State.waiting h.frame
  exact hframe

end

/-- A page stays where it is: the failure latches, and what waits for its lines goes on. -/
def State.retireFailed (s : State) (p : Nat) : State := (s.cause .dmem Reg.DMEM_CAUSE_retire_fail).wakePage p

theorem Unmoved.retireFailed (s : State) (p : Nat) : Unmoved s (s.retireFailed p) := (Unmoved.cause s ..).trans (.wakePage _ p)

theorem State.on_retireFailed (s : State) (p : Nat) : (s.retireFailed p).on Reg.DMEM_CAUSE_retire_fail = true :=
  State.on_cause s .dmem rfl (by decide)

theorem State.retirePage_of_spent {s : State} {p : Nat} (h : s.rg Reg.DMEM_HBM_STATk_spares (p / 2 ^ 22) = 0) :
    s.retirePage p = s.retireFailed p := by
  rw [State.retirePage, if_pos h]
  rfl

/-- A page whose copy met an uncorrectable error. -/
def State.retireSpoilt (s : State) (p : Nat) : State :=
  ((s.noteUc p).retireFailed p).cause .dmem (ucField (p / 2 ^ 22))

theorem Unmoved.retireSpoilt (s : State) (p : Nat) : Unmoved s (s.retireSpoilt p) :=
  ((Unmoved.noteUc s p).trans (.retireFailed _ p)).trans (.cause _ ..)

theorem ucField_spec (k : Nat) : (ucField k).width = 1 ∧ fieldKey (ucField k) 0 0 < reportKeys ∧
    fieldKey Reg.DMEM_CAUSE_retire_fail 0 0 ≠ fieldKey (ucField k) 0 0 ∧ fieldKey Reg.DMEM_RETIRE_busy 0 0 ≠ fieldKey (ucField k) 0 0 := by
  rw [ucField]
  split <;> decide

theorem State.on_retireSpoilt (s : State) (p : Nat) : (s.retireSpoilt p).on Reg.DMEM_CAUSE_retire_fail = true ∧
    (s.retireSpoilt p).on (ucField (p / 2 ^ 22)) = true := by
  obtain ⟨hwidth, hkey, hfail, -⟩ := ucField_spec (p / 2 ^ 22)
  refine ⟨?_, State.on_cause _ .dmem hwidth hkey⟩
  rw [State.on, State.retireSpoilt, State.rg_cause_other _ _ _ (by decide) hfail]
  exact State.on_retireFailed _ p

theorem State.rg_busy_retireFailed (s : State) (p : Nat) : (s.retireFailed p).rg Reg.DMEM_RETIRE_busy = s.rg Reg.DMEM_RETIRE_busy :=
  State.rg_cause_other s .dmem 1 (by decide) (by decide)

theorem State.rg_busy_retireSpoilt (s : State) (p : Nat) : (s.retireSpoilt p).rg Reg.DMEM_RETIRE_busy = s.rg Reg.DMEM_RETIRE_busy := by
  obtain ⟨-, -, -, hbusy⟩ := ucField_spec (p / 2 ^ 22)
  rw [State.retireSpoilt, State.rg_cause_other _ _ _ (by decide) hbusy, State.rg_busy_retireFailed]
  rfl

theorem Tbl.get_keep {α : Type} (t : Tbl α) (f : Nat → Bool) (k : Nat) (d : α) : (t.keep f).get k d = if f k then t.get k d else d := by
  induction t with
  | nil => simp [Tbl.keep, Tbl.get, Tbl.find]
  | cons e t ih =>
    obtain ⟨a, v⟩ := e
    simp only [Tbl.get, Tbl.keep] at ih ⊢
    by_cases hf : f a <;> by_cases ha : a = k <;> simp_all [Tbl.find]

/-! ### A page whose lines no cache holds comes back to HBM (R177) -/

/-- Reach units, directory and the counters of misses apart, nothing has changed, and still no cache holds a line. -/
structure Recalled (s t : State) : Prop where
  frame : { t with reaches := s.reaches, dir := s.dir, regs := s.regs } = s
  regs : ∀ key, key / 2 ^ 21 ≠ Reg.DMEM_R_MISS_misses.addr → t.regs.find key = s.regs.find key
  uncached : t.Uncached

theorem Recalled.refl {s : State} (h : s.Uncached) : Recalled s s := ⟨rfl, fun _ _ => rfl, h⟩

theorem Recalled.trans {s t u : State} (h : Recalled s t) (h' : Recalled t u) : Recalled s u where
  frame := by
    have hframe := congrArg (fun v : State => { v with reaches := s.reaches, dir := s.dir, regs := s.regs }) h'.frame
    exact hframe.trans h.frame
  regs key hkey := (h'.regs key hkey).trans (h.regs key hkey)
  uncached := h'.uncached

section
variable {s : State} (h : s.Uncached)
include h

theorem Recalled.setRch {r : Nat} {x : Reach} (hx : x.cache = [] ∧ x.writeback = []) : Recalled s (s.setRch r x) :=
  ⟨rfl, fun _ _ => rfl, h.setRch hx⟩

theorem Recalled.countMiss {r : Nat} (hr : r < 24) (n : Nat) : Recalled s (s.count Reg.DMEM_R_MISS_misses r n) where
  frame := rfl
  regs key hkey := by
    refine Tbl.find_put_other _ _ fun hmiss => hkey ?_
    simp only [hmiss, fieldKey, Reg.DMEM_R_MISS_misses]
    omega
  uncached := ⟨h.empty, h.still⟩

theorem Recalled.miss {r : Nat} (hr : r < 24) (line stamp : Nat) (own : Bool) : Recalled s (s.miss r line stamp own) := by
  have hset (y : Tbl (Nat × Bool × Bool)) : Recalled s (s.setRch r { s.rch r with requests := y }) := .setRch h (h.empty r)
  rw [State.miss]
  split
  · exact hset _
  · dsimp only
    split
    · exact hset _
    · exact (hset _).trans (.countMiss (hset _).uncached hr 1)

theorem Recalled.rerequestLine {r : Nat} (hr : r < 24) (line : Nat) : Recalled s (s.rerequestLine r line) := by
  rw [State.rerequestLine]
  split
  · rw [State.rerequest]
    split
    · exact .miss h hr ..
    · exact .refl h
  · exact .refl h

/-- The copies of a page leave caches that hold none. -/
theorem Recalled.dropPage (page : Nat) : Recalled s (each (List.range 24) (fun r s => s.modRch r fun x =>
    { x with cache := x.cache.keep fun l => l / 64 ≠ page, writeback := x.writeback.keep fun l => l / 64 ≠ page }) s) := by
  refine each_induction (P := Recalled s) (.refl h) fun r _ t ht => ht.trans (.setRch ht.uncached ?_)
  obtain ⟨hcache, hback⟩ := ht.uncached.empty r
  simp [hcache, hback, Tbl.keep]

theorem Recalled.rerequests (page : Nat) : Recalled s
    (each (List.range 24) (fun r s => each (List.range 64) (fun i s => s.rerequestLine r (page * 64 + i)) s) s) :=
  each_induction (P := Recalled s) (.refl h) fun _ hr _ ht =>
    each_induction (P := Recalled s) ht fun _ _ _ hu => hu.trans (.rerequestLine hu.uncached (List.mem_range.1 hr) _)

theorem Recalled.dropLines (f : Nat → Bool) : Recalled s { s with dir := s.dir.keep f } where
  frame := rfl
  regs _ _ := rfl
  uncached := ⟨h.empty, fun line => by
    have hline := h.still line
    have hget : ({ s with dir := s.dir.keep f } : State).dirLine line = if f line then s.dirLine line else {} := Tbl.get_keep ..
    rw [hget]
    split
    · exact hline
    · rfl⟩

/-- A recall puts every line of the page where it stands already. -/
theorem State.Uncached.recall (hflip : s.on Reg.TST_FLIP_arm = false) (page : Nat) :
    Recalled (s.withPage (page * 64) (page * 64)) (s.recall page) := by
  have hlines : each (List.range 64) (fun i s => s.putLine (page * 64 + i) (s.coherentLine (page * 64 + i))) s =
      s.withPage (page * 64) (page * 64) := h.putLines hflip ..
  have hpage : (s.withPage (page * 64) (page * 64)).Uncached := h.hbm _
  have hdrop := Recalled.dropPage hpage page
  rw [State.recall, hlines]
  exact (hdrop.trans (.dropLines hdrop.uncached _)).trans (.rerequests (Recalled.dropLines hdrop.uncached _).uncached page)

end

end Sys2Proof.Machine
end

section
/-!
PROOFS. A retirement that moves its page to a spare, and what a retirement ends in (R177, R178).
-/
namespace Sys2Proof.Machine
open Sys2Proof.Claims

/-! ### Reach units alone -/

/-- Reach units apart, nothing has changed. -/
structure ReachesOnly (s t : State) : Prop where
  frame : { t with reaches := s.reaches } = s

theorem ReachesOnly.apply {s t : State} (h : ReachesOnly s t) {α : Type} (f : State → α)
    (hf : ∀ (s : State) (x : Tbl Reach), f { s with reaches := x } = f s) : f t = f s := by
  rw [← hf t s.reaches, h.frame]

theorem ReachesOnly.refl (s : State) : ReachesOnly s s := ⟨rfl⟩

theorem ReachesOnly.modRch {s t : State} (h : ReachesOnly s t) (r : Nat) (f : Reach → Reach) : ReachesOnly s (t.modRch r f) := by
  have hframe := h.frame
  exact ⟨hframe⟩

theorem ReachesOnly.each_modRch {s t : State} (h : ReachesOnly s t) (l : List Nat) (f : Reach → Reach) :
    ReachesOnly s (each l (fun r s => s.modRch r f) t) :=
  each_induction (P := ReachesOnly s) h fun r _ _ hu => hu.modRch r f

theorem ReachesOnly.clearTlb (s : State) (stack phys : Nat) : ReachesOnly s (s.clearTlb stack phys) :=
  each_induction (P := ReachesOnly s) (.refl s) fun _ _ _ ht => ht.each_modRch _ _

/-! ### What a page's move leaves -/

/-- The counters of misses apart, no register has changed, nor have partitions, retired pages and what waits. -/
structure Carried (s t : State) : Prop where
  parts : t.parts = s.parts
  retired : t.pagesRetired = s.pagesRetired
  waiting : t.waiting = s.waiting
  regs : ∀ key, key / 2 ^ 21 ≠ Reg.DMEM_R_MISS_misses.addr → t.regs.find key = s.regs.find key

theorem Carried.trans {s t u : State} (h : Carried s t) (h' : Carried t u) : Carried s u where
  parts := h'.parts.trans h.parts
  retired := h'.retired.trans h.retired
  waiting := h'.waiting.trans h.waiting
  regs key hkey := (h'.regs key hkey).trans (h.regs key hkey)

theorem Carried.rg {s t : State} (h : Carried s t) {f : Field} {i : Nat}
    (hkey : fieldKey f i 0 / 2 ^ 21 ≠ Reg.DMEM_R_MISS_misses.addr) : t.rg f i = s.rg f i := by
  rw [State.rg, h.regs _ hkey, State.rg]

theorem Carried.on {s t : State} (h : Carried s t) {f : Field} {i : Nat}
    (hkey : fieldKey f i 0 / 2 ^ 21 ≠ Reg.DMEM_R_MISS_misses.addr) : t.on f i = s.on f i := by
  rw [State.on, h.rg hkey, State.on]

theorem Recalled.carried {s t : State} (h : Recalled s t) : Carried s t where
  parts := by
    have hframe := congrArg State.parts h.frame
    exact hframe
  retired := by
    have hframe := congrArg State.pagesRetired h.frame
    exact hframe
  waiting := by
    have hframe := congrArg State.waiting h.frame
    exact hframe
  regs := h.regs

theorem Recalled.hbm {s t : State} (h : Recalled s t) : t.hbm = s.hbm := by
  have hframe := congrArg State.hbm h.frame
  exact hframe

theorem Carried.setHbm (s : State) (m : Mem 8) : Carried s { s with hbm := m } := ⟨rfl, rfl, rfl, fun _ _ => rfl⟩
theorem Carried.withPage (s : State) (a d : Nat) : Carried s (s.withPage a d) := .setHbm s _
theorem Carried.setBad (s : State) (l : List Nat) : Carried s { s with pagesBad := l } := ⟨rfl, rfl, rfl, fun _ _ => rfl⟩

/-! ### Recall and copy -/

theorem State.withPage_hbm (s : State) (a d : Nat) : (s.withPage a d).hbm = s.hbm.copyLines a d (List.range 64) := by
  rw [State.withPage]

/-- HBM once the page at line a has been recalled, and copied to line d. -/
def Mem.movePage (m : Mem 8) (a d : Nat) : Mem 8 :=
  (m.copyLines a a (List.range 64)).copyLines a d (List.range 64)

theorem Mem.get_movePage (m : Mem 8) {a d i : Nat} (h : a + 64 ≤ d) (hi : i < 4096) :
    Mem.get (m.movePage a d) (d * 64 + i) = Mem.get m (a * 64 + i) := by
  rw [Mem.movePage, Mem.get_copyLines _ (.inr (.inl h)), if_pos (by omega), Mem.get_copyLines _ (.inl rfl), if_pos (by omega)]
  congr 1
  omega

/-- The next spare of a stack. -/
def State.nextSpare (s : State) (k : Nat) : Nat := spareBase + (1024 - s.rg Reg.DMEM_HBM_STATk_spares k)

/-- The state once a page has been recalled, and copied to the next spare. -/
def State.retireCopied (s : State) (p : Nat) : State :=
  (({ s with pagesBad := s.pagesBad.filter (· ≠ p) } : State).recall p).copyPage (p / 2 ^ 22) (p % 2 ^ 22) (s.nextSpare (p / 2 ^ 22))

theorem Recalled.copyPage {s t : State} (h : Recalled s t) (hflip : t.on Reg.TST_FLIP_arm = false) (stack src dst : Nat) :
    Carried s (t.copyPage stack src dst) ∧ (t.copyPage stack src dst).hbm =
      s.hbm.copyLines (stack * 2 ^ 28 + src * 64) (stack * 2 ^ 28 + dst * 64) (List.range 64) := by
  rw [h.uncached.copyPage hflip, State.withPage_hbm, ← h.hbm]
  exact ⟨(h.carried.trans (.setBad t _)).trans (.withPage _ _ _), rfl⟩

theorem State.Uncached.retireCopied {s : State} (h : s.Uncached) (hflip : s.on Reg.TST_FLIP_arm = false) (p : Nat) :
    Carried s (s.retireCopied p) ∧
      (s.retireCopied p).hbm = s.hbm.movePage (p * 64) (p / 2 ^ 22 * 2 ^ 28 + s.nextSpare (p / 2 ^ 22) * 64) := by
  have hrecall := State.Uncached.recall (s := { s with pagesBad := s.pagesBad.filter (· ≠ p) }) ⟨h.empty, h.still⟩ hflip p
  have hstart := (Carried.setBad s (s.pagesBad.filter (· ≠ p))).trans (.withPage _ (p * 64) (p * 64))
  obtain ⟨hcarried, hhbm⟩ := hrecall.copyPage (((hstart.trans hrecall.carried).on (by decide)).trans hflip) (p / 2 ^ 22) (p % 2 ^ 22)
    (s.nextSpare (p / 2 ^ 22))
  have hline : p / 2 ^ 22 * 2 ^ 28 + p % 2 ^ 22 * 64 = p * 64 := by omega
  rw [State.withPage_hbm, hline] at hhbm
  exact ⟨hstart.trans hcarried, hhbm⟩

/-! ### The page stands in its spare -/

/-- The state once the spare is taken. -/
def State.spareTaken (s : State) (p n : Nat) : State :=
  (s.setRg Reg.DMEM_HBM_STATk_spares (p / 2 ^ 22) (n - 1)).clearTlb (p / 2 ^ 22) (p % 2 ^ 22)

/-- The state once partitions name the spare for the page. -/
def State.partsMoved (s : State) (p dst : Nat) : State :=
  { s with pagesRetired := p :: s.pagesRetired,
           parts := s.parts.map fun e => (e.1, e.2.remap (p / 2 ^ 22) (p % 2 ^ 22) dst) }

/-- The state once reaches ask for the lines of the page at its new place. -/
def State.requestsMoved (s : State) (old new : Nat) : State :=
  each (List.range 24) (fun r s => s.modRch r fun x => x.moveRequests old new) s

theorem State.requestsMoved_apply {α : Type} (s : State) (old new : Nat) (f : State → α)
    (hf : ∀ (s : State) (x : Tbl Reach), f { s with reaches := x } = f s) : f (s.requestsMoved old new) = f s :=
  ((ReachesOnly.refl s).each_modRch _ _).apply f hf

theorem State.spareTaken_apply {α : Type} (s : State) (p n : Nat) (f : State → α)
    (hf : ∀ (s : State) (x : Tbl Reach), f { s with reaches := x } = f s) :
    f (s.spareTaken p n) = f (s.setRg Reg.DMEM_HBM_STATk_spares (p / 2 ^ 22) (n - 1)) :=
  (ReachesOnly.clearTlb _ _ _).apply f hf

theorem State.partsMoved_regs (s : State) (p dst : Nat) : (s.partsMoved p dst).regs = s.regs := rfl
theorem State.partsMoved_hbm (s : State) (p dst : Nat) : (s.partsMoved p dst).hbm = s.hbm := rfl
theorem State.partsMoved_waiting (s : State) (p dst : Nat) : (s.partsMoved p dst).waiting = s.waiting := rfl

theorem State.partsMoved_pagesRetired (s : State) (p dst : Nat) : (s.partsMoved p dst).pagesRetired = p :: s.pagesRetired := rfl

theorem State.partsMoved_parts (s : State) (p dst : Nat) :
    (s.partsMoved p dst).parts = s.parts.map fun e => (e.1, e.2.remap (p / 2 ^ 22) (p % 2 ^ 22) dst) := rfl
theorem State.setRg_waiting (s : State) (f : Field) (i v : Nat) : (s.setRg f i v).waiting = s.waiting := rfl

/-- The state once the page stands in its spare. -/
def State.retireMoved (s : State) (p : Nat) : State :=
  (((s.retireCopied p).spareTaken p (s.rg Reg.DMEM_HBM_STATk_spares (p / 2 ^ 22))).partsMoved p (s.nextSpare (p / 2 ^ 22))).requestsMoved p
    (p / 2 ^ 22 * 2 ^ 22 + s.nextSpare (p / 2 ^ 22))

theorem State.retirePage_of_spare {s : State} {p : Nat} (h : s.rg Reg.DMEM_HBM_STATk_spares (p / 2 ^ 22) ≠ 0) :
    s.retirePage p = ((s.retireMoved p).cause .dmem Reg.DMEM_CAUSE_retire_done).unitRetired 6 (p / 2 ^ 22) (p % 2 ^ 22) := by
  rw [State.retirePage, if_neg h]
  rfl

section
variable (s : State) (p : Nat)

theorem State.retireMoved_regs : (s.retireMoved p).regs = ((s.retireCopied p).setRg Reg.DMEM_HBM_STATk_spares (p / 2 ^ 22)
    (s.rg Reg.DMEM_HBM_STATk_spares (p / 2 ^ 22) - 1)).regs := by
  rw [State.retireMoved, State.requestsMoved_apply _ _ _ State.regs fun _ _ => rfl, State.partsMoved_regs,
    State.spareTaken_apply _ _ _ State.regs fun _ _ => rfl]

theorem State.retireMoved_hbm : (s.retireMoved p).hbm = (s.retireCopied p).hbm := by
  rw [State.retireMoved, State.requestsMoved_apply _ _ _ State.hbm fun _ _ => rfl, State.partsMoved_hbm,
    State.spareTaken_apply _ _ _ State.hbm fun _ _ => rfl, State.setRg_hbm]

theorem State.retireMoved_waiting : (s.retireMoved p).waiting = (s.retireCopied p).waiting := by
  rw [State.retireMoved, State.requestsMoved_apply _ _ _ State.waiting fun _ _ => rfl, State.partsMoved_waiting,
    State.spareTaken_apply _ _ _ State.waiting fun _ _ => rfl, State.setRg_waiting]

theorem State.retireMoved_pagesRetired : (s.retireMoved p).pagesRetired = p :: (s.retireCopied p).pagesRetired := by
  rw [State.retireMoved, State.requestsMoved_apply _ _ _ State.pagesRetired fun _ _ => rfl, State.partsMoved_pagesRetired,
    State.spareTaken_apply _ _ _ State.pagesRetired fun _ _ => rfl, State.setRg_pagesRetired]

theorem State.retireMoved_parts : (s.retireMoved p).parts =
    (s.retireCopied p).parts.map fun e => (e.1, e.2.remap (p / 2 ^ 22) (p % 2 ^ 22) (s.nextSpare (p / 2 ^ 22))) := by
  rw [State.retireMoved, State.requestsMoved_apply _ _ _ State.parts fun _ _ => rfl, State.partsMoved_parts,
    State.spareTaken_apply _ _ _ State.parts fun _ _ => rfl, State.setRg_parts]

end

end Sys2Proof.Machine
end

section
/-!
PROOFS. What a retirement ends in (R177, R178).
-/
namespace Sys2Proof.Machine
open Sys2Proof.Claims

section
variable {s t : State} (h : Reports s t)
include h

theorem Reports.pagesRetired : t.pagesRetired = s.pagesRetired := by
  have hframe := congrArg State.pagesRetired h.frame
  exact hframe

theorem Reports.waiting : t.waiting = s.waiting := by
  have hframe := congrArg State.waiting h.frame
  exact hframe

end

/-! ### A page that has moved -/

theorem State.retirePage_reports {s : State} {p : Nat} (h : s.rg Reg.DMEM_HBM_STATk_spares (p / 2 ^ 22) ≠ 0) :
    Reports ((s.retireMoved p).setRg Reg.DMEM_CAUSE_retire_done 0 (Nat.lor ((s.retireMoved p).rg Reg.DMEM_CAUSE_retire_done 0) 1))
      (s.retirePage p) := by
  rw [State.retirePage_of_spare h]
  exact (Reports.cause ..).trans (.unitRetired ..)

theorem part_of_remap {s t : State} {k p dst : Nat} (h : t.parts = s.parts.map fun e => (e.1, e.2.remap k p dst)) (q : Nat) :
    (t.part q).regions = (s.part q).regions.map fun g => g.remap k p dst := by
  have hpart : t.part q = ((s.parts.find q).map fun x => x.remap k p dst).getD {} := by
    rw [State.part, h]
    exact congrArg (fun x : Option Part => x.getD {}) (Tbl.find_map s.parts (fun x => x.remap k p dst) q)
  have hold : s.part q = (s.parts.find q).getD {} := rfl
  rw [hpart, hold]
  cases s.parts.find q <;> rfl

theorem State.rg_spares_retireMoved (s : State) (p : Nat) : (s.retireMoved p).rg Reg.DMEM_HBM_STATk_spares (p / 2 ^ 22) =
    (s.rg Reg.DMEM_HBM_STATk_spares (p / 2 ^ 22) - 1) % 2 ^ 11 := by
  rw [State.rg_of_regs (s.retireMoved_regs p), State.rg_setRg_same]
  rfl

section
variable {s : State} {p : Nat} (hspare : s.rg Reg.DMEM_HBM_STATk_spares (p / 2 ^ 22) ≠ 0)
include hspare

theorem State.on_done_retirePage : (s.retirePage p).on Reg.DMEM_CAUSE_retire_done = true := by
  rw [(State.retirePage_reports hspare).on (by decide), State.on, State.rg_setRg_same]
  exact decide_eq_true (lor_one_mod_two _)

theorem State.rg_spares_retirePage (hp : p / 2 ^ 22 < 2) : (s.retirePage p).rg Reg.DMEM_HBM_STATk_spares (p / 2 ^ 22) =
    (s.rg Reg.DMEM_HBM_STATk_spares (p / 2 ^ 22) - 1) % 2 ^ 11 := by
  rw [(State.retirePage_reports hspare).rg (fieldKey_lt_reportKeys (by decide) (by omega)),
    State.rg_setRg_other _ _ _ _ _ _ (fieldKey_ne_of_place (by decide) (by omega) (by decide)), State.rg_spares_retireMoved]

variable (h : s.Uncached) (hflip : s.on Reg.TST_FLIP_arm = false)
include h hflip

theorem State.Uncached.waiting_retirePage : (s.retirePage p).waiting = s.waiting := by
  obtain ⟨hcarried, -⟩ := h.retireCopied hflip p
  rw [(State.retirePage_reports hspare).waiting, State.setRg_waiting, s.retireMoved_waiting p, hcarried.waiting]

theorem State.Uncached.pagesRetired_retirePage : (s.retirePage p).pagesRetired = p :: s.pagesRetired := by
  obtain ⟨hcarried, -⟩ := h.retireCopied hflip p
  rw [(State.retirePage_reports hspare).pagesRetired, State.setRg_pagesRetired, s.retireMoved_pagesRetired p, hcarried.retired]

theorem State.Uncached.regions_retirePage (q : Nat) : ((s.retirePage p).part q).regions =
    (s.part q).regions.map fun g => g.remap (p / 2 ^ 22) (p % 2 ^ 22) (s.nextSpare (p / 2 ^ 22)) := by
  obtain ⟨hcarried, -⟩ := h.retireCopied hflip p
  refine part_of_remap ?_ q
  rw [(State.retirePage_reports hspare).parts, State.setRg_parts, s.retireMoved_parts p, hcarried.parts]

end

section
variable {s : State} (h : s.Uncached) (hflip : s.on Reg.TST_FLIP_arm = false) {p : Nat} (hp : p / 2 ^ 22 < 2)
include h hflip hp

/-- A register that counts neither misses nor spares is after a move what it was. -/
theorem State.Uncached.rg_retireMoved {f : Field} (hmiss : fieldKey f 0 0 / 2 ^ 21 ≠ Reg.DMEM_R_MISS_misses.addr)
    (hplace : f.place ≠ Reg.DMEM_HBM_STATk_spares.place) : (s.retireMoved p).rg f = s.rg f := by
  obtain ⟨hcarried, -⟩ := h.retireCopied hflip p
  rw [State.rg_of_regs (s.retireMoved_regs p), State.rg_setRg_other _ _ _ _ _ _ (fieldKey_ne_of_place hplace (by decide) (by omega)),
    hcarried.rg hmiss]

variable (hspare : s.rg Reg.DMEM_HBM_STATk_spares (p / 2 ^ 22) ≠ 0)
include hspare

theorem State.Uncached.rg_busy_retirePage : (s.retirePage p).rg Reg.DMEM_RETIRE_busy = s.rg Reg.DMEM_RETIRE_busy := by
  rw [(State.retirePage_reports hspare).rg (by decide), State.rg_setRg_other _ _ _ _ _ _ (by decide),
    h.rg_retireMoved hflip hp (by decide) (by decide)]

theorem State.Uncached.hbm_retirePage (hring : s.on Reg.WEIR_CTRL_ring_en = false) : (s.retirePage p).hbm =
    s.hbm.movePage (p * 64) (p / 2 ^ 22 * 2 ^ 28 + s.nextSpare (p / 2 ^ 22) * 64) := by
  obtain ⟨-, hhbm⟩ := h.retireCopied hflip p
  have hoff : ((s.retireMoved p).cause .dmem Reg.DMEM_CAUSE_retire_done).on Reg.WEIR_CTRL_ring_en = false := by
    rw [State.on, State.rg_of_regs (State.cause_regs ..), State.rg_setRg_other _ _ _ _ _ _ (by decide),
      h.rg_retireMoved hflip hp (by decide) (by decide)]
    exact hring
  rw [State.retirePage_of_spare hspare, State.unitRetired, State.alarm_hbm_of_ringOff hoff (by decide), State.cause_hbm,
    s.retireMoved_hbm p, hhbm]

end

/-! ### The end of a retirement -/

/-- DMEM_RETIRE once it is free again. -/
def State.retireFreed (s : State) : State := { s.setRg Reg.DMEM_RETIRE_busy 0 0 with retiring := none }

theorem State.rg_retireFreed (s : State) {f : Field} {i : Nat} (h : fieldKey f i 0 ≠ fieldKey Reg.DMEM_RETIRE_busy 0 0) :
    s.retireFreed.rg f i = s.rg f i := State.rg_setRg_other s _ _ _ _ _ h

theorem State.retireNext_of_idle {s : State} (h : s.retireQueue = []) : s.retireNext = s := by
  rw [State.retireNext, h]

/-- A retirement ends in DMEM_RETIRE free, and in what becomes of its page. -/
theorem exec_retireDone {s t : State} {p : Nat} {uc : Bool} (hretiring : s.retiring = some p) (hqueue : s.retireQueue = [])
    (hend : (if uc = true ∧ s.retireFreed.rg Reg.DMEM_HBM_STATk_spares (p / 2 ^ 22) ≠ 0 then s.retireFreed.retireSpoilt p
      else s.retireFreed.retirePage p) = t)
    (hwaiting : t.waiting = s.retireFreed.waiting) (hbusy : t.rg Reg.DMEM_RETIRE_busy = s.retireFreed.rg Reg.DMEM_RETIRE_busy) :
    exec (.retireDone uc) s = .next t ∧ t.retiring = none ∧ t.on Reg.DMEM_RETIRE_busy = false := by
  have hpending : t.pending = s.pending := congrArg (fun w => w.1) hwaiting
  have hnone : t.retiring = none := congrArg (fun w => w.2.1) hwaiting
  have hempty : t.retireQueue = s.retireQueue := congrArg (fun w => w.2.2) hwaiting
  have hstep : s.retireEnd uc = t := by
    refine Eq.trans ?_ (State.retireNext_of_idle (hempty.trans hqueue))
    rw [← hend, State.retireEnd, hretiring]
    rfl
  have hfree : s.retireFreed.rg Reg.DMEM_RETIRE_busy = 0 := State.rg_setRg_same ..
  refine ⟨?_, hnone, by rw [State.on, hbusy, hfree]; rfl⟩
  change done s (s.retireEnd uc) = _
  rw [hstep, done_of_pending hpending]

/-! ### The three ends of a retirement -/

/-- A failed retirement: the failure latches, and the page stays. -/
structure RetireFails (s u : State) : Prop where
  latched : u.on Reg.DMEM_CAUSE_retire_fail = true
  parts : u.parts = s.parts
  hbm : u.hbm = s.hbm
  retired : u.pagesRetired = s.pagesRetired

theorem State.rg_spares_retireFreed (s : State) {p : Nat} (hp : p / 2 ^ 22 < 2) : s.retireFreed.rg Reg.DMEM_HBM_STATk_spares (p / 2 ^ 22) =
    s.rg Reg.DMEM_HBM_STATk_spares (p / 2 ^ 22) :=
  s.rg_retireFreed (fieldKey_ne_of_place (by decide) (by omega) (by decide))

section
variable {s : State} {p : Nat} (hretiring : s.retiring = some p) (hqueue : s.retireQueue = []) (hp : p / 2 ^ 22 < 2)
include hretiring hqueue hp

/-- With no spare left the page stays. -/
theorem exec_retireDone_of_spent (hspare : s.rg Reg.DMEM_HBM_STATk_spares (p / 2 ^ 22) = 0) (uc : Bool) :
    ∃ u, exec (.retireDone uc) s = .next u ∧ u.retiring = none ∧ u.on Reg.DMEM_RETIRE_busy = false ∧ RetireFails s u := by
  have hfreed := (s.rg_spares_retireFreed hp).trans hspare
  have hunmoved := Unmoved.retireFailed s.retireFreed p
  obtain ⟨hstep, hnone, hbusy⟩ := exec_retireDone (uc := uc) hretiring hqueue
    ((if_neg fun h => h.2 hfreed).trans (State.retirePage_of_spent hfreed)) hunmoved.waiting (s.retireFreed.rg_busy_retireFailed p)
  exact ⟨_, hstep, hnone, hbusy, s.retireFreed.on_retireFailed p, hunmoved.parts, hunmoved.hbm, hunmoved.pagesRetired⟩

/-- A page that cannot be read whole stays. -/
theorem exec_retireDone_of_uncorrectable (hspare : s.rg Reg.DMEM_HBM_STATk_spares (p / 2 ^ 22) ≠ 0) :
    ∃ u, exec (.retireDone true) s = .next u ∧ u.retiring = none ∧ u.on Reg.DMEM_RETIRE_busy = false ∧ RetireFails s u ∧
      u.on (ucField (p / 2 ^ 22)) = true := by
  have hfreed := (s.rg_spares_retireFreed hp).trans_ne hspare
  have hunmoved := Unmoved.retireSpoilt s.retireFreed p
  obtain ⟨hfail, huc⟩ := s.retireFreed.on_retireSpoilt p
  obtain ⟨hstep, hnone, hbusy⟩ := exec_retireDone hretiring hqueue (if_pos ⟨rfl, hfreed⟩) hunmoved.waiting
    (s.retireFreed.rg_busy_retireSpoilt p)
  exact ⟨_, hstep, hnone, hbusy, ⟨hfail, hunmoved.parts, hunmoved.hbm, hunmoved.pagesRetired⟩, huc⟩

/-- Else the page moves to the next spare. -/
theorem exec_retireDone_of_spare (hspare : s.rg Reg.DMEM_HBM_STATk_spares (p / 2 ^ 22) ≠ 0) (h : s.Uncached)
    (hflip : s.on Reg.TST_FLIP_arm = false) :
    exec (.retireDone false) s = .next (s.retireFreed.retirePage p) ∧ (s.retireFreed.retirePage p).retiring = none ∧
      (s.retireFreed.retirePage p).on Reg.DMEM_RETIRE_busy = false := by
  have hfreed := (s.rg_spares_retireFreed hp).trans_ne hspare
  have hcached : s.retireFreed.Uncached := ⟨h.empty, h.still⟩
  have hunarmed : s.retireFreed.on Reg.TST_FLIP_arm = false := by rw [State.on, s.rg_retireFreed (by decide)]; exact hflip
  exact exec_retireDone hretiring hqueue (if_neg fun h => Bool.false_ne_true h.1) (hcached.waiting_retirePage hfreed hunarmed)
    (hcached.rg_busy_retirePage hunarmed hp hfreed)

end

end Sys2Proof.Machine
end

section
/-!
PROOFS. Reports of the HBM stacks, and the statement PagesAndReports (R175, R177, R178, R184 to R186, R188, R332).
-/
namespace Sys2Proof.Machine
open Sys2Proof.Claims

theorem page_line (k q : Nat) : k * 2 ^ 28 + q * 64 = (k * 2 ^ 22 + q) * 64 := by omega

/-- A byte of a page of a stack, as a byte of a line. -/
theorem page_addr (k q i : Nat) : k * 2 ^ 34 + q * 4096 + i = (k * 2 ^ 22 + q) * 64 * 64 + i := by omega

/-- Retirement done, as the statement PagesAndReports reads it. -/
theorem exec_retireDone_of_moved {s : State} {k p : Nat} (hretiring : s.retiring = some (k * 2 ^ 22 + p)) (hk : k < 2)
    (hp : p < spareBase) (hflip : s.on Reg.TST_FLIP_arm = false) (hring : s.on Reg.WEIR_CTRL_ring_en = false) (h : s.Uncached)
    (hqueue : s.retireQueue = []) {n : Nat} (hn : s.rg Reg.DMEM_HBM_STATk_spares k = n) (hspare : n ≠ 0) (hmax : n ≤ 1024) :
    ∃ u, exec (.retireDone false) s = .next u ∧ u.retiring = none ∧ u.on Reg.DMEM_RETIRE_busy = false ∧
      u.on Reg.DMEM_CAUSE_retire_done = true ∧
      u.rg Reg.DMEM_HBM_STATk_spares k = n - 1 ∧ u.pagesRetired = (k * 2 ^ 22 + p) :: s.pagesRetired ∧
      (∀ i, i < 4096 → Mem.get u.hbm (k * 2 ^ 34 + (spareBase + 1024 - n) * 4096 + i) = Mem.get s.hbm (k * 2 ^ 34 + p * 4096 + i)) ∧
      ∀ t, (u.part t).regions = (s.part t).regions.map fun g => g.remap k p (spareBase + 1024 - n) := by
  have hbase : spareBase = 4176896 := rfl
  have hstack : (k * 2 ^ 22 + p) / 2 ^ 22 = k := by omega
  have hpage : (k * 2 ^ 22 + p) % 2 ^ 22 = p := by omega
  have hfreed : s.retireFreed.rg Reg.DMEM_HBM_STATk_spares ((k * 2 ^ 22 + p) / 2 ^ 22) = n := by
    rw [s.rg_spares_retireFreed (hstack.trans_lt hk), hstack, hn]
  have hnext : s.retireFreed.nextSpare ((k * 2 ^ 22 + p) / 2 ^ 22) = spareBase + 1024 - n := by
    rw [State.nextSpare, hfreed]
    exact (Nat.add_sub_assoc hmax _).symm
  have hsome := hfreed.trans_ne hspare
  have hcached : s.retireFreed.Uncached := ⟨h.empty, h.still⟩
  have hunarmed : s.retireFreed.on Reg.TST_FLIP_arm = false := by rw [State.on, s.rg_retireFreed (by decide)]; exact hflip
  have hoff : s.retireFreed.on Reg.WEIR_CTRL_ring_en = false := by rw [State.on, s.rg_retireFreed (by decide)]; exact hring
  obtain ⟨hstep, hnone, hbusy⟩ := exec_retireDone_of_spare hretiring hqueue (hstack.trans_lt hk) (by rw [hstack, hn]; exact hspare)
    h hflip
  have hspares := State.rg_spares_retirePage hsome (hstack.trans_lt hk)
  have hhbm := hcached.hbm_retirePage hunarmed (hstack.trans_lt hk) hsome hoff
  have hregions := hcached.regions_retirePage hsome hunarmed
  rw [hnext, hstack] at hhbm
  rw [hnext, hstack, hpage] at hregions
  rw [hfreed, hstack, Nat.mod_eq_of_lt (by omega)] at hspares
  refine ⟨_, hstep, hnone, hbusy, State.on_done_retirePage hsome, hspares, hcached.pagesRetired_retirePage hsome hunarmed,
    fun i hi => ?_, hregions⟩
  rw [hhbm, page_addr k p i, page_addr k (spareBase + 1024 - n) i, page_line]
  exact Mem.get_movePage s.hbm (by omega) hi

/-! ### Registers that the accounting of an error leaves (R324, R345) -/

/-- A field of design memory, of the test and error block, or of the weir. -/
def Field.ofErrors (f : Field) : Bool :=
  decide (f.addr / 2 ^ 20 = 3 ∨ f.addr / 2 ^ 20 = 6 ∨ f.addr / 2 ^ 20 = 12) && decide (f.lo < 32)

/-- No register but those of design memory, of the test and error block, and of the weir has changed. -/
structure ErrorRegs (s t : State) : Prop where
  regs : ∀ key, key / 2 ^ 41 ≠ 3 → key / 2 ^ 41 ≠ 6 → key / 2 ^ 41 ≠ 12 → t.regs.find key = s.regs.find key

theorem ErrorRegs.of_eq {s t : State} (h : t.regs = s.regs) : ErrorRegs s t := ⟨fun _ _ _ _ => by rw [h]⟩

theorem ErrorRegs.refl (s : State) : ErrorRegs s s := .of_eq rfl

theorem ErrorRegs.trans {s t u : State} (h : ErrorRegs s t) (h' : ErrorRegs t u) : ErrorRegs s u :=
  ⟨fun key h3 h6 h12 => (h'.regs key h3 h6 h12).trans (h.regs key h3 h6 h12)⟩

theorem ErrorRegs.ite {s t u : State} {p : Prop} [Decidable p] (ht : ErrorRegs s t) (hu : ErrorRegs s u) :
    ErrorRegs s (if p then t else u) := by
  split
  · exact ht
  · exact hu

theorem ErrorRegs.setRg (s : State) {f : Field} {i : Nat} (v : Nat) (hf : f.ofErrors = true) (hi : i < 8192) :
    ErrorRegs s (s.setRg f i v) := by
  simp only [Field.ofErrors, Bool.and_eq_true, decide_eq_true_eq] at hf
  have hblock : fieldKey f i 0 / 2 ^ 41 = f.addr / 2 ^ 20 := by
    simp only [fieldKey]
    omega
  refine ⟨fun key h3 h6 h12 => Tbl.find_put_other _ _ fun hkey => ?_⟩
  rw [hkey, hblock] at h3 h6 h12
  omega

theorem ErrorRegs.cause (s : State) (b : Blk) {f : Field} {i : Nat} (v : Nat) (hf : f.ofErrors = true) (hi : i < 8192) :
    ErrorRegs s (s.cause b f i v) :=
  (ErrorRegs.setRg s _ hf hi).trans (.of_eq (s.cause_regs b f i v))

theorem ErrorRegs.edge (s : State) (n : Nat) : ErrorRegs s (s.edge n) := .of_eq (Notified.edge s n).regs

theorem ErrorRegs.ringPoll (s : State) : ErrorRegs s s.ringPoll :=
  .ite (.ite (.setRg s _ (by decide) (by decide)) (.refl s)) (.refl s)

theorem ErrorRegs.of_ringTry {s u : State} {n : Nat} {b : Bool} (h : s.ringTry n = (b, u)) : ErrorRegs s u := by
  have htry : ErrorRegs s (s.ringTry n).2 := by
    simp only [State.ringTry]
    split
    · exact .refl s
    · split
      · exact .ringPoll s
      · exact (ErrorRegs.ringPoll s).trans (.cause _ .weir 1 (by decide) (by decide))
  rwa [h] at htry

theorem ErrorRegs.ringWrite (s : State) (e : Event) : ErrorRegs s (s.ringWrite e) := by
  have hput : ErrorRegs s (s.hbmPut (s.ringSlot (s.rg Reg.WEIR_RING_WR_index)) (s.recordBytes e)) := .of_eq rfl
  have hwrite := hput.trans (.setRg (f := Reg.WEIR_RING_WR_index) (i := 0) _ ((s.rg Reg.WEIR_RING_WR_index + 1) % s.ringSize)
    (by decide) (by decide))
  exact .ite (hwrite.trans (.cause _ .weir 1 (by decide) (by decide))) hwrite

theorem ErrorRegs.dropLog (s : State) {b : Nat} (hb : b < 8192) : ErrorRegs s (s.dropLog b) :=
  (ErrorRegs.setRg (f := Reg.WEIR_DROPb_drops) s _ (by decide) hb).trans (.of_eq rfl)

section
variable {owner : Nat} (howner : owner < 8192)
include howner

theorem ErrorRegs.marker (b : Nat) (s : State) : ErrorRegs s (State.marker owner b s) := by
  simp only [State.marker]
  split
  · exact .refl s
  · split
    · next htry =>
      exact (((ErrorRegs.of_ringTry htry).trans (.setRg (i := owner) _ _ (by decide) howner)).trans (.ringWrite _ _)).trans (.of_eq rfl)
    · next htry => exact .of_ringTry htry

theorem ErrorRegs.markers (s : State) : ErrorRegs s (s.markers owner) :=
  each_induction (P := ErrorRegs s) (.refl s) fun b _ t ht => ht.trans (.marker howner b t)

theorem ErrorRegs.log (s : State) {source : Nat} (hsource : owner * 16 + source / 4096 < 8192) (code data : Nat) :
    ErrorRegs s (s.log owner source code data) := by
  have hmarkers := ErrorRegs.markers howner s
  simp only [State.log]
  split
  · exact hmarkers.trans (.dropLog _ hsource)
  · have htokens := hmarkers.trans (.setRg (f := Reg.WEIR_BKT_tokens) (i := owner) (s.markers owner)
      ((s.markers owner).rg Reg.WEIR_BKT_tokens owner - 1) (by decide) howner)
    split
    · exact htokens
    · split
      · next htry => exact (htokens.trans (.of_ringTry htry)).trans (.ringWrite _ _)
      · next htry => exact (htokens.trans (.of_ringTry htry)).trans (.dropLog _ hsource)

end

theorem ErrorRegs.elog (s : State) {e : ElogEntry} (he : e.cls < 16) : ErrorRegs s (s.elog e) := by
  have hlogged : ErrorRegs s { s with tst := { s.tst with elog := s.tst.elog ++ [e] } } := .of_eq rfl
  have hsource : 16 * 16 + srcOf 9 e.cls / 4096 < 8192 := by
    simp only [srcOf]
    omega
  exact .ite (((hlogged.trans (.setRg _ _ (by decide) (by decide))).trans (.log (by decide) _ hsource _ _)).trans (.edge _ 57))
    (.setRg s _ (by decide) (by decide))

theorem ErrorRegs.tally (s : State) (uc : Bool) (source : Nat) {cls : Nat} (hcls : cls < 16) (inst addr : Nat) :
    ErrorRegs s (s.tally uc source cls inst addr) := by
  unfold State.tally
  extract_lets mine _ s1 old new s2 _ s3 room s4
  have hmine : ErrorRegs s s1 := .ite (.of_eq rfl) (.refl s)
  have hbucket : ErrorRegs s s3 := (hmine.trans (.elog s1 hcls)).trans (.of_eq rfl)
  have hfull : ErrorRegs s s4 := hbucket.trans (.elog s3 hcls)
  exact .ite (.ite hfull (hfull.trans (.edge s4 57))) hbucket

section
variable {s t : State} (h : ErrorRegs s t)
include h

theorem ErrorRegs.rg {f : Field} {i : Nat} (hkey : fieldKey f i 0 / 2 ^ 41 ≠ 3 ∧ fieldKey f i 0 / 2 ^ 41 ≠ 6 ∧
    fieldKey f i 0 / 2 ^ 41 ≠ 12) : t.rg f i = s.rg f i := by
  rw [State.rg, h.regs _ hkey.1 hkey.2.1 hkey.2.2, State.rg]

/-- The system keeper serves as before, if there is a keeper of its number. -/
theorem ErrorRegs.supervised (hsystem : s.system < 4) : t.supervised = s.supervised := by
  have hmode : t.mode = s.mode := h.rg (by decide)
  have hsame : t.system = s.system := h.rg (by decide)
  have hrun : t.rg Reg.KPR_CTRL_run s.system = s.rg Reg.KPR_CTRL_run s.system := by
    refine h.rg ?_
    simp only [fieldKey, Reg.KPR_CTRL_run]
    omega
  rw [State.supervised, hmode, hsame, State.on, hrun, State.supervised, State.on]

theorem ErrorRegs.bufferOf {p : Nat} (hp : p / 2 ^ 22 < 2) : t.bufferOf p = s.bufferOf p := by
  have hbase : t.rg Reg.LDG_POOLk_base (p / 2 ^ 22) = s.rg Reg.LDG_POOLk_base (p / 2 ^ 22) := by
    refine h.rg ?_
    simp only [fieldKey, Reg.LDG_POOLk_base]
    omega
  rw [State.bufferOf, hbase, State.bufferOf]

end

end Sys2Proof.Machine
end

section
/-!
PROOFS. Reports of the HBM stacks (R184 to R186, R332), and the statement PagesAndReports.
-/
namespace Sys2Proof.Machine
open Sys2Proof.Claims

section
variable {s t : State} (h : Reports s t)
include h

theorem Reports.pageReports : t.pageReports = s.pageReports := by
  have hframe := congrArg State.pageReports h.frame
  exact hframe

theorem Reports.power : t.power = s.power := by
  have hframe := congrArg State.power h.frame
  exact hframe

theorem Reports.pagesBad : t.pagesBad = s.pagesBad := by
  have hframe := congrArg State.pagesBad h.frame
  exact hframe

end

/-! ### What keeper 0 does about a page (R332) -/

/-- The state once keeper 0 has named a page in DMEM_RETIRE and its retirement has begun. -/
def State.retireNamed (s : State) (p : Nat) : State :=
  { (({ s with retireQueue := [] } : State).nameRetire p).setRg Reg.DMEM_RETIRE_busy 0 1 with retiring := some p }

theorem State.on_busy_retireNamed (s : State) (p : Nat) : (s.retireNamed p).on Reg.DMEM_RETIRE_busy = true :=
  congrArg (fun n => decide (n = 1)) (State.rg_setRg_same _ Reg.DMEM_RETIRE_busy 0 1)

theorem State.rg_page_retireNamed (s : State) (p : Nat) : (s.retireNamed p).rg Reg.DMEM_RETIRE_page = p % 2 ^ 22 := by
  refine (State.rg_setRg_other _ Reg.DMEM_RETIRE_busy Reg.DMEM_RETIRE_page 0 0 1 (by decide)).trans ?_
  rw [State.nameRetire, State.rg_setRg_same]
  exact Nat.mod_mod ..

theorem State.rg_stack_retireNamed (s : State) (p : Nat) : (s.retireNamed p).rg Reg.DMEM_RETIRE_stack = p / 2 ^ 22 % 2 := by
  refine (State.rg_setRg_other _ Reg.DMEM_RETIRE_busy Reg.DMEM_RETIRE_stack 0 0 1 (by decide)).trans ?_
  rw [State.nameRetire, State.rg_setRg_other _ _ _ _ _ _ (by decide), State.rg_setRg_same]
  rfl

/-- With nothing in progress and nothing waiting, a page that is not of the ledger's pools retires at once. -/
theorem State.wantRetire_of_free {s : State} {p : Nat} (hnew : p ∉ s.pagesRetired) (hretiring : s.retiring = none)
    (hqueue : s.retireQueue = []) (hbusy : s.on Reg.DMEM_RETIRE_busy = false) (hbuffer : s.bufferOf p = none) :
    s.wantRetire p = s.retireNamed p := by
  have hnamed : (({ s with retireQueue := [] } : State).nameRetire p).on Reg.DMEM_RETIRE_busy = false := by
    rw [State.on, State.nameRetire, State.rg_setRg_other _ _ _ _ _ _ (by decide), State.rg_setRg_other _ _ _ _ _ _ (by decide)]
    exact hbusy
  have hskip : ¬(s.pagesRetired.contains p = true ∨ s.retireQueue.contains p = true ∨ s.retiring = some p) := by
    simp [hnew, hretiring, hqueue]
  have hjoin : p / 2 ^ 22 * 2 ^ 22 + p % 2 ^ 22 = p := by omega
  have hnext : s.wantRetire p =
      (({ s with retireQueue := [] } : State).nameRetire p).retireBegin (p / 2 ^ 22) (p % 2 ^ 22) := by
    have hoff : ({ s with retireQueue := [p] } : State).on Reg.DMEM_RETIRE_busy = false := hbusy
    rw [State.wantRetire, if_neg hskip, hbuffer]
    simp only [Option.isSome_none, Bool.false_eq_true, if_false, hqueue, List.nil_append, hoff, State.retireNext]
  rw [hnext, State.retireBegin, hnamed, if_neg Bool.false_ne_true, hjoin]
  rfl

/-- The state once the reports of a page have called for its retirement. -/
def State.reportsTaken (s : State) (p : Nat) : State :=
  { s with
    pageReports := ((p, s.power.time) :: s.pageReports.filter fun e => decide (s.power.time < e.2 + 1000000000)).filter fun e => e.1 ≠ p }

theorem State.pageCorrected_of_frequent {s : State} {p : Nat}
    (h : 3 ≤ ((s.pageReports.filter fun e => decide (s.power.time < e.2 + 1000000000)).filter fun e => decide (e.1 = p)).length) :
    s.pageCorrected p = (s.reportsTaken p).wantRetire p := by
  have hfour : 4 ≤ (((p, s.power.time) :: s.pageReports.filter fun e => decide (s.power.time < e.2 + 1000000000)).filter
      fun e => decide (e.1 = p)).length := by
    rw [List.filter_cons_of_pos (by simp), List.length_cons]
    omega
  exact if_pos hfour

/-- A corrected report after whose accounting no system keeper serves is only accounted. -/
theorem exec_hbmErrorReport_of_unserved {s : State} {k : Fin 2} {page : BitVec 22}
    (h : (s.tally false 0 6 k.val page.toNat).supervised = false) :
    exec (.hbmErrorReport k page false) s = .next (s.tally false 0 6 k.val page.toNat) := by
  have hstep : exec (.hbmErrorReport k page false) s =
      done s ((s.tally false 0 6 k.val page.toNat).answerReport (k.val * 2 ^ 22 + page.toNat) false) := rfl
  rw [hstep, State.answerReport, if_pos h]
  exact done_of_pending (Reports.tally s ..).pending

section
variable {s : State} {k : Fin 2} {page : BitVec 22} (hsystem : s.system < 4)
include hsystem

/-- While no system keeper serves, a corrected report is only accounted. -/
theorem exec_hbmErrorReport_of_unsupervised (h : s.supervised = false) :
    exec (.hbmErrorReport k page false) s = .next (s.tally false 0 6 k.val page.toNat) :=
  exec_hbmErrorReport_of_unserved (((ErrorRegs.tally s false 0 (cls := 6) (by decide) k.val page.toNat).supervised hsystem).trans h)

/-- While it serves, the fourth corrected report of a page within a second retires the page. -/
theorem exec_hbmErrorReport_of_frequent (h : s.supervised = true) {p : Nat} (hp : k.val * 2 ^ 22 + page.toNat = p)
    (hoften : 3 ≤ ((s.pageReports.filter fun e => decide (s.power.time < e.2 + 1000000000)).filter fun e => decide (e.1 = p)).length)
    (hnew : p ∉ s.pagesRetired) (hretiring : s.retiring = none) (hqueue : s.retireQueue = [])
    (hbusy : s.on Reg.DMEM_RETIRE_busy = false) (hbuffer : s.bufferOf p = none) :
    ∃ u, exec (.hbmErrorReport k page false) s = .next u ∧ u.retiring = some p ∧ u.on Reg.DMEM_RETIRE_busy = true ∧
      u.rg Reg.DMEM_RETIRE_stack 0 = k.val ∧ u.rg Reg.DMEM_RETIRE_page 0 = page.toNat := by
  have hpage := page.isLt
  have hstack : p / 2 ^ 22 = k.val := by omega
  have hplace : p % 2 ^ 22 = page.toNat := by omega
  have hregs := ErrorRegs.tally s false 0 (cls := 6) (by decide) k.val page.toNat
  have hreport := Reports.tally s false 0 6 k.val page.toNat
  generalize hu : s.tally false 0 6 k.val page.toNat = u at hregs hreport
  rw [← hreport.pageReports, ← hreport.power] at hoften
  have hstep : u.answerReport p false = (u.reportsTaken p).wantRetire p := by
    rw [State.answerReport, (hregs.supervised hsystem).trans h, if_neg (by decide), if_neg (by decide),
      State.pageCorrected_of_frequent hoften]
  have hretire : (u.reportsTaken p).wantRetire p = (u.reportsTaken p).retireNamed p :=
    State.wantRetire_of_free (by rw [← hreport.pagesRetired] at hnew; exact hnew)
    ((congrArg (fun w => w.2.1) hreport.waiting).trans hretiring) ((congrArg (fun w => w.2.2) hreport.waiting).trans hqueue)
    ((hreport.on (by decide)).trans hbusy) ((hregs.bufferOf (by omega)).trans hbuffer)
  refine ⟨(u.reportsTaken p).wantRetire p, ?_, ?_⟩
  · change done s ((s.tally false 0 6 k.val page.toNat).answerReport (k.val * 2 ^ 22 + page.toNat) false) = _
    rw [hu, hp, hstep, done_of_pending]
    rw [hretire]
    exact hreport.pending
  · rw [hretire, State.rg_stack_retireNamed, State.rg_page_retireNamed, hstack, hplace, Nat.mod_eq_of_lt k.isLt]
    exact ⟨rfl, State.on_busy_retireNamed _ p, rfl, rfl⟩

end

/-! ### An uncorrectable report -/

/-- Partitions apart, and the count of free choices, nothing has changed. -/
structure PartsOnly (s t : State) : Prop where
  frame : { t with parts := s.parts, freeCtr := s.freeCtr } = s

theorem PartsOnly.refl (s : State) : PartsOnly s s := ⟨rfl⟩

theorem PartsOnly.modPart {s t : State} (h : PartsOnly s t) (q : Nat) (f : Part → Part) : PartsOnly s (t.modPart q f) := by
  have hframe := h.frame
  exact ⟨hframe⟩

theorem PartsOnly.setFree {s t : State} (h : PartsOnly s t) (n : Nat) : PartsOnly s { t with freeCtr := n } := by
  have hframe := h.frame
  exact ⟨hframe⟩

/-- The state with a page known as lost. -/
def State.knownLost (s : State) (p : Nat) : State := { s with pagesBad := if s.pagesBad.contains p then s.pagesBad else p :: s.pagesBad }

/-- What else a lost page changes is its partitions' alone. -/
theorem PartsOnly.pageLost (s : State) (p : Nat) : PartsOnly (s.knownLost p) (s.pageLost p) := by
  have hcontainers (b : Bool) : PartsOnly (s.knownLost p) (if b = true ∨ spareBase + 1024 ≤ p % 2 ^ 22 then
      each (which 16 (s.knownLost p).loaded) (fun t s => { s.modPart t fun x => { x with conLost := s.freeCtr :: x.conLost } with
        freeCtr := s.freeCtr + 1 }) (s.knownLost p) else s.knownLost p) := by
    split
    · exact each_induction (P := PartsOnly (s.knownLost p)) (.refl _) fun t _ u hu => (hu.modPart t _).setFree _
    · exact .refl _
  refine each_induction (P := PartsOnly (s.knownLost p)) (hcontainers _) fun t _ u hu => ?_
  refine each_induction (P := PartsOnly (s.knownLost p)) hu fun b _ w hw => ?_
  dsimp only
  split
  · exact ((hw.modPart t _).modPart t _).setFree _
  · exact hw.modPart t _

theorem State.pageLost_regs (s : State) (p : Nat) : (s.pageLost p).regs = s.regs := by
  have hframe := congrArg State.regs (PartsOnly.pageLost s p).frame
  exact hframe

theorem State.pageLost_pending (s : State) (p : Nat) : (s.pageLost p).pending = s.pending := by
  have hframe := congrArg State.pending (PartsOnly.pageLost s p).frame
  exact hframe

theorem State.mem_pagesBad_pageLost (s : State) (p : Nat) : p ∈ (s.pageLost p).pagesBad := by
  have hframe : (s.pageLost p).pagesBad = if s.pagesBad.contains p then s.pagesBad else p :: s.pagesBad :=
    congrArg State.pagesBad (PartsOnly.pageLost s p).frame
  rw [hframe]
  split
  · next h => exact List.contains_iff_mem.1 h
  · exact List.mem_cons_self

/-- What keeper 0 does about a page with an uncorrectable error: the page stays known as lost, or leaves use. -/
structure Answered (k p : Nat) (s t : State) : Prop where
  pending : t.pending = s.pending
  latched : s.on (ucField k) = true → t.on (ucField k) = true
  known : p ∈ s.pagesBad → p ∈ t.pagesBad ∨ p ∈ t.pagesRetired

theorem Answered.refl (k p : Nat) (s : State) : Answered k p s s := ⟨rfl, id, .inl⟩

theorem ucField_ne_retire (k : Nat) : fieldKey (ucField k) 0 0 ≠ fieldKey Reg.DMEM_RETIRE_busy 0 0 ∧
    fieldKey (ucField k) 0 0 ≠ fieldKey Reg.DMEM_RETIRE_stack 0 0 ∧ fieldKey (ucField k) 0 0 ≠ fieldKey Reg.DMEM_RETIRE_page 0 0 := by
  rw [ucField]
  split <;> decide

theorem Answered.retireNext (k p : Nat) (s : State) : Answered k p s s.retireNext := by
  obtain ⟨hbusy, hstack, hpage⟩ := ucField_ne_retire k
  rw [State.retireNext]
  split
  · next q rest _ =>
    let v : State := { s with retireQueue := rest }
    have hnamed : (v.nameRetire q).rg (ucField k) = s.rg (ucField k) := by
      rw [State.nameRetire, State.rg_setRg_other _ _ _ _ _ _ hpage, State.rg_setRg_other _ _ _ _ _ _ hstack]
      rfl
    have hbegun : ((v.nameRetire q).setRg Reg.DMEM_RETIRE_busy 0 1).rg (ucField k) = s.rg (ucField k) := by
      rw [State.rg_setRg_other _ _ _ _ _ _ hbusy, hnamed]
    rw [State.retireBegin]
    split
    · exact ⟨rfl, fun h => by rw [State.on, hnamed]; exact h, .inl⟩
    · exact ⟨rfl, fun h => (congrArg (fun n => decide (n = 1)) hbegun).trans h, .inl⟩
  · exact .refl k p s

theorem Answered.wantRetire (k p : Nat) (s : State) : Answered k p s (s.wantRetire p) := by
  obtain ⟨-, hkey, -⟩ := ucField_spec k
  rw [State.wantRetire]
  split
  · exact .refl k p s
  · split
    · have hreport := Reports.unitRetired { s with pagesRetired := p :: s.pagesRetired, pagesBad := s.pagesBad.filter (· ≠ p) } 6
        (p / 2 ^ 22) (p % 2 ^ 22)
      exact ⟨hreport.pending, (hreport.on hkey).trans, fun _ => .inr (by rw [hreport.pagesRetired]; exact List.mem_cons_self)⟩
    · dsimp only
      split
      · exact ⟨rfl, id, .inl⟩
      · obtain ⟨hpending, hlatched, hknown⟩ := Answered.retireNext k p { s with retireQueue := s.retireQueue ++ [p] }
        exact ⟨hpending, hlatched, hknown⟩

/-- The state that keeper 0 finds at an uncorrectable report. -/
def State.reportedLost (s : State) (k p addr : Nat) : State := (((s.tally true 0 6 k addr).noteUc p).pageLost p).cause .dmem (ucField k)

theorem ucField_ofErrors (k : Nat) : (ucField k).ofErrors = true := by
  rw [ucField]
  split <;> rfl

theorem State.regs_noteUc (s : State) (p : Nat) : (s.noteUc p).regs = s.regs := rfl
theorem State.pending_noteUc (s : State) (p : Nat) : (s.noteUc p).pending = s.pending := rfl

theorem ErrorRegs.reportedLost (s : State) (k p addr : Nat) : ErrorRegs s (s.reportedLost k p addr) := by
  have htally := ErrorRegs.tally s true 0 (cls := 6) (by decide) k addr
  have hlost : ErrorRegs (s.tally true 0 6 k addr) (((s.tally true 0 6 k addr).noteUc p).pageLost p) := .of_eq (by
    rw [State.pageLost_regs, State.regs_noteUc])
  rw [State.reportedLost]
  exact (htally.trans hlost).trans (.cause _ .dmem 1 (ucField_ofErrors k) (by decide))

theorem State.pending_reportedLost (s : State) (k p addr : Nat) : (s.reportedLost k p addr).pending = s.pending := by
  rw [State.reportedLost, State.cause_pending, State.pageLost_pending, State.pending_noteUc, (Reports.tally s ..).pending]

theorem State.mem_pagesBad_reportedLost (s : State) (k p addr : Nat) : p ∈ (s.reportedLost k p addr).pagesBad := by
  rw [State.reportedLost, (Reports.cause ..).pagesBad, State.setRg_pagesBad]
  exact State.mem_pagesBad_pageLost _ p

theorem exec_hbmErrorReport_of_uncorrectable {s : State} (hsystem : s.system < 4) (k : Fin 2) (page : BitVec 22) {p : Nat}
    (hp : k.val * 2 ^ 22 + page.toNat = p) : ∃ u, exec (.hbmErrorReport k page true) s = .next u ∧ u.on (ucField k.val) = true ∧
      (p ∈ u.pagesBad ∨ s.supervised = true ∧ p ∈ u.pagesRetired) := by
  obtain ⟨hwidth, hkey, -, -⟩ := ucField_spec k.val
  have hsame := (ErrorRegs.reportedLost s k.val p page.toNat).supervised hsystem
  have hpending := s.pending_reportedLost k.val p page.toNat
  have hlatched : (s.reportedLost k.val p page.toNat).on (ucField k.val) = true := State.on_cause _ .dmem hwidth hkey
  have hbad := s.mem_pagesBad_reportedLost k.val p page.toNat
  have hstep : exec (.hbmErrorReport k page true) s = done s ((s.reportedLost k.val p page.toNat).answerReport p true) := by
    rw [← hp]
    rfl
  rw [hstep, State.answerReport]
  split
  · exact ⟨_, done_of_pending hpending, hlatched, .inl hbad⟩
  · next hserves =>
    rw [if_pos rfl]
    split
    · obtain ⟨hkept, hlatch, hknown⟩ := Answered.wantRetire k.val p (s.reportedLost k.val p page.toNat)
      exact ⟨_, done_of_pending (hkept.trans hpending), hlatch hlatched,
        (hknown hbad).imp_right fun h => ⟨hsame.symm.trans (Bool.of_not_eq_false hserves), h⟩⟩
    · exact ⟨_, done_of_pending hpending, hlatched, .inl hbad⟩

end Sys2Proof.Machine
end

section
/-!
PROOFS. The commands of the statement PagesAndReports: what each does wherever KPR_SYS.system is the number of a keeper (R175, R177, R178,
R184 to R186, R188, R332).
-/
namespace Sys2Proof.Machine
open Sys2Proof.Claims

/-! ### Pages -/

theorem page_byte (k q : Nat) : (k * 2 ^ 28 + q * 64) * 64 = k * 2 ^ 34 + q * 4096 := by omega
theorem page_end (k q : Nat) : (k * 2 ^ 28 + q * 64 + 64) * 64 = k * 2 ^ 34 + q * 4096 + 4096 := by omega

/-- The pre-image of a page stands in its undo page, and the write held for it goes on. -/
theorem exec_pageCopy_of_held {s : State} (h : s.Uncached) (hflip : s.on Reg.TST_FLIP_arm = false) {t : Fin 16} {region : BitVec 10}
    {page : BitVec 13} {r phys : Nat} {e : WbEntry} {g : Region} {u : Nat × Nat} (hbound : (s.part t.val).bound = [r])
    (hregion : (s.part t.val).region region.toNat = some g) (hphys : g.pages[page.toNat]? = some phys)
    (hfree : (s.part t.val).undoFree = [u]) (hstack : u.1 = g.stack) (hapart : u.2 ≠ phys) (hbad : s.pagesBad = [])
    (hwb : (s.rch r).wb = [e]) (hheld : e.held = true) (hid : e.region = region.toNat) (hpage : e.addr / 2048 = page.toNat)
    (hexport : (s.part t.val).exporting = none) :
    ∃ v, exec (.pageCopy t region page) s = .next v ∧ { v with parts := s.parts, reaches := s.reaches, hbm := s.hbm } = s ∧
      PartIs s v t.val ((s.part t.val).preimaged region.toNat page.toNat g.stack u.2) ∧ (v.rch r).wb = [{ e with held := false }] ∧
      ∀ a, Mem.get v.hbm a = if g.stack * 2 ^ 34 + u.2 * 4096 ≤ a ∧ a < g.stack * 2 ^ 34 + u.2 * 4096 + 4096
        then Mem.get s.hbm (g.stack * 2 ^ 34 + phys * 4096 + (a - (g.stack * 2 ^ 34 + u.2 * 4096))) else Mem.get s.hbm a := by
  have hcopied := h.pageCopied hflip hbound hregion hphys hfree hstack hbad hwb hheld hid hpage hexport
  have hlines : phys + 1 ≤ u.2 ∨ u.2 + 1 ≤ phys := Nat.lt_or_gt_of_ne hapart.symm
  have hget := Mem.get_copyLines s.hbm (a := g.stack * 2 ^ 28 + phys * 64) (d := g.stack * 2 ^ 28 + u.2 * 64) (n := 64) (by omega)
  have hstep : exec (.pageCopy t region page) s = done s (s.pageCopied t.val region.toNat page.toNat) := rfl
  rw [hstep, hcopied, State.withPage]
  generalize s.hbm.copyLines (g.stack * 2 ^ 28 + phys * 64) (g.stack * 2 ^ 28 + u.2 * 64) (List.range 64) = m at hget ⊢
  rw [page_byte, page_byte, page_end] at hget
  refine ⟨_, done_of_pending rfl, rfl, partIs_setPart { s with hbm := m } _ _, ?_, hget⟩
  rw [State.rch_setRch_same]

/-- DMEM_RETIRE. -/
theorem exec_dmemRetire_of_writable {s : State} {who : Requester} (hw : Writable s who Reg.DMEM_RETIRE.addr) (v : Word) :
    exec (.dmemRetire who v) s = .next (if v.msb = true ∧ s.on Reg.DMEM_RETIRE_busy = false then
      { (s.namePage v).setRg Reg.DMEM_RETIRE_busy 0 1 with
        retiring := some (Reg.DMEM_RETIRE_stack.of v * 2 ^ 22 + Reg.DMEM_RETIRE_page.of v) } else s.namePage v) := by
  refine done_asWriter hw (s.wRetire_eq v) ?_
  split <;> rfl

/-- A flush of a reach without dirty lines empties it, and the directory names it no more but for a line on its way to it. -/
theorem exec_dmemRFlush_of_clean {s : State} {who : Requester} {r : Nat} (hw : Writable s who Reg.DMEM_R_FLUSH.addr)
    (hsel : s.selReach who = some r) (hopen : s.rchOpen who r = true)
    (hclean : ∀ e ∈ (s.rch r).cache ++ (s.rch r).writeback, e.2.dirty = false) :
    ∃ u, exec (.dmemRFlush who 1) s = .next u ∧ { u with reaches := s.reaches, dir := s.dir } = s ∧ RchIs s u r (s.rch r).emptied ∧
      ∀ line, (s.dirLine line).busy ≠ some r ∨ (s.dirLine line).data = none → r ∉ (u.dirLine line).sharers := by
  have hback := State.writeBack_of_clean hclean
  have hframe : { s.flush r with reaches := s.reaches, dir := s.dir } = s := by
    rw [State.flush_eq, hback]
    rfl
  have hpending := congrArg State.pending hframe
  refine ⟨s.flush r, exec_dmemRFlush hw hsel hopen rfl hpending, hframe, ⟨?_, fun q hq => ?_⟩, fun line hline => ?_⟩
  · rw [State.rch_flush_same, hback]
  · rw [State.rch_flush_other s hq, hback]
  · exact State.not_mem_sharers_flush s (by rw [hback]; exact hline)

/-- A flush sends the one dirty line of a reach home. -/
theorem exec_dmemRFlush_of_dirty {s : State} {who : Requester} {r line : Nat} {l : CacheLine} (hw : Writable s who Reg.DMEM_R_FLUSH.addr)
    (hsel : s.selReach who = some r) (hopen : s.rchOpen who r = true) (hflip : s.on Reg.TST_FLIP_arm = false)
    (hcache : (s.rch r).cache = [(line, l)]) (hdirty : l.dirty = true) (hback : (s.rch r).writeback = []) (hwb : (s.rch r).wb = [])
    (hshared : s.bypasses line = false) :
    ∃ u, exec (.dmemRFlush who 1) s = .next u ∧ HomeOnly s u ∧ u.hbm = Mem.putRun s.hbm (line * 64) (lineBytes l.cells) ∧
      RchIs s u r { s.rch r with cache := [], tlb := [], writeback := [(line, { l with dirty := false })] } := by
  obtain ⟨hframe, hhbm, hrch⟩ := State.flush_of_single hcache hback hdirty hshared hwb hflip
  have hpending := congrArg State.pending hframe
  exact ⟨_, exec_dmemRFlush hw hsel hopen rfl hpending, hframe, hhbm, hrch⟩

/-! ### Temperature and shortfall -/

theorem throttleOf_eq (old : Nat) (temp : Int) : throttleOf old temp =
    if 100 ≤ temp ∨ (3 ≤ old ∧ 97 < temp) then 3 else if 95 ≤ temp ∨ (2 ≤ old ∧ 92 < temp) then 2
    else if 85 ≤ temp ∨ (1 ≤ old ∧ 82 < temp) then 1 else 0 := by
  simp only [throttleOf, Bool.or_eq_true, Bool.and_eq_true, decide_eq_true_eq]
  rfl

/-- The temperature and its throttle state are kept, and a stack that comes to 100 °C raises the alarm. -/
theorem exec_hbmTempRead (s : State) (k : Fin 2) (v : BitVec 8) :
    let new := throttleOf (s.rg Reg.DMEM_HBM_STATk_throttle k.val) v.toInt
    let u := (s.setRg Reg.DMEM_HBM_STATk_temp k.val v.toNat).setRg Reg.DMEM_HBM_STATk_throttle k.val new
    exec (.hbmTempRead k v) s = .next (if new = 3 ∧ s.rg Reg.DMEM_HBM_STATk_throttle k.val ≠ 3 then
      (u.cause .dmem Reg.DMEM_CAUSE_thermal_alarm).alarm 16 (srcOf 2 k.val) 0x008 k.val else u) := by
  intro new u
  refine done_of_pending ?_
  dsimp only
  split
  · exact (Reports.alarm ..).pending.trans (State.cause_pending ..)
  · rfl

/-- A window without shortfall is only noted. -/
theorem exec_shortfallWindow_of_full (s : State) (t : Fin 16) (k : Fin 2) : exec (.shortfallWindow t k false) s =
    .next { s with shortRun := s.shortRun.put t.val ((s.shortRun.get t.val {}).report k.val false) } := rfl

/-- A shortfall window counts once, and the thousandth in a row raises the alarm. -/
theorem exec_shortfallWindow_of_short {s : State} {t : Fin 16} (k : Fin 2) (hlog : s.on Reg.DMEM_CTRL_short_log = false) :
    let x := s.shortRun.get t.val {}
    let u := { (if (x.window k.val).short then s else s.count Reg.DMEM_SHORTt_windows t.val 1) with
      shortRun := s.shortRun.put t.val (x.report k.val true) }
    exec (.shortfallWindow t k true) s = .next (if (x.report k.val true).run = 1000 ∧ x.run ≠ 1000 then
      u.alarm t.val (srcOf 2 k.val) 0x005 (k.val + s.rg Reg.DMEM_HBM_STATk_throttle k.val * 2) else u) := by
  intro x u
  have hpending : u.pending = s.pending := by
    simp only [u]
    split <;> rfl
  have hcounted : (if (x.window k.val).short then { s with shortRun := s.shortRun.put t.val (x.report k.val true) }
      else ({ s with shortRun := s.shortRun.put t.val (x.report k.val true) } : State).count Reg.DMEM_SHORTt_windows t.val 1) = u := by
    simp only [u]
    split <;> rfl
  have hoff : u.on Reg.DMEM_CTRL_short_log = false := by
    have hkey : fieldKey Reg.DMEM_CTRL_short_log 0 0 ≠ fieldKey Reg.DMEM_SHORTt_windows t.val 0 :=
      fieldKey_ne_of_place (by decide) (by decide) (by omega)
    have hregs : u.on Reg.DMEM_CTRL_short_log =
        (if (x.window k.val).short then s else s.count Reg.DMEM_SHORTt_windows t.val 1).on Reg.DMEM_CTRL_short_log := rfl
    rw [hregs]
    split
    · exact hlog
    · rw [State.on, State.count, State.rg_setRg_other _ _ _ _ _ _ hkey]
      exact hlog
  let data := k.val + s.rg Reg.DMEM_HBM_STATk_throttle k.val * 2
  let v := if u.on Reg.DMEM_CTRL_short_log then u.log t.val (srcOf 2 k.val) 0x101 data else u
  have hstep : exec (.shortfallWindow t k true) s = done s
      (if (x.report k.val true).run = 1000 ∧ x.run ≠ 1000 then v.alarm t.val (srcOf 2 k.val) 0x005 data else v) := by
    simp only [v, ← hcounted]
    rfl
  have hv : v = u := by simp only [v, hoff, Bool.false_eq_true, if_false]
  rw [hstep, hv, done_of_pending]
  split
  · exact (Reports.alarm u ..).pending.trans hpending
  · exact hpending

end Sys2Proof.Machine
end

section
/-!
PROOFS. The statement PagesAndReports, at a state whose KPR_SYS.system is the number of no keeper.
-/
namespace Sys2Proof.Proofs
open Sys2Proof.Machine Sys2Proof.Claims

/-- The number of a keeper whose KPR_CTRL.run would have the key that WEIR_BKT.tokens has for the device. -/
def strayKeeper : Nat := fieldKey Reg.WEIR_BKT_tokens 16 0 / 8 - fieldKey Reg.KPR_CTRL_run 0 0 / 8

/-- Ready, with three corrected reports of page 0x9C40 within the second and one log token of the device left. KPR_SYS.system, a field of
two bits, holds the number of no keeper, which the statement does not rule out: the run bit of that keeper is the token. -/
def tokenKeeper : State :=
  { State.reset with
    regs := [(fieldKey Reg.KPR_SYS_system 0 0, strayKeeper), (fieldKey Reg.WEIR_BKT_tokens 16 0, 1), (fieldKey Reg.PWR_MODE_mode 0 0, 1)]
    pageReports := List.replicate 3 (0x9C40, 0) }

theorem tokenKeeper_supervised : tokenKeeper.supervised = true := by decide +kernel

/-- The log record of the report spends the token. -/
theorem tokenKeeper_lost : (tokenKeeper.tally false 0 6 (0 : Fin 2).val (0x9C40 : BitVec 22).toNat).supervised = false := by decide +kernel

/-- Refutes O18: the statement takes every number in KPR_SYS.system, and where it is that of no keeper the accounting of the report may end
the system keeper's service: the fourth corrected report of a page then retires nothing. With the number of a keeper the clause holds, by
`exec_hbmErrorReport_of_frequent`. -/
theorem not_pagesAndReports : ¬ Obligations.PagesAndReports := by
  unfold Obligations.PagesAndReports
  intro h
  obtain ⟨-, -, -, hreport⟩ := h
  obtain ⟨-, hfrequent, -⟩ := hreport tokenKeeper 0 0x9C40
  obtain ⟨u, hstep, hretiring, -⟩ := hfrequent tokenKeeper_supervised (by decide +kernel) (by decide +kernel) (by decide +kernel)
    (by decide +kernel) (by decide +kernel) (by decide +kernel)
  have hwaiting := (Reports.tally tokenKeeper false 0 6 (0 : Fin 2).val (0x9C40 : BitVec 22).toNat).waiting
  have hnone : (tokenKeeper.tally false 0 6 (0 : Fin 2).val (0x9C40 : BitVec 22).toNat).retiring = none :=
    congrArg (fun w => w.2.1) hwaiting
  rw [exec_hbmErrorReport_of_unserved tokenKeeper_lost] at hstep
  cases hstep
  exact absurd (hretiring.symm.trans hnone) (Option.some_ne_none _)

end Sys2Proof.Proofs
end

section
/-!
PROOFS. Berths: arrivals, clears and the fill of a blocking host port (R189, R195 to R203).
-/
namespace Sys2Proof.Machine
open Sys2Proof.Claims

/-- A command whose meaning is a known state with the waiting commands as they were answers that state. -/
theorem next_of_done {o : Host.Outcome State Fault Refusal} {s u v : State} (ho : o = done s u) (hu : u = v)
    (hpending : v.pending = s.pending) : o = .next v := by
  rw [ho, hu, done_of_pending hpending]

/-! ### Entries of berths (R189, R346) -/

/-- Every entry has a key of its own among a reach's entries. -/
theorem entry_key_ne {b c p q : Nat} (hp : p < 2) (hq : q < 2) (h : (c, q) ≠ (b, p)) : 2 * c + q ≠ 2 * b + p := by
  simp only [ne_eq, Prod.mk.injEq] at h
  omega

section
variable {s : State} (hflip : s.on Reg.TST_FLIP_arm = false) (r b p : Nat) (value tag : Cell)
include hflip

/-- With no flip armed, a fill changes the entries of its reach alone. -/
theorem State.fillEntry_of_unarmed : s.fillEntry r b p value tag = s.setRch r { s.rch r with
    berths := (s.rch r).berths.put (2 * b + p) { value := store value, tag := store tag, parity := decide (p = 1), valid := true } } := by
  rw [State.fillEntry, State.flipCell_of_unarmed hflip, State.modRch]

theorem State.entry_fillEntry_same : (s.fillEntry r b p value tag).entry r b p =
    { value := store value, tag := store tag, parity := decide (p = 1), valid := true } := by
  rw [State.fillEntry_of_unarmed hflip, State.entry, State.rch_setRch_same, Tbl.get_put_same]

theorem State.entry_fillEntry_other {c q : Nat} (h : 2 * c + q ≠ 2 * b + p) :
    (s.fillEntry r b p value tag).entry r c q = s.entry r c q := by
  rw [State.fillEntry_of_unarmed hflip, State.entry, State.rch_setRch_same, Tbl.get_put_other _ _ _ h, State.entry]

theorem State.reachesOnly_fillEntry : ReachesOnly s (s.fillEntry r b p value tag) := by
  rw [State.fillEntry_of_unarmed hflip]
  exact ⟨rfl⟩

theorem State.rchIs_fillEntry : RchIs s (s.fillEntry r b p value tag) r
    { s.rch r with berths := ((s.fillEntry r b p value tag).rch r).berths } := by
  rw [State.fillEntry_of_unarmed hflip, State.rch_setRch_same]
  exact rchIs_setRch ..

end

/-! ### Arrivals (R195, R196) -/

/-- A discarded arrival: its cause is latched and the partition stops, the reaches and clusters stay. -/
structure Discarded (s u : State) (t r : Nat) (f : Field) : Prop where
  pending : u.pending = s.pending
  stopped : (u.part t).stopped = true
  latched : u.on f r = true
  reaches : u.reaches = s.reaches
  clusters : u.clusters = s.clusters

theorem Reports.discarded {s v u : State} {t r : Nat} {f : Field} (h : Reports s v) (hu : Discarded v u t r f) : Discarded s u t r f where
  pending := hu.pending.trans h.pending
  stopped := hu.stopped
  latched := hu.latched
  reaches := hu.reaches.trans h.reaches
  clusters := hu.clusters.trans h.clusters

/-- The causes of R196 are one-bit fields of a reach. -/
theorem berthErrors_field : ∀ f ∈ berthErrors, f.width = 1 ∧ f.addr < 0x600000 ∧ f.lo < 32 := by decide

theorem State.berthFault_discarded (s : State) (t : Nat) {r : Nat} (hr : r < 24) {f : Field} (hf : f ∈ berthErrors) :
    Discarded s (s.berthFault t r f) t r f := by
  obtain ⟨hwidth, hplace⟩ := berthErrors_field f hf
  have hcause := Reports.cause s (.reach r) f r 1
  have hlatched : (s.cause (.reach r) f r).on f r = true := State.on_cause s _ hwidth (fieldKey_lt_reportKeys hplace (by omega))
  exact ⟨hcause.pending, congrArg Part.stopped (State.part_modPart_same ..), hlatched, hcause.reaches, hcause.clusters⟩

section
variable {s : State} {t r b source tag parity epoch : Nat} {value : Cell}

theorem State.arrival_of_stale (hepoch : epoch ≠ s.epoch t) :
    s.arrival t r b source tag parity epoch value = s.count Reg.RCH_CNT_CLRWAIT_stale r 1 := by
  rw [State.arrival, if_pos hepoch, State.stale]

variable (hepoch : epoch = s.epoch t)
include hepoch

/-- No mapped berth: where the map's entry fails parity, that is reported first. -/
theorem State.arrival_of_unmapped (hr : r < 24) (hkind : (s.berthMap r b).1 ≠ 1 ∧ (s.berthMap r b).1 ≠ 2) :
    Discarded s (s.arrival t r b source tag parity epoch value) t r Reg.RCH_BCAUSE_unmapped_arrival := by
  rw [State.arrival, if_neg (not_not_intro hepoch), if_pos hkind]
  have hreport : Reports s (if s.bmapBad r b then s.tally true 0 3 r (2 * 4096 + b) else s) := .ite (.tally s ..) (.refl s)
  exact hreport.discarded (State.berthFault_discarded _ t hr (by decide))

variable (hkind : (s.berthMap r b).1 = 1 ∨ (s.berthMap r b).1 = 2)
include hkind

/-- At a mapped berth the source and the tag decide. -/
theorem State.arrival_of_mapped : s.arrival t r b source tag parity epoch value =
    if (s.berthMap r b).2.1 ≠ source ∨ (s.berthMap r b).2.2 ≠ tag then s.berthFault t r Reg.RCH_BCAUSE_tag_mismatch
    else if (s.entry r b parity).valid then s.berthFault t r Reg.RCH_BCAUSE_overrun
    else s.fillEntry r b parity value (BitVec.ofNat 12 tag) := by
  have hmapped : ¬((s.berthMap r b).1 ≠ 1 ∧ (s.berthMap r b).1 ≠ 2) := by omega
  rw [State.arrival, if_neg (not_not_intro hepoch), if_neg hmapped]

theorem State.arrival_of_mismatch (hr : r < 24) (hother : (s.berthMap r b).2.1 ≠ source ∨ (s.berthMap r b).2.2 ≠ tag) :
    Discarded s (s.arrival t r b source tag parity epoch value) t r Reg.RCH_BCAUSE_tag_mismatch := by
  rw [State.arrival_of_mapped hepoch hkind, if_pos hother]
  exact State.berthFault_discarded s t hr (by decide)

variable (hmap : (s.berthMap r b).2 = (source, tag))
include hmap

theorem State.arrival_of_match : s.arrival t r b source tag parity epoch value =
    if (s.entry r b parity).valid then s.berthFault t r Reg.RCH_BCAUSE_overrun
    else s.fillEntry r b parity value (BitVec.ofNat 12 tag) := by
  have hsame : ¬((s.berthMap r b).2.1 ≠ source ∨ (s.berthMap r b).2.2 ≠ tag) := by simp [hmap]
  rw [State.arrival_of_mapped hepoch hkind, if_neg hsame]

theorem State.arrival_of_full (hr : r < 24) (hvalid : (s.entry r b parity).valid = true) :
    Discarded s (s.arrival t r b source tag parity epoch value) t r Reg.RCH_BCAUSE_overrun := by
  rw [State.arrival_of_match hepoch hkind hmap, if_pos hvalid]
  exact State.berthFault_discarded s t hr (by decide)

theorem State.arrival_of_empty (hvalid : (s.entry r b parity).valid = false) :
    s.arrival t r b source tag parity epoch value = s.fillEntry r b parity value (BitVec.ofNat 12 tag) := by
  rw [State.arrival_of_match hepoch hkind hmap, hvalid, if_neg Bool.false_ne_true]

end

theorem exec_berthArrival {s : State} {r : Fin 24} {t : Nat} (howner : s.owner r.val = some t) (b source tag : Cell) (parity : Bool)
    (epoch : BitVec 2) (value : Cell) : exec (.berthArrival r b source tag parity epoch value) s =
      done s (s.arrival t r.val b.toNat source.toNat tag.toNat (b2n parity) epoch.toNat value) := by
  change execBerthArrival r b source tag parity epoch value s = _
  rw [execBerthArrival, howner]

/-- A command that discards an arrival answers with what the discard leaves. -/
theorem Discarded.answered {s u : State} {t r : Nat} {f : Field} {o : Host.Outcome State Fault Refusal} (h : Discarded s u t r f)
    (ho : o = done s u) : ∃ v, o = .next v ∧ (v.part t).stopped = true ∧ v.on f r = true ∧ v.reaches = s.reaches ∧
      v.clusters = s.clusters :=
  ⟨u, next_of_done ho rfl h.pending, h.stopped, h.latched, h.reaches, h.clusters⟩

theorem b2n_lt_two (b : Bool) : b2n b < 2 := by cases b <;> decide

theorem decide_b2n_eq_one (b : Bool) : decide (b2n b = 1) = b := by cases b <;> rfl

/-- An arrival at the empty entry of its parity fills that entry and changes nothing else. -/
theorem exec_berthArrival_of_empty {s : State} {r : Fin 24} {t : Nat} (howner : s.owner r.val = some t) {b source tag : Cell} {parity : Bool}
    {epoch : BitVec 2} (hepoch : epoch.toNat = s.epoch t) (hkind : (s.berthMap r.val b.toNat).1 = 1 ∨ (s.berthMap r.val b.toNat).1 = 2)
    (hmap : (s.berthMap r.val b.toNat).2 = (source.toNat, tag.toNat)) (hvalid : (s.entry r.val b.toNat (b2n parity)).valid = false)
    (hflip : s.on Reg.TST_FLIP_arm = false) (value : Cell) :
    ∃ u, exec (.berthArrival r b source tag parity epoch value) s = .next u ∧ { u with reaches := s.reaches } = s ∧
      u.entry r.val b.toNat (b2n parity) = { value := store value, tag := store tag, parity := parity, valid := true } ∧
      (∀ c q, q < 2 → (c, q) ≠ (b.toNat, b2n parity) → u.entry r.val c q = s.entry r.val c q) ∧
      RchIs s u r.val { s.rch r.val with berths := (u.rch r.val).berths } := by
  have honly := State.reachesOnly_fillEntry hflip r.val b.toNat (b2n parity) value tag
  have hentry := State.entry_fillEntry_same hflip r.val b.toNat (b2n parity) value tag
  rw [decide_b2n_eq_one] at hentry
  rw [exec_berthArrival howner, State.arrival_of_empty hepoch hkind hmap hvalid, BitVec.ofNat_toNat, BitVec.setWidth_eq]
  exact ⟨_, done_of_pending (honly.apply State.pending fun _ _ => rfl), honly.frame, hentry,
    fun c q hq hne => State.entry_fillEntry_other hflip _ _ _ _ _ (entry_key_ne (b2n_lt_two parity) hq hne),
    State.rchIs_fillEntry hflip ..⟩

/-! ### Clears (R198, R200) -/

theorem storedAt_put {n : Nat} (m : Mem n) (a : Nat) (x : BitVec n) : StoredAt m (Mem.put m a x) a x :=
  ⟨Mem.get_put_same .., fun _ hne => Mem.get_put_other m x hne⟩

theorem exec_berthClear {s : State} {r : Fin 24} {t : Nat} (howner : s.owner r.val = some t) (tag : Cell) (parity : Bool)
    (epoch : BitVec 2) : exec (.berthClear r tag parity epoch) s =
      done s (s.clearArrives t r.val tag.toNat (b2n parity) epoch.toNat) := by
  change execBerthClear r tag parity epoch s = _
  rw [execBerthClear, howner]

section
variable {s : State} {t r tag parity epoch : Nat}

theorem State.clearArrives_of_stale (hepoch : epoch ≠ s.epoch t) :
    s.clearArrives t r tag parity epoch = s.count Reg.RCH_CNT_CLRWAIT_stale r 1 := by
  rw [State.clearArrives, if_pos hepoch, State.stale]

variable (hepoch : epoch = s.epoch t)
include hepoch

theorem State.clearArrives_of_stray (hzero : Mem.get (s.rch r).outstanding (2 * tag + parity) = 0) :
    s.clearArrives t r tag parity epoch = s.cause (.reach r) Reg.RCH_BCAUSE_stray_clear r := by
  rw [State.clearArrives, if_neg (not_not_intro hepoch), if_pos hzero]

/-- A reach whose outstanding bit k has been cleared, its parity fresh. -/
def Reach.cleared (x : Reach) (k : Nat) : Reach :=
  { x with outstanding := Mem.put x.outstanding k 0, clrBad := x.clrBad.filter (· ≠ k) }

/-- The clear of an outstanding value: of the partition, at most the values of a bridge change. -/
theorem State.clearArrives_of_outstanding (hone : Mem.get (s.rch r).outstanding (2 * tag + parity) = 1)
    (hflip : s.on Reg.TST_FLIP_arm = false) : ∃ x, x = { s.part t with bridge := x.bridge } ∧
      s.clearArrives t r tag parity epoch = (s.setPart t x).setRch r ((s.rch r).cleared (2 * tag + parity)) := by
  have hnonzero : Mem.get (s.rch r).outstanding (2 * tag + parity) ≠ 0 := by rw [hone]; decide
  have hgood : decide (oddOnes 2 0) = false := by decide
  rw [State.clearArrives, if_neg (not_not_intro hepoch), if_neg hnonzero]
  simp only [State.flip_of_unarmed hflip, hgood, Bool.false_eq_true, if_false]
  refine ⟨_, ?bridge, rfl⟩
  case bridge =>
    beta_reduce
    split <;> rfl

end

theorem exec_berthClear_of_outstanding {s : State} {r : Fin 24} {t : Nat} (howner : s.owner r.val = some t) {tag : Cell} {parity : Bool}
    {epoch : BitVec 2} (hepoch : epoch.toNat = s.epoch t) {k : Nat} (hk : 2 * tag.toNat + b2n parity = k)
    (hone : Mem.get (s.rch r.val).outstanding k = 1) (hflip : s.on Reg.TST_FLIP_arm = false) :
    ∃ u, exec (.berthClear r tag parity epoch) s = .next u ∧ { u with reaches := s.reaches, parts := s.parts } = s ∧
      StoredAt (s.rch r.val).outstanding (u.rch r.val).outstanding k 0 ∧
      RchIs s u r.val { s.rch r.val with outstanding := (u.rch r.val).outstanding, clrBad := (s.rch r.val).clrBad.filter (· ≠ k) } ∧
      PartIs s u t { s.part t with bridge := (u.part t).bridge } := by
  subst hk
  obtain ⟨x, hx, hclear⟩ := State.clearArrives_of_outstanding hepoch hone hflip
  rw [exec_berthClear howner, hclear]
  have hrch := rchIs_setRch (s.setPart t x) r.val ((s.rch r.val).cleared (2 * tag.toNat + b2n parity))
  have hpart := partIs_setPart s t x
  refine ⟨_, done_of_pending rfl, rfl, ?stored, ⟨?reach, hrch.2⟩, ⟨hpart.1.trans ?part, hpart.2⟩⟩
  case stored =>
    rw [hrch.1]
    exact storedAt_put (s.rch r.val).outstanding _ 0
  case reach => rw [hrch.1, Reach.cleared]
  case part =>
    have hbridge := congrArg Part.bridge hpart.1
    exact hbridge ▸ hx

/-! ### The fill of a blocking host port (R203) -/

/-- Among the numbers below m that satisfy p, number n stands in place n where all up to it satisfy p. -/
theorem getElem?_filter_range {m n : Nat} {p : Nat → Bool} (hn : n < m) (h : ∀ i ≤ n, p i = true) :
    ((List.range m).filter p)[n]? = some n := by
  obtain ⟨k, rfl⟩ := Nat.exists_eq_add_of_lt hn
  have hall : (List.range (n + 1)).filter p = List.range (n + 1) :=
    List.filter_eq_self.2 fun i hi => h i (Nat.le_of_lt_succ (List.mem_range.1 hi))
  rw [show n + k + 1 = (n + 1) + k by omega, List.range_add, List.filter_append, hall, List.getElem?_append_left (by simp)]
  simp

section
variable {s : State} {t : Nat}

/-- Before the pound's end, with nothing logged in it, no record stands for a design cycle ahead. -/
theorem State.loggedAhead_of_unlogged {i : Nat} (hlog : (s.part t).logNow = []) (hlock : (s.part t).atLock = false)
    (hpound : s.dcycle t + i < s.poundLen t) (port : Nat) : s.loggedAhead t port i = none := by
  simp only [State.loggedAhead, hlog, hlock, Bool.false_eq_true, if_false, if_pos hpound, List.find?_nil]

/-- With n values taken and nothing logged, the value at the head of the queue is that of design cycle n from the one in progress. -/
theorem State.fillBlocking_of_empty {h : HostPort} {port r p : Nat} {q : InPort} {v : Cell} {l : List Cell}
    (hports : (s.part t).ports = [h]) (hport : h.port = port) (hinput : h.isInput = true) (hflag : h.flagged = false)
    (hq : s.inPort t port = q) (hr : s.phys t h.rel = r) (hp : ((s.part t).dcNumber + q.taken.length) % 2 = p) (hqueue : q.queue = v :: l)
    (htaken : q.taken.length < 3) (hvalid : (s.entry r h.berth p).valid = false) (hlog : (s.part t).logNow = [])
    (hlock : (s.part t).atLock = false) (hphase : s.phase t ≠ 4) (hpound : s.dcycle t + q.taken.length < s.poundLen t) :
    s.fillBlocking t port =
      (s.fillEntry r h.berth p v (BitVec.ofNat 12 port)).setInPort t port { q with queue := l, taken := q.taken ++ [v] } := by
  have hfind : (s.part t).ports.find? (fun p => p.port = port ∧ p.isInput ∧ !p.flagged) = some h := by
    simp [hports, hport, hinput, hflag]
  have hcycle : ((List.range 3).filter fun i => (s.loggedAhead t port i).isNone)[q.taken.length]? = some q.taken.length :=
    getElem?_filter_range htaken fun i hi => by
      rw [State.loggedAhead_of_unlogged hlog hlock (by omega), Option.isNone_none]
  simp only [State.fillBlocking, if_neg hphase, hfind, hq, hqueue, hcycle, hr, hp, hvalid, Bool.false_eq_true, if_false]

end

/-- A value that a port takes into an empty entry: the entry and the port change. -/
theorem State.fillPort_spec {s : State} (hflip : s.on Reg.TST_FLIP_arm = false) (t port r b : Nat) {p : Nat} (v tag : Cell) (x : InPort) :
    let u := (s.fillEntry r b p v tag).setInPort t port x
    { u with reaches := s.reaches, parts := s.parts } = s ∧
      u.entry r b p = { value := store v, tag := store tag, parity := decide (p = 1), valid := true } ∧
      u.inPort t port = x ∧ RchIs s u r { s.rch r with berths := (u.rch r).berths } ∧
      PartIs s u t { s.part t with inputs := (u.part t).inputs } := by
  intro u
  have hparts : (s.fillEntry r b p v tag).parts = s.parts := (State.reachesOnly_fillEntry hflip r b p v tag).apply State.parts fun _ _ => rfl
  have hpart (q : Nat) : (s.fillEntry r b p v tag).part q = s.part q := by rw [State.part, hparts, State.part]
  have hset : u.part t = { s.part t with inputs := (s.part t).inputs.put port x } :=
    (State.part_modPart_same ..).trans (by rw [hpart])
  refine ⟨?frame, State.entry_fillEntry_same hflip r b p v tag, ?port, State.rchIs_fillEntry hflip .., ?part, fun q hq => ?other⟩
  case frame =>
    have hframe := congrArg (fun w : State => { w with parts := s.parts }) (State.reachesOnly_fillEntry hflip r b p v tag).frame
    exact hframe
  case port => rw [State.inPort, hset, Tbl.get_put_same]
  case part => rw [hset]
  case other => exact (State.part_setPart_other _ _ hq).trans (hpart q)

end Sys2Proof.Machine
end

section
/-!
PROOFS. The berth watchdog: what an expiry records, latches and alarms (R215, R485, R487), and the statement Berths.
-/
namespace Sys2Proof.Machine
open Sys2Proof.Claims

/-! ### Several fields of a unit written in a row -/

/-- The listed fields of unit i set, in order, to the values beside them. -/
def State.setFields (s : State) (i : Nat) (l : List (Field × Nat)) : State := l.foldl (fun s e => s.setRg e.1 i e.2) s

theorem State.setFields_apply {α : Type} (s : State) (i : Nat) (l : List (Field × Nat)) (f : State → α)
    (hf : ∀ (s : State) (x : Tbl Nat), f { s with regs := x } = f s) : f (s.setFields i l) = f s := by
  induction l generalizing s with
  | nil => rfl
  | cons e l ih => exact (ih (s.setRg e.1 i e.2)).trans (hf s _)

section
variable {i : Nat} (hi : i < 8192)
include hi

theorem State.rg_setFields_other (s : State) {f : Field} {l : List (Field × Nat)} (h : f.place ∉ l.map (·.1.place)) :
    (s.setFields i l).rg f i = s.rg f i := by
  induction l generalizing s with
  | nil => rfl
  | cons e l ih =>
    simp only [List.map_cons, List.mem_cons, not_or] at h
    exact (ih (s.setRg e.1 i e.2) h.2).trans (State.rg_setRg_other _ _ _ _ _ _ (fieldKey_ne_of_place h.1 hi hi))

theorem State.rg_setFields_of_mem (s : State) {f : Field} {v : Nat} {l : List (Field × Nat)} (hplaces : (l.map (·.1.place)).Nodup)
    (h : (f, v) ∈ l) : (s.setFields i l).rg f i = v % 2 ^ f.width := by
  induction l generalizing s with
  | nil => cases h
  | cons e l ih =>
    simp only [List.map_cons, List.nodup_cons] at hplaces
    rcases List.mem_cons.1 h with rfl | h
    · exact (State.rg_setFields_other hi _ hplaces.1).trans (State.rg_setRg_same ..)
    · exact ih _ hplaces.2 h

end

/-! ### An alarm enters its owner's store (R485, R487) -/

theorem State.cause_weir (s : State) (b : Blk) (f : Field) (i v : Nat) : (s.cause b f i v).weir = s.weir := by
  have hframe := congrArg State.weir (s.cause_notified b f i v).frame
  exact hframe

theorem State.ringPoll_weir (s : State) : s.ringPoll.weir = s.weir := by
  unfold State.ringPoll
  extract_lets
  split
  · split <;> rfl
  · rfl

theorem State.weir_of_ringTry {s u : State} {n : Nat} {b : Bool} (h : s.ringTry n = (b, u)) : u.weir = s.weir := by
  simp only [State.ringTry] at h
  split at h
  · cases h; rfl
  · split at h
    · cases h; exact s.ringPoll_weir
    · cases h; exact (State.cause_weir ..).trans s.ringPoll_weir

theorem State.ringWrite_weir (s : State) (e : Event) : (s.ringWrite e).weir = s.weir := by
  simp only [State.ringWrite]
  split
  · exact State.cause_weir ..
  · rfl

/-- The ring copy of an alarm leaves the alarm stores. -/
theorem State.ringAlarm_weir (s : State) (e : Event) : (s.ringAlarm e).weir = s.weir := by
  rw [State.ringAlarm]
  split
  · split
    · next htry => exact (State.ringWrite_weir ..).trans (State.weir_of_ringTry htry)
    · next htry => exact (State.setRg_weir ..).trans (State.weir_of_ringTry htry)
  · rfl

/-- A store with room holds the alarm that it was given: coalesced with one like it, or at its end. -/
theorem same_mem_storeAlarm {l : List Event} (hroom : l.length < 64) (e : Event) : ∃ x ∈ (storeAlarm l e).1, e.same x = true := by
  rw [storeAlarm, if_pos hroom]
  split
  · next hlike =>
    obtain ⟨x, hx, hsame⟩ := List.any_eq_true.1 hlike
    exact ⟨x.add e false, List.mem_map.2 ⟨x, hx, if_pos hsame⟩, hsame⟩
  · exact ⟨e, by simp, by simp [Event.same]⟩

theorem State.alarms_enterAlarm (s : State) (e : Event) :
    (s.enterAlarm e).weir.alarms.get e.owner [] = (storeAlarm (s.weir.alarms.get e.owner []) e).1 := by
  simp only [State.enterAlarm]
  split
  · rw [State.cause_weir]
    exact Tbl.get_put_same ..
  · exact Tbl.get_put_same ..

/-- An alarm of an owner whose store has room stands in it. -/
theorem State.any_alarms_ringAlarm {s : State} {e : Event} (hroom : (s.weir.alarms.get e.owner []).length < 64) :
    (((s.enterAlarm e).ringAlarm e).weir.alarms.get e.owner []).any (fun x => decide (x.code = e.code ∧ x.source = e.source)) = true := by
  obtain ⟨x, hx, hsame⟩ := same_mem_storeAlarm hroom e
  obtain ⟨-, hsource, hcode, -⟩ := of_decide_eq_true hsame
  rw [State.ringAlarm_weir, State.alarms_enterAlarm]
  exact List.any_eq_true.2 ⟨x, hx, decide_eq_true ⟨hcode.symm, hsource.symm⟩⟩

theorem State.any_alarms_alarm {s : State} {owner : Nat} (hroom : (s.weir.alarms.get owner []).length < 64) (source code data : Nat) :
    ((s.alarm owner source code data).weir.alarms.get owner []).any (fun x => decide (x.code = code ∧ x.source = source)) = true := by
  rw [State.alarm]
  exact State.any_alarms_ringAlarm hroom

/-! ### The watchdog (R215) -/

/-- RCH_BWD_REC and RCH_BWD_STEP as the first expiry of wait w leaves them, in a step of a design cycle. -/
def Wait.fields (w : Wait) (dcycle step : Nat) : List (Field × Nat) :=
  [(Reg.RCH_BWD_REC_valid, 1), (Reg.RCH_BWD_REC_kind, b2n w.isClear), (Reg.RCH_BWD_REC_parity, b2n w.parity),
    (Reg.RCH_BWD_REC_position, w.position), (Reg.RCH_BWD_REC_index, w.index), (Reg.RCH_BWD_STEP_dcycle, dcycle),
    (Reg.RCH_BWD_STEP_step, step)]

theorem Wait.nodup_fields (w : Wait) (dcycle step : Nat) : ((w.fields dcycle step).map (·.1.place)).Nodup := by
  change [Reg.RCH_BWD_REC_valid.place, Reg.RCH_BWD_REC_kind.place, Reg.RCH_BWD_REC_parity.place, Reg.RCH_BWD_REC_position.place,
    Reg.RCH_BWD_REC_index.place, Reg.RCH_BWD_STEP_dcycle.place, Reg.RCH_BWD_STEP_step.place].Nodup
  decide

/-- A reach whose only wait has expired. -/
def Reach.timedOut (x : Reach) (w : Wait) : Reach := { x with waits := [{ w with expired := true }] }

/-- A reach whose only wait has expired and is recorded. -/
def Reach.expired (x : Reach) (w : Wait) : Reach := { x.timedOut w with bwdEpoch := w.epoch }

/-- The state in which the expiry of the only wait of a reach is recorded, before it is latched and alarmed. -/
def State.expiryTaken (s : State) (r : Nat) (w : Wait) (dcycle step : Nat) : State :=
  (s.setRch r ((s.rch r).expired w)).setFields r (w.fields dcycle step)

theorem State.modRch_setRg (s : State) (f : Field) (i v r : Nat) (g : Reach → Reach) :
    (s.setRg f i v).modRch r g = (s.modRch r g).setRg f i v := rfl

/-- The expiry of the only wait of a reach, where none is recorded yet, is recorded, latched and alarmed. -/
theorem State.expire_of_unrecorded {s : State} {r : Nat} {w : Wait} (hwaits : (s.rch r).waits = [w])
    (hrec : s.on Reg.RCH_BWD_REC_valid r = false) (t : Nat) : ∃ dcycle step, s.expire t r w =
      ((s.expiryTaken r w dcycle step).cause (.reach r) Reg.RCH_BCAUSE_watchdog r).alarm t (srcOf 1 r) 0x001 w.record := by
  have hmark : (s.modRch r fun x => { x with waits := x.waits.map fun y => if y = w then { y with expired := true } else y }) =
      s.setRch r ((s.rch r).timedOut w) := by
    simp [State.modRch, hwaits, Reach.timedOut]
  have htwice : ((s.setRch r ((s.rch r).timedOut w)).modRch r fun x => { x with bwdEpoch := w.epoch }) =
      s.setRch r ((s.rch r).expired w) := by
    rw [State.modRch, State.rch_setRch_same, State.setRch_setRch_same, Reach.expired]
  have hnone : (s.setRch r ((s.rch r).timedOut w)).on Reg.RCH_BWD_REC_valid r = false := hrec
  simp only [State.expire, hmark, hnone, Bool.false_eq_true, if_false, State.modRch_setRg, htwice, State.expiryTaken, State.setFields,
    Wait.fields, List.foldl_cons, List.foldl_nil]
  exact ⟨_, _, rfl⟩

section
variable {s : State} {r : Nat} {w : Wait} {dcycle step : Nat}

theorem State.expiryTaken_weir : (s.expiryTaken r w dcycle step).weir = s.weir :=
  State.setFields_apply (s.setRch r _) r _ State.weir fun _ _ => rfl

/-- The fields of the record are those of a reach, and none is the cause of the watchdog. -/
theorem Wait.fields_ne_watchdog (w : Wait) (dcycle step : Nat) :
    ∀ e ∈ w.fields dcycle step, e.1.place ≠ Reg.RCH_BCAUSE_watchdog.place ∧
    e.1.addr < 0x600000 ∧ e.1.lo < 32 := by
  simp only [Wait.fields, List.forall_mem_cons]
  refine ⟨?_, ?_, ?_, ?_, ?_, ?_, ?_, nofun⟩ <;> exact by decide

section
variable {u : State} (h : Reports ((s.expiryTaken r w dcycle step).cause (.reach r) Reg.RCH_BCAUSE_watchdog r) u)
include h

/-- Registers and what a report changes apart, an expiry changes its reach alone. -/
theorem Reports.expiryTaken_apply {α : Type} (f : State → α) (hregs : ∀ (s : State) (x : Tbl Nat), f { s with regs := x } = f s)
    (hreports : ∀ {s t : State}, Reports s t → f t = f s) : f u = f (s.setRch r ((s.rch r).expired w)) := by
  have hcause := hreports (Reports.cause (s.expiryTaken r w dcycle step) (.reach r) Reg.RCH_BCAUSE_watchdog r 1)
  have hfields := State.setFields_apply (s.setRch r ((s.rch r).expired w)) r (w.fields dcycle step) f hregs
  exact (hreports h).trans (hcause.trans ((hregs (s.expiryTaken r w dcycle step) _).trans hfields))

/-- What is recorded stays as the expiry is latched and reported. -/
theorem Reports.rg_expiryTaken (hr : r < 24) {f : Field} {v : Nat} (hmem : (f, v) ∈ w.fields dcycle step) (hv : v < 2 ^ f.width) :
    u.rg f r = v := by
  obtain ⟨hplace, hf⟩ := w.fields_ne_watchdog dcycle step _ hmem
  have hkey : fieldKey f r 0 < reportKeys := fieldKey_lt_reportKeys hf (by omega)
  rw [h.rg hkey, State.rg_cause_other _ _ 1 hkey (fieldKey_ne_of_place hplace (by omega) (by omega)), State.expiryTaken,
    State.rg_setFields_of_mem (by omega) _ (w.nodup_fields dcycle step) hmem, Nat.mod_eq_of_lt hv]

end

end

theorem exec_berthWatchdog {s : State} {r : Fin 24} {t : Nat} {w : Wait} {index : Cell} (howner : s.owner r.val = some t)
    (hwaits : (s.rch r.val).waits = [w]) (hindex : w.index = index.toNat) (hfresh : w.expired = false)
    (hon : s.on Reg.RCH_BWD_CTRL_en r.val = true) : exec (.berthWatchdog r w.isClear index w.parity) s = done s (s.expire t r.val w) := by
  change execBerthWatchdog r w.isClear index w.parity s = _
  have hfind : (s.rch r.val).waits.find? (fun v => v.isClear = w.isClear ∧ v.index = index.toNat ∧ v.parity = w.parity ∧
      v.expired = false) = some w := by
    simp [hwaits, hindex, hfresh]
  simp only [execBerthWatchdog, howner, hfind, hon, if_true]

/-- What the first expiry leaves: it is recorded, latched in RCH_BCAUSE and in the alarm store of the owner. -/
theorem exec_berthWatchdog_of_unrecorded {s : State} {r : Fin 24} {t : Nat} {w : Wait} {index : Cell} (howner : s.owner r.val = some t)
    (hwaits : (s.rch r.val).waits = [w]) (hindex : w.index = index.toNat) (hfresh : w.expired = false)
    (hon : s.on Reg.RCH_BWD_CTRL_en r.val = true) (hrec : s.on Reg.RCH_BWD_REC_valid r.val = false) (hposition : w.position < 32)
    (hroom : (s.weir.alarms.get t []).length < 64) :
    ∃ u, exec (.berthWatchdog r w.isClear index w.parity) s = .next u ∧ u.on Reg.RCH_BCAUSE_watchdog r.val = true ∧
      u.on Reg.RCH_BWD_REC_valid r.val = true ∧ u.rg Reg.RCH_BWD_REC_kind r.val = b2n w.isClear ∧
      u.rg Reg.RCH_BWD_REC_parity r.val = b2n w.parity ∧ u.rg Reg.RCH_BWD_REC_position r.val = w.position ∧
      u.rg Reg.RCH_BWD_REC_index r.val = w.index ∧
      RchIs s u r.val { s.rch r.val with waits := [{ w with expired := true }], bwdEpoch := w.epoch } ∧
      (u.weir.alarms.get t []).any (fun e => decide (e.code = 0x001 ∧ e.source = 0x1000 + r.val)) = true ∧
      u.clusters = s.clusters ∧ u.parts = s.parts := by
  obtain ⟨dcycle, step, hexpire⟩ := State.expire_of_unrecorded hwaits hrec t
  have halarm := Reports.alarm ((s.expiryTaken r.val w dcycle step).cause (.reach r.val) Reg.RCH_BCAUSE_watchdog r.val) t (srcOf 1 r.val)
    0x001 w.record
  have hkey : fieldKey Reg.RCH_BCAUSE_watchdog r.val 0 < reportKeys := fieldKey_lt_reportKeys (by decide) (by omega)
  have hreach := rchIs_setRch s r.val ((s.rch r.val).expired w)
  have hrch (q : Nat) := halarm.expiryTaken_apply (State.rch · q) (fun _ _ => rfl) fun h => h.rch q
  have hfield {f : Field} {n : Nat} (hmem : (f, n) ∈ w.fields dcycle step) (hn : n < 2 ^ f.width) :=
    halarm.rg_expiryTaken r.isLt hmem hn
  refine ⟨_, next_of_done (exec_berthWatchdog howner hwaits hindex hfresh hon) hexpire ?pending, ?latched, decide_eq_true ?valid,
    hfield ?kind (b2n_lt_two _), hfield ?parity (b2n_lt_two _), hfield ?position hposition, hfield ?index (hindex ▸ index.isLt),
    ⟨(hrch r.val).trans hreach.1, fun q hq => (hrch q).trans (hreach.2 q hq)⟩, ?alarmed, ?clusters, ?parts⟩
  case pending => exact halarm.expiryTaken_apply State.pending (fun _ _ => rfl) fun h => h.pending
  case latched => exact (halarm.on hkey).trans (State.on_cause _ _ rfl hkey)
  case valid => exact hfield (by simp [Wait.fields]) Nat.one_lt_two
  case kind | parity | position | index => simp [Wait.fields]
  case alarmed =>
    have hweir : ((s.expiryTaken r.val w dcycle step).cause (.reach r.val) Reg.RCH_BCAUSE_watchdog r.val).weir = s.weir := by
      rw [State.cause_weir, State.expiryTaken_weir]
    exact State.any_alarms_alarm (hweir ▸ hroom) (srcOf 1 r.val) 0x001 w.record
  case clusters => exact halarm.expiryTaken_apply State.clusters (fun _ _ => rfl) fun h => h.clusters
  case parts => exact halarm.expiryTaken_apply State.parts (fun _ _ => rfl) fun h => h.parts

end Sys2Proof.Machine

namespace Sys2Proof.Proofs
open Sys2Proof.Machine Sys2Proof.Claims

/-- Settles O19: an arrival by the rows of R195, a clear by those of R200; the value that a port takes is that of design cycle n from the one
in progress, where it has taken n; the first expiry is recorded with the fields of its wait. -/
theorem berths : Obligations.Berths := by
  unfold Obligations.Berths
  refine ⟨fun s r b source tag value parity epoch t howner => ?arrival, fun s r tag parity epoch t howner => ?clear,
    fun s t port h v l => ?fill, fun s r t w index howner hwaits hindex hfresh hon hrec hposition hroom => ?watchdog⟩
  case arrival =>
    have hexec := exec_berthArrival howner b source tag parity epoch value
    refine ⟨fun hepoch => ?stale, fun hepoch hkind => ?unmapped, fun hepoch hkind hother => ?mismatch,
      fun hepoch hkind hmap hvalid => ?full, fun hepoch hkind hmap hvalid hflip => ?empty⟩
    case stale => exact next_of_done hexec (State.arrival_of_stale hepoch) rfl
    case unmapped => exact (State.arrival_of_unmapped hepoch r.isLt hkind).answered hexec
    case mismatch => exact (State.arrival_of_mismatch hepoch hkind r.isLt hother).answered hexec
    case full => exact (State.arrival_of_full hepoch hkind hmap r.isLt hvalid).answered hexec
    case empty => exact exec_berthArrival_of_empty howner hepoch hkind hmap hvalid hflip value
  case clear =>
    have hexec := exec_berthClear howner tag parity epoch
    refine ⟨fun hepoch => ?stale, fun hepoch hzero => ?stray, fun hepoch hone hflip => ?cleared⟩
    case stale => exact next_of_done hexec (State.clearArrives_of_stale hepoch) rfl
    case stray => exact next_of_done hexec (State.clearArrives_of_stray hepoch hzero) (State.cause_pending ..)
    case cleared => exact exec_berthClear_of_outstanding howner hepoch rfl hone hflip
  case fill =>
    intro x q r p hports hport hinput hflag hqueue htaken hvalid hlog hlock hphase hpound hflip
    have htag : BitVec.ofNat 12 port.toNat = port.setWidth 12 := BitVec.eq_of_toNat_eq (by simp)
    have hfill := State.fillBlocking_of_empty hports hport hinput hflag rfl rfl rfl hqueue htaken hvalid hlog hlock hphase hpound
    rw [htag] at hfill
    have hspec := State.fillPort_spec hflip t.val port.toNat r h.berth (p := p) v (port.setWidth 12)
      { q with queue := l, taken := q.taken ++ [v] }
    have hpending := congrArg State.pending hspec.1
    exact ⟨_, next_of_done rfl hfill hpending, hspec⟩
  case watchdog =>
    exact exec_berthWatchdog_of_unrecorded howner hwaits hindex hfresh hon hrec hposition hroom

end Sys2Proof.Proofs
end

section
/-!
PROOFS. Accepted barges of VC0 whose spn no loaded partition holds, and the statement BargeArrivals, which it refutes (R232, R233, R243,
R319).
-/
namespace Sys2Proof.Machine
open Sys2Proof.Claims

@[simp] theorem State.setLnk_setLnk_same (s : State) (l : Nat) (x y : Link) : (s.setLnk l x).setLnk l y = s.setLnk l y := by
  simp only [State.setLnk, Tbl.put_put_same]

theorem State.cause_spnBad (s : State) (b : Blk) (f : Field) (i v : Nat) : (s.cause b f i v).spnBad = s.spnBad := by
  have hframe := congrArg State.spnBad (s.cause_notified b f i v).frame
  exact hframe

/-- The receiver once it has accepted a sequenced barge (R232). -/
def Link.accepted (x : Link) : Link :=
  let y := atNextBarge x
  { y with expected := (y.expected + 1) % 4096, nak := false, episode := false }

theorem Link.nextBarge_eq (x : Link) : x.nextBarge = (x.spoiled.getLsbD x.bargeNo, atNextBarge x) := rfl

section
variable {s : State} {l : Nat} {b : Barge}

/-- A whole sequenced barge of the expected round and number is accepted by an Active link. -/
theorem State.bargeIn_of_expected (hactive : s.rg Reg.AQ_STATUS_state l = 6) (hlink : bLink b = false) (hsound : Sound s l b)
    (hecho : bEcho b = (atNextBarge (s.lnk l)).expRound) (hseq : bcell b 0 = (atNextBarge (s.lnk l)).expected) :
    s.bargeIn l b = (s.setLnk l (s.lnk l).accepted).deliver l b := by
  obtain ⟨hspoiled, hcrc⟩ := hsound
  simp [State.bargeIn, State.takesBarges, State.trainStep, State.lstate, State.active, hactive, hlink, Link.nextBarge_eq, hspoiled, hcrc,
    Link.receive, hecho, hseq, Link.accepted]

/-- A VC0 barge for this device that has room, and whose spn no loaded partition holds, latches that; the spn directory is healed on the
way (R243, R319). -/
theorem State.deliver_of_unknownSpn (hvc : bVc b = 0) (hknown : bargeKnown b = true) (hroom : (s.lnk l).vc0Held + bCount b ≤ 2048)
    (hhere : bcell b 2 = s.devid) (hspn : s.tenantOf (bcell b 4) = none) :
    s.deliver l b = s.healSpns.cause (.link l) Reg.AQ_CAUSE_unknown_spn l := by
  have hfit : s.vc0Room l (bCount b) = bCount b := by
    rw [State.vc0Room]
    omega
  have hsome : bCount b ≠ 0 := by
    simp only [bargeKnown, Bool.and_eq_true, decide_eq_true_eq] at hknown
    omega
  simp [State.deliver, hknown, hvc, hfit, hsome, hhere, State.vc0Local, hspn, linkCause]

end

/-- An accepted value or clear record of an unknown spn latches its cause on a healed spn directory. -/
theorem exec_barge_of_unknownSpn {s : State} {l : Fin 16} {b : Barge} (hactive : s.rg Reg.AQ_STATUS_state l.val = 6)
    (hlink : bLink b = false) (hsound : Sound s l.val b) (hecho : bEcho b = (atNextBarge (s.lnk l.val)).expRound)
    (hseq : bcell b 0 = (atNextBarge (s.lnk l.val)).expected) (hvc : bVc b = 0) (hknown : bargeKnown b = true)
    (hroom : (s.lnk l.val).accepted.vc0Held + bCount b ≤ 2048) (hhere : bcell b 2 = s.devid) (hspn : s.tenantOf (bcell b 4) = none) :
    exec (.barge l b) s =
      done s ((s.setLnk l.val (s.lnk l.val).accepted).healSpns.cause (.link l.val) Reg.AQ_CAUSE_unknown_spn l.val) := by
  have hdeliver : (s.setLnk l.val (s.lnk l.val).accepted).deliver l.val b = _ :=
    State.deliver_of_unknownSpn hvc hknown (by rwa [State.lnk_setLnk_same]) hhere hspn
  exact congrArg (done s) ((State.bargeIn_of_expected hactive hlink hsound hecho hseq).trans hdeliver)

end Sys2Proof.Machine

namespace Sys2Proof.Proofs
open Sys2Proof.Machine Sys2Proof.Claims

/-- Link 0 of device 9 Active, no partition loaded, and the spn entry of tenant 2 failing parity, as an armed flip leaves it (R320,
R346). -/
def brokenDirectory : State :=
  let fields := [(Reg.PWR_MODE_mode, 0, 1), (Reg.AQ_DEVID_devid, 0, 9), (Reg.AQ_STATUS_state, 0, 6), (Reg.AQ_SPNt_spn, 2, 6)]
  { fields.foldl (fun s e => s.setRg e.1 e.2.1 e.2.2) State.reset with spnBad := [2], spnCopy := [(2, 7)] }

/-- The value record that device 5 sends to device 9 for spn 77, first in round 0. -/
def strayValue : Barge := sealBarge (seqBarge 0 0 1 9 5 77 [1, 2, 3, 0]) 0 0

/-- A use of the directory leaves no failing entry: keeper 0 writes it again from its copy. -/
theorem brokenDirectory_healed : (brokenDirectory.setLnk 0 (brokenDirectory.lnk 0).accepted).healSpns.spnBad = [] := by decide +kernel

/-- Refutes O20: at a link where a value record of an unknown spn arrives while an entry of the spn directory fails parity, the entry is
counted and rewritten too (R319, R326; log entry 71), where the statement has the cause latched and nothing else. With no such entry there
is nothing to heal, and the clause holds by `exec_barge_of_unknownSpn`. -/
theorem not_bargeArrivals : ¬ Obligations.BargeArrivals := by
  unfold Obligations.BargeArrivals
  intro h
  obtain ⟨-, hsequenced, -⟩ := h
  have hactive : brokenDirectory.rg Reg.AQ_STATUS_state (0 : Fin 16).val = 6 := by decide +kernel
  have hlink : bLink strayValue = false := by decide +kernel
  have hsound : Sound brokenDirectory (0 : Fin 16).val strayValue := by
    constructor <;> decide +kernel
  have hecho : bEcho strayValue = (atNextBarge (brokenDirectory.lnk (0 : Fin 16).val)).expRound := by decide +kernel
  have hseq : bcell strayValue 0 = (atNextBarge (brokenDirectory.lnk (0 : Fin 16).val)).expected := by decide +kernel
  have hvc : bVc strayValue = 0 := by decide +kernel
  have hhere : bcell strayValue 2 = brokenDirectory.devid := by decide +kernel
  have hspn : brokenDirectory.tenantOf (bcell strayValue 4) = none := by decide +kernel
  obtain ⟨-, hwhole⟩ := hsequenced brokenDirectory 0 strayValue hactive hlink
  obtain ⟨-, -, haccepted⟩ := hwhole hsound
  obtain ⟨-, hunknown, -⟩ := haccepted hecho hseq
  have hclaim := hunknown hvc (by decide +kernel) (by decide +kernel) (by decide +kernel) (by decide +kernel) hhere hspn
  rw [exec_barge_of_unknownSpn hactive hlink hsound hecho hseq hvc (by decide +kernel) (by decide +kernel) hhere hspn] at hclaim
  have hdirectory := congrArg State.spnBad (Host.Outcome.next.inj hclaim)
  simp only [State.cause_spnBad] at hdirectory
  exact absurd (brokenDirectory_healed.symm.trans hdirectory) (List.cons_ne_nil _ _).symm

end Sys2Proof.Proofs
end

section
/-!
PROOFS. The end of Align, and the statement LinkTraining, which it refutes (R223, R247, R248).
-/
namespace Sys2Proof.Machine

/-- A link at the start of Lock: trains and the count of codewords begin anew in both directions (R225, R247). -/
def Link.lockBegun (x : Link) : Link := { x with goodWords := 0, codeword := 0, bargeNo := 0, spoiled := 0, rxData := [], train := [] }

/-- A link whose spare lane's generator stands somewhere enters Lock from training. -/
theorem State.toStep_lock {s : State} {l : Nat} (hspare : (s.lnk l).spareGen ≠ 0) (hst : s.rg Reg.AQ_STATUS_state l ≠ 7) :
    s.toStep l 4 = (s.setLnk l (s.lnk l).lockBegun).setRg Reg.AQ_STATUS_state l 4 := by
  simp [State.toStep, hspare, State.modLnk, State.lstate, hst, State.setLstate, Link.lockBegun]

/-- A link whose receiver hears lane `far` of the peer for the first time in Align. -/
def Link.heard (x : Link) (far : Nat) : Link := { x with aligned := far :: x.aligned }

/-- The good frame in which the last of five lanes reports its number ends Align. -/
theorem exec_trainingFrame_of_lastLane {s : State} {l : Fin 16} {lane : Fin 5} {f : BitVec 96} (hframe : frameOk f.toNat = true)
    (hst : s.rg Reg.AQ_STATUS_state l.val = 3) (hfar : bits f.toNat 48 3 ≤ 4) (hnew : bits f.toNat 48 3 ∉ (s.lnk l.val).aligned)
    (hfour : (s.lnk l.val).aligned.length = 4) (hspare : (s.lnk l.val).spareGen ≠ 0) : exec (.trainingFrame l lane f) s =
      .next ((s.setLnk l.val ((s.lnk l.val).heard (bits f.toNat 48 3)).lockBegun).setRg Reg.AQ_STATUS_state l.val 4) := by
  have hlock : (s.setLnk l.val ((s.lnk l.val).heard (bits f.toNat 48 3))).toStep l.val 4 = _ :=
    State.toStep_lock (by rwa [State.lnk_setLnk_same]) (by simp [hst])
  rw [State.lnk_setLnk_same, State.setLnk_setLnk_same] at hlock
  refine next_of_done rfl (Eq.trans ?_ hlock) rfl
  simp [State.frameIn, hframe, State.trainStep, State.lstate, hst, Nat.not_lt.2 hfar, State.modLnk, addOnce, hnew, hfour, Link.heard]

end Sys2Proof.Machine

namespace Sys2Proof.Proofs
open Sys2Proof.Machine Sys2Proof.Claims

/-- Link 0 in Align with four lanes aligned. One status barge of a train is in hand from a Lock that overran its bound, after which the
link went back to Detect (R247). -/
def alignAfterLock : State :=
  let b := linkBarge 4095 0 [0, 0, 0, 0]
  { State.reset.setRg Reg.AQ_STATUS_state 0 3 with links := [(0, { aligned := [3, 2, 1, 0], spareGen := 1, train := [b], sent := [b] })] }

/-- The training frame in which a lane hears lane 4 of the peer. -/
def frameFromLane4 : BitVec 96 := BitVec.ofNat 96 (0x5F0A3C96 + 4 * 2 ^ 48 + crcOf 2 (leBytes 6 (4 * 2 ^ 16)) * 2 ^ 80)

/-- Refutes O21: Lock begins with an empty train, so that the barge in hand from an earlier Lock is dropped as the last lane aligns
(`exec_trainingFrame_of_lastLane`). The statement lists what Lock begins anew and leaves out the train. -/
theorem not_linkTraining : ¬ Obligations.LinkTraining := by
  unfold Obligations.LinkTraining
  intro h
  obtain ⟨-, -, -, -, -, -, -, hlast, -⟩ := h alignAfterLock 0 0 0 frameFromLane4
  have hst : alignAfterLock.rg Reg.AQ_STATUS_state (0 : Fin 16).val = 3 := by decide +kernel
  obtain ⟨t, hstep, -, -, -, -, -, hlink, -⟩ := hlast (by decide +kernel) hst (by decide +kernel) (by decide +kernel) rfl
  rw [exec_trainingFrame_of_lastLane (by decide +kernel) hst (by decide +kernel) (by decide +kernel) rfl (by decide +kernel)] at hstep
  cases hstep
  have htrain := congrArg Link.train hlink
  rw [State.lnk_setRg, State.lnk_setLnk_same] at htrain
  exact absurd htrain (List.cons_ne_nil _ _).symm

end Sys2Proof.Proofs
end

section
/-!
PROOFS. Buckets saturate, and the statement Transmitter, which it refutes (R234, R324).
-/
namespace Sys2Proof.Machine
open Sys2Proof.Claims

/-! ### The fault accounting under a log record (R490, R491) -/

theorem Notified.tst {s t : State} (h : Notified s t) : t.tst = s.tst := by
  have hframe := congrArg State.tst h.frame
  exact hframe

theorem State.cause_tst (s : State) (b : Blk) (f : Field) (i v : Nat) : (s.cause b f i v).tst = s.tst := (s.cause_notified b f i v).tst

theorem State.ringPoll_tst (s : State) : s.ringPoll.tst = s.tst := by
  unfold State.ringPoll
  extract_lets
  split
  · split <;> rfl
  · rfl

theorem State.tst_of_ringTry {s u : State} {n : Nat} {b : Bool} (h : s.ringTry n = (b, u)) : u.tst = s.tst := by
  simp only [State.ringTry] at h
  split at h
  · cases h; rfl
  · split at h
    · cases h; exact s.ringPoll_tst
    · cases h; exact (State.cause_tst ..).trans s.ringPoll_tst

theorem State.ringWrite_tst (s : State) (e : Event) : (s.ringWrite e).tst = s.tst := by
  simp only [State.ringWrite]
  split
  · exact State.cause_tst ..
  · rfl

theorem State.marker_tst (owner b : Nat) (s : State) : (State.marker owner b s).tst = s.tst := by
  simp only [State.marker]
  split
  · rfl
  · split
    · next htry => exact (State.ringWrite_tst ..).trans ((State.setRg_tst ..).trans (State.tst_of_ringTry htry))
    · next htry => exact State.tst_of_ringTry htry

theorem State.markers_tst (s : State) (owner : Nat) : (s.markers owner).tst = s.tst :=
  each_induction (P := fun t => t.tst = s.tst) rfl fun b _ t ht => (State.marker_tst owner b t).trans ht

theorem State.log_tst (s : State) (owner source code data : Nat) : (s.log owner source code data).tst = s.tst := by
  simp only [State.log]
  split
  · exact s.markers_tst owner
  · split
    · exact s.markers_tst owner
    · split
      · next htry => exact (State.ringWrite_tst ..).trans ((State.tst_of_ringTry htry).trans (s.markers_tst owner))
      · next htry => exact (State.tst_of_ringTry htry).trans (s.markers_tst owner)

/-! ### Buckets (R324) -/

/-- The buckets and the thresholds of the classes. -/
def State.buckets (s : State) : Tbl Nat × Tbl Nat := (s.tst.buckets, s.tst.thresholds)

theorem State.elog_buckets (s : State) (e : ElogEntry) : (s.elog e).buckets = s.buckets := by
  simp only [State.elog]
  split
  · rw [State.buckets, (Notified.edge _ 57).tst, State.log_tst]
    rfl
  · rfl

/-- The accounting of a fault adds 64 or 1 to one bucket, up to 255, and leaves the thresholds. -/
theorem State.tally_buckets (s : State) (uc : Bool) (source cls inst addr : Nat) : (s.tally uc source cls inst addr).buckets =
    (s.tst.buckets.put (cls * 512 + inst) (satAdd 255 (s.bucket cls inst) (if uc then 64 else 1)), s.tst.thresholds) := by
  unfold State.tally
  extract_lets mine _ s1 old new s2 _ s3 room s4
  have hmine : s1.buckets = s.buckets := by
    simp only [s1]
    split <;> rfl
  have hold : old = s.bucket cls inst := congrArg (fun a : Tbl Nat × Tbl Nat => a.1.get (cls * 512 + inst) 0) hmine
  have hlogged : s2.buckets = s.buckets := (s1.elog_buckets _).trans hmine
  have hput : s3.buckets = (s.tst.buckets.put (cls * 512 + inst) (satAdd 255 (s.bucket cls inst) (if uc then 64 else 1)),
      s.tst.thresholds) := by
    rw [← hold]
    exact congrArg (fun a : Tbl Nat × Tbl Nat => (a.1.put (cls * 512 + inst) new, a.2)) hlogged
  have hfull : s4.buckets = s3.buckets := s3.elog_buckets _
  have hedge : (s4.edge 57).buckets = s4.buckets := congrArg (fun x => (x.buckets, x.thresholds)) (Notified.edge s4 57).tst
  split
  · split
    · exact hfull.trans hput
    · exact hedge.trans (hfull.trans hput)
  · exact hput

theorem State.bucket_tally (s : State) (uc : Bool) (source cls inst addr : Nat) :
    (s.tally uc source cls inst addr).bucket cls inst = satAdd 255 (s.bucket cls inst) (if uc then 64 else 1) := by
  have hbuckets := congrArg Prod.fst (s.tally_buckets uc source cls inst addr)
  exact (congrArg (fun a : Tbl Nat => a.get (cls * 512 + inst) 0) hbuckets).trans (Tbl.get_put_same ..)

theorem State.threshold_tally (s : State) (uc : Bool) (source cls inst addr c : Nat) :
    (s.tally uc source cls inst addr).threshold c = s.threshold c := by
  have hthresholds := congrArg Prod.snd (s.tally_buckets uc source cls inst addr)
  exact congrArg (fun a : Tbl Nat => max 1 (a.get c 255)) hthresholds

/-! ### A replay (R234, R235) -/

/-- A fault of a link whose bucket does not fill is only accounted (R259). -/
theorem State.linkFault_of_spare {s : State} {l : Nat} (h : BucketSpare s l) (lane : Nat) :
    s.linkFault l lane = s.tally false 0 7 l lane := by
  have hspare : s.bucket 7 l + 1 < s.threshold 7 := h
  rw [State.linkFault, State.bucket_tally, State.threshold_tally, if_neg]
  simp only [Bool.false_eq_true, if_false, satAdd]
  omega

/-- All that is unacknowledged is sent again. -/
def Link.replayed (x : Link) : Link := { x with replaying := x.window, replayRuns := x.replayRuns + 1 }

/-- A replay below the limit is counted and accounted as one fault of the link. -/
theorem exec_replayTimeout_of_spare {s : State} {l : Fin 16} (hactive : s.rg Reg.AQ_STATUS_state l.val = 6) (hsent : (s.lnk l.val).window ≠ [])
    (hruns : (s.lnk l.val).replayRuns < max 1 (s.rg Reg.AQ_THR_replay_limit l.val)) (hspare : BucketSpare s l.val) :
    exec (.replayTimeout l) s =
      .next (((s.setLnk l.val (s.lnk l.val).replayed).count Reg.AQ_CNT_REPLAY_replays l.val 1).tally false 0 7 l.val 0) := by
  refine next_of_done rfl ?_ (Reports.tally ..).pending
  have hfault := State.linkFault_of_spare (s := (s.setLnk l.val (s.lnk l.val).replayed).count Reg.AQ_CNT_REPLAY_replays l.val 1) hspare 0
  simp only [State.active, hactive, decide_true, if_true, State.replayAll, hsent, if_false, atLeastOne, Nat.not_le.2 hruns]
  exact hfault

end Sys2Proof.Machine

namespace Sys2Proof.Proofs
open Sys2Proof.Machine Sys2Proof.Claims

/-- Link 0 Active with a VC1 read request unacknowledged, its bucket at 255, and 300 as the threshold of class 7, a field of eight bits (R324,
R345). -/
def wideThreshold : State :=
  { State.reset.setRg Reg.AQ_STATUS_state 0 6 with
    links := [(0, { window := [sealBarge (seqBarge 1 0 1 5 9 77 []) 0 0] })]
    tst := { buckets := [(7 * 512, 255)], thresholds := [(7, 300)] } }

/-- Refutes O22: the bucket that a replay adds to saturates at 255 (R324). Where the threshold lies beyond, which the statement does not
rule out although no write of TST_BKT leaves it there, a bucket at 255 has room by the statement's measure and gains nothing. A bucket
below 255 gains 1, by `exec_replayTimeout_of_spare` and `State.bucket_tally`. -/
theorem not_transmitter : ¬ Obligations.Transmitter := by
  unfold Obligations.Transmitter
  intro h
  obtain ⟨-, -, -, -, -, -, hreplay, -⟩ := h wideThreshold 0
  have hactive : wideThreshold.rg Reg.AQ_STATUS_state (0 : Fin 16).val = 6 := by decide +kernel
  have hsent : (wideThreshold.lnk (0 : Fin 16).val).window ≠ [] := List.cons_ne_nil _ _
  have hruns : (wideThreshold.lnk (0 : Fin 16).val).replayRuns < max 1 (wideThreshold.rg Reg.AQ_THR_replay_limit (0 : Fin 16).val) := by
    decide +kernel
  have hspare : BucketSpare wideThreshold (0 : Fin 16).val := by decide +kernel
  obtain ⟨t, hstep, -, -, hgain, -⟩ := hreplay hactive hsent hruns hspare
  rw [exec_replayTimeout_of_spare hactive hsent hruns hspare] at hstep
  cases hstep
  rw [State.bucket_tally] at hgain
  exact absurd hgain (by decide +kernel)

end Sys2Proof.Proofs
end

section
/-!
PROOFS. AQ_CTRL in the modes without links, and the statement LanesAndLinkControl, which it refutes (R247, R505).
-/
namespace Sys2Proof.Machine
open Sys2Proof.Claims

/-- The fields of AQ_CTRL of link l under a write: the retirement bit only sets, and the retrain bit is not stored (R8). -/
def State.storeAqCtrl (s : State) (l : Nat) (v : Word) : State :=
  let s := ((s.setRg Reg.AQ_CTRL_reach l (Reg.AQ_CTRL_reach.of v)).setRg Reg.AQ_CTRL_bridge_ok l (Reg.AQ_CTRL_bridge_ok.of v)).setRg
    Reg.AQ_CTRL_test l (Reg.AQ_CTRL_test.of v)
  (s.setRg Reg.AQ_CTRL_retire l (Nat.lor (s.rg Reg.AQ_CTRL_retire l) (Reg.AQ_CTRL_retire.of v))).setRg Reg.AQ_CTRL_enable l
    (Reg.AQ_CTRL_enable.of v)

theorem State.writeFields_aqCtrl (s : State) (who : Requester) (l : Nat) (v : Word) :
    s.writeFields Reg.AQ_CTRL who l v = s.storeAqCtrl l v := rfl

section
variable (s : State) {l : Nat} (v : Word)

theorem State.rg_storeAqCtrl {f : Field} {i : Nat} (haddr : f.addr ≠ Reg.AQ_CTRL.addr) (hlo : f.lo < 32) (hi : i < 8192) (hl : l < 8192) :
    (s.storeAqCtrl l v).rg f i = s.rg f i := by
  have hother (u : State) {g : Field} (w : Nat) (hg : g.addr = Reg.AQ_CTRL.addr ∧ g.lo < 32) : (u.setRg g l w).rg f i = u.rg f i := by
    obtain ⟨hgaddr, hglo⟩ := hg
    have hplace : f.place ≠ g.place := by
      simp only [Field.place]
      omega
    exact u.rg_setRg_other _ _ _ _ _ (fieldKey_ne_of_place hplace hi hl)
  simp only [State.storeAqCtrl]
  rw [hother _ _ (by decide), hother _ _ (by decide), hother _ _ (by decide), hother _ _ (by decide), hother _ _ (by decide)]

variable (hl : l < 16)
include hl

/-- A write of AQ_CTRL changes no link's state by its fields alone. -/
theorem State.lstate_storeAqCtrl {k : Nat} (hk : k < 16) : (s.storeAqCtrl l v).rg Reg.AQ_STATUS_state k = s.rg Reg.AQ_STATUS_state k :=
  s.rg_storeAqCtrl v (by decide) (by decide) (by omega) (by omega)

theorem State.mode_storeAqCtrl : (s.storeAqCtrl l v).mode = s.mode :=
  s.rg_storeAqCtrl v (by decide) (by decide) (by decide) (by omega)

/-- The fields of AQ_CTRL leave the use of the link's quadrant (R520). -/
theorem State.quadrantUsed_storeAqCtrl : (s.storeAqCtrl l v).quadrantUsed (l / 4) = s.quadrantUsed (l / 4) := by
  simp (disch := omega) [State.quadrantUsed, List.range_succ, s.lstate_storeAqCtrl v hl]

end

/-- In Sanitize and Standby, which have no links, an enable of a link in Off stores the fields of AQ_CTRL and starts no training (R505). -/
theorem exec_aqEnable_of_noLinks {s : State} {who : Requester} {v : Word} (hw : Writable s who Reg.AQ_CTRL.addr) (hl : s.selLink who < 16)
    (hoff : s.rg Reg.AQ_STATUS_state (s.selLink who) = 0) (hmode : 4 ≤ s.mode) (hen : Reg.AQ_CTRL_enable.of v = 1)
    (hretrain : Reg.AQ_CTRL_retrain.of v = 0) (hretire : Reg.AQ_CTRL_retire.of v = 0) :
    exec (.aqEnable who v) s = .next (s.storeAqCtrl (s.selLink who) v) := by
  refine done_asWriter hw ?_ rfl
  have hfree : s.fixedHit Reg.AQ_CTRL (s.selLink who) v = false := by
    have huse : s.inUse Reg.AQ_CTRL (s.selLink who) = decide (s.rg Reg.AQ_STATUS_state (s.selLink who) ≠ 0) := rfl
    simp [State.fixedHit, huse, hoff]
  have hvalue : badValue Reg.AQ_CTRL v = false := rfl
  have hquadrant : State.quadrant s (s.selLink who) (s.storeAqCtrl (s.selLink who) v) = s.storeAqCtrl (s.selLink who) v :=
    if_pos (s.quadrantUsed_storeAqCtrl v hl)
  simp [State.wAqCtrl, State.classWrite, hfree, hvalue, State.writeFields_aqCtrl, State.lstate, hoff, hen, hretrain, hretire,
    s.mode_storeAqCtrl v hl, hmode, hquadrant]

end Sys2Proof.Machine

namespace Sys2Proof.Proofs
open Sys2Proof.Machine Sys2Proof.Claims

/-- The device in Standby, every link Off, the PF serving memory requests and with link 0 selected. -/
def standbyDevice : State := { State.reset.setRg Reg.PWR_MODE_mode 0 5 with fns := [(0, { memEnable := true })] }

theorem standbyDevice_writable : Writable standbyDevice .pf 0x400008 := by
  refine ⟨fun _ => ?_, ?_, ?_, ?_, ?_⟩ <;> decide +kernel

/-- Refutes O23: in Standby, whose links are Off (R505), an enable leaves its link in Off (`exec_aqEnable_of_noLinks`). The statement
excludes Bring-up alone and has the link in Detect. -/
theorem not_lanesAndLinkControl : ¬ Obligations.LanesAndLinkControl := by
  unfold Obligations.LanesAndLinkControl
  intro h
  obtain ⟨-, hcontrol⟩ := h
  obtain ⟨hctrl, -⟩ := hcontrol standbyDevice .pf 1
  have hoff : standbyDevice.rg Reg.AQ_STATUS_state (standbyDevice.selLink .pf) = 0 := by decide +kernel
  have hl : standbyDevice.selLink .pf < 16 := by decide +kernel
  obtain ⟨henable, -⟩ := hctrl standbyDevice_writable hl (by decide +kernel)
  obtain ⟨t, hstep, -, -, hdetect, -⟩ := henable (by decide) hoff (by decide +kernel) (by decide +kernel) (by decide)
  rw [exec_aqEnable_of_noLinks standbyDevice_writable hl hoff (by decide +kernel) (by decide) (by decide) (by decide)] at hstep
  cases hstep
  have hstays := (standbyDevice.lstate_storeAqCtrl 1 hl hl).trans hoff
  exact absurd (hdetect.symm.trans hstays) Nat.one_ne_zero

end Sys2Proof.Proofs
end


section
/-!
PROOFS. What a command that answers has left, and the capture of a START under an armed flip: the statement StartAndUnload, which it
refutes (R283, R319, R346, R432).
-/
namespace Sys2Proof.Machine

/-- What a command answers is the state of its meaning, with the waiting commands as they stood. -/
theorem next_state_of_done {o : Host.Outcome State Fault Refusal} {s v u : State} (hmeaning : o = done s v) (hstep : o = .next u) :
    u = { v with pending := s.pending } := by
  rw [hmeaning, done] at hstep
  cases hstep
  rfl

/-- A register after a command that answers reads as its meaning leaves it. -/
theorem rg_next_of_done {o : Host.Outcome State Fault Refusal} {s v u : State} (hmeaning : o = done s v) (hstep : o = .next u)
    (f : Field) (i : Nat) : u.rg f i = v.rg f i := by
  rw [next_state_of_done hmeaning hstep]
  rfl

/-- A cluster after a command that answers stands as its meaning leaves it. -/
theorem clu_next_of_done {o : Host.Outcome State Fault Refusal} {s v u : State} (hmeaning : o = done s v) (hstep : o = .next u)
    (c : Nat) : u.clu c = v.clu c := by
  rw [next_state_of_done hmeaning hstep]
  rfl

/-- The device at reset but for the listed register fields. -/
def State.withFields (l : List (Field × Nat × Nat)) : State := l.foldl (fun s e => s.setRg e.1 e.2.1 e.2.2) State.reset

/-- The partition of tenant t as START has it captured: the lock in hand is its start lock (R268, R432). -/
def State.startFlight (s : State) (t : Nat) (cmd : BitVec 16) : State :=
  ((s.openCmd t cmd 2 0).modPart t fun x => { x with starting := true, atLock := true, captured := false }).setPhase t 1

/-- A START that the modes accept is the capture at the start lock. -/
theorem exec_start_of_accepted {s : State} {t : Fin 16} {cmd : BitVec 16} (hopen : (s.part t.val).openCmds = [])
    (hmode : s.mode = 1) (hloading : s.pmode t.val = 1) (hfetched : s.fetched.get t.val [] = []) :
    exec (.start t cmd) s =
      done s ((({ s with fetched := s.fetched.put t.val [] } : State).startFlight t.val cmd).capture t.val 0 0) := by
  have hagrees : s.agrees t.val cmd 2 (fun _ => true) = true := by simp [State.agrees, hfetched]
  have hloading' : ({ s with fetched := s.fetched.put t.val [] } : State).pmode t.val = 1 := hloading
  have hmode' : ({ s with fetched := s.fetched.put t.val [] } : State).mode = 1 := hmode
  have hmeaning : exec (.start t cmd) s = done s (s.command t.val cmd 2 [1] fun s => (s.startFlight t.val cmd).capture t.val 0 0) := rfl
  rw [hmeaning, State.command]
  simp [hopen, hmode, hagrees, hmode', hloading']

end Sys2Proof.Machine

namespace Sys2Proof.Proofs
open Sys2Proof.Machine Sys2Proof.Claims

/-- Ready. Tenant 0 is in Loading on reach 0, alone on this device: cluster 0 plays position 0, and the others of the reach are spares. A
flip of bit 0 is armed for the staging buffers, class 9 (R346). -/
def flippedLoading : State :=
  { State.withFields ([(Reg.PWR_MODE_mode, 0, 1), (Reg.WHF_TSTAT_mode, 0, 1), (Reg.TST_FLIP_SEL_class, 0, 9), (Reg.TST_FLIP_mask, 0, 1),
      (Reg.TST_FLIP_arm, 0, 1)] ++ (List.range 16).map fun i => (Reg.CLU_ROLE_role, i + 1, 0x1F)) with
    parts := [(0, { bound := [0] })] }

/-- The flip meets segment C on its way through the staging buffers, so that a cell of it fails parity: the capture has failed, and the
device, which decides alone, rolls back in place of the commit (R283, R287). -/
theorem flippedLoading_capture_phase :
    ((({ flippedLoading with fetched := flippedLoading.fetched.put 0 [] } : State).startFlight 0 7).capture 0 0 0).rg
      Reg.LCK_STATUSt_phase 0 = 4 := by decide +kernel

/-- Refutes O35: where a flip armed for the staging buffers spoils the capture, which the statement does not rule out, a START ends in a
rollback and not in a commit. -/
theorem not_startAndUnload : ¬ Obligations.StartAndUnload := by
  unfold Obligations.StartAndUnload
  intro h
  obtain ⟨hstart, -⟩ := h flippedLoading 0 7 0
  have haccepted : Accepted flippedLoading (0 : Fin 16).val 7 2 [] [1] := by
    refine ⟨?_, ?_, ?_, ?_⟩ <;> decide +kernel
  have hclean : StartClean flippedLoading (0 : Fin 16).val := by
    refine ⟨?_, ?_, ?_, ?_, ?_, ?_, ?_, ?_⟩ <;> decide +kernel
  have halone : Alone flippedLoading (0 : Fin 16).val := by
    refine ⟨?_, ?_⟩ <;> decide +kernel
  obtain ⟨u, hstep, -, -, -, hphase, -⟩ := hstart haccepted hclean halone
  have hmeaning := exec_start_of_accepted (s := flippedLoading) (t := 0) (cmd := 7) (by decide +kernel) (by decide +kernel)
    (by decide +kernel) (by decide +kernel)
  have hrolls := (rg_next_of_done hmeaning hstep Reg.LCK_STATUSt_phase 0).trans flippedLoading_capture_phase
  exact absurd (hphase.symm.trans hrolls) (by decide)

end Sys2Proof.Proofs
end

section
/-!
PROOFS. A restore within which an armed role takes effect, and the statement RollbackAndRestore, which it refutes (R81, R302, R337).
-/
namespace Sys2Proof.Proofs
open Sys2Proof.Machine Sys2Proof.Claims

/-- A committed checkpoint of a lock, with nothing in its segments. -/
def emptyCkpt (lock : Nat) : Ckpt :=
  { lock := lock, committed := true, start := false, exported := false, released := false, epoch := 0, segC := [], segK := [], segU := [],
    segL := [], bad := [] }

/-- Tenant 0 on reach 0 is a leaf below device 5, to which link 0 leads, and restores lock 7. Cluster 0 plays position 0 and stands at word
9 of its program; a write of CLU_ROLE that makes it a spare waits for the next step boundary (R81). -/
def armedRestore : State :=
  { State.withFields [(Reg.WHF_TSTAT_mode, 0, 2), (Reg.LCK_STATUSt_phase, 0, 4), (Reg.AQ_STATUS_state, 0, 6),
      (Reg.LCK_TREE_DATA_valid, 0, 1), (Reg.LCK_TREE_DATA_device, 0, 5)] with
    routes := [(11, store 1)]
    parts := [(0, { hdr := { deviceCount := 2 }, bound := [0], target := 7, ckpts := [emptyCkpt 7] })]
    clusters := [(0, { pc := 9, roleArmed := some 0x1F })] }

theorem exec_restoreComplete_armedRestore :
    exec (.restoreComplete 0) armedRestore = done armedRestore (armedRestore.restoreActions 0) := by
  have hphase : armedRestore.phase (0 : Fin 16).val = 4 := by decide +kernel
  have hfresh : (armedRestore.part (0 : Fin 16).val).restoreDone = false ∧ (armedRestore.part (0 : Fin 16).val).hooksOpen = [] := by
    decide +kernel
  exact congrArg (done armedRestore) (if_pos ⟨hphase, hfresh⟩)

/-- The role takes effect within the restore: cluster 0 has given up its position, and nothing is restored there. -/
theorem armedRestore_restoreActions_pc : ((armedRestore.restoreActions 0).clu 0).pc = 9 := by decide +kernel

/-- Refutes O26: a restore starts the next pound on the clusters that play the partition's positions once the roles that waited have taken
effect (R337). The statement has it on those that played them before, also on one whose armed role is that of a spare. -/
theorem not_rollbackAndRestore : ¬ Obligations.RollbackAndRestore := by
  unfold Obligations.RollbackAndRestore
  intro h
  obtain ⟨-, hcomplete⟩ := h
  obtain ⟨-, hrestore⟩ := hcomplete armedRestore 0 5
  have hhooks : NoHooks armedRestore (0 : Fin 16).val := by decide +kernel
  have hleaf : LeafBelow armedRestore (0 : Fin 16).val 5 := by
    constructor <;> decide +kernel
  have huntroubled : Untroubled armedRestore (0 : Fin 16).val := by
    refine ⟨?_, ?_, ?_⟩ <;> decide +kernel
  obtain ⟨-, husable⟩ := hrestore (by decide +kernel) (by decide +kernel) (by decide +kernel) (by decide +kernel) hhooks hleaf
    (by decide +kernel) (by decide +kernel) (by decide +kernel)
  obtain ⟨u, hstep, -, -, -, -, -, -, -, -, -, hclusters, -⟩ := husable (by decide +kernel) huntroubled
  obtain ⟨hpc, -⟩ := hclusters (emptyCkpt 7) (by decide +kernel) 0 (by decide +kernel)
  have hstays : (u.clu 0).pc = 9 :=
    (congrArg Cluster.pc (clu_next_of_done exec_restoreComplete_armedRestore hstep 0)).trans armedRestore_restoreActions_pc
  exact absurd (hpc.symm.trans hstays) (by decide)

end Sys2Proof.Proofs
end

section
/-!
PROOFS. A lock number beyond the 24 bits of LCK_CKPTt.newest, and the statement LockCapture, which it refutes (R267, R288).
-/
namespace Sys2Proof.Proofs
open Sys2Proof.Machine Sys2Proof.Claims

/-- Tenant 0, alone on this device and without a reach, stands at a start lock of number 2^24, which no LOAD_EXPORT brings. -/
def wideLock : State :=
  { State.withFields [(Reg.WHF_TSTAT_mode, 0, 2), (Reg.LCK_STATUSt_phase, 0, 1)] with
    parts := [(0, { atLock := true, starting := true, startLock := 2 ^ 24 })] }

theorem wideLock_mayCapture : wideLock.mayCapture 0 = true := by decide +kernel

theorem exec_lockCapture_wideLock : exec (.lockCapture 0 (0, 0)) wideLock = done wideLock (wideLock.capture 0 0 0) :=
  congrArg (done wideLock) (if_pos wideLock_mayCapture)

theorem wideLock_capture_newest : (wideLock.capture 0 0 0).rg Reg.LCK_CKPTt_newest 0 = 0 := by decide +kernel

/-- Refutes O25: the commit that follows a capture writes the number of its lock to the 24 bits of LCK_CKPTt.newest. The statement does
not rule out a lock in hand of number 2^24, though no command of the device leaves one there, and has the register show it. -/
theorem not_lockCapture : ¬ Obligations.LockCapture := by
  unfold Obligations.LockCapture
  intro h
  obtain ⟨-, hcapture⟩ := h wideLock 0 0 0 0
  have hhooks : NoHooks wideLock (0 : Fin 16).val := by decide +kernel
  have halone : Alone wideLock (0 : Fin 16).val := by
    refine ⟨?_, ?_⟩ <;> decide +kernel
  have huntroubled : Untroubled wideLock (0 : Fin 16).val := by
    refine ⟨?_, ?_, ?_⟩ <;> decide +kernel
  obtain ⟨-, hcommits⟩ := hcapture wideLock_mayCapture hhooks (by decide +kernel) (by decide +kernel) (by decide +kernel)
    (by decide +kernel) (by decide +kernel) (by decide +kernel) (by decide +kernel) (by decide +kernel) (by decide +kernel)
    (by decide +kernel) (by decide +kernel) rfl rfl
  obtain ⟨u, hstep, hnewest, -⟩ := hcommits halone (by decide) (by decide +kernel) huntroubled
  have hlock : wideLock.lockNo (0 : Fin 16).val = 2 ^ 24 := by decide +kernel
  have hshown := (rg_next_of_done exec_lockCapture_wideLock hstep Reg.LCK_CKPTt_newest 0).trans wideLock_capture_newest
  exact absurd ((hshown.symm.trans hnewest).trans hlock) (by decide)

end Sys2Proof.Proofs
end

section
/-!
PROOFS. The lock that LCK_EXPORTt shows after an export, and the statement SuspensionAndLockCommands, which it refutes (R311, R312).
-/
namespace Sys2Proof.Machine

/-- A record written to a queue moves the pointer of that queue and no other register. -/
theorem State.regs_qwrite (s : State) (fn kind : Nat) (e : Entry) : (s.qwrite fn kind e).regs =
    (s.setRg Reg.WHF_QCFG_dptr (qid fn kind) ((s.rg Reg.WHF_QCFG_dptr (qid fn kind) + 1) % s.qlen (qid fn kind))).regs := by
  rw [State.qwrite]
  split
  · rw [State.msixSend_regs, State.batch_regs]
    rfl
  · rw [State.batch_regs]
    rfl

/-- A posting writes none of the registers below the test and error block: the pointer of its queue lies above. -/
theorem State.rg_post (s : State) (fn kind : Nat) (e : Entry) {f : Field} {i : Nat} (hkey : fieldKey f i 0 < reportKeys) :
    (s.post fn kind e).rg f i = s.rg f i := by
  rw [State.post]
  split
  · rw [State.rg_of_regs (State.regs_qwrite s fn kind e)]
    exact (Reports.setRg s _ _ (by decide)).rg hkey
  · rfl

theorem State.rg_complete (s : State) (t cmd status kind r0 r1 r2 : Nat) {f : Field} {i : Nat} (hkey : fieldKey f i 0 < reportKeys) :
    (s.complete t cmd status kind r0 r1 r2).rg f i = s.rg f i := State.rg_post s _ _ _ hkey

/-- LCK_EXPORTt.lock shows 24 bits: where it held no more, the end of an export leaves no more there. -/
theorem State.exportLock_lt_exportEnd {s : State} {t : Nat} (ht : t < 16) (hlock : s.rg Reg.LCK_EXPORTt_lock t < 2 ^ 24) :
    (s.exportEnd t).rg Reg.LCK_EXPORTt_lock t < 2 ^ 24 := by
  have hkey : fieldKey Reg.LCK_EXPORTt_lock t 0 < reportKeys := fieldKey_lt_reportKeys (by decide) (by omega)
  have hcause : fieldKey Reg.LCK_EXPORTt_lock t 0 ≠ fieldKey Reg.LCK_CAUSEt_export_done t 0 :=
    fieldKey_ne_of_place (by decide) (by omega) (by omega)
  have hbusy : fieldKey Reg.LCK_EXPORTt_lock t 0 ≠ fieldKey Reg.LCK_EXPORTt_busy t 0 :=
    fieldKey_ne_of_place (by decide) (by omega) (by omega)
  rw [State.exportEnd]
  split
  case h_1 => exact hlock
  case h_2 =>
    dsimp only
    split
    case h_1 =>
      rw [State.rg_complete _ _ _ _ _ _ _ _ hkey, lockCause, State.rg_cause_other _ _ _ hkey hcause, State.rg_setRg_same]
      exact Nat.mod_lt _ (by decide)
    case h_2 =>
      rw [State.rg_complete _ _ _ _ _ _ _ _ hkey, lockCause, State.rg_cause_other _ _ _ hkey hcause, State.rg_setPart,
        State.rg_setRg_other _ _ _ _ _ _ hbusy]
      exact hlock

end Sys2Proof.Machine

namespace Sys2Proof.Proofs
open Sys2Proof.Machine Sys2Proof.Claims

/-- Tenant 0 exports lock 2^24, a number that no lock has, into an export area that it has set up, with no page in use. -/
def wideExport : State :=
  { State.withFields [(Reg.WHF_TSTAT_mode, 0, 2), (Reg.WHF_QCFG_enable, 4, 1)] with
    queues := [(4, { bound := true })], parts := [(0, { exporting := some (emptyCkpt (2 ^ 24)) })] }

/-- Refutes O28: LCK_EXPORTt.lock holds 24 bits (`State.exportLock_lt_exportEnd`). The statement does not rule out an export of a lock of
number 2^24, though no command of the device begins one, and has the register show it. -/
theorem not_suspensionAndLockCommands : ¬ Obligations.SuspensionAndLockCommands := by
  unfold Obligations.SuspensionAndLockCommands
  intro h
  obtain ⟨-, hcommands⟩ := h
  obtain ⟨-, -, -, -, -, -, -, hexport⟩ := hcommands wideExport 0 .pf 0 0 0 0
  obtain ⟨-, harea⟩ := hexport (emptyCkpt (2 ^ 24)) (by decide +kernel) (by decide +kernel)
  obtain ⟨u, hstep, -, hshown, -⟩ := harea (by decide +kernel) (by decide +kernel) (by decide +kernel) (by decide +kernel)
    (by decide +kernel)
  have hmeaning : exec (.exportDone 0) wideExport = done wideExport (wideExport.exportEnd 0) := rfl
  have hfits := State.exportLock_lt_exportEnd (s := wideExport) (t := 0) (by decide) (by decide +kernel)
  have hwide : (wideExport.exportEnd 0).rg Reg.LCK_EXPORTt_lock 0 = 2 ^ 24 :=
    (rg_next_of_done hmeaning hstep Reg.LCK_EXPORTt_lock 0).symm.trans hshown
  rw [hwide] at hfits
  exact absurd hfits (by decide)

end Sys2Proof.Proofs
end

section
/-!
PROOFS. The 64 bits of a fault's record, and the statement FaultAccounting, which it refutes (R323, R441, R443, R577).
-/
namespace Sys2Proof.Machine

/-! ### A fault that is held (R443) -/

theorem holdFault_of_room {l : List FaultRec} (hroom : l.length < 64) (f : FaultRec) : holdFault l f = (l ++ [f], false) :=
  if_pos hroom

/-- A fault that the queue does not take is held behind the others, with the 64 bits of its record that an entry has room for. -/
theorem State.faults_postFault_of_held {s : State} {t type : Nat} (htype : type ≠ 7) (hclosed : s.qopen t 2 = false)
    (hroom : (s.faults.get t []).length < 64) (record detail : Nat) :
    (s.postFault t type record detail).faults.get t [] = s.faults.get t [] ++ [⟨type, 1, record % 2 ^ 64, detail⟩] := by
  have hheld : ¬ (s.qopen t 2 = true ∧ s.faults.get t [] = []) := by simp [hclosed]
  simp only [State.postFault, if_neg htype, if_neg hheld, holdFault_of_room hroom]
  exact Tbl.get_put_same _ _ _ _

/-! ### An error that recurs (R323) -/

/-- An error that has occurred since the last commit and names neither a cluster nor a page leaves nothing but suspension. -/
theorem State.recur_eq_giveUp {s : State} {t : Nat} {e : Trouble} (hseen : e.record ∈ (s.part t).errSeen) (hpage : e.page = false)
    (hcluster : e.cluster = none) : s.recur t e = s.giveUp t e.record := by
  simp [State.recur, hseen, hpage, hcluster]

end Sys2Proof.Machine

namespace Sys2Proof.Proofs
open Sys2Proof.Machine Sys2Proof.Claims

/-- An error whose record has a bit above the 64 that R577 lays out. -/
def wideTrouble : Trouble := { record := 2 ^ 64, cluster := none, page := false }

/-- Tenant 0, without a fault queue, runs, and that error has occurred since its last commit. -/
def wideRepeat : State :=
  { State.withFields [(Reg.WHF_TSTAT_mode, 0, 2)] with parts := [(0, { errSeen := [wideTrouble.record] })] }

/-- Refutes O30: a fault keeps the low 64 bits of its record, and so posts an error of record 2^64 with record 0
(`State.faults_postFault_of_held`). The statement does not rule out such a record, though `State.recordNow` makes none, and has the held
fault name it whole. -/
theorem not_faultAccounting : ¬ Obligations.FaultAccounting := by
  unfold Obligations.FaultAccounting
  intro h
  obtain ⟨-, -, -, -, -, -, -, -, hrepeats, -⟩ := h wideRepeat .pf 0 0 0 wideTrouble 0 0 0 0
  have hseen : wideTrouble.record ∈ (wideRepeat.part 0).errSeen := by decide +kernel
  have hclosed : (wideRepeat.suspendShare 0).qopen 0 2 = false := by decide +kernel
  have hroom : ((wideRepeat.suspendShare 0).faults.get 0 []).length < 64 := by decide +kernel
  have hshown := (hrepeats hseen rfl rfl).held (.inl hclosed) hroom
  have hposted := State.faults_postFault_of_held (type := 4) (by decide) hclosed hroom wideTrouble.record 0
  have hmeaning : wideRepeat.recur 0 wideTrouble = (wideRepeat.suspendShare 0).postFault 0 4 wideTrouble.record 0 :=
    State.recur_eq_giveUp hseen rfl rfl
  rw [hmeaning, hposted] at hshown
  have hrecord := congrArg FaultRec.record (List.singleton_inj.mp (List.append_cancel_left hshown))
  exact absurd hrecord (by decide)

end Sys2Proof.Proofs
end

section
/-!
PROOFS. A period of time with a keeper timer's count past its field, the microseconds that a KEEPER_TIMER passes, and a hook for a tenant
that KPR_HOOK cannot name: the statements IdleStepCountsTime, InterruptController and KeeperRegisters, which they refute (R381, R383, R391).
-/
namespace Sys2Proof.Machine

/-- With nothing of its own to deliver and no supervisor at work, a step without a command only passes time. -/
theorem step_of_idle {s : State} (hpending : s.pending = []) (hown : s.ownBarges = []) (hidle : s.supervised = false) :
    step s = .next s.passTime := by
  have hdeliver : s.deliverOwn = s := by simp [State.deliverOwn, hown]
  simp [step, hpending, State.idle, hdeliver, State.supervise, hidle]

/-- A running timer's command: the time that its count stands for passes for every timer (R383). -/
theorem exec_keeperTimer_of_running {s : State} {k : Fin 4} {timer : Fin 2}
    (hrun : s.on Reg.KPR_TMRk_run (2 * k.val + timer.val) = true) : exec (.keeperTimer k timer) s =
      done s ((s.advance (s.rg Reg.KPR_TMRk_count (2 * k.val + timer.val) * 640000)).countTimers
        (s.rg Reg.KPR_TMRk_count (2 * k.val + timer.val))) := by
  have hmeaning : exec (.keeperTimer k timer) s = execKeeperTimer k timer s := rfl
  rw [hmeaning, execKeeperTimer]
  simp only [hrun, if_true]

/-- Two fields of one key read the same where their Reset columns agree. -/
theorem State.on_of_same_key {f g : Field} {i j : Nat} (hkey : fieldKey f i 0 = fieldKey g j 0) (hreset : f.resetAt i = g.resetAt j)
    (s : State) : s.on f i = s.on g j := by
  rw [State.on, State.on, State.rg, State.rg, hkey, hreset]

end Sys2Proof.Machine

namespace Sys2Proof.Proofs
open Sys2Proof.Machine Sys2Proof.Claims

/-- At reset, with timer 0 of keeper 0 running at a count that its field of 24 bits cannot hold. -/
def wideTimer : State :=
  { State.reset with regs := [(fieldKey Reg.KPR_TMRk_count 0 0, 2 ^ 25), (fieldKey Reg.KPR_TMRk_run 0 0, 1)] }

/-- The period completes 30 microseconds, and the count keeps the low 24 bits of what is left. -/
theorem wideTimer_passTime : wideTimer.passTime.power.time / 1000 = 30 ∧ wideTimer.passTime.rg Reg.KPR_TMRk_count 0 = 2 ^ 24 - 30 := by
  decide +kernel

/-- Refutes O57: the statement takes every number in KPR_TMRk.count, a field of 24 bits, and of a count past the field a period leaves the
low 24 bits only. -/
theorem not_idleStepCountsTime : ¬ Obligations.IdleStepCountsTime := by
  unfold Obligations.IdleStepCountsTime
  intro h
  obtain ⟨t, hstep, -, -, -, htimers, -⟩ := h wideTimer rfl rfl (by decide +kernel)
  rw [step_of_idle rfl rfl (by decide +kernel)] at hstep
  cases hstep
  obtain ⟨-, hcounts, -⟩ := htimers 0 (by decide)
  obtain ⟨htime, hleft⟩ := wideTimer_passTime
  have hcount : wideTimer.rg Reg.KPR_TMRk_count 0 = 2 ^ 25 := by decide +kernel
  have hzero : wideTimer.power.time = 0 := rfl
  rw [htime, hzero, hcount, hleft] at hcounts
  exact absurd (hcounts (by decide +kernel) (.inr (by decide))).2 (by decide)

/-- At reset, with timer 0 of keeper 0 running at a count of one microsecond. -/
def timerAtOne : State := State.withFields [(Reg.KPR_TMRk_run, 0, 1), (Reg.KPR_TMRk_count, 0, 1)]

/-- Refutes O29: a KEEPER_TIMER passes the microseconds that its timer still holds, so system time goes on, where the statement has only the
source of the timer change. -/
theorem not_interruptController : ¬ Obligations.InterruptController := by
  unfold Obligations.InterruptController
  intro h
  obtain ⟨hedges, -⟩ := h
  obtain ⟨-, -, -, -, -, -, htimer, -⟩ := hedges timerAtOne 0 0 0 .pf 0 0 0
  have hrun : timerAtOne.on Reg.KPR_TMRk_run (2 * (0 : Fin 4).val + (0 : Fin 2).val) = true := by decide +kernel
  obtain ⟨t, hstep, -, hsame, -⟩ := htimer hrun
  have htime : t.power.time = 0 := congrArg (fun u => u.power.time) hsame
  have hpassed := congrArg (fun u => u.power.time) (next_state_of_done (exec_keeperTimer_of_running hrun) hstep)
  exact absurd (htime.symm.trans hpassed) (by decide +kernel)

/-- The number of a tenant whose LCK_CAUSE.capture_fail would have the key that KPR_HOOK.pending has for keeper 0. -/
def strayTenant : Nat := fieldKey Reg.KPR_HOOK_pending 0 0 / 8 - fieldKey Reg.LCK_CAUSEt_capture_fail 0 0 / 8

/-- At reset but for capture hooks that wait for every keeper. KPR_HOOK.tenant of keeper 0, a field of four bits, holds the number of no
tenant, whose hooks are those of keepers 0 and 1. -/
def strayHook : State :=
  { State.reset with
    regs := (List.range 4).map (fun q => (fieldKey Reg.KPR_HOOK_pending q 0, 1)) ++ [(fieldKey Reg.KPR_HOOK_tenant 0 0, strayTenant)]
    parts := [(strayTenant, { hooksOpen := [0, 1] })] }

/-- Refutes O31: the statement takes every number in KPR_HOOK.tenant, and where it is that of no tenant the capture failure that a timeout
latches may have the key of the pending bit that the timeout clears. -/
theorem not_keeperRegisters : ¬ Obligations.KeeperRegisters := by
  unfold Obligations.KeeperRegisters
  intro h
  obtain ⟨-, -, -, -, hhook, -⟩ := h strayHook .pf 0 0 strayTenant
  obtain ⟨hcapture, -⟩ := hhook (by decide +kernel) (by decide +kernel) (by decide +kernel) (by decide +kernel) (by decide +kernel)
  obtain ⟨u, -, hfail, hpending, -⟩ := hcapture (by decide +kernel)
  have hkey : fieldKey Reg.LCK_CAUSEt_capture_fail strayTenant 0 = fieldKey Reg.KPR_HOOK_pending (0 : Fin 4).val 0 := by decide +kernel
  rw [State.on_of_same_key hkey (by decide +kernel), hpending] at hfail
  exact absurd hfail (by decide)

end Sys2Proof.Proofs
end

section
/-!
PROOFS. A keeper's rules: its state written back and read, its tables, its two stacks while they lie on chip, and what one instruction
leaves (R347 to R375, R410).
-/
namespace Sys2Proof.Machine
open Sys2Proof.Claims

/-! ### A keeper written and read -/

@[simp] theorem State.setKpr_setKpr_same (s : State) (k : Nat) (x y : Keeper) : (s.setKpr k x).setKpr k y = s.setKpr k y := by
  simp [State.setKpr, Tbl.put_put_same]

@[simp] theorem State.modKpr_setKpr_same (s : State) (k : Nat) (x : Keeper) (f : Keeper → Keeper) :
    (s.setKpr k x).modKpr k f = s.setKpr k (f x) := by
  simp [State.modKpr]

@[simp] theorem State.on_setKpr (s : State) (k : Nat) (x : Keeper) (f : Field) (i : Nat) : (s.setKpr k x).on f i = s.on f i := rfl

theorem State.setRg_setKpr (s : State) (k : Nat) (x : Keeper) (f : Field) (i v : Nat) :
    (s.setKpr k x).setRg f i v = (s.setRg f i v).setKpr k x := rfl

/-! ### Tables (R379, R392) -/

section
variable {s : State} {k : Nat} {y : Keeper} (htbl : y.tbl = (s.kpr k).tbl) (himage : y.image = (s.kpr k).image)
include htbl himage

theorem State.getTbl_setKpr (n i c : Nat) : (s.setKpr k y).getTbl k n i c = s.getTbl k n i c := by
  simp [State.getTbl, State.tblCell, Keeper.tblSound, htbl, himage]

theorem State.setBase_setKpr (set c : Nat) : (s.setKpr k y).setBase k set c = s.setBase k set c := by
  simp [State.setBase, State.getTbl_setKpr htbl himage]

end

/-! ### Parity (R348) -/

/-- One more bit joins the parity of the bits below it. -/
theorem oddOnes_succ (n v : Nat) : oddOnes (n + 1) v = (oddOnes n v != v.testBit n) := by
  simp [oddOnes, List.range_succ]

theorem oddOnes_congr {n v w : Nat} (h : ∀ i < n, v.testBit i = w.testBit i) : oddOnes n v = oddOnes n w := by
  induction n with
  | zero => rfl
  | succ n ih => rw [oddOnes_succ, oddOnes_succ, ih fun i hi => h i (by omega), h n (by omega)]

theorem oddOnes_mod_congr {n v w : Nat} (h : v % 2 ^ n = w % 2 ^ n) : oddOnes n v = oddOnes n w :=
  oddOnes_congr fun i hi => by
    have hbit := congrArg (fun u => u.testBit i) h
    simpa [Nat.testBit_mod_two_pow, hi] using hbit

theorem oddOnes_mod (n v : Nat) : oddOnes n (v % 2 ^ n) = oddOnes n v :=
  oddOnes_mod_congr (Nat.mod_mod ..)

theorem store_toNat (c : Cell) : (store c).toNat = b2n (oddOnes 12 c.toNat) * 4096 + c.toNat := by
  have happend (p : BitVec 1) : (p ++ c).toNat = p.toNat * 4096 + c.toNat := by
    rw [BitVec.toNat_append, ← Nat.shiftLeft_add_eq_or_of_lt c.isLt, Nat.shiftLeft_eq]
  rw [store, happend]
  cases oddOnes 12 c.toNat <;> rfl

@[simp] theorem cellOf_store (c : Cell) : cellOf (store c) = c := by
  have hc := c.isLt
  apply BitVec.eq_of_toNat_eq
  rw [cellOf, BitVec.toNat_setWidth, store_toNat]
  omega

@[simp] theorem parityOk_store (c : Cell) : parityOk (store c) = true := by
  have hc := c.isLt
  have hbit : (store c).toNat.testBit 12 = oddOnes 12 c.toNat := by
    rw [store_toNat, Nat.testBit_eq_decide_div_mod_eq]
    cases oddOnes 12 c.toNat <;> simp [b2n] <;> omega
  have hlow : oddOnes 12 (store c).toNat = oddOnes 12 c.toNat := oddOnes_mod_congr (by rw [store_toNat]; omega)
  rw [parityOk, oddOnes_succ, hbit, hlow, bne_self_eq_false, Bool.not_false]

theorem toNat_sealedEntry (e : Nat) : (sealedEntry e).toNat =
    e % 2 ^ 24 + (if oddOnes 12 e then 2 ^ 24 else 0) + (if oddOnes 12 (e / 4096) then 2 ^ 25 else 0) := by
  rw [sealedEntry, BitVec.toNat_ofNat, Nat.mod_eq_of_lt]
  split <;> split <;> omega

theorem toNat_sealedEntry_mod {e : Nat} (h : e < 2 ^ 24) : (sealedEntry e).toNat % 16777216 = e := by
  rw [toNat_sealedEntry]
  split <;> split <;> omega

@[simp] theorem entryParity_sealedEntry (e : Nat) : entryParity (sealedEntry e) = true := by
  have hlow : oddOnes 12 (sealedEntry e).toNat = oddOnes 12 e :=
    oddOnes_mod_congr (by rw [toNat_sealedEntry]; split <;> split <;> omega)
  have hhigh : oddOnes 12 ((sealedEntry e).toNat / 4096) = oddOnes 12 (e / 4096) :=
    oddOnes_mod_congr (by rw [toNat_sealedEntry]; split <;> split <;> omega)
  have hbit24 : bit (sealedEntry e).toNat 24 = oddOnes 12 e := by
    rw [bit, Nat.testBit_eq_decide_div_mod_eq, toNat_sealedEntry]
    split <;> split <;> simp_all <;> omega
  have hbit25 : bit (sealedEntry e).toNat 25 = oddOnes 12 (e / 4096) := by
    rw [bit, Nat.testBit_eq_decide_div_mod_eq, toNat_sealedEntry]
    split <;> split <;> simp_all <;> omega
  rw [entryParity, hlow, hhigh, hbit24, hbit25]
  simp

/-- Without an armed flip an entry goes into the return stack as the stack holds it. -/
theorem State.sealEntry_of_unarmed {s : State} (h : s.on Reg.TST_FLIP_arm = false) (k pos v : Nat) :
    s.sealEntry k pos v = (sealedEntry v, s) := by
  have hlow : oddOnes 12 (v % 2 ^ 12) = oddOnes 12 v := oddOnes_mod 12 v
  have hhigh : oddOnes 12 (v / 4096 % 4096) = oddOnes 12 (v / 4096) := oddOnes_mod 12 (v / 4096)
  rw [State.sealEntry, State.flipCell_of_unarmed h]
  simp only [store_toNat, BitVec.toNat_ofNat, hlow, hhigh]
  refine Prod.ext (BitVec.eq_of_toNat_eq ?_) rfl
  rw [toNat_sealedEntry, BitVec.toNat_ofNat]
  cases oddOnes 12 v <;> cases oddOnes 12 (v / 4096) <;> simp [b2n] <;> omega

/-! ### Stacks on chip (R352 to R354) -/

/-- The keeper with this data stack, T first, all of it on chip. -/
def Keeper.onStack (x : Keeper) (st : List Cell) : Keeper := { x with ds := st.map store, sp := st.length }

theorem Keeper.onStack_of_eq {x : Keeper} {st : List Cell} (hds : x.ds = st.map store) (hsp : x.sp = st.length) : x.onStack st = x := by
  rw [Keeper.onStack, ← hds, ← hsp]

theorem withReturns_of_eq {x : Keeper} {es : List Nat} (hrs : x.rs = es.map sealedEntry) (hrp : x.rp = es.length) :
    withReturns x es = x := by
  rw [withReturns, ← hrs, ← hrp]

/-- Keeper y may stand in the place of k and hold n entries of a stack on chip: it has k's tables, no flip is armed, and the limit of its
stack set in cell c is at least n. -/
structure Room (s : State) (k : Nat) (y : Keeper) (c n : Nat) : Prop where
  unarmed : s.on Reg.TST_FLIP_arm = false
  tbl : y.tbl = (s.kpr k).tbl
  image : y.image = (s.kpr k).image
  limit : ∃ m, s.getTbl k 1 y.set c = .ok m ∧ n ≤ m
  chip : n ≤ 32

section
variable {s : State} {k : Nat} {y : Keeper}

/-- Room is a matter of a keeper's tables and stack set alone. -/
theorem Room.congr {z : Keeper} {c n : Nat} (h : Room s k y c n) (htbl : z.tbl = y.tbl) (himage : z.image = y.image)
    (hset : z.set = y.set) : Room s k z c n where
  unarmed := h.unarmed
  tbl := htbl.trans h.tbl
  image := himage.trans h.image
  limit := hset ▸ h.limit
  chip := h.chip

theorem State.kpush_onStack {n : Nat} (h : Room s k y 2 n) {l : List Cell} (hn : l.length < n) (c : Cell) :
    (s.setKpr k (y.onStack l)).kpush k c = .ok (s.setKpr k (y.onStack (c :: l))) := by
  obtain ⟨m, hget, hm⟩ := h.limit
  have hlimit : (s.setKpr k (y.onStack l)).getTbl k 1 (y.onStack l).set 2 = .ok m :=
    (State.getTbl_setKpr (y := y.onStack l) h.tbl h.image 1 y.set 2).trans hget
  have hflip := State.flipCell_of_unarmed (s := s.setKpr k (y.onStack l)) h.unarmed
  have hroom : ¬ m ≤ l.length := by omega
  have hroomy : ¬ 32 ≤ l.length := by have := h.chip; omega
  simp only [State.kpush, State.kpr_setKpr_same, hlimit]
  simp [Keeper.onStack, bind, Except.bind, pure, Except.pure, hroom, hroomy] at hflip ⊢
  simp [hflip]

theorem State.kpop_onStack (s : State) (k : Nat) (y : Keeper) (c : Cell) (l : List Cell) :
    (s.setKpr k (y.onStack (c :: l))).kpop k = .ok (c, s.setKpr k (y.onStack l)) := by
  have hchip : ¬ (l = [] ∧ 0 < l.length) := by rintro ⟨rfl, h⟩; exact absurd h (by decide)
  simp [State.kpop, Keeper.onStack, bind, Except.bind, pure, Except.pure, hchip]

theorem State.kpeek_onStack (s : State) (k : Nat) (y : Keeper) {l : List Cell} {i : Nat} (hi : i < l.length) :
    (s.setKpr k (y.onStack l)).kpeek k i = .ok l[i] := by
  have hdeep : ¬ l.length ≤ i := by omega
  simp [State.kpeek, Keeper.onStack, pure, Except.pure, hdeep, hi]

theorem State.kpopN_onStack (s : State) (k : Nat) (y : Keeper) (l l' : List Cell) :
    (s.setKpr k (y.onStack (l ++ l'))).kpopN k l.length = .ok (l, s.setKpr k (y.onStack l')) := by
  induction l with
  | nil => rfl
  | cons c l ih =>
    rw [List.cons_append, List.length_cons, State.kpopN, State.kpop_onStack]
    simp [bind, Except.bind, pure, Except.pure, ih]

theorem State.kpushN_onStack {n : Nat} (h : Room s k y 2 n) (l l' : List Cell) (hn : l.length + l'.length ≤ n) :
    (s.setKpr k (y.onStack l')).kpushN k l = .ok (s.setKpr k (y.onStack (l.reverse ++ l'))) := by
  induction l generalizing l' with
  | nil => rfl
  | cons c l ih =>
    rw [List.length_cons] at hn
    rw [State.kpushN, State.kpush_onStack h (by omega), List.reverse_cons, List.append_assoc]
    exact ih (c :: l') (by rw [List.length_cons]; omega)

/-- What keeper y needs to push return entries: room, and a base that reads. -/
structure ReturnRoom (s : State) (k : Nat) (y : Keeper) (n : Nat) : Prop extends Room s k y 5 n where
  base : ∃ b, s.setBase k y.set 3 = .ok b

theorem ReturnRoom.congr {z : Keeper} {n : Nat} (h : ReturnRoom s k y n) (htbl : z.tbl = y.tbl) (himage : z.image = y.image)
    (hset : z.set = y.set) : ReturnRoom s k z n where
  toRoom := h.toRoom.congr htbl himage hset
  base := hset ▸ h.base

theorem State.rpush_of_kpr {n : Nat} {es : List Nat} (hk : s.kpr k = withReturns y es) (hflip : s.on Reg.TST_FLIP_arm = false)
    (hlimit : ∃ m, s.getTbl k 1 y.set 5 = .ok m ∧ n ≤ m) (hbase : ∃ b, s.setBase k y.set 3 = .ok b) (hchip : n ≤ 32)
    (hn : es.length < n) (e : Nat) : s.rpush k e = .ok (s.setKpr k (withReturns y (e :: es))) := by
  obtain ⟨m, hget, hm⟩ := hlimit
  obtain ⟨b, hbase⟩ := hbase
  have hset : (withReturns y es).set = y.set := rfl
  have hseal := State.sealEntry_of_unarmed hflip
  have hroomy : es.length < 32 := by omega
  have hroom : ¬ min m 2047 ≤ es.length := by omega
  simp only [State.rpush, hk, hset, hget, hbase]
  cases hlast : (es.map sealedEntry).getLast? <;>
    simp [withReturns, bind, Except.bind, pure, Except.pure, hroom, hroomy, hlast, hseal, State.modKpr, hk]

theorem State.rpush_withReturns {n : Nat} (h : ReturnRoom s k y n) {es : List Nat} (hn : es.length < n) (e : Nat) :
    (s.setKpr k (withReturns y es)).rpush k e = .ok (s.setKpr k (withReturns y (e :: es))) := by
  have hget := State.getTbl_setKpr (y := withReturns y es) h.tbl h.image 1 y.set 5
  have hbase := State.setBase_setKpr (y := withReturns y es) h.tbl h.image y.set 3
  rw [State.rpush_of_kpr (State.kpr_setKpr_same ..) h.unarmed (hget ▸ h.limit) (hbase ▸ h.base) h.chip hn, State.setKpr_setKpr_same]

theorem State.rpop_withReturns (s : State) (k : Nat) (y : Keeper) {e : Nat} (he : e < 2 ^ 24) (es : List Nat) :
    (s.setKpr k (withReturns y (e :: es))).rpop k = .ok (e, s.setKpr k (withReturns y es)) := by
  have hchip : ¬ (es = [] ∧ 0 < es.length) := by rintro ⟨rfl, h⟩; exact absurd h (by decide)
  simp [State.rpop, withReturns, bind, Except.bind, pure, Except.pure, hchip, toNat_sealedEntry_mod he]

theorem State.rpeek_withReturns (s : State) (k : Nat) (y : Keeper) {e : Nat} (he : e < 2 ^ 24) (es : List Nat) :
    (s.setKpr k (withReturns y (e :: es))).rpeek k = .ok e := by
  simp [State.rpeek, withReturns, pure, Except.pure, toNat_sealedEntry_mod he]

end

/-! ### One instruction (R356, R373, R379, R410) -/

/-- The windows of the masks listed have closed, and nothing else has changed. -/
structure Unmasked (s t : State) : Prop where
  srcs : ∀ n, { t.src n with masking := (s.src n).masking } = s.src n
  rest : { t with irq := s.irq } = s

theorem Unmasked.keepers {s t : State} (h : Unmasked s t) : t.keepers = s.keepers := by
  have hrest := congrArg State.keepers h.rest
  exact hrest

theorem Unmasked.foldl (l : List (Nat × Nat)) (s : State) :
    Unmasked s (l.foldl (fun s e => s.modSrc e.1 fun y => { y with masking := false }) s) := by
  refine List.foldlRecOn (motive := Unmasked s) l _ ⟨fun n => rfl, rfl⟩ fun t h e _ => ⟨fun n => ?_, h.rest⟩
  by_cases hn : n = e.1
  · subst hn
    simpa using h.srcs e.1
  · rw [State.modSrc, State.src_setSrc_other _ _ hn]
    exact h.srcs n

/-- A retired instruction ages the masks of its keeper, which is all that it does beside its own effect (R410). -/
theorem kdid_ageMasks (u : State) (k : Nat) (x : Keeper) (before : Tbl Nat) : KDid u ((u.setKpr k x).ageMasks k before) k x := by
  obtain ⟨old, hold⟩ : ∃ old, old = x.maskAge.map fun (e : Nat × Nat) => if before.contains e then (e.1, e.2 + 1) else e := ⟨_, rfl⟩
  obtain ⟨v, hv⟩ : ∃ v : State, v = if old = [] then u.setKpr k { x with maskAge := old.filter fun e => e.2 < 5 }
    else { u.setKpr k { x with maskAge := old.filter fun e => e.2 < 5 } with freeCtr := u.freeCtr + 4096 } := ⟨_, rfl⟩
  have haged : (u.setKpr k x).ageMasks k before =
      (old.filter fun e => 5 ≤ e.2).foldl (fun s e => s.modSrc e.1 fun y => { y with masking := false }) v := by
    simp only [State.ageMasks, State.kpr_setKpr_same, ← hold, State.setKpr_setKpr_same, hv]
    rfl
  have hmasks := Unmasked.foldl (old.filter fun e => 5 ≤ e.2) v
  rw [← haged] at hmasks
  generalize (u.setKpr k x).ageMasks k before = t at hmasks
  have hkeepers : t.keepers = v.keepers := hmasks.keepers
  have hkpr (j : Nat) : t.kpr j = v.kpr j := by rw [State.kpr, hkeepers, State.kpr]
  have hvkpr : v.kpr k = { x with maskAge := (v.kpr k).maskAge } := by rw [hv]; split <;> simp [State.kpr, State.setKpr]
  have hother (j : Nat) (h : j ≠ k) : v.kpr j = u.kpr j := by
    rw [hv]; split <;> exact State.kpr_setKpr_other u _ h
  have hirq : v.irq = u.irq := by rw [hv]; split <;> rfl
  have hsrc (n : Nat) : v.src n = u.src n := by rw [State.src, hirq, State.src]
  have hrest : { v with keepers := u.keepers, irq := u.irq, freeCtr := u.freeCtr } = u := by rw [hv]; split <;> rfl
  refine ⟨by rw [hkpr]; exact hvkpr, fun j h => by rw [hkpr, hother j h], fun n => by rw [← hsrc]; exact hmasks.srcs n, ?_⟩
  calc { t with keepers := u.keepers, irq := u.irq, freeCtr := u.freeCtr }
      = { ({ t with irq := v.irq } : State) with keepers := u.keepers, irq := u.irq, freeCtr := u.freeCtr } := rfl
    _ = u := by rw [hmasks.rest, hrest]

theorem tst_of_kdid {u t : State} {k : Nat} {x : Keeper} (h : KDid u t k x) : t.tst = u.tst := by
  have hrest := congrArg State.tst h.2.2.2
  exact hrest

theorem pending_of_kdid {u t : State} {k : Nat} {x : Keeper} (h : KDid u t k x) : t.pending = u.pending := by
  have hrest := congrArg State.pending h.2.2.2
  exact hrest

/-- An instruction between elements has not retired (R368). -/
theorem kdid_setKpr (u : State) (k : Nat) (x : Keeper) : KDid u (u.setKpr k x) k x :=
  ⟨by simp, fun _ h => State.kpr_setKpr_other u x h, fun _ => rfl, rfl⟩

theorem State.kfetch_of_fetchOk {s : State} {k : Nat} (h : FetchOk s k = true) : s.kfetch k = (s, none) := by
  unfold FetchOk at h
  unfold State.kfetch
  cases hrom : s.on Reg.KPR_CTRL_rom_fetch k with
  | true => simp
  | false =>
    rw [hrom, Bool.false_or] at h
    split at h
    next g hg =>
      simp only [Bool.and_eq_true, decide_eq_true_eq, Bool.not_eq_true'] at h
      simp [hg, h.1, Keeper.progBad, h.2]
    next => cases h

/-- No bucket has filled where the fault accounting stands as it stood (R377). -/
theorem State.keeperFull_of_tst {s t : State} (h : t.tst = s.tst) : State.keeperFull s t = t := by
  have hnew : t.bucket 8 s.system = s.bucket 8 s.system ∧ t.threshold 8 = s.threshold 8 := by
    simp [State.bucket, State.threshold, h]
  unfold State.keeperFull
  dsimp only
  rw [hnew.1, hnew.2, if_neg (by omega)]

/-- What an instruction does that keeper k runs without a fault: its own effect, from the state in which it begins. -/
theorem exists_kdid_of_run {s u : State} {k : Nat} {body : State → Except KErr State} {x : Keeper} (hissues : s.issues k = true)
    (hfetch : FetchOk s k = true) (hbody : body (s.setKpr k (begun (s.kpr k))) = .ok (u.setKpr k x)) (htst : u.tst = s.tst)
    (hpending : u.pending = s.pending) : ∃ t, done s (s.kealaRun k body) = .next t ∧ KDid u t k x := by
  have hrun : ∃ t, s.kealaRun k body = State.keeperFull s t ∧ KDid u t k x := by
    simp only [State.kealaRun, hissues, if_true, State.kfetch_of_fetchOk hfetch]
    have hbegun : (s.modKpr k fun x => { x with entering := false, waiting := false }) = s.setKpr k (begun (s.kpr k)) := rfl
    rw [hbegun, hbody]
    refine ⟨_, rfl, ?_⟩
    dsimp only
    split
    · exact kdid_setKpr u k x
    · exact kdid_ageMasks u k x _
  obtain ⟨t, hrun, hdid⟩ := hrun
  refine ⟨t, ?_, hdid⟩
  rw [hrun, State.keeperFull_of_tst ((tst_of_kdid hdid).trans htst)]
  exact done_of_pending ((pending_of_kdid hdid).trans hpending)

/-- As `exists_kdid_of_run`, for an instruction that goes on to the next one. -/
theorem exists_kdid_of_op {s u : State} {k : Nat} {body : State → Except KErr State} {x : Keeper} (hissues : s.issues k = true)
    (hfetch : FetchOk s k = true) (hbody : body (s.setKpr k (begun (s.kpr k))) = .ok (u.setKpr k x)) (htst : u.tst = s.tst)
    (hpending : u.pending = s.pending) :
    ∃ t, done s (s.kealaOp k body) = .next t ∧ KDid u t k { x with pc := (x.pc + 1) % 32768 } := by
  refine exists_kdid_of_run hissues hfetch ?_ htst hpending
  rw [hbody]
  simp [bind, Except.bind, pure, Except.pure, State.kNext]

end Sys2Proof.Machine
end

section
/-!
PROOFS. Literals, stack operations, arithmetic, logic and register operations of the Keala core, and the statement KealaOperations (R350,
R351, R362, R363).
-/
namespace Sys2Proof.Machine
open Sys2Proof.Claims

theorem exists_cons_cons_of_two_le {α : Type} {l : List α} (h : 2 ≤ l.length) : ∃ a b t, l = a :: b :: t := by
  match l, h with
  | a :: b :: t, _ => exact ⟨a, b, t, rfl⟩

theorem exists_cons_cons_cons_of_three_le {α : Type} {l : List α} (h : 3 ≤ l.length) : ∃ a b c t, l = a :: b :: c :: t := by
  match l, h with
  | a :: b :: c :: t, _ => exact ⟨a, b, c, t, rfl⟩

@[simp] theorem ok_bind {ε α β : Type} (a : α) (f : α → Except ε β) : (Except.ok a >>= f) = f a := rfl

/-! ### An instruction on the data stack -/

section
variable {s : State} {k : Nat} {st : List Cell}

theorem begun_onStack (h : KReady s k st) : (begun (s.kpr k)).onStack st = begun (s.kpr k) := by
  obtain ⟨-, -, -, hds, hsp, -, -⟩ := h
  exact Keeper.onStack_of_eq hds hsp

theorem room_of_roomFor {c n : Nat} (hflip : s.on Reg.TST_FLIP_arm = false) (hchip : n ≤ 32) (h : roomFor s k c n = true) :
    Room s k (begun (s.kpr k)) c n where
  unarmed := hflip
  tbl := rfl
  image := rfl
  limit := by
    unfold roomFor at h
    split at h
    next m hm => exact ⟨m, hm, of_decide_eq_true h⟩
    next => cases h
  chip := hchip

theorem room_of_ready (h : KReady s k st) : Room s k (begun (s.kpr k)) 2 (st.length + 2) := by
  obtain ⟨-, -, hflip, -, -, hchip, hroom⟩ := h
  exact room_of_roomFor hflip (by omega) hroom

/-- A ready return stack stands in the keeper. -/
theorem withReturns_begun {es : List Nat} (h : RReady s k es) : withReturns (begun (s.kpr k)) es = begun (s.kpr k) := by
  obtain ⟨hrs, hrp, -⟩ := h
  exact withReturns_of_eq hrs hrp

theorem returnRoom_of_ready {es : List Nat} (hflip : s.on Reg.TST_FLIP_arm = false) (h : RReady s k es) :
    ReturnRoom s k (begun (s.kpr k)) (es.length + 8) := by
  obtain ⟨-, -, hchip, -, hroom, hbase⟩ := h
  refine ⟨room_of_roomFor hflip (by omega) hroom, ?_⟩
  obtain ⟨b, hb⟩ | ⟨e, he⟩ : (∃ b, s.setBase k (s.kpr k).set 3 = .ok b) ∨ ∃ e, s.setBase k (s.kpr k).set 3 = .error e := by
    cases s.setBase k (s.kpr k).set 3 <;> simp
  · exact ⟨b, hb⟩
  · rw [he] at hbase
    cases hbase

/-- An instruction on the data stack that goes on to the next one. -/
theorem exists_kdid_next {body : State → Except KErr State} {y : Keeper} {l : List Cell} (h : KReady s k st)
    (hbody : body (s.setKpr k ((begun (s.kpr k)).onStack st)) = .ok (s.setKpr k (y.onStack l))) :
    ∃ t, done s (s.kealaOp k body) = .next t ∧ KDid s t k (next y l) := by
  have hbegun := begun_onStack h
  obtain ⟨hissues, hfetch, -⟩ := h
  exact exists_kdid_of_op hissues hfetch (hbegun ▸ hbody) rfl rfl

end

/-! ### Results and flags (R350, R363) -/

theorem flOf_eq_flags (c z n v : Bool) : flOf c z n v = flags c z n v := by
  cases c <;> cases z <;> cases n <;> cases v <;> rfl

theorem flRes_eq_resultFlags (r : Cell) (c v : Bool) : flRes r c v = resultFlags r c v := flOf_eq_flags ..

/-- The signed value of a cell. -/
theorem Cell.toInt_eq (a : Cell) : a.toInt = if a.toNat < 2048 then (a.toNat : Int) else a.toNat - 4096 := by
  rw [BitVec.toInt_eq_toNat_cond]
  split <;> split <;> omega

theorem kadd_eq_addOf (a b : Cell) {cin : Nat} (hcin : cin ≤ 1) : kadd a b cin = addOf a b cin := by
  have ha := a.isLt
  have hb := b.isLt
  have hover : (a.toInt + b.toInt + cin ≠ (BitVec.ofNat 12 (a.toNat + b.toNat + cin)).toInt) ↔
      a.toInt + b.toInt + cin < -2048 ∨ 2047 < a.toInt + b.toInt + cin := by
    simp only [Cell.toInt_eq, BitVec.toNat_ofNat]
    omega
  simp only [kadd, addOf, flRes_eq_resultFlags, hover, Bool.decide_or]

theorem ksub_eq_subOf (a b : Cell) {bin : Nat} (hbin : bin ≤ 1) : ksub a b bin = subOf a b bin := by
  have ha := a.isLt
  have hb := b.isLt
  have hresult : BitVec.ofNat 12 (a.toNat + 8192 - b.toNat - bin) = a - b - BitVec.ofNat 12 bin := by
    apply BitVec.eq_of_toNat_eq
    simp only [BitVec.toNat_sub, BitVec.toNat_ofNat]
    omega
  have hover : (a.toInt - b.toInt - bin ≠ (BitVec.ofNat 12 (a.toNat + 8192 - b.toNat - bin)).toInt) ↔
      a.toInt - b.toInt - bin < -2048 ∨ 2047 < a.toInt - b.toInt - bin := by
    simp only [Cell.toInt_eq, BitVec.toNat_ofNat]
    omega
  rw [hresult] at hover
  simp only [ksub, subOf, flRes_eq_resultFlags, hresult, hover, Bool.decide_or]

theorem kshift_left_eq (arith : Bool) (a : Cell) (n : Nat) : kshift true arith a n = shlOf a n := by
  have hresult : a <<< n = BitVec.ofNat 12 (a.toNat * 2 ^ n) :=
    BitVec.eq_of_toNat_eq (by rw [BitVec.toNat_shiftLeft, BitVec.toNat_ofNat, Nat.shiftLeft_eq])
  have hcarry : (a.toNat * 2 ^ n).testBit 12 = if n = 0 then false else decide (n ≤ 12) && a.getLsbD (12 - n) := by
    rw [Nat.testBit_mul_two_pow]
    split
    next hzero => subst hzero; exact Nat.testBit_lt_two_pow a.isLt
    next => rfl
  simp only [kshift, shlOf, if_true, hresult, hcarry, flRes_eq_resultFlags]

theorem kshift_right_eq (a : Cell) (n : Nat) : kshift false false a n = shrOf a n := by
  have hresult : a >>> n = BitVec.ofNat 12 (a.toNat / 2 ^ n) := by
    apply BitVec.eq_of_toNat_eq
    rw [BitVec.toNat_ushiftRight, Nat.shiftRight_eq_div_pow, BitVec.toNat_ofNat,
      Nat.mod_eq_of_lt (Nat.lt_of_le_of_lt (Nat.div_le_self ..) a.isLt)]
  have hcarry : (decide (n ≠ 0) && a.toNat.testBit (n - 1)) =
      if n = 0 then false else if n ≤ 12 then a.getLsbD (n - 1) else false := by
    by_cases hzero : n = 0
    · simp [hzero]
    · by_cases hn : n ≤ 12
      · simp [hzero, hn, BitVec.testBit_toNat]
      · have hhigh : a.toNat.testBit (n - 1) = false :=
          Nat.testBit_lt_two_pow (Nat.lt_of_lt_of_le a.isLt (Nat.pow_le_pow_right (by decide) (by omega)))
        simp [hzero, hn, hhigh]
  simp only [kshift, shrOf, hresult, hcarry, flRes_eq_resultFlags]
  simp

/-- Bit m of a cell that is extended by its sign. -/
theorem signed_bit (a : Cell) {m : Nat} (hm : m < 15) :
    decide (a.toInt / 2 ^ m % 2 = 1) = if m < 12 then a.getLsbD m else a.msb := by
  have ha := a.isLt
  have hmsb : a.msb = decide (2048 ≤ a.toNat) := BitVec.msb_eq_decide a
  rw [hmsb, ← BitVec.testBit_toNat, Nat.testBit_eq_decide_div_mod_eq, Cell.toInt_eq]
  interval_cases m <;> simp <;> omega

theorem kshift_arith_eq (a : Cell) {n : Nat} (hn : n < 16) : kshift false true a n = sarOf a n := by
  have hresult : a.sshiftRight n = BitVec.ofInt 12 (a.toInt / 2 ^ n) := by
    rw [BitVec.sshiftRight, Int.shiftRight_eq_div_pow]
    norm_cast
  have hcarry : (decide (n ≠ 0) && decide (a.toInt / 2 ^ (n - 1) % 2 = 1)) =
      if n = 0 then false else if n ≤ 12 then a.getLsbD (n - 1) else a.msb := by
    by_cases hzero : n = 0
    · simp [hzero]
    · have hplace : n - 1 < 12 ↔ n ≤ 12 := by omega
      simp only [signed_bit a (m := n - 1) (by omega), hplace]
      simp [hzero]
  simp only [kshift, sarOf, hresult, hcarry, flRes_eq_resultFlags]
  simp

theorem Keeper.cond_onStack {y : Keeper} (l : List Cell) {c : Nat} (hc : c < 14) : (y.onStack l).cond c = condition y c := by
  interval_cases c <;> rfl

/-! ### What each operation leaves on the stack (R362) -/

theorem State.setFl_onStack (s : State) (k : Nat) (y : Keeper) (l : List Cell) (f : Cell) :
    (s.setKpr k (y.onStack l)).setFl k f = s.setKpr k ({ y with fl := f }.onStack l) := by
  simp [State.setFl, Keeper.onStack]

section
variable {s : State} {k : Nat} {y : Keeper} {n : Nat}

section
variable (h : Room s k y 2 n) {l : List Cell}
include h

theorem State.kDup_onStack {a : Cell} (hn : (a :: l).length < n) :
    (s.setKpr k (y.onStack (a :: l))).kDup k = .ok (s.setKpr k (y.onStack (a :: a :: l))) := by
  rw [State.kDup, State.kpeek_onStack s k y (Nat.succ_pos _), ok_bind]
  exact State.kpush_onStack h hn a

omit h in
theorem State.kDrop_onStack (s : State) (k : Nat) (y : Keeper) (a : Cell) (l : List Cell) :
    (s.setKpr k (y.onStack (a :: l))).kDrop k = .ok (s.setKpr k (y.onStack l)) := by
  rw [State.kDrop, State.kpop_onStack]
  rfl

theorem State.kDepth_onStack (hn : l.length < n) :
    (s.setKpr k (y.onStack l)).kDepth k = .ok (s.setKpr k (y.onStack (BitVec.ofNat 12 (y.onStack l).sp :: l))) := by
  rw [State.kDepth, State.kpr_setKpr_same]
  exact State.kpush_onStack h hn _

theorem State.kOver_onStack {a b : Cell} (hn : (b :: a :: l).length < n) :
    (s.setKpr k (y.onStack (b :: a :: l))).kOver k = .ok (s.setKpr k (y.onStack (a :: b :: a :: l))) := by
  rw [State.kOver, State.kpeek_onStack s k y (Nat.succ_lt_succ (Nat.succ_pos _)), ok_bind]
  exact State.kpush_onStack h hn a

theorem State.kPick_onStack {o : BitVec 6} (ho : o.toNat < 32) (hdeep : o.toNat < l.length) (hn : l.length < n) :
    (s.setKpr k (y.onStack l)).kPick k o = .ok (s.setKpr k (y.onStack ((l[o.toNat]?).getD 0 :: l))) := by
  rw [State.kPick, operandBelow, if_pos ho, State.kpeek_onStack s k y hdeep, List.getElem?_eq_getElem hdeep]
  exact State.kpush_onStack h hn _

/-- Cells popped and others pushed in their place. -/
theorem State.kmap_onStack {f : List Cell → List Cell} {p : List Cell} (hn : (f p.reverse).length + l.length ≤ n) :
    (s.setKpr k (y.onStack (p ++ l))).kmap k p.length f = .ok (s.setKpr k (y.onStack ((f p.reverse).reverse ++ l))) := by
  rw [State.kmap, State.kpopN_onStack, ok_bind]
  exact State.kpushN_onStack h _ _ hn

theorem State.kTestf_onStack {o : BitVec 6} (ho : o.toNat < 14) (hn : l.length < n) :
    (s.setKpr k (y.onStack l)).kTestf k o = .ok (s.setKpr k (y.onStack ((if condition y o.toNat then 0xFFF#12 else 0) :: l))) := by
  rw [State.kTestf, operandBelow, if_pos ho, State.kpr_setKpr_same, Keeper.cond_onStack l ho]
  exact State.kpush_onStack h hn _

/-- ( a b -- r ), with flags. -/
theorem State.kbin_onStack {f : Keeper → Cell → Cell → Cell × Cell} {g : Cell → Cell → Cell × Cell} {a b : Cell}
    (hfg : f (y.onStack (b :: a :: l)) a b = g a b) (hn : l.length < n) :
    (s.setKpr k (y.onStack (b :: a :: l))).kbin k f = .ok (s.setKpr k ({ y with fl := (g a b).2 }.onStack ((g a b).1 :: l))) := by
  simp only [State.kbin, State.kpop_onStack, ok_bind, State.kpr_setKpr_same, hfg, State.kpush_onStack h hn, State.setFl_onStack]
  rfl

/-- ( a -- r ), with flags. -/
theorem State.kun_onStack {f : Cell → Cell × Cell} {a : Cell} (hn : l.length < n) :
    (s.setKpr k (y.onStack (a :: l))).kun k f = .ok (s.setKpr k ({ y with fl := (f a).2 }.onStack ((f a).1 :: l))) := by
  simp only [State.kun, State.kpop_onStack, ok_bind, State.kpush_onStack h hn, State.setFl_onStack]
  rfl

/-- ( a b -- lo hi ), a 24-bit product with its flags. -/
theorem State.kmul_onStack {f g : Cell → Cell → Nat} {a b : Cell} (hfg : f a b = g a b) (hlt : g a b < 2 ^ 24) (hn : l.length + 2 ≤ n) :
    (s.setKpr k (y.onStack (b :: a :: l))).kmul k f =
      .ok (s.setKpr k ({ y with fl := (mulOf (g a b)).2 }.onStack ((mulOf (g a b)).1 ++ l))) := by
  have hcells := State.kpushN_onStack h [BitVec.ofNat 12 (g a b), BitVec.ofNat 12 (g a b / 4096)] l (by simpa [Nat.add_comm] using hn)
  simp only [State.kmul, State.kpop_onStack, ok_bind, hfg, Nat.mod_eq_of_lt hlt, hcells, State.setFl_onStack, flOf_eq_flags, mulOf]
  rfl

end

end

/-! ### Registers (R350, R351, R362) -/

/-- Only the low 24 bits of an address reach the address pair. -/
theorem withAddr_congr (x : Keeper) {a b : Nat} (h : a % 2 ^ 24 = b % 2 ^ 24) : withAddr x a = withAddr x b := by
  have hlow : BitVec.ofNat 12 a = BitVec.ofNat 12 b := BitVec.eq_of_toNat_eq (by simp only [BitVec.toNat_ofNat]; omega)
  have hhigh : BitVec.ofNat 12 (a / 4096) = BitVec.ofNat 12 (b / 4096) :=
    BitVec.eq_of_toNat_eq (by simp only [BitVec.toNat_ofNat]; omega)
  rw [withAddr, withAddr, hlow, hhigh]

/-- A displacement extended by its sign adds to an address as the signed number that it is, modulo 2^24. -/
theorem addr_add_signExtend (a : Nat) (d : Cell) :
    (a + (d.signExtend 24).toNat) % 2 ^ 24 = (((a : Int) + d.toInt) % (2 ^ 24 : Int)).toNat % 2 ^ 24 := by
  have hd : (d.signExtend 24).toNat = (d.toInt % (2 ^ 24 : Int)).toNat := by rw [BitVec.signExtend, BitVec.toNat_ofInt]; rfl
  rw [hd]
  omega

theorem decide_b2n_mod (b : Bool) : decide (b2n b % 2 = 1) = b := by cases b <;> rfl

theorem b2n_lt_two_pow (b : Bool) : b2n b < 2 ^ 1 := by cases b <;> decide

/-- RG as its fields stand in it. -/
theorem toNat_rgOf (ring : Nat) (ie dfl : Bool) (set tenant : Nat) :
    (rgOf ring ie dfl set tenant).toNat = 2 ^ 2 * (2 ^ 1 * (2 ^ 1 * (2 ^ 4 * (tenant % 16) + set % 8) + b2n dfl) + b2n ie) + ring % 4 := by
  rw [rgOf, BitVec.toNat_ofNat, Nat.mod_eq_of_lt]
  · omega
  · cases ie <;> cases dfl <;> simp [b2n] <;> omega

/-- The bits of RG (R351). -/
theorem getLsbD_rgOf (ring : Nat) (ie dfl : Bool) (set tenant i : Nat) : (rgOf ring ie dfl set tenant).getLsbD i =
    if i < 2 then (ring % 4).testBit i else if i < 3 then ie else if i < 4 then dfl
    else if i < 8 then (set % 8).testBit (i - 4) else (tenant % 16).testBit (i - 8) := by
  have hset : set % 8 < 2 ^ 4 := by omega
  have hring : ring % 4 < 2 ^ 2 := by omega
  rw [← BitVec.testBit_toNat, toNat_rgOf, Nat.testBit_two_pow_mul_add _ hring, Nat.testBit_two_pow_mul_add _ (b2n_lt_two_pow ie),
    Nat.testBit_two_pow_mul_add _ (b2n_lt_two_pow dfl), Nat.testBit_two_pow_mul_add _ hset]
  rcases (by omega : i < 2 ∨ i = 2 ∨ i = 3 ∨ 4 ≤ i) with h | rfl | rfl | h
  · simp [h]
  · simp [decide_b2n_mod]
  · simp [decide_b2n_mod]
  · have hlow : ¬ i < 2 ∧ ¬ i < 3 ∧ ¬ i < 4 ∧ ¬ i - 2 < 1 ∧ ¬ i - 2 - 1 < 1 := by omega
    have hset : i - 2 - 1 - 1 = i - 4 ∧ i - 4 - 4 = i - 8 := by omega
    have hplace : i - 4 < 4 ↔ i < 8 := by omega
    simp only [hlow, hset, hplace, if_false]

/-- RG under WR keeps the ring, the stack set, and in ring 1 dfl (R351). -/
theorem writeRg_eq (x : Keeper) (c : Cell) : x.writeRg c =
    (x.rg &&& (if x.rg.toNat % 4 = 0 then 0x073#12 else 0x07B#12)) |||
      (c &&& (0xF7F#12 &&& ~~~(if x.rg.toNat % 4 = 0 then 0x073#12 else 0x07B#12))) := by
  have hring (i : Nat) : (x.rg.toNat % 4 % 4).testBit i = (decide (i < 2) && x.rg.getLsbD i) := by
    rw [Nat.mod_mod]
    exact Nat.testBit_mod_two_pow x.rg.toNat 2 i
  have hset (i : Nat) : (x.set % 8).testBit i = (decide (i < 3) && x.rg.getLsbD (i + 4)) := by
    have hmod : x.set % 8 = x.rg.toNat / 2 ^ 4 % 2 ^ 3 := Nat.mod_mod _ (2 ^ 3)
    rw [hmod, Nat.testBit_mod_two_pow, Nat.testBit_div_two_pow, BitVec.testBit_toNat]
  have htenant (i : Nat) : (bits c.toNat 8 4 % 16).testBit i = (decide (i < 4) && c.getLsbD (i + 8)) := by
    have hmod : bits c.toNat 8 4 % 16 = c.toNat / 2 ^ 8 % 2 ^ 4 := Nat.mod_mod _ (2 ^ 4)
    rw [hmod, Nat.testBit_mod_two_pow, Nat.testBit_div_two_pow, BitVec.testBit_toNat]
  apply BitVec.eq_of_getLsbD_eq
  intro i hi
  rw [Keeper.writeRg, getLsbD_rgOf, Keeper.ring, hring, hset, htenant]
  simp only [Keeper.dfl, bit, BitVec.testBit_toNat, BitVec.getLsbD_or, BitVec.getLsbD_and]
  by_cases hzero : x.rg.toNat % 4 = 0
  · simp only [hzero, if_true]
    interval_cases i <;> simp
  · simp only [hzero, if_false]
    interval_cases i <;> simp

section
variable (s : State) (k : Nat) (y : Keeper) (l : List Cell)

theorem State.setAddr_onStack (a : Nat) : (s.setKpr k (y.onStack l)).setAddr k a = s.setKpr k ((withAddr y a).onStack l) := by
  simp [State.setAddr, Keeper.onStack, withAddr]

theorem State.kpopPair_onStack (hi lo : Cell) : (s.setKpr k (y.onStack (hi :: lo :: l))).kpopPair k =
    .ok (lo.toNat + hi.toNat * 4096, s.setKpr k (y.onStack l)) := by
  simp only [State.kpopPair, State.kpop_onStack, ok_bind]
  rfl

theorem State.kSeta_onStack (hi lo : Cell) : (s.setKpr k (y.onStack (hi :: lo :: l))).kSeta k =
    .ok (s.setKpr k ((withAddr y (lo.toNat + hi.toNat * 4096)).onStack l)) := by
  rw [State.kSeta, State.kpopPair_onStack, ok_bind, State.setAddr_onStack]
  rfl

theorem State.kCmp_onStack (b a : Cell) : (s.setKpr k (y.onStack (b :: a :: l))).kCmp k =
    .ok (s.setKpr k ({ y with fl := (subOf a b 0).2 }.onStack l)) := by
  simp only [State.kCmp, State.kpop_onStack, ok_bind, State.setFl_onStack, ksub_eq_subOf a b (Nat.zero_le 1)]
  rfl

theorem State.kCmpi_onStack (o : BitVec 6) (a : Cell) : (s.setKpr k (y.onStack (a :: l))).kCmpi k o =
    .ok (s.setKpr k ({ y with fl := (subOf a (o.setWidth 12) 0).2 }.onStack (a :: l))) := by
  rw [State.kCmpi, State.kpeek_onStack s k y (Nat.succ_pos _), ok_bind, State.setFl_onStack, ksub_eq_subOf _ _ (Nat.zero_le 1)]
  rfl

theorem State.kAdda_onStack (d : Cell) : (s.setKpr k (y.onStack (d :: l))).kAdda k =
    .ok (s.setKpr k ((withAddr y (((y.al.toNat + y.ah.toNat * 4096 : Nat) + d.toInt) % (2 ^ 24 : Int)).toNat).onStack l)) := by
  rw [State.kAdda, State.kpop_onStack, ok_bind, State.setAddr_onStack, State.kpr_setKpr_same]
  have haddr := withAddr_congr y (addr_add_signExtend (y.al.toNat + y.ah.toNat * 4096) d)
  exact congrArg (fun x => Except.ok (s.setKpr k (Keeper.onStack x l))) haddr

theorem State.writeKreg_onStack {r : Nat} (hr : r < 7 ∨ (r = 7 ∧ y.rg.toNat % 4 ≤ 1)) (c : Cell) :
    (s.setKpr k (y.onStack l)).writeKreg k r c = .ok (s.setKpr k ((written y r c).onStack l)) := by
  rcases hr with hr | ⟨rfl, hring⟩
  · interval_cases r <;> simp [State.writeKreg, State.setFl, pure, Except.pure, written, Keeper.onStack]
  · have hlow : ¬ 1 < (y.onStack l).ring := by simpa [Keeper.ring, Keeper.onStack] using hring
    rw [State.writeKreg, State.kpr_setKpr_same, if_neg hlow, State.modKpr_setKpr_same, writeRg_eq]
    rfl

theorem State.needRing_onStack {r : Nat} (h : y.rg.toNat % 4 ≤ r) : (s.setKpr k (y.onStack l)).needRing k r = .ok () := by
  have hlow : ¬ r < (y.onStack l).ring := by simpa [Keeper.ring, Keeper.onStack] using h
  rw [State.needRing, State.kpr_setKpr_same, if_neg hlow]
  rfl

theorem State.kWr_onStack {o : BitVec 6} (ho : o.toNat < 10) (hr : o.toNat < 7 ∨ (o.toNat = 7 ∧ y.rg.toNat % 4 ≤ 1)) (c : Cell) :
    (s.setKpr k (y.onStack (c :: l))).kWr k o = .ok (s.setKpr k ((written y o.toNat c).onStack l)) := by
  rw [State.kWr, operandBelow, if_pos ho, State.kpop_onStack]
  exact State.writeKreg_onStack s k y l hr c

theorem State.kPflush_onStack (h : y.rg.toNat % 4 ≤ 1) :
    (s.setKpr k (y.onStack l)).kPflush k = .ok (s.setKpr k ({ y with hist := 0, itt := [] }.onStack l)) := by
  rw [State.kPflush, State.needRing_onStack s k y l h, ok_bind, State.modKpr_setKpr_same]
  rfl

theorem State.kWait_onStack (h : y.rg.toNat % 4 ≤ 1) :
    (s.setKpr k (y.onStack l)).kWait k = .ok (s.setKpr k ({ y with waiting := true }.onStack l)) := by
  rw [State.kWait, State.needRing_onStack s k y l h, ok_bind, State.modKpr_setKpr_same]
  rfl

end

/-- RD reads the register that R350 numbers so. -/
theorem Keeper.reg_eq_register (x : Keeper) {r : Nat} (hr : r < 10) : x.reg r = register x r := by
  interval_cases r <;> rfl

theorem State.kGeta_onStack {s : State} {k : Nat} {y : Keeper} {n : Nat} (h : Room s k y 2 n) {l : List Cell} (hn : 2 + l.length ≤ n) :
    (s.setKpr k (y.onStack l)).kGeta k = .ok (s.setKpr k (y.onStack (y.ah :: y.al :: l))) := by
  rw [State.kGeta, State.kpr_setKpr_same]
  exact State.kpushN_onStack h _ _ hn

theorem State.kRd_onStack {s : State} {k : Nat} {y : Keeper} {n : Nat} (h : Room s k y 2 n) {l : List Cell} {o : BitVec 6} (ho : o.toNat < 10)
    (hn : l.length < n) :
    (s.setKpr k (y.onStack l)).kRd k o = .ok (s.setKpr k (y.onStack (register (y.onStack l) o.toNat :: l))) := by
  rw [State.kRd, operandBelow, if_pos ho, State.kpr_setKpr_same, Keeper.reg_eq_register _ ho]
  exact State.kpush_onStack h hn _

/-! ### Cells on the return stack (R362) -/

theorem State.kTor_onStack {s : State} {k : Nat} {y : Keeper} {l : List Cell} {es : List Nat} {n : Nat}
    (h : ReturnRoom s k (y.onStack l) n) (hn : es.length < n) (c : Cell) :
    (s.setKpr k ((withReturns y es).onStack (c :: l))).kTor k = .ok (s.setKpr k ((withReturns y (c.toNat :: es)).onStack l)) := by
  rw [State.kTor, State.kpop_onStack, ok_bind]
  exact State.rpush_withReturns h hn c.toNat

theorem State.kFromr_onStack {s : State} {k : Nat} {y : Keeper} {l : List Cell} {e : Nat} {es : List Nat} {n : Nat}
    (h : Room s k (withReturns y es) 2 n) (he : e < 2 ^ 24) (hn : l.length < n) :
    (s.setKpr k ((withReturns y (e :: es)).onStack l)).kFromr k =
      .ok (s.setKpr k ((withReturns y es).onStack (BitVec.ofNat 12 e :: l))) := by
  have hpop := State.rpop_withReturns s k (y.onStack l) he es
  rw [State.kFromr, show (withReturns y (e :: es)).onStack l = withReturns (y.onStack l) (e :: es) from rfl, hpop, ok_bind]
  exact State.kpush_onStack h hn _

theorem State.kRfetch_onStack {s : State} {k : Nat} {y : Keeper} {l : List Cell} {e : Nat} {es : List Nat} {n : Nat}
    (h : Room s k (withReturns y (e :: es)) 2 n) (he : e < 2 ^ 24) (hn : l.length < n) :
    (s.setKpr k ((withReturns y (e :: es)).onStack l)).kRfetch k =
      .ok (s.setKpr k ((withReturns y (e :: es)).onStack (BitVec.ofNat 12 e :: l))) := by
  have hpeek := State.rpeek_withReturns s k (y.onStack l) he es
  rw [State.kRfetch, show (withReturns y (e :: es)).onStack l = withReturns (y.onStack l) (e :: es) from rfl, hpeek, ok_bind]
  exact State.kpush_onStack h hn _

end Sys2Proof.Machine

namespace Sys2Proof.Proofs
open Sys2Proof.Machine Sys2Proof.Claims

/-- What stackOp, aluOp and registerOp name of an operation, it does. -/
abbrev Performs (op : Keeper → Instr → Option (Fin 4 × Nat × Effect)) : Prop :=
  ∀ (s : State) (c : Instr) (k : Fin 4) (n : Nat) (f : Effect) (st : List Cell), op (begun (s.kpr k.val)) c = some (k, n, f) →
    c.wellFormed = true → KReady s k.val st → n ≤ st.length → ∃ t, exec c s = .next t ∧ KDid s t k.val (next (f st).2 (f st).1)

theorem performs_stackOp : Performs stackOp := by
  intro s c k n f st hop hwf h hn
  have hroom := room_of_ready h
  unfold stackOp at hop
  split at hop <;> cases hop
  next => exact exists_kdid_next h (State.kpush_onStack hroom (by simp) _)
  next => exact exists_kdid_next h rfl
  next =>
    obtain ⟨a, l, rfl⟩ := List.exists_cons_of_length_pos hn
    exact exists_kdid_next h (State.kDup_onStack hroom (by simp))
  next =>
    obtain ⟨a, l, rfl⟩ := List.exists_cons_of_length_pos hn
    exact exists_kdid_next h (State.kDrop_onStack ..)
  next =>
    obtain ⟨b, a, l, rfl⟩ := exists_cons_cons_of_two_le hn
    exact exists_kdid_next h (State.kmap_onStack hroom (p := [b, a]) (by simp; omega))
  next =>
    obtain ⟨b, a, l, rfl⟩ := exists_cons_cons_of_two_le hn
    exact exists_kdid_next h (State.kOver_onStack hroom (by simp))
  next =>
    obtain ⟨c, b, a, l, rfl⟩ := exists_cons_cons_cons_of_three_le hn
    exact exists_kdid_next h (State.kmap_onStack hroom (p := [c, b, a]) (by simp; omega))
  next =>
    obtain ⟨b, a, l, rfl⟩ := exists_cons_cons_of_two_le hn
    exact exists_kdid_next h (State.kmap_onStack hroom (p := [b, a]) (by simp; omega))
  next => exact exists_kdid_next h (State.kPick_onStack hroom (of_decide_eq_true hwf) hn (by simp))
  next => exact exists_kdid_next h (State.kTestf_onStack hroom (of_decide_eq_true hwf) (by simp))
  next =>
    have hdepth := congrArg Keeper.sp (begun_onStack h)
    exact exists_kdid_next h (hdepth ▸ State.kDepth_onStack hroom (by simp))

section
variable {s : State} {k : Nat} {st : List Cell} (h : KReady s k st)
include h

/-- An operation ( a b -- r ) on the flags that g gives. -/
theorem exists_kdid_binary {f : Keeper → Cell → Cell → Cell × Cell} {g : Cell → Cell → Cell × Cell}
    (hfg : ∀ l a b, f ((begun (s.kpr k)).onStack l) a b = g a b) (hn : 2 ≤ st.length) :
    ∃ t, done s (s.kealaOp k fun s => s.kbin k f) = .next t ∧
      KDid s t k (next (binary (begun (s.kpr k)) g st).2 (binary (begun (s.kpr k)) g st).1) := by
  obtain ⟨b, a, l, rfl⟩ := exists_cons_cons_of_two_le hn
  exact exists_kdid_next h (State.kbin_onStack (room_of_ready h) (hfg _ a b) (by simp; omega))

/-- An operation ( a -- r ) on the flags that g gives. -/
theorem exists_kdid_unary {body : State → Except KErr State} {f g : Cell → Cell × Cell} (hbody : ∀ s, body s = s.kun k f)
    (hfg : ∀ a, f a = g a) (hn : 1 ≤ st.length) :
    ∃ t, done s (s.kealaOp k body) = .next t ∧
      KDid s t k (next (unary (begun (s.kpr k)) g st).2 (unary (begun (s.kpr k)) g st).1) := by
  obtain ⟨a, l, rfl⟩ := List.exists_cons_of_length_pos hn
  obtain rfl : f = g := funext hfg
  exact exists_kdid_next h ((hbody _).trans (State.kun_onStack (room_of_ready h) (by simp; omega)))

/-- A multiplication. -/
theorem exists_kdid_product {f g : Cell → Cell → Nat} (hfg : ∀ a b, f a b = g a b) (hlt : ∀ a b, g a b < 2 ^ 24) (hn : 2 ≤ st.length) :
    ∃ t, done s (s.kealaOp k fun s => s.kmul k f) = .next t ∧
      KDid s t k (next (product (begun (s.kpr k)) g st).2 (product (begun (s.kpr k)) g st).1) := by
  obtain ⟨b, a, l, rfl⟩ := exists_cons_cons_of_two_le hn
  exact exists_kdid_next h (State.kmul_onStack (room_of_ready h) (hfg a b) (hlt a b) (by simp))

/-- A shift whose count is a legal one. -/
theorem exists_kdid_shift {left arith : Bool} {o : BitVec 6} {g : Cell → Cell × Cell} (ho : o.toNat < 16)
    (hfg : ∀ a, kshift left arith a o.toNat = g a) (hn : 1 ≤ st.length) :
    ∃ t, done s (s.kealaOp k fun s => s.kShift k left arith o) = .next t ∧
      KDid s t k (next (unary (begun (s.kpr k)) g st).2 (unary (begun (s.kpr k)) g st).1) :=
  exists_kdid_unary h (fun s => by rw [State.kShift, operandBelow, if_pos ho]; rfl) hfg hn

end

theorem mul_toNat_lt (a b : Cell) : a.toNat * b.toNat < 2 ^ 24 := calc
  a.toNat * b.toNat < 2 ^ 12 * 2 ^ 12 := Nat.mul_lt_mul'' a.isLt b.isLt
  _ = 2 ^ 24 := rfl

theorem performs_aluOp : Performs aluOp := by
  intro s c k n f st hop hwf h hn
  unfold aluOp at hop
  split at hop <;> cases hop
  next => exact exists_kdid_binary h (fun _ a b => kadd_eq_addOf a b (by decide)) hn
  next => exact exists_kdid_binary h (fun _ a b => ksub_eq_subOf a b (by decide)) hn
  next => exact exists_kdid_binary h (fun _ a b => kadd_eq_addOf a b (Nat.le_of_lt_succ (b2n_lt_two_pow _))) hn
  next => exact exists_kdid_binary h (fun _ a b => ksub_eq_subOf a b (Nat.le_of_lt_succ (b2n_lt_two_pow _))) hn
  next => exact exists_kdid_binary h (fun _ a b => congrArg (Prod.mk (a &&& b)) (flRes_eq_resultFlags ..)) hn
  next => exact exists_kdid_binary h (fun _ a b => congrArg (Prod.mk (a ||| b)) (flRes_eq_resultFlags ..)) hn
  next => exact exists_kdid_binary h (fun _ a b => congrArg (Prod.mk (a ^^^ b)) (flRes_eq_resultFlags ..)) hn
  next => exact exists_kdid_unary h (fun _ => rfl) (fun a => congrArg (Prod.mk (~~~a)) (flRes_eq_resultFlags ..)) hn
  next => exact exists_kdid_shift h (of_decide_eq_true hwf) (fun a => kshift_left_eq false a _) hn
  next => exact exists_kdid_shift h (of_decide_eq_true hwf) (fun a => kshift_right_eq a _) hn
  next => exact exists_kdid_shift h (of_decide_eq_true hwf) (fun a => kshift_arith_eq a (of_decide_eq_true hwf)) hn
  next => exact exists_kdid_product h (fun _ _ => rfl) mul_toNat_lt hn
  next => exact exists_kdid_product h (fun _ _ => rfl) (fun a b => by omega) hn
  next =>
    obtain ⟨b, a, l, rfl⟩ := exists_cons_cons_of_two_le hn
    exact exists_kdid_next h (State.kCmp_onStack ..)
  next => exact exists_kdid_unary h (fun _ => rfl) (fun a => kadd_eq_addOf a _ (by decide)) hn
  next =>
    obtain ⟨a, l, rfl⟩ := List.exists_cons_of_length_pos hn
    exact exists_kdid_next h (State.kCmpi_onStack ..)

theorem performs_registerOp : Performs registerOp := by
  intro s c k n f st hop hwf h hn
  have hroom := room_of_ready h
  unfold registerOp at hop
  split at hop
  next =>
    cases hop
    obtain ⟨hi, lo, l, rfl⟩ := exists_cons_cons_of_two_le hn
    exact exists_kdid_next h (State.kSeta_onStack ..)
  next =>
    cases hop
    exact exists_kdid_next h (State.kGeta_onStack hroom (Nat.le_of_eq (Nat.add_comm ..)))
  next =>
    cases hop
    obtain ⟨d, l, rfl⟩ := List.exists_cons_of_length_pos hn
    exact exists_kdid_next h (State.kAdda_onStack ..)
  next =>
    cases hop
    have hrd := State.kRd_onStack hroom (l := st) (of_decide_eq_true hwf) (by omega)
    rw [begun_onStack h] at hrd
    exact exists_kdid_next h (begun_onStack h ▸ hrd)
  next =>
    split at hop <;> cases hop
    next hr =>
      obtain ⟨c, l, rfl⟩ := List.exists_cons_of_length_pos hn
      exact exists_kdid_next h (State.kWr_onStack s k.val _ l (of_decide_eq_true hwf) hr c)
  next =>
    split at hop <;> cases hop
    next hring => exact exists_kdid_next h (State.kPflush_onStack s k.val _ st hring)
  next =>
    split at hop <;> cases hop
    next hring => exact exists_kdid_next h (State.kWait_onStack s k.val _ st hring)
  next => cases hop

/-- TOR, FROMR and RFETCH (R362). -/
theorem kealaReturnStack (s : State) (k : Fin 4) (st : List Cell) (es : List Nat) :
    (∀ c, KReady s k.val (c :: st) → RReady s k.val es →
      ∃ t, exec (.tor k) s = .next t ∧ KDid s t k.val (withReturns (next (begun (s.kpr k.val)) st) (c.toNat :: es))) ∧
    (∀ e, KReady s k.val st → RReady s k.val (e :: es) →
      (∃ t, exec (.fromr k) s = .next t ∧
        KDid s t k.val (withReturns (next (begun (s.kpr k.val)) (BitVec.ofNat 12 e :: st)) es)) ∧
      (∃ t, exec (.rfetch k) s = .next t ∧ KDid s t k.val (next (begun (s.kpr k.val)) (BitVec.ofNat 12 e :: st)))) := by
  refine ⟨fun c h hr => ?_, fun e h hr => ?_⟩
  · have hroom := (returnRoom_of_ready h.2.2.1 hr).congr (z := (begun (s.kpr k.val)).onStack st) rfl rfl rfl
    exact exists_kdid_next (y := withReturns (begun (s.kpr k.val)) (c.toNat :: es)) h
      (withReturns_begun hr ▸ State.kTor_onStack hroom (by omega) c)
  · have he : e < 2 ^ 24 := hr.2.2.2.1 e (List.mem_cons_self ..)
    have hroom (es' : List Nat) := (room_of_ready h).congr (z := withReturns (begun (s.kpr k.val)) es') rfl rfl rfl
    exact ⟨exists_kdid_next (y := withReturns (begun (s.kpr k.val)) es) h
        (withReturns_begun hr ▸ State.kFromr_onStack (hroom es) he (by omega)),
      exists_kdid_next h (withReturns_begun hr ▸ State.kRfetch_onStack (hroom (e :: es)) he (by omega))⟩

/-- Settles O4: each operation by what it leaves on a stack on chip. -/
theorem kealaOperations : Obligations.KealaOperations := by
  unfold Obligations.KealaOperations
  exact ⟨performs_stackOp, performs_aluOp, performs_registerOp, kealaReturnStack⟩

end Sys2Proof.Proofs
end

section
/-!
PROOFS. Loads and stores of local data (R355, R356), and the statement KealaLocalMemory (R362).
-/
namespace Sys2Proof.Machine
open Sys2Proof.Claims

/-! ### Local data -/

theorem lt_of_localOk {s : State} {k a : Nat} (h : localOk s k a = true) : a < 0x10000 :=
  of_decide_eq_true (Bool.and_eq_true_iff.1 h).1

section
variable {s : State} {k : Nat} {y : Keeper} {a b : Nat} (htbl : y.tbl = (s.kpr k).tbl) (himage : y.image = (s.kpr k).image)
  (hrg : y.rg = (s.kpr k).rg) (ha : a % 2 ^ 24 = b) (hlocal : localOk s k b = true)
include htbl himage

theorem State.dataRing_setKpr (a : Nat) : (s.setKpr k y).dataRing k a = s.dataRing k a := by
  simp [State.dataRing, State.regionOf, State.getTbl_setKpr htbl himage]

include hrg hlocal

/-- Access is a matter of a keeper's tables and ring alone (R356). -/
theorem State.kcheck_of_localOk (write : Bool) : (s.setKpr k y).kcheck k b write = .ok () := by
  have hb := lt_of_localOk hlocal
  have hmod : b % 2 ^ 24 = b := by omega
  have hring : y.ring = (s.kpr k).ring := by rw [Keeper.ring, hrg, Keeper.ring]
  obtain ⟨g, hg, hle⟩ : ∃ g, s.dataRing k b = .ok g ∧ (s.kpr k).ring ≤ g := by
    unfold localOk at hlocal
    split at hlocal
    next g hg => exact ⟨g, hg, of_decide_eq_true (Bool.and_eq_true_iff.1 hlocal).2⟩
    next => simp at hlocal
  simp only [State.kcheck, hmod, hb, if_true, State.dataRing_setKpr htbl himage, hg, ok_bind, State.kpr_setKpr_same, hring,
    if_neg (Nat.not_lt.2 hle)]
  rfl

include ha

theorem State.kload_of_localOk (hparity : parityOk (Mem.get y.data b) = true) :
    (s.setKpr k y).kload k a = .ok (cellOf (Mem.get y.data b), s.setKpr k y) := by
  have hb := lt_of_localOk hlocal
  simp only [State.kload, ha, State.kcheck_of_localOk htbl himage hrg hlocal, ok_bind, hb, if_true, State.getData,
    State.kpr_setKpr_same, hparity]
  rfl

theorem State.kstore_of_localOk (hflip : s.on Reg.TST_FLIP_arm = false) (c : Cell) :
    (s.setKpr k y).kstore k a c = .ok (s.setKpr k { y with data := Mem.put y.data b (store c) }) := by
  have hb := lt_of_localOk hlocal
  have hput := State.flipCell_of_unarmed (s := s.setKpr k y) hflip
  simp only [State.kstore, ha, State.kcheck_of_localOk htbl himage hrg hlocal, ok_bind, hb, if_true, State.putData, hput,
    State.modKpr_setKpr_same]
  rfl

end

/-! ### Loads and stores (R362) -/

section
variable {s : State} {k : Nat} {y : Keeper} {n : Nat} (h : Room s k y 2 n) {l : List Cell} {a b : Nat} (hrg : y.rg = (s.kpr k).rg)
  (ha : a % 2 ^ 24 = b) (hlocal : localOk s k b = true)
include h

theorem State.kroom_onStack (hn : l.length < n) : (s.setKpr k (y.onStack l)).kroom k = .ok () := by
  obtain ⟨m, hget, hm⟩ := h.limit
  have hlimit : (s.setKpr k (y.onStack l)).getTbl k 1 (y.onStack l).set 2 = .ok m :=
    (State.getTbl_setKpr (y := y.onStack l) h.tbl h.image 1 y.set 2).trans hget
  have hroom : ¬ m ≤ (y.onStack l).sp := Nat.not_le.2 (Nat.lt_of_lt_of_le hn hm)
  rw [State.kroom, State.kpr_setKpr_same, hlimit, ok_bind, if_neg hroom]
  rfl

include hrg ha hlocal

theorem State.kload_onStack (hparity : parityOk (Mem.get y.data b) = true) :
    (s.setKpr k (y.onStack l)).kload k a = .ok (cellOf (Mem.get y.data b), s.setKpr k (y.onStack l)) :=
  State.kload_of_localOk (y := y.onStack l) h.tbl h.image hrg ha hlocal hparity

theorem State.kloadPush_onStack (hparity : parityOk (Mem.get y.data b) = true) (hn : l.length < n) :
    (s.setKpr k (y.onStack l)).kloadPush k a = .ok (s.setKpr k (y.onStack (cellOf (Mem.get y.data b) :: l))) := by
  rw [State.kloadPush, State.kroom_onStack h hn, ok_bind, State.kload_onStack h hrg ha hlocal hparity, ok_bind]
  exact State.kpush_onStack h hn _

theorem State.kLd_onStack {hi lo : Cell} (hpair : lo.toNat + hi.toNat * 4096 = a) (hparity : parityOk (Mem.get y.data b) = true)
    (hn : l.length < n) :
    (s.setKpr k (y.onStack (hi :: lo :: l))).kLd k = .ok (s.setKpr k (y.onStack (cellOf (Mem.get y.data b) :: l))) := by
  rw [State.kLd, State.kpopPair_onStack, ok_bind, hpair, State.kload_onStack h hrg ha hlocal hparity, ok_bind]
  exact State.kpush_onStack h hn _

theorem State.kpopStore_onStack (c : Cell) :
    (s.setKpr k (y.onStack (c :: l))).kpopStore k a = .ok (s.setKpr k ({ y with data := Mem.put y.data b (store c) }.onStack l)) := by
  rw [State.kpopStore, State.kpop_onStack, ok_bind]
  exact State.kstore_of_localOk (y := y.onStack l) h.tbl h.image hrg ha hlocal h.unarmed c

end

/-- The step of an indexed access (R362). -/
theorem State.stepIx_onStack (s : State) (k : Nat) (y : Keeper) (l : List Cell) {o : BitVec 6} (ho : o.toNat < 2) :
    (s.setKpr k (y.onStack l)).stepIx k o = s.setKpr k ({ y with ix := y.ix + o.setWidth 12 }.onStack l) := by
  rcases (by omega : o.toNat = 0 ∨ o.toNat = 1) with hzero | hone
  · obtain rfl : o = 0#6 := BitVec.eq_of_toNat_eq hzero
    have hix : y.ix + (0#6).setWidth 12 = y.ix := BitVec.add_zero y.ix
    rw [hix]
    rfl
  · obtain rfl : o = 1#6 := BitVec.eq_of_toNat_eq hone
    rw [State.stepIx, if_pos hone, State.modKpr_setKpr_same]
    rfl

theorem State.addr_onStack (s : State) (k : Nat) (y : Keeper) (l : List Cell) :
    ((s.setKpr k (y.onStack l)).kpr k).addr = y.al.toNat + y.ah.toNat * 4096 := by
  rw [State.kpr_setKpr_same]
  rfl

theorem State.ix_onStack (s : State) (k : Nat) (y : Keeper) (l : List Cell) : ((s.setKpr k (y.onStack l)).kpr k).ix = y.ix := by
  rw [State.kpr_setKpr_same]
  rfl

section
variable {s : State} {k : Nat} {y : Keeper} {n : Nat} (h : Room s k y 2 n) {l : List Cell} {b : Nat} {o : BitVec 6}
  (hrg : y.rg = (s.kpr k).rg) (hlocal : localOk s k b = true)
include h hrg hlocal

theorem State.kLda_onStack (ha : (y.al.toNat + y.ah.toNat * 4096 + o.toNat) % 2 ^ 24 = b)
    (hparity : parityOk (Mem.get y.data b) = true) (hn : l.length < n) :
    (s.setKpr k (y.onStack l)).kLda k o = .ok (s.setKpr k (y.onStack (cellOf (Mem.get y.data b) :: l))) := by
  rw [State.kLda, State.addr_onStack]
  exact State.kloadPush_onStack h hrg ha hlocal hparity hn

theorem State.kSta_onStack (ha : (y.al.toNat + y.ah.toNat * 4096 + o.toNat) % 2 ^ 24 = b) (c : Cell) :
    (s.setKpr k (y.onStack (c :: l))).kSta k o = .ok (s.setKpr k ({ y with data := Mem.put y.data b (store c) }.onStack l)) := by
  rw [State.kSta, State.addr_onStack]
  exact State.kpopStore_onStack h hrg ha hlocal c

theorem State.kLdx_onStack (ho : o.toNat < 2) (ha : (y.al.toNat + y.ah.toNat * 4096 + y.ix.toNat) % 2 ^ 24 = b)
    (hparity : parityOk (Mem.get y.data b) = true) (hn : l.length < n) :
    (s.setKpr k (y.onStack l)).kLdx k o =
      .ok (s.setKpr k ({ y with ix := y.ix + o.setWidth 12 }.onStack (cellOf (Mem.get y.data b) :: l))) := by
  rw [State.kLdx, operandBelow, if_pos ho, State.addr_onStack, State.ix_onStack,
    State.kloadPush_onStack h hrg ha hlocal hparity hn, ← State.stepIx_onStack s k y _ ho]
  rfl

theorem State.kStx_onStack (ho : o.toNat < 2) (ha : (y.al.toNat + y.ah.toNat * 4096 + y.ix.toNat) % 2 ^ 24 = b) (c : Cell) :
    (s.setKpr k (y.onStack (c :: l))).kStx k o =
      .ok (s.setKpr k ({ y with ix := y.ix + o.setWidth 12, data := Mem.put y.data b (store c) }.onStack l)) := by
  have hstep := State.stepIx_onStack s k { y with data := Mem.put y.data b (store c) } l ho
  rw [State.kStx, operandBelow, if_pos ho, State.addr_onStack, State.ix_onStack, State.kpopStore_onStack h hrg ha hlocal c, ← hstep]
  rfl

theorem State.kSt_onStack {hi lo c : Cell} (ha : lo.toNat + hi.toNat * 4096 = b) :
    (s.setKpr k (y.onStack (hi :: lo :: c :: l))).kSt k =
      .ok (s.setKpr k ({ y with data := Mem.put y.data b (store c) }.onStack l)) := by
  have hb := lt_of_localOk hlocal
  rw [State.kSt, State.kpopPair_onStack, ha, ok_bind]
  exact State.kpopStore_onStack h hrg (by omega) hlocal c

end

end Sys2Proof.Machine

namespace Sys2Proof.Proofs
open Sys2Proof.Machine Sys2Proof.Claims

/-- A store changes the cell at its address and no other. -/
theorem exists_kdid_stored {u : State} {k a : Nat} {v : Cell} {P : State → Prop} (f : Keeper → Keeper) {x : Keeper}
    (hf : ∀ d, (f { x with data := d }).data = d) (hfx : ∀ d, f { x with data := d } = { f x with data := d })
    (h : ∃ t, P t ∧ KDid u t k (f { x with data := Mem.put x.data a (store v) })) :
    ∃ t, P t ∧ KDid u t k { f x with data := (t.kpr k).data } ∧ Mem.get (t.kpr k).data a = store v ∧
      ∀ b, b ≠ a → Mem.get (t.kpr k).data b = Mem.get x.data b := by
  obtain ⟨t, ht, hdid⟩ := h
  have hdata : (t.kpr k).data = Mem.put x.data a (store v) := (congrArg Keeper.data hdid.1).trans (hf _)
  rw [hfx] at hdid
  exact ⟨t, ht, hdata ▸ hdid, hdata ▸ Mem.get_put_same .., fun b hb => hdata ▸ Mem.get_put_other _ _ hb⟩

theorem kealaLoads {s : State} {c : Instr} {k : Fin 4} {a : Nat} {l st : List Cell} {x : Keeper}
    (hop : loadOp (begun (s.kpr k.val)) st c = some (k, a, l, x)) (hwf : c.wellFormed = true) (h : KReady s k.val st)
    (hlocal : localOk s k.val a = true) (hparity : parityOk (Mem.get (s.kpr k.val).data a) = true) :
    ∃ t, exec c s = .next t ∧ KDid s t k.val (next x (cellOf (Mem.get (s.kpr k.val).data a) :: l)) := by
  have hroom := room_of_ready h
  have hlow := lt_of_localOk hlocal
  unfold loadOp at hop
  split at hop
  next =>
    cases hop
    exact exists_kdid_next h (State.kLda_onStack hroom rfl hlocal rfl hparity (by omega))
  next =>
    cases hop
    exact exists_kdid_next h (State.kLdx_onStack hroom rfl hlocal (of_decide_eq_true hwf) rfl hparity (by omega))
  next =>
    split at hop <;> cases hop
    next hi lo =>
      have hn : l.length < (hi :: lo :: l).length + 2 := by simp; omega
      exact exists_kdid_next h (State.kLd_onStack hroom rfl (by omega) hlocal rfl hparity hn)
  next => cases hop

theorem kealaStores {s : State} {c : Instr} {k : Fin 4} {a : Nat} {v : Cell} {l st : List Cell} {x : Keeper}
    (hop : storeOp (begun (s.kpr k.val)) st c = some (k, a, v, l, x)) (hwf : c.wellFormed = true) (h : KReady s k.val st)
    (hlocal : localOk s k.val a = true) :
    ∃ t, exec c s = .next t ∧ KDid s t k.val { next x l with data := (t.kpr k.val).data } ∧
      Mem.get (t.kpr k.val).data a = store v ∧ ∀ b, b ≠ a → Mem.get (t.kpr k.val).data b = Mem.get (s.kpr k.val).data b := by
  have hroom := room_of_ready h
  unfold storeOp at hop
  split at hop
  next =>
    split at hop <;> cases hop
    next =>
      exact exists_kdid_stored (x := begun (s.kpr k.val)) (next · l) (fun _ => rfl) (fun _ => rfl)
        (exists_kdid_next h (State.kSta_onStack hroom rfl hlocal rfl v))
  next o =>
    split at hop <;> cases hop
    next =>
      exact exists_kdid_stored (x := { begun (s.kpr k.val) with ix := (begun (s.kpr k.val)).ix + o.setWidth 12 }) (next · l)
        (fun _ => rfl) (fun _ => rfl)
        (exists_kdid_next h (State.kStx_onStack hroom rfl hlocal (of_decide_eq_true hwf) rfl v))
  next =>
    split at hop <;> cases hop
    next =>
      exact exists_kdid_stored (x := begun (s.kpr k.val)) (next · l) (fun _ => rfl) (fun _ => rfl)
        (exists_kdid_next h (State.kSt_onStack hroom rfl hlocal rfl))
  next => cases hop

/-- Settles O5: each access goes to the cell that its address names. -/
theorem kealaLocalMemory : Obligations.KealaLocalMemory := by
  unfold Obligations.KealaLocalMemory
  exact ⟨fun _ _ _ _ _ _ _ => kealaLoads, fun _ _ _ _ _ _ _ _ => kealaStores⟩

end Sys2Proof.Proofs
end

section
/-!
PROOFS. Block instructions, one element at a time (R366 to R368), and the statement KealaBlockOperations (R468).
-/
namespace Sys2Proof.Machine
open Sys2Proof.Claims

/-- The keeper after an element of a block of n: the operand cells are `p`, or, after the last one, popped (R366, R367). -/
def afterElement (x : Keeper) (n : Cell) (p st : List Cell) : Keeper :=
  if n = 1 then { next x st with inBlock := false } else between x p st

/-- The keeper at the end of SCANB (R367). -/
def afterScan (x : Keeper) (z : Bool) (st : List Cell) : Keeper :=
  { next x st with fl := (x.fl &&& 0xD#12) ||| (if z then 2#12 else 0#12), inBlock := false }

theorem between_eq_onStack (x : Keeper) (p st : List Cell) : between x p st = { x with inBlock := true }.onStack (p ++ st) := by
  rw [Keeper.onStack, List.length_append]
  rfl

/-! ### Operand cells (R366) -/

section
variable (s : State) (k : Nat) (y : Keeper)

/-- Operand cells that are on chip need no refill. -/
theorem State.refillTo_onStack {l : List Cell} {n : Nat} (hn : n ≤ l.length) :
    (s.setKpr k (y.onStack l)).refillTo k n = .ok (s.setKpr k (y.onStack l)) := by
  have hchip : ¬ ((s.setKpr k (y.onStack l)).kpr k).ds.length < n := by simpa [Keeper.onStack] using hn
  unfold State.refillTo
  induction List.range n with
  | nil => rfl
  | cons i is ih =>
    rw [List.foldlM_cons, if_neg hchip]
    exact ih

theorem State.operand_onStack {l : List Cell} {i : Nat} {c : Cell} (hc : l[i]? = some c) :
    (s.setKpr k (y.onStack l)).operand k i = .ok c.toNat := by
  obtain ⟨hi, rfl⟩ := List.getElem?_eq_some_iff.1 hc
  rw [State.operand, State.kpeek_onStack s k y hi]
  rfl

theorem State.blockEnd_onStack (p l : List Cell) :
    (s.setKpr k (y.onStack (p ++ l))).blockEnd k p.length = .ok (s.setKpr k { next y l with inBlock := false }) := by
  rw [State.blockEnd, State.kpopN_onStack, ok_bind, State.modKpr_setKpr_same, State.kNext, State.modKpr_setKpr_same]
  rfl

/-- Cells that change together without an armed flip. -/
theorem foldl_flipCell_of_unarmed {s : State} (h : s.on Reg.TST_FLIP_arm = false) (cls k : Nat) (unit : Nat → Nat)
    (l : List (Cell × Nat)) (acc : List SCell) :
    l.foldl (fun (p : List SCell × State) e =>
      let d := p.2.flipCell cls k (unit e.2) e.1
      (d.1 :: p.1, d.2)) (acc, s) = ((l.map fun e => store e.1).reverse ++ acc, s) := by
  induction l generalizing acc with
  | nil => rfl
  | cons e l ih =>
    rw [List.foldl_cons]
    simp only [State.flipCell_of_unarmed h, ih, List.map_cons, List.reverse_cons, List.append_assoc]
    rfl

variable {s}

theorem State.blockBoundary_onStack (h : s.on Reg.TST_FLIP_arm = false) {p q : List Cell} (hpq : q.length = p.length) (l : List Cell) :
    (s.setKpr k (y.onStack (p ++ l))).blockBoundary k q = s.setKpr k (between y q.reverse l) := by
  have hfold := foldl_flipCell_of_unarmed (s := s.setKpr k (y.onStack (p ++ l))) h 8 k
    (fun i => unitDs (((s.setKpr k (y.onStack (p ++ l))).kpr k).sp - q.length + i)) q.zipIdx []
  have hstore : (q.zipIdx.map fun e => store e.1) = q.map store := calc
    q.zipIdx.map (store ∘ Prod.fst) = (q.zipIdx.map Prod.fst).map store := List.map_map.symm
    _ = q.map store := by rw [List.zipIdx_map_fst]
  rw [State.blockBoundary, hfold, hstore, State.modKpr_setKpr_same]
  simp [Keeper.onStack, between, hpq]

/-- An element of n: its boundary, and after the last one the end of the block (R366, R368). -/
theorem State.blockElement_onStack (h : s.on Reg.TST_FLIP_arm = false) {p q : List Cell} (hpq : q.length = p.length) (n : Cell)
    (l : List Cell) : (let b := (s.setKpr k (y.onStack (p ++ l))).blockBoundary k q
      if n.toNat = 1 then b.blockLast k p.length else b) = s.setKpr k (afterElement y n q.reverse l) := by
  have hone : n = 1 ↔ n.toNat = 1 := ⟨fun h => h ▸ rfl, fun h => BitVec.eq_of_toNat_eq h⟩
  have hend := State.blockEnd_onStack s k { y with inBlock := true } q.reverse l
  rw [← between_eq_onStack, List.length_reverse, hpq] at hend
  simp only [State.blockBoundary_onStack k y h hpq, State.blockLast, hend, afterElement, hone]
  split <;> rfl

end

theorem nextPair_reverse (a : Nat) : (nextPair a).reverse = pairAfter a := by
  have hlow : BitVec.ofNat 12 ((a + 1) % 2 ^ 24) = BitVec.ofNat 12 (a + 1) :=
    BitVec.eq_of_toNat_eq (by simp only [BitVec.toNat_ofNat]; omega)
  rw [nextPair, hlow]
  rfl

theorem ofNat_toNat_sub_one {n : Cell} (h : n ≠ 0) : BitVec.ofNat 12 (n.toNat - 1) = n - 1 := by
  have hpos : n.toNat ≠ 0 := fun h' => h (BitVec.eq_of_toNat_eq h')
  apply BitVec.eq_of_toNat_eq
  rw [BitVec.toNat_ofNat, BitVec.toNat_sub]
  have := n.isLt
  simp
  omega

theorem toNat_ne_zero {n : Cell} (h : n ≠ 0) : n.toNat ≠ 0 := fun h' => h (BitVec.eq_of_toNat_eq h')

/-! ### One element of each instruction (R366, R367) -/

section
variable {s : State} {k : Nat} {y : Keeper} {m : Nat} (h : Room s k y 2 m) (hrg : y.rg = (s.kpr k).rg) {n : Cell} (hn : n ≠ 0)
  {src dst : Nat} {sl sh dl dh : Cell} (hsrc : sl.toNat + sh.toNat * 4096 = src) (hdst : dl.toNat + dh.toNat * 4096 = dst)
  {st : List Cell}
include h hrg hn

section
include hsrc hdst

theorem State.kMoveb_onStack (hread : localOk s k src = true) (hwrite : localOk s k dst = true)
    (hparity : parityOk (Mem.get y.data src) = true) :
    (s.setKpr k (y.onStack ([n, dh, dl, sh, sl] ++ st))).kMoveb k =
      .ok (s.setKpr k (afterElement { y with data := Mem.put y.data dst (store (cellOf (Mem.get y.data src))) } n
        ([n - 1] ++ pairAfter dst ++ pairAfter src) st)) := by
  have hslow := lt_of_localOk hread
  have hdlow := lt_of_localOk hwrite
  have hcheckr := State.kcheck_of_localOk (y := y.onStack ([n, dh, dl, sh, sl] ++ st)) h.tbl h.image hrg hread false
  have hcheckw := State.kcheck_of_localOk (y := y.onStack ([n, dh, dl, sh, sl] ++ st)) h.tbl h.image hrg hwrite true
  have hload := State.kload_onStack h (l := [n, dh, dl, sh, sl] ++ st) hrg (Nat.mod_eq_of_lt (by omega)) hread hparity
  have hstore := State.kstore_of_localOk (y := y.onStack ([n, dh, dl, sh, sl] ++ st)) h.tbl h.image hrg
    (Nat.mod_eq_of_lt (by omega)) hwrite h.unarmed
  have helement := State.blockElement_onStack k { y with data := Mem.put y.data dst (store (cellOf (Mem.get y.data src))) }
    h.unarmed (p := [n, dh, dl, sh, sl]) (q := nextPair src ++ nextPair dst ++ [BitVec.ofNat 12 (n.toNat - 1)]) rfl n st
  simp only [List.reverse_append, nextPair_reverse, ofNat_toNat_sub_one hn] at helement
  rw [State.kMoveb, State.refillTo_onStack s k y (by simp), ok_bind, State.operand_onStack s k y (i := 0) rfl, ok_bind,
    State.operand_onStack s k y (i := 1) rfl, ok_bind, State.operand_onStack s k y (i := 2) rfl, ok_bind,
    State.operand_onStack s k y (i := 3) rfl, ok_bind, State.operand_onStack s k y (i := 4) rfl, ok_bind]
  simp only [hsrc, hdst, if_neg (toNat_ne_zero hn), hcheckr, hcheckw, hload, hstore, ok_bind, ofNat_toNat_sub_one hn]
  exact congrArg Except.ok helement

end

include hdst in
theorem State.kFillb_onStack (hwrite : localOk s k dst = true) (v : Cell) :
    (s.setKpr k (y.onStack ([n, v, dh, dl] ++ st))).kFillb k =
      .ok (s.setKpr k (afterElement { y with data := Mem.put y.data dst (store v) } n ([n - 1, v] ++ pairAfter dst) st)) := by
  have hdlow := lt_of_localOk hwrite
  have hstore := State.kstore_of_localOk (y := y.onStack ([n, v, dh, dl] ++ st)) h.tbl h.image hrg
    (Nat.mod_eq_of_lt (by omega)) hwrite h.unarmed
  have helement := State.blockElement_onStack k { y with data := Mem.put y.data dst (store v) }
    h.unarmed (p := [n, v, dh, dl]) (q := nextPair dst ++ [v, BitVec.ofNat 12 (n.toNat - 1)]) rfl n st
  simp only [List.reverse_append, nextPair_reverse, ofNat_toNat_sub_one hn] at helement
  rw [State.kFillb, State.refillTo_onStack s k y (by simp), ok_bind, State.operand_onStack s k y (i := 0) rfl, ok_bind,
    State.operand_onStack s k y (i := 1) rfl, ok_bind, State.operand_onStack s k y (i := 2) rfl, ok_bind,
    State.operand_onStack s k y (i := 3) rfl, ok_bind]
  simp only [hdst, if_neg (toNat_ne_zero hn), hstore, ok_bind, ofNat_toNat_sub_one hn, BitVec.ofNat_toNat, BitVec.setWidth_eq]
  exact congrArg Except.ok helement

end

/-! ### Blocks with no element left (R367) -/

section
variable (s : State) (k : Nat) (y : Keeper) (a b c d : Cell) (st : List Cell)

theorem State.kMoveb_of_done : (s.setKpr k (y.onStack ([0, a, b, c, d] ++ st))).kMoveb k =
    .ok (s.setKpr k { next y st with inBlock := false }) := by
  rw [State.kMoveb, State.refillTo_onStack s k y (by simp), ok_bind, State.operand_onStack s k y (i := 0) rfl, ok_bind,
    State.operand_onStack s k y (i := 1) rfl, ok_bind, State.operand_onStack s k y (i := 2) rfl, ok_bind,
    State.operand_onStack s k y (i := 3) rfl, ok_bind, State.operand_onStack s k y (i := 4) rfl, ok_bind]
  exact State.blockEnd_onStack s k y [0, a, b, c, d] st

theorem State.kFillb_of_done : (s.setKpr k (y.onStack ([0, a, b, c] ++ st))).kFillb k =
    .ok (s.setKpr k { next y st with inBlock := false }) := by
  rw [State.kFillb, State.refillTo_onStack s k y (by simp), ok_bind, State.operand_onStack s k y (i := 0) rfl, ok_bind,
    State.operand_onStack s k y (i := 1) rfl, ok_bind, State.operand_onStack s k y (i := 2) rfl, ok_bind,
    State.operand_onStack s k y (i := 3) rfl, ok_bind]
  exact State.blockEnd_onStack s k y [0, a, b, c] st

theorem State.kChkb_of_done {u : BitVec 6} (hu : u.toNat < 4) : (s.setKpr k (y.onStack ([0, a, b] ++ st))).kChkb k u =
    .ok (s.setKpr k { next y st with inBlock := false }) := by
  rw [State.kChkb, operandBelow, if_pos hu, State.refillTo_onStack s k y (by simp)]
  simp only [ok_bind, State.operand_onStack s k y (l := [0, a, b] ++ st) (i := 0) rfl,
    State.operand_onStack s k y (l := [0, a, b] ++ st) (i := 1) rfl, State.operand_onStack s k y (l := [0, a, b] ++ st) (i := 2) rfl]
  exact State.blockEnd_onStack s k y [0, a, b] st

end

/-! ### SCANB (R367) -/

theorem flOf_eq_of_lt {f : Cell} (hf : f.toNat < 16) (z : Bool) :
    flOf (bit f.toNat 0) z (bit f.toNat 2) (bit f.toNat 3) = (f &&& 0xD#12) ||| (if z then 2#12 else 0#12) := by
  have heq : f = BitVec.ofNat 12 f.toNat := by simp
  generalize f.toNat = i at hf heq
  subst heq
  interval_cases i <;> cases z <;> rfl

theorem State.scanEnd_onStack (s : State) (k : Nat) {y : Keeper} (hfl : y.fl.toNat < 16) (z : Bool) (l : List Cell) :
    (s.setKpr k (y.onStack l)).scanEnd k z = s.setKpr k (afterScan y z l) := by
  rw [State.scanEnd, State.kpr_setKpr_same, State.setFl, State.modKpr_setKpr_same, State.modKpr_setKpr_same, State.kNext,
    State.modKpr_setKpr_same, afterScan, ← flOf_eq_of_lt hfl z]
  rfl

section
variable {s : State} {k : Nat} {y : Keeper} {m : Nat} (h : Room s k y 2 m) (hrg : y.rg = (s.kpr k).rg)
include h hrg

theorem State.kScanb_onStack {n v sh sl : Cell} {st : List Cell} {src : Nat} {o : BitVec 6}
    (hsrc : sl.toNat + sh.toNat * 4096 = src) (hread : localOk s k src = true) (hparity : parityOk (Mem.get y.data src) = true)
    (ho : o.toNat < 2) (hfl : y.fl.toNat < 16) : (s.setKpr k (y.onStack ([n, v, sh, sl] ++ st))).kScanb k o = .ok (s.setKpr k
      (if n = 0 then afterScan y true ([n, v, sh, sl] ++ st)
       else if (cellOf (Mem.get y.data src) = v) ↔ (o.toNat = 0) then afterScan y false ([n, v, sh, sl] ++ st)
       else if n = 1 then afterScan y true ([0, v] ++ pairAfter src ++ st)
       else between y ([n - 1, v] ++ pairAfter src) st)) := by
  have hslow := lt_of_localOk hread
  have hload := State.kload_onStack h (l := [n, v, sh, sl] ++ st) hrg (Nat.mod_eq_of_lt (by omega)) hread hparity
  rw [State.kScanb, operandBelow, if_pos ho, State.refillTo_onStack s k y (by simp)]
  simp only [ok_bind, State.operand_onStack s k y (l := [n, v, sh, sl] ++ st) (i := 0) rfl,
    State.operand_onStack s k y (l := [n, v, sh, sl] ++ st) (i := 1) rfl,
    State.operand_onStack s k y (l := [n, v, sh, sl] ++ st) (i := 2) rfl,
    State.operand_onStack s k y (l := [n, v, sh, sl] ++ st) (i := 3) rfl, hsrc, hload, State.scanEnd_onStack s k hfl]
  by_cases hn : n = 0
  · subst hn
    rfl
  have hbound := State.blockBoundary_onStack k y h.unarmed (p := [n, v, sh, sl])
    (q := nextPair src ++ [v, BitVec.ofNat 12 (n.toNat - 1)]) rfl st
  simp only [List.reverse_append, nextPair_reverse, ofNat_toNat_sub_one hn] at hbound
  simp only [if_neg hn, if_neg (toNat_ne_zero hn), BitVec.ofNat_toNat, BitVec.setWidth_eq, BitVec.toNat_inj,
    ofNat_toNat_sub_one hn, hbound]
  by_cases hmatch : cellOf (Mem.get y.data src) = v ↔ o.toNat = 0
  · simp only [if_pos hmatch]
    rfl
  simp only [if_neg hmatch]
  by_cases hone : n = 1
  · subst hone
    have hlast := State.scanEnd_onStack s k (y := { y with inBlock := true }) hfl true ([0, v] ++ pairAfter src ++ st)
    rw [← between_eq_onStack] at hlast
    exact congrArg Except.ok hlast
  · have hlast : n.toNat ≠ 1 := fun h => hone (BitVec.eq_of_toNat_eq h)
    rw [if_neg hone, if_neg hlast]
    rfl

end

/-! ### CHKB (R367, R468) -/

/-- What a check unit is fed does not meet the flip. -/
theorem State.on_chkFeed_flip (s : State) {u : Nat} (hu : u < 4) (l : List Byte) :
    (s.chkFeed u l).on Reg.TST_FLIP_arm = s.on Reg.TST_FLIP_arm := by
  rw [State.on, State.chkFeed, State.count, State.rg_setRg_other _ _ _ _ _ _ (fieldKey_ne_of_place (by decide) (by omega) (by omega))]
  rfl

section
variable {s : State} {k : Nat} {y : Keeper} {m : Nat} (h : Room s k y 2 m) (hrg : y.rg = (s.kpr k).rg)
include h hrg

theorem State.kChkb_onStack {n sh sl : Cell} {st : List Cell} {src : Nat} {u : BitVec 6} (hn : n ≠ 0)
    (hsrc : sl.toNat + sh.toNat * 4096 = src) (hread : localOk s k src = true) (hparity : parityOk (Mem.get y.data src) = true)
    (hu : u.toNat < 4) (hkind : s.rg Reg.CHK_ASSIGNu_kind u.toNat = 1) (hid : s.rg Reg.CHK_ASSIGNu_id u.toNat = k)
    (hbusy : s.on Reg.CHK_SCANu_CTRL_busy u.toNat = false) :
    (s.setKpr k (y.onStack ([n, sh, sl] ++ st))).kChkb k u =
      .ok ((s.chkFeed u.toNat (leBytes 2 (cellOf (Mem.get y.data src)).toNat)).setKpr k (afterElement y n ([n - 1] ++ pairAfter src) st)) := by
  have hslow := lt_of_localOk hread
  have hload := State.kload_onStack h (l := [n, sh, sl] ++ st) hrg (Nat.mod_eq_of_lt (by omega)) hread hparity
  have hflip := (State.on_chkFeed_flip s hu (leBytes 2 (cellOf (Mem.get y.data src)).toNat)).trans h.unarmed
  have helement := State.blockElement_onStack k y hflip (p := [n, sh, sl])
    (q := nextPair src ++ [BitVec.ofNat 12 (n.toNat - 1)]) rfl n st
  simp only [List.reverse_append, nextPair_reverse] at helement
  have hshut : ¬ ((s.setKpr k (y.onStack ([n, sh, sl] ++ st))).rg Reg.CHK_ASSIGNu_kind u.toNat ≠ 1 ∨
      (s.setKpr k (y.onStack ([n, sh, sl] ++ st))).rg Reg.CHK_ASSIGNu_id u.toNat ≠ k) := not_or.2 ⟨not_not.2 hkind, not_not.2 hid⟩
  rw [State.kChkb, operandBelow, if_pos hu, State.refillTo_onStack s k y (by simp)]
  simp only [ok_bind, State.operand_onStack s k y (l := [n, sh, sl] ++ st) (i := 0) rfl,
    State.operand_onStack s k y (l := [n, sh, sl] ++ st) (i := 1) rfl, State.operand_onStack s k y (l := [n, sh, sl] ++ st) (i := 2) rfl,
    hsrc, if_neg (toNat_ne_zero hn), if_neg hshut, State.on_setKpr, hbusy, hload]
  rw [ofNat_toNat_sub_one hn] at helement ⊢
  exact congrArg Except.ok helement

end

/-- An element of a block, and all that it does beside its own effect (R368). -/
theorem exists_kdid_element {s u : State} {k : Nat} {st : List Cell} {body : State → Except KErr State} {x : Keeper} (h : KReady s k st)
    (hbody : body (s.setKpr k ((begun (s.kpr k)).onStack st)) = .ok (u.setKpr k x)) (htst : u.tst = s.tst) (hpending : u.pending = s.pending) :
    ∃ t, done s (s.kealaRun k body) = .next t ∧ KDid u t k x := by
  have hbegun := begun_onStack h
  obtain ⟨hissues, hfetch, -⟩ := h
  exact exists_kdid_of_run hissues hfetch (hbegun ▸ hbody) htst hpending

end Sys2Proof.Machine

namespace Sys2Proof.Proofs
open Sys2Proof.Machine Sys2Proof.Claims

/-- An element that stores a cell changes no other one. -/
theorem exists_kdid_storedElement {s : State} {k a : Nat} {v n : Cell} {p st : List Cell} {P : State → Prop} {x : Keeper}
    (h : ∃ t, P t ∧ KDid s t k (afterElement { x with data := Mem.put x.data a (store v) } n p st)) :
    ∃ t, P t ∧ Mem.get (t.kpr k).data a = store v ∧ (∀ b, b ≠ a → Mem.get (t.kpr k).data b = Mem.get x.data b) ∧
      KDid s t k { afterElement x n p st with data := (t.kpr k).data } := by
  obtain ⟨t, ht, hdid, hstored, hother⟩ := exists_kdid_stored (fun x => afterElement x n p st)
    (fun _ => by simp only [afterElement]; split <;> rfl) (fun _ => by simp only [afterElement]; split <;> rfl) h
  exact ⟨t, ht, hstored, hother, hdid⟩

/-- Settles O8: each block instruction by its element, its end, and its cells stored together. -/
theorem kealaBlockOperations : Obligations.KealaBlockOperations := by
  unfold Obligations.KealaBlockOperations
  refine ⟨fun s k n v sl sh dl dh st hn hwrite => ⟨fun h hread hparity => ?_, fun h => ?_⟩,
    fun s k e n v sl sh st h hfl hread hparity => ?_,
    fun s k u a b c d st hu => ⟨fun h => ?_, fun h => ?_, fun h => ?_⟩,
    fun s k u n sl sh st hu hn h hread hparity hkind hid hbusy => ?_⟩
  · exact exists_kdid_storedElement (exists_kdid_element h (State.kMoveb_onStack (room_of_ready h) rfl hn rfl rfl hread hwrite hparity) rfl rfl)
  · exact exists_kdid_storedElement (exists_kdid_element h (State.kFillb_onStack (room_of_ready h) rfl hn rfl hwrite v) rfl rfl)
  · have ho : (if e then 1#6 else 0#6).toNat < 2 := by cases e <;> decide
    have hzero : (if e then 1#6 else 0#6).toNat = 0 ↔ e = false := by cases e <;> decide
    have hscan := State.kScanb_onStack (room_of_ready h) rfl (n := n) (v := v) (st := st) rfl hread hparity ho hfl
    simp only [hzero] at hscan
    exact exists_kdid_element h hscan rfl rfl
  · exact exists_kdid_element h (State.kMoveb_of_done ..) rfl rfl
  · exact exists_kdid_element h (State.kFillb_of_done ..) rfl rfl
  · exact exists_kdid_element h (State.kChkb_of_done _ _ _ _ _ _ hu) rfl rfl
  · exact exists_kdid_element h (State.kChkb_onStack (room_of_ready h) rfl hn rfl hread hparity hu hkind hid hbusy) rfl rfl

end Sys2Proof.Proofs
end

section
/-!
PROOFS. Semaphores, a keeper's windows and its customer instructions, and the statement KealaSystemOperations (R357, R382, R384, R385).
-/
namespace Sys2Proof.Machine
open Sys2Proof.Claims

/-! ### What an instruction leaves, seen without the fields that a function resets -/

/-- A function of states that passes over what KDid speaks of may be applied on both sides. -/
theorem kdid_map {u t : State} {k : Nat} {x : Keeper} (f : State → State)
    (hf : ∀ v a b c, f { v with keepers := a, irq := b, freeCtr := c } = { f v with keepers := a, irq := b, freeCtr := c })
    (h : KDid u t k x) : KDid (f u) (f t) k x := by
  have heta (v : State) : f v = { f v with keepers := v.keepers, irq := v.irq, freeCtr := v.freeCtr } := hf v v.keepers v.irq v.freeCtr
  have hkeepers (v : State) : (f v).keepers = v.keepers := by
    have hfield := congrArg State.keepers (heta v)
    exact hfield
  have hirq (v : State) : (f v).irq = v.irq := by
    have hfield := congrArg State.irq (heta v)
    exact hfield
  have hfree (v : State) : (f v).freeCtr = v.freeCtr := by
    have hfield := congrArg State.freeCtr (heta v)
    exact hfield
  have hkpr (v : State) (j : Nat) : (f v).kpr j = v.kpr j := by rw [State.kpr, hkeepers, State.kpr]
  have hsrc (v : State) (n : Nat) : (f v).src n = v.src n := by rw [State.src, hirq, State.src]
  obtain ⟨hk, hother, hmask, hrest⟩ := h
  refine ⟨by rw [hkpr]; exact hk, fun j hj => by rw [hkpr, hkpr, hother j hj], fun n => by rw [hsrc, hsrc, hmask], ?_⟩
  rw [hkeepers, hirq, hfree, ← hf, hrest]

/-- As `exists_kdid_next`, for an instruction that changes more than its keeper: u is the state with the change. -/
theorem exists_kdid_nextFrom {s u : State} {k : Nat} {st l : List Cell} {body : State → Except KErr State} {y : Keeper} (h : KReady s k st)
    (hbody : body (s.setKpr k ((begun (s.kpr k)).onStack st)) = .ok (u.setKpr k (y.onStack l))) (htst : u.tst = s.tst)
    (hpending : u.pending = s.pending) : ∃ t, done s (s.kealaOp k body) = .next t ∧ KDid u t k (next y l) := by
  have hbegun := begun_onStack h
  obtain ⟨hissues, hfetch, -⟩ := h
  exact exists_kdid_of_op hissues hfetch (hbegun ▸ hbody) htst hpending

theorem operandBelow_of_lt {o : BitVec 6} {n : Nat} (h : o.toNat < n) : operandBelow o n = .ok () := if_pos h

theorem regs_of_kdid {u t : State} {k : Nat} {x : Keeper} (h : KDid u t k x) : t.regs = u.regs := by
  have hrest := congrArg State.regs h.2.2.2
  exact hrest

theorem sems_of_kdid {u t : State} {k : Nat} {x : Keeper} (h : KDid u t k x) : t.sems = u.sems := by
  have hrest := congrArg State.sems h.2.2.2
  exact hrest

/-! ### Semaphores (R382) -/

/-- A number less one of its bits. -/
theorem testBit_sub_two_pow {v n : Nat} (h : v.testBit n = true) (i : Nat) :
    (v - 2 ^ n).testBit i = (v.testBit i && decide (i ≠ n)) := by
  obtain ⟨q, hq⟩ : ∃ q, v / 2 ^ n = 2 * q + 1 := by
    rw [Nat.testBit_eq_decide_div_mod_eq, decide_eq_true_eq] at h
    exact ⟨v / 2 ^ n / 2, by omega⟩
  have hlow := Nat.mod_lt v (Nat.two_pow_pos n)
  have hv : v = 2 ^ n * (2 * q + 1) + v % 2 ^ n := by rw [← hq, Nat.div_add_mod]
  have hsub : v - 2 ^ n = 2 ^ n * (2 * q) + v % 2 ^ n := by rw [Nat.mul_add] at hv; omega
  rw [hsub, Nat.testBit_two_pow_mul_add _ hlow]
  conv_rhs => rw [hv, Nat.testBit_two_pow_mul_add _ hlow]
  split
  next hi => simp [Nat.ne_of_lt hi]
  next hi =>
    obtain ⟨j, rfl⟩ := Nat.exists_eq_add_of_le (Nat.not_lt.1 hi)
    cases j with
    | zero => simp
    | succ j => simp [Nat.testBit_succ]; congr 1; omega

/-- Semaphore n taken by keeper k; what a keeper reset noted of it is forgotten. -/
def State.takeSem (s : State) (k n : Nat) : State :=
  let rel := s.rg Reg.KPR_SEM_RST_released
  { s.setRg Reg.KPR_SEM_RST_released 0 (if bit rel n then rel - 2 ^ n else rel) with sems := s.sems.put n k }

theorem State.released_takeSem {s : State} (h : s.rg Reg.KPR_SEM_RST_released < 2 ^ 32) (k n i : Nat) :
    ((s.takeSem k n).rg Reg.KPR_SEM_RST_released).testBit i = ((s.rg Reg.KPR_SEM_RST_released).testBit i && decide (i ≠ n)) := by
  have hrg : (s.takeSem k n).rg Reg.KPR_SEM_RST_released = if bit (s.rg Reg.KPR_SEM_RST_released) n
      then s.rg Reg.KPR_SEM_RST_released - 2 ^ n else s.rg Reg.KPR_SEM_RST_released :=
    (State.rg_setRg_same ..).trans (Nat.mod_eq_of_lt (by split; exacts [Nat.lt_of_le_of_lt (Nat.sub_le ..) h, h]))
  rw [hrg]
  split
  next hset => exact testBit_sub_two_pow hset i
  next hclear =>
    by_cases hi : i = n
    · subst hi
      simpa [bit] using hclear
    · simp [hi]

/-- Semaphore n given back. -/
def State.giveSem (s : State) (n : Nat) : State := { s with sems := s.sems.del n }

section
variable {s : State} {k : Nat} {y : Keeper} {n : Nat} (h : Room s k y 2 n) {l : List Cell} (hn : l.length < n) {o : BitVec 6}
  (ho : o.toNat < 32) (hring : o.toNat < 16 → y.ring ≤ 1)

theorem State.semRing_setKpr (s : State) (k : Nat) (hring : o.toNat < 16 → y.ring ≤ 1) : (s.setKpr k y).semRing k o = .ok () := by
  have hlow : ¬ (o.toNat < 16 ∧ 1 < y.ring) := fun h => absurd (hring h.1) (Nat.not_le.2 h.2)
  rw [State.semRing, State.kpr_setKpr_same, if_neg hlow]
  rfl

include h hn ho hring

theorem State.kSemt_of_held {j : Nat} (hheld : s.sems.find o.toNat = some j) :
    (s.setKpr k (y.onStack l)).kSemt k o = .ok (s.setKpr k (y.onStack (0 :: l))) := by
  have hfind : (s.setKpr k (y.onStack l)).sems.find o.toNat = some j := hheld
  rw [State.kSemt, operandBelow_of_lt ho, ok_bind, State.semRing_setKpr (y := y.onStack l) s k hring, ok_bind]
  simp only [hfind]
  exact State.kpush_onStack h hn 0

theorem State.kSemt_of_free (hfree : s.sems.find o.toNat = none) :
    (s.setKpr k (y.onStack l)).kSemt k o = .ok ((s.takeSem k o.toNat).setKpr k
      (y.onStack ((if bit (s.rg Reg.KPR_SEM_RST_released) o.toNat then 0x7FF#12 else 0xFFF#12) :: l))) := by
  have hfind : (s.setKpr k (y.onStack l)).sems.find o.toNat = none := hfree
  rw [State.kSemt, operandBelow_of_lt ho, ok_bind, State.semRing_setKpr (y := y.onStack l) s k hring, ok_bind]
  simp only [hfind]
  rw [State.kpush_onStack h hn]
  rfl

omit h hn in
theorem State.kSemg_onStack (hheld : s.sems.find o.toNat = some k) :
    (s.setKpr k (y.onStack l)).kSemg k o = .ok ((s.giveSem o.toNat).setKpr k (y.onStack l)) := by
  have hfind : (s.setKpr k (y.onStack l)).sems.find o.toNat = some k := hheld
  rw [State.kSemg, operandBelow_of_lt ho, ok_bind, State.semRing_setKpr (y := y.onStack l) s k hring, ok_bind, if_pos hfind]
  rfl

end

/-! ### Windows (R357) -/

/-- A table is a keeper's own. -/
theorem State.getTbl_congr {s t : State} {k : Nat} (htbl : (t.kpr k).tbl = (s.kpr k).tbl) (himage : (t.kpr k).image = (s.kpr k).image)
    (n i c : Nat) : t.getTbl k n i c = s.getTbl k n i c := by
  simp [State.getTbl, State.tblCell, Keeper.tblSound, htbl, himage]

theorem State.lt_of_getTbl {s : State} {k n i c v : Nat} (h : s.getTbl k n i c = .ok v) : v < 4096 := by
  unfold State.getTbl at h
  dsimp only at h
  split at h <;> cases h
  exact (s.tblCell k _).isLt

/-- The keeper with cell a of its tables written (R380). -/
def Keeper.withTbl (x : Keeper) (a : Nat) (v : Cell) : Keeper :=
  { x with tbl := Mem.put x.tbl a (BitVec.ofNat 14 ((store v).toNat + b2n x.image * 2 ^ 13)), tblCopy := Mem.put x.tblCopy a v }

theorem State.putTbl_onStack {s : State} (h : s.on Reg.TST_FLIP_arm = false) (k : Nat) (y : Keeper) (l : List Cell) (n i c : Nat)
    (v : Cell) : (s.setKpr k (y.onStack l)).putTbl k n i c v = s.setKpr k ((y.withTbl (4096 * n + 8 * i + c) v).onStack l) := by
  rw [State.putTbl, State.flipCell_of_unarmed (s := s.setKpr k (y.onStack l)) h, State.modKpr_setKpr_same]
  rfl

theorem Keeper.setWidth_withTbl (x : Keeper) (a : Nat) (v : Cell) : (Mem.get (x.withTbl a v).tbl a).setWidth 13 = store v := by
  have hv := (store v).isLt
  rw [Keeper.withTbl, Mem.get_put_same]
  apply BitVec.eq_of_toNat_eq
  rw [BitVec.toNat_setWidth, BitVec.toNat_ofNat]
  omega

theorem Keeper.get_withTbl_other (x : Keeper) {a b : Nat} (h : b ≠ a) (v : Cell) : Mem.get (x.withTbl a v).tbl b = Mem.get x.tbl b :=
  Mem.get_put_other _ _ h

/-- A cell of table 9, which the image does not hold, as it stands in the table (R392). -/
theorem State.getTbl_of_stored {s : State} {k i c : Nat} {v : Cell} (h : (Mem.get (s.kpr k).tbl (4096 * 9 + 8 * i + c)).setWidth 13 = store v) :
    s.getTbl k 9 i c = .ok v.toNat := by
  have hplace : ¬ 4096 * 9 + 8 * i + c < 36864 := by omega
  simp [State.getTbl, State.tblCell, Keeper.tblSound, h, hplace]

/-- The high cell of a window, bits [17:14] zero (R357). -/
theorem window_high (c : Cell) : BitVec.ofNat 12 (c.toNat / 64 * 64 + c.toNat % 4) = c &&& 0xFC3#12 := by
  have hplace : c.toNat / 64 * 64 + c.toNat % 4 = 2 ^ 6 * (c.toNat / 2 ^ 6) + c.toNat % 2 ^ 2 := by omega
  have hlow : c.toNat % 2 ^ 2 < 2 ^ 6 := by omega
  apply BitVec.eq_of_getLsbD_eq
  intro i hi
  rw [BitVec.getLsbD_ofNat, hplace, Nat.testBit_two_pow_mul_add _ hlow, Nat.testBit_mod_two_pow, Nat.testBit_div_two_pow,
    BitVec.getLsbD_and, BitVec.testBit_toNat, BitVec.testBit_toNat]
  interval_cases i <;> simp

section
variable {s : State} {k : Nat} {y : Keeper} {l : List Cell} {o : BitVec 6} (ho : o.toNat < 8) (hring : y.rg.toNat % 4 ≤ 1)
include ho hring

theorem State.kWinr_onStack {n lo hi : Nat} (h : Room s k y 2 n) (hn : 2 + l.length ≤ n) (hlo : s.getTbl k 9 o.toNat 0 = .ok lo)
    (hhi : s.getTbl k 9 o.toNat 1 = .ok hi) :
    (s.setKpr k (y.onStack l)).kWinr k o = .ok (s.setKpr k (y.onStack (BitVec.ofNat 12 hi :: BitVec.ofNat 12 lo :: l))) := by
  have hlow := State.lt_of_getTbl hlo
  have hget (c : Nat) := State.getTbl_setKpr (s := s) (k := k) (y := y.onStack l) h.tbl h.image 9 o.toNat c
  have hwindow : (s.setKpr k (y.onStack l)).window k o.toNat = .ok (lo + hi * 4096) := by
    rw [State.window, hget, hlo, ok_bind, hget, hhi]
    rfl
  have hcells : [BitVec.ofNat 12 (lo + hi * 4096), BitVec.ofNat 12 ((lo + hi * 4096) / 4096)] = [BitVec.ofNat 12 lo, BitVec.ofNat 12 hi] := by
    have hfirst : BitVec.ofNat 12 (lo + hi * 4096) = BitVec.ofNat 12 lo :=
      BitVec.eq_of_toNat_eq (by simp only [BitVec.toNat_ofNat]; omega)
    rw [hfirst, show (lo + hi * 4096) / 4096 = hi by omega]
  rw [State.kWinr, operandBelow_of_lt ho, ok_bind, State.needRing_onStack s k y l hring, ok_bind, hwindow, ok_bind, hcells]
  exact State.kpushN_onStack h _ _ hn

theorem State.kWinw_onStack (h : s.on Reg.TST_FLIP_arm = false) (hi lo : Cell) :
    (s.setKpr k (y.onStack (hi :: lo :: l))).kWinw k o = .ok (s.setKpr k
      (((y.withTbl (4096 * 9 + 8 * o.toNat + 0) lo).withTbl (4096 * 9 + 8 * o.toNat + 1) (hi &&& 0xFC3#12)).onStack l)) := by
  have hlow := lo.isLt
  have hfirst : BitVec.ofNat 12 ((lo.toNat + hi.toNat * 4096) % 4096) = lo :=
    BitVec.eq_of_toNat_eq (by simp only [BitVec.toNat_ofNat]; omega)
  have hsecond : (lo.toNat + hi.toNat * 4096) / 4096 = hi.toNat := by omega
  rw [State.kWinw, operandBelow_of_lt ho, ok_bind, State.needRing_onStack s k y _ hring, ok_bind, State.kpopPair_onStack, ok_bind]
  simp only [State.putTbl_onStack h, hfirst, hsecond, window_high]
  rfl

end

/-! ### Customer instructions (R384, R385) -/

section
variable {s : State} {k : Nat} {y : Keeper} {n : Nat} (h : Room s k y 2 n) {l : List Cell} (hn : l.length < n)
include h

theorem State.microStart_onStack {i c0 c1 : Nat} (h0 : s.getTbl k 6 i 0 = .ok c0) (h1 : s.getTbl k 6 i 1 = .ok c1)
    (hvalid : c0.testBit 11 = true) (hring : c1.testBit (4 + y.ring) = true) (htenant : c1.testBit 8 = true ∨ c1 % 16 = y.tenant) :
    (s.setKpr k (y.onStack l)).microStart k i = .ok (c0 % 256) := by
  have hget (c : Nat) := State.getTbl_setKpr (s := s) (k := k) (y := y.onStack l) h.tbl h.image 6 i c
  have hshut : ¬ (bit c1 (4 + y.ring) = false ∨ (bit c1 8 = false ∧ c1 % 16 ≠ y.tenant)) := by
    rcases htenant with ht | ht <;> simp [bit, hring, ht]
  rw [State.microStart, hget, h0, ok_bind, hget, h1, ok_bind, State.kpr_setKpr_same]
  simp only [bit, hvalid]
  exact if_neg hshut

include hn in
/-- A micro-word that is LITM with its end bit set pushes its cell and is the last. -/
theorem State.microStep_of_litm {u lo hi : Nat} {imm : BitVec 6} (hlo : s.getTbl k 7 u 0 = .ok lo) (hhi : s.getTbl k 7 u 1 = .ok hi)
    (hlitm : lo / 64 = 0x3F) (hend : hi.testBit 1 = true) :
    (s.setKpr k (y.onStack l)).microStep k imm u =
      .ok (s.setKpr k (y.onStack ((if hi.testBit 0 then imm.setWidth 12 else BitVec.ofNat 12 (lo % 64)) :: l)), none) := by
  have hlow := State.lt_of_getTbl hlo
  have hget (c : Nat) := State.getTbl_setKpr (s := s) (k := k) (y := y.onStack l) h.tbl h.image 7 u c
  have hword : (s.setKpr k (y.onStack l)).microWord k u = .ok (lo + hi * 4096) := by
    rw [State.microWord, hget, hlo, ok_bind, hget, hhi]
    rfl
  have hop : bits (lo + hi * 4096) 6 6 = 0x3F := by simp only [bits]; omega
  have hbit (i : Nat) : bit (lo + hi * 4096) (12 + i) = hi.testBit i := by
    have hplace : lo + hi * 4096 = 2 ^ 12 * hi + lo := by omega
    rw [bit, hplace, Nat.testBit_two_pow_mul_add _ hlow, if_neg (by omega), Nat.add_sub_cancel_left]
  have hcell : (if hi.testBit 0 then imm else BitVec.ofNat 6 (lo + hi * 4096)).setWidth 12 =
      if hi.testBit 0 then imm.setWidth 12 else BitVec.ofNat 12 (lo % 64) := by
    split
    · rfl
    · apply BitVec.eq_of_toNat_eq
      simp only [BitVec.toNat_setWidth, BitVec.toNat_ofNat]
      omega
  rw [State.microStep, hword, ok_bind, hop, hbit 0, hbit 1, hend, ← hcell]
  simp only [State.microOp, State.kpush_onStack h hn]
  rfl

include hn in
theorem State.microRun_of_litm {u lo hi fuel : Nat} {imm : BitVec 6} (hu : u < 256) (hlo : s.getTbl k 7 u 0 = .ok lo)
    (hhi : s.getTbl k 7 u 1 = .ok hi) (hlitm : lo / 64 = 0x3F) (hend : hi.testBit 1 = true) :
    State.microRun k imm (fuel + 1) u (s.setKpr k (y.onStack l)) =
      (s.setKpr k (y.onStack ((if hi.testBit 0 then imm.setWidth 12 else BitVec.ofNat 12 (lo % 64)) :: l)), none) := by
  have hplace : ¬ 255 < u := by omega
  have hstep := State.microStep_of_litm h hn (imm := imm) hlo hhi hlitm hend
  refine (if_neg hplace).trans ?_
  rw [hstep]

end

end Sys2Proof.Machine

namespace Sys2Proof.Proofs
open Sys2Proof.Machine Sys2Proof.Claims

theorem kealaSemaphores {s : State} {k : Fin 4} {n : BitVec 6} {st : List Cell} (h : KReady s k.val st) (hn : n.toNat < 32)
    (hring : n.toNat < 16 → (begun (s.kpr k.val)).ring ≤ 1) :
    (∀ j, s.sems.find n.toNat = some j → ∃ t, exec (.semt k n) s = .next t ∧ KDid s t k.val (next (begun (s.kpr k.val)) (0 :: st))) ∧
    (s.sems.find n.toNat = none → s.rg Reg.KPR_SEM_RST_released < 2 ^ 32 → ∃ t, exec (.semt k n) s = .next t ∧
      KDid s { t with sems := s.sems, regs := s.regs } k.val (next (begun (s.kpr k.val))
        ((if (s.rg Reg.KPR_SEM_RST_released).testBit n.toNat then 0x7FF#12 else 0xFFF#12) :: st)) ∧
      t.sems.find n.toNat = some k.val ∧ (∀ j, j ≠ n.toNat → t.sems.find j = s.sems.find j) ∧
      (∀ i, (t.rg Reg.KPR_SEM_RST_released).testBit i =
        ((s.rg Reg.KPR_SEM_RST_released).testBit i && decide (i ≠ n.toNat)))) ∧
    (s.sems.find n.toNat = some k.val → ∃ t, exec (.semg k n) s = .next t ∧
      KDid s { t with sems := s.sems } k.val (next (begun (s.kpr k.val)) st) ∧ t.sems.find n.toNat = none ∧
      ∀ j, j ≠ n.toNat → t.sems.find j = s.sems.find j) := by
  have hroom := room_of_ready h
  refine ⟨fun j hheld => exists_kdid_next h (State.kSemt_of_held hroom (by omega) hn hring hheld), fun hfree hrel => ?_,
    fun hheld => ?_⟩
  · have hsemt := State.kSemt_of_free hroom (l := st) (by omega) hn hring hfree
    obtain ⟨t, hexec, hdid⟩ := exists_kdid_nextFrom (body := fun s => s.kSemt k.val n) h hsemt rfl rfl
    have hforget := kdid_map (fun v => { v with sems := s.sems, regs := s.regs }) (fun _ _ _ _ => rfl) hdid
    refine ⟨t, hexec, hforget, ?_, fun j hj => ?_,
      fun i => ?_⟩
    · rw [sems_of_kdid hdid]
      exact Tbl.find_put_same ..
    · rw [sems_of_kdid hdid]
      exact Tbl.find_put_other _ _ hj
    · rw [State.rg, regs_of_kdid hdid]
      exact State.released_takeSem hrel k.val n.toNat i
  · have hsemg := State.kSemg_onStack (l := st) hn hring hheld
    obtain ⟨t, hexec, hdid⟩ := exists_kdid_nextFrom (body := fun s => s.kSemg k.val n) h hsemg rfl rfl
    have hforget := kdid_map (fun v => { v with sems := s.sems }) (fun _ _ _ _ => rfl) hdid
    refine ⟨t, hexec, hforget, ?_, fun j hj => ?_⟩
    · rw [sems_of_kdid hdid]
      exact Tbl.find_del_same ..
    · rw [sems_of_kdid hdid]
      exact Tbl.find_del_other _ hj

theorem kealaWindowRead {s : State} {k : Fin 4} {w : BitVec 6} {lo hi : Nat} {st : List Cell} (hw : w.toNat < 8)
    (hring : (begun (s.kpr k.val)).ring ≤ 1) (hlo : s.getTbl k.val 9 w.toNat 0 = .ok lo) (hhi : s.getTbl k.val 9 w.toNat 1 = .ok hi)
    (h : KReady s k.val st) : ∃ t, exec (.winr k w) s = .next t ∧
      KDid s t k.val (next (begun (s.kpr k.val)) (BitVec.ofNat 12 hi :: BitVec.ofNat 12 lo :: st)) :=
  exists_kdid_next h (State.kWinr_onStack hw hring (room_of_ready h) (by omega) hlo hhi)

theorem kealaWindowWrite {s : State} {k : Fin 4} {w : BitVec 6} {lo hi : Cell} {st : List Cell} (hw : w.toNat < 8)
    (hring : (begun (s.kpr k.val)).ring ≤ 1) (h : KReady s k.val (hi :: lo :: st)) :
    ∃ t, exec (.winw k w) s = .next t ∧
      KDid s t k.val { next (begun (s.kpr k.val)) st with tbl := (t.kpr k.val).tbl, tblCopy := (t.kpr k.val).tblCopy } ∧
      t.getTbl k.val 9 w.toNat 0 = .ok lo.toNat ∧ t.getTbl k.val 9 w.toNat 1 = .ok (hi &&& 0xFC3#12).toNat ∧
      ∀ a, a ≠ 36864 + 8 * w.toNat → a ≠ 36864 + 8 * w.toNat + 1 →
        Mem.get (t.kpr k.val).tbl a = Mem.get (begun (s.kpr k.val)).tbl a := by
  obtain ⟨y, hy⟩ : ∃ y, y = (begun (s.kpr k.val)).withTbl (4096 * 9 + 8 * w.toNat + 0) lo := ⟨_, rfl⟩
  obtain ⟨t, hexec, hdid⟩ := exists_kdid_next (body := fun s => s.kWinw k.val w) h (State.kWinw_onStack (l := st) hw hring h.2.2.1 hi lo)
  rw [← hy] at hdid
  have htbl : (t.kpr k.val).tbl = (y.withTbl (4096 * 9 + 8 * w.toNat + 1) (hi &&& 0xFC3#12)).tbl :=
    (congrArg Keeper.tbl hdid.1).trans rfl
  have hcopy : (t.kpr k.val).tblCopy = (y.withTbl (4096 * 9 + 8 * w.toNat + 1) (hi &&& 0xFC3#12)).tblCopy :=
    (congrArg Keeper.tblCopy hdid.1).trans rfl
  refine ⟨t, hexec, ?_, State.getTbl_of_stored ?_, State.getTbl_of_stored ?_, fun a ha ha' => ?_⟩
  · rw [htbl, hcopy]
    subst hy
    exact hdid
  · rw [htbl, Keeper.get_withTbl_other _ (by omega), hy, Keeper.setWidth_withTbl]
  · rw [htbl, Keeper.setWidth_withTbl]
  · rw [htbl, Keeper.get_withTbl_other _ (by omega), hy, Keeper.get_withTbl_other _ (by omega)]

theorem kealaCustomerInstruction {s : State} {k : Fin 4} {index imm : BitVec 6} {c0 c1 lo hi : Nat} {st : List Cell}
    (h : KReady s k.val st) (h0 : s.getTbl k.val 6 index.toNat 0 = .ok c0) (h1 : s.getTbl k.val 6 index.toNat 1 = .ok c1)
    (hvalid : c0.testBit 11 = true) (hring : c1.testBit (4 + (begun (s.kpr k.val)).ring) = true)
    (htenant : c1.testBit 8 = true ∨ c1 % 16 = (begun (s.kpr k.val)).tenant) (hlo : s.getTbl k.val 7 (c0 % 256) 0 = .ok lo)
    (hhi : s.getTbl k.val 7 (c0 % 256) 1 = .ok hi) (hlitm : lo / 64 = 0x3F) (hend : hi.testBit 1 = true) :
    ∃ t, exec (.customerInstruction k index imm) s = .next t ∧ KDid s t k.val { next (begun (s.kpr k.val))
      ((if hi.testBit 0 then imm.setWidth 12 else BitVec.ofNat 12 (lo % 64)) :: st) with custom := false } := by
  obtain ⟨c, hc⟩ : ∃ c, c = if hi.testBit 0 then imm.setWidth 12 else BitVec.ofNat 12 (lo % 64) := ⟨_, rfl⟩
  have hroom := room_of_ready h
  have hbegun : (s.modKpr k.val fun x => { x with entering := false, waiting := false }) =
      s.setKpr k.val ((begun (s.kpr k.val)).onStack st) := by
    rw [begun_onStack h]
    rfl
  have hstart := State.microStart_onStack hroom (l := st) h0 h1 hvalid hring htenant
  have hrun := State.microRun_of_litm (imm := imm) (fuel := 63) (hroom.congr (z := { begun (s.kpr k.val) with custom := true }) rfl rfl rfl)
    (l := st) (by omega) (Nat.mod_lt c0 (by decide)) hlo hhi hlitm hend
  have hcustom : (s.setKpr k.val ((begun (s.kpr k.val)).onStack st)).modKpr k.val (fun x => { x with custom := true }) =
      s.setKpr k.val ({ begun (s.kpr k.val) with custom := true }.onStack st) := State.modKpr_setKpr_same ..
  obtain ⟨hissues, hfetch, -⟩ := h
  obtain ⟨t, ht, hdid⟩ : ∃ t, s.customer k.val index imm = State.keeperFull s t ∧
      KDid s t k.val { next (begun (s.kpr k.val)) (c :: st) with custom := false } := by
    refine ⟨_, ?_, kdid_ageMasks s k.val _ ((begun (s.kpr k.val)).onStack st).maskAge⟩
    rw [State.customer, if_pos hissues]
    simp only [State.kfetch_of_fetchOk hfetch, hbegun, hstart, hcustom, hrun, ← hc, State.modKpr_setKpr_same, State.kNext,
      State.kpr_setKpr_same]
    rfl
  refine ⟨t, ?_, hc ▸ hdid⟩
  show done s (s.customer k.val index imm) = .next t
  rw [ht, State.keeperFull_of_tst (tst_of_kdid hdid)]
  exact done_of_pending (pending_of_kdid hdid)

/-- Settles O9: semaphores, windows, and a customer instruction of one LITM. -/
theorem kealaSystemOperations : Obligations.KealaSystemOperations := by
  unfold Obligations.KealaSystemOperations
  exact ⟨fun _ _ _ _ h hn hring => kealaSemaphores h hn hring,
    fun _ _ _ _ hw hring => ⟨fun _ _ hlo hhi h => kealaWindowRead hw hring hlo hhi h, fun _ _ h => kealaWindowWrite hw hring h⟩,
    fun _ _ _ _ _ _ _ _ _ h h0 h1 hvalid hring htenant hlo hhi hlitm hend =>
      kealaCustomerInstruction h h0 h1 hvalid hring htenant hlo hhi hlitm hend⟩

end Sys2Proof.Proofs
end

section
/-!
PROOFS. Jumps, branches, calls, returns and gates of the Keala core, and the statement KealaTransfersOfControl (R361, R364, R365, R370, R371,
R387).
-/
namespace Sys2Proof.Machine
open Sys2Proof.Claims

/-! ### Targets (R361) -/

/-- A relative target is A + 1 + offset modulo 32,768. -/
theorem relTarget_eq {pc w : Nat} (hpc : pc < 32768) (hw : w ≤ 15) (off : BitVec w) : relTarget pc w off.toNat = relativeTarget pc off := by
  have hoff := off.isLt
  have hwidth : 2 ^ w ≤ 2 ^ 15 := Nat.pow_le_pow_right (by decide) hw
  have hsign : off.toNat.testBit (w - 1) = off.msb := (BitVec.msb_eq_getLsbD_last off).symm
  have hplace : ((2 ^ w : Nat) : Int) ≤ 32768 := by exact_mod_cast hwidth
  rw [relTarget, relativeTarget, hsign, BitVec.toInt_eq_msb_cond, Nat.mod_eq_of_lt hoff]
  generalize 2 ^ w = p at *
  cases off.msb
  · simp only [Bool.false_eq_true, if_false]
    split <;> omega
  · simp only [if_true]
    split <;> omega

@[simp] theorem State.kjump_setKpr (s : State) (k : Nat) (x : Keeper) (a : Nat) :
    (s.setKpr k x).kjump k a = s.setKpr k { x with pc := a % 32768 } :=
  State.modKpr_setKpr_same ..

/-! ### Return entries (R354) -/

theorem mkEntry_eq {kind aux addr : Nat} (haux : aux < 64) (haddr : addr < 32768) : mkEntry kind aux addr = returnEntry kind aux addr := by
  simp only [mkEntry, returnEntry]
  omega

section
variable {kind aux addr : Nat} (haux : aux < 64) (haddr : addr < 32768)
include haux haddr

theorem entryKind_returnEntry (hkind : kind < 4) : entryKind (returnEntry kind aux addr) = kind := by
  simp only [entryKind, returnEntry]
  omega

theorem entryAux_returnEntry : entryAux (returnEntry kind aux addr) = aux := by
  simp only [entryAux, bits, returnEntry]
  omega

omit haux in
theorem entryAddr_returnEntry : entryAddr (returnEntry kind aux addr) = addr := by
  simp only [entryAddr, returnEntry]
  omega

end

/-- Entries that are pushed in turn. -/
theorem State.foldlM_rpush {s : State} {k : Nat} {y : Keeper} {n : Nat} (h : ReturnRoom s k y n) {α : Type} (f : α → Nat) (l : List α)
    {es : List Nat} (hn : l.length + es.length ≤ n) :
    l.foldlM (fun (s : State) b => s.rpush k (f b)) (s.setKpr k (withReturns y es)) =
      .ok (s.setKpr k (withReturns y ((l.map f).reverse ++ es))) := by
  induction l generalizing es with
  | nil => rfl
  | cons b l ih =>
    rw [List.length_cons] at hn
    rw [List.foldlM_cons, State.rpush_withReturns h (by omega), ok_bind, ih (by rw [List.length_cons]; omega), List.map_cons,
      List.reverse_cons, List.append_assoc]
    rfl

/-! ### The predictor (R387, R390) -/

/-- The state with the misprediction count of keeper k as it was, or one up. -/
def Counted (s u : State) (k : Nat) : Prop := u = s ∨ u = s.count Reg.KPR_CNT_MISP_misp k 1

section
variable {s u : State} {k : Nat}

theorem Counted.unchanged (h : Counted s u k) : u.tst = s.tst ∧ u.pending = s.pending ∧ { u with regs := s.regs } = s := by
  rcases h with rfl | rfl <;> exact ⟨rfl, rfl, rfl⟩

theorem Counted.find_regs (h : Counted s u k) {key : Nat} (hkey : key ≠ fieldKey Reg.KPR_CNT_MISP_misp k 0) :
    u.regs.find key = s.regs.find key := by
  rcases h with rfl | rfl
  · rfl
  · exact Tbl.find_put_other _ _ hkey

theorem kwent_of_counted {t : State} {x : Keeper} (h : Counted s u k) (hdid : KDid u t k x) : KWent s t k x := by
  have hregs := regs_of_kdid hdid
  have hforget := kdid_map (fun v => { v with regs := s.regs }) (fun _ _ _ _ => rfl) hdid
  rw [h.unchanged.2.2] at hforget
  exact ⟨hforget, fun key hkey => by rw [hregs]; exact h.find_regs hkey⟩

end

/-- What a conditional branch leaves in its keeper (R361, R387). -/
theorem State.kbranch_setKpr (s : State) (k : Nat) (y : Keeper) (hist : y.hist = (s.kpr k).hist) (hint taken : Bool) (off : BitVec 9)
    (hpc : y.pc < 32768) :
    (s.setKpr k y).kbranch k hint taken off =
      (if s.on Reg.KPR_CTRL_pred_off k ∨ hint = taken then s else s.count Reg.KPR_CNT_MISP_misp k 1).setKpr k
        { y with hist := branchHistory s k taken, pc := if taken then relativeTarget y.pc off else (y.pc + 1) % 32768 } := by
  have htarget := relTarget_eq (w := 9) hpc (by decide) off
  have hlow : relativeTarget y.pc off % 32768 = relativeTarget y.pc off := by
    rw [← htarget, relTarget]
    omega
  have hpcs : (if taken then relTarget y.pc 9 off.toNat else y.pc + 1) % 32768 =
      if taken then relativeTarget y.pc off else (y.pc + 1) % 32768 := by
    rw [htarget]
    split
    · exact hlow
    · rfl
  have hhist : BitVec.ofNat 8 (2 * y.hist.toNat + b2n taken) = y.hist * 2 + (if taken then 1 else 0) := by
    apply BitVec.eq_of_toNat_eq
    cases taken <;> simp [b2n, BitVec.toNat_add, BitVec.toNat_mul] <;> omega
  rw [State.kbranch, State.kpr_setKpr_same, State.on_setKpr, branchHistory, ← hist, ← hpcs]
  cases s.on Reg.KPR_CTRL_pred_off k
  · simp only [State.modKpr_setKpr_same, hhist, Bool.false_eq_true, if_false, false_or]
    split
    · exact State.kjump_setKpr ..
    · exact State.kjump_setKpr (s.count Reg.KPR_CNT_MISP_misp k 1) ..
  · simp

theorem State.putItt_setKpr {s : State} (h : s.on Reg.TST_FLIP_arm = false) (k : Nat) (y : Keeper) (i a : Nat) :
    ∃ m, (s.setKpr k y).putItt k i a = s.setKpr k { y with itt := m } := by
  rw [State.putItt, State.flip_of_unarmed (s := s.setKpr k y) h, State.modKpr_setKpr_same]
  exact ⟨_, rfl⟩

theorem State.on_count_flip {k : Nat} (hk : k < 4) (s : State) :
    (s.count Reg.KPR_CNT_MISP_misp k 1).on Reg.TST_FLIP_arm = s.on Reg.TST_FLIP_arm := by
  rw [State.on, State.count, State.rg_setRg_other _ _ _ _ _ _ (fieldKey_ne_of_place (by decide) (by omega) (by omega))]
  rfl

section
variable {s : State} (h : s.on Reg.TST_FLIP_arm = false) {k : Nat} (hk : k < 4) (y : Keeper) (a : Nat)
include h hk

/-- The guess, right or wrong, is counted, and the table takes the target (R387). -/
theorem State.guessed_setKpr (guess i : Nat) : ∃ u m, Counted s u k ∧
    ((if guess = a % 2 ^ 15 then s.setKpr k y else (s.setKpr k y).count Reg.KPR_CNT_MISP_misp k 1).putItt k i a).kjump k a =
      u.setKpr k { y with itt := m, pc := a % 32768 } := by
  split
  · obtain ⟨m, hm⟩ := State.putItt_setKpr h k y i a
    exact ⟨s, m, .inl rfl, by rw [hm, State.kjump_setKpr]⟩
  · obtain ⟨m, hm⟩ := State.putItt_setKpr ((State.on_count_flip hk s).trans h) k y i a
    have hcount : (s.setKpr k y).count Reg.KPR_CNT_MISP_misp k 1 = (s.count Reg.KPR_CNT_MISP_misp k 1).setKpr k y := rfl
    exact ⟨_, m, .inr rfl, by rw [hcount, hm, State.kjump_setKpr]⟩

/-- An indirect transfer: the predictor's table and count may change beside the program counter (R387). -/
theorem State.ktransfer_setKpr (hparity : oddOnes 17 (Mem.get y.itt y.ittIndex).toNat = false) :
    ∃ u m, Counted s u k ∧ (s.setKpr k y).ktransfer k a = u.setKpr k { y with itt := m, pc := a % 32768 } := by
  rw [State.ktransfer, State.kpr_setKpr_same, State.on_setKpr]
  cases s.on Reg.KPR_CTRL_pred_off k
  · simp only [hparity, Bool.false_eq_true, if_false]
    exact State.guessed_setKpr h hk y a _ _
  · exact ⟨s, y.itt, .inl rfl, State.kjump_setKpr ..⟩

end

theorem State.ringFlush_setKpr (s : State) (k : Nat) (x : Keeper) (r q : Nat) :
    (s.setKpr k x).ringFlush k r q = s.setKpr k (flushed s k r q x) := by
  rw [State.ringFlush, State.on_setKpr, flushed]
  split
  · exact State.modKpr_setKpr_same ..
  · rfl

theorem flushed_withPc (s : State) (k r q : Nat) (x : Keeper) (a : Nat) :
    { flushed s k r q x with pc := a } = flushed s k r q { x with pc := a } := by
  simp only [flushed]
  split <;> rfl

/-! ### Masks (R364, R365) -/

/-- What a filter keeps, mapped and reversed, entry by entry. -/
theorem reverse_map_filter {α β : Type} (p : α → Bool) (f : α → β) (l : List α) :
    ((l.filter p).map f).reverse = l.reverse.flatMap fun b => if p b then [f b] else [] := by
  induction l with
  | nil => rfl
  | cons b l ih =>
    rw [List.reverse_cons, List.flatMap_append, ← ih]
    cases hb : p b <;> simp [hb]

/-- MCALL pushes the registers of its mask. -/
theorem reverse_map_saved (x : Keeper) (m : BitVec 6) : ((maskBits m).map x.saved).reverse = maskedRegisters x m := by
  rw [maskBits, which, reverse_map_filter, maskedRegisters]
  simp only [List.append_assoc]
  exact congrArg _ (congrArg _ (congrArg _ (congrArg _ (congrArg _ (List.append_nil _)))))

/-- A register restored from its entry (R365). -/
def Keeper.restored (x : Keeper) (b e : Nat) : Keeper :=
  match b with
  | 0 => withAddr x e
  | 1 => { x with ix := BitVec.ofNat 12 e }
  | 2 => { x with jx := BitVec.ofNat 12 e }
  | 3 => { x with fl := BitVec.ofNat 12 e &&& 0xF#12 }
  | 4 => { x with u := BitVec.ofNat 12 e }
  | _ => { x with v := BitVec.ofNat 12 e }

theorem State.restoreReg_eq_modKpr (s : State) (k b e : Nat) : s.restoreReg k b e = s.modKpr k fun x => x.restored b e := by
  rcases b with _ | _ | _ | _ | _ | b <;> rfl

theorem State.restoreReg_setKpr (s : State) (k : Nat) (x : Keeper) (b e : Nat) :
    (s.setKpr k x).restoreReg k b e = s.setKpr k (x.restored b e) := by
  rw [State.restoreReg_eq_modKpr, State.modKpr_setKpr_same]

theorem withReturns_restored (x : Keeper) (es : List Nat) (b e : Nat) :
    (withReturns x es).restored b e = withReturns (x.restored b e) es := by
  unfold Keeper.restored
  split <;> rfl

/-- Registers that are popped in turn. -/
theorem State.foldlM_restore (s : State) (k : Nat) (y x : Keeper) (bs : List Nat) {es : List Nat} (hlt : ∀ b ∈ bs, y.saved b < 2 ^ 24) :
    bs.foldlM (fun (s : State) b => do
        let r ← s.rpop k
        pure (r.2.restoreReg k b r.1)) (s.setKpr k (withReturns x (bs.map y.saved ++ es))) =
      (.ok (s.setKpr k (withReturns (bs.foldl (fun x b => x.restored b (y.saved b)) x) es)) : Except KErr State) := by
  induction bs generalizing x with
  | nil => rfl
  | cons b bs ih =>
    rw [List.foldlM_cons, List.map_cons, List.cons_append, State.rpop_withReturns s k x (hlt b (List.mem_cons_self ..))]
    simp only [ok_bind, State.restoreReg_setKpr, withReturns_restored]
    exact ih _ fun b' hb' => hlt b' (List.mem_cons_of_mem _ hb')

/-- The keeper once the registers of mask m have been restored from y (R365). -/
def Keeper.masked (x y : Keeper) (m : BitVec 6) : Keeper :=
  { x with
    al := if m.getLsbD 0 then y.al else x.al
    ah := if m.getLsbD 0 then y.ah else x.ah
    ix := if m.getLsbD 1 then y.ix else x.ix
    jx := if m.getLsbD 2 then y.jx else x.jx
    fl := if m.getLsbD 3 then y.fl &&& 0xF#12 else x.fl
    u := if m.getLsbD 4 then y.u else x.u
    v := if m.getLsbD 5 then y.v else x.v }

theorem Keeper.restored_saved_addr (x y : Keeper) : x.restored 0 (y.saved 0) = { x with al := y.al, ah := y.ah } := by
  have hl := y.al.isLt
  have hlow : BitVec.ofNat 12 (y.al.toNat + y.ah.toNat * 4096) = y.al :=
    BitVec.eq_of_toNat_eq (by simp only [BitVec.toNat_ofNat]; omega)
  have hhigh : (y.al.toNat + y.ah.toNat * 4096) / 4096 = y.ah.toNat := by omega
  show withAddr x (y.al.toNat + y.ah.toNat * 4096) = _
  rw [withAddr, hlow, hhigh, BitVec.ofNat_toNat, BitVec.setWidth_eq]

theorem Keeper.restored_saved_ix (x y : Keeper) : x.restored 1 (y.saved 1) = { x with ix := y.ix } := by
  simp only [Keeper.restored, Keeper.saved, BitVec.ofNat_toNat, BitVec.setWidth_eq]

theorem Keeper.restored_saved_jx (x y : Keeper) : x.restored 2 (y.saved 2) = { x with jx := y.jx } := by
  simp only [Keeper.restored, Keeper.saved, BitVec.ofNat_toNat, BitVec.setWidth_eq]

theorem Keeper.restored_saved_fl (x y : Keeper) : x.restored 3 (y.saved 3) = { x with fl := y.fl &&& 0xF#12 } := by
  simp only [Keeper.restored, Keeper.saved, BitVec.ofNat_toNat, BitVec.setWidth_eq]

theorem Keeper.restored_saved_u (x y : Keeper) : x.restored 4 (y.saved 4) = { x with u := y.u } := by
  simp only [Keeper.restored, Keeper.saved, BitVec.ofNat_toNat, BitVec.setWidth_eq]

theorem Keeper.restored_saved_v (x y : Keeper) : x.restored 5 (y.saved 5) = { x with v := y.v } := by
  simp only [Keeper.restored, Keeper.saved, BitVec.ofNat_toNat, BitVec.setWidth_eq]

theorem foldl_restored (x y : Keeper) (m : BitVec 6) :
    (maskBits m).reverse.foldl (fun x b => x.restored b (y.saved b)) x = x.masked y m := by
  have hrange : (List.range 6).reverse = [5, 4, 3, 2, 1, 0] := rfl
  have h0 (c : Bool) (x : Keeper) : (if c then x.restored 0 (y.saved 0) else x) =
      { x with al := if c then y.al else x.al, ah := if c then y.ah else x.ah } := by
    rw [Keeper.restored_saved_addr]; cases c <;> rfl
  have h1 (c : Bool) (x : Keeper) : (if c then x.restored 1 (y.saved 1) else x) = { x with ix := if c then y.ix else x.ix } := by
    rw [Keeper.restored_saved_ix]; cases c <;> rfl
  have h2 (c : Bool) (x : Keeper) : (if c then x.restored 2 (y.saved 2) else x) = { x with jx := if c then y.jx else x.jx } := by
    rw [Keeper.restored_saved_jx]; cases c <;> rfl
  have h3 (c : Bool) (x : Keeper) : (if c then x.restored 3 (y.saved 3) else x) = { x with fl := if c then y.fl &&& 0xF#12 else x.fl } := by
    rw [Keeper.restored_saved_fl]; cases c <;> rfl
  have h4 (c : Bool) (x : Keeper) : (if c then x.restored 4 (y.saved 4) else x) = { x with u := if c then y.u else x.u } := by
    rw [Keeper.restored_saved_u]; cases c <;> rfl
  have h5 (c : Bool) (x : Keeper) : (if c then x.restored 5 (y.saved 5) else x) = { x with v := if c then y.v else x.v } := by
    rw [Keeper.restored_saved_v]; cases c <;> rfl
  rw [maskBits, which, ← List.filter_reverse, hrange, List.foldl_filter]
  simp only [List.foldl_cons, List.foldl_nil, h0, h1, h2, h3, h4, h5]
  rfl

theorem Keeper.saved_lt (y : Keeper) (b : Nat) : y.saved b < 2 ^ 24 := by
  have hl := y.al.isLt
  have hh := y.ah.isLt
  have hcell (c : Cell) : c.toNat < 2 ^ 24 := Nat.lt_trans c.isLt (by decide)
  unfold Keeper.saved
  split
  · rw [Keeper.addr]
    omega
  all_goals exact hcell _

/-! ### Gates (R369 to R371) -/

theorem mapM_eq_ok {ε α β : Type} (f : α → Except ε β) (g : α → β) (l : List α) (h : ∀ a ∈ l, f a = .ok (g a)) :
    l.mapM f = .ok (l.map g) := by
  induction l with
  | nil => rfl
  | cons a l ih =>
    rw [List.mapM_cons, h a (List.mem_cons_self ..), ok_bind, ih fun b hb => h b (List.mem_cons_of_mem _ hb)]
    rfl

theorem foldlM_unit_ok {ε α : Type} (f : Unit → α → Except ε Unit) (l : List α) (h : ∀ a, f () a = .ok ()) : l.foldlM f () = .ok () := by
  induction l with
  | nil => rfl
  | cons a l ih => rw [List.foldlM_cons, h, ok_bind, ih]

section
variable {s : State} {k r g : Nat}

theorem getTbl_of_gateReads (h : gateReads s k r g = true) :
    (List.range 6).mapM (fun c => s.getTbl k (1 + r) g c) = .ok (gateCells s k r g) := by
  refine mapM_eq_ok _ _ _ fun c hc => ?_
  have hsome := List.all_eq_true.1 h c hc
  cases hget : s.getTbl k (1 + r) g c with
  | ok v => rfl
  | error e => simp [hget, Except.toOption] at hsome

theorem gateCells_lt (i : Nat) : (gateCells s k r g)[i]?.getD 0 < 4096 := by
  have hmem : ∀ v ∈ gateCells s k r g, v < 4096 := by
    intro v hv
    obtain ⟨c, -, rfl⟩ := List.mem_map.1 hv
    split
    next hget => exact State.lt_of_getTbl hget
    next => decide
  cases hi : (gateCells s k r g)[i]? with
  | none => decide
  | some v => exact hmem v (List.mem_of_getElem? hi)

/-- A gate whose argument cells name no descriptor checks nothing (R370). -/
theorem gateChecks_of_none {cells : List Nat} (h : cells.drop 2 = [0, 0, 0, 0]) (ring : Nat) (args : List Cell) :
    s.gateChecks k ring cells args = .ok () := by
  have hzero (j : Nat) : cells[2 + j]?.getD 0 = 0 := by
    rw [← List.getElem?_drop, h]
    rcases j with _ | _ | _ | _ | j <;> rfl
  have hfield (i : Nat) : checkField cells i = 0 := by
    have hlast := hzero 3
    simp only [checkField, hzero, hlast]
    split <;> simp
  exact foldlM_unit_ok _ _ fun i => by simp only [hfield, if_true]; rfl

end

theorem State.changeSet_of_eq {s : State} {k n : Nat} (h : (s.kpr k).set = n) : s.changeSet k n = .ok s := by
  rw [State.changeSet, if_pos h]
  rfl

theorem State.changeSet_setKpr (s : State) (k : Nat) {x : Keeper} {n : Nat} (h : x.set = n) :
    (s.setKpr k x).changeSet k n = .ok (s.setKpr k x) :=
  State.changeSet_of_eq (by rw [State.kpr_setKpr_same, h])

/-- The arguments of a gate, popped. -/
theorem State.kpopN_take (s : State) (k : Nat) (y : Keeper) {l : List Cell} {n : Nat} (hn : n ≤ l.length) :
    (s.setKpr k (y.onStack l)).kpopN k n = .ok (l.take n, s.setKpr k (y.onStack (l.drop n))) := by
  have hpop := State.kpopN_onStack s k y (l.take n) (l.drop n)
  rwa [List.take_append_drop, List.length_take_of_le hn] at hpop

/-- The arguments of a gate, pushed back. -/
theorem State.kpushN_take {s : State} {k : Nat} {y : Keeper} {m : Nat} (h : Room s k y 2 m) {l : List Cell} (hl : l.length ≤ m) (n : Nat) :
    (s.setKpr k (y.onStack (l.drop n))).kpushN k (l.take n).reverse = .ok (s.setKpr k (y.onStack l)) := by
  have hpush := State.kpushN_onStack h (l.take n).reverse (l.drop n)
    (by rw [List.length_reverse, ← List.length_append, List.take_append_drop]; exact hl)
  rwa [List.reverse_reverse, List.take_append_drop] at hpush

theorem rgOf_eq_rgWith (x : Keeper) {ring : Nat} (hring : ring < 4) (ie dfl : Bool) :
    rgOf ring ie dfl x.set x.tenant = rgWith x ring ie dfl := by
  have hrg := x.rg.isLt
  have hfields : ring % 4 + b2n ie * 4 + b2n dfl * 8 + x.set % 8 * 16 + x.tenant % 16 * 256 =
      ring + (if ie then 4 else 0) + (if dfl then 8 else 0) + x.rg.toNat / 16 % 8 * 16 + x.rg.toNat / 256 * 256 := by
    simp only [Keeper.set, Keeper.tenant, bits]
    cases ie <;> cases dfl <;> simp [b2n] <;> omega
  rw [rgOf, rgWith, hfields]

/-! ### Calls, returns and gates on stacks on chip (R364, R365, R370, R371) -/

theorem relativeTarget_lt {pc w : Nat} (hpc : pc < 32768) (hw : w ≤ 15) (off : BitVec w) : relativeTarget pc off < 32768 := by
  rw [← relTarget_eq hpc hw off, relTarget]
  omega

section
variable {s : State} {k : Nat} {y : Keeper} {n : Nat} {l : List Cell} {es : List Nat}

theorem State.kMcall_stack (h : ReturnRoom s k (y.onStack l) n) {hi lo : Cell} {m : BitVec 6} (hn : es.length + 7 ≤ n) :
    (s.setKpr k ((withReturns y es).onStack (hi :: lo :: l))).kMcall k m = .ok ((s.setKpr k (withReturns (y.onStack l)
      (returnEntry 1 m.toNat ((y.pc + 1) % 32768) :: (maskedRegisters y m ++ es)))).ktransfer k (codeAddr (lo.toNat + hi.toNat * 4096))) := by
  have hlen : (maskBits m).length ≤ 6 := List.length_filter_le ..
  have hpushed : ((maskBits m).map y.saved).reverse.length = (maskBits m).length := by simp
  have hentry : mkEntry 1 m.toNat ((y.pc + 1) % 2 ^ 15) = returnEntry 1 m.toNat ((y.pc + 1) % 32768) :=
    mkEntry_eq m.isLt (Nat.mod_lt _ (by decide))
  have hsaved : ((withReturns y es).onStack (hi :: lo :: l)).saved = y.saved := rfl
  have hnext : ((withReturns y es).onStack (hi :: lo :: l)).next = (y.pc + 1) % 2 ^ 15 := rfl
  have hcells := State.foldlM_rpush h y.saved (maskBits m) (es := es) (by omega)
  have hlast := State.rpush_withReturns h (es := ((maskBits m).map y.saved).reverse ++ es) (by rw [List.length_append]; omega)
    (returnEntry 1 m.toNat ((y.pc + 1) % 32768))
  rw [reverse_map_saved] at hcells hlast
  have hstack : (withReturns y es).onStack l = withReturns (y.onStack l) es := rfl
  simp only [State.kMcall, State.kpr_setKpr_same, State.kpopPair_onStack, ok_bind, hsaved, hnext, hentry, hstack, hcells, hlast]
  rfl

theorem State.kCalla_stack (h : ReturnRoom s k (y.onStack l) n) {hi lo : Cell} (hn : es.length < n) :
    (s.setKpr k ((withReturns y es).onStack (hi :: lo :: l))).kCalla k = .ok ((s.setKpr k (withReturns (y.onStack l)
      (returnEntry 0 0 ((y.pc + 1) % 32768) :: es))).ktransfer k (codeAddr (lo.toNat + hi.toNat * 4096))) := by
  have hentry : mkEntry 0 0 ((y.pc + 1) % 2 ^ 15) = returnEntry 0 0 ((y.pc + 1) % 32768) :=
    mkEntry_eq (by decide) (Nat.mod_lt _ (by decide))
  have hnext : ((withReturns y es).onStack (hi :: lo :: l)).next = (y.pc + 1) % 2 ^ 15 := rfl
  have hstack : (withReturns y es).onStack l = withReturns (y.onStack l) es := rfl
  simp only [State.kCalla, State.kpr_setKpr_same, State.kpopPair_onStack, ok_bind, hnext, hentry, hstack, State.rpush_withReturns h hn]
  rfl

theorem State.kJmpa_stack (s : State) (k : Nat) (y : Keeper) (l : List Cell) (hi lo : Cell) :
    (s.setKpr k (y.onStack (hi :: lo :: l))).kJmpa k =
      .ok ((s.setKpr k (y.onStack l)).ktransfer k (codeAddr (lo.toNat + hi.toNat * 4096))) := by
  rw [State.kJmpa, State.kpopPair_onStack]
  rfl

theorem State.kMret_stack (s : State) (k : Nat) (x y : Keeper) {m : BitVec 6} {a : Nat} (ha : a < 32768) (es : List Nat) :
    (s.setKpr k (withReturns x (returnEntry 1 m.toNat a :: (maskedRegisters y m ++ es)))).kMret k m =
      .ok (s.setKpr k (withReturns { x.masked y m with pc := a } es)) := by
  have hm : m.toNat < 64 := m.isLt
  have hlt : returnEntry 1 m.toNat a < 2 ^ 24 := by
    rw [returnEntry]
    omega
  have hkind := entryKind_returnEntry hm ha (kind := 1) (by decide)
  have haux := entryAux_returnEntry hm ha (kind := 1)
  have haddr := entryAddr_returnEntry ha (kind := 1) (aux := m.toNat)
  have hrestore := State.foldlM_restore s k y x (maskBits m).reverse (es := es) fun b _ => y.saved_lt b
  rw [List.map_reverse, reverse_map_saved, foldl_restored] at hrestore
  have hlow : a % 32768 = a := Nat.mod_eq_of_lt ha
  simp only [State.kMret, State.rpop_withReturns s k x hlt, ok_bind, hkind, haux, haddr, ne_eq, not_true_eq_false, if_false, hrestore,
    State.kjump_setKpr, hlow]
  rfl

theorem State.kRet_plain (s : State) (k : Nat) (x : Keeper) {a : Nat} (ha : a < 32768) (es : List Nat) :
    (s.setKpr k (withReturns x (returnEntry 0 0 a :: es))).kRet k 0 = .ok (s.setKpr k (withReturns { x with pc := a } es)) := by
  have hlt : returnEntry 0 0 a < 2 ^ 24 := by
    rw [returnEntry]
    omega
  have hkind := entryKind_returnEntry (kind := 0) (aux := 0) (by decide) ha (by decide)
  have haddr := entryAddr_returnEntry ha (kind := 0) (aux := 0)
  have hlow : a % 32768 = a := Nat.mod_eq_of_lt ha
  rw [State.kRet, operandBelow_of_lt (by decide), ok_bind, State.rpop_withReturns s k x hlt, ok_bind, hkind, haddr]
  simp only [State.kjump_setKpr, hlow]
  rfl

/-- RG with another ring keeps its stack set. -/
theorem set_rgWith (x : Keeper) {ring : Nat} (hring : ring < 4) (ie dfl : Bool) (y : Keeper) :
    { y with rg := rgWith x ring ie dfl }.set = x.set := by
  have hset : x.set < 8 := Nat.mod_lt _ (by decide)
  have hie := b2n_lt_two_pow ie
  have hdfl := b2n_lt_two_pow dfl
  rw [← rgOf_eq_rgWith x hring, Keeper.set, bits, toNat_rgOf]
  omega

/-- The ring is entered at an address (R351, R390). -/
theorem State.enterRing_setKpr (s : State) (k : Nat) (x : Keeper) (old ring a : Nat) :
    ((s.setKpr k x).ringFlush k old ring).kjump k a = s.setKpr k (flushed s k old ring { x with pc := a % 32768 }) := by
  rw [State.ringFlush_setKpr, State.kjump_setKpr, flushed_withPc]

theorem State.kRet_gate {m : Nat} (h : Room s k (withReturns y es) 2 m) {o : BitVec 6} {q a : Nat} (ho : o.toNat < 8)
    (hol : o.toNat ≤ l.length) (hq : y.ring ≤ q) (hq4 : q < 4) (ha : a < 32768) (hl : l.length ≤ m) :
    (s.setKpr k ((withReturns y (returnEntry 2 (q + y.set * 4) a :: es)).onStack l)).kRet k o = .ok (s.setKpr k
      (flushed s k y.ring q { (withReturns y es).onStack l with rg := rgWith y q y.ie y.dfl, pc := a })) := by
  have hset : y.set < 8 := Nat.mod_lt _ (by decide)
  have haux64 : q + y.set * 4 < 64 := by omega
  have hlt : returnEntry 2 (q + y.set * 4) a < 2 ^ 24 := by
    rw [returnEntry]
    omega
  have hkind := entryKind_returnEntry haux64 ha (kind := 2) (by decide)
  have haux := entryAux_returnEntry haux64 ha (kind := 2)
  have haddr := entryAddr_returnEntry ha (kind := 2) (aux := q + y.set * 4)
  have hring : (q + y.set * 4) % 4 = q := by omega
  have hsets : (q + y.set * 4) / 4 % 8 = y.set := by omega
  have hpop := State.rpop_withReturns s k (y.onStack l) hlt es
  obtain ⟨p, hp⟩ : ∃ p, p = (withReturns y es).onStack (l.drop o.toNat) := ⟨_, rfl⟩
  have hpopN := State.kpopN_take s k (withReturns y es) hol
  rw [← hp] at hpopN
  obtain ⟨z, hz⟩ : ∃ z, z = { withReturns y es with rg := rgWith y q y.ie y.dfl } := ⟨_, rfl⟩
  have hroom : Room s k z 2 m := h.congr (hz ▸ rfl) (hz ▸ rfl) (hz ▸ set_rgWith y hq4 _ _ _)
  have hpushN := State.kpushN_take hroom hl o.toNat
  have hchange : (s.setKpr k p).changeSet k y.set = .ok (s.setKpr k p) := State.changeSet_setKpr s k (hp ▸ rfl)
  have hreg : s.setKpr k { p with rg := rgOf q p.ie p.dfl y.set p.tenant } = s.setKpr k (z.onStack (l.drop o.toNat)) := by
    have hrg : rgOf q p.ie p.dfl y.set p.tenant = rgWith y q y.ie y.dfl := by
      rw [hp]
      exact rgOf_eq_rgWith y hq4 ..
    rw [hrg, hp, hz]
    rfl
  have hstack : (withReturns y (returnEntry 2 (q + y.set * 4) a :: es)).onStack l =
      withReturns (y.onStack l) (returnEntry 2 (q + y.set * 4) a :: es) := rfl
  have hdeep : ¬ (withReturns (y.onStack l) (returnEntry 2 (q + y.set * 4) a :: es)).sp < o.toNat := Nat.not_lt.2 hol
  have hhigh : ¬ q < (withReturns (y.onStack l) (returnEntry 2 (q + y.set * 4) a :: es)).ring := Nat.not_lt.2 hq
  have hpopped : s.setKpr k (withReturns (y.onStack l) es) = s.setKpr k ((withReturns y es).onStack l) := rfl
  rw [State.kRet, operandBelow_of_lt ho, ok_bind, hstack, hpop, ok_bind, hkind]
  simp only [State.gateReturn, State.kpr_setKpr_same, haux, hring, hsets, hdeep, hhigh, if_false, hpopped, hpopN, ok_bind, hchange,
    State.setKpr_setKpr_same, hreg, hpushN, haddr, State.enterRing_setKpr, Nat.mod_eq_of_lt ha]
  rw [hz]
  rfl

theorem State.kGate_stack {m : Nat} (hret : ReturnRoom s k y n) (h : Room s k y 2 m) {o : BitVec 6} {cells : List Nat} {c0 c1 : Nat}
    (hcells : (List.range 6).mapM (fun c => s.getTbl k (1 + y.ring) o.toNat c) = .ok cells) (hc0 : cells[0]?.getD 0 = c0)
    (hc1 : cells[1]?.getD 0 = c1) (hlow : c0 < 4096) (hzero : y.ring ≠ 0) (hvalid : c1.testBit 11 = true) (hring : c1 / 8 % 4 < y.ring)
    (hargs : c1 / 32 % 8 ≤ l.length) (hset : c1 / 256 % 8 = y.set) (hchecks : cells.drop 2 = [0, 0, 0, 0]) (hn : es.length < n)
    (hl : l.length ≤ m) :
    (s.setKpr k ((withReturns y es).onStack l)).kGate k o = .ok (s.setKpr k (flushed s k y.ring (c1 / 8 % 4)
      { (withReturns y (returnEntry 2 (y.ring + y.set * 4) ((y.pc + 1) % 32768) :: es)).onStack l with
        rg := rgWith y (c1 / 8 % 4) y.ie y.dfl, pc := c0 + c1 % 8 * 4096 })) := by
  have hring4 : y.ring < 4 := Nat.mod_lt _ (by decide)
  have hset8 : y.set < 8 := Nat.mod_lt _ (by decide)
  obtain ⟨x, hx⟩ : ∃ x, x = (withReturns y es).onStack l := ⟨_, rfl⟩
  have hread : (List.range 6).mapM (fun c => (s.setKpr k x).getTbl k (1 + y.ring) o.toNat c) = .ok cells := by
    have hget (c : Nat) : (s.setKpr k x).getTbl k (1 + y.ring) o.toNat c = s.getTbl k (1 + y.ring) o.toNat c :=
      State.getTbl_setKpr (hx ▸ h.tbl) (hx ▸ h.image) ..
    simp only [hget]
    exact hcells
  obtain ⟨p, hp⟩ : ∃ p, p = (withReturns y es).onStack (l.drop (c1 / 32 % 8)) := ⟨_, rfl⟩
  have hpopN := State.kpopN_take s k (withReturns y es) hargs
  rw [← hx, ← hp] at hpopN
  have hchange : (s.setKpr k p).changeSet k y.set = .ok (s.setKpr k p) := State.changeSet_setKpr s k (hp ▸ rfl)
  obtain ⟨e, he⟩ : ∃ e, e = returnEntry 2 (y.ring + y.set * 4) ((y.pc + 1) % 32768) := ⟨_, rfl⟩
  have hentry : mkEntry 2 (y.ring + y.set * 4) ((y.pc + 1) % 2 ^ 15) = e :=
    (mkEntry_eq (by omega) (Nat.mod_lt _ (by decide))).trans he.symm
  have hpush : (s.setKpr k p).rpush k e = .ok (s.setKpr k ((withReturns y (e :: es)).onStack (l.drop (c1 / 32 % 8)))) := by
    rw [hp]
    exact State.rpush_withReturns (hret.congr (z := y.onStack (l.drop (c1 / 32 % 8))) rfl rfl rfl) hn e
  have hpushN := State.kpushN_take (h.congr (z := withReturns y (e :: es)) rfl rfl rfl) hl (c1 / 32 % 8)
  obtain ⟨z, hz⟩ : ∃ z, z = (withReturns y (e :: es)).onStack l := ⟨_, rfl⟩
  rw [← hz] at hpushN
  have hrg : rgOf (c1 / 8 % 4) z.ie z.dfl y.set z.tenant = rgWith y (c1 / 8 % 4) y.ie y.dfl := by
    rw [hz]
    exact rgOf_eq_rgWith y (by omega) ..
  have hxring : x.ring = y.ring := hx ▸ rfl
  have hxset : x.set = y.set := hx ▸ rfl
  have hxnext : x.next = (y.pc + 1) % 2 ^ 15 := hx ▸ rfl
  have hxsp : ¬ x.sp < c1 / 32 % 8 := hx ▸ Nat.not_lt.2 hargs
  have hpc : (c0 + c1 % 8 * 4096) % 32768 = c0 + c1 % 8 * 4096 := by omega
  have hbits : bits c1 5 3 = c1 / 32 % 8 ∧ bits c1 8 3 = y.set ∧ bits c1 3 2 = c1 / 8 % 4 := ⟨rfl, hset, rfl⟩
  obtain ⟨hargc, hsets, hrings⟩ := hbits
  rw [← hx, State.kGate, State.kpr_setKpr_same]
  simp only [hxring, hzero, if_false, hread, ok_bind, hc0, hc1, hargc, hsets, hrings, bit, hvalid, Nat.not_le.2 hring, hxsp, hpopN,
    gateChecks_of_none hchecks, hchange, hxset, hxnext, hentry, hpush, hpushN, State.kpr_setKpr_same, State.setKpr_setKpr_same, hrg,
    State.enterRing_setKpr, hpc]
  rw [hz, he]
  rfl

end

/-- A ready data stack stands in the keeper whatever its return stack. -/
theorem withReturns_onStack_begun {s : State} {k : Nat} {st : List Cell} (h : KReady s k st) (es : List Nat) :
    (withReturns (begun (s.kpr k)) es).onStack st = withReturns (begun (s.kpr k)) es :=
  congrArg (withReturns · es) (begun_onStack h)

/-- An indirect transfer, and all that it may change beside the program counter (R387). -/
theorem exists_kwent_of_transfer {s : State} {k : Fin 4} {body : State → Except KErr State} {y : Keeper} {a p : Nat}
    (hissues : s.issues k.val = true) (hfetch : FetchOk s k.val = true) (hflip : s.on Reg.TST_FLIP_arm = false)
    (hbody : body (s.setKpr k.val (begun (s.kpr k.val))) = .ok ((s.setKpr k.val y).ktransfer k.val a))
    (hparity : oddOnes 17 (Mem.get y.itt y.ittIndex).toNat = false) (hp : a % 32768 = p) :
    ∃ t, done s (s.kealaRun k.val body) = .next t ∧ KWent s t k.val { y with pc := p, itt := (t.kpr k.val).itt } := by
  obtain ⟨u, m, hcounted, htransfer⟩ := State.ktransfer_setKpr hflip k.isLt y a hparity
  obtain ⟨htst, hpending, -⟩ := hcounted.unchanged
  rw [htransfer, hp] at hbody
  obtain ⟨t, hexec, hdid⟩ := exists_kdid_of_run hissues hfetch hbody htst hpending
  have hitt : (t.kpr k.val).itt = m := (congrArg Keeper.itt hdid.1).trans rfl
  exact ⟨t, hexec, hitt ▸ kwent_of_counted hcounted hdid⟩

end Sys2Proof.Machine

namespace Sys2Proof.Proofs
open Sys2Proof.Machine Sys2Proof.Claims

theorem kealaJump {s : State} {k : Fin 4} {off : BitVec 10} {st : List Cell} (h : KReady s k.val st) (hpc : (s.kpr k.val).pc < 32768) :
    ∃ t, exec (.jmp k off) s = .next t ∧ KDid s t k.val { begun (s.kpr k.val) with pc := relativeTarget (s.kpr k.val).pc off } := by
  obtain ⟨hissues, hfetch, -⟩ := h
  refine exists_kdid_of_run hissues hfetch ?_ rfl rfl
  have hlow := Nat.mod_eq_of_lt (relativeTarget_lt hpc (by decide) off)
  have htarget : relTarget (begun (s.kpr k.val)).pc 10 off.toNat = relativeTarget (s.kpr k.val).pc off := relTarget_eq hpc (by decide) off
  simp only [State.kpr_setKpr_same, State.kjump_setKpr, htarget, hlow]
  rfl

theorem kealaCall {s : State} {k : Fin 4} {off : BitVec 10} {st : List Cell} {es : List Nat} (h : KReady s k.val st)
    (hr : RReady s k.val es) (hpc : (s.kpr k.val).pc < 32768) : ∃ t, exec (.call k off) s = .next t ∧
      KDid s t k.val (withReturns { begun (s.kpr k.val) with pc := relativeTarget (s.kpr k.val).pc off }
        (returnEntry 0 0 (((s.kpr k.val).pc + 1) % 32768) :: es)) := by
  obtain ⟨hissues, hfetch, hflip, -⟩ := h
  refine exists_kdid_of_run hissues hfetch ?_ rfl rfl
  have hlow := Nat.mod_eq_of_lt (relativeTarget_lt hpc (by decide) off)
  have htarget : relTarget (begun (s.kpr k.val)).pc 10 off.toNat = relativeTarget (s.kpr k.val).pc off := relTarget_eq hpc (by decide) off
  have hentry : mkEntry 0 0 (begun (s.kpr k.val)).next = returnEntry 0 0 (((s.kpr k.val).pc + 1) % 32768) :=
    mkEntry_eq (by decide) (Nat.mod_lt _ (by decide))
  have hpush := State.rpush_withReturns (returnRoom_of_ready hflip hr) (es := es) (by omega)
    (returnEntry 0 0 (((s.kpr k.val).pc + 1) % 32768))
  rw [withReturns_begun hr] at hpush
  simp only [State.kpr_setKpr_same, hentry, hpush, ok_bind, State.kjump_setKpr, htarget, hlow]
  rfl

/-- A conditional branch with its outcome (R361, R387). -/
theorem exists_kwent_of_branch {s : State} {k : Fin 4} {hint taken : Bool} {off : BitVec 9} {a : Cell} {st : List Cell}
    {body : State → Except KErr State} (h : KReady s k.val (a :: st)) (hpc : (s.kpr k.val).pc < 32768)
    (hbody : ∀ t, t.kpop k.val = .ok (a, s.setKpr k.val ((begun (s.kpr k.val)).onStack st)) →
      body t = .ok ((s.setKpr k.val ((begun (s.kpr k.val)).onStack st)).kbranch k.val hint taken off)) :
    ∃ t, done s (s.kealaRun k.val body) = .next t ∧
      KWent s t k.val { next (begun (s.kpr k.val)) st with
        pc := if taken then relativeTarget (begun (s.kpr k.val)).pc off else ((begun (s.kpr k.val)).pc + 1) % 32768,
        hist := branchHistory s k.val taken } ∧
      t.rg Reg.KPR_CNT_MISP_misp k.val =
        (if s.on Reg.KPR_CTRL_pred_off k.val ∨ hint = taken then s.rg Reg.KPR_CNT_MISP_misp k.val
         else min (2 ^ 32 - 1) (s.rg Reg.KPR_CNT_MISP_misp k.val + 1)) := by
  have hrun := (hbody _ (State.kpop_onStack s k.val (begun (s.kpr k.val)) a st)).trans
    (congrArg Except.ok (State.kbranch_setKpr s k.val ((begun (s.kpr k.val)).onStack st) rfl hint taken off hpc))
  obtain ⟨u, hu⟩ : ∃ u, u = if s.on Reg.KPR_CTRL_pred_off k.val ∨ hint = taken then s else s.count Reg.KPR_CNT_MISP_misp k.val 1 :=
    ⟨_, rfl⟩
  rw [← hu] at hrun
  have hcounted : Counted s u k.val := by
    rw [hu]
    split
    · exact .inl rfl
    · exact .inr rfl
  obtain ⟨htst, hpending, -⟩ := hcounted.unchanged
  obtain ⟨t, hexec, hdid⟩ := exists_kdid_element h hrun htst hpending
  refine ⟨t, hexec, kwent_of_counted hcounted hdid, ?_⟩
  rw [State.rg, regs_of_kdid hdid, ← State.rg, hu]
  split
  · rfl
  · rw [State.count, State.rg_setRg_same]
    exact Nat.mod_eq_of_lt (Nat.lt_of_le_of_lt (Nat.min_le_left ..) (by decide))

theorem kealaBranch {s : State} {k : Fin 4} {hint : Bool} (z : Bool) {off : BitVec 9} {a : Cell} {st : List Cell} (h : KReady s k.val (a :: st))
    (hpc : (s.kpr k.val).pc < 32768) :
    let taken := if z then decide (a = 0) else decide (a ≠ 0)
    let x := begun (s.kpr k.val)
    ∃ t, exec (if z then .bz k hint off else .bnz k hint off) s = .next t ∧
      KWent s t k.val { next x st with pc := if taken then relativeTarget x.pc off else (x.pc + 1) % 32768,
                                       hist := branchHistory s k.val taken } ∧
      t.rg Reg.KPR_CNT_MISP_misp k.val =
        (if s.on Reg.KPR_CTRL_pred_off k.val ∨ hint = taken then s.rg Reg.KPR_CNT_MISP_misp k.val
         else min (2 ^ 32 - 1) (s.rg Reg.KPR_CNT_MISP_misp k.val + 1)) := by
  cases z with
  | true => exact exists_kwent_of_branch h hpc fun t ht => by rw [ht]; rfl
  | false => exact exists_kwent_of_branch h hpc fun t ht => by rw [ht]; rfl

theorem kealaIndirect {s : State} {k : Fin 4} {lo hi : Cell} {st : List Cell} {es : List Nat} {m : BitVec 6}
    (h : KReady s k.val (hi :: lo :: st)) (hr : RReady s k.val es)
    (hparity : oddOnes 17 (Mem.get (s.kpr k.val).itt (s.kpr k.val).ittIndex).toNat = false) :
    let x := begun (s.kpr k.val)
    let y := { next x st with pc := hi.toNat % 8 * 4096 + lo.toNat }
    (∃ t, exec (.jmpa k) s = .next t ∧ KWent s t k.val { y with itt := (t.kpr k.val).itt }) ∧
    (∃ t, exec (.calla k) s = .next t ∧
      KWent s t k.val (withReturns { y with itt := (t.kpr k.val).itt } (returnEntry 0 0 ((x.pc + 1) % 32768) :: es))) ∧
    (∃ t, exec (.mcall k m) s = .next t ∧
      KWent s t k.val (withReturns { y with itt := (t.kpr k.val).itt }
        (returnEntry 1 m.toNat ((x.pc + 1) % 32768) :: (maskedRegisters x m ++ es)))) := by
  have hlow := lo.isLt
  have hp : codeAddr (lo.toNat + hi.toNat * 4096) % 32768 = hi.toNat % 8 * 4096 + lo.toNat := by
    rw [codeAddr]
    omega
  have hstack := begun_onStack h
  have hboth : (withReturns (begun (s.kpr k.val)) es).onStack (hi :: lo :: st) = begun (s.kpr k.val) := by rw [withReturns_begun hr, hstack]
  obtain ⟨hissues, hfetch, hflip, -⟩ := h
  have hroom := (returnRoom_of_ready hflip hr).congr (z := (begun (s.kpr k.val)).onStack st) rfl rfl rfl
  have hjmpa := State.kJmpa_stack s k.val (begun (s.kpr k.val)) st hi lo
  have hcalla := State.kCalla_stack hroom (hi := hi) (lo := lo) (es := es) (by omega)
  have hmcall := State.kMcall_stack hroom (hi := hi) (lo := lo) (es := es) (m := m) (by omega)
  rw [hstack] at hjmpa
  rw [hboth] at hcalla hmcall
  refine ⟨?_, ?_, ?_⟩
  · obtain ⟨t, hexec, hwent⟩ := exists_kwent_of_transfer (body := fun s => s.kJmpa k.val) hissues hfetch hflip hjmpa hparity hp
    exact ⟨t, hexec, hwent⟩
  · obtain ⟨t, hexec, hwent⟩ := exists_kwent_of_transfer (body := fun s => s.kCalla k.val) hissues hfetch hflip hcalla hparity hp
    exact ⟨t, hexec, hwent⟩
  · obtain ⟨t, hexec, hwent⟩ := exists_kwent_of_transfer (body := fun s => s.kMcall k.val m) hissues hfetch hflip hmcall hparity hp
    exact ⟨t, hexec, hwent⟩

theorem kealaReturn {s : State} {k : Fin 4} {st : List Cell} {a : Nat} {es : List Nat} (h : KReady s k.val st) (ha : a < 32768)
    (hr : RReady s k.val (returnEntry 0 0 a :: es)) :
    ∃ t, exec (.ret k 0) s = .next t ∧ KDid s t k.val (withReturns { begun (s.kpr k.val) with pc := a } es) := by
  have hret := State.kRet_plain s k.val (begun (s.kpr k.val)) ha es
  rw [withReturns_begun hr] at hret
  exact exists_kdid_of_run h.1 h.2.1 hret rfl rfl

theorem kealaMaskedReturn {s : State} {k : Fin 4} {st : List Cell} {a : Nat} {m : BitVec 6} {y : Keeper} {es : List Nat}
    (h : KReady s k.val st) (ha : a < 32768) (hr : RReady s k.val (returnEntry 1 m.toNat a :: (maskedRegisters y m ++ es))) :
    ∃ t, exec (.mret k m) s = .next t ∧ KDid s t k.val (withReturns { (begun (s.kpr k.val)).masked y m with pc := a } es) := by
  have hmret := State.kMret_stack s k.val (begun (s.kpr k.val)) y (m := m) ha es
  rw [withReturns_begun hr] at hmret
  exact exists_kdid_of_run h.1 h.2.1 hmret rfl rfl

theorem kealaGate {s : State} {k : Fin 4} {g : BitVec 6} {st : List Cell} {es : List Nat} {cells : List Nat} {c1 : Nat}
    (hcells : cells = gateCells s k.val (begun (s.kpr k.val)).ring g.toNat) (hc1 : c1 = cells[1]?.getD 0) (h : KReady s k.val st)
    (hr : RReady s k.val es) (hzero : (begun (s.kpr k.val)).ring ≠ 0) (hreads : gateReads s k.val (begun (s.kpr k.val)).ring g.toNat = true)
    (hvalid : c1.testBit 11 = true) (hring : c1 / 8 % 4 < (begun (s.kpr k.val)).ring) (hargs : c1 / 32 % 8 ≤ st.length)
    (hset : c1 / 256 % 8 = (begun (s.kpr k.val)).set) (hchecks : cells.drop 2 = [0, 0, 0, 0]) :
    ∃ t, exec (.gate k g) s = .next t ∧
      KDid s t k.val (flushed s k.val (begun (s.kpr k.val)).ring (c1 / 8 % 4) (withReturns
        { begun (s.kpr k.val) with
          rg := rgWith (begun (s.kpr k.val)) (c1 / 8 % 4) (begun (s.kpr k.val)).ie (begun (s.kpr k.val)).dfl,
          pc := cells[0]?.getD 0 + c1 % 8 * 4096 }
        (returnEntry 2 ((begun (s.kpr k.val)).ring + (begun (s.kpr k.val)).set * 4) (((begun (s.kpr k.val)).pc + 1) % 32768) :: es))) := by
  have hlow : cells[0]?.getD 0 < 4096 := hcells ▸ gateCells_lt 0
  have hgate := State.kGate_stack (returnRoom_of_ready h.2.2.1 hr) (room_of_ready h) (l := st) (es := es)
    (hcells ▸ getTbl_of_gateReads hreads) rfl hc1.symm hlow hzero hvalid hring hargs hset hchecks (by omega) (by omega)
  rw [withReturns_begun hr] at hgate
  rw [withReturns_onStack_begun h] at hgate
  obtain ⟨t, hexec, hdid⟩ := exists_kdid_element (body := fun s => s.kGate k.val g) h hgate rfl rfl
  exact ⟨t, hexec, hdid⟩

theorem kealaGateReturn {s : State} {k : Fin 4} {n : BitVec 6} {q a : Nat} {st : List Cell} {es : List Nat} (h : KReady s k.val st)
    (hn : n.toNat < 8) (hdeep : n.toNat ≤ st.length) (hq : (begun (s.kpr k.val)).ring ≤ q) (hq4 : q < 4) (ha : a < 32768)
    (hr : RReady s k.val (returnEntry 2 (q + (begun (s.kpr k.val)).set * 4) a :: es)) :
    ∃ t, exec (.ret k n) s = .next t ∧
      KDid s t k.val (flushed s k.val (begun (s.kpr k.val)).ring q (withReturns
        { begun (s.kpr k.val) with
          rg := rgWith (begun (s.kpr k.val)) q (begun (s.kpr k.val)).ie (begun (s.kpr k.val)).dfl, pc := a } es)) := by
  have hroom := (room_of_ready h).congr (z := withReturns (begun (s.kpr k.val)) es) rfl rfl rfl
  have hret := State.kRet_gate hroom (l := st) hn hdeep hq hq4 ha (by omega)
  rw [withReturns_begun hr, withReturns_onStack_begun h] at hret
  obtain ⟨t, hexec, hdid⟩ := exists_kdid_element (body := fun s => s.kRet k.val n) h hret rfl rfl
  exact ⟨t, hexec, hdid⟩

/-- Settles O6: relative transfers and branches, indirect ones, returns, and gates. -/
theorem kealaTransfersOfControl : Obligations.KealaTransfersOfControl := by
  unfold Obligations.KealaTransfersOfControl
  exact ⟨⟨fun _ _ _ _ h hpc => kealaJump h hpc, fun _ _ _ _ _ h hr hpc => kealaCall h hr hpc,
      fun _ _ _ z _ _ _ h hpc => kealaBranch z h hpc⟩,
    fun _ _ _ _ _ _ _ h hr hparity => kealaIndirect h hr hparity,
    ⟨fun _ _ _ _ _ h ha hr => kealaReturn h ha hr, fun _ _ _ _ _ _ _ h ha hr => kealaMaskedReturn h ha hr⟩,
    fun _ _ _ _ _ h hr hzero hreads hvalid hring hargs hset hchecks =>
      kealaGate rfl rfl h hr hzero hreads hvalid hring hargs hset hchecks,
    fun _ _ _ _ _ _ _ h hn hdeep hq hq4 ha hr => kealaGateReturn h hn hdeep hq hq4 ha hr⟩

end Sys2Proof.Proofs
end

section
/-!
PROOFS. Faults, takeover, lock hook and interrupt entry, and RETI, and the statement KealaEntriesAndReturn (R350, R351, R372 to R374, R378,
R381).
-/
namespace Sys2Proof.Machine
open Sys2Proof.Claims

/-! ### Entry to an event (R372 to R374) -/

section
variable {s : State} {k : Nat} {x : Keeper} {es : List Nat}

theorem exists_getTbl_of_vectorTo {v a : Nat} (h : vectorTo s k v = some a) : ∃ lo hi, s.getTbl k 0 v 0 = .ok lo ∧
    s.getTbl k 0 v 1 = .ok hi ∧ hi / 8 % 8 = (s.kpr k).set ∧ lo + hi % 8 * 4096 = a := by
  unfold vectorTo at h
  split at h
  next lo hi hlo hhi =>
    split at h <;> cases h
    next hset => exact ⟨lo, hi, hlo, hhi, hset, rfl⟩
  next => cases h

theorem vectorTo_congr {u : State} (hget : ∀ n i c, u.getTbl k n i c = s.getTbl k n i c) (hset : (u.kpr k).set = (s.kpr k).set) (v : Nat) :
    vectorTo u k v = vectorTo s k v := by
  unfold vectorTo
  simp only [hget, hset]

/-- Entries pushed in turn on a keeper as it stands. -/
theorem State.foldlM_rpush_of_kpr (hk : s.kpr k = x) (hx : withReturns x es = x) {n : Nat} (h : ReturnRoom s k x n) (c : Nat) (l : List Nat)
    (hn : l.length + es.length < n) :
    (c :: l).foldlM (fun (s : State) c => s.rpush k c) s = .ok (s.setKpr k (withReturns x ((c :: l).reverse ++ es))) := by
  have hrest := State.foldlM_rpush h id l (es := c :: es) (by rw [List.length_cons]; omega)
  rw [List.map_id] at hrest
  rw [List.foldlM_cons, State.rpush_of_kpr (hk.trans hx.symm) h.unarmed h.limit h.base h.chip (by omega), ok_bind, List.reverse_cons,
    List.append_assoc]
  exact hrest

/-- Entry through a vector of the current stack set; the frame has room (R374). -/
theorem State.enterEvent_of_ready (hk : s.kpr k = x) (hx : withReturns x es = x) (h : ReturnRoom s k x (es.length + 8)) {v a resume : Nat}
    (hv : v ≠ 1) (hvector : vectorTo s k v = some a) (hresume : resume < 32768) :
    s.enterEvent k v resume = .ok (s.setKpr k (entered s k (vectorRing v) a resume x es)) := by
  obtain ⟨lo, hi, hlo, hhi, hset, rfl⟩ := exists_getTbl_of_vectorTo hvector
  have hvec : s.vector k v = .ok (lo + hi % 8 * 4096, x.set) := by
    rw [State.vector, hlo, ok_bind, hhi, ok_bind, if_neg hv]
    exact congrArg (fun n => Except.ok (lo + hi % 8 * 4096, n)) (hset.trans (congrArg Keeper.set hk))
  have hring : vectorRing v < 4 := by
    rw [vectorRing]
    split <;> decide
  have hentry : mkEntry 3 0 resume = returnEntry 3 0 resume := mkEntry_eq (by decide) hresume
  have hframe := State.foldlM_rpush_of_kpr hk hx h (x.al.toNat + x.ah.toNat * 4096)
    [x.ix.toNat, x.jx.toNat, x.fl.toNat, x.u.toNat, x.v.toNat, x.rg.toNat, returnEntry 3 0 resume] (by simp; omega)
  rw [State.enterEvent, hvec, ok_bind, State.changeSet_of_eq (congrArg Keeper.set hk), ok_bind, hk, hentry, Nat.add_comm (x.ah.toNat * 4096),
    hframe, ok_bind]
  simp only [State.kpr_setKpr_same, State.setKpr_setKpr_same, State.on_setKpr, hv, decide_false, Bool.or_false]
  rw [entered, flushed, ← rgOf_eq_rgWith x hring]
  by_cases hflush : s.on Reg.KPR_CTRL_pred_flush_on_gate k = true ∧ x.ring ≠ vectorRing v
  · have hclear : (s.on Reg.KPR_CTRL_pred_flush_on_gate k && decide (vectorRing v ≠ x.ring)) = true := by
      rw [hflush.1, decide_eq_true hflush.2.symm, Bool.and_self]
    simp only [hclear, if_true, if_pos hflush]
    rfl
  · have hkeep : (s.on Reg.KPR_CTRL_pred_flush_on_gate k && decide (vectorRing v ≠ x.ring)) = false := by
      rw [← Bool.not_eq_true, Bool.and_eq_true_iff, decide_eq_true_eq, ne_comm]
      exact hflush
    simp only [hkeep, Bool.false_eq_true, if_false, if_neg hflush]
    rfl

end

/-! ### Faults (R374, R375) -/

/-- What a fault of keeper x writes into its fault registers (R375, R391). -/
def faultWrites (x : Keeper) (code detail : Nat) : List (Field × Nat) :=
  [(Reg.KPR_FAULT_valid, 1), (Reg.KPR_FAULT_double, 0), (Reg.KPR_FAULT_code, code), (Reg.KPR_FAULT_detail, detail),
   (Reg.KPR_FAULT_ring, x.ring), (Reg.KPR_FAULT_PC_pc, x.pc), (Reg.KPR_FAULT_PC_micro, 0), (Reg.KPR_FAULT_PC_uaddr, 0)]

theorem State.find_setFields (s : State) (k : Nat) {l : List (Field × Nat)} {key : Nat} (h : ∀ w ∈ l, key ≠ fieldKey w.1 k 0) :
    (s.setFields k l).regs.find key = s.regs.find key := by
  induction l generalizing s with
  | nil => rfl
  | cons w l ih =>
    exact (ih (s.setRg w.1 k w.2) fun w' hw' => h w' (List.mem_cons_of_mem _ hw')).trans
      (Tbl.find_put_other _ _ (h w (List.mem_cons_self ..)))

theorem State.recordFault_setKpr (s : State) (k : Nat) (x : Keeper) (code detail : Nat) :
    (s.setKpr k x).recordFault k ⟨code, detail, none, none⟩ none = (s.setFields k (faultWrites x code detail)).setKpr k x := by
  simp only [State.recordFault, State.kpr_setKpr_same, State.setRg_setKpr, State.setFields, faultWrites, List.foldl_cons, List.foldl_nil]
  rfl

theorem mem_fields_of_faultWrites {x : Keeper} {code detail : Nat} {w : Field × Nat} (h : w ∈ faultWrites x code detail) :
    w.1 ∈ Reg.KPR_FAULT.fields ++ Reg.KPR_FAULT_PC.fields := by
  simp only [faultWrites, List.mem_cons, List.not_mem_nil, or_false] at h
  rcases h with rfl | rfl | rfl | rfl | rfl | rfl | rfl | rfl <;> simp [Reg.KPR_FAULT, Reg.KPR_FAULT_PC]

theorem nodup_places_faultWrites (x : Keeper) (code detail : Nat) : ((faultWrites x code detail).map (·.1.place)).Nodup := by
  have hplaces : (faultWrites x code detail).map (·.1.place) = [Reg.KPR_FAULT_valid, Reg.KPR_FAULT_double, Reg.KPR_FAULT_code,
    Reg.KPR_FAULT_detail, Reg.KPR_FAULT_ring, Reg.KPR_FAULT_PC_pc, Reg.KPR_FAULT_PC_micro, Reg.KPR_FAULT_PC_uaddr].map Field.place := rfl
  rw [hplaces]
  decide

section
variable {k : Nat} (hk : k < 4)
include hk

/-- A fault record leaves every other register. -/
theorem State.rg_faultWrites_other {g : Field} (hg : ∀ f ∈ Reg.KPR_FAULT.fields ++ Reg.KPR_FAULT_PC.fields, g.place ≠ f.place) {i : Nat}
    (hi : i < 8192) (s : State) (x : Keeper) (code detail : Nat) : (s.setFields k (faultWrites x code detail)).rg g i = s.rg g i := by
  rw [State.rg, State.find_setFields, State.rg]
  exact fun w hw => fieldKey_ne_of_place (hg w.1 (mem_fields_of_faultWrites hw)) hi (by omega)

theorem faultRecorded_faultWrites (s : State) (x : Keeper) {code detail : Nat} (hcode : code < 8) (hdetail : detail < 64)
    (hpc : x.pc < 32768) : FaultRecorded (s.setFields k (faultWrites x code detail)) k code detail x.ring x.pc := by
  have hplaces : ((faultWrites x code detail).map (·.1.place)).Nodup := nodup_places_faultWrites x code detail
  have hmem {f : Field} {v : Nat} (h : (f, v) ∈ faultWrites x code detail) :=
    State.rg_setFields_of_mem (i := k) (by omega) s hplaces h
  have hring : x.ring < 4 := Nat.mod_lt _ (by decide)
  refine ⟨?_, ?_, ?_, ?_, ?_, ?_, ?_⟩
  · exact hmem (v := 1) (by simp [faultWrites])
  · exact hmem (v := 0) (by simp [faultWrites])
  · exact (hmem (v := code) (by simp [faultWrites])).trans (Nat.mod_eq_of_lt hcode)
  · exact (hmem (v := detail) (by simp [faultWrites])).trans (Nat.mod_eq_of_lt hdetail)
  · exact (hmem (v := x.ring) (by simp [faultWrites])).trans (Nat.mod_eq_of_lt hring)
  · exact (hmem (v := x.pc) (by simp [faultWrites])).trans (Nat.mod_eq_of_lt hpc)
  · exact hmem (v := 0) (by simp [faultWrites])

end

/-- The state in which keeper k enters its handler, but for its registers. -/
def State.handling (s : State) (k code detail v a resume : Nat) (x : Keeper) (es : List Nat) : State :=
  (s.setFields k (faultWrites x code detail)).setKpr k { entered s k (vectorRing v) a resume x es with entering := true }

/-- A first fault enters the handler through vector 5 or 6 (R374, R375). -/
theorem State.kfault_of_ready {s : State} {k : Nat} (hk : k < 4) {x : Keeper} {es : List Nat} (hx : withReturns x es = x)
    (h : ReturnRoom s k x (es.length + 8)) (hset : x.set = (s.kpr k).set) (hdfl : x.dfl = false) (hentering : x.entering = false)
    (hpc : x.pc < 32768) {code detail a : Nat} (hcode : code ≠ 2) (hvector : vectorTo s k (if 2 ≤ x.ring then 5 else 6) = some a) :
    (s.setKpr k x).kfault k ⟨code, detail, none, none⟩ =
      s.handling k code detail (if 2 ≤ x.ring then 5 else 6) a (if code = 7 then (x.pc + 1) % 32768 else x.pc) x es := by
  obtain ⟨v, hv⟩ : ∃ v, v = if 2 ≤ x.ring then 5 else 6 := ⟨_, rfl⟩
  obtain ⟨resume, hresume⟩ : ∃ resume, resume = if code = 7 then (x.pc + 1) % 32768 else x.pc := ⟨_, rfl⟩
  have hv1 : v ≠ 1 := by rw [hv]; split <;> decide
  have hlow : resume < 32768 := by rw [hresume]; split <;> omega
  rw [← hv] at hvector ⊢
  obtain ⟨u, hu⟩ : ∃ u, u = (s.setFields k (faultWrites x code detail)).setKpr k x := ⟨_, rfl⟩
  have hkpr : u.kpr k = x := by rw [hu, State.kpr_setKpr_same]
  have hon {f : Field} (hf : ∀ g ∈ Reg.KPR_FAULT.fields ++ Reg.KPR_FAULT_PC.fields, f.place ≠ g.place) {i : Nat} (hi : i < 8192) :
      u.on f i = s.on f i := by
    rw [hu, State.on_setKpr, State.on, State.rg_faultWrites_other hk hf hi, State.on]
  have hget (n i c : Nat) : u.getTbl k n i c = s.getTbl k n i c :=
    State.getTbl_congr (by rw [hkpr, h.tbl]) (by rw [hkpr, h.image]) n i c
  have hbase (set c : Nat) : u.setBase k set c = s.setBase k set c := by simp only [State.setBase, hget]
  have hroom : ReturnRoom u k x (es.length + 8) :=
    ⟨⟨(hon (by decide) (by decide)).trans h.unarmed, by rw [hkpr], by rw [hkpr], by simpa only [hget] using h.limit, h.chip⟩,
      by simpa only [hbase] using h.base⟩
  have hvec : vectorTo u k v = some a := (vectorTo_congr hget (by rw [hkpr, hset]) v).trans hvector
  have henter := State.enterEvent_of_ready hkpr hx hroom hv1 hvec hlow
  have hentered : entered u k (vectorRing v) a resume x es = entered s k (vectorRing v) a resume x es := by
    simp only [entered, flushed, hon (f := Reg.KPR_CTRL_pred_flush_on_gate) (by decide) (Nat.lt_trans hk (by decide))]
  have hres : (if code = 7 then (x.pc + 1) % 2 ^ 15 else x.pc) = resume := hresume.symm
  rw [State.kfault]
  simp only [State.kpr_setKpr_same, State.countPar, hcode, if_false, hdfl, hentering, Bool.false_eq_true, State.recordFault_setKpr, ← hu,
    ← hv, hres, henter, hentered, State.modKpr_setKpr_same]
  rw [hu, State.setKpr_setKpr_same, State.handling, ← hresume]

/-! ### Illegal instructions (R362, R375) -/

/-- The least operand that op does not take. -/
def illegalFrom (op : Nat) : Nat :=
  if op ∈ [0x0D, 0x0E, 0x0F, 0x2B, 0x2F, 0x3F] then 0
  else if op ∈ [0x1E, 0x1F, 0x20, 0x21, 0x39, 0x3A, 0x3D] then 64
  else if op ∈ [0x07, 0x34, 0x35] then 32
  else if op = 0x0B then 14
  else if op ∈ [0x18, 0x19, 0x1A] then 16
  else if op ∈ [0x29, 0x2A] then 10
  else if op ∈ [0x36, 0x37, 0x38] then 8
  else if op = 0x33 then 4
  else if op ∈ [0x22, 0x23, 0x32] then 2
  else 1

theorem ite_eq_decide_le {p : Prop} [Decidable p] {a b n : Nat} {x y : Bool} (hx : x = decide (a ≤ n)) (hy : y = decide (b ≤ n)) :
    (if p then x else y) = decide ((if p then a else b) ≤ n) := by
  split <;> assumption

theorem opIllegal_eq (w : Nat) : opIllegal w = (decide (w / 4096 = 2) && decide (illegalFrom (w / 64 % 64) ≤ w % 64)) := by
  have hall : decide (0 ≤ w % 64) = true := decide_eq_true (Nat.zero_le _)
  have hnone : decide (64 ≤ w % 64) = false := decide_eq_false (by omega)
  have hchain := ite_eq_decide_le (p := w / 64 % 64 ∈ [0x0D, 0x0E, 0x0F, 0x2B, 0x2F, 0x3F]) hall.symm <|
    ite_eq_decide_le (p := w / 64 % 64 ∈ [0x1E, 0x1F, 0x20, 0x21, 0x39, 0x3A, 0x3D]) hnone.symm <|
    ite_eq_decide_le (p := w / 64 % 64 ∈ [0x07, 0x34, 0x35]) (a := 32) rfl <|
    ite_eq_decide_le (p := w / 64 % 64 = 0x0B) (a := 14) rfl <| ite_eq_decide_le (p := w / 64 % 64 ∈ [0x18, 0x19, 0x1A]) (a := 16) rfl <|
    ite_eq_decide_le (p := w / 64 % 64 ∈ [0x29, 0x2A]) (a := 10) rfl <|
    ite_eq_decide_le (p := w / 64 % 64 ∈ [0x36, 0x37, 0x38]) (a := 8) rfl <| ite_eq_decide_le (p := w / 64 % 64 = 0x33) (a := 4) rfl <|
    ite_eq_decide_le (p := w / 64 % 64 ∈ [0x22, 0x23, 0x32]) (a := 2) (b := 1) rfl rfl
  exact congrArg (decide (w / 4096 = 2) && ·) hchain

theorem illegalFrom_eq : ∀ op < 64, illegalFrom op = ((kealaOp op).map Prod.fst).getD 0 := by decide

theorem isSome_kealaOp : ∀ op < 64, b2n (kealaOp op).isSome = if op ∈ [0x0D, 0x0E, 0x0F, 0x2B, 0x2F, 0x3F] then 0 else 1 := by decide

theorem illegalDetail_of_opIllegal {w : BitVec 14} (h : opIllegal w.toNat = true) :
    illegalDetail w = some (if w.toNat / 64 % 64 ∈ [0x0D, 0x0E, 0x0F, 0x2B, 0x2F, 0x3F] then 0 else 1) := by
  have hw := w.isLt
  rw [opIllegal_eq, Bool.and_eq_true, decide_eq_true_eq, decide_eq_true_eq] at h
  obtain ⟨hformat, hoperand⟩ := h
  have hop : w.toNat / 64 % 64 < 64 := Nat.mod_lt _ (by decide)
  rw [illegalFrom_eq _ hop] at hoperand
  have hinstr : kealaInstr 0 w = none := by
    have hshape : w.toNat / 2 ^ 12 % 2 ^ 2 = 2 := by omega
    have hsix : w.toNat / 2 ^ 6 % 2 ^ 6 = w.toNat / 64 % 64 := rfl
    have hlow : w.toNat / 2 ^ 0 % 2 ^ 6 = w.toNat % 64 := by omega
    unfold kealaInstr
    simp only [toNat_extractLsb'_eq_div_mod, hshape, hsix, hlow]
    cases hkeala : kealaOp (w.toNat / 64 % 64) with
    | none => rfl
    | some nf =>
      rw [hkeala] at hoperand
      exact if_neg (Nat.not_lt.2 hoperand)
  have hbits : bits w.toNat 6 6 = w.toNat / 64 % 64 := rfl
  rw [illegalDetail, hinstr, hbits, isSome_kealaOp _ hop]

theorem exec_of_faultOf {c : Instr} {k : Fin 4} {code detail : Nat} {after : Bool} (h : faultOf c = some (k, code, detail, after))
    (hwf : c.wellFormed = true) (s : State) : exec c s = done s (s.kealaRun k.val fun _ => .error ⟨code, detail, none, none⟩) ∧
      (code = 7 ∧ after = true ∨ code = 0 ∧ after = false) ∧ detail < 64 := by
  unfold faultOf at h
  split at h
  next =>
    cases h
    exact ⟨rfl, .inl ⟨rfl, rfl⟩, by decide⟩
  next word =>
    cases h
    refine ⟨?_, .inr ⟨rfl, rfl⟩, by split <;> decide⟩
    show done s (match illegalDetail word with
      | some d => s.kealaRun k.val fun _ => .error ⟨0, d, none, none⟩
      | none => s) = _
    rw [illegalDetail_of_opIllegal hwf]
  next => cases h

theorem State.kealaRun_of_error {s : State} {k : Nat} (hissues : s.issues k = true) (hfetch : FetchOk s k = true) (e : KErr) :
    s.kealaRun k (fun _ => .error e) = State.keeperFull s ((s.setKpr k (begun (s.kpr k))).kfault k e) := by
  rw [State.kealaRun, if_pos hissues, State.kfetch_of_fetchOk hfetch]
  rfl

/-! ### Events at a boundary (R373, R378, R381) -/

/-- No restore has to be repeated (R378). -/
theorem each_repeatRestore {s : State} (h : ∀ t < 16, s.rg Reg.LCK_STATUSt_phase t ≠ 4 ∨ (s.part t).hooksOpen = []) (p : Nat → Bool) :
    each (which 16 p) State.repeatRestore s = s := by
  refine each_of_fixed fun t ht => ?_
  have hlow : t < 16 := List.mem_range.1 (List.mem_of_mem_filter ht)
  have hnone : ¬ (s.phase t = 4 ∧ (s.part t).hooksOpen ≠ []) := fun ⟨hphase, hopen⟩ => (h t hlow).elim (· hphase) hopen
  rw [State.repeatRestore, if_neg hnone]

section
variable {s : State} {k v a : Nat} {es : List Nat} (hon : s.keeperOn k = true) (hevent : s.eventAt k = some v)
  (hflip : s.on Reg.TST_FLIP_arm = false) (hr : RReady s k es) (hpc : (s.kpr k).pc < 32768) (hv : v ≠ 1)
  (hvector : vectorTo s k v = some a)
include hon hevent hflip hr hpc hv hvector

/-- An event taken at a boundary: the keeper enters through its vector (R373, R374). -/
theorem State.takeEvent_of_ready : s.takeEvent k v = s.setKpr k { entered s k (vectorRing v) a (s.kpr k).pc (s.kpr k) es with
    takeover := (s.kpr k).takeover && decide (v ≠ 2), hookTaken := (s.kpr k).hookTaken || decide (v = 4) } := by
  have hroom : ReturnRoom s k (s.kpr k) (es.length + 8) := (returnRoom_of_ready hflip hr).congr rfl rfl rfl
  obtain ⟨hrs, hrp, -⟩ := hr
  have henter := State.enterEvent_of_ready rfl (withReturns_of_eq hrs hrp) hroom hv hvector hpc
  rw [State.takeEvent, if_pos ⟨hon, hevent⟩]
  simp only [henter, State.modKpr_setKpr_same]
  rw [State.keeperFull_of_tst (s := s) (t := s.setKpr k _) rfl]
  have hflags (r q a p : Nat) (x : Keeper) : (entered s r q a p x es).takeover = x.takeover ∧ (entered s r q a p x es).hookTaken = x.hookTaken := by
    simp only [entered, flushed]
    split <;> exact ⟨rfl, rfl⟩
  rw [(hflags ..).1, (hflags ..).2]

end

/-! ### RETI (R350, R351, R374) -/

/-- RG as an event frame holds it, its zero bit apart: the stack set and the ring (R351). -/
theorem bits_rg_of_frame (c : Cell) : bits (c &&& 0xF7F#12).toNat 4 3 = c.toNat / 16 % 8 ∧ (c &&& 0xF7F#12).toNat % 4 = c.toNat % 4 := by
  have hand : (c &&& 0xF7F#12).toNat = c.toNat &&& 0xF7F := BitVec.toNat_and ..
  constructor
  · rw [hand, bits, Nat.and_div_two_pow, Nat.and_mod_two_pow]
    exact (Nat.and_two_pow_sub_one_eq_mod _ 3).trans (Nat.mod_mod ..)
  · rw [hand, Nat.and_mod_two_pow (n := 2)]
    exact (Nat.and_two_pow_sub_one_eq_mod _ 2).trans (Nat.mod_mod ..)

/-- The keeper that RETI restores from the frame of y (R374). -/
def Keeper.resumed (x y : Keeper) (a : Nat) : Keeper :=
  { x with pc := a, rg := y.rg &&& 0xF7F#12, v := y.v, u := y.u, fl := y.fl &&& 0xF#12, jx := y.jx, ix := y.ix, al := y.al, ah := y.ah }

theorem State.kReti_stack {s : State} {k : Nat} {x y : Keeper} {a : Nat} {es : List Nat} {frame : List Nat}
    (hframe : frame = [returnEntry 3 0 a, y.rg.toNat, y.v.toNat, y.u.toNat, y.fl.toNat, y.jx.toNat, y.ix.toNat, y.al.toNat + y.ah.toNat * 4096])
    (hneed : (s.setKpr k (withReturns x (frame ++ es))).needRing k 1 = .ok ()) (ha : a < 32768) (hset : y.set = x.set) :
    (s.setKpr k (withReturns x (frame ++ es))).kReti k = .ok (s.setKpr k (flushed s k x.ring y.ring (withReturns (x.resumed y a) es))) := by
  have hcell (c : Cell) : c.toNat < 2 ^ 24 := Nat.lt_trans c.isLt (by decide)
  have hcells (c : Cell) : BitVec.ofNat 12 c.toNat = c := by simp
  have hpair : y.al.toNat + y.ah.toNat * 4096 < 2 ^ 24 := y.saved_lt 0
  have hentry : returnEntry 3 0 a < 2 ^ 24 := by
    rw [returnEntry]
    omega
  have hkind := entryKind_returnEntry (kind := 3) (aux := 0) (by decide) ha (by decide)
  have haddr := entryAddr_returnEntry ha (kind := 3) (aux := 0)
  have hlow : a % 32768 = a := Nat.mod_eq_of_lt ha
  obtain ⟨hrgset, hrgring⟩ := bits_rg_of_frame y.rg
  have hchange : (s.setKpr k (withReturns x es)).changeSet k (bits (y.rg &&& 0xF7F#12).toNat 4 3) = .ok (s.setKpr k (withReturns x es)) :=
    State.changeSet_setKpr s k (hset.symm.trans hrgset.symm)
  have hring (l : List Nat) : (withReturns x l).ring = x.ring := rfl
  have haddrs : withAddr x (y.al.toNat + y.ah.toNat * 4096) = { x with al := y.al, ah := y.ah } := Keeper.restored_saved_addr x y
  obtain ⟨hal, hah⟩ : BitVec.ofNat 12 (y.al.toNat + y.ah.toNat * 4096) = y.al ∧
      BitVec.ofNat 12 ((y.al.toNat + y.ah.toNat * 4096) / 4096) = y.ah := ⟨congrArg Keeper.al haddrs, congrArg Keeper.ah haddrs⟩
  subst hframe
  rw [State.kReti, hneed, ok_bind]
  simp only [State.kpr_setKpr_same, List.cons_append, List.nil_append, State.rpop_withReturns s k x hentry, ok_bind, hkind, ne_eq,
    not_true_eq_false, if_false, State.rpop_withReturns s k x (hcell _), State.rpop_withReturns s k x hpair, hcells, hchange,
    State.setKpr_setKpr_same, hrgring, hring, hal, hah, haddr, State.enterRing_setKpr, hlow]
  rfl

end Sys2Proof.Machine

namespace Sys2Proof.Proofs
open Sys2Proof.Machine Sys2Proof.Claims

theorem kealaFaults {s : State} {c : Instr} {k : Fin 4} {code detail a : Nat} {after : Bool} {st : List Cell} {es : List Nat}
    (hfault : faultOf c = some (k, code, detail, after)) (hwf : c.wellFormed = true) (h : KReady s k.val st) (hr : RReady s k.val es)
    (hdfl : (begun (s.kpr k.val)).dfl = false) (hpc : (begun (s.kpr k.val)).pc < 32768)
    (hvector : vectorTo s k.val (if 2 ≤ (begun (s.kpr k.val)).ring then 5 else 6) = some a) :
    ∃ t, exec c s = .next t ∧ FaultRecorded t k.val code detail (begun (s.kpr k.val)).ring (begun (s.kpr k.val)).pc ∧
      KDid s { t with regs := s.regs } k.val
        { entered s k.val (if 2 ≤ (begun (s.kpr k.val)).ring then 1 else 0) a
            (if after then ((begun (s.kpr k.val)).pc + 1) % 32768 else (begun (s.kpr k.val)).pc) (begun (s.kpr k.val)) es with
          entering := true } ∧
      ∀ key, t.regs.find key ≠ s.regs.find key →
        ∃ f ∈ Reg.KPR_FAULT.fields ++ Reg.KPR_FAULT_PC.fields, key = fieldKey f k.val 0 := by
  obtain ⟨hexec, hcode, hdetail⟩ := exec_of_faultOf hfault hwf s
  obtain ⟨hissues, hfetch, hflip, -⟩ := h
  obtain ⟨x, hx⟩ : ∃ x, x = begun (s.kpr k.val) := ⟨_, rfl⟩
  have hroom := returnRoom_of_ready hflip hr
  have hreturns := withReturns_begun hr
  have hentering : x.entering = false := hx ▸ rfl
  have hset : x.set = (s.kpr k.val).set := hx ▸ rfl
  rw [← hx] at hdfl hpc hvector hroom hreturns ⊢
  have hcode2 : code ≠ 2 := by omega
  have hresume : (if code = 7 then (x.pc + 1) % 32768 else x.pc) = if after then (x.pc + 1) % 32768 else x.pc := by
    rcases hcode with ⟨rfl, rfl⟩ | ⟨rfl, rfl⟩ <;> rfl
  have hring : vectorRing (if 2 ≤ x.ring then 5 else 6) = if 2 ≤ x.ring then 1 else 0 := by split <;> rfl
  have hkfault := State.kfault_of_ready (detail := detail) k.isLt hreturns hroom hset hdfl hentering hpc hcode2 hvector
  rw [State.handling, hresume, hring] at hkfault
  obtain ⟨u, hu⟩ : ∃ u, u = s.setFields k.val (faultWrites x code detail) := ⟨_, rfl⟩
  have htst : u.tst = s.tst := hu ▸ State.setFields_apply s _ _ State.tst fun _ _ => rfl
  have hpending : u.pending = s.pending := hu ▸ State.setFields_apply s _ _ State.pending fun _ _ => rfl
  have hregs : { u with regs := s.regs } = s := hu ▸ State.setFields_apply s _ _ (fun v => { v with regs := s.regs }) fun _ _ => rfl
  rw [← hu] at hkfault
  obtain ⟨z, hz⟩ : ∃ z : Keeper, z = { entered s k.val (if 2 ≤ x.ring then 1 else 0) a (if after then (x.pc + 1) % 32768 else x.pc) x es with
    entering := true } := ⟨_, rfl⟩
  rw [← hz] at hkfault ⊢
  have hdid := kdid_map (fun v => { v with regs := s.regs }) (fun _ _ _ _ => rfl) (kdid_setKpr u k.val z)
  rw [hregs] at hdid
  have hrecorded := faultRecorded_faultWrites k.isLt s x (by omega : code < 8) hdetail hpc
  rw [← hu] at hrecorded
  refine ⟨u.setKpr k.val z, ?_, hrecorded, hdid, fun key hkey => ?_⟩
  · rw [hexec, State.kealaRun_of_error hissues hfetch, ← hx, hkfault, State.keeperFull_of_tst (t := u.setKpr k.val z) htst]
    exact done_of_pending hpending
  · by_contra hnone
    refine hkey ?_
    show u.regs.find key = s.regs.find key
    rw [hu, State.find_setFields]
    exact fun w hw hk => hnone ⟨w.1, mem_fields_of_faultWrites hw, hk⟩

theorem kealaEvents {s : State} {k : Fin 4} {v a : Nat} {es : List Nat} (hv : v = 2 ∨ v = 3 ∨ v = 4) (hon : s.keeperOn k.val = true)
    (hevent : s.eventAt k.val = some v) (hflip : s.on Reg.TST_FLIP_arm = false) (hr : RReady s k.val es) (hpc : (s.kpr k.val).pc < 32768)
    (hvector : vectorTo s k.val v = some a) (hrepeat : v = 2 → ∀ t < 16, s.rg Reg.LCK_STATUSt_phase t ≠ 4 ∨ (s.part t).hooksOpen = []) :
    ∃ t, exec (if v = 2 then .takeover k else if v = 3 then .interruptEntry k else .lockHook k) s = .next t ∧
      KDid s t k.val { entered s k.val (if v = 2 then 0 else 1) a (s.kpr k.val).pc (s.kpr k.val) es with
        takeover := (s.kpr k.val).takeover && decide (v ≠ 2), hookTaken := (s.kpr k.val).hookTaken || decide (v = 4) } := by
  have htake := State.takeEvent_of_ready hon hevent hflip hr hpc (by omega) hvector
  have hring : vectorRing v = if v = 2 then 0 else 1 := by rcases hv with rfl | rfl | rfl <;> rfl
  rw [hring] at htake
  refine ⟨_, ?_, kdid_setKpr s k.val _⟩
  have hdone : done s (s.takeEvent k.val v) = .next (s.takeEvent k.val v) := by
    rw [htake]
    exact done_of_pending rfl
  rw [← htake, ← hdone]
  rcases hv with rfl | rfl | rfl
  · show done s (if s.keeperOn k.val ∧ s.eventAt k.val = some 2 then
      let t := s.takeEvent k.val 2
      if (t.kpr k.val).takeover then t else each (which 16 t.loaded) State.repeatRestore t else s) = _
    have htaken : ((s.takeEvent k.val 2).kpr k.val).takeover = false := by
      rw [htake, State.kpr_setKpr_same]
      exact Bool.and_false _
    have hnone : ∀ t < 16, (s.takeEvent k.val 2).rg Reg.LCK_STATUSt_phase t ≠ 4 ∨ ((s.takeEvent k.val 2).part t).hooksOpen = [] := by
      rw [htake]
      exact hrepeat rfl
    simp only [hon, hevent, and_self, if_true, htaken, Bool.false_eq_true, if_false, each_repeatRestore hnone]
  · rfl
  · rfl

theorem kealaEventReturn {s : State} {k : Fin 4} {y : Keeper} {a : Nat} {st : List Cell} {es : List Nat} (h : KReady s k.val st)
    (hring : (begun (s.kpr k.val)).ring ≤ 1) (ha : a < 32768) (hset : y.set = (begun (s.kpr k.val)).set)
    (hr : RReady s k.val ([returnEntry 3 0 a, y.rg.toNat, y.v.toNat, y.u.toNat, y.fl.toNat, y.jx.toNat, y.ix.toNat,
      y.al.toNat + y.ah.toNat * 4096] ++ es)) :
    ∃ t, exec (.reti k) s = .next t ∧ KDid s t k.val (flushed s k.val (begun (s.kpr k.val)).ring y.ring
      (withReturns ((begun (s.kpr k.val)).resumed y a) es)) := by
  have hneed := State.needRing_onStack s k.val (begun (s.kpr k.val)) st hring
  rw [begun_onStack h, ← withReturns_begun hr] at hneed
  have hreti := State.kReti_stack rfl hneed ha hset
  rw [withReturns_begun hr] at hreti
  exact exists_kdid_of_run h.1 h.2.1 hreti rfl rfl

/-- Settles O7: the frame of eight entries, pushed by a fault or an event and taken back by RETI. -/
theorem kealaEntriesAndReturn : Obligations.KealaEntriesAndReturn := by
  unfold Obligations.KealaEntriesAndReturn
  exact ⟨fun _ _ _ _ _ _ _ _ _ hfault hwf h hr hdfl _ hpc hvector => kealaFaults hfault hwf h hr hdfl hpc hvector,
    fun _ _ _ _ _ hv hon hevent hflip hr hpc hvector hrepeat => kealaEvents hv hon hevent hflip hr hpc hvector hrepeat,
    fun _ _ _ _ _ _ h hring ha hset hr => kealaEventReturn h hring ha hset hr⟩

end Sys2Proof.Proofs
end
